-- ==== Sys2Proof/Word.lean ====
section
/-! DEFINITION. The word types of the model and their plainest arithmetic (R6, R7, R14). -/

namespace Sys2Proof

/-- An eight-bit byte. -/
abbrev Byte := BitVec 8

/-- A 32-bit word: a register, a command word, a reply word. -/
abbrev Word := BitVec 32

/-- A 64-bit word: a register marked 64. -/
abbrev DWord := BitVec 64

/-- A 66-bit block of a lane (R68, R96): bits 1 and 0 hold the sync header, the eight bytes follow, first byte lowest. -/
abbrev Block := BitVec 66

/-- The two configurations of the design (R1). -/
inductive Build where
  | leaf
  | tray
  deriving DecidableEq, Repr

end Sys2Proof
end

