-- ==== Sys2Proof/Syntax.lean ====
section
/-! DEFINITION. The commands of the block and the types of their operands. Identifiers, sizes, indexes and stamps are
natural numbers; what crosses a wire is bytes or words. -/

namespace Sys2Proof

/-- The two sides of a station on a chain (R24, R92). -/
inductive Side where
  | west
  | east
  deriving DecidableEq, Repr

/-- The two directions of a chain (R92). -/
inductive Dir where
  | eastbound
  | westbound
  deriving DecidableEq, Repr

/-- A place on Landing: the stream and the IPv6 address of the far end (R500). -/
structure LndAddr where
  stream : Nat
  ip : Nat
  deriving DecidableEq, Repr

/-- The way by which an envelope reaches a station, and its reply goes back (R421, R422). -/
inductive Via where
  | chain (ch : Nat)
  | landing (a : LndAddr)
  | own
  deriving DecidableEq, Repr

/-- Who launched a command: an aperture (R405), or an envelope under a key (R419). -/
inductive Src where
  | aperture (a : Nat)
  | remote (keyId origin : Nat) (via : Via)
  deriving DecidableEq, Repr

/-- A launched command, its header taken apart (R408). The opcode is the row's own. `level` is AUTH_LEVEL at the cycle
of launch for an aperture (R407) and the key's class for an envelope (R419). `written` is how many words had been
written at launch (R409, check 3). -/
structure Cmd where
  src : Src
  level : Nat
  asyncOk : Bool
  isSigned : Bool
  strictOnly : Bool
  rsv0 : Nat
  length : Nat
  tag : Nat
  parcel : Nat
  rsv1 : Nat
  params : List Word
  written : Nat
  deriving DecidableEq, Repr

/-- Straps and input levels sampled at the release of ZY_PORST_N (R530). -/
structure Straps where
  testMode : Bool
  phyTx : Nat
  phyRx : Nat
  fordListen : Bool
  memTrained : Nat
  lndUp : Nat
  tapOn : Nat
  /-- the first group in which the bonds corrupt the walking pattern, if any -/
  bondBad : Option Nat
  deriving DecidableEq, Repr

/-- What the walking pattern of the bond test finds: the first group that fails, if any (R536). -/
structure BondTest where
  bad : Option Nat
  deriving DecidableEq, Repr

/-- The units on which FENCE_UNIT and QUIESCE act (R447). -/
inductive FltUnit where
  | tally | cadastre | transit | wake | stow
  deriving DecidableEq, Repr

/-- A record of an access tap (R356): kind 0 a data access, 1 lineage, 2 a block event. For lineage `addr` is the sample
identifier; `data` is what the tap delivered. -/
structure TapRecord where
  kind : Nat
  addr : Nat
  size : Nat
  write : Bool
  engine : Nat
  sec : Bool
  priv : Bool
  data : List Byte
  deriving DecidableEq, Repr

/-- What an envelope carries beside its words (R418): the key, the sender, the time of issue, as a Datum time where it is one, and the
tag. -/
structure EnvSeal where
  keyId : Nat
  origin : Nat
  time : Option Nat
  mac : List Byte
  deriving DecidableEq, Repr

/-- A part of a reservation as a node hands it to a child (R244): the envelope's own fields, the command's tag and way, and the part
itself. The spec gives its contents and no layout. -/
structure ResvPart where
  env : EnvSeal
  tag : Nat
  via : Via
  parcel : Nat
  level : Nat
  period : Nat
  prio : Nat
  probes : List (Nat × Nat)
  members : List (Nat × Nat)
  deriving DecidableEq, Repr

/-- What a request to Berths is for, in the order in which requests of one cycle are taken (R485). -/
inductive BrtKind where
  | alarm | ruling | closure | series | bulk | pilot | epoch | witness | stow
  deriving DecidableEq, Repr

/-- A request to Berths (R485). -/
structure BrtReq where
  kind : BrtKind
  size : Nat
  deriving DecidableEq, Repr

/-- The acknowledgement of a ruling (R255): whose it is, its four values, and the station that sends it. -/
structure RulingAck where
  src : Nat
  issuer : Nat
  no : Nat
  applied : Nat
  refused : Nat
  unreached : Nat
  lowest : Option Nat
  deriving DecidableEq, Repr

/-- A message of a claim exchange (R558): a question from a parent, or a child's answer: trays, or a station given up. -/
inductive ClaimMsg where
  | ask (env : EnvSeal) (tag : Nat) (via : Via) (parcel level : Nat) (trays : List Nat)
  | answer (env : EnvSeal) (tag station parcel : Nat) (trays : List Nat)
  | failed (env : EnvSeal) (tag station parcel gone : Nat)
  deriving DecidableEq, Repr

/-- One lane of a tap pod that has counted since the last step: pod, event number and amount (R131). -/
structure TapLane where
  pod : Nat
  event : Nat
  amount : Nat
  deriving DecidableEq, Repr

/-- The commands of the block: one constructor for each row of the opcode table, with its operands. -/
inductive Instr where
  /-- NOP (R426). Command that does nothing and replies OK. -/
  | nop (c : Cmd)
  /-- ECHO (R426). Command that returns its parameter words unchanged. -/
  | echo (c : Cmd)
  /-- IDENT (R426). Command that returns identity, station, firmware, unit, time and power state words. -/
  | ident (c : Cmd)
  /-- PWR_SET (R426). Command that writes PWR_CTL, PWR_HOLD_CFG and PWR_STOW_CFG. -/
  | pwrSet (c : Cmd)
  /-- KEY_SET (R426). Secure command that loads or empties a key slot and removes that key's replay table entries. -/
  | keySet (c : Cmd)
  /-- PIL_SET (R426). Command that writes PIL_CTL (replay window and node key). -/
  | pilSet (c : Cmd)
  /-- FW_PATCH (R429). Command that discards any patch, then reads, checks and installs a signed firmware patch image. -/
  | fwPatch (c : Cmd)
  /-- FW_KEY (R426). Secure command that loads the firmware signing public key. -/
  | fwKey (c : Cmd)
  /-- FW_REVERT (R430). Command that empties patch RAM so that Pilot runs from ROM alone. -/
  | fwRevert (c : Cmd)
  /-- PARCEL_DEFINE (R242). Command that clears or writes probe or member entries of a staged parcel definition. -/
  | parcelDefine (c : Cmd)
  /-- PARCEL_RESERVE (R243). Command that resolves the publishing node and reserves contexts along the parcel's paths. -/
  | parcelReserve (c : Cmd)
  /-- PARCEL_COMMIT (R247). Command at the publishing node that issues a PARCEL_COMMIT ruling effective at T0. -/
  | parcelCommit (c : Cmd)
  /-- PARCEL_RELEASE (R249). Command at the publishing node that frees an uncommitted reservation or issues a PARCEL_RELEASE ruling for epoch E. -/
  | parcelRelease (c : Cmd)
  /-- PARCEL_FREE (R560). Command or remote command that frees the parcel's context and passes PARCEL_FREE down to its children. -/
  | parcelFree (c : Cmd)
  /-- PARCEL_CFG (R261). Command that writes PAR_CTL and RUL_LEAD. -/
  | parcelCfg (c : Cmd)
  /-- RULING_ISSUE (R257). Command that issues a BAR, TRIGGER, STOP_AT, PLAT_SWAP, SUBSPACE_SWAP or WITNESS_PUSH ruling. -/
  | rulingIssue (c : Cmd)
  /-- STOP_AT (R258). Command that arms the lowest free STOP_AT slot at its own instance. -/
  | stopAt (c : Cmd)
  /-- STOP_DISARM (R259). Command that disarms the named stop slots at one DAT_CLK edge, clearing ARMED and FIRED. -/
  | stopDisarm (c : Cmd)
  /-- VERDICT_SET (R353). Command that writes a publishing context's verdict configuration words. -/
  | verdictSet (c : Cmd)
  /-- VERDICT_READ (R349). Command that returns verdicts from the queue in ascending SEQ without removing them. -/
  | verdictRead (c : Cmd)
  /-- VERDICT_SINK (R353). Command that sets the alarm hold time and the alarm verdict sink. -/
  | verdictSink (c : Cmd)
  /-- EPOCH_READ (R205). Command that returns bytes of a published record or of a kept closure. -/
  | epochRead (c : Cmd)
  /-- DEADLINE_SET (R182). Command that sets FLOOR, CEIL and MARGIN of a level and clamps every D_l of that level. -/
  | deadlineSet (c : Cmd)
  /-- STRICT_SET (R196). Command that sets or clears EPO_CTL.STRICT. -/
  | strictSet (c : Cmd)
  /-- ABSENT_DECLARE (R183). Command that declares a child absent for a run of epochs whose gates are open. -/
  | absentDeclare (c : Cmd)
  /-- CLOSURE_PULL (R198). Command or remote command that makes a node resend its kept closures and RESOLVEs with RETX. -/
  | closurePull (c : Cmd)
  /-- VOTE_RAISE (R237). Command that enters PEER vote entries into the epoch in progress of a parcel. -/
  | voteRaise (c : Cmd)
  /-- TALLY_SET (R237). Command that writes TAL_CTL. -/
  | tallySet (c : Cmd)
  /-- PROBE_SET (R152). Command that writes probe descriptors after checking them. -/
  | probeSet (c : Cmd)
  /-- TAP_MAP (R165). Command that writes pod map entries routing event numbers to counters. -/
  | tapMap (c : Cmd)
  /-- TAP_CLEAR (R141). Command that clears counters on a snapshot-then-clear basis. -/
  | tapClear (c : Cmd)
  /-- TRK_SET (R164). Command that writes tracker configurations and restarts the trackers. -/
  | trkSet (c : Cmd)
  /-- INPUT_SET (R165). Command that sets the gauge count, gauge timeout and beat enables. -/
  | inputSet (c : Cmd)
  /-- PLAT_LOAD (R288). Command that reads, checks and places a Cadastre plat image, resident or paged. -/
  | platLoad (c : Cmd)
  /-- PLAT_UNLOAD (R291). Command that frees a plat slot and its resident entries. -/
  | platUnload (c : Cmd)
  /-- PLAT_KEY (R294). Secure command that loads the plat signing key and SIG_REQ. -/
  | platKey (c : Cmd)
  /-- CAD_SET (R294). Command that writes CAD_CTL and CAD_PWR. -/
  | cadSet (c : Cmd)
  /-- SCORE_READ (R283). Command that returns the kept scores of an epoch's rows. -/
  | scoreRead (c : Cmd)
  /-- SCORE_ROW (R294). Command that scores one given row against a loaded plat and returns raw sums and scores. -/
  | scoreRow (c : Cmd)
  /-- SUBSPACE_LOAD (R328). Command that checks a subspace image and loads it, copying weights to scratch when resident. -/
  | subspaceLoad (c : Cmd)
  /-- SUBSPACE_UNLOAD (R331). Command that frees a subspace slot. -/
  | subspaceUnload (c : Cmd)
  /-- TRN_RUN (R332). Command that runs one checked matrix stage over given operands in hold memory. -/
  | trnRun (c : Cmd)
  /-- TRN_SET (R332). Command that writes TRN_CTL, TRN_PWR and TRN_ABFT_TOL. -/
  | trnSet (c : Cmd)
  /-- TRN_UNFENCE (R332). Command that lifts fences on column groups and arrays and clears their counts. -/
  | trnUnfence (c : Cmd)
  /-- TRN_READ (R323). Command that returns bytes of a kept Transit section. -/
  | trnRead (c : Cmd)
  /-- WAKE_CFG (R381). Command that writes Wake configuration registers while no session is armed. -/
  | wakeCfg (c : Cmd)
  /-- WAKE_ARM (R370). Command that starts a trace session, splits the buffer and enters S0. -/
  | wakeArm (c : Cmd)
  /-- WAKE_DISARM (R370). Command that ends the session, writes END and flushes. -/
  | wakeDisarm (c : Cmd)
  /-- WAKE_TRIG (R379). Command that raises the HOST event and writes a MARK packet. -/
  | wakeTrig (c : Cmd)
  /-- WAKE_SECURE (R361). Secure command that sets the secure and privileged exclusion thresholds. -/
  | wakeSecure (c : Cmd)
  /-- WAKE_SEND (R380). Command that sends bytes of the destination ring to the tray build as BULK messages. -/
  | wakeSend (c : Cmd)
  /-- WIT_SET (R402). Command that writes Witness control, store and engine settings. -/
  | witSet (c : Cmd)
  /-- PACK_LOAD (R389). Command that checks a witness pack and stores it in a slot. -/
  | packLoad (c : Cmd)
  /-- PACK_DROP (R402). Command that empties the slot holding a named pack. -/
  | packDrop (c : Cmd)
  /-- WIT_KEY (R402). Secure command that loads the pack signing key. -/
  | witKey (c : Cmd)
  /-- ENGINE_REPORT (R393). Command by which the host reports engines fenced or fences declined. -/
  | engineReport (c : Cmd)
  /-- TEST_NOW (R402). Command that makes the named waiting engines due at once. -/
  | testNow (c : Cmd)
  /-- SELF_NOW (R402). Command that makes the self-tests due at once and reports their outcome. -/
  | selfNow (c : Cmd)
  /-- MARK (R87). Command that stamps Datum time and optionally writes a Logbook event and a Wake MARK packet. -/
  | mark (c : Cmd)
  /-- PULSE_SET (R81). Command that programs a pulse output's start, period, width and enables. -/
  | pulseSet (c : Cmd)
  /-- TIME_SET (R78). Secure command at the grandmaster that loads the clock at one DAT_CLK edge. -/
  | timeSet (c : Cmd)
  /-- SERVO_SET (R89). Command that writes Datum configuration registers at one edge. -/
  | servoSet (c : Cmd)
  /-- TIME_ROLE (R64). Command that sets a tray build's Landing time role, transport, intervals, master and children. -/
  | timeRole (c : Cmd)
  /-- TIME_PROBE (R88). Command that runs measure-only 1588 exchanges with a peer and returns offset statistics. -/
  | timeProbe (c : Cmd)
  /-- FLT_SET (R458). Command that writes QUIET and fault source class, action and grace. -/
  | fltSet (c : Cmd)
  /-- FLT_CLEAR (R449). Command that clears named fault sources whose lines are healthy. -/
  | fltClear (c : Cmd)
  /-- FLT_INJECT (R453). Command that inverts check bits at a chosen memory write or forces test injections. -/
  | fltInject (c : Cmd)
  /-- FLT_DEBUG (R454). Secure command that sets DEBUG_EN. -/
  | fltDebug (c : Cmd)
  /-- LOG_CLEAR (R481). Secure command that clears Logbook events, histograms or extremes. -/
  | logClear (c : Cmd)
  /-- LOG_HIST_SET (R481). Secure command that defines and clears Logbook histograms. -/
  | logHistSet (c : Cmd)
  /-- LOG_FLUSH (R476). Command that writes accumulated histograms and extremes to MRAM. -/
  | logFlush (c : Cmd)
  /-- LOG_SEND (R480). Command that sends Logbook units to the tray build in BULK messages. -/
  | logSend (c : Cmd)
  /-- PLM_SET (R481). Command that writes Plumb channel and rule configuration. -/
  | plmSet (c : Cmd)
  /-- POWER_SET (R462). Command that requests a compute-tier power state. -/
  | powerSet (c : Cmd)
  /-- STOW_JOB (R497). Command that compresses a source region into Stow blocks at a destination. -/
  | stowJob (c : Cmd)
  /-- BERTH_SET (R512). Command that sets the reserved buffer counts of the Berths pools. -/
  | berthSet (c : Cmd)
  /-- LND_SET (R512). Command that writes Landing and series ring configuration registers. -/
  | lndSet (c : Cmd)
  /-- TREE_SET (R511). Command that writes or clears one role's reduction tree entry. -/
  | treeSet (c : Cmd)
  /-- LND_GATE_LOAD (R512). Command that loads a stream's admin gate list. -/
  | lndGateLoad (c : Cmd)
  /-- LND_GATE_SWAP (R509). Command that schedules admin gate lists to become operational at a cycle. -/
  | lndGateSwap (c : Cmd)
  /-- STATION_SET (R21). Command that sets the instance's station number. -/
  | stationSet (c : Cmd)
  /-- CHAIN_SET (R128). Command that writes CHN_CTL and the listen delays. -/
  | chainSet (c : Cmd)
  /-- SPLICE (R121). Command at the tray build that announces a splice-in or splice-out of a station. -/
  | splice (c : Cmd)
  /-- SPLICE_REQ (R128). Command at a leaf that asks its tray build for a splice-out. -/
  | spliceReq (c : Cmd)
  /-- TMT_LOAD (R113). Command that sends an admin gate list to every inserted station and awaits acknowledgements. -/
  | tmtLoad (c : Cmd)
  /-- TMT_SWAP (R114). Command that issues a TIMETABLE_SWAP ruling for a swap cycle. -/
  | tmtSwap (c : Cmd)
  /-- LANE_UNFENCE (R100). Command that unfences named lanes of a side. -/
  | laneUnfence (c : Cmd)
  /-- APERTURE_WRITE (R405). Host write into a command aperture that fills it and launches the command when LENGTH words are written. -/
  | apertureWrite (auth rq ap off : Nat) (wide : Bool) (data : DWord)
  /-- W1C_WRITE (R12). Write to a W1C register that clears each bit written 1 unless hardware sets it in the same cycle. -/
  | w1cWrite (rq off : Nat) (data : DWord)
  /-- RC_READ (R12). Read of an RC counter that returns and clears it. -/
  | rcRead (rq off : Nat)
  /-- REGISTER_WRITE (R11). Write to a register that has no row of its own, applied under its access code. -/
  | registerWrite (rq off : Nat) (wide : Bool) (data : DWord)
  /-- LOW_HALF_READ (R10). 32-bit read of a 64-bit register's low half that latches the high half for the requester. -/
  | lowHalfRead (rq off : Nat)
  /-- HIGH_HALF_READ (R10). 32-bit read of a high half that returns and empties the requester's latch. -/
  | highHalfRead (rq off : Nat)
  /-- LOW_HALF_WRITE (R10). 32-bit write of a low half that is held for the requester. -/
  | lowHalfWrite (rq off : Nat) (data : Word)
  /-- HIGH_HALF_WRITE (R10). 32-bit write of a high half that takes effect with the held low half. -/
  | highHalfWrite (rq off : Nat) (data : Word)
  /-- DAT_NOW_CAPTURE (R60). Read of the low half of a _SUB register that captures the whole Datum time for the requester. -/
  | datNowCapture (rq off : Nat) (wide : Bool)
  /-- LIVE_COUNTER_READ (R145). Read through the live counter window that crosses into a pod and returns V. -/
  | liveCounterRead (rq off : Nat) (wide running : Bool) (lanes : List TapLane)
  /-- COMPUTE_REGISTER_ACCESS (R42). Access to a compute-tier register that ungates the unit's clock or is refused while powered off. -/
  | computeRegisterAccess (rq off : Nat) (write wide : Bool) (data : DWord)
  /-- PIL_DONE_RD_WRITE (R413). Write of PIL_DONE_RD that consumes done entries and frees async slots. -/
  | pilDoneRdWrite (rq : Nat) (data : Word)
  /-- WAK_DST_RD_WRITE (R373). Write of WAK_DST_RD that consumes destination ring bytes. -/
  | wakDstRdWrite (rq : Nat) (data : DWord)
  /-- WAK_XR_RD_WRITE (R373). Write of WAK_XR_RD that consumes excerpt ring bytes. -/
  | wakXrRdWrite (rq : Nat) (data : DWord)
  /-- STW_SR_RD_WRITE (R499). Write of STW_SR_RD that consumes series ring bytes. -/
  | stwSrRdWrite (rq : Nat) (data : DWord)
  /-- ZY_PORST_N_ASSERT (R516). Assertion of power-on reset that holds the whole block in reset. -/
  | zyPorstNAssert
  /-- ZY_PORST_N_RELEASE (R545). Release of power-on reset that starts the base tier, samples straps and begins boot. -/
  | zyPorstNRelease (straps : Straps)
  /-- ZY_CRST_N_ASSERT (R518). Assertion of compute reset that loses compute-tier state and abandons work. -/
  | zyCrstNAssert
  /-- ZY_CRST_N_RELEASE (R536). Release of compute reset that tests the bond and brings the compute tier to ACTIVE. -/
  | zyCrstNRelease (bond : BondTest)
  /-- ZY_HRST_N_ASSERT (R414). Assertion of host reset that discards apertures and the done queue. -/
  | zyHrstNAssert
  /-- ZY_HRST_N_RELEASE (R405). Release of host reset that returns apertures to FREE. -/
  | zyHrstNRelease
  /-- PILOT_BOOT (R405). Pilot completes its boot from ROM and the apertures become FREE. -/
  | pilotBoot
  /-- POWER_ENTRY (R464). Compute tier entry from ACTIVE into DOZE or SLEEP through its ordered steps. -/
  | powerEntry
  /-- POWER_EXIT (R465). Compute tier return to ACTIVE from DOZE or SLEEP through its ordered steps. -/
  | powerExit (bond : BondTest)
  /-- DOZE_SLEEP_CHANGE (R555). Change between DOZE and SLEEP that does not pass through ACTIVE. -/
  | dozeSleepChange
  /-- TIMETABLE_CYCLE_START (R93). Start of a Timetable cycle at its Datum time, with container 0 and its ordered sets. -/
  | timetableCycleStart (cyc : Nat) (aligned : List Nat)
  /-- CONTAINER_START (R93). Start time of a container at which a station may fill a granted empty container. -/
  | containerStart (ch : Nat) (dir : Dir) (cyc cont : Nat) (full : Bool)
  /-- CONTAINER_RELAY (R94). An inserted leaf receives a container and relays it 140 ns later. -/
  | containerRelay (ch : Nat) (dir : Dir) (cyc cont : Nat) (cell : Option (List Byte))
  /-- CELL_RECEIVE (R106). A cell is received, its HCRC and sequence are checked, and it is passed to its consumer. -/
  | cellReceive (ch : Nat) (dir : Dir) (bytes : List Byte)
  /-- BULK_REQ_RECEIVE (R107). A BULK sender resends retained cells with RETX. -/
  | bulkReqReceive (ch : Nat) (src : Nat) (bytes : List Byte)
  /-- BULK_RETENTION_EXPIRY (R107). A BULK cell kept for 64 cycles is no longer retained. -/
  | bulkRetentionExpiry (ch : Nat) (dir : Dir) (seq : Nat)
  /-- TIME_WORD_RECEIVE (R72). A leaf takes a valid time word, measures its offset and forwards it. -/
  | timeWordReceive (side : Side) (blocks : List Block) (rx tx : Nat)
  /-- TIME_WORD_RETURN (R74). A tray build receives its own time word back and computes the closure share. -/
  | timeWordReturn (ch : Nat) (blocks : List Block) (rx : Nat)
  /-- REF_TIMEOUT (R62). REF_TMO expected measurements missed in a row move Datum to HOLDOVER or FREE_RUN. -/
  | refTimeout
  /-- HOLDOVER_EXPIRY (R62). HOLD_MAX elapses in HOLDOVER and Datum enters FREE_RUN with TIME_FREE. -/
  | holdoverExpiry
  /-- PLUMB_TRIM (R51). Once per second while locked Plumb trims its time base against Datum. -/
  | plumbTrim (cycles : Nat)
  /-- LINK_DELAY_REQUEST (R70). Every 128 cycles a station sends a link-delay request on each side. -/
  | linkDelayRequest (ch : Nat) (side : Side) (tx : Nat)
  /-- LINK_DELAY_MESSAGE_RECEIVE (R71). A link-delay request is answered, or a response yields a filtered delay sample. -/
  | linkDelayMessageReceive (ch : Nat) (side : Side) (blocks : List Block) (rx tx : Nat)
  /-- LINK_DELAY_TIMEOUT (R71). A request with no response within 2 cycles is discarded. -/
  | linkDelayTimeout (ch : Nat) (side : Side)
  /-- LANE_REQUEST_RECEIVE (R100). A sender receives a lane request and fences or unfences its transmit lanes. -/
  | laneRequestReceive (ch : Nat) (side : Side) (blocks : List Block)
  /-- BLOCK_LOCK_GAIN (R99). Block lock on at least 3 lanes starts deskew from DOWN. -/
  | blockLockGain (ch : Nat) (side : Side) (lanes : Nat)
  /-- ALIGNMENT_LOCK (R99). Two consecutive deskewed alignment rows bring the direction UP. -/
  | alignmentLock (ch : Nat) (side : Side)
  /-- LOCKING_TIMEOUT (R99). 100 µs in LOCKING without UP returns the direction to DOWN. -/
  | lockingTimeout (ch : Nat) (side : Side)
  /-- BLOCK_LOCK_LOSS (R99). Loss of block lock, or repeated losses, on a lane of an UP direction. -/
  | blockLockLoss (ch : Nat) (side : Side) (lane : Nat)
  /-- ALIGNMENT_LOSS (R99). Alignment rows missed in 2 cycles take the direction DOWN. -/
  | alignmentLoss (ch : Nat) (side : Side)
  /-- CHAIN_CUT (R116). Two consecutive failed cycles clear WHOLE and switch the chain to CUT entries. -/
  | chainCut (ch : Nat)
  /-- CHAIN_WHOLE (R116). 128 consecutive returns of the time word set WHOLE again. -/
  | chainWhole (ch : Nat)
  /-- HEADLESS (R118). A leaf with no time word for 8 cycles stops originating and keeps its closures. -/
  | headless
  /-- SPLICE_ANN_RECEIVE (R123). A leaf receives a splice announcement and decides whether to splice. -/
  | spliceAnnReceive (bytes : List Byte) (pE pW : Nat)
  /-- TMT_LIST_RECEIVE (R113). A station stores gate list entries and acknowledges a complete list. -/
  | tmtListReceive (ch : Nat) (bytes : List Byte)
  /-- SPLICE_REQUEST_RECEIVE (R128). The tray build receives a leaf's splice-out request and announces it. -/
  | spliceRequestReceive (ch src : Nat)
  /-- SPLICE_TIME (R121). At T_s the splicing station changes FORD_HOLD. -/
  | spliceTime (ch : Nat) (near : Bool)
  /-- SPLICE_WINDOW_CLOSE (R557). 100 µs after T_s, covered directions not UP take the effects of DOWN. -/
  | spliceWindowClose (ch : Nat)
  /-- ROLL_SEND (R126). Every 128 cycles, or on a hop mismatch, the tray build sends a ROLL. -/
  | rollSend (ch : Nat)
  /-- ROLL_RECEIVE (R126). An inserted leaf answers a ROLL with ROLL_ACK. -/
  | rollReceive (bytes : List Byte)
  /-- ROLL_ACK_RECEIVE (R126). The tray build sets the leaf's roster bit. -/
  | rollAckReceive (ch src : Nat) (bytes : List Byte)
  /-- ROLL_ACK_TIMEOUT (R126). Two consecutive unanswered rolls clear a roster bit. -/
  | rollAckTimeout (ch pos : Nat)
  /-- LINK_ALARM_RECEIVE (R127). The tray build receives a LINK_ALARM, sends LINK_STATE and handles it as an alarm. -/
  | linkAlarmReceive (ch src : Nat) (bytes : List Byte)
  /-- LINK_STATE_RECEIVE (R111). A leaf learns fenced and down links and avoids fenced containers. -/
  | linkStateReceive (bytes : List Byte)
  /-- EPOCH_STROBE (R82). Datum raises a parcel's strobe at boundary T0 + kP, ending one epoch and starting the next. -/
  | epochStrobe (parcel : Nat) (lanes : List TapLane)
  /-- SNAPSHOT_DEFERRED_CAPTURE (R139). A pod with no free bank captures, marked DEFERRED, once a bank frees. -/
  | snapshotDeferredCapture (pod : Nat) (lanes : List TapLane)
  /-- SNAPSHOT_DELIVERED (R139). A snapshot bank has crossed to the probe unit and frees. -/
  | snapshotDelivered (pod : Nat)
  /-- SNAPSHOT_TIMEOUT (R140). A snapshot not delivered within 2 µs becomes STALE. -/
  | snapshotTimeout (pod : Nat)
  /-- SERIES_DISCARD (R160). A SERIES message not sent by the 16th boundary is discarded. -/
  | seriesDiscard (parcel : Nat)
  /-- GAUGE_ANSWER (R146). The host answers an outstanding gauge request with GAUGE_DATA. -/
  | gaugeAnswer (data : Word)
  /-- GAUGE_TIMEOUT (R147). A gauge unanswered within TMO becomes STALE. -/
  | gaugeTimeout
  /-- TAP_ON_RISE (R134). A rising TAP_ON zeroes the pod's counters and resets its map to identity. -/
  | tapOnRise (pod : Nat)
  /-- TAP_ON_FALL (R144). A falling TAP_ON stops the pod counting and makes its epochs STALE. -/
  | tapOnFall (pod : Nat)
  /-- BEAT_EDGE (R85). Datum stamps a rising edge of ZY_BEAT and queues the stamp. -/
  | beatEdge (n : Nat) (edge : Nat)
  /-- PPS_EDGE (R77). A rising edge of DAT_PPS_IN gives the grandmaster a measurement. -/
  | ppsEdge (edge : Nat)
  /-- PULSE_EDGE (R80). A pulse output rises at a programmed edge time for WIDTH cycles. -/
  | pulseEdge (n : Nat)
  /-- STOP_SLOT_FIRE (R83). An armed STOP_AT slot fires and requests DIE_STOP. -/
  | stopSlotFire (m : Nat)
  /-- DIE_STOP_RELEASE (R533). DIE_STOP falls once the last request is withdrawn, no sooner than 1 µs after it rose. -/
  | dieStopRelease
  /-- DIE_STOP_ACK (R533). The host raises or lowers DIE_STOP_ACK. -/
  | dieStopAck (level : Bool)
  /-- STOP_NOACK (R533). DIE_STOP high for 100 µs without acknowledgement asserts source 11. -/
  | stopNoack
  /-- CLOSURE_RECEIVE (R183). A node receives a child's FULL closure, checks it and queues its merge. -/
  | closureReceive (src parcel ep : Nat) (degraded : Bool) (bytes : List Byte)
  /-- ASLEEP_RECEIVE (R179). A node records a child present-asleep for an epoch. -/
  | asleepReceive (src parcel ep : Nat) (degraded : Bool) (bytes : List Byte)
  /-- RESOLVE_RECEIVE (R188). A parent keeps or voids a held Transit section. -/
  | resolveReceive (src parcel ep : Nat) (degraded : Bool) (bytes : List Byte)
  /-- TALLY_ITEM_COMPLETE (R232). Tally completes a queued merge, fold or epoch finish. -/
  | tallyItemComplete
  /-- CLOSE_DEADLINE_EXPIRY (R183). D_eff expires: outstanding children become TIMEOUT, or are pulled under STRICT. -/
  | closeDeadlineExpiry (parcel level : Nat)
  /-- STRICT_STALL (R198). The oldest open epoch passes 2 × P under STRICT and STALL is set. -/
  | strictStall (parcel level : Nat)
  /-- GATE_CLOSE (R189). A node closes an epoch's gate once every child and pending contribution is settled. -/
  | gateClose (parcel level : Nat)
  /-- DEADLINE_WINDOW_END (R182). At the end of 128 epochs D_l is recomputed from q99. -/
  | deadlineWindowEnd (parcel level : Nat)
  /-- TRAY_CLOSURE_SEND (R313). A tray build sends its closure once Tally, Cadastre and Transit allow. -/
  | trayClosureSend (parcel : Nat)
  /-- CADASTRE_PASS_START (R275). Cadastre begins its next pass over ready rows, asking leave for paged plats. -/
  | cadastrePassStart
  /-- CADASTRE_PASS_COMPLETE (R274). A pass delivers its last scores and votes and releases leave. -/
  | cadastrePassComplete
  /-- SCORE_TIMEOUT (R277). A job not begun within SCORE_TMO is abandoned as UNSCORED. -/
  | scoreTimeout (parcel ep : Nat)
  /-- TRANSIT_PASS_START (R309). Transit begins a ready pass after asking for leave. -/
  | transitPassStart
  /-- TRANSIT_TILE_COMPLETE (R312). A tile completes its stream and its outputs and epilogues are formed. -/
  | transitTileComplete
  /-- TRANSIT_CHECK_COMPLETE (R316). A tile's checksum checks complete 64 cycles after it. -/
  | transitCheckComplete (cols : List Nat) (unlocated : Bool)
  /-- TRANSIT_RUN_TIMEOUT (R310). A pass not begun within RUN_TMO is abandoned. -/
  | transitRunTimeout (parcel ep : Nat)
  /-- ENVELOPE_RECEIVE (R419). A station checks a command envelope's tag, time and replay entry and launches it. -/
  | envelopeReceive (via : Via) (bytes : List Byte)
  /-- ENVELOPE_RELAY (R422). A tray build relays a command envelope to a leaf of its chains. -/
  | envelopeRelay (via : Via) (bytes : List Byte)
  /-- REPLY_ENVELOPE_RECEIVE (R421). A node accepts a reply envelope to a command it issued, or a tray relays a leaf reply. -/
  | replyEnvelopeReceive (via : Via) (bytes : List Byte)
  /-- RELAY_ENTRY_TIMEOUT (R422). A relay entry held after ACCEPTED is freed after 60 s. -/
  | relayEntryTimeout (entry : Nat)
  /-- COMMAND_FINAL_REPLY (R412). An ACCEPTED command completes and its final reply goes to the done queue or a reply envelope. -/
  | commandFinalReply (job : Nat)
  /-- RULING_RECEIVE (R253). A station checks, holds or refuses a ruling and forwards it to its children. -/
  | rulingReceive (src parcel : Nat) (bytes : List Byte)
  /-- RULING_ACK_RECEIVE (R255). A node collects a child's ruling acknowledgement. -/
  | rulingAckReceive (ack : RulingAck)
  /-- RULING_RESEND_TIMEOUT (R255). A node resends a ruling to a silent child, then gives it up. -/
  | rulingResendTimeout (issuer no child : Nat)
  /-- RULING_EFFECT (R256). A pending ruling takes effect at its effective point. -/
  | rulingEffect (issuer no : Nat)
  /-- RESERVATION_PART_RECEIVE (R244). A node checks itself, reserves a context and forwards parts to its children. -/
  | reservationPartReceive (part : ResvPart)
  /-- CLAIM_EXCHANGE (R558). A child answers which member trays lie in its subtree. -/
  | claimExchange (msg : ClaimMsg)
  /-- RESERVATION_RESEND_TIMEOUT (R244). A node resends a reservation part to a silent child, then gives it up. -/
  | reservationResendTimeout (parcel level : Nat)
  /-- RESERVATION_LAPSE (R246). An uncommitted reservation is undone after RESV_HOLD. -/
  | reservationLapse (parcel : Nat)
  /-- STAGED_DEFINITION_EXPIRY (R242). A staged definition is discarded RESV_HOLD after its last write. -/
  | stagedDefinitionExpiry (parcel : Nat)
  /-- ALARM_RECEIVE (R348). A tray build turns an ALARM message into an alarm verdict or coalesces it. -/
  | alarmReceive (src : Nat) (bytes : List Byte)
  /-- ALARM_HOLD_END (R348). A hold table entry ends and writes a REPEAT verdict if counted. -/
  | alarmHoldEnd (entry : Nat)
  /-- SERIES_RECEIVE (R499). A tray build writes a SERIES message into its series ring and forwards it. -/
  | seriesReceive (src parcel : Nat) (bytes : List Byte)
  /-- BULK_EXCERPT_RECEIVE (R380). A tray build writes a trace or Logbook excerpt into its excerpt ring. -/
  | bulkExcerptReceive (src : Nat) (bytes : List Byte)
  /-- FRAME_RECEIVE (R503). Landing checks a received frame, polices it, forwards it or delivers its items. -/
  | frameReceive (stream : Nat) (bytes : List Byte) (age : Nat) (err : Bool)
  /-- FRAME_TRANSMIT (R504). At a frame boundary a stream sends the first ready TIME, forwarded or gated class frame. -/
  | frameTransmit (stream : Nat)
  /-- PTP_RECEIVE (R76). A 1588 message is stamped and Sync–Delay pairs yield a servo measurement. -/
  | ptpReceive (stream : Nat) (bytes : List Byte) (stamp : Nat)
  /-- PTP_SYNC_SEND (R75). A master sends Sync at its configured interval. -/
  | ptpSyncSend
  /-- BERTH_ALLOCATE (R485). Berths serves one buffer request per cycle from the smallest fitting pool. -/
  | berthAllocate (first : BrtReq) (more : List BrtReq) (freed : List (Nat × Nat))
  /-- FAULT_LINE_RISE (R444). A fault line's rising edge latches or counts a fault. -/
  | faultLineRise (n : Nat) (held : Bool)
  /-- FAULT_PAIR_INVALID (R441). A true and complement pair agreeing for 3 cycles latches a wire fault. -/
  | faultPairInvalid (n : Nat) (lasting : Bool)
  /-- GRACE_EXPIRY (R444). A deferred fault's grace timer ends and the source escalates. -/
  | graceExpiry (n : Nat)
  /-- QUIET_EXPIRY (R451). The quiet timer ends with lines healthy and the block leaves DEGRADED. -/
  | quietExpiry
  /-- CDC_TIMEOUT (R455). A handshake or FIFO crossing waits 65,536 cycles and completes with zero data. -/
  | cdcTimeout (crossing : Nat)
  /-- HOST_MASTER_ERROR (R525). An HM_ERR response raises fault source 12. -/
  | hostMasterError
  /-- HOLD_READ_ERROR (R541). A hold beat with MEM_RERR fails the access and raises source 35. -/
  | holdReadError (port : Nat)
  /-- HOLD_TRAINING_LOSS (R539). A fall of MEM_TRAINED raises source 36. -/
  | holdTrainingLoss (port : Nat)
  /-- LANDING_LINK_DOWN (R543). A fall of LND_UP raises source 37. -/
  | landingLinkDown (stream : Nat)
  /-- LEAVE_GRANT (R433). LEAVE_GNT sampled high grants the request on the signals. -/
  | leaveGrant
  /-- LEAVE_WAIT_EXPIRY (R434). A leave request's PWR_WAIT ends without a grant and it is refused. -/
  | leaveWaitExpiry
  /-- WAKE_TAP_RECORD (R356). An access tap presents a record that Wake stamps, filters and writes as a packet. -/
  | wakeTapRecord (tap auth : Nat) (rec : TapRecord)
  /-- WAKE_TIMER_EXPIRY (R369). A Wake timer expires and raises its TIMER event. -/
  | wakeTimerExpiry (n : Nat)
  /-- WAKE_COUNTER_LIMIT (R369). A Wake event counter reaches LIMIT, raises CNT and restarts. -/
  | wakeCounterLimit (n : Nat)
  /-- WAKE_SYNC_PERIODIC (R365). Wake writes a periodic SYNC after 4,096 packets or 1 ms. -/
  | wakeSyncPeriodic
  /-- WAKE_DRAIN_UNIT (R372). Drain copies one 64-byte unit into the destination ring when room allows. -/
  | wakeDrainUnit
  /-- WITNESS_DUE (R393). An engine's due time arrives and TEST_REQ rises or the due time advances. -/
  | witnessDue (n : Nat)
  /-- WITNESS_WINDOW_EXPIRY (R393). D + W passes and the engine's overdue policy acts. -/
  | witnessWindowExpiry (n : Nat)
  /-- TEST_GNT_RISE (R394). A grant is taken and the run asks for leave. -/
  | testGntRise (n : Nat)
  /-- TEST_GNT_FALL (R398). A grant falls while TEST_REQ is high and the run is aborted. -/
  | testGntFall (n : Nat)
  /-- WITNESS_RUN_START (R395). With leave granted a run injects the first record of its pack. -/
  | witnessRunStart (n : Nat)
  /-- WITNESS_RECORD_RETURN (R396). A record's output returns and its digest is compared. -/
  | witnessRecordReturn (eng record : Nat) (bytes : List Byte)
  /-- WITNESS_RETURN_TIMEOUT (R396). A record whose output does not return within RET_TMO fails. -/
  | witnessReturnTimeout (eng : Nat) (bytes : List Byte)
  /-- WITNESS_LEAVE_RETRY (R393). After a leave refusal TEST_REQ rises again after 1 ms. -/
  | witnessLeaveRetry (n : Nat)
  /-- WITNESS_STAGING_TIMEOUT (R392). An incomplete staging is discarded 1 s after its first fragment. -/
  | witnessStagingTimeout (n : Nat)
  /-- SELF_TEST_DUE (R400). SELF_PER elapses and the self-tests fall due. -/
  | selfTestDue
  /-- SELF_TEST_RUN (R400). The self-tests run once Tally and Cadastre are idle with no near boundary. -/
  | selfTestRun (cadFails talFails : Bool)
  /-- PLUMB_SAMPLE_TICK (R468). An enabled channel requests a sensor sample at its period. -/
  | plumbSampleTick (ch : Nat)
  /-- PLUMB_SAMPLE_ANSWER (R469). A sensor answer is median- and IIR-filtered. -/
  | plumbSampleAnswer (ch : Nat) (data : Nat)
  /-- PLUMB_SAMPLE_TIMEOUT (R531). A sample unanswered within 8 cycles is not taken. -/
  | plumbSampleTimeout (ch : Nat)
  /-- PLUMB_RULE_TICK (R470). Every 10 µs Plumb updates condition latches and rule states. -/
  | plumbRuleTick
  /-- RULE_FIRE (R471). A rule's dwell count reaches DWELL and it performs its actions. -/
  | ruleFire (r : Nat)
  /-- RULE_GAP_ALARM (R471). A fired rule repeats its ALARM after GAP. -/
  | ruleGapAlarm (r : Nat)
  /-- LIFE_TICK (R472). OPTIME advances and the identity, histogram and extremes units are written. -/
  | lifeTick
  /-- LOG_EVENT_WRITE (R477). A queued Logbook event is written into slot NEXT. -/
  | logEventWrite
  /-- REFUSED_ACCESS (R551). A host target port access of a bad width or alignment, or to a range or instance the build lacks, returns zero or has no effect and sets CAP_ACC_ERR or CAP_ABSENT_HIT. -/
  | refusedAccess (rq off : Nat) (write : Bool) (size : Nat) (data : DWord)
  /-- PPS_MISS (R91). An expected DAT_PPS_IN edge does not come, so Datum sets DAT_EVT.PPS_MISS and PPS_SEEN falls after 2 s without an edge. -/
  | ppsMiss
  /-- DELAY_REQ_SEND (R75). A tray build with Landing role slave sends a Delay_Req at its DREQ_LOG interval and stamps it as t3. -/
  | delayReqSend (tx : Nat)
  /-- QUIESCE_RELEASE (R447). The 2 µs reset of a quiesced unit ends, after which Cadastre reloads its resident plats, Transit its subspaces, and Tally contexts take in the next epoch. -/
  | quiesceRelease (unit : FltUnit)
  deriving DecidableEq, Repr

end Sys2Proof
end

