-- ==== Sys2Proof/Decode.lean ====
section
/-! DEFINITION. The command that a word spells by the opcode table's bits. The table gives no row any bits: a command is
a launched header with its words, a register access or an event, and none of them is one numbered word. -/

namespace Sys2Proof

/-- The command that the `nbits` bits of `w` spell by the opcode table: none, since no row of the table has bits. -/
def decodeTableWord (_nbits _w : Nat) : Option Instr := none

end Sys2Proof
end

