-- ==== Sys2Proof/Machine/Bits.lean ====
section
/-! DEFINITION. Fields of words, signed readings and little-endian byte strings (R6, R7). -/

namespace Sys2Proof.Machine

/-- The field of `len` bits whose lowest bit is `lo` (R6). -/
def fld (v lo len : Nat) : Nat := v / 2 ^ lo % 2 ^ len

/-- Bit `i` of `v`. -/
def bit (v i : Nat) : Bool := v / 2 ^ i % 2 == 1

/-- One as a number. -/
def b2n (b : Bool) : Nat := if b then 1 else 0

/-- `v` with the field of `len` bits at `lo` replaced by `x`. -/
def setFld (v lo len x : Nat) : Nat :=
  v - fld v lo len * 2 ^ lo + (x % 2 ^ len) * 2 ^ lo

/-- `v` with bit `i` set. -/
def setBit (v i : Nat) : Nat := setFld v i 1 1

/-- `v` with bit `i` clear. -/
def clrBit (v i : Nat) : Nat := setFld v i 1 0

/-- Two's complement reading of the low `w` bits. -/
def toInt (w v : Nat) : Int :=
  if v % 2 ^ w < 2 ^ (w - 1) then (v % 2 ^ w : Nat) else ((v % 2 ^ w : Nat) : Int) - (2 ^ w : Nat)

/-- The `w`-bit two's complement image of `z`. -/
def ofInt (w : Nat) (z : Int) : Nat := (z % (2 ^ w : Nat)).toNat

/-- `z` limited to the range of a signed `w`-bit field. -/
def satInt (w : Nat) (z : Int) : Int :=
  if z < -((2 ^ (w - 1) : Nat) : Int) then -((2 ^ (w - 1) : Nat) : Int)
  else if z > ((2 ^ (w - 1) : Nat) : Int) - 1 then ((2 ^ (w - 1) : Nat) : Int) - 1 else z

/-- `n` limited to the range of an unsigned `w`-bit field. -/
def satNat (w n : Nat) : Nat := if n < 2 ^ w then n else 2 ^ w - 1

/-- The value of a little-endian byte string (R7). -/
def leNat : List Byte → Nat
  | [] => 0
  | b :: bs => b.toNat + 256 * leNat bs

/-- `n` as `k` little-endian bytes (R7). -/
def leBytes : Nat → Nat → List Byte
  | 0, _ => []
  | k + 1, n => BitVec.ofNat 8 n :: leBytes k (n / 256)

/-- The value of a big-endian byte string, as SHA-256 and P-256 use it. -/
def beNat (bs : List Byte) : Nat := bs.foldl (fun a b => a * 256 + b.toNat) 0

/-- `n` as `k` big-endian bytes. -/
def beBytes (k n : Nat) : List Byte := (leBytes k n).reverse

/-- `k` bytes of `bs` from offset `o`; fewer where the string ends. -/
def slice (bs : List Byte) (o k : Nat) : List Byte := (bs.drop o).take k

/-- The little-endian number in the `k` bytes of `bs` at offset `o`. -/
def leAt (bs : List Byte) (o k : Nat) : Nat := leNat (slice bs o k)

/-- Bytes of a list of 32-bit words, each word in its own byte order (R7). -/
def wordsBytes (ws : List Word) : List Byte := ws.flatMap (fun w => leBytes 4 w.toNat)

/-- 32-bit words of a byte string, the last one filled up with zeros. -/
def bytesWordsAux : Nat → List Byte → List Word
  | 0, _ => []
  | _ + 1, [] => []
  | k + 1, b :: bs => BitVec.ofNat 32 (leNat ((b :: bs).take 4)) :: bytesWordsAux k ((b :: bs).drop 4)

/-- 32-bit words of a byte string (R7). -/
def bytesWords (bs : List Byte) : List Word := bytesWordsAux bs.length bs

/-- A word from a number. -/
def w32 (n : Nat) : Word := BitVec.ofNat 32 n

/-- Entry `i` of a list of words as a number, zero past its end. -/
def wAt (ws : List Word) (i : Nat) : Nat := (ws.getD i 0#32).toNat

/-- Zero bytes. -/
def zeros (k : Nat) : List Byte := List.replicate k 0#8

/-- `bs` filled up with zeros, or cut, to `k` bytes. -/
def padTo (k : Nat) (bs : List Byte) : List Byte := (bs ++ zeros (k - bs.length)).take k

/-- The number of set bits among the low `w` bits. -/
def popCount : Nat → Nat → Nat
  | 0, _ => 0
  | w + 1, v => v % 2 + popCount w (v / 2)

/-- Quotient rounded up. -/
def ceilDiv (a b : Nat) : Nat := (a + b - 1) / b

/-- Quotient rounded to nearest, halves up. -/
def roundDiv (a b : Nat) : Nat := (2 * a + b) / (2 * b)

/-- The bits `0 … w-1` of `v` that are set, ascending. -/
def setBits (w v : Nat) : List Nat := (List.range w).filter (bit v)

end Sys2Proof.Machine
end

