-- ==== Sys2Proof/Machine/Crypto.lean ====
section
/-! DEFINITION. Checks and signatures the spec names: CRC-16 (R68), CRC-32C (R105), CRC-64/ECMA-182 (R385),
SHA-256, HMAC-SHA-256 (R418) and ECDSA over P-256 (R286, R428). -/

namespace Sys2Proof.Machine

/-- One step of a most-significant-bit-first CRC of width `w` on a register whose top bit is about to leave. -/
def crcShift (w poly c : Nat) : Nat :=
  if bit c (w - 1) then (2 * c % 2 ^ w) ^^^ poly else 2 * c % 2 ^ w

/-- A most-significant-bit-first CRC of width `w` over `bs`, no reflection, no final XOR. -/
def crcMsb (w poly init : Nat) (bs : List Byte) : Nat :=
  bs.foldl (fun c b => Nat.repeat (crcShift w poly) 8 (c ^^^ (b.toNat * 2 ^ (w - 8)))) init

/-- CRC-16 of R68 and R102: polynomial 0x1021, initial value 0xFFFF. -/
def crc16 (bs : List Byte) : Nat := crcMsb 16 0x1021 0xFFFF bs

/-- CRC-64/ECMA-182 of R385: polynomial 0x42F0E1EBA9EA3693, initial value 0. -/
def crc64 (bs : List Byte) : Nat := crcMsb 64 0x42F0E1EBA9EA3693 0 bs

/-- One step of the reflected CRC-32C. -/
def crc32cShift (c : Nat) : Nat := if c % 2 = 1 then (c / 2) ^^^ 0x82F63B78 else c / 2

/-- CRC-32C of `bs` (R105). PRESUMED: the Castagnoli CRC in its usual form, reflected, with initial value and final XOR
all ones; the spec names it only. -/
def crc32c (bs : List Byte) : Nat :=
  (bs.foldl (fun c b => Nat.repeat crc32cShift 8 (c ^^^ b.toNat)) 0xFFFFFFFF) ^^^ 0xFFFFFFFF

/-- `bs` followed by its CRC-32C (R105). -/
def withCrc (bs : List Byte) : List Byte := bs ++ leBytes 4 (crc32c bs)

/-- Whether the last four bytes are the CRC-32C of all before them (R105). -/
def crcOk (bs : List Byte) : Bool :=
  decide (4 ≤ bs.length) && leAt bs (bs.length - 4) 4 == crc32c (bs.take (bs.length - 4))

/-! ### SHA-256 and HMAC -/

/-- Round constants of SHA-256. -/
def shaK : List Nat :=
  [0x428A2F98, 0x71374491, 0xB5C0FBCF, 0xE9B5DBA5, 0x3956C25B, 0x59F111F1, 0x923F82A4, 0xAB1C5ED5,
   0xD807AA98, 0x12835B01, 0x243185BE, 0x550C7DC3, 0x72BE5D74, 0x80DEB1FE, 0x9BDC06A7, 0xC19BF174] ++
  [0xE49B69C1, 0xEFBE4786, 0x0FC19DC6, 0x240CA1CC, 0x2DE92C6F, 0x4A7484AA, 0x5CB0A9DC, 0x76F988DA,
   0x983E5152, 0xA831C66D, 0xB00327C8, 0xBF597FC7, 0xC6E00BF3, 0xD5A79147, 0x06CA6351, 0x14292967] ++
  [0x27B70A85, 0x2E1B2138, 0x4D2C6DFC, 0x53380D13, 0x650A7354, 0x766A0ABB, 0x81C2C92E, 0x92722C85,
   0xA2BFE8A1, 0xA81A664B, 0xC24B8B70, 0xC76C51A3, 0xD192E819, 0xD6990624, 0xF40E3585, 0x106AA070] ++
  [0x19A4C116, 0x1E376C08, 0x2748774C, 0x34B0BCB5, 0x391C0CB3, 0x4ED8AA4A, 0x5B9CCA4F, 0x682E6FF3,
   0x748F82EE, 0x78A5636F, 0x84C87814, 0x8CC70208, 0x90BEFFFA, 0xA4506CEB, 0xBEF9A3F7, 0xC67178F2]

/-- Initial hash words of SHA-256. -/
def shaH0 : List Nat := [0x6A09E667, 0xBB67AE85, 0x3C6EF372, 0xA54FF53A, 0x510E527F, 0x9B05688C, 0x1F83D9AB, 0x5BE0CD19]

/-- Right rotation of a 32-bit word. -/
def ror32 (n x : Nat) : Nat := x / 2 ^ n + (x % 2 ^ n) * 2 ^ (32 - n)

/-- The message schedule grown by `n` words; the list holds the newest word first. -/
def shaSchedule : Nat → List Nat → List Nat
  | 0, w => w
  | n + 1, w =>
    let x15 := w.getD 14 0
    let x2 := w.getD 1 0
    let s0 := ror32 7 x15 ^^^ ror32 18 x15 ^^^ (x15 / 8)
    let s1 := ror32 17 x2 ^^^ ror32 19 x2 ^^^ (x2 / 1024)
    shaSchedule n (((w.getD 15 0 + s0 + w.getD 6 0 + s1) % 2 ^ 32) :: w)

/-- One round over the eight working words. -/
def shaRound (h : List Nat) (kw : Nat) : List Nat :=
  let a := h.getD 0 0
  let b := h.getD 1 0
  let c := h.getD 2 0
  let e := h.getD 4 0
  let s1 := ror32 6 e ^^^ ror32 11 e ^^^ ror32 25 e
  let ch := (e &&& h.getD 5 0) ^^^ ((e ^^^ 0xFFFFFFFF) &&& h.getD 6 0)
  let t1 := h.getD 7 0 + s1 + ch + kw
  let s0 := ror32 2 a ^^^ ror32 13 a ^^^ ror32 22 a
  let mj := (a &&& b) ^^^ (a &&& c) ^^^ (b &&& c)
  [(t1 + s0 + mj) % 2 ^ 32, a, b, c, (h.getD 3 0 + t1) % 2 ^ 32, e, h.getD 5 0, h.getD 6 0]

/-- One 64-byte block. -/
def shaBlock (h : List Nat) (blk : List Byte) : List Nat :=
  let w0 := ((List.range 16).map (fun i => beNat (slice blk (4 * i) 4))).reverse
  let w := (shaSchedule 48 w0).reverse
  let r := ((shaK.zip w).map (fun p => p.1 + p.2)).foldl shaRound h
  (h.zip r).map (fun p => (p.1 + p.2) % 2 ^ 32)

/-- The blocks of a padded message, one after another. -/
def shaBlocks : Nat → List Nat → List Byte → List Nat
  | 0, h, _ => h
  | n + 1, h, bs => shaBlocks n (shaBlock h (bs.take 64)) (bs.drop 64)

/-- SHA-256 of a byte string. -/
def sha256 (bs : List Byte) : List Byte :=
  let z := (119 - bs.length % 64) % 64
  let m := bs ++ [0x80#8] ++ zeros z ++ beBytes 8 (8 * bs.length)
  (shaBlocks (m.length / 64) shaH0 m).flatMap (beBytes 4)

/-- HMAC-SHA-256 of `bs` under a key of at most 64 bytes (R418). -/
def hmac (key bs : List Byte) : List Byte :=
  let k := padTo 64 key
  sha256 (k.map (· ^^^ 0x5C#8) ++ sha256 (k.map (· ^^^ 0x36#8) ++ bs))

/-! ### ECDSA over P-256 -/

/-- The field of P-256. -/
def p256P : Nat := 0xFFFFFFFF00000001000000000000000000000000FFFFFFFFFFFFFFFFFFFFFFFF

/-- The coefficient b of P-256. -/
def p256B : Nat := 0x5AC635D8AA3A93E7B3EBBD55769886BC651D06B0CC53B0F63BCE3C3E27D2604B

/-- The order of P-256. -/
def p256N : Nat := 0xFFFFFFFF00000000FFFFFFFFFFFFFFFFBCE6FAADA7179E84F3B9CAC2FC632551

/-- The base point of P-256. -/
def p256G : Nat × Nat :=
  (0x6B17D1F2E12C4247F8BCE6E563A440F277037D812DEB33A0F4A13945D898C296,
   0x4FE342E2FE1A7F9B8EE7EB4A7C0F9E162BCE33576B315ECECBB6406837BF51F5)

/-- `b ^ e` modulo `m`, with `e` below `2 ^ n`. -/
def powMod (m : Nat) : Nat → Nat → Nat → Nat
  | 0, _, _ => 1 % m
  | n + 1, b, e =>
    let r := powMod m n (b * b % m) (e / 2)
    if e % 2 = 1 then r * b % m else r

/-- Inverse modulo a prime of at most 256 bits. -/
def invMod (m a : Nat) : Nat := powMod m 256 (a % m) (m - 2)

/-- Difference modulo `m`. -/
def subMod (m a b : Nat) : Nat := (a + (m - b % m)) % m

/-- Whether a point lies on P-256 with both coordinates in range. -/
def p256OnCurve (q : Nat × Nat) : Bool :=
  decide (q.1 < p256P) && decide (q.2 < p256P) &&
    q.2 * q.2 % p256P == subMod p256P (q.1 * q.1 * q.1 + p256B) (3 * q.1)

/-- Doubling in Jacobian coordinates; `z = 0` is the point at infinity. -/
def p256Dbl (q : Nat × Nat × Nat) : Nat × Nat × Nat :=
  let (x, y, z) := q
  let p := p256P
  let z2 := z * z % p
  let m := 3 * (subMod p x z2) * (x + z2) % p
  let y2 := y * y % p
  let t := 4 * x * y2 % p
  let x' := subMod p (m * m) (2 * t)
  (x', subMod p (m * subMod p t x') (8 * y2 * y2), 2 * y * z % p)

/-- Addition in Jacobian coordinates. -/
def p256Add (a b : Nat × Nat × Nat) : Nat × Nat × Nat :=
  let (x1, y1, z1) := a
  let (x2, y2, z2) := b
  let p := p256P
  if z1 = 0 then b else if z2 = 0 then a
  else
    let z1s := z1 * z1 % p
    let z2s := z2 * z2 % p
    let u1 := x1 * z2s % p
    let u2 := x2 * z1s % p
    let s1 := y1 * z2s * z2 % p
    let s2 := y2 * z1s * z1 % p
    let h := subMod p u2 u1
    let r := subMod p s2 s1
    if h = 0 then (if r = 0 then p256Dbl a else (1, 1, 0))
    else
      let h2 := h * h % p
      let h3 := h2 * h % p
      let v := u1 * h2 % p
      let x3 := subMod p (r * r) (h3 + 2 * v)
      (x3, subMod p (r * subMod p v x3) (s1 * h3), h * z1 * z2 % p)

/-- `k` times a point, `k` below `2 ^ n`. -/
def p256Mul : Nat → Nat → Nat × Nat × Nat → Nat × Nat × Nat
  | 0, _, _ => (1, 1, 0)
  | n + 1, k, q =>
    let r := p256Mul n (k / 2) (p256Dbl q)
    if k % 2 = 1 then p256Add r q else r

/-- ECDSA over P-256 with SHA-256: the signature `(r, s)` of `msg` under the public key `q`. -/
def ecdsaVerify (q : Nat × Nat) (msg : List Byte) (r s : Nat) : Bool :=
  if r = 0 ∨ p256N ≤ r ∨ s = 0 ∨ p256N ≤ s ∨ p256OnCurve q = false then false
  else
    let e := beNat (sha256 msg)
    let w := invMod p256N s
    let pt := p256Add (p256Mul 256 (e * w % p256N) (p256G.1, p256G.2, 1)) (p256Mul 256 (r * w % p256N) (q.1, q.2, 1))
    if pt.2.2 = 0 then false
    else
      let zi := invMod p256P pt.2.2
      pt.1 * (zi * zi % p256P) % p256P % p256N == r

end Sys2Proof.Machine
end

