-- ==== Sys2Proof/Config.lean ====
section
/-! DEFINITION. What the spec leaves free: constants without a value, so that no proof can rest on one. -/

namespace Sys2Proof.Config

/-- A 64-bit value the spec leaves open; the argument counts the draws of a run. -/
opaque freeValue : Nat → DWord

/-- The level of LEAVE_GNT at a DAT_CLK edge at which it grants no request (R433, R439). -/
opaque leaveGnt : Nat → Bool

end Sys2Proof.Config
end

