-- ==== Sys2Proof/Machine/RegMap.lean ====
section
/-! DEFINITION. The register map: one location for each register the spec gives, with its value after reset
(R13), and the table by which the host target port finds it (R549, R551). -/

namespace Sys2Proof.Machine

/-- Access codes (R11). -/
inductive Acc where
  | ro | rw | w1c | wo | rc
  deriving DecidableEq, Repr

/-- The reset that governs a register (R515); `mram` is loaded from MRAM and not reset. -/
inductive Dom where
  | por | crst | hrst | mram
  deriving DecidableEq, Repr

/-- Where one register lies, whether it is marked 64, and its value after reset on a leaf and on a tray build. -/
structure Loc where
  off : Nat
  wide : Bool
  rstLeaf : Nat
  rstTray : Nat
  deriving DecidableEq, Repr

/-- The width of a register in bits (R6). -/
def Loc.width (l : Loc) : Nat := if l.wide then 64 else 32

/-- The value after reset (R13). -/
def Loc.rst (l : Loc) (b : Build) : Nat :=
  match b with
  | .leaf => l.rstLeaf
  | .tray => l.rstTray

/-- One row of the register map: a register, or an array of them with (stride, first index, count) for each index. -/
structure RegRow where
  name : String
  base : Nat
  dims : List (Nat × Nat × Nat)
  wide : Bool
  acc : Acc
  dom : Dom
  loc : List Nat → Loc

/-- A gate-list entry in the layout of R108. -/
def gateEnt (start run stride count classes alarmN mode pos : Nat) : Nat :=
  start + stride * 2 ^ 10 + count * 2 ^ 20 + run * 2 ^ 30 + pos * 2 ^ 34 + mode * 2 ^ 39 + alarmN * 2 ^ 41 +
    classes * 2 ^ 43

/-- The eight leaf entries of a default list in WHOLE mode (R112): position `p0 + i`, p′ = `i`. -/
def tmtWholeLeaf (p0 : Nat) : List Nat :=
  (List.range 8).map (fun i => gateEnt (4 * (i + 1)) 4 32 31 0x1F 2 1 (p0 + i))

/-- The entries of a default list in CUT mode (R112). -/
def tmtCut : List Nat :=
  (List.range 16).map (fun i => gateEnt (4 * (i + 1)) 4 64 15 0x1F 2 2 (i + 1)) ++
  (List.range 15).map (fun i => gateEnt (960 + 4 * (i + 1)) 2 1 1 0x1F 0 2 (i + 1)) ++
  [gateEnt 1 2 1 1 0x1F 0 2 16, gateEnt 3 1 1 1 0x1F 0 2 0, gateEnt 966 2 4 15 0x1F 0 2 0]

/-- The default eastbound list (R112), 45 entries. -/
def tmtEast : List Nat :=
  tmtWholeLeaf 9 ++ [gateEnt 1 3 1 1 0x1F 0 1 0, gateEnt 996 15 15 1 0x1F 0 1 0, gateEnt 1011 13 15 1 0x1F 0 1 0] ++
    tmtCut

/-- The default westbound list (R112), 42 entries. -/
def tmtWest : List Nat := tmtWholeLeaf 1 ++ tmtCut

/-- Entry `n` of list `L` after reset: 0 and 2 eastbound, 1 and 3 westbound, operational and admin alike (R112). -/
def tmtEntReset (L n : Nat) : Nat := (if L % 2 = 0 then tmtEast else tmtWest).getD n 0

/-- Whether fault source `n` exists on the build (R442). -/
def fltExists (b : Build) (n : Nat) : Bool :=
  match b with
  | .leaf => decide (n < 20)
  | .tray => (decide (n < 20) && n != 12) || (decide (32 ≤ n) && decide (n < 40))

/-- Class of a source after reset: 0 C, 1 D, 2 F (R442). -/
def fltClassReset (n : Nat) : Nat :=
  if n = 3 ∨ n = 5 ∨ n = 13 ∨ n = 32 ∨ n = 39 then 0 else if n = 4 ∨ n = 6 then 2 else 1

/-- Action of a source after reset: 0 FENCE_UNIT, 1 PIN, 2 STOP, 3 QUIESCE; 1 for class C (R442, R460). -/
def fltActionReset (n : Nat) : Nat :=
  if fltClassReset n = 0 then 1
  else if n = 14 ∨ n = 16 ∨ n = 34 then 3
  else if n = 15 ∨ n = 17 ∨ n = 19 then 0
  else 1

/-- FLT_SRC_n_CFG after reset: class and action of R442 with a GRACE of 1,000 µs; zero for a source the build lacks
(R459). -/
def fltCfgReset (b : Build) (n : Nat) : Nat :=
  if fltExists b n then 1000 + fltActionReset n * 2 ^ 28 + fltClassReset n * 2 ^ 30 else 0

/-- Buffer size of pool `p` in bytes (R484). -/
def poolSize (p : Nat) : Nat := 256 * 4 ^ p

/-- Buffers in pool `p` (R484). -/
def poolCount (b : Build) (p : Nat) : Nat :=
  match b with
  | .leaf => [1024, 512, 128, 16].getD p 0
  | .tray => [8192, 4096, 1024, 128].getD p 0

/-- Shaper burst of class `c` after reset, in KiB (R514). -/
def lndBurstReset (c : Nat) : Nat := if c = 1 ∨ c = 3 then 0x40 else if c = 2 then 0x100 else 0x400

/-- The single gate entry of a Landing list after reset, which keeps every gate open (R509). -/
def lndEntReset (n : Nat) : Nat := if n = 0 then gateEnt 0 8 8 128 0x1F 0 0 0 else 0

/-- R4, RO: design code, hardware issue and build. -/
def CAP_ID : Loc := ⟨0x0, false, 0x5a590201, 0x5a590202⟩

/-- R4, W1C: bit 0 is set by an access to an absent unit's range; bits [31:1] are reserved. -/
def CAP_ABSENT_HIT : Loc := ⟨0x8, false, 0x0, 0x0⟩

/-- R4, W1C: bit 0 is set by a host target port access that the port refuses: one refused under R9, a write to aperture 4 refused under R407, or a write to a read pointer refused under R373 or R413; bits [31:1] are reserved. -/
def CAP_ACC_ERR : Loc := ⟨0xc, false, 0x0, 0x0⟩

/-- R19, RO: this copy's station number and whether it has been set. -/
def CHN_STATION : Loc := ⟨0x30000, false, 0x0, 0x0⟩

/-- R46, RO: one bit per unit present in the build. -/
def CAP_UNITS : Loc := ⟨0x10, false, 0x67f7f, 0x7ffef⟩

/-- R46, RO: CMP_CLK and DAT_CLK frequencies. -/
def CAP_CLK_A : Loc := ⟨0x14, false, 0x4b004e2, 0x64004e2⟩

/-- R46, RO: BASE_CLK and nominal PLM_CLK frequencies. -/
def CAP_CLK_B : Loc := ⟨0x18, false, 0x320c350, 0x320c350⟩

/-- R46, RO: design power figures. -/
def CAP_POWER : Loc := ⟨0x1c, false, 0x2600e09, 0x3c0118b4⟩

/-- R46, W1C: bit 0 is set by an access refused under R42; bits [31:1] are reserved. -/
def CAP_SLEEP_HIT : Loc := ⟨0x20, false, 0x0, 0x0⟩

/-- R90, RO: servo state and time validity. -/
def DAT_STATE : Loc := ⟨0x20000, false, 0x0, 0x0⟩

/-- R90, RO: reference and enables. -/
def DAT_CTL : Loc := ⟨0x20004, false, 0x11, 0x17⟩

/-- R90, RO: NS and FRAC of the current time (R60). -/
def DAT_NOW_SUB : Loc := ⟨0x20008, true, 0x0, 0x0⟩

/-- R90, RO: SEC of the current time. -/
def DAT_NOW_SEC : Loc := ⟨0x20010, true, 0x0, 0x0⟩

/-- R90, RO: nominal increment. -/
def DAT_INC : Loc := ⟨0x20018, true, 0xcccccccd, 0xcccccccd⟩

/-- R90, RO: current adjustment I + P, two's complement, 2⁻³² ns per cycle. -/
def DAT_FADJ : Loc := ⟨0x20020, false, 0x0, 0x0⟩

/-- R90, RO: servo shifts. -/
def DAT_GAIN : Loc := ⟨0x20024, false, 0x211c140f, 0x211c140f⟩

/-- R90, RO: lock thresholds. -/
def DAT_THR : Loc := ⟨0x20028, false, 0x500008, 0x500008⟩

/-- R90, RO: lock counts and reference timeout. -/
def DAT_COUNT : Loc := ⟨0x2002c, false, 0x80410, 0x80410⟩

/-- R90, RO: step threshold in ns, from 1 to 999,999,999. -/
def DAT_STEP_THR : Loc := ⟨0x20030, false, 0x3e8, 0x3e8⟩

/-- R90, RO: largest step in ns, from 0 to 999,999,999; 0 disables steps after the load. -/
def DAT_STEP_MAX : Loc := ⟨0x20034, false, 0xf4240, 0xf4240⟩

/-- R90, RO: holdover limit in ms, from 1 to 3,600,000. -/
def DAT_HOLD_MAX : Loc := ⟨0x20038, false, 0x3e8, 0x3e8⟩

/-- R90, RO: last offset o, two's complement, 2⁻¹⁶ ns, sign-extended from bit 47. -/
def DAT_OFFSET : Loc := ⟨0x20040, true, 0x0, 0x0⟩

/-- R90, RO: filtered west-side link delay, 2⁻¹⁶ ns (tray: chain A west). -/
def DAT_LDLY_W : Loc := ⟨0x20048, false, 0x0, 0x0⟩

/-- R90, RO: filtered east-side link delay, 2⁻¹⁶ ns (tray: chain A east). -/
def DAT_LDLY_E : Loc := ⟨0x2004c, false, 0x0, 0x0⟩

/-- R90, RO: [31:16] receive and [15:0] transmit PMA latency, units of 1/64 ns. -/
def DAT_PMA_LAT : Loc := ⟨0x20050, false, 0x0, 0x0⟩

/-- R90, RO: [31:16] east and [15:0] west asymmetry, two's complement, units of 1/64 ns. -/
def DAT_ASYM : Loc := ⟨0x20054, false, 0x0, 0x0⟩

/-- R90, RO: tray: last E, two's complement, 2⁻¹⁶ ns; leaf: [15:0] last SHARE received. -/
def DAT_CLOSURE : Loc := ⟨0x20058, false, 0x0, 0x0⟩

/-- R90, W1C: events. -/
def DAT_EVT : Loc := ⟨0x2005c, false, 0x0, 0x0⟩

/-- R90, RC: loads and steps applied. -/
def DAT_STEPS : Loc := ⟨0x20060, false, 0x0, 0x0⟩

/-- R90, RC: time words and link-delay messages discarded. -/
def DAT_TW_ERR : Loc := ⟨0x20064, false, 0x0, 0x0⟩

/-- R90, RO: tray: filtered Landing mean path delay, 2⁻¹⁶ ns. -/
def DAT_MPD : Loc := ⟨0x20070, true, 0x0, 0x0⟩

/-- R90, RO: pulse n START, NS and FRAC, for n from 0 to 7. -/
def DAT_PLS_SUB (n : Nat) : Loc := ⟨0x20100 + 0x20 * n, true, 0x0, 0x0⟩

/-- R90, RO: pulse n START, SEC. -/
def DAT_PLS_SEC (n : Nat) : Loc := ⟨0x20108 + 0x20 * n, true, 0x0, 0x0⟩

/-- R90, RO: pulse n PER in ns. -/
def DAT_PLS_PER (n : Nat) : Loc := ⟨0x20110 + 0x20 * n, false, 0x0, 0x0⟩

/-- R90, RO: [31] ENABLE, [30] GATE, [15:0] WIDTH. -/
def DAT_PLS_CTL (n : Nat) : Loc := ⟨0x20114 + 0x20 * n, false, 0x0, 0x0⟩

/-- R90, RO: stop slot m time, NS and FRAC, for m from 0 to 3. -/
def DAT_STOP_SUB (m : Nat) : Loc := ⟨0x20200 + 0x20 * m, true, 0x0, 0x0⟩

/-- R90, RO: stop slot m time, SEC. -/
def DAT_STOP_SEC (m : Nat) : Loc := ⟨0x20208 + 0x20 * m, true, 0x0, 0x0⟩

/-- R90, RO: [1] FIRED, [0] ARMED. -/
def DAT_STOP_CTL (m : Nat) : Loc := ⟨0x20210 + 0x20 * m, false, 0x0, 0x0⟩

/-- R90, RO: last stamp of ZY_BEAT[n], NS and FRAC. -/
def DAT_BEAT_SUB (n : Nat) : Loc := ⟨0x20300 + 0x10 * n, true, 0x0, 0x0⟩

/-- R90, RO: last stamp of ZY_BEAT[n], SEC. -/
def DAT_BEAT_SEC (n : Nat) : Loc := ⟨0x20308 + 0x10 * n, true, 0x0, 0x0⟩

/-- R90, RC: beat stamps dropped, all inputs. -/
def DAT_BEAT_DROP : Loc := ⟨0x20380, false, 0x0, 0x0⟩

/-- R129, RO: copy controls. -/
def CHN_CTL : Loc := ⟨0x30004, false, 0x204, 0x204⟩

/-- R129, RO: D_s for eastbound words while in bypass (R120), 2⁻¹⁶ ns. -/
def CHN_LISTEN_DLY : Loc := ⟨0x30008, false, 0x0, 0x0⟩

/-- R129, RO: D_s for westbound words while in bypass (R120), 2⁻¹⁶ ns. -/
def CHN_LISTEN_DLY_E : Loc := ⟨0x3000c, false, 0x0, 0x0⟩

/-- R129, RO: state of the chain. -/
def CHN_STATUS (ch : Nat) : Loc := ⟨0x30010 + 0x4000 * ch, false, 0x0, 0x0⟩

/-- R129, RO: fenced lanes. -/
def CHN_LANES (ch : Nat) : Loc := ⟨0x30014 + 0x4000 * ch, false, 0x0, 0x0⟩

/-- R129, W1C: events. -/
def CHN_EVT (ch : Nat) : Loc := ⟨0x30018 + 0x4000 * ch, false, 0x0, 0x0⟩

/-- R129, RO: tray: bit p set for each inserted leaf, p from 1 to 16; leaf: zero. -/
def CHN_ROSTER (ch : Nat) : Loc := ⟨0x3001c + 0x4000 * ch, false, 0x0, 0x0⟩

/-- R129, RO: filtered west-side delay, 2⁻¹⁶ ns; chain A mirrors DAT_LDLY_W. -/
def CHN_LDLY_W (ch : Nat) : Loc := ⟨0x30020 + 0x4000 * ch, false, 0x0, 0x0⟩

/-- R129, RO: filtered east-side delay, 2⁻¹⁶ ns; chain A mirrors DAT_LDLY_E. -/
def CHN_LDLY_E (ch : Nat) : Loc := ⟨0x30024 + 0x4000 * ch, false, 0x0, 0x0⟩

/-- R129, RO: pending T_s, NS and FRAC (R60). -/
def CHN_SPL_SUB (ch : Nat) : Loc := ⟨0x30028 + 0x4000 * ch, true, 0x0, 0x0⟩

/-- R129, RO: pending T_s, SEC. -/
def CHN_SPL_SEC (ch : Nat) : Loc := ⟨0x30030 + 0x4000 * ch, true, 0x0, 0x0⟩

/-- R129, RO: pending splice. -/
def CHN_SPL_CTL (ch : Nat) : Loc := ⟨0x30038 + 0x4000 * ch, false, 0x0, 0x0⟩

/-- R129, RC: cells failing HCRC. -/
def CHN_HCRC_ERR (ch : Nat) : Loc := ⟨0x30040 + 0x4000 * ch, false, 0x0, 0x0⟩

/-- R129, RC: invalid sync headers, all lanes. -/
def CHN_BLK_ERR (ch : Nat) : Loc := ⟨0x30044 + 0x4000 * ch, false, 0x0, 0x0⟩

/-- R129, RC: cells lost or discarded (R95, R103, R104, R106, R124). -/
def CHN_LOST (ch : Nat) : Loc := ⟨0x30048 + 0x4000 * ch, false, 0x0, 0x0⟩

/-- R129, RC: messages discarded (R105). -/
def CHN_MSG_LOST (ch : Nat) : Loc := ⟨0x3004c + 0x4000 * ch, false, 0x0, 0x0⟩

/-- R129, RC: sequence resynchronisations. -/
def CHN_SEQ_RESYNC (ch : Nat) : Loc := ⟨0x30050 + 0x4000 * ch, false, 0x0, 0x0⟩

/-- R129, RC: granted containers found full. -/
def CHN_GRANT_BUSY (ch : Nat) : Loc := ⟨0x30054 + 0x4000 * ch, false, 0x0, 0x0⟩

/-- R129, RC: ALARM cells discarded. -/
def CHN_ALARM_DROP (ch : Nat) : Loc := ⟨0x30058 + 0x4000 * ch, false, 0x0, 0x0⟩

/-- R129, RC: cells discarded at a fenced direction. -/
def CHN_FENCE_DROP (ch : Nat) : Loc := ⟨0x3005c + 0x4000 * ch, false, 0x0, 0x0⟩

/-- R129, RC: BULK cells resent. -/
def CHN_BULK_RETX (ch : Nat) : Loc := ⟨0x30060 + 0x4000 * ch, false, 0x0, 0x0⟩

/-- R129, RC: cells cut short. -/
def CHN_TRUNC (ch : Nat) : Loc := ⟨0x30064 + 0x4000 * ch, false, 0x0, 0x0⟩

/-- R129, RO: [31:16] admin version, [15:0] operational version. -/
def TMT_VER (ch : Nat) : Loc := ⟨0x30080 + 0x4000 * ch, false, 0x0, 0x0⟩

/-- R129, RO: [1] SWAP_PENDING, [0] ADMIN_VALID. -/
def TMT_CTL (ch : Nat) : Loc := ⟨0x30084 + 0x4000 * ch, false, 0x1, 0x1⟩

/-- R129, RO: CYC of the current cycle, bits [39:0]. -/
def TMT_CYC (ch : Nat) : Loc := ⟨0x30088 + 0x4000 * ch, true, 0x0, 0x0⟩

/-- R129, RO: pending swap cycle, bits [39:0]. -/
def TMT_SWAP_CYC (ch : Nat) : Loc := ⟨0x30090 + 0x4000 * ch, true, 0x0, 0x0⟩

/-- R129, RO: entry n, from 0 to 63, of list L: 0 operational eastbound, 1 operational westbound, 2 admin eastbound, 3 admin westbound. -/
def TMT_ENT (ch : Nat) (L : Nat) (n : Nat) : Loc := ⟨0x31000 + 0x4000 * ch + 0x200 * L + 0x8 * n, true, tmtEntReset L n, tmtEntReset L n⟩

/-- R166, RO: pod and counter counts. -/
def TAP_CAP : Loc := ⟨0x40000, false, 0x400400, 0x400400⟩

/-- R166, RO: bit n is the level of TAP_ON[n]. -/
def TAP_ON : Loc := ⟨0x40008, true, 0, 0⟩

/-- R166, W1C: bit n is set by a STALE epoch of pod n (R144). -/
def TAP_STALE : Loc := ⟨0x40010, true, 0x0, 0x0⟩

/-- R166, W1C: events. -/
def TAP_EVT : Loc := ⟨0x40018, false, 0x0, 0x0⟩

/-- R166, RC: deferred snapshots (R139). -/
def TAP_DEFERRED : Loc := ⟨0x4001c, false, 0x0, 0x0⟩

/-- R166, RC: snapshots late beyond 2 µs (R140). -/
def TAP_SNAP_TMO : Loc := ⟨0x40020, false, 0x0, 0x0⟩

/-- R166, RO: gauge count and timeout. -/
def GAU_CTL : Loc := ⟨0x41000, false, 0x100000, 0x100000⟩

/-- R166, RC: gauges unanswered (R147). -/
def GAU_STALE : Loc := ⟨0x41004, false, 0x0, 0x0⟩

/-- R166, RO: last sample of gauge n. -/
def GAU_VAL (n : Nat) : Loc := ⟨0x41400 + 0x4 * n, false, 0x0, 0x0⟩

/-- R166, RO: beat enables. -/
def BEA_CTL : Loc := ⟨0x42000, false, 0x0, 0x0⟩

/-- R166, RO: last interval of ZY_BEAT[n], 48.16 ns. -/
def BEA_INT (n : Nat) : Loc := ⟨0x42010 + 0x8 * n, true, 0x0, 0x0⟩

/-- R166, RO: tracker and probe counts. -/
def PRB_CAP : Loc := ⟨0x43000, false, 0x1000400, 0x1000400⟩

/-- R166, W1C: events. -/
def PRB_EVT : Loc := ⟨0x43004, false, 0x0, 0x0⟩

/-- R166, RC: MISSING values. -/
def PRB_MISSING : Loc := ⟨0x43008, false, 0x0, 0x0⟩

/-- R166, RC: SAT values. -/
def PRB_SAT : Loc := ⟨0x4300c, false, 0x0, 0x0⟩

/-- R166, RC: SERIES messages discarded (R160). -/
def PRB_SERIES_DROP : Loc := ⟨0x43010, false, 0x0, 0x0⟩

/-- R166, RC: DRIFT votes raised. -/
def PRB_TRK_VOTES : Loc := ⟨0x43014, false, 0x0, 0x0⟩

/-- R166, RO: descriptor word w of probe n (R151). -/
def PRB_DESC (n : Nat) (w : Nat) : Loc := ⟨0x44000 + 0x10 * n + 0x4 * w, false, 0x0, 0x0⟩

/-- R166, RO: configuration word i, from 0 to 5, of tracker t (R161). -/
def PRB_TRK_CFG (t : Nat) (i : Nat) : Loc := ⟨0x48000 + 0x40 * t + 0x4 * i, false, 0x0, 0x0⟩

/-- R166, RO: BASE, 48.16. -/
def PRB_TRK_BASE (t : Nat) : Loc := ⟨0x48020 + 0x40 * t, true, 0x0, 0x0⟩

/-- R166, RO: S+, 48.16. -/
def PRB_TRK_SPOS (t : Nat) : Loc := ⟨0x48028 + 0x40 * t, true, 0x0, 0x0⟩

/-- R166, RO: S−, 48.16. -/
def PRB_TRK_SNEG (t : Nat) : Loc := ⟨0x48030 + 0x40 * t, true, 0x0, 0x0⟩

/-- R166, RO: [7:0] SEEN. -/
def PRB_TRK_SEEN (t : Nat) : Loc := ⟨0x48038 + 0x40 * t, false, 0x0, 0x0⟩

/-- R166, RO: pod n map entries 2m in [15:0] and 2m + 1 in [31:16], each with [15] EN and [9:0] CTR. -/
def TAP_MAP (n : Nat) (m : Nat) : Loc := ⟨0x60000 + 0x800 * n + 0x4 * m, false, 0x80008000 + (2 * m + 1) * 0x10000 + 2 * m, 0x80008000 + (2 * m + 1) * 0x10000 + 2 * m⟩

/-- R206, RO: [31:16] records kept as publishing node; [15:0] closures kept otherwise. -/
def EPO_CAP : Loc := ⟨0x80000, false, 0x100010, 0x10000100⟩

/-- R206, RO: [0] STRICT; [31:1] reserved. -/
def EPO_CTL : Loc := ⟨0x80004, false, 0x0, 0x0⟩

/-- R206, W1C: events. -/
def EPO_EVT : Loc := ⟨0x80008, false, 0x0, 0x0⟩

/-- R206, RC: LATE messages (R184). -/
def EPO_LATE : Loc := ⟨0x80010, false, 0x0, 0x0⟩

/-- R206, RC: children recorded TIMEOUT. -/
def EPO_TIMEOUT : Loc := ⟨0x80014, false, 0x0, 0x0⟩

/-- R206, RC: forced closes (R185). -/
def EPO_OVERRUN : Loc := ⟨0x80018, false, 0x0, 0x0⟩

/-- R206, RC: contributions voided or excluded (R188). -/
def EPO_VOIDS : Loc := ⟨0x8001c, false, 0x0, 0x0⟩

/-- R206, RC: CLOSURE_PULL sent (R198). -/
def EPO_PULLS : Loc := ⟨0x80020, false, 0x0, 0x0⟩

/-- R206, RC: kept items discarded for space (R195). -/
def EPO_RET_EVICT : Loc := ⟨0x80024, false, 0x0, 0x0⟩

/-- R206, RC: malformed messages (R171). -/
def EPO_EPOCH_ERR : Loc := ⟨0x80028, false, 0x0, 0x0⟩

/-- R206, RO: FLOOR of level l, from 1 to 4, in 100 ns units: 20 µs or 50 µs. -/
def EPO_DL_FLOOR (l : Nat) : Loc := ⟨0x80040 + 0x10 * (l - 1), false, 0, if l = 1 then 0xC8 else 0x1F4⟩

/-- R206, RO: CEIL, in 100 ns units: 1 ms or 10 ms. -/
def EPO_DL_CEIL (l : Nat) : Loc := ⟨0x80044 + 0x10 * (l - 1), false, 0, if l = 1 then 0x2710 else 0x186A0⟩

/-- R206, RO: MARGIN, in 100 ns units: 5 µs or 10 µs. -/
def EPO_DL_MARGIN (l : Nat) : Loc := ⟨0x80048 + 0x10 * (l - 1), false, 0, if l = 1 then 0x32 else 0x64⟩

/-- R206, RO: identity of context n, from 0 to 255. -/
def EPO_CTX_ID (n : Nat) : Loc := ⟨0x81000 + 0x20 * n, false, 0x0, 0x0⟩

/-- R206, RO: [63] NONE; [39:0] last epoch published or sent; [62:40] reserved. -/
def EPO_CTX_LAST (n : Nat) : Loc := ⟨0x81008 + 0x20 * n, true, 0x8000000000000000, 0x8000000000000000⟩

/-- R206, RO: current D_l in 100 ns units; zero on a leaf. -/
def EPO_CTX_DL (n : Nat) : Loc := ⟨0x81010 + 0x20 * n, false, 0x0, 0x0⟩

/-- R206, RO: q99 of the last window, in 100 ns units. -/
def EPO_CTX_Q99 (n : Nat) : Loc := ⟨0x81014 + 0x20 * n, false, 0x0, 0x0⟩

/-- R206, RO: state of the oldest open epoch. -/
def EPO_CTX_WAIT (n : Nat) : Loc := ⟨0x81018 + 0x20 * n, false, 0x0, 0x0⟩

/-- R238, RO: [31:16] contexts; [15:0] store pages. -/
def TAL_CAP : Loc := ⟨0x90000, false, 0x100100, 0x1003000⟩

/-- R238, RO: table and rate sizes. -/
def TAL_CAP_B : Loc := ⟨0x90004, false, 0x20010010, 0x40014040⟩

/-- R238, RO: saturation controls. -/
def TAL_CTL : Loc := ⟨0x90008, false, 0x10190, 0x100c8⟩

/-- R238, W1C: events. -/
def TAL_EVT : Loc := ⟨0x9000c, false, 0x0, 0x0⟩

/-- R238, RO: free store pages. -/
def TAL_PAGES_FREE : Loc := ⟨0x90010, false, 0x100, 0x3000⟩

/-- R238, RO: free contexts. -/
def TAL_CTX_FREE : Loc := ⟨0x90014, false, 0x10, 0x100⟩

/-- R238, RO: queued cost in bytes (R233). -/
def TAL_BACKLOG : Loc := ⟨0x90018, false, 0x0, 0x0⟩

/-- R238, RC: largest TAL_BACKLOG since the last read. -/
def TAL_BACKLOG_MAX : Loc := ⟨0x9001c, false, 0x0, 0x0⟩

/-- R238, RC: epochs folded (R234). -/
def TAL_COARSE : Loc := ⟨0x90020, false, 0x0, 0x0⟩

/-- R238, RC: epochs sent or published with APPROX set at this node. -/
def TAL_APPROX : Loc := ⟨0x90024, false, 0x0, 0x0⟩

/-- R238, RC: working-table evictions (R226). -/
def TAL_EVICT : Loc := ⟨0x90028, false, 0x0, 0x0⟩

/-- R238, RC: entries spilled to hold memory (R227). -/
def TAL_SPILL : Loc := ⟨0x9002c, false, 0x0, 0x0⟩

/-- R238, RC: epochs delayed by saturation (R236). -/
def TAL_SAT_DELAY : Loc := ⟨0x90030, false, 0x0, 0x0⟩

/-- R238, RC: own-source votes dropped (R224). -/
def TAL_OWN_DROP : Loc := ⟨0x90034, false, 0x0, 0x0⟩

/-- R238, RC: probe sketches discarded (R210). -/
def TAL_MISMATCH : Loc := ⟨0x90038, false, 0x0, 0x0⟩

/-- R238, RC: bin count saturations (R213). -/
def TAL_HSAT : Loc := ⟨0x9003c, false, 0x0, 0x0⟩

/-- R238, RO: context n, from 0 to 255: priority, probes and pages. -/
def TAL_CTX_CFG (n : Nat) : Loc := ⟨0x91000 + 0x10 * n, false, 0x0, 0x0⟩

/-- R238, RO: commit sequence. -/
def TAL_CTX_SEQ (n : Nat) : Loc := ⟨0x91004 + 0x10 * n, false, 0x0, 0x0⟩

/-- R238, RO: live state of the oldest open epoch. -/
def TAL_CTX_STATE (n : Nat) : Loc := ⟨0x91008 + 0x10 * n, false, 0x0, 0x0⟩

/-- R262, RO: reservation hold time and thin threshold. -/
def PAR_CTL : Loc := ⟨0x84000, false, 0x27100004, 0x27100004⟩

/-- R262, RO: least lead at issue. -/
def RUL_LEAD : Loc := ⟨0x84004, false, 0x3e8, 0x3e8⟩

/-- R262, W1C: events. -/
def PAR_EVT : Loc := ⟨0x84008, false, 0x0, 0x0⟩

/-- R262, RO: contexts by state. -/
def PAR_OCC : Loc := ⟨0x8400c, false, 0x0, 0x0⟩

/-- R262, RO: [3:0] this station's membership count, from 0 to 8; [31:4] reserved. -/
def PAR_MEMB : Loc := ⟨0x84010, false, 0x0, 0x0⟩

/-- R262, RO: thin contexts (R251). -/
def PAR_THIN : Loc := ⟨0x84014, false, 0x0, 0x0⟩

/-- R262, RC: refusals for lack of a context, or for a parcel number already held. -/
def PAR_FAIL_CTX : Loc := ⟨0x84018, false, 0x0, 0x0⟩

/-- R262, RC: refusals for lack of pages. -/
def PAR_FAIL_PAGES : Loc := ⟨0x8401c, false, 0x0, 0x0⟩

/-- R262, RC: refusals at the membership limit. -/
def PAR_FAIL_MEMB : Loc := ⟨0x84020, false, 0x0, 0x0⟩

/-- R262, RC: reservations undone under R246. -/
def PAR_LAPSED : Loc := ⟨0x84024, false, 0x0, 0x0⟩

/-- R262, RC: rulings applied. -/
def RUL_APPLIED : Loc := ⟨0x84028, false, 0x0, 0x0⟩

/-- R262, RC: rulings refused TOO_LATE. -/
def RUL_LATE : Loc := ⟨0x8402c, false, 0x0, 0x0⟩

/-- R262, RC: rulings refused on other grounds. -/
def RUL_REFUSED : Loc := ⟨0x84030, false, 0x0, 0x0⟩

/-- R262, RC: duplicate rulings discarded. -/
def RUL_DUP : Loc := ⟨0x84034, false, 0x0, 0x0⟩

/-- R262, RO: [6:0] pending rulings, from 0 to 64. -/
def RUL_PEND : Loc := ⟨0x84038, false, 0x0, 0x0⟩

/-- R262, RO: next RUL_NO this copy issues. -/
def RUL_NEXT : Loc := ⟨0x8403c, false, 0x1, 0x1⟩

/-- R262, RO: members below, summed over contexts not FREE. -/
def PAR_SERVED : Loc := ⟨0x84040, false, 0x0, 0x0⟩

/-- R262, RO: state and period of context n. -/
def PAR_CTX_STATE (n : Nat) : Loc := ⟨0x85000 + 0x20 * n, false, 0x0, 0x0⟩

/-- R262, RO: [19:0] members below the node. -/
def PAR_CTX_MEMB (n : Nat) : Loc := ⟨0x85004 + 0x20 * n, false, 0x0, 0x0⟩

/-- R262, RO: T0, NS and FRAC (R60). -/
def PAR_CTX_T0_SUB (n : Nat) : Loc := ⟨0x85008 + 0x20 * n, true, 0x0, 0x0⟩

/-- R262, RO: T0, SEC. -/
def PAR_CTX_T0_SEC (n : Nat) : Loc := ⟨0x85010 + 0x20 * n, true, 0x0, 0x0⟩

/-- R262, RO: [63] NONE; [39:0] E; [62:40] reserved. -/
def PAR_CTX_END (n : Nat) : Loc := ⟨0x85018 + 0x20 * n, true, 0x8000000000000000, 0x8000000000000000⟩

/-- R295, RO: banks, entries per bank, plat slots. -/
def CAD_CAP : Loc := ⟨0xa0000, false, 0x4040004, 0x20080010⟩

/-- R295, RO: abandon time and page window. -/
def CAD_CTL : Loc := ⟨0xa0004, false, 0x640000, 0x640000⟩

/-- R295, RO: leave class and amount. -/
def CAD_PWR : Loc := ⟨0xa0008, false, 0x103, 0x136⟩

/-- R295, W1C: events. -/
def CAD_EVT : Loc := ⟨0xa000c, false, 0x0, 0x0⟩

/-- R295, RO: [16:0] free resident entries, all banks. -/
def CAD_RES_FREE : Loc := ⟨0xa0010, false, 0x1000, 0x10000⟩

/-- R295, RO: [11:0] fewest free resident entries in any bank. -/
def CAD_RES_MIN : Loc := ⟨0xa0014, false, 0x400, 0x800⟩

/-- R295, RC: rows scored. -/
def CAD_ROWS : Loc := ⟨0xa0018, false, 0x0, 0x0⟩

/-- R295, RC: passes run. -/
def CAD_PASSES : Loc := ⟨0xa001c, false, 0x0, 0x0⟩

/-- R295, RC: pages loaded. -/
def CAD_PAGES : Loc := ⟨0xa0020, false, 0x0, 0x0⟩

/-- R295, RC: rows UNSCORED (R277, R292). -/
def CAD_UNSCORED : Loc := ⟨0xa0024, false, 0x0, 0x0⟩

/-- R295, RC: searches in error (R292). -/
def CAD_SEARCH_ERR : Loc := ⟨0xa0028, false, 0x0, 0x0⟩

/-- R295, RC: MODEL votes raised. -/
def CAD_VOTES : Loc := ⟨0xa002c, false, 0x0, 0x0⟩

/-- R295, RC: longest pass since the last read, in CMP_CLK cycles. -/
def CAD_PASS_MAX : Loc := ⟨0xa0030, false, 0x0, 0x0⟩

/-- R295, RO: [12:0] rows ready and not yet scored. -/
def CAD_PENDING : Loc := ⟨0xa0034, false, 0x0, 0x0⟩

/-- R295, RO: plat key state. -/
def CAD_KEY_CTL : Loc := ⟨0xa0040, false, 0x0, 0x0⟩

/-- R295, RO: state of plat slot s, from 0 to 15. -/
def CAD_PLAT_ID (s : Nat) : Loc := ⟨0xa0100 + 0x10 * s, false, 0x0, 0x0⟩

/-- R295, RO: [31:16] pages, [15:0] trees. -/
def CAD_PLAT_SIZE (s : Nat) : Loc := ⟨0xa0104 + 0x10 * s, false, 0x0, 0x0⟩

/-- R295, RO: image address. -/
def CAD_PLAT_ADDR (s : Nat) : Loc := ⟨0xa0108 + 0x10 * s, true, 0x0, 0x0⟩

/-- R295, RO: [31:16] version pending under R290, 0 if none; [15:0] version bound, 0 if none. -/
def CAD_CTX_BIND (n : Nat) : Loc := ⟨0xa1000 + 0x4 * n, false, 0x0, 0x0⟩

/-- R333, RO: arrays, slots, array size, scratch. -/
def TRN_CAP : Loc := ⟨0xb0000, false, 0x48808000, 0x48808000⟩

/-- R333, RO: abandon time, fence window, learning. -/
def TRN_CTL : Loc := ⟨0xb0004, false, 0x646401, 0x646401⟩

/-- R333, RO: leave class and amount. -/
def TRN_PWR : Loc := ⟨0xb0008, false, 0x234, 0x234⟩

/-- R333, RO: TOL of R315, binary32: 2⁻¹⁰. -/
def TRN_ABFT_TOL : Loc := ⟨0xb000c, false, 0x3a800000, 0x3a800000⟩

/-- R333, W1C: events. -/
def TRN_EVT : Loc := ⟨0xb0010, false, 0x0, 0x0⟩

/-- R333, RO: bits [8a + 7 : 8a]: fenced groups of array a. -/
def TRN_FENCE : Loc := ⟨0xb0014, false, 0x0, 0x0⟩

/-- R333, RO: [3:0] fenced arrays; [31:4] reserved. -/
def TRN_FENCE_ARR : Loc := ⟨0xb0018, false, 0x0, 0x0⟩

/-- R333, RO: [15:0] free weight area in KiB. -/
def TRN_SCR_FREE : Loc := ⟨0xb001c, false, 0x7800, 0x7800⟩

/-- R333, RC: passes run. -/
def TRN_PASSES : Loc := ⟨0xb0020, false, 0x0, 0x0⟩

/-- R333, RC: tiles run. -/
def TRN_TILES : Loc := ⟨0xb0024, false, 0x0, 0x0⟩

/-- R333, RC: check mismatches (R316). -/
def TRN_MISMATCH : Loc := ⟨0xb0028, false, 0x0, 0x0⟩

/-- R333, RC: contributions voided (R317). -/
def TRN_VOIDS : Loc := ⟨0xb002c, false, 0x0, 0x0⟩

/-- R333, RC: passes abandoned (R310, R320). -/
def TRN_UNRUN : Loc := ⟨0xb0030, false, 0x0, 0x0⟩

/-- R333, RC: columns and blocks excluded (R304, R306). -/
def TRN_EXCL : Loc := ⟨0xb0034, false, 0x0, 0x0⟩

/-- R333, RC: sections excluded at a parent (R322). -/
def TRN_SEC_MISMATCH : Loc := ⟨0xb0038, false, 0x0, 0x0⟩

/-- R333, RC: DRIFT votes raised. -/
def TRN_VOTES : Loc := ⟨0xb003c, false, 0x0, 0x0⟩

/-- R333, RC: longest pass since the last read, in CMP_CLK cycles. -/
def TRN_PASS_MAX : Loc := ⟨0xb0040, false, 0x0, 0x0⟩

/-- R333, RC: updates applied (R324). -/
def TRN_LEARN : Loc := ⟨0xb0044, false, 0x0, 0x0⟩

/-- R333, RO: state of slot s, from 0 to 7. -/
def TRN_SUB_ID (s : Nat) : Loc := ⟨0xb0100 + 0x10 * s, false, 0x0, 0x0⟩

/-- R333, RO: rank and weight size. -/
def TRN_SUB_SIZE (s : Nat) : Loc := ⟨0xb0104 + 0x10 * s, false, 0x0, 0x0⟩

/-- R333, RO: image address. -/
def TRN_SUB_ADDR (s : Nat) : Loc := ⟨0xb0108 + 0x10 * s, true, 0x0, 0x0⟩

/-- R333, RO: context n, from 0 to 255: [31:16] version pending under R330, 0 if none; [15:0] version bound, 0 if none. -/
def TRN_CTX_BIND (n : Nat) : Loc := ⟨0xb1000 + 0x4 * n, false, 0x0, 0x0⟩

/-- R354, RO: alarm hold and sink. -/
def EPO_VRD_CTL : Loc := ⟨0x80800, false, 0x0, 0x3e80000⟩

/-- R354, W1C: events. -/
def EPO_VRD_EVT : Loc := ⟨0x80804, false, 0x0, 0x0⟩

/-- R354, RO: SEQ of the next verdict written. -/
def EPO_VRD_SEQ : Loc := ⟨0x80808, false, 0x0, 0x0⟩

/-- R354, RO: SEQ of the oldest verdict kept. -/
def EPO_VRD_OLDEST : Loc := ⟨0x8080c, false, 0x0, 0x0⟩

/-- R354, RO: queue entries: 64 or 4,096. -/
def EPO_VRD_CAP : Loc := ⟨0x80810, false, 0x40, 0x1000⟩

/-- R354, RC: verdicts written. -/
def EPO_VRD_COUNT : Loc := ⟨0x80814, false, 0x0, 0x0⟩

/-- R354, RC: verdicts cut (R339). -/
def EPO_VRD_DROP : Loc := ⟨0x80818, false, 0x0, 0x0⟩

/-- R354, RC: automatic bars not issued (R343). -/
def EPO_VRD_BAR_LATE : Loc := ⟨0x8081c, false, 0x0, 0x0⟩

/-- R354, RC: alarm messages received (R348). -/
def EPO_VRD_ALARMS : Loc := ⟨0x80820, false, 0x0, 0x0⟩

/-- R354, RC: alarm messages discarded. -/
def EPO_VRD_ALARM_BAD : Loc := ⟨0x80824, false, 0x0, 0x0⟩

/-- R354, RC: alarm messages coalesced. -/
def EPO_VRD_ALARM_COAL : Loc := ⟨0x80828, false, 0x0, 0x0⟩

/-- R354, RO: bar settings of context n, from 0 to 255. -/
def EPO_VRD_CFG0 (n : Nat) : Loc := ⟨0x83000 + 0x10 * n, false, 0x0, 0x0⟩

/-- R354, RO: absence run and vote minimums. -/
def EPO_VRD_CFG1 (n : Nat) : Loc := ⟨0x83004 + 0x10 * n, false, 0x0, 0x0⟩

/-- R354, RO: suspect minimum and enables. -/
def EPO_VRD_CFG2 (n : Nat) : Loc := ⟨0x83008 + 0x10 * n, false, 0x0, 0x0⟩

/-- R382, RO: [31:24] taps, [23:16] comparators, [15:0] buffer in KiB. -/
def WAK_CAP : Loc := ⟨0xc0000, false, 0x8100400, 0x8102000⟩

/-- R382, RO: regions, shedding, drain rate, flush time; written by WAKE_CFG. -/
def WAK_CTL : Loc := ⟨0xc0004, false, 0x4c1003e8, 0x4c1003e8⟩

/-- R382, RO: [23:0] STOP_DLY in units of 100 ns; [27:24] IRQ_LVL in sixteenths, 0 disabling it; others reserved; written by WAKE_CFG. -/
def WAK_CTL2 : Loc := ⟨0xc0008, false, 0x0, 0x0⟩

/-- R382, RO: [10:8] CLASS; [7:0] AMT in units of 0.5 W: 0.5 W or 4 W; written by WAKE_CFG. -/
def WAK_PWR : Loc := ⟨0xc000c, false, 0x301, 0x308⟩

/-- R382, RO: exclusion thresholds; written by WAKE_SECURE. -/
def WAK_SEC : Loc := ⟨0xc0010, false, 0x44, 0x44⟩

/-- R382, RO: session state. -/
def WAK_STATUS : Loc := ⟨0xc0014, false, 0x0, 0x0⟩

/-- R382, W1C: events. -/
def WAK_EVT : Loc := ⟨0xc0018, false, 0x0, 0x0⟩

/-- R382, RO: destination ring address, 4 KiB aligned; written by WAKE_CFG. -/
def WAK_DST_BASE : Loc := ⟨0xc0020, true, 0x0, 0x0⟩

/-- R382, RO: [27:0] ring size in units of 4 KiB, from 16 upward; written by WAKE_CFG. -/
def WAK_DST_SIZE : Loc := ⟨0xc0028, false, 0x0, 0x0⟩

/-- R382, RO: bytes written in the session. -/
def WAK_DST_WR : Loc := ⟨0xc0030, true, 0x0, 0x0⟩

/-- R382, RW: bytes consumed (R373). -/
def WAK_DST_RD : Loc := ⟨0xc0038, true, 0x0, 0x0⟩

/-- R382, RO: [23:0] F, in bytes. -/
def WAK_FILL : Loc := ⟨0xc0040, false, 0x0, 0x0⟩

/-- R382, RC: packets written. -/
def WAK_PKTS : Loc := ⟨0xc0044, false, 0x0, 0x0⟩

/-- R382, RC: packets shed (R374). -/
def WAK_SHED : Loc := ⟨0xc0048, false, 0x0, 0x0⟩

/-- R382, RC: packets dropped (R374). -/
def WAK_DROP : Loc := ⟨0xc004c, false, 0x0, 0x0⟩

/-- R382, RC: records lost at tap FIFOs (R356, R364). -/
def WAK_FIFO_DROP : Loc := ⟨0xc0050, false, 0x0, 0x0⟩

/-- R382, RC: accesses excluded (R361). -/
def WAK_SEC_EXCL : Loc := ⟨0xc0054, false, 0x0, 0x0⟩

/-- R382, RC: packets overwritten in the pre region. -/
def WAK_PRE_OVR : Loc := ⟨0xc0058, false, 0x0, 0x0⟩

/-- R382, RC: bytes lost at SLEEP entry. -/
def WAK_PWR_LOST : Loc := ⟨0xc005c, false, 0x0, 0x0⟩

/-- R382, RC: µs stalled on a full destination. -/
def WAK_DST_STALL : Loc := ⟨0xc0060, false, 0x0, 0x0⟩

/-- R382, RC: ARM_STOP actions without a slot. -/
def WAK_ACT_FAIL : Loc := ⟨0xc0064, false, 0x0, 0x0⟩

/-- R382, RC: excerpts discarded. -/
def WAK_XR_DROP : Loc := ⟨0xc0068, false, 0x0, 0x0⟩

/-- R382, RO: tray: excerpt ring address; written by WAKE_CFG. -/
def WAK_XR_BASE : Loc := ⟨0xc0070, true, 0x0, 0x0⟩

/-- R382, RO: tray: [27:0] size in units of 4 KiB; written by WAKE_CFG. -/
def WAK_XR_SIZE : Loc := ⟨0xc0078, false, 0x0, 0x0⟩

/-- R382, RO: tray: excerpt bytes written. -/
def WAK_XR_WR : Loc := ⟨0xc0080, true, 0x0, 0x0⟩

/-- R382, RW: tray: excerpt bytes consumed, under the rule of R373. -/
def WAK_XR_RD : Loc := ⟨0xc0088, true, 0x0, 0x0⟩

/-- R382, RO: comparator k, from 0 to 15; written by WAKE_CFG. -/
def WAK_RNG_BASE (k : Nat) : Loc := ⟨0xc0100 + 0x10 * k, true, 0x0, 0x0⟩

/-- R382, RO: inclusive limit; written by WAKE_CFG. -/
def WAK_RNG_LIMIT (k : Nat) : Loc := ⟨0xc0108 + 0x10 * k, true, 0x0, 0x0⟩

/-- R382, RO: bits [2k + 1 : 2k]: 0 disabled, 1 include, 2 exclude; 3 reserved; written by WAKE_CFG. -/
def WAK_RNG_MODE : Loc := ⟨0xc0200, false, 0x0, 0x0⟩

/-- R382, RO: tap n, from 0 to 7; written by WAKE_CFG. -/
def WAK_TAP_CFG (n : Nat) : Loc := ⟨0xc0210 + 0x4 * n, false, 0x0, 0x0⟩

/-- R382, RO: counter c, from 0 to 3: [31:28] EVENT, [27:16] PARAM; others reserved; written by WAKE_CFG. -/
def WAK_CNT_CFG (c : Nat) : Loc := ⟨0xc0240 + 0x10 * c, false, 0x0, 0x0⟩

/-- R382, RO: LIMIT; written by WAKE_CFG. -/
def WAK_CNT_LIMIT (c : Nat) : Loc := ⟨0xc0244 + 0x10 * c, false, 0x1, 0x1⟩

/-- R382, RO: current count. -/
def WAK_CNT_VAL (c : Nat) : Loc := ⟨0xc0248 + 0x10 * c, false, 0x0, 0x0⟩

/-- R382, RO: [23:0] PER in µs, for t = 0 or 1; written by WAKE_CFG. -/
def WAK_TMR_PER (t : Nat) : Loc := ⟨0xc0280 + 0x4 * t, false, 0x1, 0x1⟩

/-- R382, RO: state s, from 0 to 7: [1:0] TMR; others reserved; written by WAKE_CFG. -/
def WAK_SM_CFG (s : Nat) : Loc := ⟨0xc0300 + 0x20 * s, false, 0x0, 0x0⟩

/-- R382, RO: transition i, from 0 to 3 (R367); written by WAKE_CFG. -/
def WAK_SM_TR (s : Nat) (i : Nat) : Loc := ⟨0xc0304 + 0x20 * s + 0x4 * i, false, 0x0, 0x0⟩

/-- R403, RO: [31:16] engines: 64; [15:0] pack slots at most: 256. -/
def WIT_CAP : Loc := ⟨0xd0000, false, 0x400100, 0x400100⟩

/-- R403, RO: self-test period, return timeout, enables. -/
def WIT_CTL : Loc := ⟨0xd0004, false, 0xe100a03, 0xe100a03⟩

/-- R403, RO: [10:8] CLASS; [7:0] AMT in units of 0.5 W: 1 W or 2 W. -/
def WIT_PWR : Loc := ⟨0xd0008, false, 0x302, 0x304⟩

/-- R403, W1C: events. -/
def WIT_EVT : Loc := ⟨0xd000c, false, 0x0, 0x0⟩

/-- R403, RO: store region, 64 KiB aligned. -/
def WIT_STORE_BASE : Loc := ⟨0xd0010, true, 0x0, 0x0⟩

/-- R403, RO: [8:0] slots, from 1 to 256; 0 after reset, meaning no store. -/
def WIT_STORE_SIZE : Loc := ⟨0xd0018, false, 0x0, 0x0⟩

/-- R403, RO: [1] SIG_REQ, [0] KEY_VALID. -/
def WIT_KEY_CTL : Loc := ⟨0xd001c, false, 0x0, 0x0⟩

/-- R403, RO: level of FENCE_REQ[63:0]. -/
def WIT_FENCE_REQ : Loc := ⟨0xd0020, true, 0x0, 0x0⟩

/-- R403, RO: bit n set while engine n is FENCED. -/
def WIT_FENCED : Loc := ⟨0xd0028, true, 0x0, 0x0⟩

/-- R403, RO: [31:26] engine, [25:17] record index, [16] reserved, [15:0] pack VERSION. -/
def WIT_LAST_ID : Loc := ⟨0xd0030, false, 0x0, 0x0⟩

/-- R403, RO: [7:0] pack CLASS. -/
def WIT_LAST_CLASS : Loc := ⟨0xd0034, false, 0x0, 0x0⟩

/-- R403, RO: DIGEST of the last failing record. -/
def WIT_LAST_EXP : Loc := ⟨0xd0038, true, 0x0, 0x0⟩

/-- R403, RO: digest obtained. -/
def WIT_LAST_GOT : Loc := ⟨0xd0040, true, 0x0, 0x0⟩

/-- R403, RC: runs passed. -/
def WIT_PASS : Loc := ⟨0xd0048, false, 0x0, 0x0⟩

/-- R403, RC: runs failed. -/
def WIT_FAIL : Loc := ⟨0xd004c, false, 0x0, 0x0⟩

/-- R403, RC: runs aborted. -/
def WIT_ABORT : Loc := ⟨0xd0050, false, 0x0, 0x0⟩

/-- R403, RC: engines that became overdue. -/
def WIT_OVERDUE : Loc := ⟨0xd0054, false, 0x0, 0x0⟩

/-- R403, RC: due times passed with no pack. -/
def WIT_NO_PACK : Loc := ⟨0xd0058, false, 0x0, 0x0⟩

/-- R403, RC: runs refused leave. -/
def WIT_LEAVE_FAIL : Loc := ⟨0xd005c, false, 0x0, 0x0⟩

/-- R403, RC: outputs with an unawaited tag. -/
def WIT_RET_STRAY : Loc := ⟨0xd0060, false, 0x0, 0x0⟩

/-- R403, RC: packs refused (R388). -/
def WIT_PACK_BAD : Loc := ⟨0xd0064, false, 0x0, 0x0⟩

/-- R403, RC: packs or stagings dropped (R389, R392). -/
def WIT_PUSH_DROP : Loc := ⟨0xd0068, false, 0x0, 0x0⟩

/-- R403, RC: self-tests failed. -/
def WIT_SELF_FAIL : Loc := ⟨0xd006c, false, 0x0, 0x0⟩

/-- R403, RC: self-tests skipped. -/
def WIT_SELF_SKIP : Loc := ⟨0xd0070, false, 0x0, 0x0⟩

/-- R403, RO: engine n, from 0 to 63. -/
def WIT_ENG_CFG (n : Nat) : Loc := ⟨0xd1000 + 0x20 * n, false, 0x0, 0x0⟩

/-- R403, RO: T_test in ms, from 1 to 4,294,967,295. -/
def WIT_ENG_PER (n : Nat) : Loc := ⟨0xd1004 + 0x20 * n, false, 0x1, 0x1⟩

/-- R403, RO: W in ms, from 1 to 4,294,967,295. -/
def WIT_ENG_WIN (n : Nat) : Loc := ⟨0xd1008 + 0x20 * n, false, 0x1, 0x1⟩

/-- R403, RO: live state. -/
def WIT_ENG_STATE (n : Nat) : Loc := ⟨0xd100c + 0x20 * n, false, 0x0, 0x0⟩

/-- R403, RO: [57:0] D as SEC × 1,000 + ⌊NS / 10⁶⌋, in ms. -/
def WIT_ENG_DUE (n : Nat) : Loc := ⟨0xd1010 + 0x20 * n, true, 0x0, 0x0⟩

/-- R403, RO: slot s, from 0 to 255. -/
def WIT_PACK_ID (s : Nat) : Loc := ⟨0xd2000 + 0x10 * s, false, 0x0, 0x0⟩

/-- R403, RO: [31:22] N_REC, [16:0] IMG_LEN. -/
def WIT_PACK_LEN (s : Nat) : Loc := ⟨0xd2004 + 0x10 * s, false, 0x0, 0x0⟩

/-- R436, RO: [31:24] apertures: 5; [23:16] async slots: 16; [15:8] key slots: 8; [7:0] remote commands at once: 8. -/
def PIL_CAP : Loc := ⟨0x1000, false, 0x5100808, 0x5100808⟩

/-- R436, RO: replay window and node key. -/
def PIL_CTL : Loc := ⟨0x1004, false, 0x640000, 0x640000⟩

/-- R436, W1C: events. -/
def PIL_EVT : Loc := ⟨0x1008, false, 0x0, 0x0⟩

/-- R436, RO: bits [2a + 1 : 2a]: aperture a: 0 FREE, 1 FILLING, 2 BUSY, 3 REPLIED. -/
def PIL_AP_STATE : Loc := ⟨0x100c, false, 0x2AA, 0x2AA⟩

/-- R436, RO: [31:16] PATCH_VER, 0 when none; [15:0] ROM_VER. -/
def PIL_FW : Loc := ⟨0x1010, false, 0x201, 0x201⟩

/-- R436, RO: [0] KEY_VALID; [31:1] reserved. -/
def PIL_FW_KEY_CTL : Loc := ⟨0x1014, false, 0x0, 0x0⟩

/-- R436, RO: [4:0] async slots held, from 0 to 16. -/
def PIL_ASYNC : Loc := ⟨0x1018, false, 0x0, 0x0⟩

/-- R436, RO: [3:0] remote commands launched and not replied, from 0 to 8. -/
def PIL_REMOTE : Loc := ⟨0x101c, false, 0x0, 0x0⟩

/-- R436, RO: done entries written, modulo 2³². -/
def PIL_DONE_WR : Loc := ⟨0x1020, false, 0x0, 0x0⟩

/-- R436, RW: done entries consumed (R413). -/
def PIL_DONE_RD : Loc := ⟨0x1024, false, 0x0, 0x0⟩

/-- R436, RC: commands launched. -/
def PIL_CMDS : Loc := ⟨0x1028, false, 0x0, 0x0⟩

/-- R436, RC: commands refused under R409. -/
def PIL_REFUSED : Loc := ⟨0x102c, false, 0x0, 0x0⟩

/-- R436, RC: writes refused at a BUSY aperture. -/
def PIL_BUSY_WR : Loc := ⟨0x1030, false, 0x0, 0x0⟩

/-- R436, RC: envelopes discarded for key or tag (R419, R421). -/
def PIL_AUTH_FAIL : Loc := ⟨0x1034, false, 0x0, 0x0⟩

/-- R436, RC: envelopes discarded for time or replay. -/
def PIL_REPLAY : Loc := ⟨0x1038, false, 0x0, 0x0⟩

/-- R436, RC: envelopes discarded by the relay (R422). -/
def PIL_RELAY_DROP : Loc := ⟨0x103c, false, 0x0, 0x0⟩

/-- R436, RO: [6:0] relay entries in use, from 0 to 64; zero on a leaf. -/
def PIL_RELAY : Loc := ⟨0x1040, false, 0x0, 0x0⟩

/-- R436, RO: key slot s, from 0 to 7. -/
def PIL_KEY_ID (s : Nat) : Loc := ⟨0x1100 + 0x4 * s, false, 0x0, 0x0⟩

/-- R436, RO: word w, from 0 to 15, of done entry e, from 0 to 15. -/
def PIL_DONE (e : Nat) (w : Nat) : Loc := ⟨0x1800 + 0x40 * e + 0x4 * w, false, 0x0, 0x0⟩

/-- R438, RO: [15:0] PWR_WAIT in µs, from 1 to 65,535: 100 µs after reset; [31:16] reserved. -/
def PWR_CTL : Loc := ⟨0xfc000, false, 0x64, 0x64⟩

/-- R438, RO: live state of the signals. -/
def PWR_STATE : Loc := ⟨0xfc004, false, 0x0, 0x0⟩

/-- R438, RO: hold-port threshold, class and amount. -/
def PWR_HOLD_CFG : Loc := ⟨0xfc008, false, 0x0, 0x1000410⟩

/-- R438, RO: Stow class and amount. -/
def PWR_STOW_CFG : Loc := ⟨0xfc00c, false, 0x502, 0x50c⟩

/-- R438, W1C: events. -/
def PWR_EVT : Loc := ⟨0xfc010, false, 0x0, 0x0⟩

/-- R438, RC: requests made. -/
def PWR_REQS : Loc := ⟨0xfc014, false, 0x0, 0x0⟩

/-- R438, RC: requests refused. -/
def PWR_REFUSED : Loc := ⟨0xfc018, false, 0x0, 0x0⟩

/-- R438, RC: longest wait before a grant since the last read, in µs. -/
def PWR_WAIT_MAX : Loc := ⟨0xfc01c, false, 0x0, 0x0⟩

/-- R459, RO: [31:24] sources: 32 or 64; [0] PAIRS: lines are true and complement pairs; others reserved. -/
def FLT_CAP : Loc := ⟨0xe0000, false, 0x20000000, 0x40000001⟩

/-- R459, RO: quiet time, debug and strap. -/
def FLT_CTL : Loc := ⟨0xe0004, false, 0x3e80000, 0x3e80000⟩

/-- R459, RO: collector state. -/
def FLT_STATE : Loc := ⟨0xe0008, false, 8, 8⟩

/-- R459, W1C: events. -/
def FLT_EVT : Loc := ⟨0xe000c, false, 0x0, 0x0⟩

/-- R459, RO: bit n set while source n, from 0 to 31, is GRACE or ESCALATED. -/
def FLT_STATUS : Loc := ⟨0xe0010, false, 0x0, 0x0⟩

/-- R459, RO: as FLT_STATUS, for sources 32 to 63. -/
def FLT_STATUS_HI : Loc := ⟨0xe0014, false, 0x0, 0x0⟩

/-- R459, RO: live level of lines 0 to 31, 1 for asserted. -/
def FLT_LINE : Loc := ⟨0xe0018, false, 0x0, 0x0⟩

/-- R459, RO: live level of lines 32 to 63. -/
def FLT_LINE_HI : Loc := ⟨0xe001c, false, 0x0, 0x0⟩

/-- R459, RO: bit n set by R441. -/
def FLT_WIRE : Loc := ⟨0xe0020, true, 0x0, 0x0⟩

/-- R459, RC: automatic exits from DEGRADED (R451). -/
def FLT_RECOVERIES : Loc := ⟨0xe0028, false, 0x0, 0x0⟩

/-- R459, RC: class C faults, all sources. -/
def FLT_CORRECTED : Loc := ⟨0xe002c, false, 0x0, 0x0⟩

/-- R459, RC: escalations (R445). -/
def FLT_ESCALATIONS : Loc := ⟨0xe0030, false, 0x0, 0x0⟩

/-- R459, RC: injections (R453). -/
def FLT_INJECTED : Loc := ⟨0xe0034, false, 0x0, 0x0⟩

/-- R459, RO: class, action and grace of source n, from 0 to 63. -/
def FLT_SRC_CFG (n : Nat) : Loc := ⟨0xe0100 + 0x10 * n, false, fltCfgReset .leaf n, fltCfgReset .tray n⟩

/-- R459, RO: live state. -/
def FLT_SRC_STATE (n : Nat) : Loc := ⟨0xe0104 + 0x10 * n, false, 0x0, 0x0⟩

/-- R459, RC: faults latched or counted (R443, R444). -/
def FLT_SRC_COUNT (n : Nat) : Loc := ⟨0xe0108 + 0x10 * n, false, 0x0, 0x0⟩

/-- R459, RO: [31] VALID; [9:0] crossing of the last timeout. -/
def CDC_TMO_LAST : Loc := ⟨0xe8000, false, 0x0, 0x0⟩

/-- R459, RO: [31] VALID; [9:0] crossing of the first timeout since source 7 was last cleared. -/
def CDC_TMO_FIRST : Loc := ⟨0xe8004, false, 0x0, 0x0⟩

/-- R459, RC: handshake timeouts (R456). -/
def CDC_TMO_COUNT : Loc := ⟨0xe8008, false, 0x0, 0x0⟩

/-- R482, RO: [31:24] channels: 16; [23:16] rules: 32. -/
def PLM_CAP : Loc := ⟨0xf0000, false, 0x10200000, 0x10200000⟩

/-- R482, RO: power state. -/
def PLM_POWER : Loc := ⟨0xf0004, false, 0x0, 0x0⟩

/-- R482, W1C: events. -/
def PLM_EVT : Loc := ⟨0xf0008, false, 0x0, 0x0⟩

/-- R482, RO: OPTIME (R472). -/
def PLM_OPTIME : Loc := ⟨0xf000c, false, 0, 0⟩

/-- R482, RO: [23:0] CYCLES. -/
def PLM_CYCLES : Loc := ⟨0xf0010, false, 0, 0⟩

/-- R482, RC: rule firings. -/
def PLM_FIRES : Loc := ⟨0xf0014, false, 0x0, 0x0⟩

/-- R482, RC: returns to ACTIVE. -/
def PLM_WAKES : Loc := ⟨0xf0018, false, 0x0, 0x0⟩

/-- R482, RO: channel c, from 0 to 15. -/
def PLM_CH_CFG (c : Nat) : Loc := ⟨0xf0100 + 0x10 * c, false, 0x1, 0x1⟩

/-- R482, RO: [15:0] last raw sample. -/
def PLM_CH_RAW (c : Nat) : Loc := ⟨0xf0104 + 0x10 * c, false, 0x0, 0x0⟩

/-- R482, RO: [23:0] y. -/
def PLM_CH_FILT (c : Nat) : Loc := ⟨0xf0108 + 0x10 * c, false, 0x0, 0x0⟩

/-- R482, RO: rule r, from 0 to 31. -/
def PLM_RULE_CFG0 (r : Nat) : Loc := ⟨0xf0400 + 0x20 * r, false, 0x1, 0x1⟩

/-- R482, RO: [31:16] GAP in ms, from 1 to 65,535; [11:0] UNIT. -/
def PLM_RULE_CFG1 (r : Nat) : Loc := ⟨0xf0404 + 0x20 * r, false, 0x10000, 0x10000⟩

/-- R482, RO: condition i, from 0 to 3. -/
def PLM_RULE_COND (r : Nat) (i : Nat) : Loc := ⟨0xf0408 + 0x20 * r + 0x4 * i, false, 0x0, 0x0⟩

/-- R482, RO: [31:30] 0 IDLE, 1 DWELL, 2 FIRED; [19:16] latches; [15:0] count. -/
def PLM_RULE_STATE (r : Nat) : Loc := ⟨0xf0418 + 0x20 * r, false, 0x0, 0x0⟩

/-- R482, RO: [31:16] event slots; [15:8] histograms; [7:0] channels. -/
def LOG_CAP : Loc := ⟨0xf4000, false, 0x20004010, 0x20004010⟩

/-- R482, RO: [31] FULL; [13:0] NEXT. -/
def LOG_STATUS : Loc := ⟨0xf4004, false, 0, 0⟩

/-- R482, W1C: [3] TORN, [2] QDROP, [1] FULL, [0] EVENT: an event was written. -/
def LOG_EVT : Loc := ⟨0xf4008, false, 0x0, 0x0⟩

/-- R482, RW: [14:0] unit. -/
def LOG_CURSOR : Loc := ⟨0xf400c, false, 0x0, 0x0⟩

/-- R482, RC: events dropped while FULL. -/
def LOG_DROPPED : Loc := ⟨0xf4010, false, 0x0, 0x0⟩

/-- R482, RC: events dropped at the queue. -/
def LOG_QDROP : Loc := ⟨0xf4014, false, 0x0, 0x0⟩

/-- R482, RC: units completed under R474. -/
def LOG_TORN : Loc := ⟨0xf4018, false, 0x0, 0x0⟩

/-- R482, RO: word w, from 0 to 15, of the unit at LOG_CURSOR. -/
def LOG_WINDOW (w : Nat) : Loc := ⟨0xf4040 + 0x4 * w, false, 0x0, 0x0⟩

/-- R513, RO: [8p + 7 : 8p] RESV_p, for p from 0 to 3: 16, 8, 4, 2. -/
def BRT_CTL : Loc := ⟨0xf8000, false, 0x2040810, 0x2040810⟩

/-- R513, W1C: [2] RESV_HIT, [1] NO_SPACE, [0] UPSIZE. -/
def BRT_EVT : Loc := ⟨0xf8004, false, 0x0, 0x0⟩

/-- R513, RC: requests refused (R485, R486). -/
def BRT_NOSPACE : Loc := ⟨0xf8008, false, 0x0, 0x0⟩

/-- R513, RO: [31:16] buffer size in units of 256 B; [15:0] buffers. -/
def BRT_POOL_CAP (p : Nat) : Loc := ⟨0xf8010 + 0x10 * p, false, poolSize p / 256 * 0x10000 + poolCount .leaf p, poolSize p / 256 * 0x10000 + poolCount .tray p⟩

/-- R513, RO: [15:0] free buffers. -/
def BRT_POOL_FREE (p : Nat) : Loc := ⟨0xf8014 + 0x10 * p, false, poolCount .leaf p, poolCount .tray p⟩

/-- R513, RC: [15:0] fewest free since the last read. -/
def BRT_POOL_MIN (p : Nat) : Loc := ⟨0xf8018 + 0x10 * p, false, poolCount .leaf p, poolCount .tray p⟩

/-- R513, RC: upsizes from pool p. -/
def BRT_POOL_UPSIZE (p : Nat) : Loc := ⟨0xf801c + 0x10 * p, false, 0x0, 0x0⟩

/-- R513, RO: [31:16] rate in units of 0.5 GB/s; [15:0] block size in KiB. -/
def STW_CAP : Loc := ⟨0xf8400, false, 0x40040, 0x200040⟩

/-- R513, W1C: [3] CHECK_FAIL, [2] OVERFLOW, [1] RAW, [0] DONE. -/
def STW_EVT : Loc := ⟨0xf8404, false, 0x0, 0x0⟩

/-- R513, RC: jobs completed. -/
def STW_JOBS : Loc := ⟨0xf8408, false, 0x0, 0x0⟩

/-- R513, RC: blocks written. -/
def STW_BLOCKS : Loc := ⟨0xf840c, false, 0x0, 0x0⟩

/-- R513, RC: blocks stored raw. -/
def STW_RAW : Loc := ⟨0xf8410, false, 0x0, 0x0⟩

/-- R513, RC: jobs failed (R498). -/
def STW_OVERFLOW : Loc := ⟨0xf8414, false, 0x0, 0x0⟩

/-- R513, RC: self-check mismatches (R496). -/
def STW_CHECK : Loc := ⟨0xf8418, false, 0x0, 0x0⟩

/-- R513, RO: [0] FWD_EN; written by LND_SET. -/
def STW_SR_CTL : Loc := ⟨0xf8440, false, 0x0, 0x0⟩

/-- R513, RO: series ring address, 4 KiB aligned; written by LND_SET. -/
def STW_SR_BASE : Loc := ⟨0xf8448, true, 0x0, 0x0⟩

/-- R513, RO: [27:0] ring size in units of 4 KiB; written by LND_SET. -/
def STW_SR_SIZE : Loc := ⟨0xf8450, false, 0x0, 0x0⟩

/-- R513, RO: bytes written. -/
def STW_SR_WR : Loc := ⟨0xf8458, true, 0x0, 0x0⟩

/-- R513, RW: bytes consumed. -/
def STW_SR_RD : Loc := ⟨0xf8460, true, 0x0, 0x0⟩

/-- R513, RC: records discarded (R499). -/
def STW_SR_DROP : Loc := ⟨0xf8468, false, 0x0, 0x0⟩

/-- R513, RO: collector IPv6 address, word w from 0 to 3; written by LND_SET. -/
def STW_SR_COLL (w : Nat) : Loc := ⟨0xf8470 + 0x4 * w, false, 0x0, 0x0⟩

/-- R514, RO: [31:24] streams; [23:16] flows per class; [15:8] gate entries; [7:0] roles. -/
def LND_CAP : Loc := ⟨0xfc400, false, 0x2404004, 0x2404004⟩

/-- R514, RO: [31:16] PORT; [4] FWD_EN; [1:0] stream enables; written by LND_SET. -/
def LND_CTL : Loc := ⟨0xfc404, false, 0x5a590000, 0x5a590000⟩

/-- R514, W1C: [3] SWAP, [2] FWD_DROP, [1] POLICED, [0] RX_BAD. -/
def LND_EVT : Loc := ⟨0xfc408, false, 0x0, 0x0⟩

/-- R514, RO: [6c − 1 : 6c − 6] DSCP of class c; written by LND_SET. -/
def LND_DSCP : Loc := ⟨0xfc40c, false, 0x0, 0x0⟩

/-- R514, RO: [47:0] own MAC; written by LND_SET. -/
def LND_MAC : Loc := ⟨0xfc410, true, 0x0, 0x0⟩

/-- R514, RO: [47:0] gateway MAC of stream s; written by LND_SET. -/
def LND_GW (s : Nat) : Loc := ⟨0xfc418 + 0x8 * s, true, 0x0, 0x0⟩

/-- R514, RO: own IPv6 address, word w; written by LND_SET. -/
def LND_IP6 (w : Nat) : Loc := ⟨0xfc430 + 0x4 * w, false, 0x0, 0x0⟩

/-- R514, RC: frames sent. -/
def LND_TX_FRAMES : Loc := ⟨0xfc440, false, 0x0, 0x0⟩

/-- R514, RC: frames accepted. -/
def LND_RX_FRAMES : Loc := ⟨0xfc444, false, 0x0, 0x0⟩

/-- R514, RC: frames discarded (R503). -/
def LND_RX_BAD : Loc := ⟨0xfc448, false, 0x0, 0x0⟩

/-- R514, RC: bundles policed (R508). -/
def LND_POL_DROP : Loc := ⟨0xfc44c, false, 0x0, 0x0⟩

/-- R514, RC: frames not forwarded. -/
def LND_FWD_DROP : Loc := ⟨0xfc450, false, 0x0, 0x0⟩

/-- R514, RO: [31:16] admin version, [15:0] operational version, of stream 0. -/
def LND_GATE_VER : Loc := ⟨0xfc454, false, 0x0, 0x0⟩

/-- R514, RO: [39:0] pending swap cycle; [63] PENDING. -/
def LND_GATE_CYC : Loc := ⟨0xfc458, true, 0x0, 0x0⟩

/-- R514, RO: [31] EN; [15:0] RATE in units of 10 MB/s; written by LND_SET. -/
def LND_SHP_RATE (s : Nat) (c : Nat) : Loc := ⟨0xfc500 + 0x40 * s + 0x8 * c, false, 0, if c = 1 then 0x80000064 else if c = 2 then 0x80000190 else if c = 3 then 0 else 0x80000320⟩

/-- R514, RO: [15:0] BURST in KiB; written by LND_SET. -/
def LND_SHP_BURST (s : Nat) (c : Nat) : Loc := ⟨0xfc504 + 0x40 * s + 0x8 * c, false, 0, lndBurstReset c⟩

/-- R514, RO: live tokens. -/
def LND_TOK (s : Nat) (c : Nat) : Loc := ⟨0xfc580 + 0x20 * s + 0x4 * c, false, 0, lndBurstReset c * 1024⟩

/-- R514, RO: policer k, 0 CMD and 1 SERIES: [15:0] RATE in units of 10 MB/s; written by LND_SET. -/
def LND_POL_RATE (s : Nat) (k : Nat) : Loc := ⟨0xfc5c0 + 0x10 * s + 0x8 * k, false, 0, if k = 0 then 0xA else 0x320⟩

/-- R514, RO: [15:0] BURST in KiB; written by LND_SET. -/
def LND_POL_BURST (s : Nat) (k : Nat) : Loc := ⟨0xfc5c4 + 0x10 * s + 0x8 * k, false, 0, if k = 0 then 0x40 else 0x400⟩

/-- R514, RO: role l: [31] VALID, [30] ROOT, [29] STREAM, [26:24] parent level, [19:0] parent. -/
def LND_TREE_ID (l : Nat) : Loc := ⟨0xfc600 + 0x20 * (l - 1), false, 0x0, 0x0⟩

/-- R514, RO: [6:0] children. -/
def LND_TREE_N (l : Nat) : Loc := ⟨0xfc604 + 0x20 * (l - 1), false, 0x0, 0x0⟩

/-- R514, RO: parent IPv6 address, word w. -/
def LND_TREE_ADDR (l : Nat) (w : Nat) : Loc := ⟨0xfc608 + 0x20 * (l - 1) + 0x4 * w, false, 0x0, 0x0⟩

/-- R514, RO: child k, from 0 to 63, of role l from 2 to 4: [31] VALID, [30] STREAM, [19:0] station. -/
def LND_TREE_CH (l : Nat) (k : Nat) : Loc := ⟨0xfc800 + 0x100 * (l - 2) + 0x4 * k, false, 0x0, 0x0⟩

/-- R514, RO: entry n of list L: 0 operational, 1 admin. -/
def LND_ENT (s : Nat) (L : Nat) (n : Nat) : Loc := ⟨0xfd000 + 0x400 * s + 0x200 * L + 0x8 * n, true, 0, lndEntReset n⟩

/-- R538, RO: [31:16] groups; [15:0] signal bonds. -/
def CDC_BOND_CAP : Loc := ⟨0xe8010, false, 0x1f03e0, 0x1122240⟩

/-- R538, RO: [31] TESTED; [30] PASS; [15:0] groups repaired by the map. -/
def CDC_BOND_STATUS : Loc := ⟨0xe8014, false, 0x0, 0x0⟩

/-- R538, RO: [31] VALID; [15:0] first failing group of the last test. -/
def CDC_BOND_BAD : Loc := ⟨0xe8018, false, 0x0, 0x0⟩

/-- R538, RC: entries discarded under R520. -/
def CDC_FLUSHED : Loc := ⟨0xe801c, false, 0x0, 0x0⟩

/-- R538, RO: [5:0] repair entry of group g. -/
def CDC_BOND_MAP (g : Nat) : Loc := ⟨0xe8400 + 0x4 * g, false, 0, 0⟩

/-- R542, RO: [31:24] ports: 12; [23:0] capacity in units of 64 MB: 15,000. -/
def HLD_CAP : Loc := ⟨0xfe000, false, 0xc003a98, 0xc003a98⟩

/-- R542, RO: [11:0] bit m: port m trained. -/
def HLD_STATUS : Loc := ⟨0xfe004, false, 0, 0⟩

/-- R542, W1C: [1] LINK: a port lost training; [0] RERR: an access failed. -/
def HLD_EVT : Loc := ⟨0xfe008, false, 0x0, 0x0⟩

/-- R542, RC: accesses failed (R541). -/
def HLD_RERR : Loc := ⟨0xfe00c, false, 0x0, 0x0⟩

/-- R542, RC: bytes read, all ports. -/
def HLD_RD_BYTES : Loc := ⟨0xfe010, true, 0x0, 0x0⟩

/-- R542, RC: bytes written, all ports. -/
def HLD_WR_BYTES : Loc := ⟨0xfe018, true, 0x0, 0x0⟩

/-- Rows of the CAP_ registers. -/
def regRowsCap : List RegRow := [
  ⟨"CAP_ID", 0x0, [], false, .ro, .hrst, fun _ => CAP_ID⟩,
  ⟨"CAP_ABSENT_HIT", 0x8, [], false, .w1c, .hrst, fun _ => CAP_ABSENT_HIT⟩,
  ⟨"CAP_ACC_ERR", 0xc, [], false, .w1c, .hrst, fun _ => CAP_ACC_ERR⟩,
  ⟨"CAP_UNITS", 0x10, [], false, .ro, .hrst, fun _ => CAP_UNITS⟩,
  ⟨"CAP_CLK_A", 0x14, [], false, .ro, .hrst, fun _ => CAP_CLK_A⟩,
  ⟨"CAP_CLK_B", 0x18, [], false, .ro, .hrst, fun _ => CAP_CLK_B⟩,
  ⟨"CAP_POWER", 0x1c, [], false, .ro, .hrst, fun _ => CAP_POWER⟩,
  ⟨"CAP_SLEEP_HIT", 0x20, [], false, .w1c, .hrst, fun _ => CAP_SLEEP_HIT⟩]

/-- Rows of the CHN_ registers. -/
def regRowsChn : List RegRow := [
  ⟨"CHN_STATION", 0x30000, [], false, .ro, .por, fun _ => CHN_STATION⟩,
  ⟨"CHN_CTL", 0x30004, [], false, .ro, .por, fun _ => CHN_CTL⟩,
  ⟨"CHN_LISTEN_DLY", 0x30008, [], false, .ro, .por, fun _ => CHN_LISTEN_DLY⟩,
  ⟨"CHN_LISTEN_DLY_E", 0x3000c, [], false, .ro, .por, fun _ => CHN_LISTEN_DLY_E⟩,
  ⟨"CHN_STATUS", 0x30010, [(0x4000, 0, 2)], false, .ro, .por, fun ix => CHN_STATUS (ix.getD 0 0)⟩,
  ⟨"CHN_LANES", 0x30014, [(0x4000, 0, 2)], false, .ro, .por, fun ix => CHN_LANES (ix.getD 0 0)⟩,
  ⟨"CHN_EVT", 0x30018, [(0x4000, 0, 2)], false, .w1c, .por, fun ix => CHN_EVT (ix.getD 0 0)⟩,
  ⟨"CHN_ROSTER", 0x3001c, [(0x4000, 0, 2)], false, .ro, .por, fun ix => CHN_ROSTER (ix.getD 0 0)⟩,
  ⟨"CHN_LDLY_W", 0x30020, [(0x4000, 0, 2)], false, .ro, .por, fun ix => CHN_LDLY_W (ix.getD 0 0)⟩,
  ⟨"CHN_LDLY_E", 0x30024, [(0x4000, 0, 2)], false, .ro, .por, fun ix => CHN_LDLY_E (ix.getD 0 0)⟩,
  ⟨"CHN_SPL_SUB", 0x30028, [(0x4000, 0, 2)], true, .ro, .por, fun ix => CHN_SPL_SUB (ix.getD 0 0)⟩,
  ⟨"CHN_SPL_SEC", 0x30030, [(0x4000, 0, 2)], true, .ro, .por, fun ix => CHN_SPL_SEC (ix.getD 0 0)⟩,
  ⟨"CHN_SPL_CTL", 0x30038, [(0x4000, 0, 2)], false, .ro, .por, fun ix => CHN_SPL_CTL (ix.getD 0 0)⟩,
  ⟨"CHN_HCRC_ERR", 0x30040, [(0x4000, 0, 2)], false, .rc, .por, fun ix => CHN_HCRC_ERR (ix.getD 0 0)⟩,
  ⟨"CHN_BLK_ERR", 0x30044, [(0x4000, 0, 2)], false, .rc, .por, fun ix => CHN_BLK_ERR (ix.getD 0 0)⟩,
  ⟨"CHN_LOST", 0x30048, [(0x4000, 0, 2)], false, .rc, .por, fun ix => CHN_LOST (ix.getD 0 0)⟩,
  ⟨"CHN_MSG_LOST", 0x3004c, [(0x4000, 0, 2)], false, .rc, .por, fun ix => CHN_MSG_LOST (ix.getD 0 0)⟩,
  ⟨"CHN_SEQ_RESYNC", 0x30050, [(0x4000, 0, 2)], false, .rc, .por, fun ix => CHN_SEQ_RESYNC (ix.getD 0 0)⟩,
  ⟨"CHN_GRANT_BUSY", 0x30054, [(0x4000, 0, 2)], false, .rc, .por, fun ix => CHN_GRANT_BUSY (ix.getD 0 0)⟩,
  ⟨"CHN_ALARM_DROP", 0x30058, [(0x4000, 0, 2)], false, .rc, .por, fun ix => CHN_ALARM_DROP (ix.getD 0 0)⟩,
  ⟨"CHN_FENCE_DROP", 0x3005c, [(0x4000, 0, 2)], false, .rc, .por, fun ix => CHN_FENCE_DROP (ix.getD 0 0)⟩,
  ⟨"CHN_BULK_RETX", 0x30060, [(0x4000, 0, 2)], false, .rc, .por, fun ix => CHN_BULK_RETX (ix.getD 0 0)⟩,
  ⟨"CHN_TRUNC", 0x30064, [(0x4000, 0, 2)], false, .rc, .por, fun ix => CHN_TRUNC (ix.getD 0 0)⟩]

/-- Rows of the DAT_ registers. -/
def regRowsDat : List RegRow := [
  ⟨"DAT_STATE", 0x20000, [], false, .ro, .por, fun _ => DAT_STATE⟩,
  ⟨"DAT_CTL", 0x20004, [], false, .ro, .por, fun _ => DAT_CTL⟩,
  ⟨"DAT_NOW_SUB", 0x20008, [], true, .ro, .por, fun _ => DAT_NOW_SUB⟩,
  ⟨"DAT_NOW_SEC", 0x20010, [], true, .ro, .por, fun _ => DAT_NOW_SEC⟩,
  ⟨"DAT_INC", 0x20018, [], true, .ro, .por, fun _ => DAT_INC⟩,
  ⟨"DAT_FADJ", 0x20020, [], false, .ro, .por, fun _ => DAT_FADJ⟩,
  ⟨"DAT_GAIN", 0x20024, [], false, .ro, .por, fun _ => DAT_GAIN⟩,
  ⟨"DAT_THR", 0x20028, [], false, .ro, .por, fun _ => DAT_THR⟩,
  ⟨"DAT_COUNT", 0x2002c, [], false, .ro, .por, fun _ => DAT_COUNT⟩,
  ⟨"DAT_STEP_THR", 0x20030, [], false, .ro, .por, fun _ => DAT_STEP_THR⟩,
  ⟨"DAT_STEP_MAX", 0x20034, [], false, .ro, .por, fun _ => DAT_STEP_MAX⟩,
  ⟨"DAT_HOLD_MAX", 0x20038, [], false, .ro, .por, fun _ => DAT_HOLD_MAX⟩,
  ⟨"DAT_OFFSET", 0x20040, [], true, .ro, .por, fun _ => DAT_OFFSET⟩,
  ⟨"DAT_LDLY_W", 0x20048, [], false, .ro, .por, fun _ => DAT_LDLY_W⟩,
  ⟨"DAT_LDLY_E", 0x2004c, [], false, .ro, .por, fun _ => DAT_LDLY_E⟩,
  ⟨"DAT_PMA_LAT", 0x20050, [], false, .ro, .por, fun _ => DAT_PMA_LAT⟩,
  ⟨"DAT_ASYM", 0x20054, [], false, .ro, .por, fun _ => DAT_ASYM⟩,
  ⟨"DAT_CLOSURE", 0x20058, [], false, .ro, .por, fun _ => DAT_CLOSURE⟩,
  ⟨"DAT_EVT", 0x2005c, [], false, .w1c, .por, fun _ => DAT_EVT⟩,
  ⟨"DAT_STEPS", 0x20060, [], false, .rc, .por, fun _ => DAT_STEPS⟩,
  ⟨"DAT_TW_ERR", 0x20064, [], false, .rc, .por, fun _ => DAT_TW_ERR⟩,
  ⟨"DAT_MPD", 0x20070, [], true, .ro, .por, fun _ => DAT_MPD⟩,
  ⟨"DAT_PLS_SUB", 0x20100, [(0x20, 0, 8)], true, .ro, .por, fun ix => DAT_PLS_SUB (ix.getD 0 0)⟩,
  ⟨"DAT_PLS_SEC", 0x20108, [(0x20, 0, 8)], true, .ro, .por, fun ix => DAT_PLS_SEC (ix.getD 0 0)⟩,
  ⟨"DAT_PLS_PER", 0x20110, [(0x20, 0, 8)], false, .ro, .por, fun ix => DAT_PLS_PER (ix.getD 0 0)⟩,
  ⟨"DAT_PLS_CTL", 0x20114, [(0x20, 0, 8)], false, .ro, .por, fun ix => DAT_PLS_CTL (ix.getD 0 0)⟩,
  ⟨"DAT_STOP_SUB", 0x20200, [(0x20, 0, 4)], true, .ro, .por, fun ix => DAT_STOP_SUB (ix.getD 0 0)⟩,
  ⟨"DAT_STOP_SEC", 0x20208, [(0x20, 0, 4)], true, .ro, .por, fun ix => DAT_STOP_SEC (ix.getD 0 0)⟩,
  ⟨"DAT_STOP_CTL", 0x20210, [(0x20, 0, 4)], false, .ro, .por, fun ix => DAT_STOP_CTL (ix.getD 0 0)⟩,
  ⟨"DAT_BEAT_SUB", 0x20300, [(0x10, 0, 8)], true, .ro, .por, fun ix => DAT_BEAT_SUB (ix.getD 0 0)⟩,
  ⟨"DAT_BEAT_SEC", 0x20308, [(0x10, 0, 8)], true, .ro, .por, fun ix => DAT_BEAT_SEC (ix.getD 0 0)⟩,
  ⟨"DAT_BEAT_DROP", 0x20380, [], false, .rc, .por, fun _ => DAT_BEAT_DROP⟩]

/-- Rows of the TMT_ registers. -/
def regRowsTmt : List RegRow := [
  ⟨"TMT_VER", 0x30080, [(0x4000, 0, 2)], false, .ro, .por, fun ix => TMT_VER (ix.getD 0 0)⟩,
  ⟨"TMT_CTL", 0x30084, [(0x4000, 0, 2)], false, .ro, .por, fun ix => TMT_CTL (ix.getD 0 0)⟩,
  ⟨"TMT_CYC", 0x30088, [(0x4000, 0, 2)], true, .ro, .por, fun ix => TMT_CYC (ix.getD 0 0)⟩,
  ⟨"TMT_SWAP_CYC", 0x30090, [(0x4000, 0, 2)], true, .ro, .por, fun ix => TMT_SWAP_CYC (ix.getD 0 0)⟩,
  ⟨"TMT_ENT", 0x31000, [(0x4000, 0, 2), (0x200, 0, 4), (0x8, 0, 64)], true, .ro, .por, fun ix => TMT_ENT (ix.getD 0 0) (ix.getD 1 0) (ix.getD 2 0)⟩]

/-- Rows of the TAP_ registers. -/
def regRowsTap : List RegRow := [
  ⟨"TAP_CAP", 0x40000, [], false, .ro, .hrst, fun _ => TAP_CAP⟩,
  ⟨"TAP_ON", 0x40008, [], true, .ro, .por, fun _ => TAP_ON⟩,
  ⟨"TAP_STALE", 0x40010, [], true, .w1c, .por, fun _ => TAP_STALE⟩,
  ⟨"TAP_EVT", 0x40018, [], false, .w1c, .por, fun _ => TAP_EVT⟩,
  ⟨"TAP_DEFERRED", 0x4001c, [], false, .rc, .por, fun _ => TAP_DEFERRED⟩,
  ⟨"TAP_SNAP_TMO", 0x40020, [], false, .rc, .por, fun _ => TAP_SNAP_TMO⟩,
  ⟨"TAP_MAP", 0x60000, [(0x800, 0, 64), (0x4, 0, 512)], false, .ro, .por, fun ix => TAP_MAP (ix.getD 0 0) (ix.getD 1 0)⟩]

/-- Rows of the GAU_ registers. -/
def regRowsGau : List RegRow := [
  ⟨"GAU_CTL", 0x41000, [], false, .ro, .por, fun _ => GAU_CTL⟩,
  ⟨"GAU_STALE", 0x41004, [], false, .rc, .por, fun _ => GAU_STALE⟩,
  ⟨"GAU_VAL", 0x41400, [(0x4, 0, 256)], false, .ro, .por, fun ix => GAU_VAL (ix.getD 0 0)⟩]

/-- Rows of the BEA_ registers. -/
def regRowsBea : List RegRow := [
  ⟨"BEA_CTL", 0x42000, [], false, .ro, .por, fun _ => BEA_CTL⟩,
  ⟨"BEA_INT", 0x42010, [(0x8, 0, 8)], true, .ro, .por, fun ix => BEA_INT (ix.getD 0 0)⟩]

/-- Rows of the PRB_ registers. -/
def regRowsPrb : List RegRow := [
  ⟨"PRB_CAP", 0x43000, [], false, .ro, .hrst, fun _ => PRB_CAP⟩,
  ⟨"PRB_EVT", 0x43004, [], false, .w1c, .crst, fun _ => PRB_EVT⟩,
  ⟨"PRB_MISSING", 0x43008, [], false, .rc, .crst, fun _ => PRB_MISSING⟩,
  ⟨"PRB_SAT", 0x4300c, [], false, .rc, .crst, fun _ => PRB_SAT⟩,
  ⟨"PRB_SERIES_DROP", 0x43010, [], false, .rc, .crst, fun _ => PRB_SERIES_DROP⟩,
  ⟨"PRB_TRK_VOTES", 0x43014, [], false, .rc, .crst, fun _ => PRB_TRK_VOTES⟩,
  ⟨"PRB_DESC", 0x44000, [(0x10, 0, 1024), (0x4, 0, 4)], false, .ro, .crst, fun ix => PRB_DESC (ix.getD 0 0) (ix.getD 1 0)⟩,
  ⟨"PRB_TRK_CFG", 0x48000, [(0x40, 0, 256), (0x4, 0, 6)], false, .ro, .crst, fun ix => PRB_TRK_CFG (ix.getD 0 0) (ix.getD 1 0)⟩,
  ⟨"PRB_TRK_BASE", 0x48020, [(0x40, 0, 256)], true, .ro, .crst, fun ix => PRB_TRK_BASE (ix.getD 0 0)⟩,
  ⟨"PRB_TRK_SPOS", 0x48028, [(0x40, 0, 256)], true, .ro, .crst, fun ix => PRB_TRK_SPOS (ix.getD 0 0)⟩,
  ⟨"PRB_TRK_SNEG", 0x48030, [(0x40, 0, 256)], true, .ro, .crst, fun ix => PRB_TRK_SNEG (ix.getD 0 0)⟩,
  ⟨"PRB_TRK_SEEN", 0x48038, [(0x40, 0, 256)], false, .ro, .crst, fun ix => PRB_TRK_SEEN (ix.getD 0 0)⟩]

/-- Rows of the EPO_ registers. -/
def regRowsEpo : List RegRow := [
  ⟨"EPO_CAP", 0x80000, [], false, .ro, .hrst, fun _ => EPO_CAP⟩,
  ⟨"EPO_CTL", 0x80004, [], false, .ro, .por, fun _ => EPO_CTL⟩,
  ⟨"EPO_EVT", 0x80008, [], false, .w1c, .por, fun _ => EPO_EVT⟩,
  ⟨"EPO_LATE", 0x80010, [], false, .rc, .por, fun _ => EPO_LATE⟩,
  ⟨"EPO_TIMEOUT", 0x80014, [], false, .rc, .por, fun _ => EPO_TIMEOUT⟩,
  ⟨"EPO_OVERRUN", 0x80018, [], false, .rc, .por, fun _ => EPO_OVERRUN⟩,
  ⟨"EPO_VOIDS", 0x8001c, [], false, .rc, .por, fun _ => EPO_VOIDS⟩,
  ⟨"EPO_PULLS", 0x80020, [], false, .rc, .por, fun _ => EPO_PULLS⟩,
  ⟨"EPO_RET_EVICT", 0x80024, [], false, .rc, .por, fun _ => EPO_RET_EVICT⟩,
  ⟨"EPO_EPOCH_ERR", 0x80028, [], false, .rc, .por, fun _ => EPO_EPOCH_ERR⟩,
  ⟨"EPO_DL_FLOOR", 0x80040, [(0x10, 1, 4)], false, .ro, .por, fun ix => EPO_DL_FLOOR (ix.getD 0 0)⟩,
  ⟨"EPO_DL_CEIL", 0x80044, [(0x10, 1, 4)], false, .ro, .por, fun ix => EPO_DL_CEIL (ix.getD 0 0)⟩,
  ⟨"EPO_DL_MARGIN", 0x80048, [(0x10, 1, 4)], false, .ro, .por, fun ix => EPO_DL_MARGIN (ix.getD 0 0)⟩,
  ⟨"EPO_CTX_ID", 0x81000, [(0x20, 0, 256)], false, .ro, .por, fun ix => EPO_CTX_ID (ix.getD 0 0)⟩,
  ⟨"EPO_CTX_LAST", 0x81008, [(0x20, 0, 256)], true, .ro, .por, fun ix => EPO_CTX_LAST (ix.getD 0 0)⟩,
  ⟨"EPO_CTX_DL", 0x81010, [(0x20, 0, 256)], false, .ro, .por, fun ix => EPO_CTX_DL (ix.getD 0 0)⟩,
  ⟨"EPO_CTX_Q99", 0x81014, [(0x20, 0, 256)], false, .ro, .crst, fun ix => EPO_CTX_Q99 (ix.getD 0 0)⟩,
  ⟨"EPO_CTX_WAIT", 0x81018, [(0x20, 0, 256)], false, .ro, .crst, fun ix => EPO_CTX_WAIT (ix.getD 0 0)⟩,
  ⟨"EPO_VRD_CTL", 0x80800, [], false, .ro, .por, fun _ => EPO_VRD_CTL⟩,
  ⟨"EPO_VRD_EVT", 0x80804, [], false, .w1c, .por, fun _ => EPO_VRD_EVT⟩,
  ⟨"EPO_VRD_SEQ", 0x80808, [], false, .ro, .por, fun _ => EPO_VRD_SEQ⟩,
  ⟨"EPO_VRD_OLDEST", 0x8080c, [], false, .ro, .por, fun _ => EPO_VRD_OLDEST⟩,
  ⟨"EPO_VRD_CAP", 0x80810, [], false, .ro, .hrst, fun _ => EPO_VRD_CAP⟩,
  ⟨"EPO_VRD_COUNT", 0x80814, [], false, .rc, .por, fun _ => EPO_VRD_COUNT⟩,
  ⟨"EPO_VRD_DROP", 0x80818, [], false, .rc, .por, fun _ => EPO_VRD_DROP⟩,
  ⟨"EPO_VRD_BAR_LATE", 0x8081c, [], false, .rc, .por, fun _ => EPO_VRD_BAR_LATE⟩,
  ⟨"EPO_VRD_ALARMS", 0x80820, [], false, .rc, .por, fun _ => EPO_VRD_ALARMS⟩,
  ⟨"EPO_VRD_ALARM_BAD", 0x80824, [], false, .rc, .por, fun _ => EPO_VRD_ALARM_BAD⟩,
  ⟨"EPO_VRD_ALARM_COAL", 0x80828, [], false, .rc, .por, fun _ => EPO_VRD_ALARM_COAL⟩,
  ⟨"EPO_VRD_CFG0", 0x83000, [(0x10, 0, 256)], false, .ro, .por, fun ix => EPO_VRD_CFG0 (ix.getD 0 0)⟩,
  ⟨"EPO_VRD_CFG1", 0x83004, [(0x10, 0, 256)], false, .ro, .por, fun ix => EPO_VRD_CFG1 (ix.getD 0 0)⟩,
  ⟨"EPO_VRD_CFG2", 0x83008, [(0x10, 0, 256)], false, .ro, .por, fun ix => EPO_VRD_CFG2 (ix.getD 0 0)⟩]

/-- Rows of the TAL_ registers. -/
def regRowsTal : List RegRow := [
  ⟨"TAL_CAP", 0x90000, [], false, .ro, .hrst, fun _ => TAL_CAP⟩,
  ⟨"TAL_CAP_B", 0x90004, [], false, .ro, .hrst, fun _ => TAL_CAP_B⟩,
  ⟨"TAL_CTL", 0x90008, [], false, .ro, .crst, fun _ => TAL_CTL⟩,
  ⟨"TAL_EVT", 0x9000c, [], false, .w1c, .crst, fun _ => TAL_EVT⟩,
  ⟨"TAL_PAGES_FREE", 0x90010, [], false, .ro, .por, fun _ => TAL_PAGES_FREE⟩,
  ⟨"TAL_CTX_FREE", 0x90014, [], false, .ro, .por, fun _ => TAL_CTX_FREE⟩,
  ⟨"TAL_BACKLOG", 0x90018, [], false, .ro, .crst, fun _ => TAL_BACKLOG⟩,
  ⟨"TAL_BACKLOG_MAX", 0x9001c, [], false, .rc, .crst, fun _ => TAL_BACKLOG_MAX⟩,
  ⟨"TAL_COARSE", 0x90020, [], false, .rc, .crst, fun _ => TAL_COARSE⟩,
  ⟨"TAL_APPROX", 0x90024, [], false, .rc, .crst, fun _ => TAL_APPROX⟩,
  ⟨"TAL_EVICT", 0x90028, [], false, .rc, .crst, fun _ => TAL_EVICT⟩,
  ⟨"TAL_SPILL", 0x9002c, [], false, .rc, .crst, fun _ => TAL_SPILL⟩,
  ⟨"TAL_SAT_DELAY", 0x90030, [], false, .rc, .crst, fun _ => TAL_SAT_DELAY⟩,
  ⟨"TAL_OWN_DROP", 0x90034, [], false, .rc, .crst, fun _ => TAL_OWN_DROP⟩,
  ⟨"TAL_MISMATCH", 0x90038, [], false, .rc, .crst, fun _ => TAL_MISMATCH⟩,
  ⟨"TAL_HSAT", 0x9003c, [], false, .rc, .crst, fun _ => TAL_HSAT⟩,
  ⟨"TAL_CTX_CFG", 0x91000, [(0x10, 0, 256)], false, .ro, .por, fun ix => TAL_CTX_CFG (ix.getD 0 0)⟩,
  ⟨"TAL_CTX_SEQ", 0x91004, [(0x10, 0, 256)], false, .ro, .por, fun ix => TAL_CTX_SEQ (ix.getD 0 0)⟩,
  ⟨"TAL_CTX_STATE", 0x91008, [(0x10, 0, 256)], false, .ro, .crst, fun ix => TAL_CTX_STATE (ix.getD 0 0)⟩]

/-- Rows of the PAR_ registers. -/
def regRowsPar : List RegRow := [
  ⟨"PAR_CTL", 0x84000, [], false, .ro, .por, fun _ => PAR_CTL⟩,
  ⟨"PAR_EVT", 0x84008, [], false, .w1c, .por, fun _ => PAR_EVT⟩,
  ⟨"PAR_OCC", 0x8400c, [], false, .ro, .por, fun _ => PAR_OCC⟩,
  ⟨"PAR_MEMB", 0x84010, [], false, .ro, .por, fun _ => PAR_MEMB⟩,
  ⟨"PAR_THIN", 0x84014, [], false, .ro, .por, fun _ => PAR_THIN⟩,
  ⟨"PAR_FAIL_CTX", 0x84018, [], false, .rc, .por, fun _ => PAR_FAIL_CTX⟩,
  ⟨"PAR_FAIL_PAGES", 0x8401c, [], false, .rc, .por, fun _ => PAR_FAIL_PAGES⟩,
  ⟨"PAR_FAIL_MEMB", 0x84020, [], false, .rc, .por, fun _ => PAR_FAIL_MEMB⟩,
  ⟨"PAR_LAPSED", 0x84024, [], false, .rc, .por, fun _ => PAR_LAPSED⟩,
  ⟨"PAR_SERVED", 0x84040, [], false, .ro, .por, fun _ => PAR_SERVED⟩,
  ⟨"PAR_CTX_STATE", 0x85000, [(0x20, 0, 256)], false, .ro, .por, fun ix => PAR_CTX_STATE (ix.getD 0 0)⟩,
  ⟨"PAR_CTX_MEMB", 0x85004, [(0x20, 0, 256)], false, .ro, .por, fun ix => PAR_CTX_MEMB (ix.getD 0 0)⟩,
  ⟨"PAR_CTX_T0_SUB", 0x85008, [(0x20, 0, 256)], true, .ro, .por, fun ix => PAR_CTX_T0_SUB (ix.getD 0 0)⟩,
  ⟨"PAR_CTX_T0_SEC", 0x85010, [(0x20, 0, 256)], true, .ro, .por, fun ix => PAR_CTX_T0_SEC (ix.getD 0 0)⟩,
  ⟨"PAR_CTX_END", 0x85018, [(0x20, 0, 256)], true, .ro, .por, fun ix => PAR_CTX_END (ix.getD 0 0)⟩]

/-- Rows of the RUL_ registers. -/
def regRowsRul : List RegRow := [
  ⟨"RUL_LEAD", 0x84004, [], false, .ro, .por, fun _ => RUL_LEAD⟩,
  ⟨"RUL_APPLIED", 0x84028, [], false, .rc, .por, fun _ => RUL_APPLIED⟩,
  ⟨"RUL_LATE", 0x8402c, [], false, .rc, .por, fun _ => RUL_LATE⟩,
  ⟨"RUL_REFUSED", 0x84030, [], false, .rc, .por, fun _ => RUL_REFUSED⟩,
  ⟨"RUL_DUP", 0x84034, [], false, .rc, .por, fun _ => RUL_DUP⟩,
  ⟨"RUL_PEND", 0x84038, [], false, .ro, .por, fun _ => RUL_PEND⟩,
  ⟨"RUL_NEXT", 0x8403c, [], false, .ro, .por, fun _ => RUL_NEXT⟩]

/-- Rows of the CAD_ registers. -/
def regRowsCad : List RegRow := [
  ⟨"CAD_CAP", 0xa0000, [], false, .ro, .hrst, fun _ => CAD_CAP⟩,
  ⟨"CAD_CTL", 0xa0004, [], false, .ro, .por, fun _ => CAD_CTL⟩,
  ⟨"CAD_PWR", 0xa0008, [], false, .ro, .por, fun _ => CAD_PWR⟩,
  ⟨"CAD_EVT", 0xa000c, [], false, .w1c, .crst, fun _ => CAD_EVT⟩,
  ⟨"CAD_RES_FREE", 0xa0010, [], false, .ro, .crst, fun _ => CAD_RES_FREE⟩,
  ⟨"CAD_RES_MIN", 0xa0014, [], false, .ro, .crst, fun _ => CAD_RES_MIN⟩,
  ⟨"CAD_ROWS", 0xa0018, [], false, .rc, .crst, fun _ => CAD_ROWS⟩,
  ⟨"CAD_PASSES", 0xa001c, [], false, .rc, .crst, fun _ => CAD_PASSES⟩,
  ⟨"CAD_PAGES", 0xa0020, [], false, .rc, .crst, fun _ => CAD_PAGES⟩,
  ⟨"CAD_UNSCORED", 0xa0024, [], false, .rc, .crst, fun _ => CAD_UNSCORED⟩,
  ⟨"CAD_SEARCH_ERR", 0xa0028, [], false, .rc, .crst, fun _ => CAD_SEARCH_ERR⟩,
  ⟨"CAD_VOTES", 0xa002c, [], false, .rc, .crst, fun _ => CAD_VOTES⟩,
  ⟨"CAD_PASS_MAX", 0xa0030, [], false, .rc, .crst, fun _ => CAD_PASS_MAX⟩,
  ⟨"CAD_PENDING", 0xa0034, [], false, .ro, .crst, fun _ => CAD_PENDING⟩,
  ⟨"CAD_KEY_CTL", 0xa0040, [], false, .ro, .por, fun _ => CAD_KEY_CTL⟩,
  ⟨"CAD_PLAT_ID", 0xa0100, [(0x10, 0, 16)], false, .ro, .por, fun ix => CAD_PLAT_ID (ix.getD 0 0)⟩,
  ⟨"CAD_PLAT_SIZE", 0xa0104, [(0x10, 0, 16)], false, .ro, .por, fun ix => CAD_PLAT_SIZE (ix.getD 0 0)⟩,
  ⟨"CAD_PLAT_ADDR", 0xa0108, [(0x10, 0, 16)], true, .ro, .por, fun ix => CAD_PLAT_ADDR (ix.getD 0 0)⟩,
  ⟨"CAD_CTX_BIND", 0xa1000, [(0x4, 0, 256)], false, .ro, .por, fun ix => CAD_CTX_BIND (ix.getD 0 0)⟩]

/-- Rows of the TRN_ registers. -/
def regRowsTrn : List RegRow := [
  ⟨"TRN_CAP", 0xb0000, [], false, .ro, .hrst, fun _ => TRN_CAP⟩,
  ⟨"TRN_CTL", 0xb0004, [], false, .ro, .por, fun _ => TRN_CTL⟩,
  ⟨"TRN_PWR", 0xb0008, [], false, .ro, .por, fun _ => TRN_PWR⟩,
  ⟨"TRN_ABFT_TOL", 0xb000c, [], false, .ro, .por, fun _ => TRN_ABFT_TOL⟩,
  ⟨"TRN_EVT", 0xb0010, [], false, .w1c, .crst, fun _ => TRN_EVT⟩,
  ⟨"TRN_FENCE", 0xb0014, [], false, .ro, .por, fun _ => TRN_FENCE⟩,
  ⟨"TRN_FENCE_ARR", 0xb0018, [], false, .ro, .por, fun _ => TRN_FENCE_ARR⟩,
  ⟨"TRN_SCR_FREE", 0xb001c, [], false, .ro, .crst, fun _ => TRN_SCR_FREE⟩,
  ⟨"TRN_PASSES", 0xb0020, [], false, .rc, .crst, fun _ => TRN_PASSES⟩,
  ⟨"TRN_TILES", 0xb0024, [], false, .rc, .crst, fun _ => TRN_TILES⟩,
  ⟨"TRN_MISMATCH", 0xb0028, [], false, .rc, .crst, fun _ => TRN_MISMATCH⟩,
  ⟨"TRN_VOIDS", 0xb002c, [], false, .rc, .crst, fun _ => TRN_VOIDS⟩,
  ⟨"TRN_UNRUN", 0xb0030, [], false, .rc, .crst, fun _ => TRN_UNRUN⟩,
  ⟨"TRN_EXCL", 0xb0034, [], false, .rc, .crst, fun _ => TRN_EXCL⟩,
  ⟨"TRN_SEC_MISMATCH", 0xb0038, [], false, .rc, .crst, fun _ => TRN_SEC_MISMATCH⟩,
  ⟨"TRN_VOTES", 0xb003c, [], false, .rc, .crst, fun _ => TRN_VOTES⟩,
  ⟨"TRN_PASS_MAX", 0xb0040, [], false, .rc, .crst, fun _ => TRN_PASS_MAX⟩,
  ⟨"TRN_LEARN", 0xb0044, [], false, .rc, .crst, fun _ => TRN_LEARN⟩,
  ⟨"TRN_SUB_ID", 0xb0100, [(0x10, 0, 8)], false, .ro, .por, fun ix => TRN_SUB_ID (ix.getD 0 0)⟩,
  ⟨"TRN_SUB_SIZE", 0xb0104, [(0x10, 0, 8)], false, .ro, .por, fun ix => TRN_SUB_SIZE (ix.getD 0 0)⟩,
  ⟨"TRN_SUB_ADDR", 0xb0108, [(0x10, 0, 8)], true, .ro, .por, fun ix => TRN_SUB_ADDR (ix.getD 0 0)⟩,
  ⟨"TRN_CTX_BIND", 0xb1000, [(0x4, 0, 256)], false, .ro, .por, fun ix => TRN_CTX_BIND (ix.getD 0 0)⟩]

/-- Rows of the WAK_ registers. -/
def regRowsWak : List RegRow := [
  ⟨"WAK_CAP", 0xc0000, [], false, .ro, .hrst, fun _ => WAK_CAP⟩,
  ⟨"WAK_CTL", 0xc0004, [], false, .ro, .por, fun _ => WAK_CTL⟩,
  ⟨"WAK_CTL2", 0xc0008, [], false, .ro, .por, fun _ => WAK_CTL2⟩,
  ⟨"WAK_PWR", 0xc000c, [], false, .ro, .por, fun _ => WAK_PWR⟩,
  ⟨"WAK_SEC", 0xc0010, [], false, .ro, .crst, fun _ => WAK_SEC⟩,
  ⟨"WAK_STATUS", 0xc0014, [], false, .ro, .por, fun _ => WAK_STATUS⟩,
  ⟨"WAK_EVT", 0xc0018, [], false, .w1c, .crst, fun _ => WAK_EVT⟩,
  ⟨"WAK_DST_BASE", 0xc0020, [], true, .ro, .por, fun _ => WAK_DST_BASE⟩,
  ⟨"WAK_DST_SIZE", 0xc0028, [], false, .ro, .por, fun _ => WAK_DST_SIZE⟩,
  ⟨"WAK_DST_WR", 0xc0030, [], true, .ro, .por, fun _ => WAK_DST_WR⟩,
  ⟨"WAK_DST_RD", 0xc0038, [], true, .rw, .por, fun _ => WAK_DST_RD⟩,
  ⟨"WAK_FILL", 0xc0040, [], false, .ro, .crst, fun _ => WAK_FILL⟩,
  ⟨"WAK_PKTS", 0xc0044, [], false, .rc, .crst, fun _ => WAK_PKTS⟩,
  ⟨"WAK_SHED", 0xc0048, [], false, .rc, .crst, fun _ => WAK_SHED⟩,
  ⟨"WAK_DROP", 0xc004c, [], false, .rc, .crst, fun _ => WAK_DROP⟩,
  ⟨"WAK_FIFO_DROP", 0xc0050, [], false, .rc, .crst, fun _ => WAK_FIFO_DROP⟩,
  ⟨"WAK_SEC_EXCL", 0xc0054, [], false, .rc, .crst, fun _ => WAK_SEC_EXCL⟩,
  ⟨"WAK_PRE_OVR", 0xc0058, [], false, .rc, .crst, fun _ => WAK_PRE_OVR⟩,
  ⟨"WAK_PWR_LOST", 0xc005c, [], false, .rc, .crst, fun _ => WAK_PWR_LOST⟩,
  ⟨"WAK_DST_STALL", 0xc0060, [], false, .rc, .crst, fun _ => WAK_DST_STALL⟩,
  ⟨"WAK_ACT_FAIL", 0xc0064, [], false, .rc, .crst, fun _ => WAK_ACT_FAIL⟩,
  ⟨"WAK_XR_DROP", 0xc0068, [], false, .rc, .por, fun _ => WAK_XR_DROP⟩,
  ⟨"WAK_XR_BASE", 0xc0070, [], true, .ro, .por, fun _ => WAK_XR_BASE⟩,
  ⟨"WAK_XR_SIZE", 0xc0078, [], false, .ro, .por, fun _ => WAK_XR_SIZE⟩,
  ⟨"WAK_XR_WR", 0xc0080, [], true, .ro, .por, fun _ => WAK_XR_WR⟩,
  ⟨"WAK_XR_RD", 0xc0088, [], true, .rw, .por, fun _ => WAK_XR_RD⟩,
  ⟨"WAK_RNG_BASE", 0xc0100, [(0x10, 0, 16)], true, .ro, .por, fun ix => WAK_RNG_BASE (ix.getD 0 0)⟩,
  ⟨"WAK_RNG_LIMIT", 0xc0108, [(0x10, 0, 16)], true, .ro, .por, fun ix => WAK_RNG_LIMIT (ix.getD 0 0)⟩,
  ⟨"WAK_RNG_MODE", 0xc0200, [], false, .ro, .por, fun _ => WAK_RNG_MODE⟩,
  ⟨"WAK_TAP_CFG", 0xc0210, [(0x4, 0, 8)], false, .ro, .por, fun ix => WAK_TAP_CFG (ix.getD 0 0)⟩,
  ⟨"WAK_CNT_CFG", 0xc0240, [(0x10, 0, 4)], false, .ro, .por, fun ix => WAK_CNT_CFG (ix.getD 0 0)⟩,
  ⟨"WAK_CNT_LIMIT", 0xc0244, [(0x10, 0, 4)], false, .ro, .por, fun ix => WAK_CNT_LIMIT (ix.getD 0 0)⟩,
  ⟨"WAK_CNT_VAL", 0xc0248, [(0x10, 0, 4)], false, .ro, .crst, fun ix => WAK_CNT_VAL (ix.getD 0 0)⟩,
  ⟨"WAK_TMR_PER", 0xc0280, [(0x4, 0, 2)], false, .ro, .por, fun ix => WAK_TMR_PER (ix.getD 0 0)⟩,
  ⟨"WAK_SM_CFG", 0xc0300, [(0x20, 0, 8)], false, .ro, .por, fun ix => WAK_SM_CFG (ix.getD 0 0)⟩,
  ⟨"WAK_SM_TR", 0xc0304, [(0x20, 0, 8), (0x4, 0, 4)], false, .ro, .por, fun ix => WAK_SM_TR (ix.getD 0 0) (ix.getD 1 0)⟩]

/-- Rows of the WIT_ registers. -/
def regRowsWit : List RegRow := [
  ⟨"WIT_CAP", 0xd0000, [], false, .ro, .hrst, fun _ => WIT_CAP⟩,
  ⟨"WIT_CTL", 0xd0004, [], false, .ro, .por, fun _ => WIT_CTL⟩,
  ⟨"WIT_PWR", 0xd0008, [], false, .ro, .por, fun _ => WIT_PWR⟩,
  ⟨"WIT_EVT", 0xd000c, [], false, .w1c, .crst, fun _ => WIT_EVT⟩,
  ⟨"WIT_STORE_BASE", 0xd0010, [], true, .ro, .por, fun _ => WIT_STORE_BASE⟩,
  ⟨"WIT_STORE_SIZE", 0xd0018, [], false, .ro, .por, fun _ => WIT_STORE_SIZE⟩,
  ⟨"WIT_KEY_CTL", 0xd001c, [], false, .ro, .por, fun _ => WIT_KEY_CTL⟩,
  ⟨"WIT_FENCE_REQ", 0xd0020, [], true, .ro, .crst, fun _ => WIT_FENCE_REQ⟩,
  ⟨"WIT_FENCED", 0xd0028, [], true, .ro, .crst, fun _ => WIT_FENCED⟩,
  ⟨"WIT_LAST_ID", 0xd0030, [], false, .ro, .crst, fun _ => WIT_LAST_ID⟩,
  ⟨"WIT_LAST_CLASS", 0xd0034, [], false, .ro, .crst, fun _ => WIT_LAST_CLASS⟩,
  ⟨"WIT_LAST_EXP", 0xd0038, [], true, .ro, .crst, fun _ => WIT_LAST_EXP⟩,
  ⟨"WIT_LAST_GOT", 0xd0040, [], true, .ro, .crst, fun _ => WIT_LAST_GOT⟩,
  ⟨"WIT_PASS", 0xd0048, [], false, .rc, .crst, fun _ => WIT_PASS⟩,
  ⟨"WIT_FAIL", 0xd004c, [], false, .rc, .crst, fun _ => WIT_FAIL⟩,
  ⟨"WIT_ABORT", 0xd0050, [], false, .rc, .crst, fun _ => WIT_ABORT⟩,
  ⟨"WIT_OVERDUE", 0xd0054, [], false, .rc, .crst, fun _ => WIT_OVERDUE⟩,
  ⟨"WIT_NO_PACK", 0xd0058, [], false, .rc, .crst, fun _ => WIT_NO_PACK⟩,
  ⟨"WIT_LEAVE_FAIL", 0xd005c, [], false, .rc, .crst, fun _ => WIT_LEAVE_FAIL⟩,
  ⟨"WIT_RET_STRAY", 0xd0060, [], false, .rc, .crst, fun _ => WIT_RET_STRAY⟩,
  ⟨"WIT_PACK_BAD", 0xd0064, [], false, .rc, .por, fun _ => WIT_PACK_BAD⟩,
  ⟨"WIT_PUSH_DROP", 0xd0068, [], false, .rc, .crst, fun _ => WIT_PUSH_DROP⟩,
  ⟨"WIT_SELF_FAIL", 0xd006c, [], false, .rc, .crst, fun _ => WIT_SELF_FAIL⟩,
  ⟨"WIT_SELF_SKIP", 0xd0070, [], false, .rc, .crst, fun _ => WIT_SELF_SKIP⟩,
  ⟨"WIT_ENG_CFG", 0xd1000, [(0x20, 0, 64)], false, .ro, .por, fun ix => WIT_ENG_CFG (ix.getD 0 0)⟩,
  ⟨"WIT_ENG_PER", 0xd1004, [(0x20, 0, 64)], false, .ro, .por, fun ix => WIT_ENG_PER (ix.getD 0 0)⟩,
  ⟨"WIT_ENG_WIN", 0xd1008, [(0x20, 0, 64)], false, .ro, .por, fun ix => WIT_ENG_WIN (ix.getD 0 0)⟩,
  ⟨"WIT_ENG_STATE", 0xd100c, [(0x20, 0, 64)], false, .ro, .por, fun ix => WIT_ENG_STATE (ix.getD 0 0)⟩,
  ⟨"WIT_ENG_DUE", 0xd1010, [(0x20, 0, 64)], true, .ro, .por, fun ix => WIT_ENG_DUE (ix.getD 0 0)⟩,
  ⟨"WIT_PACK_ID", 0xd2000, [(0x10, 0, 256)], false, .ro, .por, fun ix => WIT_PACK_ID (ix.getD 0 0)⟩,
  ⟨"WIT_PACK_LEN", 0xd2004, [(0x10, 0, 256)], false, .ro, .por, fun ix => WIT_PACK_LEN (ix.getD 0 0)⟩]

/-- Rows of the PIL_ registers. -/
def regRowsPil : List RegRow := [
  ⟨"PIL_CAP", 0x1000, [], false, .ro, .hrst, fun _ => PIL_CAP⟩,
  ⟨"PIL_CTL", 0x1004, [], false, .ro, .por, fun _ => PIL_CTL⟩,
  ⟨"PIL_EVT", 0x1008, [], false, .w1c, .por, fun _ => PIL_EVT⟩,
  ⟨"PIL_AP_STATE", 0x100c, [], false, .ro, .hrst, fun _ => PIL_AP_STATE⟩,
  ⟨"PIL_FW", 0x1010, [], false, .ro, .por, fun _ => PIL_FW⟩,
  ⟨"PIL_FW_KEY_CTL", 0x1014, [], false, .ro, .por, fun _ => PIL_FW_KEY_CTL⟩,
  ⟨"PIL_ASYNC", 0x1018, [], false, .ro, .hrst, fun _ => PIL_ASYNC⟩,
  ⟨"PIL_REMOTE", 0x101c, [], false, .ro, .por, fun _ => PIL_REMOTE⟩,
  ⟨"PIL_DONE_WR", 0x1020, [], false, .ro, .hrst, fun _ => PIL_DONE_WR⟩,
  ⟨"PIL_DONE_RD", 0x1024, [], false, .rw, .hrst, fun _ => PIL_DONE_RD⟩,
  ⟨"PIL_CMDS", 0x1028, [], false, .rc, .por, fun _ => PIL_CMDS⟩,
  ⟨"PIL_REFUSED", 0x102c, [], false, .rc, .por, fun _ => PIL_REFUSED⟩,
  ⟨"PIL_BUSY_WR", 0x1030, [], false, .rc, .por, fun _ => PIL_BUSY_WR⟩,
  ⟨"PIL_AUTH_FAIL", 0x1034, [], false, .rc, .por, fun _ => PIL_AUTH_FAIL⟩,
  ⟨"PIL_REPLAY", 0x1038, [], false, .rc, .por, fun _ => PIL_REPLAY⟩,
  ⟨"PIL_RELAY_DROP", 0x103c, [], false, .rc, .por, fun _ => PIL_RELAY_DROP⟩,
  ⟨"PIL_RELAY", 0x1040, [], false, .ro, .por, fun _ => PIL_RELAY⟩,
  ⟨"PIL_KEY_ID", 0x1100, [(0x4, 0, 8)], false, .ro, .por, fun ix => PIL_KEY_ID (ix.getD 0 0)⟩,
  ⟨"PIL_DONE", 0x1800, [(0x40, 0, 16), (0x4, 0, 16)], false, .ro, .hrst, fun ix => PIL_DONE (ix.getD 0 0) (ix.getD 1 0)⟩]

/-- Rows of the PWR_ registers. -/
def regRowsPwr : List RegRow := [
  ⟨"PWR_CTL", 0xfc000, [], false, .ro, .por, fun _ => PWR_CTL⟩,
  ⟨"PWR_STATE", 0xfc004, [], false, .ro, .por, fun _ => PWR_STATE⟩,
  ⟨"PWR_HOLD_CFG", 0xfc008, [], false, .ro, .por, fun _ => PWR_HOLD_CFG⟩,
  ⟨"PWR_STOW_CFG", 0xfc00c, [], false, .ro, .por, fun _ => PWR_STOW_CFG⟩,
  ⟨"PWR_EVT", 0xfc010, [], false, .w1c, .por, fun _ => PWR_EVT⟩,
  ⟨"PWR_REQS", 0xfc014, [], false, .rc, .por, fun _ => PWR_REQS⟩,
  ⟨"PWR_REFUSED", 0xfc018, [], false, .rc, .por, fun _ => PWR_REFUSED⟩,
  ⟨"PWR_WAIT_MAX", 0xfc01c, [], false, .rc, .por, fun _ => PWR_WAIT_MAX⟩]

/-- Rows of the FLT_ registers. -/
def regRowsFlt : List RegRow := [
  ⟨"FLT_CAP", 0xe0000, [], false, .ro, .hrst, fun _ => FLT_CAP⟩,
  ⟨"FLT_CTL", 0xe0004, [], false, .ro, .por, fun _ => FLT_CTL⟩,
  ⟨"FLT_STATE", 0xe0008, [], false, .ro, .por, fun _ => FLT_STATE⟩,
  ⟨"FLT_EVT", 0xe000c, [], false, .w1c, .por, fun _ => FLT_EVT⟩,
  ⟨"FLT_STATUS", 0xe0010, [], false, .ro, .por, fun _ => FLT_STATUS⟩,
  ⟨"FLT_STATUS_HI", 0xe0014, [], false, .ro, .por, fun _ => FLT_STATUS_HI⟩,
  ⟨"FLT_LINE", 0xe0018, [], false, .ro, .por, fun _ => FLT_LINE⟩,
  ⟨"FLT_LINE_HI", 0xe001c, [], false, .ro, .por, fun _ => FLT_LINE_HI⟩,
  ⟨"FLT_WIRE", 0xe0020, [], true, .ro, .por, fun _ => FLT_WIRE⟩,
  ⟨"FLT_RECOVERIES", 0xe0028, [], false, .rc, .por, fun _ => FLT_RECOVERIES⟩,
  ⟨"FLT_CORRECTED", 0xe002c, [], false, .rc, .por, fun _ => FLT_CORRECTED⟩,
  ⟨"FLT_ESCALATIONS", 0xe0030, [], false, .rc, .por, fun _ => FLT_ESCALATIONS⟩,
  ⟨"FLT_INJECTED", 0xe0034, [], false, .rc, .por, fun _ => FLT_INJECTED⟩,
  ⟨"FLT_SRC_CFG", 0xe0100, [(0x10, 0, 64)], false, .ro, .por, fun ix => FLT_SRC_CFG (ix.getD 0 0)⟩,
  ⟨"FLT_SRC_STATE", 0xe0104, [(0x10, 0, 64)], false, .ro, .por, fun ix => FLT_SRC_STATE (ix.getD 0 0)⟩,
  ⟨"FLT_SRC_COUNT", 0xe0108, [(0x10, 0, 64)], false, .rc, .por, fun ix => FLT_SRC_COUNT (ix.getD 0 0)⟩]

/-- Rows of the CDC_ registers. -/
def regRowsCdc : List RegRow := [
  ⟨"CDC_TMO_LAST", 0xe8000, [], false, .ro, .por, fun _ => CDC_TMO_LAST⟩,
  ⟨"CDC_TMO_FIRST", 0xe8004, [], false, .ro, .por, fun _ => CDC_TMO_FIRST⟩,
  ⟨"CDC_TMO_COUNT", 0xe8008, [], false, .rc, .por, fun _ => CDC_TMO_COUNT⟩,
  ⟨"CDC_BOND_CAP", 0xe8010, [], false, .ro, .hrst, fun _ => CDC_BOND_CAP⟩,
  ⟨"CDC_BOND_STATUS", 0xe8014, [], false, .ro, .por, fun _ => CDC_BOND_STATUS⟩,
  ⟨"CDC_BOND_BAD", 0xe8018, [], false, .ro, .por, fun _ => CDC_BOND_BAD⟩,
  ⟨"CDC_FLUSHED", 0xe801c, [], false, .rc, .por, fun _ => CDC_FLUSHED⟩,
  ⟨"CDC_BOND_MAP", 0xe8400, [(0x4, 0, 274)], false, .ro, .por, fun ix => CDC_BOND_MAP (ix.getD 0 0)⟩]

/-- Rows of the PLM_ registers. -/
def regRowsPlm : List RegRow := [
  ⟨"PLM_CAP", 0xf0000, [], false, .ro, .hrst, fun _ => PLM_CAP⟩,
  ⟨"PLM_POWER", 0xf0004, [], false, .ro, .por, fun _ => PLM_POWER⟩,
  ⟨"PLM_EVT", 0xf0008, [], false, .w1c, .por, fun _ => PLM_EVT⟩,
  ⟨"PLM_OPTIME", 0xf000c, [], false, .ro, .mram, fun _ => PLM_OPTIME⟩,
  ⟨"PLM_CYCLES", 0xf0010, [], false, .ro, .mram, fun _ => PLM_CYCLES⟩,
  ⟨"PLM_FIRES", 0xf0014, [], false, .rc, .por, fun _ => PLM_FIRES⟩,
  ⟨"PLM_WAKES", 0xf0018, [], false, .rc, .por, fun _ => PLM_WAKES⟩,
  ⟨"PLM_CH_CFG", 0xf0100, [(0x10, 0, 16)], false, .ro, .por, fun ix => PLM_CH_CFG (ix.getD 0 0)⟩,
  ⟨"PLM_CH_RAW", 0xf0104, [(0x10, 0, 16)], false, .ro, .por, fun ix => PLM_CH_RAW (ix.getD 0 0)⟩,
  ⟨"PLM_CH_FILT", 0xf0108, [(0x10, 0, 16)], false, .ro, .por, fun ix => PLM_CH_FILT (ix.getD 0 0)⟩,
  ⟨"PLM_RULE_CFG0", 0xf0400, [(0x20, 0, 32)], false, .ro, .por, fun ix => PLM_RULE_CFG0 (ix.getD 0 0)⟩,
  ⟨"PLM_RULE_CFG1", 0xf0404, [(0x20, 0, 32)], false, .ro, .por, fun ix => PLM_RULE_CFG1 (ix.getD 0 0)⟩,
  ⟨"PLM_RULE_COND", 0xf0408, [(0x20, 0, 32), (0x4, 0, 4)], false, .ro, .por, fun ix => PLM_RULE_COND (ix.getD 0 0) (ix.getD 1 0)⟩,
  ⟨"PLM_RULE_STATE", 0xf0418, [(0x20, 0, 32)], false, .ro, .por, fun ix => PLM_RULE_STATE (ix.getD 0 0)⟩]

/-- Rows of the LOG_ registers. -/
def regRowsLog : List RegRow := [
  ⟨"LOG_CAP", 0xf4000, [], false, .ro, .hrst, fun _ => LOG_CAP⟩,
  ⟨"LOG_STATUS", 0xf4004, [], false, .ro, .mram, fun _ => LOG_STATUS⟩,
  ⟨"LOG_EVT", 0xf4008, [], false, .w1c, .por, fun _ => LOG_EVT⟩,
  ⟨"LOG_CURSOR", 0xf400c, [], false, .rw, .por, fun _ => LOG_CURSOR⟩,
  ⟨"LOG_DROPPED", 0xf4010, [], false, .rc, .por, fun _ => LOG_DROPPED⟩,
  ⟨"LOG_QDROP", 0xf4014, [], false, .rc, .por, fun _ => LOG_QDROP⟩,
  ⟨"LOG_TORN", 0xf4018, [], false, .rc, .por, fun _ => LOG_TORN⟩,
  ⟨"LOG_WINDOW", 0xf4040, [(0x4, 0, 16)], false, .ro, .por, fun ix => LOG_WINDOW (ix.getD 0 0)⟩]

/-- Rows of the BRT_ registers. -/
def regRowsBrt : List RegRow := [
  ⟨"BRT_CTL", 0xf8000, [], false, .ro, .por, fun _ => BRT_CTL⟩,
  ⟨"BRT_EVT", 0xf8004, [], false, .w1c, .por, fun _ => BRT_EVT⟩,
  ⟨"BRT_NOSPACE", 0xf8008, [], false, .rc, .por, fun _ => BRT_NOSPACE⟩,
  ⟨"BRT_POOL_CAP", 0xf8010, [(0x10, 0, 4)], false, .ro, .hrst, fun ix => BRT_POOL_CAP (ix.getD 0 0)⟩,
  ⟨"BRT_POOL_FREE", 0xf8014, [(0x10, 0, 4)], false, .ro, .por, fun ix => BRT_POOL_FREE (ix.getD 0 0)⟩,
  ⟨"BRT_POOL_MIN", 0xf8018, [(0x10, 0, 4)], false, .rc, .por, fun ix => BRT_POOL_MIN (ix.getD 0 0)⟩,
  ⟨"BRT_POOL_UPSIZE", 0xf801c, [(0x10, 0, 4)], false, .rc, .por, fun ix => BRT_POOL_UPSIZE (ix.getD 0 0)⟩]

/-- Rows of the STW_ registers. -/
def regRowsStw : List RegRow := [
  ⟨"STW_CAP", 0xf8400, [], false, .ro, .hrst, fun _ => STW_CAP⟩,
  ⟨"STW_EVT", 0xf8404, [], false, .w1c, .crst, fun _ => STW_EVT⟩,
  ⟨"STW_JOBS", 0xf8408, [], false, .rc, .crst, fun _ => STW_JOBS⟩,
  ⟨"STW_BLOCKS", 0xf840c, [], false, .rc, .crst, fun _ => STW_BLOCKS⟩,
  ⟨"STW_RAW", 0xf8410, [], false, .rc, .crst, fun _ => STW_RAW⟩,
  ⟨"STW_OVERFLOW", 0xf8414, [], false, .rc, .crst, fun _ => STW_OVERFLOW⟩,
  ⟨"STW_CHECK", 0xf8418, [], false, .rc, .crst, fun _ => STW_CHECK⟩,
  ⟨"STW_SR_CTL", 0xf8440, [], false, .ro, .por, fun _ => STW_SR_CTL⟩,
  ⟨"STW_SR_BASE", 0xf8448, [], true, .ro, .por, fun _ => STW_SR_BASE⟩,
  ⟨"STW_SR_SIZE", 0xf8450, [], false, .ro, .por, fun _ => STW_SR_SIZE⟩,
  ⟨"STW_SR_WR", 0xf8458, [], true, .ro, .por, fun _ => STW_SR_WR⟩,
  ⟨"STW_SR_RD", 0xf8460, [], true, .rw, .por, fun _ => STW_SR_RD⟩,
  ⟨"STW_SR_DROP", 0xf8468, [], false, .rc, .por, fun _ => STW_SR_DROP⟩,
  ⟨"STW_SR_COLL", 0xf8470, [(0x4, 0, 4)], false, .ro, .por, fun ix => STW_SR_COLL (ix.getD 0 0)⟩]

/-- Rows of the LND_ registers. -/
def regRowsLnd : List RegRow := [
  ⟨"LND_CAP", 0xfc400, [], false, .ro, .hrst, fun _ => LND_CAP⟩,
  ⟨"LND_CTL", 0xfc404, [], false, .ro, .por, fun _ => LND_CTL⟩,
  ⟨"LND_EVT", 0xfc408, [], false, .w1c, .por, fun _ => LND_EVT⟩,
  ⟨"LND_DSCP", 0xfc40c, [], false, .ro, .por, fun _ => LND_DSCP⟩,
  ⟨"LND_MAC", 0xfc410, [], true, .ro, .por, fun _ => LND_MAC⟩,
  ⟨"LND_GW", 0xfc418, [(0x8, 0, 2)], true, .ro, .por, fun ix => LND_GW (ix.getD 0 0)⟩,
  ⟨"LND_IP6", 0xfc430, [(0x4, 0, 4)], false, .ro, .por, fun ix => LND_IP6 (ix.getD 0 0)⟩,
  ⟨"LND_TX_FRAMES", 0xfc440, [], false, .rc, .por, fun _ => LND_TX_FRAMES⟩,
  ⟨"LND_RX_FRAMES", 0xfc444, [], false, .rc, .por, fun _ => LND_RX_FRAMES⟩,
  ⟨"LND_RX_BAD", 0xfc448, [], false, .rc, .por, fun _ => LND_RX_BAD⟩,
  ⟨"LND_POL_DROP", 0xfc44c, [], false, .rc, .por, fun _ => LND_POL_DROP⟩,
  ⟨"LND_FWD_DROP", 0xfc450, [], false, .rc, .por, fun _ => LND_FWD_DROP⟩,
  ⟨"LND_GATE_VER", 0xfc454, [], false, .ro, .por, fun _ => LND_GATE_VER⟩,
  ⟨"LND_GATE_CYC", 0xfc458, [], true, .ro, .por, fun _ => LND_GATE_CYC⟩,
  ⟨"LND_SHP_RATE", 0xfc508, [(0x40, 0, 2), (0x8, 1, 5)], false, .ro, .por, fun ix => LND_SHP_RATE (ix.getD 0 0) (ix.getD 1 0)⟩,
  ⟨"LND_SHP_BURST", 0xfc50c, [(0x40, 0, 2), (0x8, 1, 5)], false, .ro, .por, fun ix => LND_SHP_BURST (ix.getD 0 0) (ix.getD 1 0)⟩,
  ⟨"LND_TOK", 0xfc584, [(0x20, 0, 2), (0x4, 1, 5)], false, .ro, .por, fun ix => LND_TOK (ix.getD 0 0) (ix.getD 1 0)⟩,
  ⟨"LND_POL_RATE", 0xfc5c0, [(0x10, 0, 2), (0x8, 0, 2)], false, .ro, .por, fun ix => LND_POL_RATE (ix.getD 0 0) (ix.getD 1 0)⟩,
  ⟨"LND_POL_BURST", 0xfc5c4, [(0x10, 0, 2), (0x8, 0, 2)], false, .ro, .por, fun ix => LND_POL_BURST (ix.getD 0 0) (ix.getD 1 0)⟩,
  ⟨"LND_TREE_ID", 0xfc600, [(0x20, 1, 4)], false, .ro, .por, fun ix => LND_TREE_ID (ix.getD 0 0)⟩,
  ⟨"LND_TREE_N", 0xfc604, [(0x20, 1, 4)], false, .ro, .por, fun ix => LND_TREE_N (ix.getD 0 0)⟩,
  ⟨"LND_TREE_ADDR", 0xfc608, [(0x20, 1, 4), (0x4, 0, 4)], false, .ro, .por, fun ix => LND_TREE_ADDR (ix.getD 0 0) (ix.getD 1 0)⟩,
  ⟨"LND_TREE_CH", 0xfc800, [(0x100, 2, 3), (0x4, 0, 64)], false, .ro, .por, fun ix => LND_TREE_CH (ix.getD 0 0) (ix.getD 1 0)⟩,
  ⟨"LND_ENT", 0xfd000, [(0x400, 0, 2), (0x200, 0, 2), (0x8, 0, 64)], true, .ro, .por, fun ix => LND_ENT (ix.getD 0 0) (ix.getD 1 0) (ix.getD 2 0)⟩]

/-- Rows of the HLD_ registers. -/
def regRowsHld : List RegRow := [
  ⟨"HLD_CAP", 0xfe000, [], false, .ro, .hrst, fun _ => HLD_CAP⟩,
  ⟨"HLD_STATUS", 0xfe004, [], false, .ro, .por, fun _ => HLD_STATUS⟩,
  ⟨"HLD_EVT", 0xfe008, [], false, .w1c, .por, fun _ => HLD_EVT⟩,
  ⟨"HLD_RERR", 0xfe00c, [], false, .rc, .por, fun _ => HLD_RERR⟩,
  ⟨"HLD_RD_BYTES", 0xfe010, [], true, .rc, .por, fun _ => HLD_RD_BYTES⟩,
  ⟨"HLD_WR_BYTES", 0xfe018, [], true, .rc, .por, fun _ => HLD_WR_BYTES⟩]

/-- Every register of the block (R549). -/
def regRows : List RegRow :=
  regRowsCap ++
  regRowsChn ++
  regRowsDat ++
  regRowsTmt ++
  regRowsTap ++
  regRowsGau ++
  regRowsBea ++
  regRowsPrb ++
  regRowsEpo ++
  regRowsTal ++
  regRowsPar ++
  regRowsRul ++
  regRowsCad ++
  regRowsTrn ++
  regRowsWak ++
  regRowsWit ++
  regRowsPil ++
  regRowsPwr ++
  regRowsFlt ++
  regRowsCdc ++
  regRowsPlm ++
  regRowsLog ++
  regRowsBrt ++
  regRowsStw ++
  regRowsLnd ++
  regRowsHld

end Sys2Proof.Machine
end

