-- ==== Sys2Proof/Machine/Tbl.lean ====
section
/-! DEFINITION. Sparse tables: association lists in one canonical form, keys strictly rising. -/

namespace Sys2Proof.Machine

/-- A sparse table: entries by key, in ascending order of key, no key twice. -/
abbrev Tbl (α : Type) := List (Nat × α)

variable {α : Type}

/-- The entry at key `k`, if listed. -/
def Tbl.get? : Tbl α → Nat → Option α
  | [], _ => none
  | (i, v) :: t, k => if i = k then some v else Tbl.get? t k

/-- The table without key `k`. -/
def Tbl.erase (t : Tbl α) (k : Nat) : Tbl α := t.filter (fun e => !(e.1 == k))

/-- `v` put at key `k`, before the first larger key. -/
def Tbl.place : Tbl α → Nat → α → Tbl α
  | [], k, v => [(k, v)]
  | (i, u) :: t, k, v => if k < i then (k, v) :: (i, u) :: t else (i, u) :: Tbl.place t k v

/-- The table with `v` at key `k`, whatever stood there. -/
def Tbl.set (t : Tbl α) (k : Nat) (v : α) : Tbl α := Tbl.place (Tbl.erase t k) k v

/-- The table with `v` at key `k`, listed only where it differs from the default `d`. -/
def Tbl.put [DecidableEq α] (d : α) (t : Tbl α) (k : Nat) (v : α) : Tbl α :=
  if v = d then Tbl.erase t k else Tbl.set t k v

/-- Change the entry at key `k`, if listed. -/
def Tbl.modify (t : Tbl α) (k : Nat) (f : α → α) : Tbl α :=
  t.map (fun e => if e.1 = k then (e.1, f e.2) else e)

/-- Keys listed. -/
def Tbl.keys (t : Tbl α) : List Nat := t.map (·.1)

/-- Values listed, in ascending order of key. -/
def Tbl.vals (t : Tbl α) : List α := t.map (·.2)

/-- The canonical form: keys strictly rising. -/
def Tbl.wf (t : Tbl α) : Bool :=
  match t with
  | [] => true
  | (i, _) :: rest => rest.all (fun e => decide (i < e.1)) && Tbl.wf rest

/-- The lowest number below `n` that is not a key. -/
def Tbl.lowestFree (t : Tbl α) (n : Nat) : Option Nat :=
  (List.range n).find? (fun k => (Tbl.get? t k).isNone)

end Sys2Proof.Machine
end

