-- ==== Sys2Proof/Machine/State.lean ====
section
/-! DEFINITION. The state of one Zenyodra block, all of it plain data, and the state after reset. Registers live in
one sparse file, listed only where they differ from their value after reset; what the spec gives the machine beside
its registers stands in one structure per unit. -/

namespace Sys2Proof.Machine

/-! ### Requesters of the host target port (R10, R60) -/

/-- The read latch of one requester: the register it belongs to and the high half it holds (R10). -/
structure ReadLatch where
  off : Nat
  high : Nat
  deriving DecidableEq, Repr

/-- The write hold of one requester: the register it belongs to and the low half it holds (R10). -/
structure WriteHold where
  off : Nat
  low : Nat
  deriving DecidableEq, Repr

/-- A capture of a Datum time pair for one requester: the offset of the _SUB register and the 96-bit time (R60). -/
structure PairCapture where
  rq : Nat
  off : Nat
  time : Nat
  deriving DecidableEq, Repr

/-! ### Pilot (R405 to R431) -/

/-- The state of an aperture (R405). -/
inductive ApSt where
  | free | filling | busy | replied
  deriving DecidableEq, Repr

/-- One command aperture: its state, the words counted since FREE, whether word 0 has been written, the words held by
offset, and the reply it shows in REPLIED (R405). -/
structure Aperture where
  st : ApSt
  count : Nat
  have0 : Bool
  mem : Tbl Word
  reply : List Word
  deriving DecidableEq, Repr

/-- One entry of the replay table (R419). -/
structure ReplayEnt where
  keyId : Nat
  origin : Nat
  time : Nat
  deriving DecidableEq, Repr

/-- One entry of the relay table (R422); `held` is set once the leaf has replied ACCEPTED. -/
structure RelayEnt where
  station : Nat
  origin : Nat
  tag : Nat
  source : Via
  held : Bool
  deriving DecidableEq, Repr

/-- Why the block itself issued a command to another node (R423). -/
inductive IssueFor where
  | reserve (parcel child : Nat)
  | claim (parcel child : Nat)
  | free (parcel child : Nat)
  | pull (parcel child epoch : Nat)
  deriving DecidableEq, Repr

/-- A command the block issued itself and has no final reply for yet (R421). -/
structure Issued where
  tag : Nat
  opcode : Nat
  station : Nat
  purpose : IssueFor
  deriving DecidableEq, Repr

/-- What a started command waits for. -/
inductive JobPhase where
  /-- the compute tier is powered off and is being woken (R43) -/
  | waitPower
  /-- its leave request (R433) -/
  | waitLeave (req : Nat)
  /-- its unit works; it completes at its final reply -/
  | running
  /-- an event from outside: acknowledgements, exchanges, an announcement -/
  | waiting
  /-- its status and results stand; the final reply is still to be written -/
  | done (status : Nat) (results : List Word)
  deriving DecidableEq, Repr

/-- What a started command has gathered so far. -/
inductive JobData where
  | plain
  | nums (xs : List Nat)
  | ints (xs : List Int)
  | bytes (bs : List Byte)
  deriving DecidableEq, Repr

/-- A command that has started and not been replied to finally (R411, R412). `async` tells that it holds an async
slot. -/
structure Job where
  id : Nat
  opcode : Nat
  cmd : Cmd
  async : Bool
  phase : JobPhase
  data : JobData
  deriving DecidableEq, Repr

/-- A launched command that Pilot has not started, since another is in its Pilot phase (R411): a command under its opcode, a part of a
reservation, or a question of a claim exchange. -/
inductive Launch where
  | cmd (code : Nat) (c : Cmd)
  | part (p : ResvPart)
  | ask (env : EnvSeal) (tag : Nat) (via : Via) (parcel level : Nat) (trays : List Nat)
  deriving DecidableEq, Repr

/-- Pilot's own state beside its registers: `launchQ` holds the launched commands that wait for Pilot, in the order of their launch
(R411), `lastIssue` the ISSUE_TIME of the last command the block issued (R420). -/
structure PilotSt where
  booted : Bool
  aps : Tbl Aperture
  keys : Tbl (List Byte)
  replay : Tbl ReplayEnt
  relay : Tbl RelayEnt
  jobs : List Job
  nextJob : Nat
  issued : List Issued
  nextTag : Nat
  launchQ : List Launch
  lastIssue : Option Nat
  patch : List Byte
  fwKey : List Byte
  latches : Tbl ReadLatch
  holds : Tbl WriteHold
  captures : List PairCapture
  deriving DecidableEq, Repr

/-! ### Power admission (R432 to R435) -/

/-- The operation a leave request is for (R432). -/
inductive LeaveFor where
  | cadPass (job : Nat)
  | cadLoad (job : Nat)
  | cadReload (slot : Nat)
  | trnPass (job : Nat)
  | trnLoad (job : Nat)
  | trnReload (slot : Nat)
  | wakeDrain
  | witness (eng : Nat)
  | hold (job : Nat)
  | stow (job : Nat)
  /-- a transfer of the block's own through the hold ports, by its number -/
  | own (id : Nat)
  deriving DecidableEq, Repr

/-- A leave request that waits: `since` counts DAT_CLK edges at which its unit asked (R434). -/
structure LeaveReq where
  id : Nat
  unit : Nat
  cls : Nat
  amt : Nat
  purpose : LeaveFor
  since : Nat
  deriving DecidableEq, Repr

/-- A grant the block holds (R435), and the DAT_CLK edge at which its unit asked. -/
structure LeaveHeld where
  purpose : LeaveFor
  amt : Nat
  since : Nat
  deriving DecidableEq, Repr

/-- A transfer of the block's own through the hold ports that may need leave (R432): a record of the series ring or of the excerpt
ring, a pack assembled from pushes, an item that a context keeps with its Transit section, or one it sends again. -/
inductive OwnMove where
  | series (bytes : List Byte)
  | excerpt (bytes : List Byte)
  | pack (cls version : Nat)
  | keep (ctx k : Nat) (bytes trn : List Byte)
  | resend (ctx k : Nat)
  deriving DecidableEq, Repr

/-- A transfer of the block's own that waits: `asks` tells that it waits for its own leave, and not for an earlier one of its
ring. -/
structure OwnWait where
  id : Nat
  asks : Bool
  move : OwnMove
  deriving DecidableEq, Repr

/-- The power admission unit: the requests in order of arrival, the first of them on the signals, and the grants
held; `shown` is the number of the request on the signals, and LEAVE_AMT as it stands beside it (R433). -/
structure AdmitSt where
  queue : List LeaveReq
  held : List LeaveHeld
  nextId : Nat
  shown : Option (Nat × Nat)
  gntAt : Option Nat
  own : List OwnWait
  deriving DecidableEq, Repr

/-! ### Datum (R56 to R91) -/

/-- One beat stamp in its queue, with its STEP mark (R86). -/
structure BeatStamp where
  time : Nat
  step : Bool
  deriving DecidableEq, Repr

/-- The Landing time role set by TIME_ROLE (R88). -/
structure TimeRole where
  role : Nat
  layer2 : Bool
  domain : Nat
  syncLog : Nat
  dreqLog : Nat
  asym : Int
  master : Nat
  children : List Nat
  deriving DecidableEq, Repr

/-- What one 1588 exchange has gathered for its next measurement (R76). Times are Datum times in clock units, the
correction in units of 2⁻¹⁶ ns. -/
structure PtpEx where
  syncSeq : Option Nat
  awaitFollow : Bool
  t1 : Option Nat
  t2 : Option Nat
  cs : Int
  t3 : Option Nat
  dreqSeq : Option Nat
  deriving DecidableEq, Repr

/-- A TIME_PROBE in progress: its job, its peer, the exchanges still to make, and each offset and path delay found so far,
in units of 2⁻¹⁶ ns (R88). -/
structure ProbeRun where
  job : Nat
  peer : Nat
  left : Nat
  ex : PtpEx
  found : List (Int × Int)
  deriving DecidableEq, Repr

/-- The 1588 port: sequence numbers, the slave's exchange, messages dropped, and the probes in progress (R75, R76). -/
structure PtpSt where
  seqSync : Nat
  seqDreq : Nat
  ex : PtpEx
  dropped : Nat
  runs : List ProbeRun
  deriving DecidableEq, Repr

/-- Datum's own state beside its registers. `clock` counts units of 2⁻³² ns (R58); `edges` counts DAT_CLK edges since
the release of ZY_PORST_N; `stepMark` is the edge whose beat stamps carry a STEP mark (R86); `pulseOut` lists the pulse outputs
that are high, each with the edge at which it falls (R80). -/
structure DatumSt where
  clock : Nat
  edges : Nat
  integ : Int
  prop : Int
  lockCnt : Nat
  unlockCnt : Nat
  acqValid : Bool
  role : TimeRole
  ptp : PtpSt
  share : Tbl Int
  beatQ : Tbl (List BeatStamp)
  stepMark : Option Nat
  catchUp : Bool
  pulseNext : Tbl Nat
  pulseOut : Tbl Nat
  ppsMiss : Nat
  dieStop : Bool
  dieRise : Nat
  dieAck : Bool
  deriving DecidableEq, Repr

/-! ### Chain, Splice, Timetable (R92 to R130) -/

/-- A message queued for sending on a chain, or the rest of it: cells leave it from the front (R105). `left` counts the
bytes sent. -/
structure TxMsg where
  cls : Nat
  type : Nat
  dst : Nat
  parcel : Nat
  epoch : Nat
  auth : Bool
  degraded : Bool
  retx : Bool
  bytes : List Byte
  sent : Nat
  deriving DecidableEq, Repr

/-- A message being assembled from its cells (R105). -/
structure RxMsg where
  src : Nat
  cls : Nat
  type : Nat
  parcel : Nat
  epoch : Nat
  degraded : Bool
  bytes : List Byte
  broken : Bool
  deriving DecidableEq, Repr

/-- A BULK cell kept for resending (R107). -/
structure KeptCell where
  dst : Nat
  seq : Nat
  cyc : Nat
  bytes : List Byte
  deriving DecidableEq, Repr

/-- A gap in a BULK sequence: the numbers missing, the places in it that have come since, how often it has been asked for, and the
cycle in which it last was (R107). -/
structure BulkGap where
  src : Nat
  first : Nat
  count : Nat
  got : List Nat
  asked : Nat
  cyc : Nat
  deriving DecidableEq, Repr

/-- A BULK cell received and not yet delivered in its message (R107). -/
structure BulkCell where
  src : Nat
  seq : Nat
  parcel : Nat
  first : Bool
  last : Bool
  bytes : List Byte
  deriving DecidableEq, Repr

/-- A splice announced on a chain (R121, R123): the list version it names, its T_s, the announcements still to be sent; `done`
once its time has come; whether its window is open, and whether a receive side of this station faces the ford (R557). -/
structure SpliceAnn where
  station : Nat
  out : Bool
  cyc : Nat
  ver : Nat
  time : Nat
  left : Nat
  done : Bool
  windowOpen : Bool
  near : Bool
  deriving DecidableEq, Repr

/-- A link-delay request that awaits its response (R71). -/
structure LdReq where
  seq : Nat
  t1 : Nat
  deriving DecidableEq, Repr

/-- A row that waits for container 0 of the next cycle (R97, R100): a link-delay message, or a lane request. -/
inductive RowDue where
  | request (side : Side) (bytes : List Byte)
  | response (side : Side) (bytes : List Byte)
  | lanes (side : Side) (mask : Nat) (fence : Bool)
  deriving DecidableEq, Repr

/-- A receiving lane's lock on its sync headers: whether it has it, and the headers of the present count, valid in turn before lock,
and all and invalid ones of the window under lock (R96). -/
structure LaneLock where
  locked : Bool
  count : Nat
  invalid : Nat
  deriving DecidableEq, Repr

/-- One chain as this station serves it. `modeFrom` is the cycle from which CHN_STATUS.MODE applies and `modeOld` the mode before
it (R116); `oldLists` holds the gate entries that a swap at `swapAt` replaced, at 64 × direction + entry (R114); `wordBack`
tells that the time word of the cycle has returned, `failed` and `returns` count cycles in a row (R116); `opVer` holds by
direction the version of the operational list received last (R123); `txNext` holds the transmit lanes to fence or unfence
with the next cycle (R100); `laneAt` counts by side the blocks sent since the lanes were fenced (R101); `inAt` holds by position
the Datum time of the last splice-in (R183). `laneLock` holds the lock of each receiving lane and `scr` the memory of each transmit
scrambler, at 4 × side + lane, and `line` by side the blocks of what was driven last, in the order sent, each with its lane (R96);
`badHeads` counts the invalid sync headers met (R129). -/
structure ChainSt where
  txq : List TxMsg
  txSeq : Tbl Nat
  rxSeq : Tbl Nat
  asm : List RxMsg
  kept : List KeptCell
  gaps : List BulkGap
  bulkRx : List BulkCell
  copies : List (Nat × List Byte)
  alarmSent : Nat
  wordW : Option Nat
  wordE : Option Nat
  ldSeq : Nat
  ldW : Option LdReq
  ldE : Option LdReq
  links : List Nat
  splices : List SpliceAnn
  roll : Nat
  rollDue : Bool
  unanswered : Tbl Nat
  adminGot : Tbl Nat
  opVer : Tbl Nat
  inAt : Tbl Nat
  stopOrig : Bool
  rows : List RowDue
  seedDue : List Side
  txNext : List (Side × Nat × Bool)
  laneAt : Tbl Nat
  wordBack : Bool
  failed : Nat
  returns : Nat
  modeFrom : Nat
  modeOld : Nat
  oldLists : Tbl Nat
  swapAt : Option Nat
  laneLock : Tbl LaneLock
  scr : Tbl Nat
  line : Tbl (List (Nat × Block))
  badHeads : Nat
  /-- how many BULK messages have left the queue, sent or discarded (R381, R481) -/
  bulkDone : Nat
  deriving DecidableEq, Repr

/-! ### Logbook (R472 to R480) -/

/-- An event in the Logbook's queue (R477): its kind, the DAT_CLK edge at which it arrived, the Datum time it shows, its data. -/
structure LogEvent where
  kind : Nat
  since : Nat
  time : Nat
  data : List Byte
  deriving DecidableEq, Repr

/-- One histogram in base-tier SRAM (R475, R476). -/
structure LogHist where
  kind : Nat
  source : Nat
  shift : Nat
  lo : Nat
  total : Nat
  bins : Tbl Nat
  deriving DecidableEq, Repr

/-- The extremes of one channel in base-tier SRAM (R475, R476). -/
structure LogExt where
  hi : Nat
  lo : Nat
  hiOp : Nat
  hiCyc : Nat
  loOp : Nat
  loCyc : Nat
  deriving DecidableEq, Repr

/-- A write of a unit that is under way, or waits for those before it (R474): what the unit held before, and the DAT_CLK edge at
which the write ends. -/
structure UnitWrite where
  unit : Nat
  old : List Byte
  ends : Nat
  deriving DecidableEq, Repr

/-- The Logbook beside its registers. `units` lists the 64-byte units of MRAM that are not all zero; `hist`, `ext` and
`rates` stand in SRAM; the other counts are those of the identity unit; `writes` are the writes
of units under way, in order (R474). -/
structure LogSt where
  units : Tbl (List Byte)
  queue : List LogEvent
  hist : Tbl LogHist
  ext : Tbl LogExt
  rates : Tbl Nat
  dropped : Nat
  torn : Nat
  clears : Nat
  writes : List UnitWrite
  deriving DecidableEq, Repr

/-! ### Plumb (R468 to R471) -/

/-- Plumb beside its registers: the last raw samples of each channel since it was enabled, newest first, and those that
await an answer; for each fired rule the ticks since its last ALARM; PLM_CLK's trim, as the DAT_CLK cycles of its last measurement; the
state a transition in progress leads to (R462). -/
structure PlumbSt where
  raw : Tbl (List Nat)
  waiting : List Nat
  gap : Tbl Nat
  trim : Option Nat
  goal : Option Nat
  staged : List (Nat × Nat)
  deriving DecidableEq, Repr

/-! ### Faults (R440 to R457) -/

/-- An injection that awaits its write (`written` false) or its read (R453). -/
structure Injection where
  target : Nat
  bits : Nat
  any : Bool
  addr : Nat
  written : Bool
  key : Nat
  deriving DecidableEq, Repr

/-- The collector beside its registers: lines held asserted; pairs that are invalid; sources whose crossing has timed
out (R457); units held in reset by QUIESCE; the class and action with which a source escalated; for each source in
GRACE the count of DAT_CLK edges at which its timer ends; pending injections; the edge count up to which an injection
forces the error outputs; whether the next tag, and the next time message's CRC, is to be spoiled. -/
structure FaultSt where
  lines : Nat
  badPairs : Nat
  stuck : Nat
  quiesced : List FltUnit
  escalated : Tbl (Nat × Nat)
  inject : List Injection
  graceEnd : Tbl Nat
  errUntil : Nat
  quietFrom : Nat
  badTag : Bool
  badTime : Bool
  deriving DecidableEq, Repr

/-- What an event in one unit brings about in another within the same step, performed before the step ends. -/
inductive Todo where
  /-- a fault escalated: epochs in progress carry STOPPED (R445) -/
  | stopped
  /-- the station's time was bad: epochs in progress carry DEGRADED (R66) -/
  | timeBad
  /-- DIE_STOP rose: a Witness run in progress is aborted (R398) -/
  | dieStop
  /-- an entry into DOZE or SLEEP begins: a Witness run in progress is aborted (R464) -/
  | powerEntry
  /-- FENCE_UNIT takes hold of a unit (R447) -/
  | fence (u : FltUnit)
  /-- QUIESCE resets a unit (R447) -/
  | quiesce (u : FltUnit)
  /-- leave was granted, or refused (R433, R434) -/
  | leaveGranted (p : LeaveFor)
  | leaveRefused (p : LeaveFor) (waited : Bool)
  /-- ready passes of Transit are gone: a waiting TRN_RUN may ask for its leave (R309) -/
  | trnRun
  /-- Pilot may start the next launched command (R411) -/
  | pilotNext
  /-- a Datum load or step took place: Wake writes a SYNC (R365) -/
  | clockStep
  /-- a MODEL vote was raised in a parcel (R368) -/
  | modelVote (parcel : Nat)
  /-- a role has sent something to another role of the instance: its type, the parcel, the epoch, the payload (R174) -/
  | ownRole (type parcel epoch : Nat) (bytes : List Byte)
  /-- a PARCEL_RESERVE command's job begins (R243) -/
  | reserve (job parcel period prio : Nat)
  /-- a role hands its part of a reservation to the next lower role of the instance; `ctx` is its context (R244) -/
  | ownPart (ctx : Nat) (part : ResvPart)
  /-- a role asks the next lower role of the instance in a claim exchange (R558) -/
  | ownClaim (parcel level : Nat) (trays : List Nat)
  /-- an envelope goes out on Landing, as cells of its station's bundles (R421, R422, R502) -/
  | landEnv (a : LndAddr) (reply : Bool) (station : Nat) (bytes : List Byte)
  deriving DecidableEq, Repr

/-! ### Berths (R484 to R488), Landing (R500 to R511) -/

/-- A frame that waits at a stream: its flow, its start tag and length, and the items of its bundle (R501, R505). -/
structure LndFrame where
  stream : Nat
  cls : Nat
  flow : Nat
  start : Nat
  ip : Nat
  kind : Nat
  items : List (List Byte)
  deriving DecidableEq, Repr

/-- One flow of a class and stream: its destination and finish tag (R505). -/
structure LndFlow where
  ip : Nat
  finish : Nat
  deriving DecidableEq, Repr

/-- A token bucket: tokens in thousandths of a byte at the DAT_CLK edge it was last brought up to date (R506). -/
structure LndBucket where
  milli : Nat
  since : Nat
  deriving DecidableEq, Repr

/-- Landing beside its registers. Keys of `flows`, `served` and `buckets` number stream and class as 8 × stream + class;
policers stand at 64 + 2 × stream + k. `childIp` holds the addresses of a role's children, at 64 × role + index. -/
structure LndSt where
  frames : List LndFrame
  flows : Tbl (List LndFlow)
  served : Tbl Nat
  buckets : Tbl LndBucket
  time : List (Nat × List Byte)
  forward : List (Nat × Nat × List Byte)
  bseq : Tbl Nat
  txSeq : Tbl Nat
  childIp : Tbl Nat
  sinkIp : Nat
  gateVer : Tbl Nat
  swap : Tbl Nat
  deriving DecidableEq, Repr

/-! ### Verdicts (R335 to R349) -/

/-- An entry of the alarm hold table (R348). -/
structure HoldEnt where
  station : Nat
  unit : Nat
  kind : Nat
  rule : Nat
  count : Nat
  tEvent : Nat
  value : Nat
  deriving DecidableEq, Repr

/-- Verdicts kept in the queue, by SEQ, and the alarm hold table. -/
structure VrdSt where
  queue : Tbl (List Byte)
  hold : Tbl HoldEnt
  deriving DecidableEq, Repr

/-! ### Wake (R356 to R380) -/

/-- An event of Wake's machine (R368). -/
inductive WakEv where
  | range (k : Nat)
  | cnt (c : Nat)
  | cad (parcel : Nat)
  | trigger (code : Nat)
  | timer (t : Nat)
  | beat (n : Nat)
  | host (code : Nat)
  | always
  deriving DecidableEq, Repr

/-- A packet in the pre region. -/
structure WakPkt where
  bytes : List Byte
  sync : Bool
  deriving DecidableEq, Repr

/-- What waits for the merger (R364): a packet's TYPE, low bits and body; a SYNC's reason, its time and byte 19; a START, which
queues the pre segment for drain; or the ACCESS packet of a record, formed as it is written. -/
inductive WakBody where
  | packet (type low : Nat) (bytes : List Byte)
  | sync (reason time info : Nat)
  | start (source : Nat)
  | access (tap : Nat) (rec : TapRecord)
  deriving DecidableEq, Repr

/-- An item of the merger: its stamp in DAT_CLK cycles; its rank among those of one stamp, 0 for internal events and n + 1 for
tap n; whether it goes to the post region. -/
structure WakItem where
  stamp : Nat
  rank : Nat
  post : Bool
  body : WakBody
  deriving DecidableEq, Repr

/-- Wake beside its registers: the pre region, oldest packet first; the pre segment and the post region queued for
drain; of each packet in the post region its bytes not yet drained and whether it is an ACCESS packet; what waits for the
merger, the entries of the tap FIFOs among it; the events of the present DAT_CLK cycle; the DAT_CLK count of the last stamp;
packets written in the session and since the last SYNC, and the time of that SYNC; for each tap the address of its last ACCESS
packet since the last SYNC; losses of each reason not yet reported; whether values are being shed; running timers, each with
its expiry time; whether the state has just been entered; whether a flush is under way; LOST_BYTES of the session and of the
present power-down; when the compute tier last left ACTIVE, and events that wait for its return, with their Datum times; the DAT_CLK count up to
which the entry into a power state waits for the flush (R376); that from which the present stalled µs of the drain counts (R372);
and that at which Wake asks for leave again after a refusal at once (R374). -/
structure WakSt where
  pre : List WakPkt
  seg : List Byte
  post : List Byte
  lens : List (Nat × Bool)
  queue : List WakItem
  evs : List WakEv
  stamp : Nat
  pkts : Nat
  since : Nat
  syncAt : Nat
  addr : Tbl Nat
  loss : Tbl (Nat × Nat)
  shedding : Bool
  timers : Tbl Nat
  fresh : Bool
  flushing : Bool
  lost : Nat
  lostNow : Nat
  downAt : Option Nat
  downSleep : Bool
  held : List (Nat × WakEv)
  flushUntil : Option Nat
  stall : Option Nat
  askAt : Option Nat
  deriving DecidableEq, Repr

/-! ### Taps, gauges, beats (R131 to R150) -/

/-- A capture of a pod: the cut it serves, or none for a clear (R136, R141); whether it waits for a bank or crosses to the
probe unit; whether it is late or deferred; the counters that were not zero. -/
structure PodCap where
  cut : Option Nat
  job : Nat
  first : Nat
  count : Nat
  waiting : Bool
  stale : Bool
  deferred : Bool
  vals : Tbl Nat
  deriving DecidableEq, Repr

/-- A clear that has been captured: the pod, the last cut the pod had captured before it, and what each named counter
held (R141 to R143). -/
structure PodClear where
  pod : Nat
  after : Nat
  first : Nat
  count : Nat
  pre : Tbl Nat
  deriving DecidableEq, Repr

/-- A tap pod: its full counter values that are not zero, the captures under way oldest first, the last cut captured,
and the cuts after which TAP_ON fell. -/
structure PodSt where
  counts : Tbl Nat
  caps : List PodCap
  lastCut : Nat
  falls : List Nat
  deriving DecidableEq, Repr

/-- What a delivered snapshot of a pod gave a cut. -/
structure PodSnap where
  stale : Bool
  deferred : Bool
  vals : Tbl Nat
  deriving DecidableEq, Repr

/-- A cut: the strobes of one DAT_CLK edge, the snapshots delivered by pod, the gauges sampled (none: STALE) and those
outstanding (R138, R146). -/
structure Cut where
  id : Nat
  edge : Nat
  snaps : Tbl PodSnap
  gauges : Tbl (Option Nat)
  waiting : List Nat
  deriving DecidableEq, Repr

/-- A stamp the probe unit has taken, and the interval in clock units that it ended, if it ended one (R149). -/
structure BeatTaken where
  time : Nat
  interval : Option Nat
  deriving DecidableEq, Repr

/-- Pods, the cuts an epoch may still need, the clears captured since the oldest of them, the beats taken, and a bit for each pod
whose TAP_CLK has stopped (R145). -/
structure TapSt where
  pods : Tbl PodSt
  cuts : List Cut
  nextCut : Nat
  clears : List PodClear
  beats : Tbl (List BeatTaken)
  stopped : Nat
  deriving DecidableEq, Repr

/-! ### Probes and sketches (R151 to R221) -/

/-- One probe of a parcel's list, as fixed at reservation (R209, R242). -/
structure ProbeEnt where
  probe : Nat
  sketch : Nat
  xform : Nat
  shift : Nat
  unit : Nat
  deriving DecidableEq, Repr

/-- A probe's value for an epoch: the raw 48.16 value of its Cadastre, Transit, tracker and SERIES use, and its flags
(R154 to R156). -/
structure ProbeVal where
  probe : Nat
  raw : Nat
  stale : Bool
  missing : Bool
  sat : Bool
  deriving DecidableEq, Repr

/-- An extremes entry (R216). -/
structure Extreme where
  value : Nat
  station : Nat
  sub : Nat
  deriving DecidableEq, Repr

/-- A probe's accumulator, or a probe sketch taken apart (R211 to R220). -/
structure Accum where
  coarse : Bool
  hsat : Bool
  msat : Bool
  mismatch : Bool
  nVal : Nat
  nStale : Nat
  nMissing : Nat
  nSat : Nat
  bins : Tbl Nat
  hi : List Extreme
  lo : List Extreme
  count : Nat
  sum : Nat
  sumsq : Nat
  deriving DecidableEq, Repr

/-- The vote table of a context buffer: entries of the working table and of the spill area by key, counts discarded,
flags, and the keys the node's own sources have raised (R222 to R228). -/
structure Votes where
  table : Tbl Nat
  spill : Tbl Nat
  ovf : Nat
  approx : Bool
  csat : Bool
  spilled : Bool
  own : List Nat
  deriving DecidableEq, Repr

/-! ### Epochs and parcels (R168 to R207, R240 to R250) -/

/-- Where a child stands at the gate (R183). -/
inductive KidPhase where
  | outstanding | included | asleep | absentTimeout | absentRoster | absentDeclared
  deriving DecidableEq, Repr

/-- A child in one epoch: its state, its arrival, and what its closure's header gave. `trn` is its Transit section;
`pending` tells that its RESOLVE is awaited, `voided` that its section is excluded. -/
structure KidEpoch where
  station : Nat
  phase : KidPhase
  pending : Bool
  voided : Bool
  nInc : Nat
  nAsleep : Nat
  nAbsent : Nat
  nStale : Nat
  nDegraded : Nat
  nVoid : Nat
  nRoster : Nat
  nDeclared : Nat
  absents : List Nat
  trn : List Byte
  deriving DecidableEq, Repr

/-- The node's own station in one epoch. -/
inductive OwnPhase where
  | notMember | waiting | included | asleep
  deriving DecidableEq, Repr

/-- Where a unit's part of an epoch stands: none to do, to be done, or done. -/
inductive PartPhase where
  | none | pending | done
  deriving DecidableEq, Repr

/-- One row's scores (R282, R283, R294): its station, its flags and its scores, binary32. -/
structure ScoreRow where
  station : Nat
  voted : Bool
  nan : Bool
  ovf : Bool
  unscored : Bool
  scores : List Nat
  deriving DecidableEq, Repr

/-- The scores kept of one epoch (R283). -/
structure ScoreSet where
  platVer : Nat
  nOut : Nat
  rows : List ScoreRow
  deriving DecidableEq, Repr

/-- One epoch of a context that is in progress or not yet sent or published. `cut` is that of its start boundary, and
`endCut` that of its end; `dl` the effective deadline fixed at its end, in 100 ns units; `fin` tells that Tally has
finished it (R232); `held` are the sketch sections that wait for its buffer to be free, with their time of arrival (R231); `mixed` tells that a
child's closure carried another STRICT setting (R340). -/
structure Epoch where
  k : Nat
  cut : Nat
  endCut : Option Nat
  active : Bool
  dl : Nat
  kids : List KidEpoch
  own : OwnPhase
  ownVals : List ProbeVal
  ownStale : Bool
  ownDegraded : Bool
  gate : Bool
  fin : Bool
  accs : Tbl Accum
  votes : Votes
  degraded : Bool
  coarse : Bool
  coarseIn : Bool
  stale : Bool
  isVoid : Bool
  stopped : Bool
  approx : Bool
  truncated : Bool
  timeouts : Nat
  satCounted : Bool
  build : PartPhase
  cad : PartPhase
  trn : PartPhase
  trnCheck : PartPhase
  trnBytes : List Byte
  trnFailed : Bool
  trnVotes : List Nat
  cadOut : List ScoreRow
  sentPending : Bool
  bars : Tbl Nat
  plat : Nat
  sub : Nat
  platVer : Nat
  tClose : Nat
  held : List (Nat × List Byte)
  mixed : Bool
  deriving DecidableEq, Repr

/-- State of a context (R240); FREE is a context not listed. -/
inductive CtxPhase where
  | reserved | armed | live | releasing | draining
  deriving DecidableEq, Repr

/-- A child of a node that holds a parcel: its station, the role it takes where it is one of the instance's own, and the
members below it. -/
structure Kid where
  station : Nat
  level : Nat
  members : Nat
  deriving DecidableEq, Repr

/-- Who asked for a reservation, and how the answer goes back. -/
inductive Asker where
  | job (id : Nat)
  | remote (keyId origin tag : Nat) (via : Via)
  | role (ctx : Nat)
  | nobody
  deriving DecidableEq, Repr

/-- A child's part of a reservation that is awaited (R244). -/
structure PartWait where
  station : Nat
  own : Bool
  resends : Nat
  answer : Option (Nat × Nat × Nat)
  deriving DecidableEq, Repr

/-- A context (R229, R240). `next` is the next boundary to be raised; `last` the last epoch published or sent; `entries`
the member entries of its part, `claimed` the member trays that each child claimed (R558); `pages` the numbers of its pages
(R230), `withheld` the last epoch whose closure a HEADLESS leaf kept (R186). -/
structure Ctx where
  parcel : Nat
  level : Nat
  pub : Bool
  phase : CtxPhase
  committed : Bool
  counted : Bool
  period : Nat
  prio : Nat
  t0 : Nat
  endE : Option Nat
  parent : Nat
  self : Bool
  members : Nat
  kids : List Kid
  probes : List ProbeEnt
  pages : List Nat
  seq : Nat
  next : Nat
  last : Option Nat
  dl : Nat
  q99 : Nat
  samples : List Nat
  window : Nat
  marginDue : Bool
  stalled : Bool
  declared : List (Nat × Nat × Nat)
  epochs : List Epoch
  bars : Tbl Nat
  extBars : Tbl Nat
  extPend : List (Nat × Nat × Nat)
  absRuns : Tbl Nat
  prevVerds : List (Nat × Nat × Nat)
  plat : Nat
  sub : Nat
  asker : Asker
  parts : List PartWait
  resvOk : Bool
  entries : List (Nat × Nat)
  claimed : Tbl (List Nat)
  withheld : Option Nat
  deriving DecidableEq, Repr

/-- What a context number keeps of the parcel that last held it (R194, R195, R283, R323). -/
structure Keep where
  parcel : Nat
  level : Nat
  pub : Bool
  last : Option Nat
  items : Tbl (List Byte)
  resolves : Tbl (List Byte)
  trn : Tbl (List Byte)
  scores : Tbl ScoreSet
  deriving DecidableEq, Repr

/-- The Berths buffers, as pool and number, that hold an item a leaf keeps (R194, R195). -/
structure KeptBuf where
  ctx : Nat
  k : Nat
  bufs : List (Nat × Nat)
  deriving DecidableEq, Repr

/-- Work that waits for Tally (R232): a child's sketch section to be merged, a fold, or a leaf's section to be built. -/
inductive TallyWork where
  | merge (bytes : List Byte)
  | fold
  | build
  deriving DecidableEq, Repr

/-- An item of Tally's queue; `arr` is the edge at which it arrived (R232). -/
structure TallyItem where
  ctx : Nat
  k : Nat
  work : TallyWork
  cost : Nat
  arr : Nat
  deriving DecidableEq, Repr

/-- A staged definition (R242): entries as their two words. -/
structure Staged where
  parcel : Nat
  probes : List (Nat × Nat)
  members : List (Nat × Nat)
  deriving DecidableEq, Repr

/-- A claim exchange under way (R558): the children of the role asked, the member trays each has claimed, and the stations given up
below or at them. -/
structure ClaimSt where
  parcel : Nat
  level : Nat
  asker : Asker
  period : Nat
  prio : Nat
  probes : List (Nat × Nat)
  members : List (Nat × Nat)
  waits : List (Nat × Nat)
  answers : Tbl (List Nat)
  lost : List Nat
  only : Bool
  deriving DecidableEq, Repr

/-- A ruling (R252). `effect` is its effective point: clock units, or an epoch where `atEpoch` is set; `chain` is the chain that
a TIMETABLE_SWAP of this tray build concerns, and goes into no cell. -/
structure Ruling where
  no : Nat
  kind : Nat
  atEpoch : Bool
  fleet : Bool
  effect : Nat
  issuer : Nat
  level : Nat
  parcel : Nat
  body : List Byte
  chain : Nat := 0
  deriving DecidableEq, Repr

/-- Where the acknowledgement of a ruling goes. -/
inductive AckTo where
  | job (id : Nat)
  | station (st : Nat)
  | nobody
  deriving DecidableEq, Repr

/-- A ruling received, among the last 256 or still awaiting its children, or one issued (R255): the children still silent with the resends made to each, the
counts gathered, and whether it has been acknowledged. -/
structure RulingSeen where
  ruling : Ruling
  ackTo : AckTo
  waits : List (Nat × Nat)
  applied : Nat
  refused : Nat
  unreached : Nat
  lowest : Option Nat
  acked : Bool
  deriving DecidableEq, Repr

/-- Parcels, epochs, rulings and Tally beside their registers. `workBase` is what Tally has worked off of the item in progress, in
bytes, up to edge number `workFrom` (R233); `berthed` what a leaf keeps in Berths, oldest first (R195). -/
structure ParSt where
  ctxs : Tbl Ctx
  keeps : Tbl Keep
  queue : List TallyItem
  staged : List Staged
  claims : List ClaimSt
  pend : List Ruling
  seen : List RulingSeen
  commits : Nat
  workBase : Nat
  workFrom : Nat
  berthed : List KeptBuf
  deriving DecidableEq, Repr

/-! ### Cadastre and Transit beside their registers (R264 to R334) -/

/-- A pass of Cadastre: the plat slot and its rows, each a context, an epoch and a station (R274, R275). -/
structure CadPass where
  slot : Nat
  rows : List (Nat × Nat × Nat)
  deriving DecidableEq, Repr

/-- A plot: its bank and entry, the care mask C, the value word D, the tree tag, the leaf slot, and the parity bit as it stands
there (R271). -/
structure Plot where
  bank : Nat
  entry : Nat
  care : BitVec 256
  value : BitVec 256
  tag : Nat
  slot : Nat
  parity : Bool
  deriving DecidableEq, Repr

/-- An entry of a bank's leaf value table: the value and the output it adds to (R271, R279). -/
structure LeafVal where
  bank : Nat
  slot : Nat
  value : Nat
  out : Nat
  deriving DecidableEq, Repr

/-- A tree placed in a bank: its index in the plat, the bank, and the tag that its plots carry (R273). -/
structure TreeAt where
  tree : Nat
  bank : Nat
  tag : Nat
  deriving DecidableEq, Repr

/-- What a run of trees takes in the banks: the trees with their tags, their plots, and their leaf values. -/
structure PlotSet where
  trees : List TreeAt
  plots : List Plot
  leafs : List LeafVal
  deriving DecidableEq, Repr

/-- Cadastre: the pass under way; by slot, the images whose trees stand in the node tables of the resident region, what those
trees take in the TCAM, and the entries that the slot's plat takes of each bank; the image bytes and the outputs of each slot, and the public
key that verifies plats. -/
structure CadSt where
  pass : Option CadPass
  resident : Tbl (List Byte)
  plots : Tbl PlotSet
  use : Tbl (List Nat)
  lens : Tbl Nat
  outs : Tbl Nat
  signKey : List Byte
  deriving DecidableEq, Repr

/-- An input column of a pass (R303, R304): the station it is placed by, its centred features, and the blocks that still
give a residual (block 0 alone in the DIE layout). -/
structure TrnCol where
  station : Nat
  xs : List Nat
  blocks : List Nat
  deriving DecidableEq, Repr

/-- A pass of Transit (R303 to R317): its context and epoch, its slot, the image with the weights it runs on, whether they
have been updated, its columns, how many columns and blocks are excluded, how many tiles have completed and have been
checked, the fences it runs under, and whether a check has failed. -/
structure TrnPass where
  ctx : Nat
  k : Nat
  slot : Nat
  image : List Byte
  learned : Bool
  cols : List TrnCol
  excluded : Nat
  done : Nat
  checked : Nat
  fence : Nat
  fenceArr : Nat
  failed : Bool
  deriving DecidableEq, Repr

/-- Transit: the pass under way, by slot the weights in scratch (as images), the image bytes and the learn area, the slots
whose weights have been updated, by slot the weights of later epochs (context, first epoch, image), and the counts that may
lead to a fence (array, group or 8 where unlocated, DAT_CLK edge). -/
structure TrnSt where
  pass : Option TrnPass
  weights : Tbl (List Byte)
  lens : Tbl Nat
  learnAt : Tbl Nat
  learned : List Nat
  updates : Tbl (List (Nat × Nat × List Byte))
  counts : List (Nat × Nat × Nat)
  deriving DecidableEq, Repr


/-! ### Witness beside its registers (R385 to R401) -/

/-- A run on an engine: the slot, version and length of its pack, the record awaited or to be injected next, whether it has been
injected, and whether the run ends with the record in flight (R395, R398). -/
structure WitRun where
  eng : Nat
  slot : Nat
  cls : Nat
  version : Nat
  len : Nat
  record : Nat
  sent : Bool
  ending : Bool
  deriving DecidableEq, Repr

/-- A pack being assembled from WITNESS_PUSH fragments (R392). -/
structure WitStage where
  cls : Nat
  version : Nat
  nFrag : Nat
  packLen : Nat
  frags : Tbl (List Byte)
  bufs : List (Nat × Nat)
  deriving DecidableEq, Repr

/-- Self-tests under way: what errors of the hardware make fail, and whether Cadastre's waits for its leave (R400). -/
structure WitSelf where
  cadBad : Bool
  talBad : Bool
  deriving DecidableEq, Repr

/-- Witness: the engine whose grant has been taken and that waits for leave, the run in progress, the levels of TEST_GNT and
TEST_PREEMPT, the engines whose TEST_REQ is low after a refusal of leave, stagings by age, whether self-tests are due and
under way, and the public key that verifies packs. -/
structure WitSt where
  taken : Option Nat
  takenAt : Nat
  run : Option WitRun
  gnt : Nat
  preempt : Nat
  retry : List Nat
  staging : List WitStage
  selfDue : Bool
  selfRun : Option WitSelf
  signKey : List Byte
  deriving DecidableEq, Repr

/-! ### What the block drives on its ports -/

/-- One thing the block has driven outward, in the order in which it did. -/
inductive Out where
  /-- a cell put into a container of a chain (R93, R110), its first block on that lane (R101) -/
  | cell (ch : Nat) (dir : Dir) (cyc cont lane : Nat) (bytes : List Byte)
  /-- a container relayed by a leaf, with its cell or empty (R94), likewise -/
  | relay (ch : Nat) (dir : Dir) (cyc cont lane : Nat) (cell : Option (List Byte))
  /-- a row of ordered sets, in the time of container `cont` (R97, R101): its blocks, one on each lane, before scrambling (R68, R98) -/
  | row (ch : Nat) (side : Side) (cyc cont row : Nat) (blocks : List Block)
  /-- a leaf's request for a splice-out (R128) -/
  | spliceReq (station : Nat)
  /-- a frame sent on a Landing stream; `ptp` marks a PTP event message (R500, R504, R543) -/
  | frame (stream : Nat) (ptp : Bool) (bytes : List Byte)
  /-- a pulse output rises or falls (R80) -/
  | pulse (n : Nat) (level : Bool)
  /-- a sample request of Plumb (R529) -/
  | sample (ch : Nat)
  /-- a gauge request (R146) -/
  | gaugeReq (n : Nat)
  /-- a part of a reservation sent to a child (R244); the spec gives its contents and no layout -/
  | part (tag station : Nat) (p : ResvPart)
  /-- a claim exchange's question to a child, and an answer (R558) -/
  | claimAsk (env : EnvSeal) (tag station parcel level : Nat) (trays : List Nat)
  | claimAnswer (env : EnvSeal) (tag station parcel : Nat) (trays : List Nat)
  | claimFailed (env : EnvSeal) (tag station parcel lost : Nat)
  /-- a record's input on the witness injection port, under its tag (R395) -/
  | inject (eng record : Nat) (bytes : List Byte)
  /-- an acknowledgement of a ruling (R255); the spec gives its contents and no layout -/
  | rulingAck (station : Nat) (ack : RulingAck)
  /-- a handshake crossing that timed out completes at the side that began it, with this data (R455) -/
  | crossed (crossing data : Nat)
  /-- a request on the host master port of a leaf: direction, address, beats of 8 bytes with 0 meaning 64, and what is written (R528) -/
  | hostReq (write : Bool) (addr beats : Nat) (bytes : List Byte)
  /-- a request on a hold port of a tray build: port, direction, stack address, beats of 32 bytes with 0 meaning 64, and what is written
  (R539) -/
  | holdReq (port : Nat) (write : Bool) (addr beats : Nat) (bytes : List Byte)
  /-- the data that a read on the host target port returns to its requester (R10, R11) -/
  | readData (rq off : Nat) (data : DWord)
  deriving DecidableEq, Repr

/-! ### The whole -/

/-- Input levels and the resets (R515, R528 to R530). `rerr` names the hold ports, or with bit 0 the host master port of a
leaf, whose next transfer ends in an error (R541). -/
structure Pins where
  por : Bool
  crst : Bool
  hrst : Bool
  straps : Straps
  memTrained : Nat
  rerr : Nat
  lndUp : Nat
  tapOn : Nat
  deriving DecidableEq, Repr

/-- The state of the block. `regs` lists the registers that differ from their value after reset, by offset; `hostMem`
and `holdMem` list the bytes that differ from zero; `out` is what the block has driven on its ports, oldest first;
`pending` holds the commands that wait, first in, first out; `free` counts the free values drawn. -/
structure State where
  build : Build
  pending : List Instr
  regs : Tbl DWord
  pil : PilotSt
  adm : AdmitSt
  dat : DatumSt
  chains : Tbl ChainSt
  log : LogSt
  plm : PlumbSt
  flt : FaultSt
  brt : Tbl Nat
  brtWait : List BrtReq
  lnd : LndSt
  vrd : VrdSt
  wak : WakSt
  tap : TapSt
  par : ParSt
  cad : CadSt
  trn : TrnSt
  wit : WitSt
  todo : List Todo
  pins : Pins
  hostMem : List Host.Cell
  holdMem : List Host.Cell
  otpBond : Tbl Nat
  out : List Out
  free : Nat
  deriving DecidableEq, Repr

/-- Reasons a run stops with a fault. No meaning of this model raises one: every event of the block, its errors
included, leads to a next state. -/
inductive Fault where
  /-- Raised by nobody; the constructor keeps the type inhabited. Safe: it is never answered. -/
  | unused
  deriving DecidableEq, Repr

/-- Reasons a command has no answer. -/
inductive Refusal where
  /-- The command of that mnemonic has no meaning in the model. Raised by the dispatch alone. Safe: the model stops. -/
  | notModelled (mnemonic : String)
  deriving DecidableEq, Repr

/-! ### Reset (R515, R516, R545) -/

/-- An exchange with nothing gathered. -/
def PtpEx.blank : PtpEx :=
  { syncSeq := none, awaitFollow := false, t1 := none, t2 := none, cs := 0, t3 := none, dreqSeq := none }

/-- The 1588 port with nothing gathered. -/
def PtpSt.blank : PtpSt := { seqSync := 0, seqDreq := 0, ex := .blank, dropped := 0, runs := [] }

/-- The Landing time role after reset: none (R64), and 16 messages in a second (R75). -/
def TimeRole.blank : TimeRole :=
  { role := 0, layer2 := false, domain := 0, syncLog := 4, dreqLog := 4, asym := 0, master := 0, children := [] }

/-- Datum after reset (R58, R62). -/
def DatumSt.blank : DatumSt :=
  { clock := 0, edges := 0, integ := 0, prop := 0, lockCnt := 0, unlockCnt := 0, acqValid := false,
    role := .blank, ptp := .blank, share := [], beatQ := [], stepMark := none, catchUp := false, pulseNext := [], pulseOut := [],
    ppsMiss := 0, dieStop := false, dieRise := 0, dieAck := false }

/-- Pilot before its boot: every aperture is BUSY to the host (R405). -/
def PilotSt.blank : PilotSt :=
  { booted := false, aps := [], keys := [], replay := [], relay := [], jobs := [], nextJob := 0, issued := [], nextTag := 0, launchQ := [], lastIssue := none,
    patch := [], fwKey := [], latches := [], holds := [], captures := [] }

/-- A fault collector with nothing latched. -/
def FaultSt.blank : FaultSt :=
  { lines := 0, badPairs := 0, stuck := 0, quiesced := [], escalated := [], inject := [], graceEnd := [], errUntil := 0, quietFrom := 0,
    badTag := false, badTime := false }

/-- A Logbook that has recorded nothing. -/
def LogSt.blank : LogSt :=
  { units := [], queue := [], hist := [], ext := [], rates := [], dropped := 0, torn := 0, clears := 0, writes := [] }

/-- Landing without traffic. -/
def LndSt.blank : LndSt :=
  { frames := [], flows := [], served := [], buckets := [], time := [], forward := [], bseq := [], txSeq := [], childIp := [],
    sinkIp := 0, gateVer := [], swap := [] }

/-- Wake without a session. -/
def WakSt.blank : WakSt :=
  { pre := [], seg := [], post := [], lens := [], queue := [], evs := [], stamp := 0, pkts := 0, since := 0, syncAt := 0, addr := [],
    loss := [], shedding := false, timers := [], fresh := false, flushing := false, lost := 0, lostNow := 0, downAt := none, downSleep := false, held := [],
    flushUntil := none, stall := none, askAt := none }

/-- Pins and straps of State.reset. DESIGN CHOICE: every hold port trained, every Landing stream up, no pod on, FORD_LISTEN
present; see the assumption log. -/
def Pins.blank : Pins :=
  { por := false, crst := false, hrst := false,
    straps := { testMode := false, phyTx := 0, phyRx := 0, fordListen := true, memTrained := 0xFFF, lndUp := 3, tapOn := 0, bondBad := none },
    memTrained := 0xFFF, rerr := 0, lndUp := 3, tapOn := 0 }

/-- The block of a build right after its three resets have been released together, before Pilot has booted (R515, R516,
R545): every register at its value after reset, every table empty, no command waiting. -/
def State.resetOf (b : Build) : State :=
  { build := b, pending := [], regs := [], pil := .blank, adm := { queue := [], held := [], nextId := 0, shown := none, gntAt := none, own := [] }, dat := .blank,
    chains := [], log := .blank, plm := { raw := [], waiting := [], gap := [], trim := none, goal := none, staged := [] }, flt := .blank,
    brt := [], brtWait := [], lnd := .blank, vrd := { queue := [], hold := [] }, wak := .blank,
    tap := { pods := [], cuts := [], nextCut := 1, clears := [], beats := [], stopped := 0 },
    par := { ctxs := [], keeps := [], queue := [], staged := [], claims := [], pend := [], seen := [], commits := 0,
             workBase := 0, workFrom := 0, berthed := [] },
    cad := { pass := none, resident := [], plots := [], use := [], lens := [], outs := [], signKey := [] },
    trn := { pass := none, weights := [], lens := [], learnAt := [], learned := [], updates := [], counts := [] },
    wit := { taken := none, takenAt := 0, run := none, gnt := 0, preempt := 0, retry := [], staging := [], selfDue := false, selfRun := none, signKey := [] },
    todo := [], pins := .blank, hostMem := [], holdMem := [], otpBond := [], out := [], free := 0 }

/-- The machine right after reset. DESIGN CHOICE: a tray build, the build with every unit of the opcode table but the
pods; see the assumption log. -/
def State.reset : State := State.resetOf .tray

end Sys2Proof.Machine
end

