-- ==== Sys2Proof/Machine/Ops.lean ====
section
/-! DEFINITION. The named operations over the state: registers and their fields, Datum times, memory, outputs. -/

namespace Sys2Proof.Machine

/-! ### Registers (R6, R11, R13) -/

/-- The value of a register: what was last put there, else its value after reset. -/
def State.rd (s : State) (l : Loc) : Nat :=
  match Tbl.get? s.regs l.off with
  | some v => v.toNat
  | none => l.rst s.build % 2 ^ l.width

/-- Put a value into a register, cut to its width; the register file lists only what differs from reset. -/
def State.wr (s : State) (l : Loc) (v : Nat) : State :=
  { s with regs := Tbl.put (BitVec.ofNat 64 (l.rst s.build % 2 ^ l.width)) s.regs l.off (BitVec.ofNat 64 (v % 2 ^ l.width)) }

/-- The field of `len` bits at `lo` of a register. -/
def State.getF (s : State) (l : Loc) (lo len : Nat) : Nat := fld (s.rd l) lo len

/-- Put `x` into the field of `len` bits at `lo` of a register. -/
def State.setF (s : State) (l : Loc) (lo len x : Nat) : State := s.wr l (setFld (s.rd l) lo len x)

/-- Whether bit `i` of a register is set. -/
def State.getB (s : State) (l : Loc) (i : Nat) : Bool := bit (s.rd l) i

/-- Set an event bit (R12). -/
def State.evt (s : State) (l : Loc) (i : Nat) : State := s.setF l i 1 1

/-- Put a bit. -/
def State.putB (s : State) (l : Loc) (i : Nat) (b : Bool) : State := s.setF l i 1 (b2n b)

/-- Add `n` to a count; the register keeps the low bits of its width (R6). -/
def State.inc (s : State) (l : Loc) (n : Nat) : State := s.wr l (s.rd l + n)

/-- Raise a register that holds a largest value so far. -/
def State.maxR (s : State) (l : Loc) (n : Nat) : State := if s.rd l < n then s.wr l n else s

/-! ### Datum times (R56, R57) -/

/-- Clock units of 2⁻³² ns in one second. -/
def secU : Nat := 1000000000 * 2 ^ 32

/-- Clock units at which SEC wraps (R58). -/
def clockMod : Nat := 2 ^ 48 * secU

/-- The 96-bit layout of a Datum time (R56); FRAC is the upper half of the clock's fraction. -/
def encTime (t : Nat) : Nat :=
  let u := t % clockMod
  u / secU * 2 ^ 48 + u % secU / 2 ^ 32 * 2 ^ 16 + u % 2 ^ 32 / 2 ^ 16

/-- Clock units of a 96-bit Datum time; none where it is malformed (R57). Its reserved bits are ignored (R8). -/
def decTime (v : Nat) : Option Nat :=
  if fld v 16 30 < 1000000000 then
    some (fld v 48 48 * secU + fld v 16 30 * 2 ^ 32 + fld v 0 16 * 2 ^ 16)
  else none

/-- A Datum time in three command words, or none where it is malformed (R56, R57). -/
def timeOfWords (ws : List Word) (i : Nat) : Option Nat :=
  decTime (wAt ws i + 2 ^ 32 * wAt ws (i + 1) + 2 ^ 64 * wAt ws (i + 2))

/-- The three words of a Datum time (R56). -/
def timeWords (t : Nat) : List Word := [w32 (encTime t), w32 (encTime t / 2 ^ 32), w32 (encTime t / 2 ^ 64)]

/-- The twelve bytes of a Datum time. -/
def timeBytes (t : Nat) : List Byte := leBytes 12 (encTime t)

/-- Nanoseconds in clock units. -/
def nsU (n : Nat) : Nat := n * 2 ^ 32

/-- The low 64 bits of an encoded time: NS and FRAC, as a _SUB register shows them. -/
def timeSub (t : Nat) : Nat := encTime t % 2 ^ 48

/-- SEC, as a _SEC register shows it. -/
def timeSec (t : Nat) : Nat := encTime t / 2 ^ 48

/-- The time a _SUB and _SEC register pair holds. -/
def State.rdTime (s : State) (sub sec : Loc) : Nat := (decTime (s.rd sub % 2 ^ 48 + 2 ^ 48 * s.rd sec)).getD 0

/-- Put a time into a _SUB and _SEC register pair. -/
def State.wrTime (s : State) (sub sec : Loc) (t : Nat) : State := (s.wr sub (timeSub t)).wr sec (timeSec t)

/-- The current Datum time in clock units. -/
def State.now (s : State) : Nat := s.dat.clock

/-! ### Memory in the surroundings -/

/-- What a byte reads as that nothing has written. DESIGN CHOICE: zero; see the assumption log. -/
def memBlank : Byte := 0#8

/-- One byte. -/
def memByte (m : List Host.Cell) (a : Nat) : Byte := (Tbl.get? m a).getD memBlank

/-- Put one byte; the list keeps its canonical form. -/
def memPut (m : List Host.Cell) (a : Nat) (b : Byte) : List Host.Cell := Tbl.put memBlank m a b

/-- `k` bytes from address `a` on. -/
def memRead (m : List Host.Cell) (a : Nat) : Nat → List Byte
  | 0 => []
  | k + 1 => memByte m a :: memRead m (a + 1) k

/-- Put a byte string at address `a`. -/
def memWrite (m : List Host.Cell) (a : Nat) : List Byte → List Host.Cell
  | [] => m
  | b :: bs => memWrite (memPut m a b) (a + 1) bs

/-- The memory's canonical form: addresses strictly rising, no entry that equals a blank byte. -/
def memWf (m : List Host.Cell) : Bool := Tbl.wf m && m.all (fun e => !(e.2 == memBlank))

/-! ### Chains, outputs, free values -/

/-- A chain without traffic. -/
def chainBlank : ChainSt :=
  { txq := [], txSeq := [], rxSeq := [], asm := [], kept := [], gaps := [], bulkRx := [], copies := [],
    alarmSent := 0, wordW := none, wordE := none,
    ldSeq := 0, ldW := none, ldE := none, links := [0, 0, 0, 0], splices := [], roll := 0, rollDue := false, unanswered := [],
    adminGot := [], opVer := [], inAt := [], stopOrig := false, rows := [], seedDue := [], txNext := [], laneAt := [],
    wordBack := false, failed := 0, returns := 0, modeFrom := 0, modeOld := 0, oldLists := [], swapAt := none,
    laneLock := [], scr := [], line := [], badHeads := 0, bulkDone := 0 }

/-- Chain `ch` of the station. -/
def State.chain (s : State) (ch : Nat) : ChainSt := (Tbl.get? s.chains ch).getD chainBlank

/-- Put chain `ch`. -/
def State.setChain (s : State) (ch : Nat) (c : ChainSt) : State := { s with chains := Tbl.put chainBlank s.chains ch c }

/-- Drive something outward. -/
def State.emit (s : State) (o : Out) : State := { s with out := s.out ++ [o] }

/-- Draw a free value: the state reads its counter and advances it. -/
def State.draw (s : State) : DWord × State := (Config.freeValue s.free, { s with free := s.free + 1 })

/-- Whether the build is a tray. -/
def State.isTray (s : State) : Bool := s.build == .tray

/-- The chains the station serves: A on a leaf, A and B on a tray build (R44). -/
def State.chainList (s : State) : List Nat := if s.isTray then [0, 1] else [0]

/-- This station's number (R20). -/
def State.station (s : State) : Nat := s.getF CHN_STATION 0 20

/-- Whether a station number is set (R20). -/
def State.stationValid (s : State) : Bool := s.getB CHN_STATION 31

/-- Apply a change for each element in turn. -/
def State.each {α : Type} (s : State) (xs : List α) (f : α → State → State) : State := xs.foldl (fun t x => f x t) s

end Sys2Proof.Machine
end

