-- ==== Sys2Proof/Machine/ChainMsg.lean ====
section
/-! DEFINITION. Cells and messages of the chain (R102 to R107): their layout, the queues they wait in, and their
assembly. -/

namespace Sys2Proof.Machine

/-! ### Cells (R102) -/

/-- The fields of a cell header, HCRC apart, and the payload bytes in use. -/
structure Cell where
  type : Nat
  cls : Nat
  first : Bool
  last : Bool
  degraded : Bool
  retx : Bool
  auth : Bool
  src : Nat
  dst : Nat
  parcel : Nat
  epoch : Nat
  seq : Nat
  data : List Byte
  deriving DecidableEq, Repr

/-- The low 112 bits of a cell header (R102). -/
def Cell.header (c : Cell) : Nat :=
  c.type % 2 ^ 5 + c.cls % 8 * 2 ^ 5 + b2n c.first * 2 ^ 8 + b2n c.last * 2 ^ 9 + b2n c.degraded * 2 ^ 10 +
    b2n c.retx * 2 ^ 11 + b2n c.auth * 2 ^ 12 + c.data.length % 2 ^ 7 * 2 ^ 13 + c.src % 2 ^ 20 * 2 ^ 20 +
    c.dst % 2 ^ 20 * 2 ^ 40 + c.parcel % 2 ^ 12 * 2 ^ 60 + c.epoch % 2 ^ 24 * 2 ^ 72 + c.seq % 2 ^ 16 * 2 ^ 96

/-- The 128 bytes of a cell: its header with HCRC, and its payload filled up with zeros (R102). -/
def Cell.bytes (c : Cell) : List Byte :=
  let h := leBytes 14 c.header
  h ++ leBytes 2 (crc16 h) ++ padTo 112 c.data

/-- Whether the 128 bytes pass HCRC (R102, R106). -/
def cellHcrcOk (bs : List Byte) : Bool := leAt bs 14 2 == crc16 (bs.take 14)

/-- The fields of a received cell; none where LEN or CLASS is malformed (R102). -/
def parseCell (bs : List Byte) : Option Cell :=
  let h := leAt bs 0 14
  let len := fld h 13 7
  let cls := fld h 5 3
  if len = 0 ∨ 112 < len ∨ cls = 0 ∨ 5 < cls then none
  else
    some { type := fld h 0 5, cls := cls, first := bit h 8, last := bit h 9, degraded := bit h 10, retx := bit h 11,
           auth := bit h 12, src := fld h 20 20, dst := fld h 40 20, parcel := fld h 60 12, epoch := fld h 72 24,
           seq := fld h 96 16, data := slice bs 16 len }

/-- Whether a cell type is one of R103. -/
def cellTypeKnown (t : Nat) : Bool := (decide (1 ≤ t) && decide (t ≤ 0x10)) && t != 3

/-- The class of a cell type (R103). -/
def cellClassOf (t : Nat) : Nat :=
  if t = 1 ∨ t = 2 then 3 else if t = 4 then 4 else if t = 5 then 5 else if t = 0xA ∨ t = 0xB then 1 else 2

/-- Whether a cell carries an epoch number (R102). -/
def cellHasEpoch (t : Nat) : Bool := t == 1 || t == 2

/-! ### Station numbers (R17, R18, R25, R104) -/

/-- Position of a station on its chain. -/
def stPos (st : Nat) : Nat := fld st 0 5

/-- The chain a station number names. -/
def stChain (st : Nat) : Nat := fld st 5 1

/-- The tray a station number names. -/
def stTray (st : Nat) : Nat := fld st 6 14

/-- Whether a number names a station at all (R18). -/
def stNames (st : Nat) : Bool := decide (st < 2 ^ 20) && decide (stPos st ≤ 16) && !(stPos st == 0 && stChain st == 1)

/-- The tray build's station number of the tray a station belongs to. -/
def stTrayStation (st : Nat) : Nat := stTray st * 2 ^ 6

/-- The code for every leaf of a chain (R104). -/
def dstAll (tray ch : Nat) : Nat := tray * 2 ^ 6 + ch * 2 ^ 5 + 31

/-- The code for every leaf of a chain that is a member of the cell's parcel (R104). -/
def dstMembers (tray ch : Nat) : Nat := tray * 2 ^ 6 + ch * 2 ^ 5 + 30

/-- The upstream side that a position fixes (R25). -/
def sideOfPos (p : Nat) : Side := if p ≤ 8 then .west else .east

/-- The other side. -/
def otherSide : Side → Side
  | .west => .east
  | .east => .west

/-- The direction of what leaves on a side (R92): a leaf's west side sends westbound, the tray's eastbound. -/
def dirOut (tray : Bool) (sd : Side) : Dir :=
  match tray, sd with
  | true, .west => .eastbound
  | true, .east => .westbound
  | false, .west => .westbound
  | false, .east => .eastbound

/-- The side on which traffic of a direction arrives. -/
def sideIn (tray : Bool) (d : Dir) : Side :=
  match tray, d with
  | true, .eastbound => .east
  | true, .westbound => .west
  | false, .eastbound => .west
  | false, .westbound => .east

/-- 0 for eastbound, 1 for westbound: the number of the operational list of a direction (R129). -/
def dirNo : Dir → Nat
  | .eastbound => 0
  | .westbound => 1

/-! ### Sending (R105, R110) -/

/-- Cells that a message still needs. -/
def TxMsg.cellsLeft (m : TxMsg) : Nat := ceilDiv (m.bytes.length - m.sent) 112

/-- ALARM cells that wait on a chain. -/
def alarmWaiting (c : ChainSt) : Nat := (c.txq.filter (fun m => m.cls == 1)).foldl (fun n m => n + m.cellsLeft) 0

/-- Add to a count of a chain; Landing, numbered 2 where it takes the part of a chain (R502), has none of these counts. -/
def chInc (r : Nat → Loc) (ch n : Nat) (s : State) : State := if ch < 2 then s.inc (r ch) n else s

/-- Queue a message on chain `ch`; an ALARM beyond the queue of 64 cells is discarded and counted (R110). -/
def sendMsg (ch : Nat) (m : TxMsg) (s : State) : State :=
  let c := s.chain ch
  if m.cls = 1 ∧ 64 < alarmWaiting c + m.cellsLeft then chInc CHN_ALARM_DROP ch m.cellsLeft s
  else s.setChain ch { c with txq := c.txq ++ [m] }

/-- A message of a type, with its CRC-32C, to a destination on chain `ch` (R103, R105). -/
def sendTyped (ch type dst parcel : Nat) (body : List Byte) (s : State) : State :=
  sendMsg ch { cls := cellClassOf type, type := type, dst := dst, parcel := parcel, epoch := 0, auth := false,
               degraded := false, retx := false, bytes := withCrc body, sent := 0 } s

/-- The chain a leaf's traffic takes is its own, numbered 0 in its registers; a tray build picks by the station. -/
def chainOf (s : State) (st : Nat) : Nat := if s.isTray then stChain st else 0

/-- A message to the tray build of a leaf (R104), or on a tray build to a station of its chains. -/
def sendTo (type st parcel : Nat) (body : List Byte) (s : State) : State := sendTyped (chainOf s st) type st parcel body s

/-- A message to every leaf of a chain (R104). -/
def sendAll (ch type parcel : Nat) (body : List Byte) (s : State) : State :=
  sendTyped ch type (dstAll (stTray s.station) ch) parcel body s

/-- A message from a leaf to its tray build (R104). -/
def sendUp (type parcel : Nat) (body : List Byte) (s : State) : State :=
  sendTyped 0 type (stTrayStation s.station) parcel body s

/-- The next cell of a queued message, numbered `seq`. -/
def TxMsg.next (m : TxMsg) (src seq : Nat) : Cell :=
  { type := m.type, cls := m.cls, first := m.sent == 0, last := decide (m.bytes.length ≤ m.sent + 112),
    degraded := m.degraded, retx := m.retx, auth := m.auth, src := src, dst := m.dst, parcel := m.parcel,
    epoch := if cellHasEpoch m.type then m.epoch else 0, seq := seq, data := slice m.bytes m.sent 112 }

/-- BULK messages of a queue. -/
def bulkIn (q : List TxMsg) : Nat := (q.filter (fun m => m.cls == 5)).length

/-- BULK messages that wait on a chain. -/
def bulkWaiting (c : ChainSt) : Nat := bulkIn c.txq

/-- The queue after one cell of the first message of class `cls` has left. -/
def txqAdvance (cls : Nat) : List TxMsg → List TxMsg
  | [] => []
  | m :: q =>
    if m.cls = cls then (if m.bytes.length ≤ m.sent + 112 then q else { m with sent := m.sent + 112 } :: q)
    else m :: txqAdvance cls q

/-- The lowest-numbered class that `permit` allows and for which a cell is ready (R110). -/
def readyClass (permit : Nat → Bool) (q : List TxMsg) : Option Nat :=
  [1, 2, 3, 4, 5].find? (fun k => permit k && q.any (fun m => m.cls == k))

/-! ### Receiving (R105, R106) -/

/-- Key of a sequence count: a source and a class. -/
def seqKey (src cls : Nat) : Nat := src * 8 + cls

/-- What the sequence check finds: the cells missing before this one (R106). -/
inductive SeqCheck where
  | inOrder
  | gap (n : Nat)
  | resync
  deriving DecidableEq, Repr

/-- The check of one number against the one expected (R106); a source not heard before is taken as it comes. -/
def seqCheck (expected : Option Nat) (got : Nat) : SeqCheck :=
  match expected with
  | none => .inOrder
  | some e =>
    let g := (got + 65536 - e % 65536) % 65536
    if g = 0 then .inOrder else if g ≤ 32767 then .gap g else .resync

/-- Count what the check found, and expect the next number (R106). -/
def seqNote (ch : Nat) (c : Cell) (s : State) : SeqCheck × State :=
  let k := seqKey c.src c.cls
  let r := seqCheck (Tbl.get? (s.chain ch).rxSeq k) c.seq
  let s1 :=
    match r with
    | .inOrder => s
    | .gap n => if ch < 2 then (s.inc (CHN_LOST ch) n).evt (CHN_EVT ch) 1 else s
    | .resync => chInc CHN_SEQ_RESYNC ch 1 s
  let cs := s1.chain ch
  (r, s1.setChain ch { cs with rxSeq := Tbl.set cs.rxSeq k ((c.seq + 1) % 65536) })

/-- The message under assembly from a source in a class, if any. -/
def asmFind (l : List RxMsg) (src cls : Nat) : Option RxMsg := l.find? (fun m => m.src == src && m.cls == cls)

/-- The list without the message under assembly from a source in a class. -/
def asmDrop (l : List RxMsg) (src cls : Nat) : List RxMsg := l.filter (fun m => !(m.src == src && m.cls == cls))

/-- Add a cell to the message of its source and class. Answers the message where the cell completes one that is
whole; one with a cell missing or a CRC mismatch is discarded and counted (R105). -/
def assemble (ch : Nat) (c : Cell) (lostBefore : Bool) (s : State) : Option RxMsg × State :=
  let cs := s.chain ch
  let old := asmFind cs.asm c.src c.cls
  let rest := asmDrop cs.asm c.src c.cls
  -- a FIRST while a message is unfinished ends that one as lost
  let s0 := if c.first ∧ old.isSome = true then chInc CHN_MSG_LOST ch 1 s else s
  let start : RxMsg :=
    { src := c.src, cls := c.cls, type := c.type, parcel := c.parcel, epoch := c.epoch, degraded := c.degraded,
      bytes := [], broken := !c.first }
  let base : RxMsg := if c.first then start else (old.map (fun m => { m with broken := m.broken || lostBefore })).getD start
  let m : RxMsg := { base with bytes := base.bytes ++ c.data, degraded := base.degraded || c.degraded }
  let cs0 := s0.chain ch
  if c.last then
    let s1 := s0.setChain ch { cs0 with asm := rest }
    if m.broken = false ∧ crcOk m.bytes = true then (some { m with bytes := m.bytes.take (m.bytes.length - 4) }, s1)
    else (none, chInc CHN_MSG_LOST ch 1 s1)
  else (none, s0.setChain ch { cs0 with asm := m :: rest })

/-! ### BULK recovery (R107) -/

/-- The run of received BULK cells of a source from number `seq` to the one that carries LAST. -/
def bulkRun (cells : List BulkCell) (src : Nat) : Nat → Nat → Option (List BulkCell)
  | 0, _ => none
  | n + 1, seq =>
    match cells.find? (fun b => b.src == src && b.seq == seq) with
    | none => none
    | some b => if b.last then some [b] else (bulkRun cells src n ((seq + 1) % 65536)).map (fun r => b :: r)

/-- Deliver the first whole BULK message of a source, if its cells have all come (R107). -/
def bulkTake (ch src : Nat) (s : State) : Option RxMsg × State :=
  let cs := s.chain ch
  match (cs.bulkRx.filter (fun b => b.src == src && b.first)).findSome?
      (fun b => bulkRun cs.bulkRx src cs.bulkRx.length b.seq) with
  | none => (none, s)
  | some run =>
    let bytes := run.flatMap (·.bytes)
    let s1 := s.setChain ch { cs with bulkRx := cs.bulkRx.filter (fun b => !(run.contains b)) }
    let parcel := (run.head?.map (·.parcel)).getD 0
    if crcOk bytes then
      (some { src := src, cls := 5, type := 5, parcel := parcel, epoch := 0, degraded := false,
              bytes := bytes.take (bytes.length - 4), broken := false }, s1)
    else (none, chInc CHN_MSG_LOST ch 1 s1)

/-- The places of a gap that have not come. -/
def BulkGap.missing (g : BulkGap) : List Nat := (List.range g.count).filter (fun i => !g.got.contains i)

/-- The place of a number in a gap of its source, if it lies in it. -/
def BulkGap.place (g : BulkGap) (src seq : Nat) : Option Nat :=
  let i := (seq + 65536 - g.first) % 65536
  if g.src = src ∧ i < g.count then some i else none

/-- Ask a source for missing BULK cells (R107): requests of at most 64 numbers each. -/
def sendBulkReq (ch dst first count : Nat) (s : State) : State :=
  s.each (List.range (ceilDiv count 64)) (fun i t =>
    sendTyped ch 6 dst 0 (leBytes 2 ((first + 64 * i) % 65536) ++ leBytes 2 (min (count - 64 * i) 64)) t)

/-- Ask for a gap, from the first number that misses to the last, in a cycle (R107). -/
def askGap (ch cyc : Nat) (g : BulkGap) (s : State) : State :=
  let c := s.chain ch
  match g.missing with
  | [] => s.setChain ch { c with gaps := c.gaps.filter (· != g) }
  | i :: is =>
    sendBulkReq ch g.src ((g.first + i) % 65536) ((is.getLastD i) + 1 - i)
      (s.setChain ch { c with gaps := c.gaps.map (fun x => if x = g then { g with asked := g.asked + 1, cyc := cyc } else x) })

/-- The numbers of the cells held that belong to the message a gap cuts in front of it, from number `seq` down. -/
def bulkBefore (cells : List BulkCell) (src : Nat) : Nat → Nat → List Nat
  | 0, _ => []
  | n + 1, seq =>
    match cells.find? (fun b => b.src == src && b.seq == seq) with
    | none => []
    | some b => if b.last then [] else seq :: (if b.first then [] else bulkBefore cells src n ((seq + 65535) % 65536))

/-- The numbers of the cells held that belong to the message a gap cuts behind it, from number `seq` up. -/
def bulkAfter (cells : List BulkCell) (src : Nat) : Nat → Nat → List Nat
  | 0, _ => []
  | n + 1, seq =>
    match cells.find? (fun b => b.src == src && b.seq == seq) with
    | none => []
    | some b => if b.first then [] else seq :: (if b.last then [] else bulkAfter cells src n ((seq + 1) % 65536))

/-- A gap is given up (R107): what it leaves of a message is discarded, and counted. -/
def dropGap (ch : Nat) (g : BulkGap) (s : State) : State :=
  let c := s.chain ch
  let n := c.bulkRx.length
  let inside := (List.range g.count).map (fun i => (g.first + i) % 65536)
  let lost := inside ++ bulkBefore c.bulkRx g.src n ((g.first + 65535) % 65536) ++
    bulkAfter c.bulkRx g.src n ((g.first + g.count) % 65536)
  chInc CHN_MSG_LOST ch 1 (s.setChain ch { c with
    gaps := c.gaps.filter (· != g), bulkRx := c.bulkRx.filter (fun b => !(b.src == g.src && lost.contains b.seq)) })

/-- Cycles after which a gap still open is asked for again, or given up after the third time. DESIGN CHOICE (log 104). -/
def gapCycles : Nat := 16

/-- Open gaps in a cycle: asked for again, at most three times in all, then given up (R107). -/
def bulkRetry (ch cyc : Nat) (s : State) : State :=
  s.each ((s.chain ch).gaps.filter (fun g => decide (g.cyc + gapCycles ≤ cyc))) (fun g t =>
    if 3 ≤ g.asked then dropGap ch g t else askGap ch cyc g t)

/-- Take in a BULK cell, and ask for those missing before it (R107). -/
def bulkCell (ch cyc : Nat) (c : Cell) (chk : SeqCheck) (s : State) : Option RxMsg × State :=
  let cs := s.chain ch
  let b : BulkCell := { src := c.src, seq := c.seq, parcel := c.parcel, first := c.first, last := c.last, bytes := c.data }
  let s1 := s.setChain ch { cs with bulkRx := cs.bulkRx.filter (fun x => !(x.src == c.src && x.seq == c.seq)) ++ [b] }
  let s2 :=
    match chk with
    | .gap n =>
      let g : BulkGap := { src := c.src, first := (c.seq + 65536 - n) % 65536, count := n, got := [], asked := 0, cyc := cyc }
      let cs1 := s1.chain ch
      askGap ch cyc g (s1.setChain ch { cs1 with gaps := cs1.gaps ++ [g] })
    | _ => s1
  bulkTake ch c.src s2

/-- A resent BULK cell (RETX): it fills a hole without moving the count expected (R107). One that no gap misses is dropped. -/
def bulkResent (ch : Nat) (c : Cell) (s : State) : Option RxMsg × State :=
  let cs := s.chain ch
  if cs.gaps.any (fun g => (g.place c.src c.seq).any (fun i => !g.got.contains i)) then
    let b : BulkCell := { src := c.src, seq := c.seq, parcel := c.parcel, first := c.first, last := c.last, bytes := c.data }
    let gaps := cs.gaps.map (fun g => match g.place c.src c.seq with
      | some i => { g with got := g.got ++ [i] }
      | none => g)
    bulkTake ch c.src (s.setChain ch { cs with
      bulkRx := cs.bulkRx ++ [b], gaps := gaps.filter (fun g => !g.missing.isEmpty) })
  else (none, s)

end Sys2Proof.Machine
end

