-- ==== Sys2Proof/Machine/Logbook.lean ====
section
/-! DEFINITION. The Logbook (R472 to R481): the event queue, the writes of units, histograms and extremes, and the
messages of LOG_SEND. -/

namespace Sys2Proof.Machine

/-! ### Events and rates (R476 to R478) -/

/-- The order of events that arrive at one edge, by the unit that a kind is of (R477): the fault collector, Witness, Transit, Plumb,
Pilot; the Logbook's own come last (log 136). -/
def eventRank (kind : Nat) : Nat :=
  if 0x10 ≤ kind ∧ kind < 0x20 then 0
  else if 0x20 ≤ kind ∧ kind < 0x30 then 1
  else if 0x30 ≤ kind ∧ kind < 0x40 then 2
  else if 0x40 ≤ kind ∧ kind < 0x50 then 3
  else if 0x50 ≤ kind then 4
  else 5

/-- An event in its place in the queue: in order of arrival, those of one edge in the order of their units (R477). -/
def eventInsert (e : LogEvent) : List LogEvent → List LogEvent
  | [] => [e]
  | x :: xs => if x.since = e.since ∧ eventRank e.kind < eventRank x.kind then e :: x :: xs else x :: eventInsert e xs

/-- An event of a unit enters the Logbook's queue of 16 entries; the one that then stands beyond them is dropped (R477, R478). -/
def logEvent (kind : Nat) (data : List Byte) (s : State) : State :=
  let e : LogEvent := { kind := kind, since := s.dat.edges, time := if s.getB DAT_STATE 4 then s.now else 0, data := padTo 32 data }
  let q := eventInsert e s.log.queue
  let s1 : State := { s with log := { s.log with queue := q.take 16 } }
  if 16 < q.length then (s1.inc LOG_QDROP 1).evt LOG_EVT 2 else s1

/-- One occurrence of a RATE event, by its SOURCE number (R476). -/
def rateNote (source : Nat) (s : State) : State :=
  { s with log := { s.log with rates := Tbl.set s.log.rates source ((Tbl.get? s.log.rates source).getD 0 + 1) } }

/-! ### Units (R473 to R475) -/

/-- A unit as it stands; one not listed is zero. -/
def State.logUnit (s : State) (u : Nat) : List Byte := (Tbl.get? s.log.units u).getD (zeros 64)

/-- Put a unit; only units that are not all zero are listed. -/
def putUnit (u : Nat) (bs : List Byte) (s : State) : State :=
  { s with log := { s.log with units := Tbl.put (zeros 64) s.log.units u bs } }

/-- One write of a unit: the count goes up by one, and VALID stands at its end (R473, R474). It takes 2 µs, after those before it: until
then ZY_PORST_N may cut it short. -/
def writeUnit (u sect part index : Nat) (body : List Byte) (s : State) : State :=
  let seq := (leAt (s.logUnit u) 0 4 + 1) % 2 ^ 31
  let live := s.log.writes.filter (fun w => decide (s.dat.edges < w.ends))
  let w : UnitWrite := { unit := u, old := s.logUnit u, ends := (live.getLast?.elim s.dat.edges (·.ends)) + 2500 }
  putUnit u
    (leBytes 4 (2 ^ 31 + seq) ++ leBytes 4 (index % 65536 + part * 2 ^ 24 + sect * 2 ^ 28) ++
      leBytes 4 (s.rd PLM_OPTIME) ++ leBytes 3 (s.getF PLM_CYCLES 0 24) ++ [0#8] ++ padTo 48 body)
    { s with log := { s.log with writes := live ++ [w] } }

/-- A unit while its write is under way (R474): the count with VALID 0, before what it held, or what it is to hold. -/
def unitHalf (new old : List Byte) (written : Bool) : List Byte :=
  leBytes 4 (leAt new 0 4 % 2 ^ 31) ++ (if written then new else old).drop 4

/-- A unit as it stands at a read (R474, R479): a write that waits has not begun, one under way has taken its first step. -/
def State.unitShown (s : State) (u : Nat) : List Byte :=
  let ws := s.log.writes.filter (fun w => w.unit == u && decide (s.dat.edges < w.ends))
  ws.foldr (fun w new => if s.dat.edges + 2500 < w.ends then w.old else unitHalf new w.old false) (s.logUnit u)

/-- ZY_PORST_N cuts the writes of units short (R474), the latest first: those that wait have not begun; of the one under way it is free
whether bytes 4 to 63 are written. -/
def logCut (s : State) : State :=
  let s1 := s.each s.log.writes.reverse (fun w t =>
    if t.dat.edges < w.ends then
      (if t.dat.edges + 2500 < w.ends then putUnit w.unit w.old t
       else
         let d := t.draw
         putUnit w.unit (unitHalf (t.logUnit w.unit) w.old (d.1.toNat % 2 == 1)) d.2)
    else t)
  { s1 with log := { s1.log with writes := [] } }

/-- NEXT, the next event slot (R475). -/
def State.logNext (s : State) : Nat := s.getF LOG_STATUS 0 14

/-- Whether the event section is full (R477). -/
def State.logFull (s : State) : Bool := s.getB LOG_STATUS 31

/-- Write the identity unit (R475). -/
def writeIdentity (s : State) : State :=
  writeUnit 0 0 0 0
    (leBytes 2 s.logNext ++ leBytes 2 (b2n s.logFull) ++ leBytes 4 s.log.dropped ++ leBytes 4 s.log.torn ++
      leBytes 4 s.log.clears) s

/-- Write one event into slot NEXT, or drop it while FULL (R477, R478). -/
def writeEvent (e : LogEvent) (s : State) : State :=
  if s.logFull then
    writeIdentity (({ s with log := { s.log with dropped := s.log.dropped + 1 } }).inc LOG_DROPPED 1)
  else
    let n := s.logNext
    let s1 := writeUnit (8192 + n) 3 0 n (leBytes 2 e.kind ++ zeros 2 ++ timeBytes e.time ++ e.data) s
    let s2 := (s1.setF LOG_STATUS 0 14 (n + 1)).evt LOG_EVT 0
    writeIdentity (if n = 8191 then (s2.putB LOG_STATUS 31 true).evt LOG_EVT 1 else s2)

/-- The oldest event of the queue is written (R477). -/
def logEventWrite (s : State) : State :=
  match s.log.queue with
  | [] => s
  | e :: es => writeEvent e { s with log := { s.log with queue := es } }

/-! ### Histograms and extremes (R475, R476) -/

/-- The bytes of bins `b … b + n - 1`. -/
def binBytes (h : LogHist) (b n : Nat) : List Byte :=
  (List.range n).flatMap (fun i => leBytes 4 ((Tbl.get? h.bins (b + i)).getD 0))

/-- Write the seven units of histogram `h` (R475). -/
def writeHist (h : Nat) (x : LogHist) (s : State) : State :=
  let s0 := writeUnit (16 + 7 * h) 1 0 h
    (leBytes 1 x.kind ++ leBytes 1 x.source ++ leBytes 1 x.shift ++ zeros 1 ++ leBytes 4 x.lo ++ leBytes 8 x.total) s
  let s1 := s0.each (List.range 5) (fun p t => writeUnit (17 + 7 * h + p) 1 (p + 1) h (binBytes x (12 * p) 12) t)
  writeUnit (22 + 7 * h) 1 6 h (binBytes x 60 4) s1

/-- Write the extremes unit of channel `c` (R475). -/
def writeExt (c : Nat) (x : LogExt) (s : State) : State :=
  writeUnit (464 + c) 2 0 c
    (leBytes 2 x.hi ++ leBytes 2 x.lo ++ leBytes 4 x.hiOp ++ leBytes 4 x.hiCyc ++ leBytes 4 x.loOp ++ leBytes 3 x.loCyc) s

/-- Write every defined histogram and every extremes unit that holds something (R476). -/
def writeAccum (s : State) : State :=
  let s1 := s.each s.log.hist (fun e t => writeHist e.1 e.2 t)
  s1.each s1.log.ext (fun e t => writeExt e.1 e.2 t)

/-- v of a Plumb channel (R469). -/
def State.plmValue (s : State) (c : Nat) : Nat := s.getF (PLM_CH_FILT c) 8 16

/-- One sample enters a histogram (R476). -/
def LogHist.sample (h : LogHist) (x : Nat) : LogHist :=
  let b := if x < h.lo then 0 else min 63 ((x - h.lo) / 2 ^ h.shift)
  { h with total := satNat 64 (h.total + 1)
           bins := Tbl.set h.bins b (satNat 32 ((Tbl.get? h.bins b).getD 0 + 1)) }

/-- The extremes of a channel before its first value (R475). -/
def extClear : LogExt := { hi := 0, lo := 0xFFFF, hiOp := 0, hiCyc := 0, loOp := 0, loCyc := 0 }

/-- Extremes follow a value of a channel (R476). -/
def extNote (c v : Nat) (s : State) : State :=
  let x := (Tbl.get? s.log.ext c).getD extClear
  let op := s.rd PLM_OPTIME
  let cy := s.getF PLM_CYCLES 0 24
  let x1 := if x.hi < v then { x with hi := v, hiOp := op, hiCyc := cy } else x
  let x2 := if v < x1.lo then { x1 with lo := v, loOp := op, loCyc := cy } else x1
  { s with log := { s.log with ext := Tbl.set s.log.ext c x2 } }

/-- A tick of life (R472, R476): OPTIME advances, each defined histogram takes one sample, and the units are written. -/
def lifeTick (s : State) : State :=
  let s1 := s.wr PLM_OPTIME (min (s.rd PLM_OPTIME + 1) (2 ^ 32 - 1))
  let take (h : LogHist) : LogHist :=
    if h.kind = 1 then h.sample (s1.plmValue h.source) else h.sample ((Tbl.get? s1.log.rates h.source).getD 0)
  let s2 := { s1 with log := { s1.log with hist := s1.log.hist.map (fun e => (e.1, take e.2)), rates := [] } }
  writeAccum (writeIdentity s2)

/-! ### After power-on (R472, R474) -/

/-- Histogram `h` as its units hold it, if they define it. -/
def loadHist (s : State) (h : Nat) : Option (Nat × LogHist) :=
  let u := s.logUnit (16 + 7 * h)
  let k := leAt u 16 1
  if k = 1 ∨ k = 2 then
    let word (b : Nat) : Nat := leAt (s.logUnit (17 + 7 * h + b / 12)) (16 + 4 * (b % 12)) 4
    some (h, { kind := k, source := leAt u 17 1, shift := leAt u 18 1 % 32, lo := leAt u 20 4, total := leAt u 24 8,
               bins := (List.range 64).filterMap (fun b => if word b = 0 then none else some (b, word b)) })
  else none

/-- The extremes of channel `c` as its unit holds them, if it was ever written. -/
def loadExt (s : State) (c : Nat) : Option (Nat × LogExt) :=
  let u := s.logUnit (464 + c)
  if leAt u 0 4 = 0 then none
  else
    some (c, { hi := leAt u 16 2, lo := leAt u 18 2, hiOp := leAt u 20 4, hiCyc := leAt u 24 3, loOp := leAt u 28 4,
               loCyc := leAt u 32 3 })

/-- Whether a unit of the first three sections was cut short (R474). -/
def unitTorn (u : Nat) (bs : List Byte) : Bool :=
  decide (u < 8192) && decide (leAt bs 0 4 < 2 ^ 31) && leAt bs 0 4 != 0

/-- What the identity unit holds comes back at a release of ZY_PORST_N (R472, R475, R515); a unit never written leaves all as it is. -/
def loadIdentity (s : State) : State :=
  let u := s.logUnit 0
  if leAt u 0 4 = 0 then s
  else
    let s1 := (s.wr PLM_OPTIME (leAt u 8 4)).setF PLM_CYCLES 0 24 (leAt u 12 3)
    let s2 := (s1.setF LOG_STATUS 0 14 (leAt u 16 2)).putB LOG_STATUS 31 (bit (leAt u 18 1) 0)
    { s2 with log := { s2.log with dropped := leAt u 20 4, torn := leAt u 24 4, clears := leAt u 28 4 } }

/-- What the Logbook does at a release of ZY_PORST_N: torn units are completed and counted, the counts held in MRAM come back, CYCLES
goes up by one, and POWER_ON is written (R472, R474, R475). -/
def logPowerOn (s : State) : State :=
  let torn := (s.log.units.filter (fun e => unitTorn e.1 e.2)).map (·.1)
  let s0 := loadIdentity (s.each torn (fun u t => putUnit u (leBytes 4 (leAt (t.logUnit u) 0 4 + 2 ^ 31) ++ (t.logUnit u).drop 4) t))
  let s1 := s0.each torn (fun u t =>
    let t2 : State := { t with log := { t.log with torn := t.log.torn + 1 } }
    logEvent 2 (leBytes 2 u) ((t2.inc LOG_TORN 1).evt LOG_EVT 3))
  let s2 := { s1 with log := { s1.log with hist := (List.range 64).filterMap (loadHist s1)
                                           ext := (List.range 16).filterMap (loadExt s1), rates := [] } }
  let op := s2.rd PLM_OPTIME
  let s3 := s2.wr PLM_CYCLES (min (s2.rd PLM_CYCLES + 1) (2 ^ 24 - 1))
  writeIdentity (logEvent 1 (leBytes 4 op) s3)

/-! ### The commands' own parts (R480, R481) -/

/-- LOG_CLEAR of the sections of a mask (R478, R481). -/
def logClear (mask : Nat) (s : State) : State :=
  if mask = 0 then s
  else
    let s0 := { s with log := { s.log with clears := s.log.clears + 1 } }
    let s1 :=
      if bit mask 1 then
        let cleared (e : Nat × LogHist) : Nat × LogHist := (e.1, { e.2 with total := 0, bins := [] })
        let t := { s0 with log := { s0.log with hist := s0.log.hist.map cleared } }
        t.each t.log.hist (fun e u => writeHist e.1 e.2 u)
      else s0
    let s2 :=
      if bit mask 2 then
        let t := { s1 with log := { s1.log with ext := (List.range 16).map (fun c => (c, extClear)) } }
        t.each t.log.ext (fun e u => writeExt e.1 e.2 u)
      else s1
    let ev : LogEvent :=
      { kind := 3, since := s.dat.edges, time := if s.getB DAT_STATE 4 then s.now else 0, data := padTo 32 (leBytes 1 mask) }
    if bit mask 0 then
      let t := { s2 with log := { s2.log with units := s2.log.units.filter (fun e => decide (e.1 < 8192)) } }
      writeEvent ev ((t.setF LOG_STATUS 0 14 0).putB LOG_STATUS 31 false)
    else logEvent 3 (leBytes 1 mask) (writeIdentity s2)

/-- Whether a histogram's definition is refused (R476, R481). -/
def histBad (kind source : Nat) : Bool :=
  kind == 3 || (kind == 1 && decide (15 < source)) || (kind == 2 && (source == 0 || decide (0xB < source)))

/-- Define, clear or undefine one histogram (R481). -/
def histSet (h w lo : Nat) (s : State) : State :=
  let x : LogHist := { kind := fld w 0 2, source := fld w 8 8, shift := fld w 16 5, lo := lo, total := 0, bins := [] }
  let s1 := { s with log := { s.log with hist := if x.kind = 0 then Tbl.erase s.log.hist h else Tbl.set s.log.hist h x } }
  writeHist h x s1

/-- The messages of LOG_SEND: units by their first number and count (R480). -/
def logChunks : Nat → Nat → Nat → List (Nat × Nat)
  | 0, _, _ => []
  | k + 1, first, n => if n = 0 then [] else (first, min n 1024) :: logChunks k (first + 1024) (n - 1024)

/-- One message of LOG_SEND (R480). -/
def logMessage (first n : Nat) (s : State) : List Byte :=
  leBytes 1 2 ++ zeros 3 ++ leBytes 4 first ++ leBytes 4 n ++ (List.range n).flatMap (fun i => s.logUnit (first + i))

/-- LOG_SEND's messages go to the tray build as BULK (R480). -/
def logSend (first n : Nat) (s : State) : State :=
  s.each (logChunks 33 first n) (fun c t => sendUp 5 0 (logMessage c.1 c.2 t) t)

end Sys2Proof.Machine
end

