-- ==== Sys2Proof/Machine/Faults.lean ====
section
/-! DEFINITION. The fault collector (R440 to R461), the die stop (R533), injections (R453) and crossing timeouts (R455 to
R457). -/

namespace Sys2Proof.Machine

/-! ### The compute tier as the collector sees it (R42, R442) -/

/-- PLM_POWER.STATE: 0 ACTIVE, 1 DOZE, 2 SLEEP (R483). -/
def State.powerState (s : State) : Nat := s.getF PLM_POWER 0 2

/-- Whether the compute tier is powered off, or held in reset by ZY_CRST_N. -/
def State.computeOff (s : State) : Bool := s.powerState == 2 || s.pins.crst

/-- Whether the compute tier is in ACTIVE. -/
def State.computeActive (s : State) : Bool := s.powerState == 0 && !s.pins.crst

/-- Do something in another unit before the step ends. -/
def State.later (t : Todo) (s : State) : State := { s with todo := s.todo ++ [t] }

/-! ### Sources (R442, R443) -/

/-- Whether a source belongs to a unit of the compute tier (R442). -/
def fltCompute (n : Nat) : Bool := (decide (13 ≤ n) && decide (n ≤ 19)) || (decide (32 ≤ n) && decide (n ≤ 34))

/-- The sources of the compute tier as a mask. -/
def fltComputeMask : Nat := 0x7000FE000

/-- The unit of a source, where FENCE_UNIT or QUIESCE may act on it (R442, R447). -/
def fltUnit (n : Nat) : Option FltUnit :=
  if n = 14 then some .tally else if n = 15 ∨ n = 16 then some .cadastre else if n = 17 then some .wake
  else if n = 19 then some .stow else if n = 34 then some .transit else none

/-- The sources of a unit. -/
def fltSources : FltUnit → List Nat
  | .tally => [14]
  | .cadastre => [15, 16]
  | .transit => [34]
  | .wake => [17]
  | .stow => [19]

/-- Actions permitted for a source, a bit for each (R442). -/
def fltPermitted (n : Nat) : Nat :=
  if n = 14 then 0xE
  else if n = 15 ∨ n = 16 ∨ n = 17 ∨ n = 19 ∨ n = 34 then 0xF
  else if n = 0 ∨ n = 1 ∨ n = 4 ∨ n = 6 ∨ n = 7 ∨ n = 9 ∨ n = 18 ∨ n = 35 then 6 else 2

/-- State of a source: 0 IDLE, 1 GRACE, 2 ESCALATED (R460). -/
def State.fltState (s : State) (n : Nat) : Nat := s.getF (FLT_SRC_STATE n) 30 2

/-- Whether a source is latched under R441. -/
def State.fltWire (s : State) (n : Nat) : Bool := bit (s.rd FLT_WIRE) n

/-- Class of a source; F while it is latched under R441. -/
def State.fltClass (s : State) (n : Nat) : Nat := if s.fltWire n then 2 else s.getF (FLT_SRC_CFG n) 30 2

/-- Action of a source; PIN while it is latched under R441. -/
def State.fltAction (s : State) (n : Nat) : Nat := if s.fltWire n then 1 else s.getF (FLT_SRC_CFG n) 28 2

/-- Whether a unit is held in reset by QUIESCE. -/
def State.quiesced (s : State) (u : FltUnit) : Bool := s.flt.quiesced.contains u

/-- Whether a source's line can be seen asserted: not of a unit in reset, nor of a compute tier that is off (R442, R447). -/
def State.lineLive (s : State) (n : Nat) : Bool :=
  !(fltCompute n && s.computeOff) && (match fltUnit n with | some u => !s.quiesced u | none => true)

/-- Level of a line (R440, R457). -/
def State.fltLine (s : State) (n : Nat) : Bool := (bit s.flt.lines n || bit s.flt.stuck n) && fltExists s.build n && s.lineLive n

/-- Whether a unit is fenced by an action FENCE_UNIT (R446, R447). -/
def State.fenced (s : State) (u : FltUnit) : Bool :=
  (fltSources u).any (fun n => s.fltState n == 2 && (Tbl.get? s.flt.escalated n).any (fun e => e.2 == 0))

/-! ### Die stop (R446, R533) -/

/-- Whether any request for DIE_STOP stands: a slot that is FIRED, a rule in FIRED with the STOP action, the collector's. -/
def State.stopWanted (s : State) : Bool :=
  (List.range 4).any (fun m => s.getB (DAT_STOP_CTL m) 1) ||
    (List.range 32).any (fun r => s.getF (PLM_RULE_STATE r) 30 2 == 2 && s.getB (PLM_RULE_CFG0 r) 23) ||
    s.getB FLT_STATE 2

/-- DIE_STOP rises with a request; it falls only at DIE_STOP_RELEASE (R533). -/
def dieStopUpdate (s : State) : State :=
  if s.stopWanted ∧ s.dat.dieStop = false then
    ({ s with dat := { s.dat with dieStop := true, dieRise := s.dat.edges } }).later .dieStop
  else s

/-- A line falls. -/
def lineFall (n : Nat) (s : State) : State := { s with flt := { s.flt with lines := clrBit s.flt.lines n } }

/-- DIE_STOP falls where no request stands, 1 µs after it rose at the soonest (R533). -/
def dieStopRelease (s : State) : State :=
  if s.dat.dieStop = true ∧ s.stopWanted = false ∧ s.dat.dieRise + 1250 ≤ s.dat.edges then lineFall 11 { s with dat := { s.dat with dieStop := false } } else s

/-- The host moves DIE_STOP_ACK (R533). -/
def dieStopAck (level : Bool) (s : State) : State :=
  let s1 := { s with dat := { s.dat with dieAck := level } }
  if level then lineFall 11 s1 else s1

/-! ### Escalation, recovery, outputs (R444 to R451) -/

/-- FLT_STATE follows the sources: N_ESC, STOP_REQ, ERR_DRIVEN and the pad's level (R446, R450, R460). -/
def fltApply (s : State) : State :=
  let n := s.flt.escalated.length
  let stop := s.flt.escalated.any (fun e => e.2.2 == 2)
  let drive := s.flt.escalated.any (fun e => e.2.2 == 1 || e.2.1 == 2)
  dieStopUpdate
    ((((s.setF FLT_STATE 8 8 n).putB FLT_STATE 2 stop).putB FLT_STATE 1 drive).putB FLT_STATE 3 (!drive))

/-- Put a source's state. -/
def setFltState (n st : Nat) (s : State) : State := s.setF (FLT_SRC_STATE n) 30 2 st

/-- Set or clear a source's bit in FLT_STATUS. -/
def putStatus (n : Nat) (b : Bool) (s : State) : State :=
  if n < 32 then s.putB FLT_STATUS n b else s.putB FLT_STATUS_HI (n - 32) b

/-- The quiet timer restarts (R451). -/
def quietRestart (s : State) : State := { s with flt := { s.flt with quietFrom := s.dat.edges } }

/-- A source escalates: its action is applied, the block is DEGRADED, FLT_ESC is written, epochs in progress carry
STOPPED (R445, R446). -/
def escalate (n : Nat) (s : State) : State :=
  let c := s.fltClass n
  let a := s.fltAction n
  let s1 := setFltState n 2
    { s with flt := { s.flt with escalated := Tbl.set s.flt.escalated n (c, a), graceEnd := Tbl.erase s.flt.graceEnd n } }
  let s2 := rateNote 3 ((((if s1.getB FLT_STATE 0 then s1 else quietRestart s1).putB FLT_STATE 0 true).evt FLT_EVT 1).inc
    FLT_ESCALATIONS 1)
  let s3 := (logEvent 0x10 [BitVec.ofNat 8 n, BitVec.ofNat 8 c, BitVec.ofNat 8 a] s2).later .stopped
  let s4 :=
    match fltUnit n with
    | some u =>
      if a = 0 then s3.later (.fence u)
      else if a = 3 then
        ({ s3 with flt := { s3.flt with quiesced := if s3.flt.quiesced.contains u then s3.flt.quiesced
                                                    else s3.flt.quiesced ++ [u] } }).later (.quiesce u)
      else s3
    | none => s3
  fltApply s4

/-- A source latches (R444). -/
def latchFault (n : Nat) (s : State) : State :=
  rateNote 2 (((putStatus n true (quietRestart s)).inc (FLT_SRC_COUNT n) 1).evt FLT_EVT 0)

/-- A rising edge of a source's line, as the collector sees it (R443, R444). -/
def faultEdge (n : Nat) (s : State) : State :=
  if fltExists s.build n = false ∨ s.lineLive n = false then s
  else if s.fltClass n = 0 then rateNote 1 ((s.inc (FLT_SRC_COUNT n) 1).inc FLT_CORRECTED 1)
  else if s.fltState n = 1 then s
  else if s.fltState n = 2 then (quietRestart s).inc (FLT_SRC_COUNT n) 1
  else if s.fltClass n = 1 then
    let e := s.dat.edges + s.getF (FLT_SRC_CFG n) 0 20 * 1250
    let s1 := setFltState n 1 (latchFault n s)
    { s1 with flt := { s1.flt with graceEnd := Tbl.set s1.flt.graceEnd n e } }
  else escalate n (latchFault n s)

/-- The crossing that carries a line into BASE_CLK has completed again: no line that it carries is marked asserted any longer (R457). -/
def crossingDone (n : Nat) (s : State) : State :=
  { s with flt := { s.flt with stuck := s.flt.stuck &&& (2 ^ 64 - 1 - (if fltCompute n then fltComputeMask else 2 ^ n)) } }

/-- A row's line event: a pulse of one cycle, or a line that stays asserted. It comes through its crossing, which has then completed
again (R440, R457), and through a pair that is valid (R441). On a line that stood asserted, or whose pair was invalid, a level that
does not stay is its return to healthy, and no edge. -/
def faultLine (n : Nat) (held : Bool) (s : State) : State :=
  if fltExists s.build n = false then s
  else
    let was := bit s.flt.lines n || bit s.flt.stuck n || (bit s.flt.badPairs n && !held)
    let s0 := crossingDone n s
    let s1 := { s0 with flt := { s0.flt with lines := setFld s0.flt.lines n 1 (b2n held), badPairs := setFld s0.flt.badPairs n 1 0 } }
    if was then s1 else faultEdge n s1

/-- A true and complement pair agrees for 3 cycles (R441); a leaf has single lines. `lasting` tells that it goes on
agreeing. -/
def pairInvalid (n : Nat) (lasting : Bool) (s : State) : State :=
  if s.isTray = false ∨ 64 ≤ n then s
  else
    let s1 := { s with flt := { s.flt with badPairs := setFld s.flt.badPairs n 1 (b2n lasting) } }
    let s2 := (s1.wr FLT_WIRE (setBit (s1.rd FLT_WIRE) n)).evt FLT_EVT 2
    let s3 := logEvent 0x12 [BitVec.ofNat 8 n] ((s2.putB (FLT_SRC_STATE n) 28 true))
    if s3.fltState n = 2 then
      let s4 := (quietRestart s3).inc (FLT_SRC_COUNT n) 1
      fltApply { s4 with flt := { s4.flt with escalated := Tbl.set s4.flt.escalated n (2, 1) } }
    else if s3.fltState n = 1 then escalate n s3
    else escalate n (latchFault n s3)

/-- Whether a source's grace timer has run out (R443). -/
def State.graceOver (s : State) (n : Nat) : Bool := decide ((Tbl.get? s.flt.graceEnd n).getD 0 ≤ s.dat.edges)

/-- A grace timer ends (R444). -/
def graceExpiry (n : Nat) (s : State) : State := if s.fltState n = 1 ∧ s.graceOver n = true then escalate n s else s

/-- A source returns to IDLE: its action is withdrawn and its bits clear (R444, R448, R449). -/
def withdraw (n : Nat) (s : State) : State :=
  let s1 := { s with flt := { s.flt with escalated := Tbl.erase s.flt.escalated n, graceEnd := Tbl.erase s.flt.graceEnd n } }
  let s2 := (putStatus n false (setFltState n 0 s1)).putB (FLT_SRC_STATE n) 28 false
  let s3 := s2.wr FLT_WIRE (clrBit (s2.rd FLT_WIRE) n)
  fltApply (if n = 7 then s3.wr CDC_TMO_FIRST 0 else s3)

/-- Whether the block may leave DEGRADED by itself (R451). -/
def State.quietOk (s : State) : Bool :=
  s.getB FLT_STATE 0 && decide (s.flt.quietFrom + s.getF FLT_CTL 16 16 * 1250000 ≤ s.dat.edges) && (List.range 64).all (fun n => !(s.fltLine n || bit s.flt.badPairs n)) &&
    s.flt.escalated.all (fun e => e.2.1 != 2) && s.rd FLT_WIRE == 0

/-- The quiet timer ends: the block leaves DEGRADED and every source of class D in ESCALATED recovers (R451). -/
def quietExpiry (s : State) : State :=
  if s.quietOk then
    let ns := Tbl.keys s.flt.escalated
    let mask := ns.foldl (fun m n => setBit m n) 0
    let s1 := (s.each ns withdraw).putB FLT_STATE 0 false
    logEvent 0x11 (leBytes 8 mask) ((s1.inc FLT_RECOVERIES 1).evt FLT_EVT 3)
  else s

/-! ### Crossings (R455 to R457, R520) -/

/-- The lines that a crossing carries into BASE_CLK (R457, R527). -/
def crossingLines (x : Nat) : Nat :=
  if x = 0x81 ∨ x = 0xE2 then fltComputeMask else if x = 0xE3 then 2 ^ 12 else 0

/-- How a crossing passes what it carries (R527). -/
inductive CrossKind where
  | handshake | fifo | event
  deriving DecidableEq, Repr

/-- The crossings of a build, by number (R527). -/
def crossKind (b : Build) (x : Nat) : Option CrossKind :=
  let leaf := b == .leaf
  if x < 0x40 then (if leaf then some .handshake else none)
  else if x < 0x80 then (if leaf then some .fifo else none)
  else if x < 0x83 then some .fifo
  else if 0x90 ≤ x ∧ x < 0xA0 then (if leaf && decide (0x98 ≤ x) then none else some .fifo)
  else if x = 0xA0 ∨ x = 0xA1 ∨ x = 0xA3 then some .handshake
  else if x = 0xA2 then (if leaf then some .fifo else none)
  else if 0xB0 ≤ x ∧ x < 0xBC then (if leaf then none else some .fifo)
  else if 0xC0 ≤ x ∧ x < 0xC2 then (if leaf then none else some .fifo)
  else if 0xD0 ≤ x ∧ x < 0xD8 then some .fifo
  else if 0xE0 ≤ x ∧ x < 0xE5 then some .event
  else none

/-- A timeout is counted and recorded and raises its source (R455 to R457); the lines that the crossing carries are marked asserted,
which is an edge of each that was not. -/
def cdcTimed (x : Nat) (s : State) : State :=
  let v := 2 ^ 31 + x % 1024
  let s1 := ((s.inc CDC_TMO_COUNT 1).wr CDC_TMO_LAST v).evt FLT_EVT 4
  let s2 := if s1.getB CDC_TMO_FIRST 31 then s1 else s1.wr CDC_TMO_FIRST v
  let rise := (List.range 64).filter (fun n => bit (crossingLines x) n && !(s2.fltLine n))
  let s3 : State := faultEdge 7 { s2 with flt := { s2.flt with stuck := s2.flt.stuck ||| crossingLines x } }
  s3.each rise faultEdge

/-- A crossing of the build has waited 65,536 cycles; the side that began a handshake completes with zero data and no effect (R455). -/
def cdcTimeout (x : Nat) (s : State) : State :=
  match crossKind s.build x with
  | none => s
  | some .handshake => (cdcTimed x s).emit (.crossed x 0)
  | some _ => cdcTimed x s

/-! ### Injection (R453) -/

/-- The source an injected error raises at the read of its word (R453). -/
def injectSource (target bits : Nat) : Nat :=
  if target = 2 then 15
  else if bits = 1 then (if target = 0 then 5 else 13)
  else if target = 0 then 6 else if target = 1 then 14 else if target = 3 then 16 else if target = 4 then 17
  else if target = 5 then 19 else 34

/-- What a unit held under a key is gone, spoilt or not: other data take its place. -/
def memGone (target key : Nat) (s : State) : State :=
  { s with flt := { s.flt with inject := s.flt.inject.filter (fun i => !(i.target == target && i.written && i.key == key)) } }

/-- A unit writes what it holds under a key in its memory: an injection into any word takes hold there, one into a stated word where
the write falls on it, which the spec's layouts leave open. -/
def memWritten (target key : Nat) (s : State) : State :=
  match s.flt.inject.find? (fun i => i.target == target && !i.written) with
  | none => s
  | some i =>
    let (v, s1) := if i.any then (1#64, s) else s.draw
    if v.toNat % 2 = 1 then
      ({ s1 with flt := { s1.flt with inject := s1.flt.inject.map (fun x => if x = i then { x with written := true, key := key } else x) } }).evt
        FLT_EVT 5
    else s1

/-- A unit reads what it holds under a key in its memory: an injected error that stands there is met and raises its source (R453). -/
def memReadBack (target key : Nat) (s : State) : State :=
  match s.flt.inject.find? (fun i => i.target == target && i.written && i.key == key) with
  | none => s
  | some i => faultEdge (injectSource target i.bits) { s with flt := { s.flt with inject := s.flt.inject.erase i } }

/-! ### The commands' own parts (R449, R453, R454, R458) -/

/-- FLT_SET's check of one pair: 0 accepted, else a status of R458. -/
def fltPairBad (b : Build) (off v : Nat) : Bool :=
  if off = 4 then fld v 2 14 != 0 || fld v 16 16 == 0
  else if 0x100 ≤ off ∧ off < 0x500 ∧ off % 16 = 0 then
    let n := (off - 0x100) / 16
    !(fltExists b n) || fld v 20 8 != 0 || fld v 30 2 == 3 || fld v 28 2 == 3 || !(bit (fltPermitted n) (fld v 28 2)) ||
      fld v 0 20 == 0 || decide (1000000 < fld v 0 20)
  else true

/-- Write one pair of FLT_SET; of FLT_CTL only QUIET (R454, R458). -/
def fltPut (off v : Nat) (s : State) : State :=
  if off = 4 then s.setF FLT_CTL 16 16 (fld v 16 16) else s.wr (FLT_SRC_CFG ((off - 0x100) / 16)) v

/-- Whether FLT_CLEAR clears a source that is not IDLE (R449). -/
def State.clearable (s : State) (authority n : Nat) : Bool :=
  !(s.fltLine n || bit s.flt.badPairs n) &&
    !(decide (authority < 2) && (s.fltWire n || (Tbl.get? s.flt.escalated n).any (fun e => e.1 == 2) || s.fltClass n == 2))

/-- The sources of a mask as a 64-bit value. -/
def maskOf (ns : List Nat) : Nat := ns.foldl (fun m n => setBit m n) 0

/-- FLT_CLEAR (R449, R451): what was cleared, what was not, and the state after. -/
def fltClear (authority mask : Nat) (s : State) : Nat × Nat × State :=
  let named := (setBits 64 mask).filter (fun n => s.fltState n != 0)
  let yes := named.filter (s.clearable authority)
  let no := named.filter (fun n => !(s.clearable authority n))
  let s1 := s.each yes withdraw
  let s2 := if yes ≠ [] ∧ s1.flt.escalated = [] then s1.putB FLT_STATE 0 false else s1
  (maskOf yes, maskOf no, s2)

/-- Whether FLT_INJECT is refused with BAD_PARAM (R454, R458). -/
def injectBad (s : State) (target bits dur : Nat) : Bool :=
  target == 7 || decide (11 < target) || (target == 6 && !s.isTray) ||
    (decide (target ≤ 6) && !(bits == 1 || bits == 2)) || (decide (8 ≤ target) && !(s.getB FLT_CTL 1)) ||
    (target == 9 && dur == 0)

/-- An injection (R453). A corrupted key is one of no stated value. -/
def inject (target bits : Nat) (any : Bool) (slot addr dur : Nat) (s : State) : State :=
  let s1 := logEvent 0x13 (leBytes 1 target ++ leBytes 1 bits ++ zeros 6 ++ leBytes 8 addr) (s.inc FLT_INJECTED 1)
  if target ≤ 6 then
    let i : Injection := { target := target, bits := bits, any := any, addr := addr, written := false, key := 0 }
    { s1 with flt := { s1.flt with inject := s1.flt.inject ++ [i] } }
  else if target = 8 then { s1 with flt := { s1.flt with badTime := true } }
  else if target = 9 then ({ s1 with flt := { s1.flt with errUntil := s1.dat.edges + dur * 1250 } }).evt FLT_EVT 5
  else if target = 10 then
    match Tbl.get? s1.pil.keys slot with
    | none => s1.evt FLT_EVT 5
    | some k =>
      let (v, s2) := s1.draw
      ({ s2 with pil := { s2.pil with keys := Tbl.set s2.pil.keys slot (leBytes 8 v.toNat ++ k.drop 8) } }).evt FLT_EVT 5
  else { s1 with flt := { s1.flt with badTag := true } }

end Sys2Proof.Machine
end

