-- ==== Sys2Proof/Machine/Admission.lean ====
section
/-! DEFINITION. The power admission unit (R432 to R435): asking for leave, grants, refusals and releases. -/

namespace Sys2Proof.Machine

/-- H: the total of the grants held, in units of 0.5 W (R433). -/
def State.leaveHeld (s : State) : Nat := s.adm.held.foldl (fun n h => n + h.amt) 0

/-- The request that stands on the signals, and LEAVE_AMT beside it: H + A from the time the request is presented, whatever
is released while it stands (R433). -/
def State.leaveShown (s : State) : Option (Nat × Nat) :=
  match s.adm.queue, s.adm.shown with
  | [], _ => none
  | r :: _, some x => if x.1 = r.id then some x else some (r.id, s.leaveHeld + r.amt)
  | r :: _, none => some (r.id, s.leaveHeld + r.amt)

/-- The level of LEAVE_GNT: high where it grants in this cycle, low where a request stands that it does not grant, and otherwise of
the surroundings' choosing (R433, R439; log 133). -/
def State.gntLevel (s : State) : Bool := s.adm.gntAt == some s.dat.edges || (s.adm.queue.isEmpty && Config.leaveGnt s.dat.edges)

/-- PWR_STATE and the signals follow the request presented and the grants held (R433, R439). -/
def admApply (s0 : State) : State :=
  let s : State := { s0 with adm := { s0.adm with shown := s0.leaveShown } }
  match s.adm.queue with
  | [] => s.wr PWR_STATE (s.leaveHeld % 256)
  | r :: _ => s.wr PWR_STATE (s.leaveHeld % 256 + r.amt % 256 * 2 ^ 8 + 2 ^ 16)

/-- A refusal is counted, and its operation learns of it, and whether it had waited (R433 to R435). -/
def refuseLeave (p : LeaveFor) (waited : Bool) (s : State) : State :=
  ((s.inc PWR_REFUSED 1).evt PWR_EVT 0).later (.leaveRefused p waited)

/-- Requests with H + A above 255 are refused at once, wherever they stand, and the first of the others is put on the signals (R434). -/
def admPresent (s : State) : State :=
  let beyond := s.adm.queue.filter (fun r => decide (255 < s.leaveHeld + r.amt))
  let s1 : State := { s with adm := { s.adm with queue := s.adm.queue.filter (fun r => decide (s.leaveHeld + r.amt ≤ 255)) } }
  admApply (s1.each beyond (fun r t => refuseLeave r.purpose (decide (r.since < t.dat.edges)) (t.evt PWR_EVT 1)))

/-- A request in its place in the queue: in order of arrival, requests of one cycle in the order of their units (R434). -/
def leaveInsert (r : LeaveReq) : List LeaveReq → List LeaveReq
  | [] => [r]
  | x :: xs => if x.since = r.since ∧ r.unit < x.unit then r :: x :: xs else x :: leaveInsert r xs

/-- An operation asks for leave (R432 to R434). -/
def askLeave (unit cls amt : Nat) (p : LeaveFor) (s : State) : State :=
  let r : LeaveReq := { id := s.adm.nextId, unit := unit, cls := cls, amt := amt, purpose := p, since := s.dat.edges }
  let s1 : State := ({ s with adm := { s.adm with queue := leaveInsert r s.adm.queue, nextId := s.adm.nextId + 1 } } : State).inc PWR_REQS 1
  admPresent s1

/-- LEAVE_GNT is sampled high: the request on the signals is granted (R433). -/
def leaveGrant (s : State) : State :=
  match s.adm.queue with
  | [] => s
  | r :: rs =>
    let s1 := { s with adm := { s.adm with
      queue := rs, held := s.adm.held ++ [(⟨r.purpose, r.amt, r.since⟩ : LeaveHeld)], gntAt := some s.dat.edges } }
    let s2 := s1.maxR PWR_WAIT_MAX ((s.dat.edges - r.since) / 1250)
    (admPresent s2).later (.leaveGranted r.purpose)

/-- Whether a request's wait ends with that of the oldest one: it was made in the same cycle, or PWR_WAIT has passed since (R434). -/
def State.waitOver (s : State) (old r : LeaveReq) : Bool :=
  r.since == old.since || decide (r.since + s.getF PWR_CTL 0 16 * 1250 ≤ s.dat.edges)

/-- The wait of the oldest request ends without a grant; one whose wait ends with it in the queue never reaches the signals (R433,
R434). -/
def leaveExpiry (s : State) : State :=
  match s.adm.queue with
  | [] => s
  | r :: rs =>
    let s1 : State := { s with adm := { s.adm with queue := rs.filter (fun x => !(s.waitOver r x)) } }
    admPresent ((refuseLeave r.purpose true s1).each (rs.filter (s.waitOver r)) (fun x t => refuseLeave x.purpose true t))

/-- Whether an operation holds leave. -/
def State.hasLeave (s : State) (p : LeaveFor) : Bool := s.adm.held.any (fun h => h.purpose == p)

/-- Whether the grant that an operation holds came only after a wait. -/
def State.leaveWaited (s : State) (p : LeaveFor) : Bool := s.adm.held.any (fun h => h.purpose == p && decide (h.since < s.dat.edges))

/-- Whether an operation's request waits. -/
def State.asksLeave (s : State) (p : LeaveFor) : Bool := s.adm.queue.any (fun r => r.purpose == p)

/-- An operation completes or is abandoned: its grant is released whole, its request withdrawn (R435). -/
def releaseLeave (p : LeaveFor) (s : State) : State :=
  let s1 := { s with adm := { s.adm with held := s.adm.held.filter (fun h => h.purpose != p),
                                         queue := s.adm.queue.filter (fun r => r.purpose != p) } }
  admPresent s1

/-- The class and amount a register of the form of WAK_PWR holds. -/
def State.pwrClass (s : State) (l : Loc) : Nat := s.getF l 8 3

/-- The amount, in units of 0.5 W. -/
def State.pwrAmt (s : State) (l : Loc) : Nat := s.getF l 0 8

/-! ### Transfers of the block's own (R45, R432)

DESIGN CHOICE (log 129): one above the threshold waits as a whole until its leave comes; refused after a wait it asks again, refused
at once (H + A above 255) it is discarded, as a write that fails is (R541). -/

/-- The ring or store whose order a transfer keeps (R373, R499). -/
def OwnMove.ring : OwnMove → Nat
  | .series _ => 0
  | .excerpt _ => 1
  | .pack _ _ => 2
  | .keep _ _ _ _ => 3
  | .resend _ _ => 4

/-- Whether a hold-port transfer of some bytes is longer than PWR_HOLD_CFG.THR (R432). -/
def State.holdLong (s : State) (n : Nat) : Bool := s.isTray && decide (s.getF PWR_HOLD_CFG 16 16 * 1024 < n)

/-- Whether a transfer of the block's own must wait: it is long, or an earlier one of its ring waits. -/
def State.ownWaits (s : State) (m : OwnMove) (n : Nat) : Bool := s.holdLong n || (decide (m.ring < 2) && s.adm.own.any (fun w => w.move.ring == m.ring))

/-- A transfer of the block's own waits; a long one asks for leave. -/
def ownAsk (m : OwnMove) (n : Nat) (s : State) : State :=
  if s.adm.own.any (fun w => w.move == m && m.ring == 2) then s
  else
    let w : OwnWait := { id := s.adm.nextId, asks := s.holdLong n, move := m }
    let s1 : State := { s with adm := { s.adm with own := s.adm.own ++ [w], nextId := s.adm.nextId + 1 } }
    if w.asks then askLeave 5 (s1.pwrClass PWR_HOLD_CFG) (s1.pwrAmt PWR_HOLD_CFG) (.own w.id) s1 else s1

/-- Take the transfers out that may go now: the one of a number, and those of its ring that waited for it alone. -/
def ownTake (id : Nat) (s : State) : List OwnMove × State :=
  match s.adm.own.find? (fun w => w.id == id) with
  | none => ([], s)
  | some w =>
    let rest := s.adm.own.filter (fun x => x.id != id)
    let more := if w.move.ring < 2 then (rest.filter (fun x => x.move.ring == w.move.ring)).takeWhile (fun x => !x.asks) else []
    (w.move :: more.map (·.move), { s with adm := { s.adm with own := rest.filter (fun x => !(more.contains x)) } })

end Sys2Proof.Machine
end

