-- ==== Sys2Proof/Machine/Berths.lean ====
section
/-! DEFINITION. Berths (R484 to R488): pools, the allocation of buffers, and their release. -/

namespace Sys2Proof.Machine

/-- Key of buffer `n` of pool `p` in the table of buffers in use. -/
def brtKey (p n : Nat) : Nat := p * 65536 + n

/-- Free buffers of a pool. -/
def State.brtFree (s : State) (p : Nat) : Nat :=
  poolCount s.build p - (s.brt.filter (fun e => e.1 / 65536 == p)).length

/-- RESV_p (R487, R513). -/
def State.brtResv (s : State) (p : Nat) : Nat := s.getF BRT_CTL (8 * p) 8

/-- Put BRT_POOL_p_FREE, and the fewest free since the last read (R513). -/
def brtApply (p : Nat) (s : State) : State :=
  let n := s.brtFree p
  let s1 := s.wr (BRT_POOL_FREE p) n
  if n < s1.rd (BRT_POOL_MIN p) then s1.wr (BRT_POOL_MIN p) n else s1

/-- Whether the reserve of pool `p` keeps a request out, and whether the pool can serve it (R487). -/
def brtCanServe (urgent : Bool) (p : Nat) (s : State) : Bool :=
  decide (0 < s.brtFree p) && (urgent || decide (s.brtResv p ≤ s.brtFree p - 1))

/-- Whether a pool with a free buffer refuses a request for its reserve (R487). -/
def brtResvHit (urgent : Bool) (p : Nat) (s : State) : Bool :=
  decide (0 < s.brtFree p) && !urgent && decide (s.brtFree p - 1 < s.brtResv p)

/-- The pools a request of a size tries, smallest first (R485). -/
def brtPools (size : Nat) : List Nat := (List.range 4).filter (fun p => decide (size ≤ poolSize p))

/-- Take the lowest-numbered free buffer of a pool. -/
def brtTake (p size : Nat) (s : State) : Option (Nat × Nat) × State :=
  match (List.range (poolCount s.build p)).find? (fun n => (Tbl.get? s.brt (brtKey p n)).isNone) with
  | none => (none, s)
  | some n => (some (p, n), brtApply p { s with brt := Tbl.set s.brt (brtKey p n) size })

/-- One request of 1 to 16,384 bytes (R485, R487). -/
def brtServe (urgent : Bool) (size : Nat) (s : State) : Option (Nat × Nat) × State :=
  let ps := brtPools size
  let first := ps.headD 0
  let served := ps.find? (fun p => brtCanServe urgent p s)
  let tried := ps.takeWhile (fun p => !(brtCanServe urgent p s))
  let s0 := if tried.any (fun p => brtResvHit urgent p s) then s.evt BRT_EVT 2 else s
  match served with
  | none => (none, (s0.inc BRT_NOSPACE 1).evt BRT_EVT 1)
  | some p =>
    let s1 := if p = first then s0 else (s0.inc (BRT_POOL_UPSIZE first) 1).evt BRT_EVT 0
    brtTake p size s1

/-- A buffer is freed (R488). -/
def brtRelease (p n : Nat) (s : State) : State := brtApply p { s with brt := Tbl.erase s.brt (brtKey p n) }

/-- The parts in which a request is served (R486). -/
def brtParts (size : Nat) : List Nat :=
  if size ≤ 16384 then [size]
  else List.replicate (size / 16384) 16384 ++ (if size % 16384 = 0 then [] else [size % 16384])

/-- Serve parts in turn; the buffers taken, in reverse, and whether one part failed. -/
def brtServeAll (urgent : Bool) : List Nat → List (Nat × Nat) → State → List (Nat × Nat) × Bool × State
  | [], got, s => (got, false, s)
  | z :: zs, got, s =>
    match brtServe urgent z s with
    | (some b, s1) => brtServeAll urgent zs (b :: got) s1
    | (none, s1) => (got, true, s1)

/-- A whole request (R485 to R487): the buffers in order, or none, every buffer taken for it freed again. -/
def brtRequest (urgent : Bool) (size : Nat) (s : State) : Option (List (Nat × Nat)) × State :=
  if size = 0 then (some [], s)
  else
    match brtServeAll urgent (brtParts size) [] s with
    | (got, false, s1) => (some got.reverse, s1)
    | (got, true, s1) => (none, s1.each got (fun b t => brtRelease b.1 b.2 t))

/-- The place of a kind in the order in which requests of one cycle are taken (R485). -/
def brtRank : BrtKind → Nat
  | .alarm => 0 | .ruling => 1 | .closure => 2 | .series => 3 | .bulk => 4 | .pilot => 5 | .epoch => 6 | .witness => 7 | .stow => 8

/-- Whether a request may take the reserved buffers (R487). -/
def brtUrgent (k : BrtKind) : Bool := decide (brtRank k ≤ 2)

/-- The waiting request that is taken next: the first of the lowest rank (R485). -/
def brtPick : List BrtReq → Option BrtReq
  | [] => none
  | r :: rs =>
    match brtPick rs with
    | some x => if brtRank x.kind < brtRank r.kind then some x else some r
    | none => some r

/-- Buffers are written, and one is read as it is freed (R453). -/
def brtWritten (bufs : List (Nat × Nat)) (s : State) : State := s.each bufs (fun b t => memWritten 0 (brtKey b.1 b.2) (memGone 0 (brtKey b.1 b.2) t))

/-- One cycle of Berths: of the requests that wait one is served, then buffers that their holders gave up in it are freed (R485,
R488). A request for no byte is none. -/
def brtCycle (reqs : List BrtReq) (freed : List (Nat × Nat)) (s : State) : State :=
  let waits := s.brtWait ++ reqs.filter (fun r => r.size != 0)
  let s1 : State := match brtPick waits with
    | none => s
    | some r =>
      let (bufs, t) := brtRequest (brtUrgent r.kind) r.size { s with brtWait := waits.erase r }
      brtWritten (bufs.getD []) t
  s1.each freed (fun b t => memReadBack 0 (brtKey b.1 b.2) (brtRelease b.1 b.2 t))

/-- BERTH_SET's check (R512): no RESV_p above a quarter of its pool. -/
def berthSetBad (b : Build) (v : Nat) : Bool := (List.range 4).any (fun p => decide (poolCount b p < 4 * fld v (8 * p) 8))

end Sys2Proof.Machine
end

