-- ==== Sys2Proof/Machine/DatumCore.lean ====
section
/-! DEFINITION. Datum's clock and servo (R56 to R67, R80 to R84): what a measurement, a load or step, and a passed
event do. -/

namespace Sys2Proof.Machine

/-! ### The clock (R58, R59) -/

/-- The clamp of the adjustment, in units of 2⁻³² ns per cycle (R59). -/
def fadjMax : Int := 1717987

/-- An adjustment clamped to ±500 ppm (R59). -/
def clampAdj (z : Int) : Int := if z > fadjMax then fadjMax else if z < -fadjMax then -fadjMax else z

/-- The effective increment per DAT_CLK edge (R58). -/
def State.effInc (s : State) : Int := (s.rd DAT_INC : Nat) + toInt 32 (s.rd DAT_FADJ)

/-- A clock moved by a signed number of units, SEC wrapping (R58). -/
def clockAdd (t : Nat) (d : Int) : Nat := (((t : Int) + d) % (clockMod : Nat)).toNat

/-- Pulse outputs that are high fall where `low` holds of them and of the edge that ends them (R80). -/
def pulseFall (low : Nat → Nat → Bool) (s : State) : State :=
  let down := s.dat.pulseOut.filter (fun e => low e.1 e.2)
  { s with dat := { s.dat with pulseOut := s.dat.pulseOut.filter (fun e => !low e.1 e.2) },
           out := s.out ++ down.map (fun e => .pulse e.1 false) }

/-- One DAT_CLK edge (R58): the clock advances, and pulses that have been high for their WIDTH fall (R80). -/
def clockEdge (s : State) : State :=
  pulseFall (fun _ e => decide (e ≤ s.dat.edges + 1))
    { s with dat := { s.dat with clock := clockAdd s.dat.clock s.effInc, edges := s.dat.edges + 1 } }

/-- The difference of two times taken modulo the clock's range, as a signed number of clock units. -/
def timeDiff (a b : Nat) : Int :=
  let d := (a + clockMod - b % clockMod) % clockMod
  if d < clockMod / 2 then (d : Nat) else (d : Int) - (clockMod : Nat)

/-! ### Servo state (R62 to R66, R91) -/

/-- DAT_STATE.STATE: 0 FREE_RUN, 1 ACQUIRE, 2 LOCKED, 3 HOLDOVER. -/
def State.datState (s : State) : Nat := s.getF DAT_STATE 0 3

/-- DAT_STATE.VALID. -/
def State.datValid (s : State) : Bool := s.getB DAT_STATE 4

/-- DAT_CTL.REF. -/
def State.datRef (s : State) : Nat := s.getF DAT_CTL 1 2

/-- Whether the tray build is held LOCKED as grandmaster by R64. -/
def State.gmHeld (s : State) : Bool := s.isTray && s.dat.role.role == 2 && s.datRef == 3

/-- Whether the station's time makes an epoch DEGRADED (R66). -/
def State.timeBad (s : State) : Bool := s.datState == 0 || (s.datState == 1 && s.dat.acqValid)

/-- Epochs in progress carry DEGRADED where the station's time is bad at this instant (R66). -/
def timeMark (s : State) : State := if s.timeBad then s.later .timeBad else s

/-! ### Pulses (R80) -/

/-- START of a pulse output. -/
def State.pulseStart (s : State) (n : Nat) : Nat := s.rdTime (DAT_PLS_SUB n) (DAT_PLS_SEC n)

/-- The next edge time of output `n` not yet raised, if one remains (R80). -/
def State.pulseNextTime (s : State) (n : Nat) : Option Nat :=
  let k := (Tbl.get? s.dat.pulseNext n).getD 0
  let per := s.rd (DAT_PLS_PER n)
  if per = 0 then (if k = 0 then some (s.pulseStart n) else none) else some (s.pulseStart n + nsU (k * per))

/-- Whether output `n` may rise: enabled, and not gated while Datum is neither LOCKED nor in HOLDOVER (R80). -/
def State.pulseLive (s : State) (n : Nat) : Bool :=
  s.getB (DAT_PLS_CTL n) 31 && !(s.getB (DAT_PLS_CTL n) 30 && !(s.datState == 2 || s.datState == 3))

/-- Outputs that may not be high are driven low (R80). -/
def pulseHold (s : State) : State := pulseFall (fun n _ => !s.pulseLive n) s

/-- The next programmed edge of output `n` falls due: it rises and stays high for WIDTH edges, or is skipped while held low
(R80). -/
def pulseEdge (n : Nat) (s : State) : State :=
  match s.pulseNextTime n with
  | none => s
  | some _ =>
    let k := (Tbl.get? s.dat.pulseNext n).getD 0
    let s1 := { s with dat := { s.dat with pulseNext := Tbl.set s.dat.pulseNext n (k + 1) } }
    if s.pulseLive n then
      ({ s1 with dat := { s1.dat with
          pulseOut := Tbl.set s1.dat.pulseOut n (s1.dat.edges + s.getF (DAT_PLS_CTL n) 0 16) } } : State).emit (.pulse n true)
    else s1

/-! ### Entering a state -/

/-- Enter a servo state. An entry to ACQUIRE remembers VALID (R66) and starts the lock count; an entry to LOCKED starts
the unlock count and sets DAT_EVT.LOCKED. A gated pulse output is held low outside LOCKED and HOLDOVER (R80). -/
def setDatState (n : Nat) (s : State) : State :=
  let old := s.datState
  let s1 := s.setF DAT_STATE 0 3 n
  let s2 :=
    if n = 1 ∧ old ≠ 1 then { s1 with dat := { s1.dat with acqValid := s1.datValid, lockCnt := 0 } }
    else if n = 2 ∧ old ≠ 2 then ({ s1 with dat := { s1.dat with unlockCnt := 0 } }).evt DAT_EVT 0
    else s1
  timeMark (pulseHold s2)

/-- Put I and P, and the adjustment they give (R61); the clamp that acts sets DAT_EVT.CLAMP (R59). -/
def putServo (i p : Int) (s : State) : State :=
  let i' := clampAdj i
  let f := clampAdj (i' + p)
  let s1 := ({ s with dat := { s.dat with integ := i', prop := p } }).wr DAT_FADJ (ofInt 32 f)
  if i' = i ∧ f = i' + p then s1 else s1.evt DAT_EVT 4

/-- P := 0, I kept (R62). -/
def dropProp (s : State) : State := putServo s.dat.integ 0 s

/-- The shifts of the reference in use: KP and KI (R61). -/
def State.gains (s : State) : Nat × Nat :=
  if s.datRef = 0 then (s.getF DAT_GAIN 0 8, s.getF DAT_GAIN 8 8) else (s.getF DAT_GAIN 16 8, s.getF DAT_GAIN 24 8)

/-- One servo step on an offset in units of 2⁻¹⁶ ns (R61). -/
def servoStep (o : Int) (s : State) : State :=
  let o32 := o * 65536
  putServo (s.dat.integ + o32 / (2 ^ s.gains.2 : Nat)) (o32 / (2 ^ s.gains.1 : Nat)) s

/-- Move the clock by an offset in units of 2⁻¹⁶ ns and count a load or step (R62, R90). A forward move leaves the timed
events passed to be raised one per edge (R84); a beat taken at the edge after this one carries a STEP mark (R86). -/
def clockJump (o : Int) (s : State) : State :=
  let s1 := { s with dat := { s.dat with clock := clockAdd s.dat.clock (o * 65536), stepMark := some (s.dat.edges + 1),
                                         catchUp := s.dat.catchUp || decide (0 < o) } }
  (rateNote 6 ((s1.inc DAT_STEPS 1).evt DAT_EVT 3)).later .clockStep

/-- A measurement handled in ACQUIRE (R62); the rows are tested in the order of the table. DEDUCED (log 31): "servo per R61 at the
clamp" of the TIME_FAR row is R61 itself, whose result the clamp bounds. -/
def measureAcquire (o : Int) (s : State) : State :=
  let a := o.natAbs
  let stepThr := s.rd DAT_STEP_THR * 65536
  let stepMax := s.rd DAT_STEP_MAX * 65536
  let far := if stepMax = 0 then decide (stepThr < a) else decide (stepMax < a)
  if s.datValid = false then
    let s1 := putServo 0 0 ((clockJump o s).putB DAT_STATE 4 true)
    timeMark { s1 with dat := { s1.dat with lockCnt := 0 } }
  else if stepThr < a ∧ a ≤ stepMax then
    let s1 := dropProp (clockJump o s)
    { s1 with dat := { s1.dat with lockCnt := 0 } }
  else if far then
    let s1 := faultEdge 0 (servoStep o s)
    { s1 with dat := { s1.dat with lockCnt := 0 } }
  else
    let n := if a ≤ s.getF DAT_THR 0 16 * 4096 then s.dat.lockCnt + 1 else 0
    let s1 := servoStep o s
    let s2 := { s1 with dat := { s1.dat with lockCnt := n } }
    if s.getF DAT_COUNT 0 8 ≤ n then setDatState 2 s2 else s2

/-- A valid measurement of the selected reference (R62). -/
def measure (o : Int) (s : State) : State :=
  let s0 := s.wr DAT_OFFSET (ofInt 64 (toInt 48 (ofInt 48 o)))
  if s0.getB DAT_CTL 0 = false ∨ s0.gmHeld = true then s0
  else if s0.datState = 2 then
    let n := if s0.getF DAT_THR 16 16 * 4096 < o.natAbs then s0.dat.unlockCnt + 1 else 0
    let s1 := servoStep o s0
    let s2 := { s1 with dat := { s1.dat with unlockCnt := n } }
    if s0.getF DAT_COUNT 8 8 ≤ n then setDatState 1 (rateNote 7 (s2.evt DAT_EVT 1)) else s2
  else measureAcquire o (if s0.datState = 1 then s0 else setDatState 1 s0)

/-- REF_TMO expected measurements missed in a row (R62). -/
def refTimeout (s : State) : State :=
  if s.gmHeld then s
  else if s.datState = 2 then setDatState 3 (dropProp s)
  else if s.datState = 1 then setDatState 0 (dropProp s)
  else s

/-- HOLD_MAX elapsed in HOLDOVER (R62). -/
def holdoverExpiry (s : State) : State :=
  if s.datState = 3 then faultEdge 1 (setDatState 0 (s.evt DAT_EVT 2)) else s

/-- The last row of R62: the reference changes, the servo is disabled, or a grandmaster leaves its role. FREE_RUN entered from
HOLDOVER sets DAT_EVT.FREE_RUN (R91). -/
def refChanged (s : State) : State :=
  if s.datState = 0 then s
  else
    let s1 := (dropProp s).evt DAT_EVT 6
    if s.datState = 2 then setDatState 3 s1
    else setDatState 0 (if s.datState = 3 then s1.evt DAT_EVT 2 else s1)

/-- The tray build becomes the fleet's reference (R64). -/
def becomeGm (s : State) : State := setDatState 2 (s.putB DAT_STATE 4 true)

/-- What a change of role, reference or enable brings (R62, R64), given whether R64 held the build before. DESIGN CHOICE, where the
two rules meet (log 102): a SERVO_SET that makes REF 3 at a grandmaster takes R64 alone, and a grandmaster that R64 does not
hold loses its role without the last row of R62. -/
def roleSettled (gmBefore refOrEnChanged : Bool) (s : State) : State :=
  if s.gmHeld then (if gmBefore then s else becomeGm s)
  else if gmBefore || refOrEnChanged then refChanged s
  else s

/-! ### Stops (R83) -/

/-- An armed slot fires: it is marked FIRED and requests DIE_STOP (R83, R533). -/
def stopFire (m : Nat) (s : State) : State :=
  if m < 4 ∧ s.getB (DAT_STOP_CTL m) 0 = true ∧ s.getB (DAT_STOP_CTL m) 1 = false then
    dieStopUpdate ((s.putB (DAT_STOP_CTL m) 1 true).evt DAT_EVT 8)
  else s

/-! ### Stamps (R69, R85) -/

/-- Clock units of 1/64 ns. -/
def unit64 : Nat := 2 ^ 26

/-- A receive stamp, corrected by the PMA latency (R69). -/
def State.rxStamp (s : State) (t : Nat) : Nat := clockAdd t (-((s.getF DAT_PMA_LAT 16 16 * unit64 : Nat) : Int))

/-- A transmit stamp, corrected by the PMA latency (R69). -/
def State.txStamp (s : State) (t : Nat) : Nat := clockAdd t (s.getF DAT_PMA_LAT 0 16 * unit64 : Nat)

/-- The stamp of a beat or PPS edge: its capture edge minus 2.4 ns (R85), in the units of FRAC (R56). -/
def beatStamp (edge : Nat) : Nat := clockAdd edge (-((24 * 2 ^ 32 / 10 : Nat) : Int)) / 65536 * 65536

end Sys2Proof.Machine
end

