-- ==== Sys2Proof/Machine/LineCode.lean ====
section
/-! DEFINITION. The line code of a chain link (R96, R101): what the cells and rows that the block drives are on its lanes, block by
block, the scrambling of a lane, and the lock of a receiving lane on its sync headers. What a step drives on a link goes through it
(`State.drive`); what comes in reaches the block above it, as a command of its own (log 125). -/

namespace Sys2Proof.Machine

/-- 0 for west, 1 for east (R127). -/
def sideNo : Side → Nat
  | .west => 0
  | .east => 1

/-- Lowest bit of a side's receive fence mask in CHN_LANES; the transmit mask lies four above. -/
def lanesLo : Side → Nat
  | .west => 0
  | .east => 8

/-- Lanes of a side fenced in transmit. -/
def State.fencedTx (s : State) (ch : Nat) (sd : Side) : Nat := s.getF (CHN_LANES ch) (lanesLo sd + 4) 4

/-! ### Control blocks (R68, R96 to R98) -/

/-- An ordered-set block of an O-code, for a lane or as block of a message: sync header 0b10, type 0x4B, six bytes (R68, R98). -/
def ctlBlock (o lane : Nat) (six : List Byte) : Block :=
  BitVec.ofNat 66 (2 + 4 * leNat ([0x4B#8, BitVec.ofNat 8 (o % 16 + lane % 4 * 16)] ++ padTo 6 six))

/-- A row of ordered sets that carries 24 payload bytes (R68). -/
def rowBlocks (o : Nat) (payload : List Byte) : List Block :=
  (List.range 4).map (fun i => ctlBlock o i (slice payload (6 * i) 6))

/-- The eight bytes of a block behind its sync header. -/
def blockBytes (b : Block) : List Byte := leBytes 8 (b.toNat / 4)

/-- Whether a block is the one of an O-code and lane; the reserved bits of its byte 1 are ignored (R8, R68). -/
def blockIs (o lane : Nat) (b : Block) : Bool :=
  b.toNat % 4 == 2 && leAt (blockBytes b) 0 1 == 0x4B && leAt (blockBytes b) 1 1 % 64 == o + 16 * lane

/-- The 24 payload bytes of a row of an O-code, if it is one. -/
def rowPayload (o : Nat) (bs : List Block) : Option (List Byte) :=
  if bs.length == 4 && (List.range 4).all (fun i => blockIs o i (bs.getD i 0)) then
    some (bs.flatMap (fun b => (blockBytes b).drop 2))
  else none

/-- An idle control block: type 0x1E (R96). -/
def idleBlock : Block := BitVec.ofNat 66 (2 + 4 * 0x1E)

/-- A row of idle control blocks: type 0x1E (R96). -/
def idleRow : List Block := List.replicate 4 idleBlock

/-- The alignment row of a cycle: its blocks differ in their lane numbers alone (R98). -/
def alignRow (cyc : Nat) : List Block := (List.range 4).map (fun i => ctlBlock 0xC i (leBytes 3 (cyc % 2 ^ 24)))

/-- A lane request (R98). -/
def laneRow (mask : Nat) (fence : Bool) : List Block :=
  (List.range 4).map (fun i => ctlBlock 0xD i [BitVec.ofNat 8 (mask % 16 + b2n fence * 16)])

/-- MASK and FENCE of a lane request, if the row is one (R98). -/
def lanesOf (bs : List Block) : Option (Nat × Bool) := (rowPayload 0xD bs).map (fun p => (leAt p 0 1 % 16, bit (leAt p 0 1) 4))

/-! ### Blocks -/

/-- The sync header of a block: 0b01 of a data block, 0b10 of a control block (R96). -/
def syncOf (b : Block) : Nat := b.toNat % 4

/-- Whether a sync header is valid. -/
def syncValid (h : Nat) : Bool := h == 1 || h == 2

/-- A data block of eight bytes, the first byte lowest (R96). -/
def dataBlock (bs : List Byte) : Block := BitVec.ofNat 66 (1 + 4 * leNat (padTo 8 bs))

/-- The 16 data blocks of a cell (R96, R101). -/
def cellBlocks (bs : List Byte) : List Block := (List.range 16).map (fun i => dataBlock (slice bs (8 * i) 8))

/-- The cell of 16 data blocks; a control block or a missing one cuts it short (R101, R106). -/
def cellOfBlocks (ls : List Block) : List Byte := ((ls.take 16).takeWhile (fun b => syncOf b == 1)).flatMap blockBytes

/-! ### Striping -/

/-- Blocks over the lanes in use in turn, beginning with lane `first`: each with the lane that carries it (R96, R100, R101). -/
def stripe (lanes : List Nat) (first : Nat) (bs : List Block) : List (Nat × Block) :=
  (List.range bs.length).map (fun i => (lanes.getD (((lanes.idxOf first) + i) % lanes.length) 0, bs.getD i 0))

/-- Idle rows behind the cell of a container that fills its four rows, before the next container's first row (R93, R96): a row is 66
bits on each lane at 28.125 GBd and a container 9.6 ns, which makes 45 rows in 11 containers, and container `cont` starts with
the first row boundary at or after its time, counted from the start of its cycle at the sender. -/
def rowAt (cont : Nat) : Nat := ceilDiv (45 * cont) 11

/-- Idle rows that follow a container's four rows. -/
def idleRowsAfter (cont : Nat) : Nat := rowAt (cont + 1) - rowAt cont - 4

/-- The idle blocks behind a container on four lanes; on three, its cells follow one another (R101). -/
def idleAfter (lanes : List Nat) (cont : Nat) : List Block := if lanes.length = 4 then List.replicate (4 * idleRowsAfter cont) idleBlock else []

/-- What one thing driven on a side with these lanes in use is on them, before scrambling: a cell from its first lane on, and the
idle rows up to the next container; an empty container is idle rows alone; the four blocks of a row over the lanes in turn (R96, R97,
R101). -/
def Out.onLanes (lanes : List Nat) : Out → List (Nat × Block)
  | .cell _ _ _ cont first bs => stripe lanes first (cellBlocks bs ++ idleAfter lanes cont)
  | .relay _ _ _ cont first (some bs) => stripe lanes first (cellBlocks bs ++ idleAfter lanes cont)
  | .relay _ _ _ cont first none => stripe lanes first (List.replicate 16 idleBlock ++ idleAfter lanes cont)
  | .row _ _ _ _ k bs => stripe lanes (lanes.getD (4 * k % lanes.length) 0) bs
  | _ => []

/-! ### Scrambling -/

/-- The feedback of the scrambler 1 + x^39 + x^58 over the last 58 bits on the lane, the newest lowest (R96). -/
def scrTap (st : Nat) : Bool := xor (st.testBit 38) (st.testBit 57)

/-- The scrambler's memory after a bit on the lane. -/
def scrNext (st : Nat) (b : Bool) : Nat := (2 * st + b2n b) % 2 ^ 58

/-- Bits scrambled in the order in which they are sent, from the lane's memory on. -/
def scrambleBits : Nat → List Bool → List Bool
  | _, [] => []
  | st, b :: bs => let y := xor b (scrTap st); y :: scrambleBits (scrNext st y) bs

/-- Scrambled bits, in the order in which they came, put back; the memory holds the bits as received. -/
def descrambleBits : Nat → List Bool → List Bool
  | _, [] => []
  | st, y :: ys => xor y (scrTap st) :: descrambleBits (scrNext st y) ys

/-- The 64 bits behind a block's sync header. PRESUMED (log 125): sent lowest first, as in Clause 49. -/
def blockBits (b : Block) : List Bool := (List.range 64).map (fun i => b.toNat.testBit (i + 2))

/-! ### Lock -/

/-- A lane without lock. -/
def laneUnlocked : LaneLock := { locked := false, count := 0, invalid := 0 }

/-- A sync header comes: lock is gained with the 64th valid header in turn, and lost with the 16th invalid one of 64 (R96). -/
def laneHeader (l : LaneLock) (valid : Bool) : LaneLock :=
  if l.locked then
    let bad := l.invalid + b2n (!valid)
    if 16 ≤ bad then laneUnlocked
    else if 64 ≤ l.count + 1 then { locked := true, count := 0, invalid := 0 }
    else { locked := true, count := l.count + 1, invalid := bad }
  else if valid = false then laneUnlocked
  else if 64 ≤ l.count + 1 then { locked := true, count := 0, invalid := 0 }
  else { locked := false, count := l.count + 1, invalid := 0 }

/-- The lock of lane `lane` of a side. -/
def State.laneLock (s : State) (ch : Nat) (sd : Side) (lane : Nat) : LaneLock :=
  (Tbl.get? (s.chain ch).laneLock (4 * sideNo sd + lane)).getD laneUnlocked

/-- Lanes of a side with block lock. -/
def State.locked (s : State) (ch : Nat) (sd : Side) : Nat :=
  ((List.range 4).map (fun i => b2n (s.laneLock ch sd i).locked * 2 ^ i)).sum

/-- The headers with which a lane comes to have lock, or to have none: 64 valid ones, or 16 invalid ones of a window (R96). -/
def laneTo (want : Bool) (l : LaneLock) : LaneLock :=
  if want = l.locked then l else (List.replicate (if want then 64 else 16) want).foldl laneHeader l

/-- Put the lanes of a side with block lock. -/
def setLocked (ch : Nat) (sd : Side) (m : Nat) (s : State) : State :=
  let c := s.chain ch
  s.setChain ch { c with laneLock := (List.range 4).foldl (fun t i =>
    Tbl.put laneUnlocked t (4 * sideNo sd + i) (laneTo (bit m i) (s.laneLock ch sd i))) c.laneLock }

/-- Invalid sync headers met on a chain's lanes (R129). -/
def badHeaders (ch n : Nat) (s : State) : State :=
  let c := s.chain ch
  s.setChain ch { c with badHeads := (c.badHeads + n) % 2 ^ 32 }

/-- The transmit lanes that a side uses, in ascending order (R100). -/
def State.txUsable (s : State) (ch : Nat) (sd : Side) : List Nat := (List.range 4).filter (fun l => !bit (s.fencedTx ch sd) l)

/-- The lane on which a cell starts on a side (R96, R101): lane 0, or with a fenced lane the one that follows the last block. -/
def State.laneFor (s : State) (ch : Nat) (sd : Side) : Nat :=
  let ls := s.txUsable ch sd
  ls.getD (((Tbl.get? (s.chain ch).laneAt (sideNo sd)).getD 0) % ls.length) 0

/-! ### What is driven on a link -/

/-- The bits of a block as they are sent: its sync header as it is, the 64 bits behind it scrambled. -/
def scrambleBlock (st : Nat) (b : Block) : Nat × Block :=
  let ys := scrambleBits st (blockBits b)
  (ys.foldl scrNext st, BitVec.ofNat 66 (syncOf b + 4 * (List.range 64).foldl (fun a i => a + b2n (ys.getD i false) * 2 ^ i) 0))

/-- Blocks scrambled lane by lane, with the scramblers' memories of a side. -/
def scrambleLanes (key : Nat) : Tbl Nat → List (Nat × Block) → Tbl Nat × List (Nat × Block)
  | t, [] => (t, [])
  | t, (l, b) :: xs =>
    let r := scrambleBlock ((Tbl.get? t (key + l)).getD 0) b
    let rest := scrambleLanes key (Tbl.set t (key + l) r.1) xs
    (rest.1, (l, r.2) :: rest.2)

/-- The lanes of a side carry what is driven: striped and scrambled, from the memories that its last blocks left (R96). -/
def putLine (ch : Nat) (sd : Side) (bs : List (Nat × Block)) (s : State) : State :=
  let c := s.chain ch
  let r := scrambleLanes (4 * sideNo sd) c.scr bs
  s.setChain ch { c with scr := r.1, line := Tbl.set c.line (sideNo sd) r.2 }

/-- Drive a cell, a relayed container or a row on a side of a chain (R96, R101). -/
def State.drive (s : State) (ch : Nat) (sd : Side) (o : Out) : State := putLine ch sd (o.onLanes (s.txUsable ch sd)) (s.emit o)

/-- The 16 blocks of a cell have left on a side (R101). -/
def laneSent (ch : Nat) (sd : Side) (s : State) : State :=
  let c := s.chain ch
  if s.fencedTx ch sd = 0 then s
  else
    let n := ((Tbl.get? c.laneAt (sideNo sd)).getD 0 + 16) % (s.txUsable ch sd).length
    s.setChain ch { c with laneAt := Tbl.set c.laneAt (sideNo sd) n }

end Sys2Proof.Machine
end

