-- ==== Sys2Proof/Machine/ChainLink.lean ====
section
/-! DEFINITION. The link layer of the chain and the Timetable (R92 to R118): containers, ordered sets, receive
states, lane fencing, link delays and the mode of the ring. -/

namespace Sys2Proof.Machine

/-! ### Cycle numbers -/

/-- Whether cycle `k` has come with cycle `cyc`. DEDUCED (log 124): registers and rulings hold 40 bits of a cycle's number, so that
numbers compare within half their range. -/
def cycReached (k cyc : Nat) : Bool := decide ((cyc % 2 ^ 40 + 2 ^ 40 - k % 2 ^ 40) % 2 ^ 40 < 2 ^ 39)

/-! ### Status fields (R130) -/

/-- Whether this station is inserted: on a tray build, whether it heads its chains (R119, R130). -/
def State.inserted (s : State) (ch : Nat) : Bool := s.getB (CHN_STATUS ch) 12

/-- CHN_STATUS.MODE: 0 HEADLESS, 1 WHOLE, 2 CUT. -/
def State.chMode (s : State) (ch : Nat) : Nat := s.getF (CHN_STATUS ch) 8 2

/-- The mode of a cycle (R116): CHN_STATUS.MODE from the cycle on in which it changed last, the mode before it earlier. -/
def State.modeOf (s : State) (ch cyc : Nat) : Nat :=
  if cyc < (s.chain ch).modeFrom then (s.chain ch).modeOld else s.chMode ch

/-- Put MODE; a change sets CHN_EVT.MODE_CHANGE (R130). -/
def setMode (ch m : Nat) (s : State) : State :=
  if s.chMode ch = m then s else (s.setF (CHN_STATUS ch) 8 2 m).evt (CHN_EVT ch) 6

/-- Put the MODE that the containers of a cycle and of those after it have (R116). -/
def setModeAt (ch cyc m : Nat) (s : State) : State :=
  if s.chMode ch = m then s
  else setMode ch m (s.setChain ch { s.chain ch with modeFrom := cyc, modeOld := s.chMode ch })

/-- Lowest bit of the receive-state field of a side. -/
def rxLo : Side → Nat
  | .west => 0
  | .east => 2

/-- Receive state of a side: 0 DOWN, 1 LOCKING, 2 UP. -/
def State.rxState (s : State) (ch : Nat) (sd : Side) : Nat := s.getF (CHN_STATUS ch) (rxLo sd) 2

/-- Bit of CHN_STATUS that tells a side's D unseeded. -/
def unseedBit : Side → Nat
  | .west => 4
  | .east => 5

/-- Whether a side's D awaits its first sample (R122). -/
def State.unseeded (s : State) (ch : Nat) (sd : Side) : Bool := s.getB (CHN_STATUS ch) (unseedBit sd)

/-- Lanes of a side fenced in receive. -/
def State.fencedRx (s : State) (ch : Nat) (sd : Side) : Nat := s.getF (CHN_LANES ch) (lanesLo sd) 4

/-- LISTEN_LOCK: in bypass, with both receive directions UP (R130). -/
def listenLock (ch : Nat) (s : State) : State :=
  s.putB (CHN_STATUS ch) 14
    (s.inserted ch == false && s.rxState ch .west == 2 && s.rxState ch .east == 2)

/-- Put a side's receive state. -/
def setRx (ch : Nat) (sd : Side) (n : Nat) (s : State) : State := listenLock ch (s.setF (CHN_STATUS ch) (rxLo sd) 2 n)

/-! ### Link state (R111, R127) -/

/-- The link and direction a station's receive side listens to (R127): link `p - 1` eastbound on the west side of
position `p`, link `p` westbound on its east side; the tray's west side is position 0, its east side position 17. -/
def linkOf (pos : Nat) (sd : Side) : Nat × Dir :=
  match pos, sd with
  | 0, .west => (0, .westbound)
  | 0, .east => (16, .eastbound)
  | p, .west => (p - 1, .eastbound)
  | p, .east => (p, .westbound)

/-- The four masks of a LINK_STATE payload (R127). -/
def linkStateBytes (c : ChainSt) : List Byte := (List.range 4).flatMap (fun i => leBytes 3 (c.links.getD i 0))

/-- Note a fenced (kind 1) or down (kind 2) link and tell every leaf of the chain (R127). -/
def noteLink (ch pos : Nat) (sd : Side) (kind : Nat) (s : State) : State :=
  let (j, d) := linkOf pos sd
  let i := (if kind = 2 then 2 else 0) + dirNo d
  let c := s.chain ch
  let s1 := s.setChain ch { c with links := c.links.set i (setBit (c.links.getD i 0) j) }
  sendAll ch 0x10 0 (linkStateBytes (s1.chain ch)) s1

/-- The tray build learns that a link is fenced or down no longer (kind 1 or 2), and tells every leaf. DESIGN CHOICE (log 105):
it learns it of the links at its own sides alone. -/
def clearLink (ch : Nat) (jd : Nat × Dir) (kind : Nat) (s : State) : State :=
  let i := (if kind = 2 then 2 else 0) + dirNo jd.2
  let c := s.chain ch
  if s.isTray ∧ bit (c.links.getD i 0) jd.1 = true then
    let s1 := s.setChain ch { c with links := c.links.set i (clrBit (c.links.getD i 0) jd.1) }
    sendAll ch 0x10 0 (linkStateBytes (s1.chain ch)) s1
  else s

/-- The link and direction of the tray build's transmit side (R127): link 0 eastbound on its west, link 16 westbound on its
east. -/
def trayTxLink : Side → Nat × Dir
  | .west => (0, .eastbound)
  | .east => (16, .westbound)

/-- A station reports a fence or a loss (R127): a leaf that is inserted sends LINK_ALARM; the tray build notes its own
links itself. -/
def linkAlarm (ch : Nat) (sd : Side) (mask kind : Nat) (s : State) : State :=
  if s.isTray then noteLink ch 0 sd kind s
  else if s.inserted ch then
    sendUp 0xB 0 [BitVec.ofNat 8 (sideNo sd), BitVec.ofNat 8 (mask % 16), BitVec.ofNat 8 kind] s
  else s

/-! ### Lane fencing and the receive state machine (R99, R100, R557) -/

/-- Fault source of a link going down (R442). -/
def linkSource (ch : Nat) : Nat := if ch = 0 then 2 else 38

/-- Fault source of a fenced lane (R442). -/
def laneSource (ch : Nat) : Nat := if ch = 0 then 3 else 39

/-- Queue a row for container 0 of the next cycle (R97); a station in bypass originates nothing (R120). -/
def queueRow (ch : Nat) (r : RowDue) (s : State) : State :=
  if s.inserted ch then s.setChain ch { s.chain ch with rows := (s.chain ch).rows ++ [r] } else s

/-- Fence receiving lanes of a side (R100): their sender is told, and the station reports it. -/
def fenceLanes (ch : Nat) (sd : Side) (mask : Nat) (s : State) : State :=
  if mask % 16 = 0 then s
  else
    let s1 := rateNote 5 ((s.setF (CHN_LANES ch) (lanesLo sd) 4 (s.fencedRx ch sd ||| mask)).evt (CHN_EVT ch) 8)
    faultEdge (laneSource ch) (linkAlarm ch sd mask 1 (queueRow ch (.lanes sd (mask % 16) true) s1))

/-- Whether the tray build's side faces the ford of position `q` with no inserted leaf between (R557). -/
def trayFaces (roster q : Nat) (sd : Side) : Bool :=
  match sd with
  | .west => (List.range q).all (fun p => p == 0 || !bit roster p)
  | .east => (List.range 17).all (fun p => decide (p ≤ q) || !bit roster p)

/-- Whether an open splice window covers the receive direction of a side (R557): both sides of the splicing station, and the
side that faces it at each of its two nearest inserted neighbours. The tray build tells from its roster whether it is one of
them; a leaf is told as the splice takes place. -/
def windowCovers (s : State) (ch : Nat) (sd : Side) : Bool :=
  (s.chain ch).splices.any (fun a =>
    a.windowOpen &&
      (if s.isTray then trayFaces (s.rd (CHN_ROSTER ch)) (stPos a.station) sd
       else if a.station = s.station then true
       else a.near && (match sd with
            | .west => decide (stPos a.station < stPos s.station)
            | .east => decide (stPos s.station < stPos a.station))))

/-- Every effect that R99 gives an entry into DOWN. -/
def downEffects (ch : Nat) (sd : Side) (s : State) : State :=
  let bad := (s.fencedRx ch sd ||| (s.locked ch sd ^^^ 15)) % 16
  linkAlarm ch sd bad 2 (faultEdge (linkSource ch) (s.evt (CHN_EVT ch) 7))

/-- A receiving direction enters DOWN from UP; silently inside a splice window (R99, R557). -/
def goDown (ch : Nat) (sd : Side) (s : State) : State :=
  let s1 := rateNote 4 (setRx ch sd 0 s)
  if windowCovers s ch sd then s1 else downEffects ch sd s1

/-- A receiving direction returns to DOWN from LOCKING (R99); silently inside a splice window (R557). -/
def backDown (ch : Nat) (sd : Side) (s : State) : State :=
  let s1 := rateNote 4 (setRx ch sd 0 s)
  if windowCovers s ch sd then s1 else s1.evt (CHN_EVT ch) 7

/-- How many lanes of a side a receiver can use: those with block lock that are not fenced (R100). -/
def State.usableRx (s : State) (ch : Nat) (sd : Side) : Nat := popCount 4 (s.locked ch sd &&& (s.fencedRx ch sd ^^^ 15))

/-- Block lock gained on lanes (R99): with at least 3 usable lanes deskew starts from DOWN (R100). -/
def blockLockGain (ch : Nat) (sd : Side) (lanes : Nat) (s : State) : State :=
  let s1 := setLocked ch sd (s.locked ch sd ||| lanes) s
  if s1.rxState ch sd = 0 ∧ 3 ≤ s1.usableRx ch sd then setRx ch sd 1 s1 else s1

/-- Two consecutive alignment rows deskewed in LOCKING (R99): UP, unlocked lanes fenced, D unseeded, so that a link-delay request
goes out with the next cycle (R122). With two unusable lanes the direction is DOWN (R100). -/
def alignmentLock (ch : Nat) (sd : Side) (s : State) : State :=
  if s.rxState ch sd = 1 then
    if s.usableRx ch sd < 3 then backDown ch sd s
    else
      let s1 := (setRx ch sd 2 s).putB (CHN_STATUS ch) (unseedBit sd) true
      let s2 := s1.setChain ch { s1.chain ch with seedDue := (s1.chain ch).seedDue.filter (· != sd) ++ [sd] }
      fenceLanes ch sd ((s2.locked ch sd ^^^ 15) &&& (s2.fencedRx ch sd ^^^ 15)) (clearLink ch (linkOf 0 sd) 2 s2)
  else s

/-- 100 µs in LOCKING without reaching UP (R99). -/
def lockingTimeout (ch : Nat) (sd : Side) (s : State) : State := if s.rxState ch sd = 1 then backDown ch sd s else s

/-- Block lock lost on a lane, or lost for the fourth time within 128 cycles (R99): an UP direction fences the lane while three others
are usable, and goes DOWN with two unusable lanes, as does one in LOCKING (R100). The 16 invalid sync headers of the lost window are
counted (R96, R129). -/
def blockLockLoss (ch : Nat) (sd : Side) (lane : Nat) (s0 : State) : State :=
  let s := badHeaders ch 16 s0
  let m := 2 ^ (lane % 4)
  let s1 := setLocked ch sd (s.locked ch sd &&& (m ^^^ 15)) s
  if s1.rxState ch sd = 2 then
    if s1.usableRx ch sd < 3 then goDown ch sd s1
    else if bit (s1.fencedRx ch sd) (lane % 4) then s1 else fenceLanes ch sd m s1
  else if s1.rxState ch sd = 1 ∧ s1.usableRx ch sd < 3 then backDown ch sd s1
  else s1

/-- Alignment rows missed in 2 consecutive cycles (R99). -/
def alignmentLoss (ch : Nat) (sd : Side) (s : State) : State := if s.rxState ch sd = 2 then goDown ch sd s else s

/-! ### Lane requests (R98, R100) -/

/-- A lane request arrives: with the next cycle its sender fences or unfences those transmit lanes of that side (R100). -/
def laneRequest (ch : Nat) (sd : Side) (blocks : List Block) (s : State) : State :=
  match lanesOf blocks with
  | none => s
  | some (mask, fence) => s.setChain ch { s.chain ch with txNext := (s.chain ch).txNext ++ [(sd, mask, fence)] }

/-- Transmit lanes of a side are fenced or unfenced (R100); the cells start over on the first of those that remain. A tray build's
own link is fenced no longer once none of its lanes is. -/
def txLanes (ch : Nat) (x : Side × Nat × Bool) (s : State) : State :=
  let old := s.fencedTx ch x.1
  let new := if x.2.2 then old ||| x.2.1 else old &&& (x.2.1 ^^^ 15)
  let s1 := s.setF (CHN_LANES ch) (lanesLo x.1 + 4) 4 new
  let s2 := s1.setChain ch { s1.chain ch with laneAt := Tbl.erase (s1.chain ch).laneAt (sideNo x.1) }
  if new = 0 then clearLink ch (trayTxLink x.1) 1 s2 else s2

/-- The container in whose time rows 2 and 3 of container 0 go out on a side (R101). -/
def State.rowCont (s : State) (ch : Nat) (sd : Side) : Nat := if s.fencedTx ch sd = 0 then 0 else 3

/-! ### Link delays (R70, R71, R122) -/

/-- The filtered delay of a side (R71): chain A's in DAT_LDLY, chain B's in CHN_LDLY. -/
def State.linkDelay (s : State) (ch : Nat) (sd : Side) : Nat :=
  match sd with
  | .west => s.rd (CHN_LDLY_W ch)
  | .east => s.rd (CHN_LDLY_E ch)

/-- Put the delay of a side; chain A's block mirrors DAT_LDLY (R129). -/
def setLinkDelay (ch : Nat) (sd : Side) (d : Nat) (s : State) : State :=
  match sd with
  | .west => if ch = 0 then (s.wr DAT_LDLY_W d).wr (CHN_LDLY_W 0) d else s.wr (CHN_LDLY_W ch) d
  | .east => if ch = 0 then (s.wr DAT_LDLY_E d).wr (CHN_LDLY_E 0) d else s.wr (CHN_LDLY_E ch) d

/-- The asymmetry of a side in 2⁻¹⁶ ns, from DAT_ASYM in units of 1/64 ns (R71, R90). -/
def State.asym (s : State) (sd : Side) : Int :=
  match sd with
  | .west => toInt 16 (s.getF DAT_ASYM 0 16) * 1024
  | .east => toInt 16 (s.getF DAT_ASYM 16 16) * 1024

/-- The 24 payload bytes of a control row with its CRC-16 (R68, R70). -/
def rowBytes (body : List Byte) : List Byte := let b := padTo 22 body; b ++ leBytes 2 (crc16 b)

/-- Whether a row's CRC matches (R68). -/
def rowOk (bs : List Byte) : Bool := bs.length == 24 && leAt bs 22 2 == crc16 (bs.take 22)

/-- A link-delay message (R70). -/
def ldBytes (kind seq station turn : Nat) : List Byte :=
  rowBytes (leBytes 1 kind ++ leBytes 2 seq ++ leBytes 3 station ++ leBytes 6 turn)

/-- The request of a side that awaits its response. -/
def ldOf (c : ChainSt) : Side → Option LdReq
  | .west => c.ldW
  | .east => c.ldE

/-- Put the request of a side. -/
def setLd (c : ChainSt) (sd : Side) (r : Option LdReq) : ChainSt :=
  match sd with
  | .west => { c with ldW := r }
  | .east => { c with ldE := r }

/-- A link-delay request of a side (R70) goes out in row 2 of container 0 (R97); a station in bypass originates nothing (R120). -/
def ldRequest (ch : Nat) (sd : Side) (tx : Nat) (s : State) : State :=
  if s.inserted ch = false then s
  else
    let c := s.chain ch
    let n := (c.ldSeq + 1) % 65536
    queueRow ch (.request sd (ldBytes 1 n s.station 0))
      (s.setChain ch (setLd { c with ldSeq := n } sd (some { seq := n, t1 := s.txStamp tx })))

/-- One delay sample of a side enters the filter, or seeds it (R71, R122). -/
def ldSample (ch : Nat) (sd : Side) (sample : Int) (s : State) : State :=
  let d : Int := s.linkDelay ch sd
  let d' := if s.unseeded ch sd then sample else d + (sample - d) / 16
  (setLinkDelay ch sd (ofInt 32 d') s).putB (CHN_STATUS ch) (unseedBit sd) false

/-- The payload of a row of an O-code whose CRC matches (R68, R70). -/
def rowMessage (o : Nat) (blocks : List Block) : Option (List Byte) := (rowPayload o blocks).filter rowOk

/-- A link-delay message (R70, R71): a request is answered in row 3 of container 0 (R97), a response that matches gives a sample,
any other is discarded and counted. -/
def ldMessage (ch : Nat) (sd : Side) (bs : List Byte) (rx tx : Nat) (s : State) : State :=
  if leAt bs 0 1 = 1 then
    let turn := timeDiff (s.txStamp tx) (s.rxStamp rx) / 65536
    queueRow ch (.response sd (ldBytes 2 (leAt bs 1 2) s.station (ofInt 48 turn))) s
  else if leAt bs 0 1 = 2 then
    match ldOf (s.chain ch) sd with
    | some r =>
      if r.seq = leAt bs 1 2 then
        let span := timeDiff (s.rxStamp rx) r.t1 / 65536 - toInt 48 (leAt bs 6 6)
        ldSample ch sd (span / 2 + s.asym sd) (s.setChain ch (setLd (s.chain ch) sd none))
      else s.inc DAT_TW_ERR 1
    | none => s.inc DAT_TW_ERR 1
  else s.inc DAT_TW_ERR 1

/-- A link-delay message arrives; one that is damaged is discarded and counted (R70, R90). -/
def ldReceive (ch : Nat) (sd : Side) (blocks : List Block) (rx tx : Nat) (s : State) : State :=
  match rowMessage 0xB blocks with
  | none => s.inc DAT_TW_ERR 1
  | some bs => ldMessage ch sd bs rx tx s

/-! ### Gate lists (R108 to R111) -/

/-- One gate-list entry taken apart (R108). -/
structure GateEnt where
  start : Nat
  stride : Nat
  count : Nat
  run : Nat
  pos : Nat
  mode : Nat
  alarmN : Nat
  classes : Nat
  deriving DecidableEq, Repr

/-- The fields of an entry (R108). -/
def gateOf (v : Nat) : GateEnt :=
  { start := fld v 0 10, stride := fld v 10 10, count := fld v 20 10, run := fld v 30 4, pos := fld v 34 5,
    mode := fld v 39 2, alarmN := fld v 41 2, classes := fld v 43 5 }

/-- Which of the entry's containers in a cycle container `i` is, if the entry grants it (R108). -/
def GateEnt.index (e : GateEnt) (i : Nat) : Option Nat :=
  if e.stride = 0 then (if i < e.start ∨ e.start + e.run ≤ i ∨ e.count = 0 then none else some (i - e.start))
  else if i < e.start then none
  else
    let k := min ((i - e.start) / e.stride) (e.count - 1)
    if e.count = 0 then none
    else if i - e.start - k * e.stride < e.run then some (k * e.run + (i - e.start - k * e.stride)) else none

/-- The last container an entry grants, if it grants any. -/
def GateEnt.lastOf (e : GateEnt) : Nat := e.start + (e.count - 1) * e.stride + (e.run - 1)

/-- Whether the entry is refused by itself: 2 for a RUN of 0, 1 for the other conditions of R109. An unused or empty
entry grants nothing; its form is checked all the same. -/
def GateEnt.bad (e : GateEnt) (limit : Nat) : Nat :=
  if e.run = 0 then 2
  else if e.stride = 0 ∨ (1 < e.count ∧ e.stride < e.run) then 1
  else if 0 < e.count ∧ limit < e.lastOf then 1 else 0

/-- Whether two entries with intersecting modes grant the same container (R109). -/
def gateClash (a b : GateEnt) : Bool :=
  (a.mode &&& b.mode) != 0 && (List.range 1024).any (fun i => (a.index i).isSome && (b.index i).isSome)

/-- Whether any two entries of a list clash. -/
def gateClashes : List GateEnt → Bool
  | [] => false
  | e :: es => es.any (gateClash e) || gateClashes es

/-- The verdict on a chain list: 0 accepted, 1 BAD_PARAM, 2 BAD_LEN (R109). -/
def gateListBad (es : List Nat) : Nat :=
  let gs := es.map gateOf
  if gs.any (fun g => g.bad 1023 == 2) then 2
  else if gs.any (fun g => g.bad 1023 != 0) || gateClashes gs then 1 else 0

/-- Entry `n` of the list of a direction that governs the containers of a cycle (R114): the admin list from the cycle of a pending
swap on, the list before the last swap for containers still in flight from earlier cycles, else the operational list. -/
def State.entryFor (s : State) (ch : Nat) (d : Dir) (cyc n : Nat) : Nat :=
  if s.getB (TMT_CTL ch) 1 = true ∧ cycReached (s.rd (TMT_SWAP_CYC ch)) cyc = true then s.rd (TMT_ENT ch (2 + dirNo d) n)
  else if (s.chain ch).swapAt.any (fun k => decide (cyc < k)) then
    (Tbl.get? (s.chain ch).oldLists (64 * dirNo d + n)).getD 0
  else s.rd (TMT_ENT ch (dirNo d) n)

/-- The entry that grants container `i` of a cycle to this station in the mode of that cycle (R110, R114, R116). -/
def grantOf (s : State) (ch : Nat) (d : Dir) (cyc i : Nat) : Option (GateEnt × Nat) :=
  (List.range 64).findSome? (fun n =>
    let e := gateOf (s.entryFor ch d cyc n)
    let m := s.modeOf ch cyc
    if e.pos = (if s.isTray then 0 else stPos s.station) ∧ m ≠ 0 ∧ bit e.mode (m - 1) = true then
      (e.index i).map (fun j => (e, j))
    else none)

/-- The links a leaf's upstream traffic crosses in a direction (R111, R127). -/
def pathMask (pos : Nat) : Dir → Nat
  | .westbound => 2 ^ pos - 1
  | .eastbound => 2 ^ 17 - 2 ^ pos

/-- Whether a fenced link lies on the way in a direction (R111), or the station's own transmit lanes are fenced there
(R101), so that containers whose number modulo 4 is 3 are not filled. -/
def fencedWay (s : State) (ch : Nat) (d : Dir) : Bool :=
  let m := (s.chain ch).links.getD (dirNo d) 0
  let own := s.fencedTx ch (otherSide (sideIn s.isTray d)) != 0
  own || (if s.isTray then m != 0 else (m &&& pathMask (stPos s.station) d) != 0)

/-- The side on which a leaf sends upstream in a mode (R25, R117). -/
def upstreamSide (s : State) (mode : Nat) : Side :=
  let fixed := sideOfPos (stPos s.station)
  if mode = 2 then
    match (s.chain 0).wordW, (s.chain 0).wordE with
    | some a, some b => if a + 1 < b then .east else if b + 1 < a then .west else fixed
    | some _, none => .west
    | none, some _ => .east
    | none, none => fixed
  else fixed

/-- Whether a leaf's closures are DEGRADED for the state of its chain: the ring is cut, or its way upstream crosses a fenced link
(R28, R29, R117). -/
def State.chainDegraded (s : State) : Bool :=
  !s.isTray && (s.chMode 0 == 2 || fencedWay s 0 (dirOut false (upstreamSide s (s.chMode 0))))

/-- Whether the station may originate in a direction of a cycle: a leaf upstream only, and not while headless, splicing out or
in bypass; a tray build eastbound, and in CUT both ways (R27, R117, R118, R124). -/
def mayOriginate (s : State) (ch : Nat) (d : Dir) (cyc : Nat) : Bool :=
  s.inserted ch && s.modeOf ch cyc != 0 && !(s.chain ch).stopOrig &&
    (if s.isTray then (d == .eastbound || s.modeOf ch cyc == 2) else d == dirOut false (upstreamSide s (s.modeOf ch cyc)))

/-- Whether a splice guard empties a container (R121). -/
def inGuard (s : State) (ch cyc i : Nat) : Bool :=
  decide (512 ≤ i) && (s.chain ch).splices.any (fun a => a.cyc == cyc)

/-- Key of a transmit sequence count: class and direction on a tray build, class on a leaf (R106). -/
def txKey (tray : Bool) (cls : Nat) (d : Dir) : Nat := cls * 2 + (if tray then dirNo d else 0)

/-- Which copies in waiting a direction takes: any, or those for its own direction only. -/
def copyFits (cls : Nat) (d : Dir) (key : Nat) : Bool := key == cls || key == cls + 8 * (1 + dirNo d)

/-- A cell goes into a container (R93, R96). -/
def cellOut (ch : Nat) (d : Dir) (cyc i : Nat) (bs : List Byte) (s : State) : State :=
  let sd := otherSide (sideIn s.isTray d)
  laneSent ch sd (s.drive ch sd (.cell ch d cyc i (s.laneFor ch sd) bs))

/-- Put a cell into a container: a waiting copy first, else the next cell of the first message of the class. In CUT a
tray build's cell goes both ways with one number (R106). A BULK cell is kept for resending (R107). -/
def originate (ch : Nat) (d : Dir) (cyc i cls : Nat) (s : State) : State :=
  let c := s.chain ch
  match c.copies.find? (fun p => copyFits cls d p.1) with
  | some p => cellOut ch d cyc i p.2 (s.setChain ch { c with copies := c.copies.erase p })
  | none =>
    match c.txq.find? (fun m => m.cls == cls) with
    | none => s
    | some m =>
      let k := txKey s.isTray cls d
      let n := (Tbl.get? c.txSeq k).getD 0
      let cell := m.next s.station n
      let bs := cell.bytes
      let cut := s.isTray && s.modeOf ch cyc == 2
      let seqs := Tbl.set c.txSeq k ((n + 1) % 65536)
      let seqs2 := if cut then Tbl.set seqs (cls * 2 + 1) ((n + 1) % 65536) else seqs
      let kept := if cls = 5 then c.kept ++ [{ dst := m.dst, seq := n, cyc := cyc, bytes := bs }] else c.kept
      let copies := if cut then c.copies ++ [(cls + 16, bs)] else c.copies
      cellOut ch d cyc i bs
        (s.setChain ch { c with txq := txqAdvance cls c.txq, bulkDone := c.bulkDone + (bulkWaiting c - bulkIn (txqAdvance cls c.txq)), txSeq := seqs2, kept := kept, copies := copies,
                                alarmSent := c.alarmSent + (if cls = 1 then 1 else 0) })

/-- Whether a class has a cell ready in a direction: a copy in waiting, or a message; westbound on a tray build only
copies are sent. -/
def classReady (s : State) (ch : Nat) (d : Dir) (cls : Nat) : Bool :=
  let c := s.chain ch
  c.copies.any (fun p => copyFits cls d p.1) ||
    (!(s.isTray && d == .westbound) && c.txq.any (fun m => m.cls == cls))

/-- The start of a container at this station (R93, R110, R111, R121). -/
def containerStart (ch : Nat) (d : Dir) (cyc i : Nat) (full : Bool) (s : State) : State :=
  if i = 0 ∨ mayOriginate s ch d cyc = false ∨ inGuard s ch cyc i = true ∨ (i % 4 = 3 ∧ fencedWay s ch d = true) then s
  else
    match grantOf s ch d cyc i with
    | none => s
    | some (e, j) =>
      if full then s.inc (CHN_GRANT_BUSY ch) 1
      else
        let alarmOk := decide ((s.chain ch).alarmSent < s.getF CHN_CTL 8 4)
        let permit : Nat → Bool := fun k =>
          bit e.classes (k - 1) && (k != 1 || alarmOk) && (decide (e.alarmN ≤ j) || k == 1)
        match [1, 2, 3, 4, 5].find? (fun k => permit k && classReady s ch d k) with
        | none => s
        | some k => originate ch d cyc i k s

/-- The cell of a container that a leaf passes on: none where it fails HCRC or carries the leaf's own number as source (R95, R106). -/
def relayed (s : State) (cell : Option (List Byte)) : Option (List Byte) :=
  cell.filter (fun bs => cellHcrcOk bs && fld (leAt bs 0 14) 20 20 != s.station)

/-- An inserted leaf relays a container (R94, R95, R101, R106). A fenced direction does not carry one whose number modulo 4 is 3; a
cell in it is dropped and counted. Of container 0 it relays the alignment row; the other rows are its own (R97). -/
def containerRelay (ch : Nat) (d : Dir) (cyc i : Nat) (cell : Option (List Byte)) (s : State) : State :=
  let sd := otherSide (sideIn false d)
  if s.isTray ∨ s.inserted ch = false then s
  else if i = 0 then s.drive ch sd (.row ch sd cyc 0 0 (alignRow cyc))
  else
    let c := relayed s cell
    if i % 4 = 3 ∧ s.fencedTx ch sd ≠ 0 then (if c.isSome then s.inc (CHN_FENCE_DROP ch) 1 else s)
    else
      let t := s.drive ch sd (.relay ch d cyc i (s.laneFor ch sd) c)
      if c.isSome then laneSent ch sd t else t

/-- Resend the BULK cells a receiver asks for, with RETX set (R107). -/
def bulkResend (ch : Nat) (payload : List Byte) (s : State) : State :=
  if s.getB CHN_CTL 2 = false then s
  else
    let first := leAt payload 0 2
    let n := min (leAt payload 2 2) 64
    s.each (List.range n) (fun i t =>
      let c := t.chain ch
      match c.kept.find? (fun k => k.seq == (first + i) % 65536) with
      | none => t
      | some k =>
        let h := leBytes 14 (setBit (leAt k.bytes 0 14) 11)
        let bs := h ++ leBytes 2 (crc16 h) ++ k.bytes.drop 16
        (t.setChain ch { c with copies := c.copies ++ [(5, bs)] }).inc (CHN_BULK_RETX ch) 1)

/-- A BULK cell's 64 cycles end (R107). -/
def bulkExpire (ch seq : Nat) (s : State) : State :=
  let c := s.chain ch
  s.setChain ch { c with kept := c.kept.filter (fun k => k.seq != seq) }

/-! ### Time words (R68, R72, R74) -/

/-- A time word's 24 payload bytes (R68). -/
def timeWordBytes (origin : Nat) (corr share : Int) (hops : Nat) (whole east tlock : Bool) (tstate : Nat) : List Byte :=
  rowBytes (timeBytes origin ++ leBytes 6 (ofInt 48 corr) ++ leBytes 2 (ofInt 16 share) ++
    leBytes 1 (hops % 32 + b2n whole * 32 + b2n east * 64 + b2n tlock * 128) ++ leBytes 1 (tstate % 8))

/-- SHARE of a chain as the next time word carries it: zero while the ring is cut or CLOSURE_EN is 0 (R74). -/
def State.shareOf (s : State) (ch : Nat) : Int :=
  if s.chMode ch = 1 ∧ s.getB DAT_CTL 4 = true then (Tbl.get? s.dat.share ch).getD 0 else 0

/-- The CRC of a time message leaves wrong where an injection into the time path awaits it (R453). -/
def spoilTime (bs : List Byte) (s : State) : List Byte × State :=
  if s.flt.badTime then
    (bs.take (bs.length - 1) ++ [bs.getD (bs.length - 1) 0#8 ^^^ 1#8],
     ({ s with flt := { s.flt with badTime := false } }).evt FLT_EVT 5)
  else (bs, s)

/-- The tray build sends its time word on a side (R68, R97). -/
def sendTimeWord (ch cyc : Nat) (sd : Side) (s : State) : State :=
  let bs := timeWordBytes (s.txStamp s.now) 0 (s.shareOf ch) 0 (s.chMode ch == 1) (sd == .east) (s.datState == 2) s.datState
  let (ws, s1) := spoilTime bs s
  s1.drive ch sd (.row ch sd cyc 0 1 (rowBlocks 0xA ws))

/-- Rows 0 and 1 that the tray build originates with a cycle (R97): alignment both ways, and the time word, westbound while the ring is
cut. -/
def cycleRows (ch cyc : Nat) (s : State) : State :=
  let s1 := (s.drive ch .west (.row ch .west cyc 0 0 (alignRow cyc))).drive ch .east (.row ch .east cyc 0 0 (alignRow cyc))
  let s2 := sendTimeWord ch cyc .west s1
  if s.chMode ch = 2 then sendTimeWord ch cyc .east s2 else s2.drive ch .east (.row ch .east cyc 0 1 idleRow)

/-- The side of a row that waits. -/
def RowDue.side : RowDue → Side
  | .request sd _ => sd
  | .response sd _ => sd
  | .lanes sd _ _ => sd

/-- The row of ordered sets 2 or 3 in which a row that waits goes out (R97). -/
def RowDue.place : RowDue → Nat
  | .request _ _ => 2
  | .response _ _ => 3
  | .lanes _ _ _ => 3

/-- Its blocks. -/
def RowDue.blocks : RowDue → List Block
  | .request _ bs => rowBlocks 0xB bs
  | .response _ bs => rowBlocks 0xB bs
  | .lanes _ m f => laneRow m f

/-- The row that goes out on a side as row 2 or 3 of a cycle (R97): a lane request before a response. -/
def rowPick (rows : List RowDue) (sd : Side) (k : Nat) : Option RowDue :=
  let rs := rows.filter (fun r => r.side == sd && r.place == k)
  ((rs.find? (fun r => match r with
    | .lanes _ _ _ => true
    | _ => false)).orElse (fun _ => rs.head?))

/-- Rows 2 and 3 of container 0 that an inserted station sends on a side (R97); what has no room waits one cycle. -/
def delayRows (ch cyc : Nat) (sd : Side) (s : State) : State :=
  s.each [2, 3] (fun k t =>
    let c := t.chain ch
    match rowPick c.rows sd k with
    | none => t.drive ch sd (.row ch sd cyc (t.rowCont ch sd) k idleRow)
    | some r => (t.setChain ch { c with rows := c.rows.erase r }).drive ch sd (.row ch sd cyc (t.rowCont ch sd) k r.blocks))

/-- The requests that seed D after a receive side has come UP (R122). -/
def seedRows (ch : Nat) (s : State) : State :=
  if s.inserted ch = false then s
  else
    let sds := (s.chain ch).seedDue
    (s.setChain ch { s.chain ch with seedDue := [] }).each sds (fun sd t => if t.unseeded ch sd then ldRequest ch sd t.now t else t)

/-- Saturate SHARE at ±32,767 (R74). -/
def satShare (z : Int) : Int := if z > 32767 then 32767 else if z < -32767 then -32767 else z

/-- A time word's origin and payload, if the row is a whole time word that is not malformed (R57, R68). -/
def timeWordOf (blocks : List Block) : Option (Nat × List Byte) :=
  (rowMessage 0xA blocks).bind (fun bs => (decTime (leAt bs 0 12)).map (fun o => (o, bs)))

/-- The tray build's own time word returns on the far side (R74): the closure error and the next SHARE. -/
def wordReturn (ch origin : Nat) (bs : List Byte) (rx : Nat) (s : State) : State :=
  let flags := leAt bs 20 1
  let sd : Side := if bit flags 6 then .west else .east
  let h := fld flags 0 5 + 1
  let e := timeDiff (s.rxStamp rx) origin / 65536 - toInt 48 (leAt bs 12 6) - (s.linkDelay ch sd : Nat)
  let s0 := s.setChain ch { s.chain ch with wordBack := true }
  let s1 := (s0.setF (CHN_STATUS ch) 16 5 h).wr DAT_CLOSURE (ofInt 32 e)
  let s2 := if ch = 0 then (s1.setF DAT_STATE 16 5 h).putB DAT_STATE 7 (s1.chMode 0 == 1) else s1
  if s2.unseeded ch sd ∨ s2.getB DAT_CTL 4 = false then s2
  else
    let q := Int.tdiv e h
    let s3 := { s2 with dat := { s2.dat with share := Tbl.set s2.dat.share ch (satShare q) } }
    if satShare q = q then s3 else s3.evt DAT_EVT 5

/-- Two consecutive failed cycles (R74, R116): the ring is cut from a cycle on. -/
def chainCut (ch cyc : Nat) (s : State) : State :=
  if s.isTray ∧ s.inserted ch = true ∧ 2 ≤ (s.chain ch).failed then
    let s1 := setModeAt ch cyc 2 s
    if ch = 0 then s1.putB DAT_STATE 7 false else s1
  else s

/-- 128 consecutive returns of the time word (R116): the ring is whole from a cycle on. -/
def chainWhole (ch cyc : Nat) (s : State) : State :=
  if s.isTray ∧ s.inserted ch = true ∧ 128 ≤ (s.chain ch).returns then
    let s1 := setModeAt ch cyc 1 s
    if ch = 0 then s1.putB DAT_STATE 7 true else s1
  else s

/-- The cycle before `cyc` ends at the tray build (R116): its own time word has returned, or the cycle has failed, or only its
alignment row came back, which counts for neither run. The mode follows. -/
def judgeCycle (ch cyc : Nat) (aligned : Bool) (s : State) : State :=
  if s.isTray = false ∨ s.inserted ch = false then s
  else
    let c := s.chain ch
    chainWhole ch cyc (chainCut ch cyc (s.setChain ch (
      if c.wordBack then { c with wordBack := false, failed := 0, returns := c.returns + 1 }
      else if aligned then c
      else { c with failed := c.failed + 1, returns := 0 })))

/-- No time word for 8 consecutive cycles at a leaf (R118). -/
def headless (s : State) : State := if s.isTray then s else setModeAt 0 (s.rd (TMT_CYC 0)) 0 s

/-! ### The start of a cycle (R93, R114, R115, R124, R546) -/

/-- The admin lists of a chain become operational with a cycle (R114); those they replace still govern older cycles. -/
def swapLists (ch cyc : Nat) (s : State) : State :=
  let old : Tbl Nat := (List.range 128).map (fun i => (i, s.rd (TMT_ENT ch (i / 64) (i % 64))))
  let s0 := s.setChain ch { s.chain ch with oldLists := old, swapAt := some cyc }
  let s1 := s0.each (List.range 64) (fun n t =>
    (t.wr (TMT_ENT ch 0 n) (t.rd (TMT_ENT ch 2 n))).wr (TMT_ENT ch 1 n) (t.rd (TMT_ENT ch 3 n)))
  ((s1.setF (TMT_VER ch) 0 16 (s1.getF (TMT_VER ch) 16 16)).putB (TMT_CTL ch) 1 false).evt (CHN_EVT ch) 2

/-- A pending swap whose cycle has come, or has been passed by a forward step, takes effect (R114, R115). -/
def swapDue (ch cyc : Nat) (s : State) : State :=
  if s.getB (TMT_CTL ch) 1 = true ∧ cycReached (s.rd (TMT_SWAP_CYC ch)) cyc = true then swapLists ch cyc s else s

/-- A tray build raises or lowers FORD_HOLD as JOIN_EN and VALID dictate (R546); lowering it leaves the chain
headless (R118). A chain newly headed starts in CUT, until 128 returns set WHOLE (R116). -/
def trayFord (ch cyc : Nat) (s : State) : State :=
  let want := s.getB CHN_CTL 0 && (s.datValid || s.inserted ch)
  if want = s.inserted ch then s
  else
    let s1 := s.setChain ch { s.chain ch with wordBack := false, failed := 0, returns := 0 }
    setModeAt ch cyc (if want then 2 else 0) (listenLock ch ((s1.putB (CHN_STATUS ch) 13 want).putB (CHN_STATUS ch) 12 want))

/-- Cells still queued on a chain, copies among them. -/
def cellsQueued (c : ChainSt) : Nat := c.txq.foldl (fun n m => n + m.cellsLeft) 0 + c.copies.length

/-- A leaf that splices out stops originating at the start of its cycle; cells still queued are lost (R124). -/
def spliceOutStart (ch cyc : Nat) (s : State) : State :=
  let c := s.chain ch
  if s.isTray = false ∧ c.splices.any (fun a => a.out && a.station == s.station && a.cyc == cyc && !a.done) then
    (s.setChain ch { c with stopOrig := true, txq := [], copies := [], bulkDone := c.bulkDone + bulkWaiting c }).inc (CHN_LOST ch) (cellsQueued c)
  else s

/-- The link layer's part of the start of a cycle: `aligned` tells whether the alignment row of the cycle that ends has come back on a
tray build's far side (R93, R97, R100, R114, R116, R122, R124). -/
def cycleStart (ch cyc : Nat) (aligned : Bool) (s : State) : State :=
  let s0 := s.wr (TMT_CYC ch) (cyc % 2 ^ 40)
  let next := (s0.chain ch).txNext
  let s1 := (s0.setChain ch { s0.chain ch with alarmSent := 0, txNext := [] }).each next (txLanes ch)
  let s2 := spliceOutStart ch cyc (swapDue ch cyc (judgeCycle ch cyc aligned s1))
  let s3 := if s2.isTray then trayFord ch cyc s2 else s2
  if s3.inserted ch then
    delayRows ch cyc .east (delayRows ch cyc .west (seedRows ch (if s3.isTray then cycleRows ch cyc s3 else s3)))
  else s3.setChain ch { s3.chain ch with rows := [] }

end Sys2Proof.Machine
end

