-- ==== Sys2Proof/Machine/Sketch.lean ====
section
/-! DEFINITION. Sketches and votes (R208 to R228): accumulators, their encoding, their merge; the vote table. -/

namespace Sys2Proof.Machine

/-! ### Components (R211 to R217) -/

/-- An empty accumulator. -/
def accBlank : Accum :=
  { coarse := false, hsat := false, msat := false, mismatch := false, nVal := 0, nStale := 0, nMissing := 0, nSat := 0,
    bins := [], hi := [], lo := [], count := 0, sum := 0, sumsq := 0 }

/-- The largest bin count (R213). -/
def binMax : Nat := 2 ^ 32 - 1

/-- The fine bin of a raw value (R212). -/
def binOf (r : Nat) : Nat :=
  if r = 0 then 0
  else
    let o := Nat.log2 r
    8 * o + (if 3 ≤ o then r / 2 ^ (o - 3) % 8 else r * 2 ^ (3 - o) % 8)

/-- The raw lower bound of a fine bin, rounded down (R212, R342). -/
def binLow (b : Nat) : Nat := if b = 0 then 0 else if 512 ≤ b then 2 ^ 64 else (8 + b % 8) * 2 ^ (b / 8) / 8

/-- Add to a bin, saturating; answers whether it saturated (R213). -/
def binAdd (t : Tbl Nat) (b n : Nat) : Bool × Tbl Nat :=
  let v := (Tbl.get? t b).getD 0 + n
  (decide (binMax < v), Tbl.put 0 t b (min v binMax))

/-- Add every bin of `u`, each bin number mapped by `f`; answers how many saturated. -/
def binsAdd (f : Nat → Nat) (t u : Tbl Nat) : Nat × Tbl Nat :=
  u.foldl (fun r e => let (s, t1) := binAdd r.2 (f e.1) e.2; (r.1 + b2n s, t1)) (0, t)

/-- The coarse histogram of a fine one (R214). -/
def foldBins (t : Tbl Nat) : Nat × Tbl Nat := binsAdd (fun b => b / 2) [] t

/-- Whether `a` ranks before `b` in a list, the highest list where `high` (R216). -/
def ranksBefore (high : Bool) (a b : Extreme) : Bool :=
  if a.value ≠ b.value then (if high then decide (b.value < a.value) else decide (a.value < b.value))
  else if a.station ≠ b.station then decide (a.station < b.station) else decide (a.sub < b.sub)

/-- Put an entry at its rank. -/
def rankIn (high : Bool) (e : Extreme) : List Extreme → List Extreme
  | [] => [e]
  | x :: xs => if ranksBefore high e x then e :: x :: xs else x :: rankIn high e xs

/-- The union of two lists, ranked, its first `n` entries kept (R216, R220). Entries that agree in all fields are one
and the same bits. -/
def rankAll (high : Bool) (n : Nat) (a b : List Extreme) : List Extreme := (b.foldl (fun l e => rankIn high e l) a).take n

/-- Entries a list keeps (R216). -/
def extKeep (coarse : Bool) : Nat := if coarse then 4 else 8

/-- Fold an accumulator (R214, R234); answers how many bins saturated. -/
def foldAcc (a : Accum) : Nat × Accum :=
  if a.coarse then (0, a)
  else
    let (n, t) := foldBins a.bins
    (n, { a with coarse := true, bins := t, hi := a.hi.take 4, lo := a.lo.take 4, hsat := a.hsat || decide (0 < n) })

/-- Moments of one sum, saturating (R217): answers whether a field saturated. -/
def addMoments (c s q : Nat) (a : Accum) : Bool × Accum :=
  let c1 := a.count + c
  let s1 := a.sum + s
  let q1 := a.sumsq + q
  let sat := decide (2 ^ 40 ≤ c1) || decide (2 ^ 95 ≤ s1) || decide (2 ^ 128 ≤ q1)
  (sat, { a with count := min c1 (2 ^ 40 - 1), sum := min s1 (2 ^ 95 - 1), sumsq := min q1 (2 ^ 128 - 1),
                 msat := a.msat || sat })

/-- Merge a sketch into an accumulator (R220); answers bin saturations and whether a moment saturated. -/
def mergeAcc (a b : Accum) : Nat × Bool × Accum :=
  let coarse := a.coarse || b.coarse
  let (n1, a1) := if coarse then foldAcc a else (0, a)
  let (n2, b1) := if coarse then foldAcc b else (0, b)
  let (n3, bins) := binsAdd id a1.bins b1.bins
  let (m, a2) := addMoments b.count b.sum b.sumsq a1
  (n1 + n2 + n3, m,
   { a2 with coarse := coarse, hsat := a.hsat || b.hsat || decide (0 < n1 + n2 + n3),
             msat := a2.msat || b.msat, mismatch := a.mismatch || b.mismatch,
             nVal := a.nVal + b.nVal, nStale := a.nStale + b.nStale, nMissing := a.nMissing + b.nMissing,
             nSat := a.nSat + b.nSat, bins := bins,
             hi := rankAll true (extKeep coarse) a1.hi b1.hi, lo := rankAll false (extKeep coarse) a1.lo b1.lo })

/-- Enter one sample (R218): `sk` is the probe's SKETCH field. -/
def enterSample (sk st sub r : Nat) (a : Accum) : Nat × Bool × Accum :=
  let e : Extreme := { value := r, station := st, sub := min sub 4095 }
  mergeAcc a { accBlank with
    bins := if bit sk 0 then [(binOf r, 1)] else [], hi := if bit sk 1 then [e] else [], lo := if bit sk 2 then [e] else [],
    count := if bit sk 3 then 1 else 0, sum := if bit sk 3 then r else 0, sumsq := if bit sk 3 then r * r else 0 }

/-! ### Encoding (R211, R215) -/

/-- Bytes of an extreme entry. -/
def Extreme.bytes (e : Extreme) : List Byte := leBytes 8 e.value ++ leBytes 4 (e.station % 2 ^ 20 + min e.sub 4095 * 2 ^ 20)

/-- Whether a histogram is sparse (R215). -/
def histSparse (t : Tbl Nat) : Bool := decide (t.length ≤ 64)

/-- Bytes of a histogram (R215). -/
def histBytes (coarse : Bool) (t : Tbl Nat) : List Byte :=
  if histSparse t then t.flatMap (fun e => leBytes 2 e.1 ++ zeros 2 ++ leBytes 4 e.2)
  else (List.range (if coarse then 256 else 512)).flatMap (fun b => leBytes 4 ((Tbl.get? t b).getD 0))

/-- A probe sketch (R211). -/
def sketchBytes (p : ProbeEnt) (a : Accum) : List Byte :=
  let comp := p.sketch % 16
  let body := (if bit comp 3 then leBytes 8 a.count ++ leBytes 16 a.sum ++ leBytes 16 a.sumsq else []) ++
    a.hi.flatMap (·.bytes) ++ a.lo.flatMap (·.bytes) ++ (if bit comp 0 then histBytes a.coarse a.bins else [])
  leBytes 2 (p.probe % 1024) ++ leBytes 1 (comp + b2n (bit comp 0 && histSparse a.bins) * 16 + b2n a.coarse * 32) ++
    leBytes 1 (a.hi.length + a.lo.length * 16) ++
    leBytes 2 (b2n a.hsat + b2n a.msat * 2 + b2n a.mismatch * 4) ++ leBytes 2 a.bins.length ++
    leBytes 4 (56 + body.length) ++ leBytes 4 (a.nVal % 2 ^ 20) ++ leBytes 4 (a.nStale % 2 ^ 20) ++
    leBytes 4 (a.nMissing % 2 ^ 20) ++ leBytes 4 (a.nSat % 2 ^ 20) ++ leBytes 2 (p.unit % 4096) ++
    leBytes 1 (p.xform % 8) ++ leBytes 1 (ofInt 8 (toInt 6 p.shift)) ++ zeros 24 ++ body

/-- What a probe sketch's header says: probe, COMP, XFORM, SHIFT and the accumulator it carries. -/
structure SketchIn where
  probe : Nat
  comp : Nat
  xform : Nat
  shift : Nat
  acc : Accum
  len : Nat
  denseFine : Bool
  deriving DecidableEq, Repr

/-- Extreme entries from bytes. -/
def extremesOf (bs : List Byte) (n : Nat) : List Extreme :=
  (List.range n).map (fun i =>
    { value := leAt bs (12 * i) 8, station := leAt bs (12 * i + 8) 4 % 2 ^ 20, sub := leAt bs (12 * i + 8) 4 / 2 ^ 20 })

/-- Bytes of the histogram that a header requires. -/
def histNeed (bs : List Byte) : Nat :=
  let c := leAt bs 2 1
  if bit c 0 = false then 0 else if bit c 4 then 8 * leAt bs 6 2 else if bit c 5 then 1024 else 2048

/-- Bytes that a probe sketch's header requires (R171, R211). -/
def sketchNeed (bs : List Byte) : Nat :=
  56 + (if bit (leAt bs 2 1) 3 then 40 else 0) + 12 * (leAt bs 3 1 % 16) + 12 * (leAt bs 3 1 / 16) + histNeed bs

/-- A probe sketch taken apart. -/
def sketchOf (bs : List Byte) : SketchIn :=
  let c := leAt bs 2 1
  let m := if bit c 3 then 40 else 0
  let nh := leAt bs 3 1 % 16
  let nl := leAt bs 3 1 / 16
  let b := bs.drop 56
  let h := b.drop (m + 12 * nh + 12 * nl)
  let bins : Tbl Nat :=
    if bit c 0 = false then []
    else if bit c 4 then
      (List.range (leAt bs 6 2)).foldl (fun t i => (binAdd t (leAt h (8 * i) 2 % 512) (leAt h (8 * i + 4) 4)).2) []
    else (List.range (if bit c 5 then 256 else 512)).filterMap (fun i =>
      let n := leAt h (4 * i) 4
      if n = 0 then none else some (i, n))
  let f := leAt bs 4 2
  { probe := leAt bs 0 2 % 1024, comp := c % 16, xform := leAt bs 30 1 % 8, shift := leAt bs 31 1, len := leAt bs 8 4,
    denseFine := bit c 0 && !(bit c 4) && !(bit c 5),
    acc := { coarse := bit c 5, hsat := bit f 0, msat := bit f 1, mismatch := bit f 2, nVal := leAt bs 12 4 % 2 ^ 20,
             nStale := leAt bs 16 4 % 2 ^ 20, nMissing := leAt bs 20 4 % 2 ^ 20, nSat := leAt bs 24 4 % 2 ^ 20, bins := bins,
             hi := extremesOf (b.drop m) nh, lo := extremesOf (b.drop (m + 12 * nh)) nl,
             count := if bit c 3 then leAt b 0 8 % 2 ^ 40 else 0, sum := if bit c 3 then leAt b 8 16 % 2 ^ 96 else 0,
             sumsq := if bit c 3 then leAt b 24 16 else 0 } }

/-- The items of a sketch section, one after another; none where it cannot be walked (R171, R209). -/
def walkItems : Nat → List Byte → Option (List (List Byte))
  | 0, bs => if bs.isEmpty then some [] else none
  | n + 1, bs =>
    if bs.isEmpty then some []
    else
      let tag := leAt bs 0 2
      let need := if tag = 0xFC00 then 8 + 8 * leAt bs 2 1 else sketchNeed bs
      let len := if tag = 0xFC00 then need else leAt bs 8 4
      if bs.length < (if tag = 0xFC00 then 8 else 56) ∨ (tag ≠ 0xFC00 ∧ 1024 ≤ tag) ∨ len < need ∨ bs.length < len ∨ len % 4 ≠ 0
      then none
      else (walkItems n (bs.drop len)).map (fun r => bs.take len :: r)

/-- The items of a sketch section (R209). -/
def sketchItems (bs : List Byte) : Option (List (List Byte)) := walkItems (bs.length / 8 + 1) bs

/-- Cost of merging an item (R232). -/
def itemCost (coarse : Bool) (bs : List Byte) : Nat :=
  if leAt bs 0 2 = 0xFC00 then bs.length
  else if coarse then
    let nh := leAt bs 3 1 % 16
    let nl := leAt bs 3 1 / 16
    let c := leAt bs 2 1
    bs.length - (if bit c 0 && !(bit c 4) && !(bit c 5) then 1024 else 0) - 12 * (nh - 4) - 12 * (nl - 4)
  else bs.length

/-- Cost of merging a sketch section, `coarse` telling the probes whose accumulators are coarse (R232). -/
def sectionCost (coarse : Nat → Bool) (bs : List Byte) : Nat :=
  ((sketchItems bs).getD []).foldl (fun n i => n + itemCost (coarse (leAt i 0 2)) i) 0

/-! ### Votes (R222 to R228) -/

/-- A vote table without entries. -/
def votesBlank : Votes :=
  { table := [], spill := [], ovf := 0, approx := false, csat := false, spilled := false, own := [] }

/-- The largest COUNT (R222). -/
def voteMax : Nat := 2 ^ 24 - 1

/-- The key of a suspect number and KIND (R222). -/
def voteKey (suspect kind : Nat) : Nat := suspect * 256 + kind

/-- The suspect number of a key. -/
def keySuspect (k : Nat) : Nat := k / 256

/-- The KIND of a key. -/
def keyKind (k : Nat) : Nat := k % 256

/-- Whether entry `a` yields to entry `b`: lower COUNT first, then higher suspect number, then higher KIND (R226). Both
are (key, COUNT). -/
def voteYields (a b : Nat × Nat) : Bool := decide (a.2 < b.2) || (a.2 == b.2 && decide (b.1 < a.1))

/-- The entry that yields first. -/
def weakest : List (Nat × Nat) → Option (Nat × Nat)
  | [] => none
  | e :: es =>
    match weakest es with
    | none => some e
    | some w => if voteYields e w then some e else some w

/-- Add a count to the entry of a key that is held, saturating (R225); answers whether it saturated. -/
def voteAdd (t : Tbl Nat) (k n : Nat) : Bool × Tbl Nat :=
  let v := (Tbl.get? t k).getD 0 + n
  (decide (voteMax < v), Tbl.set t k (min v voteMax))

/-- What entering a vote did: a COUNT saturated, an entry was evicted, an entry was spilled. -/
structure VoteFx where
  csat : Bool
  evicted : Bool
  spilled : Bool
  deriving DecidableEq, Repr

/-- Enter a count under a key (R225 to R227); `size` is the working table's, `strict` the mode. -/
def voteEnter (size : Nat) (strict : Bool) (k n : Nat) (v : Votes) : VoteFx × Votes :=
  if (Tbl.get? v.table k).isSome then
    let (s, t) := voteAdd v.table k n
    (⟨s, false, false⟩, { v with table := t, csat := v.csat || s })
  else if (Tbl.get? v.spill k).isSome then
    let (s, t) := voteAdd v.spill k n
    (⟨s, false, false⟩, { v with spill := t, csat := v.csat || s })
  else if v.table.length < size then
    (⟨false, false, false⟩, { v with table := Tbl.set v.table k (min n voteMax) })
  else if strict then
    (⟨false, false, true⟩, { v with spill := Tbl.set v.spill k (min n voteMax), spilled := true })
  else
    let t := Tbl.set v.table k (min n voteMax)
    match weakest t with
    | none => (⟨false, false, false⟩, v)
    | some w =>
      (⟨false, true, false⟩,
       { v with table := Tbl.erase t w.1, ovf := min (v.ovf + w.2) (2 ^ 32 - 1), approx := true })

/-- A key among those that a node's own sources have raised: bit 40 tells a Transit residual from a tracker's vote (R224). -/
def ownKey (residual : Bool) (key : Nat) : Nat := key % 2 ^ 40 + b2n residual * 2 ^ 40

/-- Distinct entries that a source may raise (R224). -/
def ownLimit (kind : Nat) (residual : Bool) : Nat :=
  if kind = 1 then 8 else if residual then 32 else if kind = 2 then 256 else 64

/-- Distinct entries of a source already raised. -/
def ownCount (v : Votes) (kind : Nat) (residual : Bool) : Nat :=
  (v.own.filter (fun k => keyKind k == kind && decide (2 ^ 40 ≤ k) == residual)).length

/-- The `n` strongest entries of a list, and the rest. -/
def strongest : Nat → List (Nat × Nat) → List (Nat × Nat) × List (Nat × Nat)
  | 0, es => ([], es)
  | n + 1, es =>
    match es.foldl (fun (b : Option (Nat × Nat)) e => match b with
        | none => some e
        | some w => if voteYields w e then some e else some w) none with
    | none => ([], [])
    | some b => let (ks, rs) := strongest n (es.filter (· != b)); (b :: ks, rs)

/-- The vote cut at the gate (R228): the 64 strongest entries in ascending key order, the rest counted in OVF. -/
def voteCut (v : Votes) : Votes :=
  let (ks, rs) := strongest 64 (v.table ++ v.spill)
  { v with table := ks.foldl (fun t e => Tbl.set t e.1 e.2) [], spill := [],
           ovf := min (v.ovf + rs.foldl (fun n e => n + e.2) 0) (2 ^ 32 - 1), approx := v.approx || !rs.isEmpty }

/-- The bytes of a vote entry (R222). -/
def voteBytes (e : Nat × Nat) : List Byte := leBytes 8 (keySuspect e.1 % 2 ^ 32 + keyKind e.1 * 2 ^ 32 + e.2 * 2 ^ 40)

/-- The vote section after its cut; empty where it is omitted (R208, R223). -/
def voteSection (v : Votes) : List Byte :=
  if v.table.isEmpty && v.ovf == 0 && !v.approx then []
  else
    leBytes 2 0xFC00 ++ leBytes 1 v.table.length ++ leBytes 1 (b2n v.approx + b2n v.csat * 2 + b2n v.spilled * 4) ++
      leBytes 4 v.ovf ++ v.table.flatMap voteBytes

/-- The entries of a vote section: key and COUNT. -/
def voteEntries (bs : List Byte) : List (Nat × Nat) :=
  (List.range (leAt bs 2 1)).map (fun i =>
    let e := leAt bs (8 + 8 * i) 8
    (voteKey (e % 2 ^ 32) (e / 2 ^ 32 % 256), e / 2 ^ 40))

end Sys2Proof.Machine
end

