-- ==== Sys2Proof/Machine/Contexts.lean ====
section
/-! DEFINITION. Reduction contexts (R229 to R231, R240, R241, R251): where they are found, what their registers show, and
how votes enter them (R224 to R227). -/

namespace Sys2Proof.Machine

/-! ### Finding contexts -/

/-- Contexts of the build (R44). -/
def State.ctxMax (s : State) : Nat := if s.isTray then 256 else 16

/-- Pages of the Tally store (R229). -/
def State.pageMax (s : State) : Nat := if s.isTray then 12288 else 256

/-- Pages that one context may take (R229). -/
def State.ctxPageMax (s : State) : Nat := if s.isTray then 320 else 256

/-- Entries of a vote working table (R226). -/
def State.tableSize (s : State) : Nat := if s.isTray then 1024 else 512

/-- Context `n`, where it is not FREE. -/
def State.ctx? (s : State) (n : Nat) : Option Ctx := Tbl.get? s.par.ctxs n

/-- Put context `n`. -/
def State.setCtx (s : State) (n : Nat) (c : Ctx) : State := { s with par := { s.par with ctxs := Tbl.set s.par.ctxs n c } }

/-- Change context `n`. -/
def State.modCtx (s : State) (n : Nat) (f : Ctx → Ctx) : State :=
  { s with par := { s.par with ctxs := Tbl.modify s.par.ctxs n f } }

/-- The contexts of a parcel, by number. -/
def State.ctxsOf (s : State) (parcel : Nat) : List (Nat × Ctx) := s.par.ctxs.filter (fun e => e.2.parcel == parcel)

/-- The context of a parcel at a level. -/
def State.ctxAt (s : State) (parcel level : Nat) : Option (Nat × Ctx) :=
  (s.ctxsOf parcel).find? (fun e => e.2.level == level)

/-- The context of a parcel at the lowest level held. -/
def State.ctxLow (s : State) (parcel : Nat) : Option (Nat × Ctx) :=
  (List.range 5).findSome? (fun l => s.ctxAt parcel l)

/-- The context of a parcel at the highest level held. -/
def State.ctxHigh (s : State) (parcel : Nat) : Option (Nat × Ctx) :=
  [4, 3, 2, 1, 0].findSome? (fun l => s.ctxAt parcel l)

/-- The context at which the instance publishes a parcel. -/
def State.ctxPub (s : State) (parcel : Nat) : Option (Nat × Ctx) := (s.ctxsOf parcel).find? (fun e => e.2.pub)

/-- The level of the station's own context: its contribution enters there. -/
def State.ownLevel (s : State) : Nat := if s.isTray then 1 else 0

/-- Whether the station is a member of the parcel of a context. -/
def Ctx.isMember (c : Ctx) : Bool := c.self

/-- Whether a context counts epochs: LIVE or RELEASING (R240). -/
def Ctx.isLive (c : Ctx) : Bool := c.phase == .live || c.phase == .releasing

/-- The epoch in progress of a context, if one is. -/
def Ctx.current (c : Ctx) : Option Epoch := c.epochs.find? (fun e => e.endCut.isNone)

/-- An epoch of a context by number. -/
def Ctx.epoch? (c : Ctx) (k : Nat) : Option Epoch := c.epochs.find? (fun e => e.k == k)

/-- Change an epoch of a context. -/
def Ctx.modEpoch (c : Ctx) (k : Nat) (f : Epoch → Epoch) : Ctx :=
  { c with epochs := c.epochs.map (fun e => if e.k = k then f e else e) }

/-- Change an epoch of context `n`. -/
def State.modEpoch (s : State) (n k : Nat) (f : Epoch → Epoch) : State := s.modCtx n (fun c => c.modEpoch k f)

/-- An epoch of context `n`. -/
def State.epoch? (s : State) (n k : Nat) : Option Epoch := (s.ctx? n).bind (fun c => c.epoch? k)

/-- Boundary `k` of a context in clock units (R169). -/
def Ctx.boundary (c : Ctx) (k : Nat) : Nat := c.t0 + k * nsU (c.period * 10000)

/-- Epoch numbers (R170). -/
def epochLimit : Nat := 2 ^ 40

/-! ### Accounting (R230, R241, R251) -/

/-- Numbers of the pages that contexts hold (R230). -/
def State.pagesHeld (s : State) : List Nat := s.par.ctxs.flatMap (fun e => e.2.pages)

/-- Pages free (R230). -/
def State.pagesFree (s : State) : Nat := s.pageMax - s.pagesHeld.length

/-- The `n` lowest page numbers from `p` on that are not held; the fuel counts the pages looked at. -/
def lowPages : Nat → Nat → Nat → List Nat → List Nat
  | 0, _, _, _ => []
  | f + 1, p, n, held =>
    if n = 0 then []
    else if held.contains p then lowPages f (p + 1) n held
    else p :: lowPages f (p + 1) (n - 1) held

/-- The `n` lowest-numbered free pages of the store (R230). -/
def State.lowestPages (s : State) (n : Nat) : List Nat := lowPages s.pageMax 0 n s.pagesHeld

/-- Contexts free (R230). -/
def State.ctxFree (s : State) : Nat := s.ctxMax - s.par.ctxs.length

/-- The station's membership count (R34, R240). -/
def State.membership (s : State) : Nat := (s.par.ctxs.filter (fun e => e.2.counted)).length

/-- Contexts in a phase. -/
def State.inPhase (s : State) (ps : List CtxPhase) : Nat := (s.par.ctxs.filter (fun e => ps.contains e.2.phase)).length

/-- PAR_OCC (R251, R263). -/
def State.parOcc (s : State) : Nat :=
  s.inPhase [.reserved] + s.inPhase [.armed, .live] * 2 ^ 9 + s.inPhase [.releasing, .draining] * 2 ^ 18

/-- PAR_SERVED (R251). -/
def State.parServed (s : State) : Nat := s.par.ctxs.foldl (fun n e => n + e.2.members) 0

/-- PAR_THIN (R251). -/
def State.parThin (s : State) : Nat := (s.par.ctxs.filter (fun e => decide (e.2.members < s.getF PAR_CTL 0 10))).length

/-- Whether any context is held. -/
def State.anyCtx (s : State) : Bool := !s.par.ctxs.isEmpty

/-- Number of a context's phase (R263). -/
def phaseNo : CtxPhase → Nat
  | .reserved => 1
  | .armed => 2
  | .live => 3
  | .releasing => 4
  | .draining => 5

/-- The oldest epoch of a context that has ended, or none. -/
def Ctx.oldestOpen (c : Ctx) : Option Epoch := c.epochs.find? (fun e => e.endCut.isSome)

/-- The oldest ended epoch whose gate is open. -/
def Ctx.openGate (c : Ctx) : Option Epoch := c.epochs.find? (fun e => e.endCut.isSome && !e.gate)

/-- Children of an epoch not yet settled (R183). -/
def Epoch.outstanding (e : Epoch) : Nat :=
  (e.kids.filter (fun x => x.phase == .outstanding)).length + b2n (e.own == .waiting)

/-- Whether a contribution awaits its RESOLVE (R188). -/
def Epoch.awaitsResolve (e : Epoch) : Bool := e.kids.any (fun x => x.pending)

/-- EPO_CTX_n_WAIT (R207): a live view of the oldest open epoch. -/
def Ctx.wait (c : Ctx) : Nat :=
  match if c.level = 0 then none else c.openGate with
  | none => b2n c.stalled * 2 ^ 31
  | some e => b2n c.stalled * 2 ^ 31 + b2n e.awaitsResolve * 2 ^ 30 + e.outstanding % 256

/-- TAL_CTX_n_STATE (R239): a live view of the oldest open epoch. -/
def Ctx.tally (c : Ctx) : Nat :=
  match c.epochs.find? (fun e => e.endCut.isSome && !e.sentPending) with
  | none => 0
  | some e => b2n e.coarse * 2 ^ 31 + b2n (!e.votes.spill.isEmpty) * 2 ^ 30 + (e.votes.table.length + e.votes.spill.length)

/-- Bytes of a context buffer (R229). -/
def bufferBytes (tray : Bool) (ps : List ProbeEnt) : Nat :=
  256 + (if tray then 8192 else 4096) +
    ((ps.filter (fun p => p.sketch % 16 != 0)).foldl (fun n p => n + (if tray || p.xform == 3 then 2336 else 16)) 0)

/-- Pages of a context (R229). -/
def ctxPages (tray : Bool) (ps : List ProbeEnt) : Nat := 2 * ceilDiv (bufferBytes tray ps) 4096

/-! ### Votes (R224 to R227) -/

/-- Enter a vote into an epoch's table, and count what it did. -/
def enterVote (n k key count : Nat) (s : State) : State :=
  match s.epoch? n k with
  | none => s
  | some e =>
    let (fx, v) := voteEnter s.tableSize (s.getB EPO_CTL 0) key count e.votes
    let s1 := s.modEpoch n k (fun x => { x with votes := v })
    let s2 := if fx.csat then s1.evt TAL_EVT 3 else s1
    let s3 := if fx.evicted then s2.inc TAL_EVICT 1 else s2
    if fx.spilled then (s3.inc TAL_SPILL 1).evt TAL_EVT 4 else s3

/-- One of the node's own sources raises a vote in an epoch (R224): a distinct entry beyond its figure is dropped. `residual` tells
Transit's residuals from the trackers. Answers whether the vote was raised. -/
def raiseVoteOf (residual : Bool) (n k kind suspect count : Nat) (s : State) : Bool × State :=
  match s.epoch? n k with
  | none => (false, s)
  | some e =>
    let key := voteKey suspect kind
    let own := ownKey residual key
    if e.votes.own.contains own then (true, enterVote n k key count s)
    else if ownLimit kind residual ≤ ownCount e.votes kind residual then
      (false, (((s.modEpoch n k (fun x => { x with votes := { x.votes with approx := true } })).inc TAL_OWN_DROP 1).evt TAL_EVT 6))
    else (true, enterVote n k key count (s.modEpoch n k (fun x => { x with votes := { x.votes with own := x.votes.own ++ [own] } })))

/-- A vote of a source that is no Transit residual. -/
def raiseVote (n k kind suspect count : Nat) (s : State) : Bool × State := raiseVoteOf false n k kind suspect count s

/-- A suspect number (R222). -/
def suspectNo (station unit : Nat) : Nat := station % 2 ^ 20 * 4096 + unit % 4096

/-- A vote against a unit of the own station, in the epoch in progress of every LIVE parcel of which the station is a
member (R397, R401). -/
def ownVoteAll (kind unit count : Nat) (s : State) : State :=
  s.each (s.par.ctxs.filter (fun e => e.2.isLive && e.2.self && e.2.level == s.ownLevel)) (fun e t =>
    match e.2.current with
    | none => t
    | some ep => (raiseVote e.1 ep.k kind (suspectNo t.station unit) count t).2)

/-- Mark every epoch in progress (R66, R180). -/
def markCurrent (f : Epoch → Epoch) (s : State) : State :=
  { s with par := { s.par with ctxs := s.par.ctxs.map (fun e =>
      (e.1, { e.2 with epochs := e.2.epochs.map (fun x => if x.endCut.isNone then f x else x) })) } }

end Sys2Proof.Machine
end

