-- ==== Sys2Proof/Machine/Float.lean ====
section
/-! DEFINITION. IEEE 754 binary32, rounding to nearest with ties to even. Every finite value is a whole number of units
of 2⁻¹⁴⁹, so each operation is exact on integers or quotients and rounds once. -/

namespace Sys2Proof.Machine

/-- Units of 1.0: 2¹⁴⁹. -/
def f32One : Nat := 2 ^ 149

/-- Sign bit. -/
def f32Neg (b : Nat) : Bool := bit b 31

/-- Biased exponent. -/
def f32Exp (b : Nat) : Nat := fld b 23 8

/-- Fraction. -/
def f32Frac (b : Nat) : Nat := fld b 0 23

/-- Whether the bits are a NaN. -/
def f32IsNan (b : Nat) : Bool := f32Exp b == 255 && f32Frac b != 0

/-- Whether the bits are an infinity. -/
def f32IsInf (b : Nat) : Bool := f32Exp b == 255 && f32Frac b == 0

/-- Whether the bits are finite. -/
def f32Finite (b : Nat) : Bool := f32Exp b != 255

/-- The quiet NaN the model writes where an operation has no numeric result. -/
def f32QNan : Nat := 0x7FC00000

/-- Magnitude of a finite value in units of 2⁻¹⁴⁹. -/
def f32Mag (b : Nat) : Nat := if f32Exp b = 0 then f32Frac b else (2 ^ 23 + f32Frac b) * 2 ^ (f32Exp b - 1)

/-- A finite value in units of 2⁻¹⁴⁹. -/
def f32Units (b : Nat) : Int := if f32Neg b then -(f32Mag b : Int) else (f32Mag b : Int)

/-- `n / d` rounded to an integer, ties to even. -/
def rne (n d : Nat) : Nat :=
  let q := n / d
  let r := 2 * (n % d)
  if r < d then q else if d < r then q + 1 else q + q % 2

/-- Bits of a magnitude of `u` units, a whole number of its own last place; infinity beyond the range. -/
def f32Enc (u : Nat) : Nat :=
  if u < 2 ^ 24 then u
  else
    let k := u.log2 - 23
    if 254 ≤ k then 0x7F800000 else k * 2 ^ 23 + u / 2 ^ k

/-- The magnitude `n / d` units rounded to binary32. -/
def f32RoundMag (n d : Nat) : Nat :=
  let q := n / d
  if q < 2 ^ 24 then f32Enc (rne n d)
  else let k := q.log2 - 23; f32Enc (rne n (d * 2 ^ k) * 2 ^ k)

/-- `± n / d` units rounded to binary32. -/
def f32Round (neg : Bool) (n d : Nat) : Nat := b2n neg * 2 ^ 31 + f32RoundMag n d

/-- An exact integer number of units over `d`, rounded; zero is positive. -/
def f32OfInt (z : Int) (d : Nat) : Nat := f32Round (decide (z < 0)) z.natAbs d

/-- The correctly rounded quotient of two natural numbers; plus infinity for a divisor of 0. -/
def f32Quot (n d : Nat) : Nat := if d = 0 then 0x7F800000 else f32Round false (n * f32One) d

/-- A natural number as binary32. -/
def f32OfNat (n : Nat) : Nat := f32Quot n 1

/-- Change of sign. -/
def f32Negate (a : Nat) : Nat := if f32Neg a then a % 2 ^ 31 else a % 2 ^ 31 + 2 ^ 31

/-- Magnitude. -/
def f32Abs (a : Nat) : Nat := a % 2 ^ 31

/-- Sum. -/
def f32Add (a b : Nat) : Nat :=
  if f32IsNan a || f32IsNan b then f32QNan
  else if f32IsInf a then (if f32IsInf b && f32Neg a != f32Neg b then f32QNan else a)
  else if f32IsInf b then b
  else
    let z := f32Units a + f32Units b
    if z = 0 then b2n (f32Neg a && f32Neg b) * 2 ^ 31 else f32OfInt z 1

/-- Difference. -/
def f32Sub (a b : Nat) : Nat := f32Add a (if f32IsNan b then b else f32Negate b)

/-- Product. -/
def f32Mul (a b : Nat) : Nat :=
  let sg := f32Neg a != f32Neg b
  if f32IsNan a || f32IsNan b then f32QNan
  else if f32IsInf a || f32IsInf b then
    (if (f32Finite a && f32Mag a == 0) || (f32Finite b && f32Mag b == 0) then f32QNan else b2n sg * 2 ^ 31 + 0x7F800000)
  else f32Round sg (f32Mag a * f32Mag b) f32One

/-- Quotient. -/
def f32Div (a b : Nat) : Nat :=
  let sg := f32Neg a != f32Neg b
  if f32IsNan a || f32IsNan b then f32QNan
  else if f32IsInf a then (if f32IsInf b then f32QNan else b2n sg * 2 ^ 31 + 0x7F800000)
  else if f32IsInf b then b2n sg * 2 ^ 31
  else if f32Mag b = 0 then (if f32Mag a = 0 then f32QNan else b2n sg * 2 ^ 31 + 0x7F800000)
  else f32Round sg (f32Mag a * f32One) (f32Mag b)

/-- Order on values; a NaN is ordered with nothing, the two zeros are equal. -/
def f32Lt (a b : Nat) : Bool :=
  if f32IsNan a || f32IsNan b then false
  else if f32IsInf a then f32Neg a && !(f32IsInf b && f32Neg b)
  else if f32IsInf b then !f32Neg b
  else decide (f32Units a < f32Units b)

/-- Less or equal. -/
def f32Le (a b : Nat) : Bool := !(f32IsNan a) && !(f32IsNan b) && !f32Lt b a

/-- Bits of a bfloat16 as binary32. -/
def bf16ToF32 (h : Nat) : Nat := h % 65536 * 65536

/-- binary32 rounded to bfloat16, ties to even; a NaN stays a NaN. -/
def f32ToBf16 (b : Nat) : Nat :=
  if f32IsNan b then b / 65536 % 65536 ||| 0x40 else rne b 65536 % 65536

end Sys2Proof.Machine
end

