-- ==== Sys2Proof/Machine/LandingCore.lean ====
section
/-! DEFINITION. Landing's queues (R500 to R507): frames that wait in their flows, token buckets, and where a station is
reached. -/

namespace Sys2Proof.Machine

/-! ### Where a station is reached (R504, R511) -/

/-- The four words of a 128-bit register array from word 0. -/
def State.rdIp (s : State) (l : Nat → Loc) : Nat :=
  s.rd (l 0) + s.rd (l 1) * 2 ^ 32 + s.rd (l 2) * 2 ^ 64 + s.rd (l 3) * 2 ^ 96

/-- Put a 128-bit number into a register array. -/
def wrIp (l : Nat → Loc) (v : Nat) (s : State) : State := s.each (List.range 4) (fun w t => t.wr (l w) (fld v (32 * w) 32))

/-- Whether role `l` of the tree is held (R31, R511). -/
def State.roleHeld (s : State) (l : Nat) : Bool := s.getB (LND_TREE_ID l) 31

/-- Whether role `l` is the root's. -/
def State.roleRoot (s : State) (l : Nat) : Bool := s.getB (LND_TREE_ID l) 30

/-- The parent of role `l`. -/
def State.roleParent (s : State) (l : Nat) : Nat := s.getF (LND_TREE_ID l) 0 20

/-- The parent's level. -/
def State.roleParentLevel (s : State) (l : Nat) : Nat := s.getF (LND_TREE_ID l) 24 3

/-- The address of role `l`'s parent. -/
def State.roleParentAddr (s : State) (l : Nat) : LndAddr :=
  { stream := s.getF (LND_TREE_ID l) 29 1, ip := s.rdIp (LND_TREE_ADDR l) }

/-- The children of role `l` of 2 or more, by index: station and address. -/
def State.roleChildren (s : State) (l : Nat) : List (Nat × LndAddr) :=
  (List.range (s.getF (LND_TREE_N l) 0 7)).map (fun k =>
    (s.getF (LND_TREE_CH l k) 0 20,
     { stream := s.getF (LND_TREE_CH l k) 30 1, ip := (Tbl.get? s.lnd.childIp (64 * l + k)).getD 0 }))

/-- Where the tree entries reach a tray station, if one names it. -/
def State.lndAddr (s : State) (st : Nat) : Option LndAddr :=
  match ([1, 2, 3, 4].filter (fun l => s.roleHeld l && !(s.roleRoot l) && s.roleParent l == st)).head? with
  | some l => some (s.roleParentAddr l)
  | none =>
    ([2, 3, 4].filter s.roleHeld).findSome? (fun l => ((s.roleChildren l).find? (fun c => c.1 == st)).map (·.2))

/-! ### Token buckets (R506 to R508) -/

/-- Key of a stream and class. -/
def lndKey (stream cls : Nat) : Nat := 8 * stream + cls

/-- The rate and burst registers of a bucket: a shaper, or a policer from 64 on. -/
def lndRate (k : Nat) : Loc := if k < 64 then LND_SHP_RATE (k / 8) (k % 8) else LND_POL_RATE ((k - 64) / 2) (k % 2)
/-- The burst register of a bucket. -/
def lndBurst (k : Nat) : Loc := if k < 64 then LND_SHP_BURST (k / 8) (k % 8) else LND_POL_BURST ((k - 64) / 2) (k % 2)

/-- A bucket brought up to the present edge: tokens accrue at RATE, 8 thousandths of a byte per edge and unit of 10 MB/s,
up to BURST (R506). -/
def State.bucket (s : State) (k : Nat) : Nat :=
  let top := s.getF (lndBurst k) 0 16 * 1024 * 1000
  match Tbl.get? s.lnd.buckets k with
  | none => top
  | some b => min top (b.milli + s.getF (lndRate k) 0 16 * 8 * (s.dat.edges - b.since))

/-- Put a bucket's tokens. -/
def putBucket (k milli : Nat) (s : State) : State :=
  { s with lnd := { s.lnd with buckets := Tbl.set s.lnd.buckets k { milli := milli, since := s.dat.edges } } }

/-- Take `n` bytes of tokens. -/
def takeTokens (k n : Nat) (s : State) : State := putBucket k (s.bucket k - n * 1000) s

/-! ### Joining a flow (R500 to R502, R505) -/

/-- Length of a frame of `n` items of `size` bytes: Ethernet, IPv6, UDP and bundle headers before them (R500, R501). -/
def frameLen (n size : Nat) : Nat := 14 + 40 + 8 + 16 + n * size

/-- Length of a queued frame. -/
def LndFrame.len (f : LndFrame) : Nat := frameLen f.items.length (if f.kind = 1 then 64 else 128)

/-- The virtual time of a class and stream (R505). -/
def State.lndV (s : State) (k : Nat) : Nat := (Tbl.get? s.lnd.served k).getD 0

/-- A frame joins its flow: it takes its start tag, and the flow's finish tag moves on (R505). -/
def joinFlow (stream cls ip kind : Nat) (items : List (List Byte)) (s : State) : State :=
  let k := lndKey stream cls
  let fs := (Tbl.get? s.lnd.flows k).getD []
  let (i, fs1) :=
    match fs.findIdx? (fun f => f.ip == ip) with
    | some i => (i, fs)
    | none => if fs.length < 64 then (fs.length, fs ++ [({ ip := ip, finish := 0 } : LndFlow)]) else (63, fs)
  let f := fs1.getD i { ip := ip, finish := 0 }
  let st := max (s.lndV k) f.finish
  let fr : LndFrame := { stream := stream, cls := cls, flow := i, start := st, ip := ip, kind := kind, items := items }
  { s with lnd := { s.lnd with frames := s.lnd.frames ++ [fr],
                               flows := Tbl.set s.lnd.flows k (fs1.set i { f with finish := (st + fr.len) % 2 ^ 64 }) } }

/-- The cells of a message for a station over Landing, numbered by their source per class (R106, R502). -/
def landingCells : Nat → TxMsg → Nat → Nat → List (List Byte)
  | 0, _, _, _ => []
  | n + 1, m, src, seq =>
    if m.bytes.length ≤ m.sent then []
    else (m.next src seq).bytes :: landingCells n { m with sent := m.sent + 112 } src ((seq + 1) % 65536)

/-- Cut a list into runs of 64. -/
def runs64 {α : Type} : Nat → List α → List (List α)
  | 0, _ => []
  | n + 1, xs => if xs.isEmpty then [] else xs.take 64 :: runs64 n (xs.drop 64)

/-- Send a message to a station at an address on Landing, in bundles of at most 64 cells.  The block numbers its
cells per class, whatever station they go to (R502). -/
def sendLanding (a : LndAddr) (m : TxMsg) (s : State) : State :=
  let seq := (Tbl.get? s.lnd.txSeq m.cls).getD 0
  let cells := landingCells (m.bytes.length + 1) m s.station seq
  let s1 := { s with lnd := { s.lnd with txSeq := Tbl.set s.lnd.txSeq m.cls ((seq + cells.length) % 65536) } }
  s1.each (runs64 (cells.length + 1) cells) (fun run t => joinFlow a.stream m.cls a.ip 0 run t)

/-- A message of a type to a tray station that a tree entry names; one that none names is not sent. -/
def sendTray (type st parcel epoch : Nat) (degraded : Bool) (body : List Byte) (s : State) : State :=
  match s.lndAddr st with
  | none => s
  | some a =>
    sendLanding a { cls := cellClassOf type, type := type, dst := st, parcel := parcel, epoch := epoch, auth := false,
                    degraded := degraded, retx := false, bytes := withCrc body, sent := 0 } s

/-- A verdict record to the sink, in the ALARM class (R348, R502). -/
def sendSink (rec : List Byte) (s : State) : State := joinFlow 0 1 s.lnd.sinkIp 1 [rec] s

/-- Messages that Landing's own part of a chain has queued go out to their stations (R502). -/
def flushLanding (s : State) : State :=
  match (s.chain 2).txq with
  | [] => s
  | q =>
    (s.setChain 2 { s.chain 2 with txq := [] }).each q (fun m t =>
      match t.lndAddr m.dst with
      | some a => sendLanding a m t
      | none => t)

end Sys2Proof.Machine
end

