-- ==== Sys2Proof/Machine/VerdictQueue.lean ====
section
/-! DEFINITION. Verdict records, the verdict queue, and alarms (R335 to R338, R347 to R349). -/

namespace Sys2Proof.Machine

/-- The fields of a verdict record (R335), SEQ and CRC apart. `evidence` is bytes 24 to 39. -/
structure Verdict where
  epoch : Nat
  kind : Nat
  parcel : Nat
  station : Nat
  unit : Nat
  level : Nat
  source : Nat
  flags : Nat
  score : Nat
  probe : Nat
  rule : Nat
  evidence : List Byte
  quant : Nat
  count : Nat
  basis : Nat
  deriving DecidableEq, Repr

/-- Bytes 0 to 51 of a verdict record (R335). -/
def Verdict.head (v : Verdict) : List Byte :=
  leBytes 5 v.epoch ++ leBytes 1 v.kind ++ leBytes 2 (v.parcel % 4096) ++
    leBytes 4 (v.station % 2 ^ 20 + v.unit % 4096 * 2 ^ 20) ++ leBytes 1 (v.level % 8 + v.source % 16 * 8) ++ zeros 1 ++
    leBytes 2 v.flags ++ leBytes 4 v.score ++ leBytes 2 (v.probe % 1024) ++ leBytes 1 (v.rule % 32) ++ zeros 1 ++
    padTo 16 v.evidence ++ leBytes 4 v.quant ++ leBytes 4 (v.count % 2 ^ 24) ++ leBytes 4 (v.basis % 2 ^ 20)

/-- A verdict's 64 bytes under a SEQ, with its CRC (R335). -/
def verdictBytes (head : List Byte) (seq : Nat) : List Byte := withCrc (padTo 52 head ++ leBytes 4 seq ++ zeros 4)

/-- Verdicts the queue holds (R349). -/
def State.vrdCap (s : State) : Nat := if s.isTray then 4096 else 64

/-- A verdict enters the queue; a full queue loses its oldest (R349). -/
def writeVerdict (head : List Byte) (s : State) : State :=
  let q := s.rd EPO_VRD_SEQ
  let s1 := ((s.wr EPO_VRD_SEQ (q + 1)).inc EPO_VRD_COUNT 1).evt EPO_VRD_EVT 0
  let full := decide (s.vrdCap ≤ s.vrd.queue.length)
  let old := s.rd EPO_VRD_OLDEST
  let kept := if full then Tbl.erase s.vrd.queue old else s.vrd.queue
  let s2 := { s1 with vrd := { s1.vrd with queue := Tbl.set kept q (verdictBytes head q) } }
  if full then s2.wr EPO_VRD_OLDEST (old + 1) else s2

/-- An alarm verdict (R335 to R338, R348). -/
def alarmVerdict (kind station unit rule count tEvent value : Nat) (rep : Bool) : Verdict :=
  { epoch := 0, kind := if kind = 1 then 5 else 6, parcel := 0, station := station, unit := unit, level := 1, source := 8,
    flags := 2 ^ 10 + b2n rep * 2 ^ 9, score := f32OfNat count, probe := 0, rule := rule,
    evidence := timeBytes tEvent ++ leBytes 4 value, quant := 0, count := count, basis := 0 }

/-- A node writes an alarm verdict, and sends it to the sink where SINK_EN is set (R348). -/
def putAlarm (v : Verdict) (s : State) : State :=
  let q := s.rd EPO_VRD_SEQ
  let s1 := writeVerdict v.head s
  if s.getB EPO_VRD_CTL 0 then sendSink (verdictBytes v.head q) s1 else s1

/-- A tray build handles an alarm of a station (R348). -/
def alarmIn (kind station unit rule tEvent value : Nat) (s : State) : State :=
  if kind ≠ 1 ∧ kind ≠ 2 then (s.inc EPO_VRD_ALARM_BAD 1).evt EPO_VRD_EVT 5
  else
    let s1 := s.inc EPO_VRD_ALARMS 1
    match s1.vrd.hold.find? (fun e => e.2.station == station && e.2.unit == unit && e.2.kind == kind) with
    | some (k, e) =>
      let e1 := { e with count := e.count + 1, rule := rule, tEvent := tEvent, value := value }
      let s2 := { s1 with vrd := { s1.vrd with hold := Tbl.set s1.vrd.hold k e1 } }
      (s2.inc EPO_VRD_ALARM_COAL 1).evt EPO_VRD_EVT 4
    | none =>
      let s2 := putAlarm (alarmVerdict kind station unit rule 1 tEvent value false) s1
      match Tbl.lowestFree s2.vrd.hold 64 with
      | none => s2
      | some k =>
        let e : HoldEnt := { station := station, unit := unit, kind := kind, rule := rule, count := 0, tEvent := tEvent,
                             value := value }
        { s2 with vrd := { s2.vrd with hold := Tbl.set s2.vrd.hold k e } }

/-- The payload of an ALARM message before its CRC (R347). -/
def alarmBytes (kind rule unit tEvent value : Nat) : List Byte :=
  leBytes 1 kind ++ leBytes 1 (rule % 32) ++ leBytes 2 (unit % 4096) ++ timeBytes tEvent ++ leBytes 4 value ++ zeros 4

/-- An ALARM message arrives at a tray build from a station (R347, R348); `bs` is its payload without the CRC. -/
def alarmReceive (src : Nat) (bs : List Byte) (s : State) : State :=
  if s.isTray then
    alarmIn (leAt bs 0 1) src (leAt bs 2 2 % 4096) (leAt bs 1 1 % 32) ((decTime (leAt bs 4 12)).getD 0) (leAt bs 16 4) s
  else s

/-- A station raises an alarm: a leaf sends it to its tray build, a tray build handles its own (R347, R348). -/
def raiseAlarm (kind rule unit value : Nat) (s : State) : State :=
  if s.isTray then alarmIn kind s.station unit rule s.now value s
  else sendUp 0xA 0 (alarmBytes kind rule unit s.now value) s

/-- A hold table entry ends (R348). -/
def alarmHoldEnd (k : Nat) (s : State) : State :=
  match Tbl.get? s.vrd.hold k with
  | none => s
  | some e =>
    let s1 := { s with vrd := { s.vrd with hold := Tbl.erase s.vrd.hold k } }
    if 0 < e.count then putAlarm (alarmVerdict e.kind e.station e.unit e.rule e.count e.tEvent e.value true) s1 else s1

/-- A verdict from another tray build enters the sink's queue under its own SEQ (R348). -/
def sinkVerdict (rec : List Byte) (s : State) : State := if crcOk rec then writeVerdict (rec.take 52) s else s

/-- VERDICT_READ's results (R349, R353). -/
def verdictRead (first count : Nat) (s : State) : List Word :=
  let oldest := s.rd EPO_VRD_OLDEST
  let top := s.rd EPO_VRD_SEQ
  let gap := s.vrd.queue != [] && decide ((first + 2 ^ 32 - oldest) % 2 ^ 32 ≥ 2 ^ 31)
  let start := if gap then oldest else first
  let recs := ((List.range count).filterMap (fun i => Tbl.get? s.vrd.queue ((start + i) % 2 ^ 32)))
  [w32 top, w32 (recs.length + b2n gap * 2 ^ 8)] ++ recs.flatMap bytesWords

end Sys2Proof.Machine
end

