-- ==== Sys2Proof/Machine/Plumb.lean ====
section
/-! DEFINITION. Plumb (R462, R468 to R471, R481): requests for a power state, channels and their filters, rules and
their actions. -/

namespace Sys2Proof.Machine

/-! ### Requests for a power state (R462, R537) -/

/-- Whether the bond test failed and the compute tier is held off (R537). -/
def State.bondFail (s : State) : Bool := s.getB PLM_POWER 2

/-- A transition toward a state begins: BUSY rises, and an entry from ACTIVE stops what R464 stops at its first step. -/
def beginTransition (t : Nat) (s : State) : State :=
  let s1 := { s with plm := { s.plm with goal := some t } }.putB PLM_POWER 3 true
  if s1.powerState = 0 then s1.later .powerEntry else s1

/-- A request sets TARGET; during a transition it waits for that one's end (R462). -/
def powerRequest (t : Nat) (s : State) : State :=
  let s1 := s.setF PLM_POWER 4 2 t
  if s1.plm.goal.isNone ∧ s1.powerState ≠ t then beginTransition t s1 else s1

/-- A wake request; discarded while the bond has failed (R537). -/
def requestWake (s : State) : State := if s.bondFail then s else powerRequest 0 s

/-! ### Channels (R468, R469, R531) -/

/-- A channel's period has passed: an enabled channel asks its sensor for a sample (R468). -/
def sampleTick (c : Nat) (s : State) : State :=
  if c < 16 ∧ s.getB (PLM_CH_CFG c) 31 = true then
    ({ s with plm := { s.plm with waiting := if s.plm.waiting.contains c then s.plm.waiting else s.plm.waiting ++ [c] } }).emit
      (.sample c)
  else s

/-- `x` in its place in an ascending list. -/
def insertAsc (x : Nat) : List Nat → List Nat
  | [] => [x]
  | y :: ys => if x ≤ y then x :: y :: ys else y :: insertAsc x ys

/-- The numbers of a list in ascending order. -/
def sortAsc (xs : List Nat) : List Nat := xs.foldr insertAsc []

/-- The median of five samples, or the latest while there are fewer (R469). -/
def median5 (xs : List Nat) : Nat := if xs.length < 5 then xs.headD 0 else (sortAsc (xs.take 5)).getD 2 0

/-- A sensor answers (R469). -/
def sampleAnswer (c data : Nat) (s : State) : State :=
  if s.plm.waiting.contains c then
    let old := (Tbl.get? s.plm.raw c).getD []
    let xs := (data % 65536 :: old).take 5
    let m := median5 xs
    let y := s.getF (PLM_CH_FILT c) 0 24
    let k := s.getF (PLM_CH_CFG c) 24 4
    let y1 := if old = [] then m * 256 else ofInt 24 ((y : Int) + ((m * 256 : Nat) - (y : Int)) / (2 ^ k : Nat))
    let s1 := { s with plm := { s.plm with raw := Tbl.set s.plm.raw c xs, waiting := s.plm.waiting.filter (· != c) } }
    (s1.wr (PLM_CH_RAW c) (data % 65536)).wr (PLM_CH_FILT c) y1
  else s

/-- A sample unanswered within 8 cycles is not taken (R531). -/
def sampleTimeout (c : Nat) (s : State) : State :=
  { s with plm := { s.plm with waiting := s.plm.waiting.filter (· != c) } }

/-- Plumb measures PLM_CLK against Datum time and trims its time base, while Datum is locked (R51). -/
def plumbTrim (cycles : Nat) (s : State) : State :=
  if s.getF DAT_STATE 0 3 = 2 then { s with plm := { s.plm with trim := some cycles } } else s

/-! ### Rules (R470, R471) -/

/-- v of condition `i` of a rule. -/
def State.condValue (s : State) (r i : Nat) : Nat := s.plmValue (s.getF (PLM_RULE_COND r i) 28 4)

/-- The latch of a condition after a tick (R470). -/
def State.condLatch (s : State) (r i : Nat) : Bool :=
  let old := s.getB (PLM_RULE_STATE r) (16 + i)
  let v := s.condValue r i
  let thr := s.getF (PLM_RULE_COND r i) 0 16
  let hyst := s.getF (PLM_RULE_COND r i) 16 11
  if s.getB (PLM_RULE_COND r i) 27 then
    (if v ≤ thr then true else if min 65535 (thr + hyst) < v then false else old)
  else (if thr ≤ v then true else if v < thr - hyst then false else old)

/-- Conditions a rule uses. -/
def State.ruleConds (s : State) (r : Nat) : List Nat := List.range (s.getF (PLM_RULE_CFG0 r) 28 2 + 1)

/-- Whether a rule's latches combine to true (R470). -/
def State.ruleHolds (s : State) (r : Nat) : Bool :=
  let ls := (s.ruleConds r).map (fun i => s.getB (PLM_RULE_STATE r) (16 + i))
  if s.getB (PLM_RULE_CFG0 r) 30 then ls.any id else ls.all id

/-- The ALARM of a rule (R471): kind, unit and the v of its first condition. -/
def ruleAlarm (r : Nat) (s : State) : State :=
  let s1 := raiseAlarm (if s.getB (PLM_RULE_CFG0 r) 22 then 2 else 1) r (s.getF (PLM_RULE_CFG1 r) 0 12) (s.condValue r 0) s
  { s1 with plm := { s1.plm with gap := Tbl.set s1.plm.gap r 0 } }

/-- A rule fires: its actions in order WAKE, ALARM, FAULT, LOG, STOP (R471). -/
def ruleFire (r : Nat) (s : State) : State :=
  let act (i : Nat) : Bool := s.getB (PLM_RULE_CFG0 r) i
  let s0 := (((s.setF (PLM_RULE_STATE r) 30 2 2).setF (PLM_RULE_STATE r) 0 16 (s.getF (PLM_RULE_CFG0 r) 0 16)).evt PLM_EVT 0).inc
    PLM_FIRES 1
  let s1 := if act 27 ∧ (s0.computeActive = false ∨ s0.plm.goal.isSome = true) then requestWake (s0.evt PLM_EVT 1) else s0
  let s2 := if act 26 then ruleAlarm r s1 else s1
  let s3 := if act 25 then faultEdge 9 s2 else s2
  let vs := (s3.ruleConds r).flatMap (fun i => leBytes 2 (s3.condValue r i))
  let s4 := if act 24 then logEvent 0x40 (leBytes 1 r ++ zeros 1 ++ vs) s3 else s3
  dieStopUpdate s4

/-- Rule `r` at a tick: its latches, then its state machine (R470, R471). -/
def ruleStep (r : Nat) (s : State) : State :=
  if s.getB (PLM_RULE_CFG0 r) 31 = false then s
  else
    let s1 := (s.ruleConds r).foldl (fun t i => t.putB (PLM_RULE_STATE r) (16 + i) (s.condLatch r i)) s
    let st := s1.getF (PLM_RULE_STATE r) 30 2
    let n := s1.getF (PLM_RULE_STATE r) 0 16
    let d := s1.getF (PLM_RULE_CFG0 r) 0 16
    if s1.ruleHolds r then
      if st = 2 then
        let g := (Tbl.get? s1.plm.gap r).getD 0 + 1
        if s1.getB (PLM_RULE_CFG0 r) 26 = true ∧ s1.getF (PLM_RULE_CFG1 r) 16 16 * 100 ≤ g then ruleAlarm r s1
        else { s1 with plm := { s1.plm with gap := Tbl.set s1.plm.gap r g } }
      else if d ≤ (if st = 0 then 1 else n + 1) then ruleFire r s1
      else (s1.setF (PLM_RULE_STATE r) 30 2 1).setF (PLM_RULE_STATE r) 0 16 (if st = 0 then 1 else n + 1)
    else (s1.setF (PLM_RULE_STATE r) 30 2 0).setF (PLM_RULE_STATE r) 0 16 0

/-! ### PLM_SET (R481, R483) -/

/-- PLM_SET's check of one pair. -/
def plmPairBad (off v : Nat) : Bool :=
  if 0x100 ≤ off ∧ off < 0x200 ∧ off % 16 = 0 then
    decide (2 < fld v 28 3) || fld v 16 8 != 0 || fld v 0 16 == 0
  else if 0x400 ≤ off ∧ off < 0x800 ∧ off % 4 = 0 ∧ off % 0x20 < 0x18 then
    if off % 0x20 = 0 then fld v 16 6 != 0 || fld v 0 16 == 0
    else if off % 0x20 = 4 then fld v 12 4 != 0 || fld v 16 16 == 0
    else false
  else true

/-- Write one pair of PLM_SET: a channel newly enabled starts its filter anew; a rule returns to IDLE (R469, R471). -/
def plmPut (off v : Nat) (s : State) : State :=
  if off < 0x200 then
    let c := (off - 0x100) / 16
    let fresh := !(s.getB (PLM_CH_CFG c) 31) || !(bit v 31)
    let s1 := s.wr (PLM_CH_CFG c) v
    if fresh then
      { s1 with plm := { s1.plm with raw := Tbl.erase s1.plm.raw c, waiting := s1.plm.waiting.filter (· != c) } }
    else s1
  else
    let r := (off - 0x400) / 0x20
    let w := off % 0x20 / 4
    let s1 := if w = 0 then s.wr (PLM_RULE_CFG0 r) v else if w = 1 then s.wr (PLM_RULE_CFG1 r) v
      else s.wr (PLM_RULE_COND r (w - 2)) v
    (s1.setF (PLM_RULE_STATE r) 30 2 0).setF (PLM_RULE_STATE r) 0 16 0

/-! ### Rule ticks (R470, R471) -/

/-- What PLM_SET wrote since the last rule tick takes effect (R481). -/
def plmApply (s : State) : State :=
  ({ s with plm := { s.plm with staged := [] } } : State).each s.plm.staged (fun p t => plmPut p.1 p.2 t)

/-- A rule tick: PLM_SET's writes take effect, extremes follow every v, then the rules in ascending number (R470, R476, R481). -/
def ruleTick (s0 : State) : State :=
  let s := plmApply s0
  let s1 := s.each s.plm.raw (fun e t => extNote e.1 (t.plmValue e.1) t)
  s1.each (List.range 32) ruleStep

/-- A rule whose count reaches DWELL at this tick fires (R471); one that has fired, or is not due, does not. -/
def ruleFireDue (r : Nat) (s : State) : State :=
  let st := s.getF (PLM_RULE_STATE r) 30 2
  let n := if st = 0 then 1 else s.getF (PLM_RULE_STATE r) 0 16 + 1
  if r < 32 ∧ s.getB (PLM_RULE_CFG0 r) 31 = true ∧ st ≠ 2 ∧ s.ruleHolds r = true ∧ s.getF (PLM_RULE_CFG0 r) 0 16 ≤ n then
    ruleFire r s
  else s

/-- GAP has passed since a fired rule's last ALARM (R471). -/
def ruleGapAlarm (r : Nat) (s : State) : State :=
  if r < 32 ∧ s.getF (PLM_RULE_STATE r) 30 2 = 2 ∧ s.ruleHolds r = true ∧ s.getB (PLM_RULE_CFG0 r) 26 = true ∧
      s.getF (PLM_RULE_CFG1 r) 16 16 * 100 ≤ (Tbl.get? s.plm.gap r).getD 0 + 1 then
    ruleAlarm r s
  else s

end Sys2Proof.Machine
end

