-- ==== Sys2Proof/Machine/PilotCore.lean ====
section
/-! DEFINITION. Pilot's common part (R405 to R425): launching a command, the checks of R409, replies, async slots, the
done queue, envelopes. -/

namespace Sys2Proof

open Machine

/-! ### Parameters of a command (R408) -/

/-- Parameter word `i` of a command, counted as the spec counts, the header being words 0 and 1. -/
def Cmd.w (c : Cmd) (i : Nat) : Nat := wAt c.params (i - 2)

/-- A field of a parameter word. -/
def Cmd.f (c : Cmd) (i lo len : Nat) : Nat := fld (c.w i) lo len

/-- Three parameter words as a Datum time, from word `i` (R56, R57). -/
def Cmd.time (c : Cmd) (i : Nat) : Option Nat := timeOfWords c.params (i - 2)

/-- Two parameter words as a 64-bit number, from word `i`. -/
def Cmd.w64 (c : Cmd) (i : Nat) : Nat := c.w i + c.w (i + 1) * 2 ^ 32

/-- Four parameter words as an IPv6 address, from word `i`. -/
def Cmd.ip (c : Cmd) (i : Nat) : Nat := c.w64 i + c.w64 (i + 2) * 2 ^ 64

/-- The authority of a command: an aperture never has more than CONFIGURE, and aperture 4 has SECURE (R407); an
envelope has its key's class (R419). -/
def Cmd.authority (c : Cmd) : Nat :=
  match c.src with
  | .aperture a => if a = 4 then 3 else min c.level 2
  | .remote _ _ _ => c.level

end Sys2Proof

namespace Sys2Proof.Machine

/-! ### Status codes (R410) -/

/-- OK. -/
def stOk : Nat := 0x00
/-- ACCEPTED. -/
def stAccepted : Nat := 0x01
/-- BAD_OPCODE. -/
def stBadOpcode : Nat := 0x10
/-- BAD_LEN. -/
def stBadLen : Nat := 0x11
/-- BAD_PARAM. -/
def stBadParam : Nat := 0x12
/-- NO_AUTH. -/
def stNoAuth : Nat := 0x13
/-- TOO_LATE. -/
def stTooLate : Nat := 0x14
/-- BUSY_POWER. -/
def stBusyPower : Nat := 0x20
/-- BUSY_CONTEXT. -/
def stBusyContext : Nat := 0x21
/-- NO_SPACE. -/
def stNoSpace : Nat := 0x22
/-- STOW_OVERFLOW. -/
def stStowOverflow : Nat := 0x23
/-- TIMEOUT. -/
def stTimeout : Nat := 0x30
/-- FENCED. -/
def stFenced : Nat := 0x31
/-- ABSENT. -/
def stAbsent : Nat := 0x32
/-- INTERNAL. -/
def stInternal : Nat := 0x3F

/-! ### What the opcode table says of a command (R425, R426) -/

/-- Builds that have a command (R41). -/
inductive OnBuild where
  | both | leafOnly | trayOnly
  deriving DecidableEq, Repr

/-- One opcode: its number, the authority class it needs, the builds that have it, whether its unit lies in the compute
tier (R43), whether it may reply ACCEPTED (R412), and the lengths it accepts given its parameters (R556). -/
structure OpInfo where
  code : Nat
  cls : Nat
  on : OnBuild
  compute : Bool
  async : Bool
  lenOk : List Word → Nat → Bool

/-- A fixed length. -/
def lenIs (n : Nat) : List Word → Nat → Bool := fun _ l => l == n

/-- An even length. -/
def lenEven : List Word → Nat → Bool := fun _ l => l % 2 == 0

/-- A length given by a count in the parameters (R556): `word` is the count's word number within the command, `count`
reads it from the parameters, `hi` bounds its range, `len` gives the length. -/
def lenCount (word : Nat) (count : List Word → Nat) (lo hi : Nat) (len : Nat → Nat) : List Word → Nat → Bool := fun ps l =>
  decide (word < l) &&
    (let n := count ps; if lo ≤ n ∧ n ≤ hi then l == len n else true)

/-- The answer of a command's own part: its reply, or that it has started and waits. -/
inductive Ans where
  | reply (status : Nat) (results : List Word)
  | started (phase : JobPhase) (data : JobData)

/-! ### Envelopes (R418, R421 to R423) -/

/-- The valid key slot that holds a KEY_ID (R417). -/
def State.keySlot (s : State) (keyId : Nat) : Option Nat :=
  (List.range 8).find? (fun i => s.getB (PIL_KEY_ID i) 31 && s.getF (PIL_KEY_ID i) 0 16 == keyId)

/-- The key in a slot. -/
def State.key (s : State) (slot : Nat) : List Byte := (Tbl.get? s.pil.keys slot).getD (zeros 32)

/-- The bytes an envelope's tag covers (R418). -/
def envBody (station : Nat) (reply : Bool) (keyId origin time : Nat) (words : List Word) : List Byte :=
  leBytes 3 station ++ leBytes 1 (b2n reply) ++ leBytes 2 keyId ++ zeros 2 ++ leBytes 4 origin ++ timeBytes time ++
    wordsBytes words

/-- A tag as the block computes it (R418); one that an injection awaits has its bit 0 inverted (R453). -/
def computeTag (key body : List Byte) (s : State) : List Byte × State :=
  let t := (hmac key body).take 16
  if s.flt.badTag then
    ((t.take 1).map (· ^^^ 1#8) ++ t.drop 1, ({ s with flt := { s.flt with badTag := false } } : State).evt FLT_EVT 5)
  else (t, s)

/-- An envelope with its tag (R418). -/
def envSeal (key body : List Byte) (s : State) : List Byte × State :=
  let (t, s1) := computeTag key body s
  (body ++ t, s1)

/-- The station that an envelope's ORIGIN names: for a node its station number (R418). -/
def stOrigin (origin : Nat) : Nat := origin % 2 ^ 20

/-- Hand an envelope to the way it goes: a REPLY or CMD message on a chain with AUTH set (R103, R418), or Landing. `station`
is the station the cells are for (R502): a command's STATION, a reply's ORIGIN (DEDUCED, log 100). -/
def sendEnvelope (via : Via) (reply : Bool) (station : Nat) (bs : List Byte) (s : State) : State :=
  match via with
  | .chain ch =>
    let dst := if s.isTray then station else stTrayStation s.station
    sendMsg ch { cls := 2, type := if reply then 9 else 8, dst := dst, parcel := 0, epoch := 0, auth := true,
                 degraded := false, retx := false, bytes := withCrc bs, sent := 0 } s
  | .landing a => { s with todo := s.todo ++ [.landEnv a reply station bs] }
  | .own => s

/-! ### Replies (R405, R408, R412, R413) -/

/-- The two words of a reply header (R408). -/
def replyHead (status : Nat) (final : Bool) (opcode tag n : Nat) : List Word :=
  [w32 (status + b2n final * 2 ^ 15 + (n + 2) * 2 ^ 16), w32 (tag % 2 ^ 16 + opcode * 2 ^ 16)]

/-- A whole reply. -/
def replyWords (status : Nat) (final : Bool) (c : Cmd) (opcode : Nat) (results : List Word) : List Word :=
  replyHead status final opcode c.tag results.length ++ results

/-- An aperture by number; an aperture not listed is FREE and empty. -/
def apBlank : Aperture := { st := .free, count := 0, have0 := false, mem := [], reply := [] }

/-- Aperture `a`. -/
def State.aperture (s : State) (a : Nat) : Aperture := (Tbl.get? s.pil.aps a).getD apBlank

/-- Put aperture `a`. -/
def State.setAperture (s : State) (a : Nat) (x : Aperture) : State :=
  { s with pil := { s.pil with aps := Tbl.put apBlank s.pil.aps a x } }

/-- Write a reply to an aperture (R405); while ZY_HRST_N is asserted it is discarded (R414). -/
def replyAperture (a : Nat) (ws : List Word) (s : State) : State :=
  if s.pins.hrst ∨ 5 ≤ a then s
  else (s.setAperture a { st := .replied, count := 0, have0 := false, mem := [], reply := ws }).evt PIL_EVT a

/-- Send a reply envelope under the command's key (R421). -/
def replyRemote (keyId origin : Nat) (via : Via) (ws : List Word) (s : State) : State :=
  match s.keySlot keyId with
  | none => s
  | some k =>
    let (bs, s1) := envSeal (s.key k) (envBody s.station true keyId origin s.now ws) s
    sendEnvelope via true (stOrigin origin) bs s1

/-- One remote command fewer is launched and not replied (R419). -/
def remoteDone (s : State) : State := s.wr PIL_REMOTE (s.rd PIL_REMOTE - 1)

/-- The Pilot phase of a command has ended: the next launched command may start (R411). -/
def pilotFree (s : State) : State := if s.pil.launchQ.isEmpty then s else s.later .pilotNext

/-- The only reply of a command, or its ACCEPTED reply, to whoever launched it. -/
def sendReply (final single : Bool) (c : Cmd) (opcode status : Nat) (results : List Word) (s : State) : State :=
  match c.src with
  | .aperture a => replyAperture a (replyWords status final c opcode results) s
  | .remote k o v =>
    let s1 := replyRemote k o v (replyWords status final c opcode results) s
    if single then remoteDone s1 else s1

/-- Write a done queue entry (R413). -/
def doneEntry (a : Nat) (ws : List Word) (s : State) : State :=
  let n := s.rd PIL_DONE_WR
  let e := n % 16
  let body := (ws ++ List.replicate (14 - ws.length) 0#32).take 14 ++ [w32 a, w32 n]
  let s1 := s.each (List.range 16) (fun i t => t.wr (PIL_DONE e i) (wAt body i))
  (s1.wr PIL_DONE_WR (n + 1)).evt PIL_EVT 5

/-- Free one async slot (R412). -/
def freeSlot (s : State) : State := s.wr PIL_ASYNC (s.rd PIL_ASYNC - 1)

/-- The job with a number. -/
def State.job? (s : State) (id : Nat) : Option Job := s.pil.jobs.find? (fun j => j.id == id)

/-- Change the job with a number. -/
def modJob (id : Nat) (f : Job → Job) (s : State) : State :=
  { s with pil := { s.pil with jobs := s.pil.jobs.map (fun j => if j.id = id then f j else j) } }

/-- Take the job with a number away. -/
def dropJob (id : Nat) (s : State) : State :=
  { s with pil := { s.pil with jobs := s.pil.jobs.filter (fun j => j.id != id) } }

/-- A job's status and results stand; the final reply is still to be written. -/
def finishJob (id status : Nat) (results : List Word) (s : State) : State :=
  modJob id (fun j => { j with phase := .done status results }) s

/-- The final reply of a started command (R412 to R414): to the done queue where it holds a slot and came from an
aperture, as an envelope where it came from one, else to its aperture with FINAL clear. -/
def deliverFinal (j : Job) (status : Nat) (results : List Word) (s : State) : State :=
  let s0 := pilotFree (dropJob j.id s)
  match j.async, j.cmd.src with
  | true, .aperture a =>
    if s0.pins.hrst ∨ 5 ≤ a then freeSlot s0
    else doneEntry a (replyWords status true j.cmd j.opcode (results.take 12)) s0
  | true, .remote _ _ _ => freeSlot (sendReply true true j.cmd j.opcode status results s0)
  | false, _ => sendReply false true j.cmd j.opcode status results s0

/-! ### Launching (R405, R407, R409, R411, R412) -/

/-- The status of the first of checks 1 to 5 that fails (R409), if one does. -/
def headerFault (o : OpInfo) (c : Cmd) (s : State) : Option Nat :=
  if (o.on = .leafOnly ∧ s.build = .tray) ∨ (o.on = .trayOnly ∧ s.build = .leaf) then some stBadOpcode
  else if c.authority < o.cls then some stNoAuth
  else if c.length < 2 ∨ 1024 < c.length ∨ c.written ≠ c.length ∨ o.lenOk c.params c.length = false then some stBadLen
  else if c.rsv0 ≠ 0 ∨ c.rsv1 ≠ 0 then some stBadParam
  else if c.strictOnly = true ∧ s.getB EPO_CTL 0 = false then some stBadParam
  else none

/-- Start a command that completes later: it takes an async slot and replies ACCEPTED where it may, else its aperture
stays BUSY (R412). -/
def startJob (o : OpInfo) (c : Cmd) (phase : JobPhase) (data : JobData) (s : State) : State :=
  let slot := o.async && c.asyncOk && decide (s.rd PIL_ASYNC < 16)
  let j : Job := { id := s.pil.nextJob, opcode := o.code, cmd := c, async := slot, phase := phase,
                   data := data }
  let s1 := { s with pil := { s.pil with jobs := s.pil.jobs ++ [j], nextJob := s.pil.nextJob + 1 } }
  if slot then sendReply false false c o.code stAccepted [] (s1.inc PIL_ASYNC 1) else s1

/-- Settle what a command's own part answered. -/
def settle (o : OpInfo) (c : Cmd) (r : Ans × State) : State :=
  match r.1 with
  | .reply st res =>
    let s1 := if st = stOk ∨ st = stTimeout then r.2 else r.2.inc PIL_REFUSED 1
    sendReply false true c o.code st res s1
  | .started ph d => startJob o c ph d r.2

/-- Whether an asker is another node, which a remote command has to be replied to. -/
def Asker.isRemote : Asker → Bool
  | .remote _ _ _ _ => true
  | _ => false

/-- Whether a command is in its Pilot phase (R411): one that has neither replied ACCEPTED nor finally, or a part of a reservation or
a question of a claim exchange that another node waits for. -/
def State.pilotHeld (s : State) : Bool :=
  s.pil.jobs.any (fun j => !j.async) || s.par.ctxs.any (fun e => e.2.asker.isRemote) || s.par.claims.any (fun c => c.asker.isRemote)

/-- A launched command starts, or waits for the end of the Pilot phase of those before it (R411). -/
def launchOr (x : Launch) (run : State → State) (s : State) : State :=
  if s.pilotHeld = true ∨ s.pil.launchQ.isEmpty = false then { s with pil := { s.pil with launchQ := s.pil.launchQ ++ [x] } } else run s

/-- Pilot starts a launched command: checks 1 to 5, the power of its unit (R43, R537), then its own part. -/
def started (o : OpInfo) (own : Cmd → State → Ans × State) (c : Cmd) (s0 : State) : State :=
  match headerFault o c s0 with
  | some st => sendReply false true c o.code st [] (s0.inc PIL_REFUSED 1)
  | none =>
    if o.compute ∧ s0.getB PLM_POWER 2 = true then sendReply false true c o.code stFenced [] s0
    else if o.compute ∧ s0.computeOff = true then
      if c.asyncOk ∧ s0.rd PIL_ASYNC < 16 then requestWake (startJob { o with async := true } c .waitPower .plain s0)
      else sendReply false true c o.code stBusyPower [] s0
    else settle o c (own c s0)

/-- A command is launched (R411, R436). -/
def launched (o : OpInfo) (own : Cmd → State → Ans × State) (c : Cmd) (s : State) : State :=
  launchOr (.cmd o.code c) (started o own c) (s.inc PIL_CMDS 1)

/-- A whole command arrives: written to its aperture, or carried by an envelope that has passed R419. An aperture that
is BUSY, as every one is before Pilot has booted, refuses the writes (R405); aperture 4 ignores them unless AUTH_LEVEL
is 3 (R407). -/
def runCmd (o : OpInfo) (own : Cmd → State → Ans × State) (c : Cmd) (s : State) : State :=
  match c.src with
  | .aperture a =>
    if s.pins.hrst ∨ 5 ≤ a then s
    else if a = 4 ∧ c.level ≠ 3 then s.evt CAP_ACC_ERR 0
    else if s.pil.booted = false ∨ (s.aperture a).st = .busy then (s.inc PIL_BUSY_WR c.written).evt PIL_EVT 6
    else launched o own c (s.setAperture a { st := .busy, count := 0, have0 := false, mem := [], reply := [] })
  | .remote _ _ _ =>
    if s.pil.booted = false then s else launched o own c (s.inc PIL_REMOTE 1)

/-- Count an envelope discarded for its key or tag (R419, R421). -/
def authFail (s : State) : State := (s.inc PIL_AUTH_FAIL 1).evt PIL_EVT 7

/-- Count an envelope discarded for its time or as a replay (R419). -/
def replayDrop (s : State) : State := (s.inc PIL_REPLAY 1).evt PIL_EVT 8

/-- PIL_CTL.REPLAY_WIN in clock units. -/
def State.replayWin (s : State) : Nat := nsU (s.getF PIL_CTL 16 16 * 1000000)

/-- Steps 3 and 4 of R419: none for a replay; else the entry to take, or that there is none. -/
def State.replaySlot (s : State) (keyId origin time : Nat) : Option (Option Nat) :=
  match s.pil.replay.find? (fun x => x.2.keyId == keyId && x.2.origin == origin) with
  | some (i, x) => if 0 ≤ timeDiff x.time time then none else some (some i)
  | none =>
    match Tbl.lowestFree s.pil.replay 256 with
    | some i => some (some i)
    | none =>
      let oldest := s.pil.replay.foldl (fun (b : Option (Nat × ReplayEnt)) x => match b with
        | none => some x
        | some y => if timeDiff x.2.time y.2.time < 0 then some x else some y) none
      match oldest with
      | none => some none
      | some (i, x) => if (s.replayWin : Int) < timeDiff s.now x.time then some (some i) else some none

/-- A command envelope for this station, in the six steps of R419: `body` is what its tag covers, `full` answers NO_SPACE, and
`launch` launches the command under the key of a slot. -/
def envAdmit (e : EnvSeal) (body : List Byte) (full : State → State) (launch : Nat → State → State) (s : State) : State :=
  match s.keySlot e.keyId with
  | none => authFail s
  | some k =>
    let (t, s1) := computeTag (s.key k) body s
    if t ≠ e.mac then authFail s1
    else
      match e.time with
      | none => replayDrop s1
      | some time =>
        if s1.getB DAT_STATE 4 = false ∨ s1.replayWin < (timeDiff time s1.now).natAbs then replayDrop s1
        else
          match s1.replaySlot e.keyId e.origin time with
          | none => replayDrop s1
          | some none => full s1
          | some (some i) =>
            if 8 ≤ s1.rd PIL_REMOTE then full s1
            else
              let x : ReplayEnt := { keyId := e.keyId, origin := e.origin, time := time }
              launch k { s1 with pil := { s1.pil with replay := Tbl.set s1.pil.replay i x } }

/-- The ISSUE_TIME of a command the block issues: the time now, or just after that of the one before (R420). -/
def State.issueTime (s : State) : Nat :=
  match s.pil.lastIssue with
  | some t => if 0 < timeDiff s.now t then s.now else (t + 1) % clockMod
  | none => s.now

/-- The block signs a command of its own with the node key (R423): the envelope's fields, `body` being what the tag covers for a key, a
sender and a time. -/
def nodeSeal (body : Nat → Nat → Nat → List Byte) (s : State) : EnvSeal × State :=
  let slot := s.getF PIL_CTL 0 3
  let keyId := s.getF (PIL_KEY_ID slot) 0 16
  let time := s.issueTime
  let (t, s1) := computeTag (s.key slot) (body keyId s.station time) { s with pil := { s.pil with lastIssue := some time } }
  ({ keyId := keyId, origin := s.station, time := some time, mac := t }, s1)

/-- The block signs a reply with the key of its command (R421). -/
def replySeal (keyId origin : Nat) (ws : List Word) (s : State) : EnvSeal × State :=
  let key := ((s.keySlot keyId).map s.key).getD (zeros 32)
  let (t, s1) := computeTag key (envBody s.station true keyId origin s.now ws) s
  ({ keyId := keyId, origin := origin, time := some s.now, mac := t }, s1)

/-- The command that a reply answers, among those the block issued (R421). -/
def State.issuedFor (s : State) (origin tag opcode st : Nat) : Option Issued :=
  if origin = s.station then s.pil.issued.find? (fun x => x.tag == tag && x.opcode == opcode && x.station == st) else none

/-- A reply to a command of the block's own is accepted where its tag matches (R421). -/
def replyCheck (keyId : Nat) (body mac : List Byte) (f : State → State) (s : State) : State :=
  match s.keySlot keyId with
  | none => authFail s
  | some k =>
    let (t, s1) := computeTag (s.key k) body s
    if t ≠ mac then authFail s1 else f s1

/-- The final reply to an issued command has come. -/
def issuedDone (x : Issued) (s : State) : State :=
  { s with pil := { s.pil with issued := s.pil.issued.filter (fun y => y.tag != x.tag) } }

/-- The block does nothing while ZY_PORST_N holds it in reset (R515, R516). -/
def whenUp (f : State → State) (s : State) : State := if s.pins.por then s else f s

/-- A plain reply. -/
def ans (status : Nat) (s : State) : Ans × State := (.reply status [], s)

/-- A reply with results. -/
def ansWith (results : List Word) (s : State) : Ans × State := (.reply stOk results, s)

end Sys2Proof.Machine
end

