-- ==== Sys2Proof/Machine/RulingCore.lean ====
section
/-! DEFINITION. Rulings (R252 to R257, R559): their layout, the checks of a station, forwarding, and acknowledgement. -/

namespace Sys2Proof.Machine

/-! ### Layout (R252, R254) -/

/-- A ruling's payload without its CRC (R252). -/
def Ruling.bytes (r : Ruling) : List Byte :=
  leBytes 4 r.no ++ leBytes 1 r.kind ++ leBytes 1 (b2n r.atEpoch + b2n r.fleet * 2) ++ leBytes 2 r.body.length ++
    (if r.atEpoch then leBytes 5 r.effect ++ zeros 7 else timeBytes r.effect) ++
    leBytes 3 (r.issuer % 2 ^ 20) ++ leBytes 1 (r.level % 8) ++ zeros 4 ++ r.body

/-- A received ruling; its effective point is none where it is a malformed Datum time (R57). -/
def rulingOf (parcel : Nat) (bs : List Byte) : Option Nat × Ruling :=
  let f := leAt bs 5 1
  let e := if bit f 0 then some (leAt bs 8 5) else decTime (leAt bs 8 12)
  (e, { no := leAt bs 0 4, kind := leAt bs 4 1, atEpoch := bit f 0, fleet := bit f 1, effect := e.getD 0,
        issuer := leAt bs 20 3 % 2 ^ 20, level := leAt bs 23 1 % 8, parcel := parcel,
        body := slice bs 28 (leAt bs 6 2) })

/-- Whether R254 gives a kind an epoch as its effective point. -/
def kindEpoch (k : Nat) : Bool := k == 1 || k == 4 || k == 5 || k == 9

/-- Whether a kind concerns no parcel where it is so issued (R254). -/
def kindFleet (k : Nat) : Bool := k == 2 || k == 3 || k == 6 || k == 7

/-- 1 µs, in clock units. -/
def microU : Nat := nsU 1000

/-! ### Checks of a station (R253) -/

/-- The entries of a BAR body: probe and bar (R344). -/
def barEntries (b : List Byte) : List (Nat × Nat) :=
  (List.range (leAt b 5 1)).map (fun i => (leAt b (8 + 16 * i) 2 % 1024, leAt b (16 + 16 * i) 8))

/-- Whether numbers ascend without repeats. -/
def ascending : List Nat → Bool
  | [] => true
  | [_] => true
  | a :: b :: r => decide (a < b) && ascending (b :: r)

/-- The READY slot of a plat, or of a subspace, by version. -/
def readySlot (reg : Nat → Loc) (n : Nat) (s : State) (v : Nat) : Option Nat :=
  (List.range n).find? (fun i => s.getF (reg i) 30 2 == 2 && s.getF (reg i) 0 16 == v)

/-- Plat slots of the build (R288). -/
def State.platSlots (s : State) : Nat := if s.isTray then 16 else 4

/-- The version that a PLAT_SWAP body names for this build, if it acts on one (R290). -/
def State.platSwap (s : State) (b : List Byte) : Option Nat :=
  if s.isTray then (if bit (leAt b 4 1) 1 then some (leAt b 2 2) else none)
  else if bit (leAt b 4 1) 0 then some (leAt b 0 2) else none

/-- Whether a WITNESS_PUSH body breaks R391. -/
def pushBad (b : List Byte) : Bool :=
  let n := leAt b 5 1
  let len := leAt b 8 4
  let frag := leAt b 4 1
  let resv := leAt b 3 1 / 2 != 0 || leAt b 6 2 != 0 || leAt b 12 20 != 0
  if bit (leAt b 3 1) 0 then resv || n != 0 || len != 0 || b.length != 32
  else
    resv || len % 8 != 0 || decide (len < 64) || decide (65536 < len) || n != ceilDiv len 4032 || decide (n ≤ frag) ||
      b.length != 32 + min 4032 (len - frag * 4032)

/-- Whether a body fails the checks of its owning chapter (R253, ground 5). -/
def State.bodyBad (s : State) (r : Ruling) : Bool :=
  let b := r.body
  if r.kind = 1 then
    let es := barEntries b
    decide (64 < leAt b 5 1) || b.length != 8 + 16 * leAt b 5 1 || !ascending (es.map (·.1)) ||
      (match s.ctxLow r.parcel with
       | none => true
       | some (_, c) => es.any (fun e => !(c.probes.any (fun p => p.probe == e.1 && p.xform == 3))))
  else if r.kind = 2 then b.length != 4 || leAt b 1 3 != 0
  else if r.kind = 4 then
    b.length != 8 ||
      (match s.ctxAt r.parcel s.ownLevel, s.platSwap b with
       | some _, some v => v != 0 && (readySlot CAD_PLAT_ID s.platSlots s v).isNone
       | _, _ => false)
  else if r.kind = 5 then
    b.length != 4 ||
      (match s.ctxAt r.parcel 1 with
       | none => false
       | some (n, _) =>
         let v := leAt b 0 2
         v != 0 &&
           (match readySlot TRN_SUB_ID 8 s v with
            | none => true
            | some i => s.getB (TRN_SUB_ID i) 28 && (s.par.ctxs.any (fun e => e.1 != n && e.2.level == 1 && e.2.sub == v) ||
                s.par.pend.any (fun x => x.kind == 5 && x.parcel != r.parcel && leAt x.body 0 2 == v && (s.ctxAt x.parcel 1).isSome))))
  else if r.kind = 6 then pushBad b
  else if r.kind = 7 then b.length != 8
  else !b.isEmpty

/-- Whether the effective point lies less than 1 µs ahead (R253, R559). -/
def State.rulingLate (s : State) (r : Ruling) : Bool :=
  if r.atEpoch = false then decide (timeDiff r.effect s.now < (microU : Nat))
  else
    match s.ctxLow r.parcel with
    | none => false
    | some (_, c) =>
      c.phase != .reserved &&
        (decide (r.effect < c.next) || decide (timeDiff (c.boundary r.effect % clockMod) s.now < (microU : Nat)))

/-- Whether a STOP_AT concerns this station (R258). -/
def State.stopConcerns (s : State) (r : Ruling) : Bool := r.fleet || (s.ctxsOf r.parcel).any (fun e => e.2.self)

/-- The lowest free STOP_AT slot (R258). -/
def State.freeStop (s : State) : Option Nat := (List.range 4).find? (fun m => !(s.getB (DAT_STOP_CTL m) 0))

/-- Whether a ruling keeps an entry of the table of pending rulings until its effective point; the others act on
arrival: a commit and a release (R240), a timed stop (R258), a timetable swap (R114). A release that finds no context of its parcel
committed is held as any other epoch-effective ruling is (R559). -/
def State.rulingHeld (s : State) (r : Ruling) : Bool :=
  r.kind == 1 || r.kind == 2 || r.kind == 4 || r.kind == 5 || r.kind == 6 ||
    (r.kind == 9 && (s.ctxsOf r.parcel).all (fun e => e.2.phase == .reserved))

/-- The first ground on which a station refuses a ruling (R253). -/
def State.rulingBad (s : State) (ok : Bool) (r : Ruling) : Option Nat :=
  if !ok || (r.fleet && r.atEpoch) || r.kind == 0 || decide (9 < r.kind) || r.atEpoch != kindEpoch r.kind ||
      (r.fleet && !kindFleet r.kind) then some stBadParam
  else if !r.fleet && (s.ctxsOf r.parcel).isEmpty then some stBadParam
  else if s.rulingLate r then some stTooLate
  else if 64 ≤ s.par.pend.length then some stNoSpace
  else if r.kind = 3 ∧ s.stopConcerns r = true ∧ s.freeStop = none then some stNoSpace
  else if s.bodyBad r then some stBadParam
  else none

/-! ### Acceptance -/

/-- Arm a STOP_AT slot (R83, R258). -/
def armStopSlot (m t : Nat) (s : State) : State := (s.wrTime (DAT_STOP_SUB m) (DAT_STOP_SEC m) t).wr (DAT_STOP_CTL m) 1

/-- Drop the pending rulings of which `f` holds. -/
def dropPend (f : Ruling → Bool) (s : State) : State :=
  { s with par := { s.par with pend := s.par.pend.filter (fun r => !(f r)) } }

/-- Count a refusal (R253). -/
def countRefusal (st : Nat) (s : State) : State :=
  if st = stTooLate then (s.inc RUL_LATE 1).evt PAR_EVT 4 else (s.inc RUL_REFUSED 1).evt PAR_EVT 5

/-- A release records E and returns the membership slot (R240, R250); a later one replaces E (R256). -/
def applyRelease (r : Ruling) (s : State) : State :=
  s.each ((s.ctxsOf r.parcel).filter (fun e => e.2.phase == .armed || e.2.phase == .live || e.2.phase == .releasing)) (fun e t =>
    t.modCtx e.1 (fun c => { c with phase := .releasing, endE := some r.effect, counted := false }))

/-- A commit fixes T0: the parcel's RESERVED contexts are ARMED, and held rulings are timed (R240, R559); a release that was held is
then applied. -/
def applyCommit (r : Ruling) (s : State) : State :=
  let s1 := s.each ((s.ctxsOf r.parcel).filter (fun e => e.2.phase == .reserved)) (fun e t =>
    t.modCtx e.1 (fun c => { c with phase := .armed, t0 := r.effect, next := 0 }))
  let late := s1.par.pend.filter (fun x => x.parcel == r.parcel && x.atEpoch && s1.rulingLate x)
  let s2 := s1.each late (fun x t => countRefusal stTooLate (dropPend (fun y => y == x) t))
  s2.each (s2.par.pend.filter (fun x => x.parcel == r.parcel && x.kind == 9)) (fun x t =>
    applyRelease x ((dropPend (fun y => y == x) t).inc RUL_APPLIED 1))

/-- A station accepts a ruling (R240, R256, R258). -/
def rulingAccept (r : Ruling) (s : State) : State :=
  if s.rulingHeld r then { s with par := { s.par with pend := s.par.pend ++ [r] } }
  else
    let s1 := s.inc RUL_APPLIED 1
    if r.kind = 8 then applyCommit r s1
    else if r.kind = 9 then applyRelease r s1
    else if r.kind = 3 then
      (if s.stopConcerns r then match s.freeStop with
        | some m => armStopSlot m r.effect s1
        | none => s1
      else s1)
    else if r.kind = 7 then
      let ch := if s.isTray then r.chain else 0
      (s1.wr (TMT_SWAP_CYC ch) (leAt r.body 2 5)).putB (TMT_CTL ch) 1 true
    else s1

/-! ### Forwarding and acknowledgement (R255) -/

/-- Leaves of a tray build that a ruling goes to, as station numbers. -/
def State.rulingLeaves (s : State) (r : Ruling) : List Nat :=
  if s.isTray = false then []
  else if r.kind = 7 then (setBits 17 (s.rd (CHN_ROSTER r.chain))).map (fun p => s.station + r.chain * 32 + p)
  else if r.fleet then
    [0, 1].flatMap (fun ch => (setBits 17 (s.rd (CHN_ROSTER ch))).map (fun p => s.station + ch * 32 + p))
  else match s.ctxAt r.parcel 1 with
    | some (_, c) => c.kids.map (·.station)
    | none => []

/-- Tray builds that a ruling goes to: the children, reached over Landing, of the roles the instance holds. -/
def State.rulingTrays (s : State) (r : Ruling) : List Nat :=
  if r.kind = 7 then []
  else if r.fleet then
    ([2, 3, 4].filter s.roleHeld).flatMap (fun l => ((s.roleChildren l).map (·.1)).filter (· != s.station))
  else (s.ctxsOf r.parcel).flatMap (fun e =>
    if e.2.level < 2 then [] else (e.2.kids.map (·.station)).filter (· != s.station))

/-- Send a ruling to one child (R255). -/
def rulingTo (r : Ruling) (st : Nat) (s : State) : State :=
  if stPos st = 0 then sendTray 7 st r.parcel 0 false r.bytes s else sendTo 7 st r.parcel r.bytes s

/-- Forward a ruling: to leaves by the code of their chain (R104, R255), to tray builds one by one. -/
def rulingForward (r : Ruling) (s : State) : State :=
  let ls := s.rulingLeaves r
  let tray := stTray s.station
  let chains := [0, 1].filter (fun ch => ls.any (fun st => stChain st == ch))
  let s1 := s.each chains (fun ch t =>
    sendTyped ch 7 (if r.fleet then dstAll tray ch else dstMembers tray ch) r.parcel r.bytes t)
  s1.each (s.rulingTrays r) (rulingTo r)

/-- The four result words of a ruling (R261). -/
def rulingCounts (x : RulingSeen) : List Word :=
  [w32 (x.applied % 2 ^ 20), w32 (x.refused % 2 ^ 20), w32 (x.unreached % 2 ^ 16),
   match x.lowest with
   | some st => w32 (st + 2 ^ 31)
   | none => 0#32]

/-- Acknowledge a ruling to whoever handed it over. -/
def sendAck (x : RulingSeen) (s : State) : State :=
  match x.ackTo with
  | .job id => finishJob id stOk (rulingCounts x) s
  | .station st =>
    s.emit (.rulingAck st { src := s.station, issuer := x.ruling.issuer, no := x.ruling.no, applied := x.applied,
                            refused := x.refused, unreached := x.unreached, lowest := x.lowest })
  | .nobody => s

/-- Change what is kept of a ruling. -/
def modSeen (issuer no : Nat) (f : RulingSeen → RulingSeen) (s : State) : State :=
  { s with par := { s.par with seen := s.par.seen.map (fun x =>
      if x.ruling.issuer = issuer ∧ x.ruling.no = no then f x else x) } }

/-- What is kept of a ruling, if it is among the last 256. -/
def State.seen? (s : State) (issuer no : Nat) : Option RulingSeen :=
  s.par.seen.find? (fun x => x.ruling.issuer == issuer && x.ruling.no == no)

/-- Acknowledge once every child has answered or been given up (R255). -/
def ackWhenDone (issuer no : Nat) (s : State) : State :=
  match s.seen? issuer no with
  | none => s
  | some x =>
    if x.acked = false ∧ x.waits.isEmpty = true then sendAck x (modSeen issuer no (fun y => { y with acked := true }) s) else s

/-- The lower of two station numbers that may be absent. -/
def lowerOf : Option Nat → Option Nat → Option Nat
  | none, b => b
  | a, none => a
  | some a, some b => some (min a b)

/-- Whether a ruling was received, and not issued here. -/
def RulingSeen.received (x : RulingSeen) : Bool :=
  match x.ackTo with
  | .job _ => false
  | _ => true

/-- Rulings that are still of use, `n` received ones having fallen out of the last 256: those within the 256, and those whose children
have not all answered (R255). -/
def trimSeen : Nat → List RulingSeen → List RulingSeen
  | _, [] => []
  | n, x :: xs =>
    let old := n ≠ 0 ∨ x.received = false
    let rest := trimSeen (n - b2n x.received) xs
    if old ∧ x.acked = true then rest else x :: rest

/-- Of the rulings received and issued, those that are kept (R255). -/
def keepSeen (xs : List RulingSeen) : List RulingSeen := trimSeen ((xs.filter RulingSeen.received).length - 256) xs

/-- A ruling reaches the station, from a sender or issued here (R253, R255). `ok` tells that its time is well formed. -/
def rulingArrive (ok : Bool) (ackTo : AckTo) (r : Ruling) (s : State) : State :=
  match s.seen? r.issuer r.no with
  | some x =>
    let s1 := s.inc RUL_DUP 1
    if x.acked then sendAck { x with ackTo := ackTo } s1 else s1
  | none =>
    let bad := s.rulingBad ok r
    let kids := s.rulingLeaves r ++ s.rulingTrays r
    let x : RulingSeen :=
      { ruling := r, ackTo := ackTo, waits := kids.map (fun k => (k, 0)), applied := b2n bad.isNone, refused := b2n bad.isSome,
        unreached := 0, lowest := if bad.isSome then some s.station else none, acked := false }
    let s1 := match bad with
      | some st => countRefusal st s
      | none => rulingAccept r s
    let s2 := { s1 with par := { s1.par with seen := keepSeen (s1.par.seen ++ [x]) } }
    ackWhenDone r.issuer r.no (rulingForward r s2)

/-- A child's acknowledgement (R255). -/
def rulingAckIn (a : RulingAck) (s : State) : State :=
  match s.seen? a.issuer a.no with
  | none => s
  | some x =>
    if x.waits.any (fun w => w.1 == a.src) = false then s
    else
      ackWhenDone a.issuer a.no (modSeen a.issuer a.no (fun y =>
        { y with waits := y.waits.filter (fun w => w.1 != a.src), applied := y.applied + a.applied,
                 refused := y.refused + a.refused, unreached := y.unreached + a.unreached,
                 lowest := lowerOf y.lowest a.lowest }) s)

/-- The resend interval of a silent child of a ruling ends, which its level sets: the child gets the ruling again, at most three
times, and is then given up (R255). -/
def rulingResend (issuer no child : Nat) (s : State) : State :=
  match s.seen? issuer no with
  | none => s
  | some x =>
    match x.waits.find? (fun w => w.1 == child) with
    | none => s
    | some w =>
      if w.2 < 3 then
        rulingTo x.ruling child (modSeen issuer no (fun y =>
          { y with waits := y.waits.map (fun v => if v.1 = child then (v.1, v.2 + 1) else v) }) s)
      else
        ackWhenDone issuer no (modSeen issuer no (fun y =>
          { y with waits := y.waits.filter (fun v => v.1 != child), unreached := y.unreached + 1 }) s)

/-- The node issues a ruling (R252, R255): it takes the next number and reaches its own station as any other. -/
def issueRuling (ackTo : AckTo) (r : Ruling) (s : State) : State :=
  let no := s.rd RUL_NEXT
  let r1 := { r with no := no, issuer := s.station }
  rulingArrive true ackTo r1 (s.wr RUL_NEXT (if no + 1 = 2 ^ 32 then 1 else no + 1))

/-- RUL_LEAD in clock units (R257, R263). -/
def State.ruleLead (s : State) : Nat := nsU (s.getF RUL_LEAD 0 24 * 100)

/-- Whether R257 refuses a ruling at its issue; R559 lifts the test for a parcel reserved and not committed. -/
def State.leadShort (s : State) (r : Ruling) : Bool :=
  if r.atEpoch then
    match s.ctxLow r.parcel with
    | none => false
    | some (_, c) => c.phase != .reserved &&
        (decide (r.effect < c.next) || decide (timeDiff (c.boundary r.effect % clockMod) s.now < (s.ruleLead : Nat)))
  else decide (timeDiff r.effect s.now < (s.ruleLead : Nat))

end Sys2Proof.Machine
end

