-- ==== Sys2Proof/Machine/Derive.lean ====
section
/-! DEFINITION. What a publishing node derives from a record (R336 to R346): quantiles, evidence, verdicts, absence runs,
automatic bars. -/

namespace Sys2Proof.Machine

/-! ### Quantiles (R342) -/

/-- Bounds of a bin, fine or coarse. -/
def boundOf (coarse : Bool) (b : Nat) : Nat := if coarse then binLow (2 * b) else binLow b

/-- Total count of a histogram. -/
def histTotal (t : Tbl Nat) : Nat := t.foldl (fun n e => n + e.2) 0

/-- The bin at which the cumulative count reaches `r`, with the count before it and its own. -/
def quantBin : List (Nat × Nat) → Nat → Nat → Option (Nat × Nat × Nat)
  | [], _, _ => none
  | e :: es, before, r => if r ≤ before + e.2 then some (e.1, before, e.2) else quantBin es (before + e.2) r

/-- Q(num / den) of a histogram; zero where it is empty (R342). -/
def quantile (a : Accum) (num den : Nat) : Nat :=
  let r := ceilDiv (num * histTotal a.bins) den
  match quantBin a.bins 0 r with
  | none => 0
  | some (b, before, n) =>
    let l := boundOf a.coarse b
    l + (boundOf a.coarse (b + 1) - l) * (r - before) / n

/-- QUANT of a value: the counts below its bin over the total, as binary32 (R337). -/
def quantOf (a : Accum) (v : Nat) : Nat :=
  let n := histTotal a.bins
  let b := if a.coarse then binOf v / 2 else binOf v
  if n = 0 then 0 else f32Quot ((a.bins.filter (fun e => decide (e.1 < b))).foldl (fun m e => m + e.2) 0) n

/-! ### The record's view -/

/-- What the derivation reads of a record: its epoch's accumulators, votes, absent entries and Transit section, its flags
(R192) and N_INCLUDED; whether the record before it was that of the epoch before (R338, R346), and whether a child's closure
carried another STRICT setting than the instance's (R340). -/
structure RecView where
  k : Nat
  station : Nat
  accs : Tbl Accum
  votes : List (Nat × Nat)
  absents : List Nat
  trn : List Byte
  flags : Nat
  nInc : Nat
  follows : Bool
  mixed : Bool
  deriving DecidableEq, Repr

/-- The flags a verdict copies from its record (R338). -/
def verdFlags (f : Nat) : Nat :=
  b2n (bit f 3) + b2n (bit f 4) * 2 + b2n (bit f 6) * 4 + b2n (bit f 2) * 8 + b2n (bit f 0) * 16 + b2n (bit f 5) * 32 +
    b2n (bit f 8) * 64

/-- A verdict with the fields that all of a record share (R335). -/
def recVerdict (c : Ctx) (v : RecView) (kind source station unit score count : Nat) : Verdict :=
  { epoch := v.k, kind := kind, parcel := c.parcel, station := station, unit := unit, level := c.level, source := source,
    flags := verdFlags v.flags + b2n (v.follows && c.prevVerds.contains (kind, source, suspectNo station unit)) * 2 ^ 9,
    score := score, probe := 0, rule := 0, evidence := zeros 16, quant := 0, count := count, basis := v.nInc }

/-! ### Absence (R346) -/

/-- The runs after a record, and those that reach a verdict: station, entry, run. -/
def absenceRuns (c : Ctx) (v : RecView) : Tbl Nat :=
  let old : Tbl Nat := if v.follows then c.absRuns else []
  v.absents.foldl (fun t e => Tbl.set t (e % 2 ^ 20) ((Tbl.get? old (e % 2 ^ 20)).getD 0 + 1)) []

/-- ABSENT_REPEAT verdicts, ascending station (R336, R337, R346). -/
def absentVerdicts (c : Ctx) (v : RecView) (absRun : Nat) : List Verdict :=
  let runs := absenceRuns c v
  v.absents.filterMap (fun e =>
    let st := e % 2 ^ 20
    let run := (Tbl.get? runs st).getD 0
    if absRun ≤ run ∧ (run - absRun) % 1024 = 0 then
      some { recVerdict c v 7 7 st 0 (f32OfNat run) run with
        evidence := leBytes 8 (fld e 32 20 + fld e 23 3 * 2 ^ 32) ++ zeros 8 }
    else none)

/-! ### Extremes (R341) -/

/-- Whether an extremes bar is kept for a probe: an INTERVAL probe whose SKETCH selects the histogram (R341). -/
def ProbeEnt.barred (p : ProbeEnt) : Bool := p.xform == 3 && bit p.sketch 0

/-- The bars after entries of probe and bar: one of 0 sets the bar to none (R341). -/
def withBars (bars : Tbl Nat) (es : List (Nat × Nat)) : Tbl Nat :=
  es.foldl (fun t e => if e.2 = 0 then Tbl.erase t e.1 else Tbl.set t e.1 e.2) bars

/-- The STRAGGLER verdicts of one probe's highest extremes (R336, R337, R341). DEDUCED: the suspect's UNIT is the probe's. -/
def extremeVerdicts (c : Ctx) (v : RecView) (p : ProbeEnt) : List Verdict :=
  match Tbl.get? c.extBars p.probe, Tbl.get? v.accs p.probe with
  | some bar, some a =>
    (a.hi.filter (fun e => decide (bar < e.value))).map (fun e =>
      let r := recVerdict c v 1 0 e.station p.unit (f32Quot e.value bar) 1
      { r with flags := r.flags + 2 ^ 7, probe := p.probe, evidence := leBytes 8 e.value ++ leBytes 8 bar,
               quant := quantOf a e.value })
  | _, _ => []

/-! ### Votes (R336, R337) -/

/-- The source of a vote's verdict. -/
def voteSource (kind unit : Nat) : Nat :=
  if kind = 1 then 1 else if kind = 2 then (if unit = 0xFFF then 3 else 2) else if kind = 3 then 4 else if kind = 4 then 5 else 6

/-- Evidence of a vote's verdict from a probe: VALUE, REF, QUANT, where the station stands in one of its extremes (R337). -/
def voteEvidence (v : RecView) (probe station : Nat) : Option (Nat × Nat × Nat) :=
  match Tbl.get? v.accs probe with
  | none => none
  | some a => ((a.hi ++ a.lo).find? (fun e => e.station == station)).map (fun e => (e.value, quantile a 1 2, quantOf a e.value))

/-- Evidence of a Transit residual (R337). -/
def trnEvidence (v : RecView) (station : Nat) : List Byte :=
  if v.trn.isEmpty then zeros 16
  else
    leBytes 4 (if leAt v.trn 24 4 % 2 ^ 20 = station then leAt v.trn 20 4 else 0) ++
      leBytes 4 (if leAt v.trn 36 4 % 2 ^ 20 = station then leAt v.trn 32 4 else 0) ++ zeros 8

/-- The verdict of a vote entry (key and COUNT); PROBE names the lowest-numbered probe with the suspect's UNIT, if one has it
(R337). -/
def voteVerdict (c : Ctx) (v : RecView) (e : Nat × Nat) : Verdict :=
  let kind := keyKind e.1
  let station := keySuspect e.1 / 4096
  let unit := keySuspect e.1 % 4096
  let src := voteSource kind unit
  let score := if kind = 4 ∨ kind = 5 then f32Quot e.2 v.nInc else f32OfNat e.2
  let r := recVerdict c v (if kind = 5 then 4 else kind) src station unit score e.2
  if src = 3 then { r with evidence := trnEvidence v station }
  else
    match c.probes.find? (fun p => p.unit == unit) with
    | none => r
    | some p =>
      match voteEvidence v p.probe station with
      | none => { r with probe := p.probe }
      | some (value, ref, q) =>
        { r with flags := r.flags + 2 ^ 7, probe := p.probe, evidence := leBytes 8 value ++ leBytes 8 ref, quant := q }

/-- The votes of some kinds that reach their minimum, as verdicts in ascending key order. -/
def voteVerdicts (c : Ctx) (v : RecView) (kinds : List Nat) (least : Nat) : List Verdict :=
  (v.votes.filter (fun e => kinds.contains (keyKind e.1) && decide (least ≤ e.2))).map (voteVerdict c v)

/-! ### Deriving (R339, R340) -/

/-- The configuration of a context's verdicts (R355). -/
structure VrdCfg where
  cfg0 : Nat
  cfg1 : Nat
  cfg2 : Nat
  deriving DecidableEq, Repr

/-- The configuration of context `n`. -/
def State.vrdCfg (s : State) (n : Nat) : VrdCfg :=
  { cfg0 := s.rd (EPO_VRD_CFG0 n), cfg1 := s.rd (EPO_VRD_CFG1 n), cfg2 := s.rd (EPO_VRD_CFG2 n) }

/-- Every verdict of a record in its order (R339, R340). -/
def allVerdicts (g : VrdCfg) (c : Ctx) (v : RecView) : List Verdict :=
  let absent := absentVerdicts c v (fld g.cfg1 24 8)
  if v.mixed then []
  else if v.nInc = 0 then absent
  else
    absent ++ voteVerdicts c v [3] (fld g.cfg1 0 8) ++
      (if bit g.cfg2 0 then (c.probes.filter ProbeEnt.barred).flatMap (extremeVerdicts c v) else []) ++
      voteVerdicts c v [1] (fld g.cfg1 16 8) ++ voteVerdicts c v [2] (fld g.cfg1 8 8) ++
      voteVerdicts c v [4, 5] (fld g.cfg2 16 16)

/-- The verdicts a record holds: the first 64, the last of them marked where more were cut (R339). -/
def heldVerdicts (vs : List Verdict) : List Verdict :=
  if vs.length ≤ 64 then vs
  else (vs.take 64).mapIdx (fun i v => if i = 63 then { v with flags := v.flags + 2 ^ 8 } else v)

/-! ### Automatic bars (R343) -/

/-- A probe's automatic bar, where it qualifies: probe, histogram total, bar. -/
def autoBar (g : VrdCfg) (v : RecView) (p : ProbeEnt) : Option (Nat × Nat × Nat) :=
  if p.barred = false then none
  else
    match Tbl.get? v.accs p.probe with
    | none => none
    | some a =>
      let n := histTotal a.bins
      if a.hsat = true ∨ n < fld g.cfg0 0 16 ∨ n = 0 then none
      else
        let q5 := quantile a 1 2
        some (p.probe, n, min (q5 + fld g.cfg0 24 8 * (quantile a 99 100 - q5) / 16) (2 ^ 64 - 1))

/-- The automatic bars of a record (R343). -/
def autoBars (g : VrdCfg) (c : Ctx) (v : RecView) : List (Nat × Nat × Nat) :=
  if bit g.cfg2 1 then (c.probes.filterMap (autoBar g v)).take 64 else []

/-- The body of a BAR ruling (R344). -/
def barBody (basis : Nat) (es : List (Nat × Nat × Nat)) : List Byte :=
  leBytes 5 basis ++ leBytes 1 es.length ++ zeros 2 ++
    es.flatMap (fun e => leBytes 2 e.1 ++ zeros 2 ++ leBytes 4 e.2.1 ++ leBytes 8 e.2.2)

/-- After a record: its runs, its verdicts in memory for REPEAT, the automatic bars and their ruling (R338, R341, R343,
R346). -/
def afterRecord (n : Nat) (v : RecView) (vs : List Verdict) (s : State) : State :=
  match s.ctx? n with
  | none => s
  | some c =>
    let g := s.vrdCfg n
    let es := autoBars g c v
    let ext := withBars c.extBars (es.map (fun e => (e.1, e.2.2)))
    let s1 := s.modCtx n (fun x => { x with
      absRuns := absenceRuns c v, extBars := ext,
      prevVerds := vs.map (fun w => (w.kind, w.source, suspectNo w.station w.unit)) })
    if es.isEmpty then s1
    else
      let r : Ruling := { no := 0, kind := 1, atEpoch := true, fleet := false, effect := v.k + fld g.cfg0 16 8, issuer := 0,
                          level := c.level, parcel := c.parcel, body := barBody v.k es }
      if s1.leadShort r ∨ epochLimit ≤ r.effect then (s1.inc EPO_VRD_BAR_LATE 1).evt EPO_VRD_EVT 3
      else (issueRuling .nobody r s1).evt EPO_VRD_EVT 2

end Sys2Proof.Machine
end

