-- ==== Sys2Proof/Machine/MemPort.lean ====
section
/-! DEFINITION. The memory a build reaches: host memory through the host master port of a leaf, hold memory through the
hold ports of a tray build (R519, R528, R539 to R541). -/

namespace Sys2Proof.Machine

/-- Bytes of hold memory (R540). -/
def holdSize : Nat := 960000000000

/-- The port of a hold address (R540). -/
def holdPort (a : Nat) : Nat := a / 4096 % 12

/-- The stack address of a hold address (R540). -/
def holdStack (a : Nat) : Nat := a / 4096 / 12 * 4096 + a % 4096

/-- The ports that a range of hold memory lies on. -/
def holdPorts (a n : Nat) : List Nat := (List.range (min 12 ((a % 4096 + n + 4095) / 4096))).map (fun i => (a / 4096 + i) % 12)

/-- Whether every port that a range of hold memory lies on is trained (R541). -/
def State.holdReady (s : State) (a n : Nat) : Bool :=
  decide (a + n ≤ holdSize) && (holdPorts a n).all (fun p => bit s.pins.memTrained p)

/-- Whether an access to the build's memory succeeds. -/
def State.memReady (s : State) (a n : Nat) : Bool :=
  if s.isTray then s.holdReady a n else decide (a + n ≤ 2 ^ 64) && !s.pins.hrst

/-- A failed access: on the hold ports it is counted (R541). -/
def accessFails (s : State) : State := if s.isTray then (s.inc HLD_RERR 1).evt HLD_EVT 0 else s

/-- The build's memory. -/
def State.mem (s : State) : List Host.Cell := if s.isTray then s.holdMem else s.hostMem

/-- Put the build's memory. -/
def State.setMem (s : State) (m : List Host.Cell) : State := if s.isTray then { s with holdMem := m } else { s with hostMem := m }

/-- Whether a transfer over a range is the one that its port has answered with an error; a leaf has the host master port
alone. -/
def State.portError (s : State) (a n : Nat) : Bool :=
  if s.isTray then (holdPorts a n).any (fun p => bit s.pins.rerr p) else s.pins.rerr != 0

/-- The errors of the ports that a transfer lies on have met it; those of other ports wait for theirs. -/
def portErrorMet (a n : Nat) (s : State) : State :=
  { s with pins := { s.pins with rerr := if s.isTray then (holdPorts a n).foldl clrBit s.pins.rerr else 0 } }

/-- Bytes of the longest request of a port: 64 beats of 8 or of 32 bytes (R528, R539). -/
def State.reqBytes (s : State) : Nat := if s.isTray then 2048 else 512

/-- The requests that a transfer of `n` bytes is made of, each with its address and bytes. DESIGN CHOICE (log 129): they end at
multiples of the longest request, so that none crosses 4 KiB. -/
def State.requests (s : State) (a n : Nat) : List (Nat × Nat) :=
  let u := s.reqBytes
  if n = 0 then []
  else (List.range ((a % u + n + u - 1) / u)).map (fun i =>
    let lo := max a ((a / u + i) * u)
    (lo, min (a + n) ((a / u + i + 1) * u) - lo))

/-- Whether a request can be made: its hold port is trained (R541). -/
def State.reqUp (s : State) (p : Nat × Nat) : Bool := !s.isTray || bit s.pins.memTrained (holdPort p.1)

/-- A request as its port drives it (R528, R539): whole beats, at an aligned address. -/
def State.portRequest (s : State) (write : Bool) (p : Nat × Nat) (bs : List Byte) : Out :=
  let w := if s.isTray then 32 else 8
  let beats := (p.1 % w + p.2 + w - 1) / w % 64
  if s.isTray then .holdReq (holdPort p.1) write (holdStack p.1 / w * w) beats bs else .hostReq write (p.1 / w * w) beats bs

/-- The requests of a transfer go out; `bs` is what a write from `a` on writes. -/
def portAsk (write : Bool) (a : Nat) (bs : List Byte) (ps : List (Nat × Nat)) (s : State) : State :=
  s.each ps (fun p t => t.emit (t.portRequest write p (slice bs (p.1 - a) p.2)))

/-- Requests that fail are counted (R541). -/
def requestsFail (ps : List (Nat × Nat)) (s : State) : State := s.each ps (fun _ t => accessFails t)

/-- Whether a range lies in the build's memory, and its port may be used at all (R519, R540). -/
def State.memReach (s : State) (a n : Nat) : Bool :=
  if s.isTray then decide (a + n ≤ holdSize) else decide (a + n ≤ 2 ^ 64) && !s.pins.hrst

/-- Read `n` bytes at an address; none where a request of the transfer fails. -/
def loadBytes (a n : Nat) (s : State) : Option (List Byte) × State :=
  if s.memReach a n = false then (none, accessFails s)
  else
    let ps := s.requests a n
    let s1 := portAsk false a [] (ps.filter s.reqUp) s
    if ps.all s.reqUp = false ∨ s.portError a n = true then
      (none, portErrorMet a n (requestsFail (ps.filter (fun p => !(s.reqUp p))) s1))
    else (some (memRead s.mem a n), if s.isTray then s1.inc HLD_RD_BYTES n else s1)

/-- The memory after the requests of a write that could be made. -/
def storePieces (a : Nat) (bs : List Byte) (m : List Host.Cell) (ps : List (Nat × Nat)) : List Host.Cell :=
  ps.foldl (fun m p => memWrite m p.1 (slice bs (p.1 - a) p.2)) m

/-- Write bytes at an address; a request that fails is discarded and counted, the others stand (R541). Answers whether all
succeeded. -/
def storeBytes (a : Nat) (bs : List Byte) (s : State) : Bool × State :=
  if s.memReach a bs.length = false then (false, accessFails s)
  else
    let ps := s.requests a bs.length
    let up := ps.filter s.reqUp
    let s1 := portAsk true a bs up s
    if s.isTray = false ∧ s.portError a bs.length = true then (false, portErrorMet a bs.length s1)
    else if ps.all s.reqUp then
      let s2 := s1.setMem (memWrite s.mem a bs)
      (true, if s.isTray then s2.inc HLD_WR_BYTES bs.length else s2)
    else
      let s2 := s1.setMem (storePieces a bs s.mem up)
      (false, requestsFail (ps.filter (fun p => !(s.reqUp p))) (s2.inc HLD_WR_BYTES (up.foldl (fun n p => n + p.2) 0)))

/-- A kept item could not be read: the error that its read met is the lowest port's, or else its port was untrained. -/
def keptErrorMet (s : State) : State :=
  match (List.range 12).find? (bit s.pins.rerr) with
  | some p => { s with pins := { s.pins with rerr := clrBit s.pins.rerr p } }
  | none => accessFails s

/-- Whether a kept record, closure or section can be read back (R541). A tray build keeps them in hold memory, at places the
spec does not give (R194): with a port untrained or in error it is free whether this one is met. -/
def keptReads (s : State) : Bool × State :=
  if s.isTray = false ∨ (s.pins.memTrained % 2 ^ 12 = 0xFFF ∧ s.pins.rerr = 0) then (true, s)
  else
    let (v, s1) := s.draw
    if v.toNat % 2 = 1 then (true, s1) else (false, keptErrorMet s1)

/-- MEM_m_RERR on a beat of a hold port (R541): the access fails, which is counted here; it is the next read on that port. -/
def holdReadError (port : Nat) (s : State) : State :=
  if s.isTray = false ∨ 12 ≤ port then s
  else faultLine 35 false (accessFails { s with pins := { s.pins with rerr := setBit s.pins.rerr port } })

/-- HM_ERR on the host master port of a leaf (R525, R528): its next transfer ends with the error. -/
def hostMasterError (s : State) : State :=
  if s.isTray then s else faultLine 12 false { s with pins := { s.pins with rerr := 1 } }

/-- MEM_m_TRAINED falls (R539). -/
def holdTrainingLoss (port : Nat) (s : State) : State :=
  if s.isTray = false ∨ 12 ≤ port ∨ bit s.pins.memTrained port = false then s
  else faultLine 36 false (({ s with pins := { s.pins with memTrained := clrBit s.pins.memTrained port } } : State).evt HLD_EVT 1)

/-- Write bytes into a ring of `size` bytes at `base`, from the count `pos` on. -/
def storeRing (base size pos : Nat) (bs : List Byte) (s : State) : State :=
  if size = 0 then s
  else
    let o := pos % size
    let first := bs.take (size - o)
    let s1 := (storeBytes (base + o) first s).2
    if bs.length ≤ size - o then s1 else (storeBytes base (bs.drop (size - o)) s1).2

end Sys2Proof.Machine
end

