-- ==== Sys2Proof/Machine/StowCodec.lean ====
section
/-! DEFINITION. The formats of Stow (R489 to R496): STOW-D and STOW-L, their blocks and the self-check. -/

namespace Sys2Proof.Machine

/-! ### STOW-D (R492) -/

/-- Width in bytes of a width code. -/
def stowWidth (code : Nat) : Nat := 2 ^ (code % 4)

/-- Record size of a list of width codes. -/
def stowSize (codes : List Nat) : Nat := codes.foldl (fun n c => n + stowWidth c) 0

/-- Zigzag form of a delta taken modulo 2^w. -/
def zigzag (w d : Nat) : Nat := if bit d (w - 1) then 2 * (2 ^ w - d % 2 ^ w) - 1 else 2 * (d % 2 ^ w)

/-- The delta of a zigzag value, modulo 2^w. -/
def unzigzag (w z : Nat) : Nat := if z % 2 = 1 then (2 ^ w - (z + 1) / 2) % 2 ^ w else z / 2

/-- Zigzag-coded deltas of a column of w-bit values. -/
def stowDeltas (w : Nat) : Nat → List Nat → List Nat
  | _, [] => []
  | prev, v :: vs => zigzag w ((v + 2 ^ w - prev % 2 ^ w) % 2 ^ w) :: stowDeltas w v vs

/-- Bit length of a value. -/
def bitLen (n : Nat) : Nat := if n = 0 then 0 else n.log2 + 1

/-- Values packed `b` bits each, from bit 0 upward. -/
def packBits (b : Nat) (vs : List Nat) : Nat := vs.foldr (fun v a => v + a * 2 ^ b) 0

/-- One group: its bit length and its values. -/
def stowGroup (vs : List Nat) : List Byte :=
  let b := bitLen (vs.foldl max 0)
  BitVec.ofNat 8 b :: leBytes ((b * vs.length + 7) / 8) (packBits b vs)

/-- A column as groups of 32. -/
def stowColumn : Nat → List Nat → List Byte
  | 0, _ => []
  | n + 1, vs => if vs.isEmpty then [] else stowGroup (vs.take 32) ++ stowColumn n (vs.drop 32)

/-- Records of `size` bytes. -/
def stowRecords (size : Nat) : Nat → List Byte → List (List Byte)
  | 0, _ => []
  | n + 1, bs => if bs.isEmpty then [] else bs.take size :: stowRecords size n (bs.drop size)

/-- The columns of the fields, the first of them at byte `o` of a record. -/
def stowColumns (recs : List (List Byte)) : List Nat → Nat → List Byte
  | [], _ => []
  | c :: cs, o =>
    let w := stowWidth c
    stowColumn (recs.length + 1) (stowDeltas (8 * w) 0 (recs.map (fun r => leAt r o w))) ++ stowColumns recs cs (o + w)

/-- A STOW-D body (R492). -/
def stowDBody (codes : List Nat) (bs : List Byte) : List Byte :=
  BitVec.ofNat 8 codes.length :: codes.map (fun c => BitVec.ofNat 8 (c % 4)) ++
    stowColumns (stowRecords (stowSize codes) bs.length bs) codes 0

/-- `n` values of `b` bits each. -/
def unpackBits (b : Nat) : Nat → Nat → List Nat
  | 0, _ => []
  | n + 1, v => v % 2 ^ b :: unpackBits b n (v / 2 ^ b)

/-- Read `n` coded values of a column; the rest of the body. -/
def stowColumnDec : Nat → Nat → List Byte → List Nat × List Byte
  | 0, _, bs => ([], bs)
  | k + 1, n, bs =>
    if n = 0 then ([], bs)
    else
      let b := (bs.headD 0#8).toNat
      let g := min n 32
      let len := (b * g + 7) / 8
      let vs := unpackBits b g (leNat ((bs.drop 1).take len))
      let (rest, bs1) := stowColumnDec k (n - g) (bs.drop (1 + len))
      (vs ++ rest, bs1)

/-- Values of a column from its zigzag deltas. -/
def stowUndelta (w : Nat) : Nat → List Nat → List Nat
  | _, [] => []
  | prev, z :: zs => let v := (prev + unzigzag w z) % 2 ^ w; v :: stowUndelta w v zs

/-- Put columns side by side as records. -/
def stowWeave : List (Nat × List Nat) → Nat → Nat → List Byte
  | _, 0, _ => []
  | cols, n + 1, r => cols.flatMap (fun c => leBytes c.1 (c.2.getD r 0)) ++ stowWeave cols n (r + 1)

/-- Read the columns of the fields. -/
def stowColumnsDec (n : Nat) : List Nat → List Byte → List (Nat × List Nat)
  | [], _ => []
  | c :: cs, bs =>
    let w := stowWidth c
    let (zs, bs1) := stowColumnDec (n + 1) n bs
    (w, stowUndelta (8 * w) 0 zs) :: stowColumnsDec n cs bs1

/-- The original bytes of a STOW-D body. -/
def stowDDecode (body : List Byte) (orig : Nat) : List Byte :=
  let nf := (body.headD 0#8).toNat % 16
  let codes := ((body.drop 1).take nf).map (fun b => b.toNat % 4)
  let n := if stowSize codes = 0 then 0 else orig / stowSize codes
  stowWeave (stowColumnsDec n codes (body.drop (1 + nf))) n 0

/-! ### STOW-L (R494, R495) -/

/-- Length of the common run of two strings. -/
def commonRun : List Byte → List Byte → Nat
  | a :: as, b :: bs => if a = b then commonRun as bs + 1 else 0
  | _, _ => 0

/-- Candidates at distances `d, d + 1, …`, most recent first: distance and length of run, where it is at least 4. -/
def stowCands (hist rest : List Byte) : Nat → Nat → List (Nat × Nat)
  | 0, _ => []
  | n + 1, d =>
    let r := commonRun ((hist.take d).reverse ++ rest) rest
    if 4 ≤ r then (d, r) :: stowCands hist rest n (d + 1) else stowCands hist rest n (d + 1)

/-- The longest of the candidates, the most recent among equals. -/
def stowBest (cs : List (Nat × Nat)) : Option (Nat × Nat) :=
  cs.foldl (fun b c => match b with | none => some c | some x => if x.2 < c.2 then some c else some x) none

/-- Extension bytes of a length of 15 or more. -/
def stowExt : Nat → Nat → List Byte
  | 0, _ => []
  | k + 1, n => if n < 255 then [BitVec.ofNat 8 n] else 0xFF#8 :: stowExt k (n - 255)

/-- The extension of a length field, if it needs one. -/
def stowExtOf (n : Nat) : List Byte := if n < 15 then [] else stowExt (n + 1) (n - 15)

/-- A sequence with a match. -/
def stowSeq (lits : List Byte) (d len : Nat) : List Byte :=
  let ml := len - 4
  BitVec.ofNat 8 (min 15 lits.length * 16 + min 15 ml) :: stowExtOf lits.length ++ lits ++ leBytes 2 d ++ stowExtOf ml

/-- The last sequence, without a match. -/
def stowLast (lits : List Byte) : List Byte := BitVec.ofNat 8 (min 15 lits.length * 16) :: stowExtOf lits.length ++ lits

/-- The encoder of R495: `hist` is what lies before the position, latest first; `lits` the pending literals, latest
first. -/
def stowLBody : Nat → List Byte → List Byte → List Byte → List Byte
  | 0, _, _, lits => if lits.isEmpty then [] else stowLast lits.reverse
  | n + 1, hist, rest, lits =>
    match rest with
    | [] => if lits.isEmpty then [] else stowLast lits.reverse
    | b :: bs =>
      match stowBest ((stowCands hist rest (min 65535 hist.length) 1).take 16) with
      | some (d, r) => stowSeq lits.reverse d r ++ stowLBody n ((rest.take r).reverse ++ hist) (rest.drop r) []
      | none => stowLBody n (b :: hist) bs (b :: lits)

/-- Read extension bytes: the sum and the rest. -/
def stowExtDec : List Byte → Nat × List Byte
  | [] => (0, [])
  | b :: bs => if b.toNat < 255 then (b.toNat, bs) else let (n, r) := stowExtDec bs; (n + 255, r)

/-- Copy a match byte by byte from `d` bytes back. -/
def stowCopy (d : Nat) : Nat → List Byte → List Byte
  | 0, out => out
  | n + 1, out => stowCopy d n (out.getD (d - 1) 0#8 :: out)

/-- The output of a STOW-L body, latest byte first (R494). -/
def stowLDec (orig : Nat) : Nat → List Byte → List Byte → List Byte
  | 0, _, out => out
  | n + 1, body, out =>
    match body with
    | [] => out
    | t :: bs =>
      let (l0, bs0) := if t.toNat / 16 = 15 then stowExtDec bs else (0, bs)
      let ll := t.toNat / 16 + l0
      let out1 := (bs0.take ll).reverse ++ out
      let bs1 := bs0.drop ll
      if orig ≤ out1.length then out1
      else
        let d := leAt bs1 0 2
        let (m0, bs2) := if t.toNat % 16 = 15 then stowExtDec (bs1.drop 2) else (0, bs1.drop 2)
        stowLDec orig n bs2 (stowCopy d (t.toNat % 16 + m0 + 4) out1)

/-! ### Blocks (R489 to R491, R496) -/

/-- One block written: its bytes, whether it is raw, whether the self-check failed. -/
structure StowBlock where
  bytes : List Byte
  raw : Bool
  checkFail : Bool
  deriving DecidableEq, Repr

/-- A block's bytes (R489, R490). -/
def stowFrame (format : Nat) (raw : Bool) (orig body : List Byte) : List Byte :=
  let h := leBytes 1 (format + b2n raw * 4) ++ zeros 3 ++ leBytes 4 orig.length ++ leBytes 4 body.length ++
    leBytes 4 (crc32c orig)
  h ++ body ++ zeros ((4 - body.length % 4) % 4)

/-- Encode one block: raw where the body would not be shorter, or where it does not decode to the same (R491, R496). -/
def stowBlock (format : Nat) (codes : List Nat) (bs : List Byte) : StowBlock :=
  let body := if format = 0 then stowDBody codes bs else stowLBody bs.length [] bs []
  if bs.length ≤ body.length then { bytes := stowFrame format true bs bs, raw := true, checkFail := false }
  else
    let back := if format = 0 then stowDDecode body bs.length else (stowLDec bs.length (body.length + 1) body []).reverse
    if crc32c back = crc32c bs then { bytes := stowFrame format false bs body, raw := false, checkFail := false }
    else { bytes := stowFrame format true bs bs, raw := true, checkFail := true }

/-- Input bytes of one block (R489). -/
def stowUnit (format : Nat) (codes : List Nat) : Nat := if format = 0 then 65536 / stowSize codes * stowSize codes else 65536

/-- The blocks of an input. -/
def stowBlocks (format : Nat) (codes : List Nat) : Nat → List Byte → List StowBlock
  | 0, _ => []
  | n + 1, bs =>
    if bs.isEmpty then []
    else stowBlock format codes (bs.take (stowUnit format codes)) :: stowBlocks format codes n (bs.drop (stowUnit format codes))

end Sys2Proof.Machine
end

