-- ==== Sys2Proof/Machine/Stow.lean ====
section
/-! DEFINITION. Stow's jobs (R489, R497, R498, R512) and the series ring of a tray build (R499). -/

namespace Sys2Proof.Machine

/-- Width codes of a STOW_JOB (R512). -/
def stowCodes (c : Cmd) : List Nat := (List.range (c.f 8 8 4)).map (fun i => c.f 8 (16 + 2 * i) 2)

/-- Whether STOW_JOB's parameters are refused, and with what (R512). -/
def stowBad (c : Cmd) : Option Nat :=
  let nf := c.f 8 8 4
  if c.w 4 = 0 ∨ c.w 7 = 0 then some stBadLen
  else if 16777216 < c.w 4 then some stBadParam
  else if c.f 8 0 1 = 0 then
    (if nf = 0 ∨ 8 < nf then some stBadParam
     else if c.w 4 % stowSize (stowCodes c) = 0 then none else some stBadParam)
  else if nf = 0 ∧ c.f 8 16 16 = 0 then none else some stBadParam

/-- Write blocks one after another; answers how many were written, how many raw, and whether all fitted. -/
def stowWrite : List StowBlock → Nat → Nat → State → Nat × Nat × Nat × Bool × State
  | [], _, _, s => (0, 0, 0, true, s)
  | b :: bs, a, cap, s =>
    if cap < b.bytes.length then (0, 0, 0, false, s)
    else
      let s1 := memReadBack 5 0 (memWritten 5 0 (storeBytes a b.bytes s).2)
      let s2 := if b.raw then (s1.inc STW_RAW 1).evt STW_EVT 1 else s1
      let s3 := if b.checkFail then faultEdge 19 ((s2.inc STW_CHECK 1).evt STW_EVT 3) else s2
      let (n, k, r, ok, s4) := stowWrite bs (a + b.bytes.length) (cap - b.bytes.length) (s3.inc STW_BLOCKS 1)
      (n + b.bytes.length, k + 1, r + b2n b.raw, ok, s4)

/-- A job runs: its status and results (R497, R498); one whose output could not all be written replies TIMEOUT (R541). -/
def stowRun (c : Cmd) (s : State) : Nat × List Word × State :=
  match loadBytes (c.w64 2) (c.w 4) s with
  | (none, s1) => (stTimeout, [], s1)
  | (some bs, s1) =>
    let f := if c.f 8 0 1 = 0 then 0 else 1
    let blocks := stowBlocks f (stowCodes c) (bs.length + 1) bs
    let dst := c.w64 5
    let total := blocks.foldl (fun n b => n + b.bytes.length) 0
    match stowWrite blocks dst (c.w 7) s1 with
    | (n, k, r, true, s2) =>
      if s1.memReady dst total = false then (stTimeout, [], s2) else (stOk, [w32 n, w32 k, w32 r], (s2.inc STW_JOBS 1).evt STW_EVT 0)
    | (n, _, _, false, s2) =>
      let s3 := (storeBytes dst (zeros n) s2).2
      (stStowOverflow, [0#32, 0#32, 0#32], (s3.inc STW_OVERFLOW 1).evt STW_EVT 2)

/-- Whether a command's transfer of `n` bytes over the hold ports asks for leave: it is longer than PWR_HOLD_CFG.THR and no
leave covers it yet (R45, R432). -/
def State.holdAsks (s : State) (n : Nat) : Bool := s.holdLong n && !s.hasLeave (.hold s.pil.nextJob)

/-- A command waits for the leave of its transfer (R432). -/
def holdWait (s : State) : Ans × State :=
  (.started (.waitLeave 0) .plain, askLeave 5 (s.pwrClass PWR_HOLD_CFG) (s.pwrAmt PWR_HOLD_CFG) (.hold s.pil.nextJob) s)

/-- The answer of a command whose work is done: at once, or by ACCEPTED and a final reply where ASYNC_OK is set (R412). -/
def finished (c : Cmd) (status : Nat) (results : List Word) (s : State) : Ans × State :=
  if c.asyncOk then
    (.started (.done status results) .plain, if status = stOk ∨ status = stTimeout then s else s.inc PIL_REFUSED 1)
  else (.reply status results, s)

/-- Whether a job requested before the one at hand still waits for its leave (R497). -/
def State.stowBefore (s : State) : Bool :=
  s.pil.jobs.any (fun j => j.opcode == 0xB0 && decide (j.id < s.pil.nextJob) && (match j.phase with | .waitLeave _ => true | _ => false))

/-- STOW_JOB (R447, R464, R497, R512). While an entry into DOZE or SLEEP is under way no job starts (R464): one that can hold an async slot
waits for the return to ACTIVE, any other is refused (R43). -/
def stowJob (c : Cmd) (s : State) : Ans × State :=
  match stowBad c with
  | some st => ans st s
  | none =>
    if s.fenced .stow || s.quiesced .stow then ans stFenced s
    else if s.plm.goal.isSome then
      (if c.asyncOk ∧ (s.rd PIL_ASYNC < 16 ∨ (s.job? s.pil.nextJob).isSome = true) then (.started .waitPower .plain, s) else ans stBusyPower s)
    else if 16384 < c.w 4 then
      (.started (.waitLeave 0) .plain,
        askLeave 6 (s.pwrClass PWR_STOW_CFG) (s.pwrAmt PWR_STOW_CFG) (.stow s.pil.nextJob) s)
    else if s.stowBefore then (.started (.waitLeave 1) .plain, s)
    else if s.holdAsks (c.w 4) then holdWait s
    else
      let (st, res, s1) := stowRun c s
      finished c st res s1

/-- The job before is over: those that waited for it alone run, up to the next that waits for its leave (R497). A short one whose transfer
is longer than PWR_HOLD_CFG.THR asks for its leave then. -/
def stowNext (s : State) : State :=
  let waits := s.pil.jobs.filter (fun j => j.opcode == 0xB0 && (match j.phase with | .waitLeave _ => true | _ => false))
  s.each (waits.takeWhile (fun j => j.phase == .waitLeave 1)) (fun j t =>
    if (t.pil.jobs.any (fun x => x.opcode == 0xB0 && decide (x.id < j.id) && (match x.phase with | .waitLeave _ => true | _ => false))) then t
    else if t.holdLong (j.cmd.w 4) then
      modJob j.id (fun x => { x with phase := .waitLeave 0 })
        (askLeave 5 (t.pwrClass PWR_HOLD_CFG) (t.pwrAmt PWR_HOLD_CFG) (.hold j.id) t)
    else
      let (st, res, t1) := stowRun j.cmd t
      finishJob j.id st res t1)

/-- Leave for a job is granted: it runs, and its leave is released (R435, R497); once an entry into DOZE or SLEEP has begun it does not
start (R464). -/
def stowGranted (id : Nat) (s : State) : State :=
  match s.job? id with
  | none => releaseLeave (.stow id) s
  | some j =>
    if s.plm.goal.isSome then
      releaseLeave (.stow id) (if j.async then modJob id (fun x => { x with phase := .waitPower }) s else finishJob id stBusyPower [] s)
    else
      let (st, res, s1) := stowRun j.cmd s
      stowNext (releaseLeave (.stow id) (finishJob id st res s1))

/-- Leave for a job is refused (R435, R497). -/
def stowRefused (id : Nat) (s : State) : State := stowNext (finishJob id stBusyPower [] s)

/-- A quiesced Stow fails the jobs in progress whole (R447). -/
def stowQuiesce (s : State) : State :=
  s.each (s.pil.jobs.filter (fun j => j.opcode == 0xB0 && (match j.phase with | .waitLeave _ => true | .running => true | _ => false)))
    (fun j t => releaseLeave (.stow j.id) (finishJob j.id stFenced [] t))

/-- STOW_JOB. -/
def opStowJob : OpInfo := ⟨0xB0, 1, .both, true, true, lenIs 9⟩

/-! ### The series ring (R499) -/

/-- One record of the ring (R499). -/
def seriesRecord (station parcel : Nat) (body : List Byte) : List Byte :=
  let r := leBytes 4 station ++ leBytes 2 parcel ++ zeros 2 ++ leBytes 4 body.length ++ zeros 4 ++ body
  r ++ zeros ((8 - r.length % 8) % 8)

/-- A record of the ring is written, and sent on to the collector where FWD_EN is set (R499). -/
def seriesPut (rec_ : List Byte) (s : State) : State :=
  let size := s.getF STW_SR_SIZE 0 28 * 4096
  let used := s.rd STW_SR_WR + 2 ^ 64 - s.rd STW_SR_RD
  if size < used % 2 ^ 64 + rec_.length then s.inc STW_SR_DROP 1
  else
    let s1 := (storeRing (s.rd STW_SR_BASE) size (s.rd STW_SR_WR) rec_ s).inc STW_SR_WR rec_.length
    if s.getB STW_SR_CTL 0 then
      sendLanding { stream := 0, ip := s.rdIp STW_SR_COLL }
        { cls := 4, type := 4, dst := 0, parcel := leAt rec_ 4 2, epoch := 0, auth := false, degraded := false, retx := false,
          bytes := withCrc rec_, sent := 0 } s1
    else s1

/-- A SERIES message of a station goes into the ring in its turn; `body` is its payload whole (R159, R499). -/
def seriesWrite (station parcel : Nat) (body : List Byte) (s : State) : State :=
  let r := seriesRecord station parcel body
  if s.ownWaits (.series r) r.length then ownAsk (.series r) r.length s else seriesPut r s

end Sys2Proof.Machine
end

