-- ==== Sys2Proof/Machine/Taps.lean ====
section
/-! DEFINITION. Tap pods, their snapshots and clears, gauges, and beats (R131 to R150). -/

namespace Sys2Proof.Machine

/-! ### Pods (R131 to R134) -/

/-- A pod that has counted nothing. -/
def podBlank : PodSt := { counts := [], caps := [], lastCut := 0, falls := [] }

/-- Pod `p`. -/
def State.pod (s : State) (p : Nat) : PodSt := (Tbl.get? s.tap.pods p).getD podBlank

/-- Put pod `p`. -/
def State.setPod (s : State) (p : Nat) (x : PodSt) : State :=
  { s with tap := { s.tap with pods := Tbl.put podBlank s.tap.pods p x } }

/-- Whether pod `p` is on: its level of TAP_ON on a leaf (R134, R144). -/
def State.podOn (s : State) (p : Nat) : Bool := !s.isTray && decide (p < 64) && bit s.pins.tapOn p

/-- The counter an event is routed to, if its entry is enabled (R132). -/
def State.podRoute (s : State) (p e : Nat) : Option Nat :=
  let w := s.getF (TAP_MAP p (e % 1024 / 2)) (16 * (e % 2)) 16
  if bit w 15 then some (w % 1024) else none

/-- Lanes that have counted (R131 to R134). -/
def countLanes (ls : List TapLane) (s : State) : State :=
  s.each ls (fun l t =>
    if t.podOn l.pod = false then t
    else
      match t.podRoute l.pod l.event with
      | none => t
      | some c =>
        let p := t.pod l.pod
        t.setPod l.pod { p with counts := Tbl.put 0 p.counts c (((Tbl.get? p.counts c).getD 0 + l.amount % 16) % 2 ^ 64) })

/-- Whether the TAP_CLK of the pod behind an offset of the live counter window runs, as a read finds it (R145). -/
def podClock (off : Nat) (running : Bool) (s : State) : State :=
  let p := (off - 0x100000) / 8192
  if off < 0x100000 ∨ 0x180000 ≤ off then s
  else { s with tap := { s.tap with stopped := if running then clrBit s.tap.stopped p else setBit s.tap.stopped p } }

/-- The full value of counter `n` (R133). -/
def State.counter (s : State) (n : Nat) : Nat := (Tbl.get? (s.pod (n / 1024)).counts (n % 1024)).getD 0

/-- A pod's map becomes the identity (R134). -/
def mapIdentity (p : Nat) (s : State) : State :=
  { s with regs := s.regs.filter (fun e => !(decide (0x60000 + 0x800 * p ≤ e.1) && decide (e.1 < 0x60800 + 0x800 * p))) }

/-! ### Cuts and captures (R136 to R142) -/

/-- The cut with a number. -/
def State.cut? (s : State) (id : Nat) : Option Cut := s.tap.cuts.find? (fun c => c.id == id)

/-- Change the cut with a number. -/
def modCut (id : Nat) (f : Cut → Cut) (s : State) : State :=
  { s with tap := { s.tap with cuts := s.tap.cuts.map (fun c => if c.id = id then f c else c) } }

/-- Banks of a pod in use (R139). -/
def PodSt.banks (p : PodSt) : Nat := (p.caps.filter (fun c => !c.waiting)).length

/-- A snapshot reaches the probe unit, or is known not to (R139, R140); the first answer stands. -/
def giveSnap (id p : Nat) (x : PodSnap) (s : State) : State :=
  modCut id (fun c => if (Tbl.get? c.snaps p).isSome then c else { c with snaps := Tbl.set c.snaps p x }) s

/-- A pod captures for a cut, or waits for a bank (R136, R139). -/
def podCapture (id p : Nat) (s : State) : State :=
  let x := s.pod p
  let wait := decide (2 ≤ x.banks) || x.caps.any (·.waiting)
  let cap : PodCap := { cut := some id, job := 0, first := 0, count := 0, waiting := wait, stale := false, deferred := wait,
                        vals := if wait then [] else x.counts }
  s.setPod p { x with caps := x.caps ++ [cap], lastCut := if wait then x.lastCut else id }

/-- Gauges sampled by the build (R146). -/
def State.gaugeCount (s : State) : Nat := s.getF GAU_CTL 0 9

/-- The cut of the strobes raised at the present edge (R136, R138, R146): one capture and one sampling serve them all. -/
def takeCut (s : State) : Nat × State :=
  match s.tap.cuts.find? (fun c => c.edge == s.dat.edges) with
  | some c => (c.id, s)
  | none =>
    let id := s.tap.nextCut
    let gs := List.range s.gaugeCount
    let c : Cut := { id := id, edge := s.dat.edges, snaps := [], gauges := [], waiting := gs }
    let s1 := { s with tap := { s.tap with cuts := s.tap.cuts ++ [c], nextCut := id + 1 } }
    let s2 := s1.each ((List.range 64).filter s.podOn) (podCapture id)
    (id, s2.each gs (fun g t => t.emit (.gaugeReq g)))

/-- A pod clears the counters of a TAP_CLEAR it holds (R141): each pre-clear value is captured in the same edge. -/
def podClear (p first count : Nat) (s : State) : State :=
  let x := s.pod p
  let named := fun (e : Nat × Nat) => decide (first ≤ 1024 * p + e.1) && decide (1024 * p + e.1 < first + count)
  let s1 := s.setPod p { x with counts := x.counts.filter (fun e => !(named e)) }
  { s1 with tap := { s1.tap with clears := s1.tap.clears ++
      [{ pod := p, after := x.lastCut, first := first, count := count, pre := x.counts.filter named }] } }

/-- A TAP_CLEAR reaches a pod: it clears at once, or waits for a bank (R141). -/
def podClearAsk (job first count p : Nat) (s : State) : State :=
  let x := s.pod p
  let wait := decide (2 ≤ x.banks) || x.caps.any (·.waiting)
  let cap : PodCap := { cut := none, job := job, first := first, count := count, waiting := wait, stale := false,
                        deferred := false, vals := [] }
  let s1 := s.setPod p { x with caps := x.caps ++ [cap] }
  if wait then s1 else podClear p first count s1

/-- Whether a TAP_CLEAR still waits for a pod. -/
def State.clearWaits (s : State) (job : Nat) : Bool :=
  s.tap.pods.any (fun e => e.2.caps.any (fun c => c.cut.isNone && c.waiting && c.job == job))

/-- TAP_CLEAR replies once every clear has been captured (R165). -/
def clearSettled (job : Nat) (s : State) : State := if s.clearWaits job then s else finishJob job stOk [] s

/-- The first capture that waits at a pod gets the bank that has freed (R139, R141). -/
def deferredCapture (p : Nat) (ls : List TapLane) (s : State) : State :=
  let s0 := countLanes ls s
  let x := s0.pod p
  if s0.podOn p = false ∨ 2 ≤ x.banks then s0
  else
    match x.caps.find? (·.waiting) with
    | none => s0
    | some c =>
      let put (c1 : PodCap) (l : Nat) : State :=
        let before := x.caps.takeWhile (fun y => !y.waiting)
        let after := (x.caps.dropWhile (fun y => !y.waiting)).drop 1
        s0.setPod p { x with caps := before ++ c1 :: after, lastCut := l }
      match c.cut with
      | some id => ((put { c with waiting := false, vals := x.counts } id).inc TAP_DEFERRED 1).evt TAP_EVT 1
      | none => clearSettled c.job (podClear p c.first c.count (put { c with waiting := false } x.lastCut))

/-- The oldest bank in use has crossed to the probe unit and frees (R139). -/
def snapshotCrossed (p : Nat) (s : State) : State :=
  let x := s.pod p
  match x.caps.find? (fun c => !c.waiting) with
  | none => s
  | some c =>
    let s1 := s.setPod p { x with caps := x.caps.takeWhile (·.waiting) ++ (x.caps.dropWhile (·.waiting)).drop 1 }
    match c.cut with
    | some id => giveSnap id p { stale := c.stale, deferred := c.deferred, vals := c.vals } s1
    | none => s1

/-- The oldest snapshot still on its way is late by 2 µs (R140). -/
def snapshotLate (p : Nat) (s : State) : State :=
  let x := s.pod p
  match x.caps.find? (fun c => c.cut.isSome && !c.stale) with
  | none => s
  | some c =>
    let mark := fun (y : PodCap) => if y.cut == c.cut then { y with stale := true } else y
    let s1 := ((s.setPod p { x with caps := x.caps.map mark }).inc TAP_SNAP_TMO 1).evt TAP_EVT 2
    giveSnap (c.cut.getD 0) p { stale := true, deferred := c.deferred, vals := [] } s1

/-- TAP_ON of a pod rises: its counters are zero and its map is the identity (R134). -/
def podRise (p : Nat) (s : State) : State :=
  if s.isTray ∨ 64 ≤ p ∨ s.podOn p = true then s
  else
    let x := s.pod p
    mapIdentity p ({ s with pins := { s.pins with tapOn := setBit s.pins.tapOn p } }.setPod p { x with counts := [] })

/-- TAP_ON of a pod falls: it stops counting, and what it had not delivered is lost (R134, R144). -/
def podFall (p : Nat) (s : State) : State :=
  if s.podOn p = false then s
  else
    let x := s.pod p
    let s1 := { s with pins := { s.pins with tapOn := clrBit s.pins.tapOn p } }.setPod p
      { x with caps := [], counts := [], falls := x.falls ++ [s.tap.nextCut - 1] }
    let s2 := s1.each x.caps (fun c t =>
      match c.cut with
      | some id => giveSnap id p { stale := true, deferred := c.deferred, vals := [] } t
      | none => t)
    s2.each (x.caps.filter (fun c => c.cut.isNone && c.waiting)) (fun c t => clearSettled c.job t)

/-! ### Deltas and levels (R143, R144) -/

/-- What pod `p` gave a cut. -/
def Cut.snap (c : Cut) (p : Nat) : PodSnap := (Tbl.get? c.snaps p).getD { stale := true, deferred := false, vals := [] }

/-- Whether a pod's figures are STALE between two cuts (R144). -/
def State.podStale (s : State) (p : Nat) (a b : Cut) : Bool :=
  (a.snap p).stale || (b.snap p).stale || (s.pod p).falls.any (fun f => decide (a.id ≤ f) && decide (f < b.id))

/-- The delta of a counter over the clears that belong to an epoch (R143). -/
def deltaOver : List Nat → Nat → Nat → Nat
  | [], prev, last => (last + 2 ^ 64 - prev % 2 ^ 64) % 2 ^ 64
  | pre :: rest, prev, last => (pre + 2 ^ 64 - prev % 2 ^ 64) % 2 ^ 64 + deltaOver rest 0 last

/-- The delta of counter `n` between two cuts (R143). -/
def State.counterDelta (s : State) (n : Nat) (a b : Cut) : Nat :=
  let p := n / 1024
  let cs := s.tap.clears.filter (fun c => c.pod == p && decide (a.id ≤ c.after) && decide (c.after < b.id) &&
    decide (c.first ≤ n) && decide (n < c.first + c.count))
  deltaOver (cs.map (fun c => (Tbl.get? c.pre (n % 1024)).getD 0)) ((Tbl.get? (a.snap p).vals (n % 1024)).getD 0)
    ((Tbl.get? (b.snap p).vals (n % 1024)).getD 0)

/-- Whether everything a cut awaits has come (R139, R140, R146, R147). -/
def State.cutReady (s : State) (c : Cut) : Bool :=
  c.waiting.isEmpty &&
    !(s.tap.pods.any (fun e => (Tbl.get? c.snaps e.1).isNone && e.2.caps.any (fun x => x.cut == some c.id)))

/-- Cuts and clears that no epoch can need any more are forgotten. -/
def pruneCuts (s : State) : State :=
  let used := (s.par.ctxs.flatMap (fun e => e.2.epochs.flatMap (fun x => x.cut :: x.endCut.toList))).filter (fun i => decide (0 < i))
  let low := used.foldl min (s.tap.nextCut - 1)
  { s with tap := { s.tap with
      cuts := s.tap.cuts.filter (fun c => decide (low ≤ c.id) || !c.waiting.isEmpty || c.edge == s.dat.edges),
      clears := s.tap.clears.filter (fun c => decide (low ≤ c.after)),
      pods := s.tap.pods.map (fun e => (e.1, { e.2 with falls := e.2.falls.filter (fun f => decide (low ≤ f)) })) } }

/-! ### Gauges (R146, R147) -/

/-- The answer to the oldest outstanding request, or none where it timed out. -/
def gaugeSettle (v : Option Nat) (s : State) : State :=
  match s.tap.cuts.find? (fun c => !c.waiting.isEmpty) with
  | none => s
  | some c =>
    let g := c.waiting.headD 0
    let s1 := modCut c.id (fun x => { x with waiting := x.waiting.drop 1, gauges := Tbl.set x.gauges g v }) s
    match v with
    | some n => s1.wr (GAU_VAL g) n
    | none => s1.inc GAU_STALE 1

/-! ### Beats (R85, R86, R149, R150) -/

/-- Stamps of input `n` that the probe unit has taken. -/
def State.beats (s : State) (n : Nat) : List BeatTaken := (Tbl.get? s.tap.beats n).getD []

/-- Whether a beat input's intervals are formed (R149). -/
def State.beatOn (s : State) (n : Nat) : Bool := decide (n < 8) && s.getB BEA_CTL n

/-- The probe unit takes the stamps queued at an input while the compute tier is in ACTIVE (R86, R149). -/
def beatTake (n : Nat) (s : State) : State :=
  if s.computeActive = false then s
  else
    let q := (Tbl.get? s.dat.beatQ n).getD []
    let s1 := { s with dat := { s.dat with beatQ := Tbl.erase s.dat.beatQ n } }
    if s.beatOn n = false then s1
    else
      s1.each q (fun b t =>
        let old := t.beats n
        let iv := match old.getLast? with
          | some p => if b.step then none else some ((b.time + clockMod - p.time) % clockMod)
          | none => none
        let t1 : State := { t with tap := { t.tap with beats := Tbl.set t.tap.beats n (old ++ [{ time := b.time, interval := iv }]) } }
        match iv with
        | some d => t1.wr (BEA_INT n) (d / 2 ^ 16)
        | none => t1)

/-- A rising edge of ZY_BEAT (R85, R86): stamped, and queued where the queue of 64 has room. -/
def beatStamped (n edge : Nat) (s : State) : State :=
  let t := beatStamp edge
  let q := (Tbl.get? s.dat.beatQ n).getD []
  let s1 := s.wrTime (DAT_BEAT_SUB n) (DAT_BEAT_SEC n) t
  if 64 ≤ q.length then s1.inc DAT_BEAT_DROP 1
  else
    beatTake n { s1 with dat := { s1.dat with beatQ := Tbl.set s1.dat.beatQ n (q ++ [{ time := t, step := s1.dat.stepMark == some s1.dat.edges }]) } }

/-- Clearing an input's enable bit discards its queued stamps and forgets its last stamp (R149). -/
def beatForget (n : Nat) (s : State) : State :=
  { s with dat := { s.dat with beatQ := Tbl.erase s.dat.beatQ n }, tap := { s.tap with beats := Tbl.erase s.tap.beats n } }

/-- The intervals of input `n` that end within `[a, b)`, and the sample of a stalled step where none does (R149, R150):
each in clock units. DESIGN CHOICE (log 111): an input not enabled in BEA_CTL has no stamp, so its INTERVAL probe is MISSING. -/
def State.beatSamples (s : State) (n a b : Nat) : List Nat :=
  let bs := s.beats n
  let ivs := bs.filterMap (fun x => if a ≤ x.time ∧ x.time < b then x.interval else none)
  if !ivs.isEmpty then ivs
  else
    match (bs.filter (fun x => decide (x.time < b))).getLast? with
    | some x => [b - x.time]
    | none => []

/-- Stamps older than every epoch in progress are forgotten, but for the last one. -/
def pruneBeats (low : Nat) (s : State) : State :=
  { s with tap := { s.tap with beats := s.tap.beats.map (fun e =>
      let keep := e.2.filter (fun x => decide (low ≤ x.time))
      (e.1, (e.2.filter (fun x => decide (x.time < low))).drop ((e.2.filter (fun x => decide (x.time < low))).length - 1) ++ keep)) } }

end Sys2Proof.Machine
end

