-- ==== Sys2Proof/Machine/Probes.lean ====
section
/-! DEFINITION. Probes and trend trackers (R151 to R164), sketches of a station's own values (R218, R219), the straggler
check (R345) and SERIES messages (R159). -/

namespace Sys2Proof.Machine

/-! ### Values (R153 to R156) -/

/-- An exact value as a quotient of natural numbers. -/
structure Exact where
  num : Nat
  den : Nat
  deriving DecidableEq, Repr

/-- `x × 2^SHIFT` rounded toward zero to 48.16, and whether it saturated (R154); SHIFT is a 6-bit field. -/
def scaleRaw (shift : Nat) (x : Exact) : Nat × Bool :=
  let e := toInt 6 shift + 16
  let r := if 0 ≤ e then x.num * 2 ^ e.toNat / x.den else x.num / (x.den * 2 ^ (-e).toNat)
  (min r (2 ^ 64 - 1), decide (2 ^ 64 ≤ r))

/-- A raw 48.16 value as binary32. DEDUCED: rounded to nearest, ties to even. -/
def rawToF32 (r : Nat) : Nat := f32Round false (r * 2 ^ 133) 1

/-- What a probe's source gives for an epoch: STALE, MISSING, and its samples (R153, R155, R156). -/
structure ProbeRead where
  stale : Bool
  missing : Bool
  samples : List Exact
  deriving DecidableEq, Repr

/-- A probe read between two cuts (R144, R146, R149, R150, R153). DESIGN CHOICE (log 110): a gauge that no sampling takes in, its
number not below GAU_CTL.COUNT, is STALE. -/
def State.probeRead (s : State) (c : Ctx) (k : Nat) (a b : Cut) (p : Nat) : ProbeRead :=
  let w0 := s.rd (PRB_DESC p 0)
  let src := fld w0 28 3
  let xf := fld w0 25 3
  let na := fld w0 0 16
  let nb := s.getF (PRB_DESC p 1) 16 16
  let one (stale : Bool) (x : Exact) : ProbeRead := { stale := stale, missing := false, samples := if stale then [] else [x] }
  if src = 0 then
    let st := s.podStale (na / 1024) a b
    if xf = 4 then one st ⟨(Tbl.get? (b.snap (na / 1024)).vals (na % 1024)).getD 0 % 2 ^ 48, 1⟩
    else if xf = 1 then one st ⟨s.counterDelta na a b * 1000000000, c.period * 10000⟩
    else one st ⟨s.counterDelta na a b, 1⟩
  else if src = 1 then
    let st := s.podStale (na / 1024) a b || s.podStale (nb / 1024) a b
    let d := s.counterDelta nb a b
    if st then { stale := true, missing := false, samples := [] }
    else if d = 0 then { stale := false, missing := true, samples := [] }
    else one false ⟨s.counterDelta na a b, d⟩
  else if src = 2 then
    match (Tbl.get? b.gauges na).getD none with
    | some v => one false ⟨v, 1⟩
    | none => { stale := true, missing := false, samples := [] }
  else
    let xs := s.beatSamples na (c.boundary k) (c.boundary (k + 1))
    { stale := false, missing := xs.isEmpty, samples := xs.map (fun x => ⟨x, 2 ^ 32⟩) }

/-- The mean of a probe's samples; the sample itself where there is one (R156). -/
def meanOf : List Exact → Exact
  | [] => ⟨0, 1⟩
  | x :: xs => ⟨(x :: xs).foldl (fun n y => n + y.num) 0, x.den * (xs.length + 1)⟩

/-! ### Trend trackers (R161 to R164) -/

/-- One sample of tracker `t` (R162). Answers whether it raises a DRIFT vote. -/
def trackerUpdate (t y : Nat) (s : State) : Bool × State :=
  let cfg0 := s.rd (PRB_TRK_CFG t 0)
  let cfg1 := s.rd (PRB_TRK_CFG t 1)
  let warm := fld cfg1 24 8
  let sc := 2 ^ fld cfg1 16 6
  let kk : Int := (s.rd (PRB_TRK_CFG t 2) * sc : Nat)
  let hh : Int := (s.rd (PRB_TRK_CFG t 3) * sc : Nat)
  let seen := s.rd (PRB_TRK_SEEN t)
  let base : Int := (s.rd (PRB_TRK_BASE t) : Nat)
  let dv : Int := (y : Int) - base
  let next := (base + dv / (2 ^ fld cfg0 12 4 : Nat)).toNat
  let s1 := s.wr (PRB_TRK_SEEN t) (min (seen + 1) 255)
  if seen = 0 ∧ 0 < warm then (false, s1.wr (PRB_TRK_BASE t) y)
  else if seen < warm then (false, s1.wr (PRB_TRK_BASE t) next)
  else
    let top : Int := (2 ^ 64 - 1 : Nat)
    let sp := min (max 0 ((s.rd (PRB_TRK_SPOS t) : Nat) + dv - kk)) top
    let sn := min (max 0 ((s.rd (PRB_TRK_SNEG t) : Nat) - dv - kk)) top
    if hh < sp ∨ hh < sn then (true, (s1.wr (PRB_TRK_SPOS t) 0).wr (PRB_TRK_SNEG t) 0)
    else (false, ((s1.wr (PRB_TRK_SPOS t) sp.toNat).wr (PRB_TRK_SNEG t) sn.toNat).wr (PRB_TRK_BASE t) next)

/-- A tracker starts (R164). -/
def trackerStart (t : Nat) (s : State) : State :=
  (((s.wr (PRB_TRK_BASE t) (s.rd (PRB_TRK_CFG t 4) + s.rd (PRB_TRK_CFG t 5) * 2 ^ 32)).wr (PRB_TRK_SPOS t) 0).wr
    (PRB_TRK_SNEG t) 0).wr (PRB_TRK_SEEN t) 0

/-- A tracker's vote, and its counts (R163). -/
def trackerVote (n k unit : Nat) (s : State) : State :=
  let (ok, s1) := raiseVote n k 2 (suspectNo s.station unit) 1 s
  if ok then (s1.inc PRB_TRK_VOTES 1).evt PRB_EVT 3 else s1

/-- The trackers that a parcel's probes feed, in ascending order, each with its probe's value (R161, R162, R224). -/
def State.trackersOf (s : State) (parcel : Nat) (vs : List ProbeVal) : List (Nat × ProbeVal) :=
  (List.range 256).flatMap (fun t =>
    if s.getB (PRB_TRK_CFG t 0) 31 && s.getF (PRB_TRK_CFG t 0) 16 12 == parcel then
      (vs.filter (fun v => s.getB (PRB_DESC v.probe 3) 31 && s.getF (PRB_DESC v.probe 3) 16 8 == t)).map (fun v => (t, v))
    else [])

/-- Every tracker that an epoch's values feed. -/
def feedTrackers (n k parcel : Nat) (vs : List ProbeVal) (s : State) : State :=
  s.each (s.trackersOf parcel (vs.filter (fun v => !v.stale && !v.missing))) (fun e t =>
    let (hit, t1) := trackerUpdate e.1 e.2.raw t
    if hit then trackerVote n k (t.getF (PRB_DESC e.2.probe 3) 0 12) t1 else t1)

/-! ### Sketches of own values (R218) -/

/-- Count saturations of bins and moments (R213, R217). -/
def noteSat (n : Nat) (m : Bool) (s : State) : State :=
  let s1 := if n = 0 then s else s.inc TAL_HSAT n
  if n = 0 ∧ m = false then s1 else s1.evt TAL_EVT 2

/-- A station's probe enters the accumulator of an epoch (R218). -/
def sketchEnter (n k : Nat) (p : ProbeEnt) (r : ProbeRead) (sat : Bool) (raws : List Nat) (s : State) : State :=
  if p.sketch % 16 = 0 then s
  else
    match s.epoch? n k with
    | none => s
    | some e =>
      let a0 := (Tbl.get? e.accs p.probe).getD accBlank
      let a1 := { a0 with nStale := a0.nStale + b2n r.stale, nMissing := a0.nMissing + b2n r.missing,
                          nVal := a0.nVal + b2n (!raws.isEmpty), nSat := a0.nSat + b2n sat }
      let (ns, m, a2, _) := raws.foldl (fun (x : Nat × Bool × Accum × Nat) r =>
        let (i, b, a) := enterSample p.sketch s.station x.2.2.2 r x.2.2.1
        (x.1 + i, x.2.1 || b, a, x.2.2.2 + 1)) (0, false, a1, 0)
      noteSat ns m (s.modEpoch n k (fun x => { x with accs := Tbl.set x.accs p.probe a2 }))

/-- The value of a probe from what was read (R153 to R156). -/
def probeVal (p : ProbeEnt) (r : ProbeRead) : ProbeVal :=
  let m := scaleRaw p.shift (meanOf r.samples)
  { probe := p.probe, raw := if r.samples.isEmpty then 0 else m.1, stale := r.stale, missing := r.missing,
    sat := !r.samples.isEmpty && m.2 }

/-- One probe of an epoch: its value, its counts, its sketch (R153 to R156, R218). -/
def probeEval (n k : Nat) (c : Ctx) (a b : Cut) (p : ProbeEnt) (s : State) : State :=
  let r := s.probeRead c k a b p.probe
  let xs := r.samples.map (scaleRaw p.shift)
  let sats := (xs.filter (·.2)).length
  let v := probeVal p r
  let s1 := if r.stale then s.evt PRB_EVT 0 else s
  let s2 := if r.missing then (s1.inc PRB_MISSING 1).evt PRB_EVT 1 else s1
  let s3 := if 0 < sats then (s2.inc PRB_SAT sats).evt PRB_EVT 2 else s2
  let s4 := s3.modEpoch n k (fun e => { e with ownVals := e.ownVals ++ [v], ownStale := e.ownStale || r.stale || r.missing,
                                               stale := e.stale || r.stale || r.missing })
  sketchEnter n k p r (decide (0 < sats)) (xs.map (·.1)) s4

/-! ### The straggler check (R345) -/

/-- The probes of a parcel whose largest sample exceeds their bar, as beat inputs in ascending probe order. -/
def State.stragglers (s : State) (c : Ctx) (e : Epoch) : List Nat :=
  c.probes.filterMap (fun p =>
    match Tbl.get? e.bars p.probe with
    | none => none
    | some bar =>
      let n := s.getF (PRB_DESC p.probe 0) 0 16
      let xs := (s.beatSamples n (c.boundary e.k) (c.boundary (e.k + 1))).map (fun d => (scaleRaw p.shift ⟨d, 2 ^ 32⟩).1)
      if p.xform = 3 && xs.any (fun x => decide (bar < x)) then some n else none)

/-- Raise the STRAGGLER votes of an epoch: one for a beat input (R224, R345). -/
def stragglerCheck (n : Nat) (c : Ctx) (e : Epoch) (s : State) : State :=
  let hit := s.stragglers c e
  s.each ((List.range 8).filter (fun b => hit.contains b)) (fun b t => (raiseVote n e.k 1 (suspectNo t.station b) 1 t).2)

/-! ### SERIES (R159) -/

/-- The record of one probe (R159). -/
def seriesRec (v : ProbeVal) : List Byte :=
  leBytes 2 (v.probe % 1024 + b2n v.stale * 2 ^ 15 + b2n v.missing * 2 ^ 14 + b2n v.sat * 2 ^ 13) ++
    leBytes 8 (if v.stale || v.missing then 0 else v.raw)

/-- The Stow block of a SERIES body (R159): STOW-D with fields of 2 and 8 bytes (R493), stored raw while Stow is fenced (R447),
and counted (R496, R498). -/
def seriesBlock (bs : List Byte) (s : State) : List Byte × State :=
  if s.fenced .stow || s.quiesced .stow then (stowFrame 0 true bs bs, (s.inc STW_RAW 1).evt STW_EVT 1)
  else
    let b := stowBlock 0 [1, 3] bs
    let s1 := memReadBack 5 0 (memWritten 5 0 (s.inc STW_BLOCKS 1))
    let s2 := if b.raw then (s1.inc STW_RAW 1).evt STW_EVT 1 else s1
    (b.bytes, if b.checkFail then faultEdge 19 ((s2.inc STW_CHECK 1).evt STW_EVT 3) else s2)

/-- The SERIES message of an epoch, where the parcel has a SERIES probe (R159). -/
def seriesSend (k : Nat) (c : Ctx) (vs : List ProbeVal) (s : State) : State :=
  let vs1 := vs.filter (fun v => s.getB (PRB_DESC v.probe 1) 11)
  if vs1.isEmpty then s
  else
    let (blk, s1) := seriesBlock (vs1.flatMap seriesRec) s
    let body := leBytes 5 k ++ leBytes 2 vs1.length ++ leBytes 1 (b2n (vs1.any (fun v => v.stale || v.missing))) ++ blk
    if s.isTray then seriesWrite s.station c.parcel (withCrc body) s1 else sendUp 4 c.parcel body s1

/-- A SERIES message not sent by the 16th boundary after its epoch is discarded (R160). -/
def seriesDiscard (parcel : Nat) (s : State) : State :=
  let c := s.chain 0
  match c.txq.findIdx? (fun m => m.type == 4 && m.parcel == parcel) with
  | none => s
  | some i => ((s.setChain 0 { c with txq := c.txq.take i ++ c.txq.drop (i + 1) }).inc PRB_SERIES_DROP 1).evt PRB_EVT 4

/-! ### An epoch's values (R157) -/

/-- The values of an epoch of context `n` are formed, between its two cuts (R143, R144, R157). -/
def evalEpoch (n k : Nat) (a b : Cut) (s : State) : State :=
  match s.ctx? n with
  | none => s
  | some c =>
    let off := (List.range 64).filter (fun p => !s.isTray && s.podStale p a b)
    let s1 := s.each off (fun p t => t.putB TAP_STALE p true)
    let late := (a.snaps ++ b.snaps).any (fun e => e.2.deferred)
    let s2 := s1.modEpoch n k (fun e => { e with own := .included, degraded := e.degraded || late })
    let s3 := s2.each c.probes (fun p t => probeEval n k c a b p t)
    match s3.epoch? n k with
    | none => s3
    | some e =>
      let s4 := stragglerCheck n c e (feedTrackers n k c.parcel e.ownVals s3)
      seriesSend k c e.ownVals s4

end Sys2Proof.Machine
end

