-- ==== Sys2Proof/Machine/Closures.lean ====
section
/-! DEFINITION. Closures, ASLEEP and RESOLVE messages, published records: their layout, what they count, where they are
sent and kept (R174 to R180, R192 to R195). -/

namespace Sys2Proof.Machine

/-! ### Counts (R176, R183) -/

/-- The counts of a closure or record (R175, R192). -/
structure Counts where
  inc : Nat
  asleep : Nat
  absent : Nat
  stale : Nat
  degraded : Nat
  voids : Nat
  roster : Nat
  declared : Nat
  deriving DecidableEq, Repr

/-- No station counted. -/
def noCounts : Counts :=
  { inc := 0, asleep := 0, absent := 0, stale := 0, degraded := 0, voids := 0, roster := 0, declared := 0 }

/-- Two counts together. -/
def Counts.add (a b : Counts) : Counts :=
  { inc := a.inc + b.inc, asleep := a.asleep + b.asleep, absent := a.absent + b.absent, stale := a.stale + b.stale,
    degraded := a.degraded + b.degraded, voids := a.voids + b.voids, roster := a.roster + b.roster,
    declared := a.declared + b.declared }

/-- Members below a child (R176). -/
def Ctx.membersOf (c : Ctx) (st : Nat) : Nat := ((c.kids.find? (fun x => x.station == st)).map (·.members)).getD 0

/-- The level of a child. -/
def Ctx.levelOf (c : Ctx) (st : Nat) : Nat := ((c.kids.find? (fun x => x.station == st)).map (·.level)).getD 0

/-- What a child adds (R183). -/
def kidCounts (c : Ctx) (x : KidEpoch) : Counts :=
  let m := c.membersOf x.station
  match x.phase with
  | .included => { inc := x.nInc, asleep := x.nAsleep, absent := x.nAbsent, stale := x.nStale, degraded := x.nDegraded,
                   voids := x.nVoid + b2n x.voided, roster := x.nRoster, declared := x.nDeclared }
  | .asleep => { noCounts with asleep := 1 }
  | .absentRoster => { noCounts with absent := m, roster := m }
  | .absentDeclared => { noCounts with absent := m, declared := m }
  | .absentTimeout => { noCounts with absent := m }
  | .outstanding => { noCounts with absent := m }

/-- What the own station adds. -/
def ownCounts (e : Epoch) : Counts :=
  match e.own with
  | .included => { noCounts with inc := 1, stale := b2n e.ownStale, degraded := b2n e.ownDegraded }
  | .asleep => { noCounts with asleep := 1 }
  | .notMember => noCounts
  | .waiting => noCounts

/-- The counts of an epoch at a node (R176); a pass of the node's own that failed is one contribution voided (R317). -/
def epochCounts (c : Ctx) (e : Epoch) : Counts :=
  (e.kids.foldl (fun n x => n.add (kidCounts c x)) (ownCounts e)).add { noCounts with voids := b2n e.trnFailed }

/-! ### Absent entries (R177) -/

/-- The reason of an absence, if the child is absent. -/
def absentReason : KidPhase → Option Nat
  | .absentTimeout => some 0
  | .absentRoster => some 1
  | .absentDeclared => some 2
  | _ => none

/-- The absent entries that a child gives: its own list where it is included, its own absence otherwise. -/
def kidAbsents (c : Ctx) (x : KidEpoch) : List Nat :=
  match absentReason x.phase with
  | some r => [x.station % 2 ^ 20 + c.levelOf x.station % 8 * 2 ^ 20 + r * 2 ^ 23 + c.membersOf x.station % 2 ^ 20 * 2 ^ 32]
  | none => if x.phase = .included then x.absents else []

/-- Put an entry in ascending station number. -/
def insertAbsent (e : Nat) : List Nat → List Nat
  | [] => [e]
  | x :: xs => if e % 2 ^ 20 < x % 2 ^ 20 then e :: x :: xs else x :: insertAbsent e xs

/-- Every absent entry of an epoch, in ascending station number (R177, R193). -/
def epochAbsents (c : Ctx) (e : Epoch) : List Nat := (e.kids.flatMap (kidAbsents c)).foldl (fun l x => insertAbsent x l) []

/-! ### The closure message (R175) -/

/-- A closure header (R175). -/
structure ClosureHead where
  k : Nat
  kind : Nat
  level : Nat
  flags : Nat
  nMembers : Nat
  counts : Counts
  platVer : Nat
  subVer : Nat
  sketchLen : Nat
  trnLen : Nat
  nAbs : Nat
  nPend : Nat
  tClose : Nat
  deriving DecidableEq, Repr

/-- The 64 bytes of a closure header (R175). -/
def ClosureHead.bytes (h : ClosureHead) : List Byte :=
  leBytes 5 h.k ++ leBytes 1 (h.kind % 4 + h.level % 8 * 4) ++ leBytes 2 h.flags ++ leBytes 3 (h.nMembers % 2 ^ 20) ++
    leBytes 3 h.counts.inc ++ leBytes 3 h.counts.asleep ++ leBytes 3 h.counts.absent ++ leBytes 3 h.counts.stale ++
    leBytes 3 h.counts.degraded ++ leBytes 2 h.platVer ++ leBytes 2 h.subVer ++ leBytes 2 h.counts.voids ++
    leBytes 4 h.sketchLen ++ leBytes 4 h.trnLen ++ leBytes 1 h.nAbs ++ leBytes 1 h.nPend ++ zeros 2 ++ timeBytes h.tClose ++
    leBytes 3 (h.counts.roster % 2 ^ 20) ++ leBytes 3 (h.counts.declared % 2 ^ 20) ++ zeros 2

/-- A received closure header (R175); a malformed T_CLOSE reads as zero. -/
def closureHeadOf (bs : List Byte) : ClosureHead :=
  { k := leAt bs 0 5, kind := leAt bs 5 1 % 4, level := leAt bs 5 1 / 4 % 8, flags := leAt bs 6 2,
    nMembers := leAt bs 8 3 % 2 ^ 20,
    counts := { inc := leAt bs 11 3, asleep := leAt bs 14 3, absent := leAt bs 17 3, stale := leAt bs 20 3,
                degraded := leAt bs 23 3, voids := leAt bs 30 2, roster := leAt bs 56 3 % 2 ^ 20,
                declared := leAt bs 59 3 % 2 ^ 20 },
    platVer := leAt bs 26 2, subVer := leAt bs 28 2, sketchLen := leAt bs 32 4, trnLen := leAt bs 36 4, nAbs := leAt bs 40 1,
    nPend := leAt bs 41 1, tClose := (decTime (leAt bs 44 12)).getD 0 }

/-- Whether a closure or RESOLVE message is malformed against the epoch of its cell header (R171). A leaf's Transit
section is a list of 8-byte entries (R178). -/
def closureBad (ep : Nat) (bs : List Byte) : Bool :=
  let h := closureHeadOf bs
  decide (bs.length < 64) || h.k % 2 ^ 24 != ep % 2 ^ 24 || decide (2 ≤ h.kind) || decide (64 < h.nAbs) ||
    bs.length != 64 + 8 * h.nAbs + h.sketchLen + h.trnLen ||
    (sketchItems (slice bs (64 + 8 * h.nAbs) h.sketchLen)).isNone ||
    (h.trnLen != 0 &&
      (if h.level = 0 then h.trnLen % 8 != 0
       else h.trnLen != 48 + 8 * leAt bs (64 + 8 * h.nAbs + h.sketchLen + 2) 2))

/-- The payload of an ASLEEP message (R179). -/
def asleepBytes (k : Nat) (degraded : Bool) : List Byte := leBytes 5 k ++ leBytes 1 (b2n degraded) ++ zeros 2

/-! ### What a node sends (R174, R178, R180, R208) -/

/-- The accumulator of a probe in an epoch, coarse where the epoch has been folded. -/
def accFor (e : Epoch) (p : Nat) : Accum :=
  let a := (Tbl.get? e.accs p).getD accBlank
  if e.coarse then (foldAcc a).2 else a

/-- The sketch section of an epoch whose votes have been cut (R208). -/
def sketchSection (c : Ctx) (e : Epoch) (v : Votes) : List Byte :=
  (c.probes.filter (fun p => p.sketch % 16 != 0)).flatMap (fun p => sketchBytes p (accFor e p.probe)) ++ voteSection v

/-- Insert by the first component. -/
def insertBySlot (e : Nat × Nat) : List (Nat × Nat) → List (Nat × Nat)
  | [] => [e]
  | x :: xs => if e.1 < x.1 then e :: x :: xs else x :: insertBySlot e xs

/-- The binary32 of a probe's value; a quiet NaN where it is STALE or MISSING (R155, R156). -/
def ProbeVal.f32 (v : ProbeVal) : Nat := if v.stale || v.missing then f32QNan else rawToF32 v.raw

/-- The Transit entries of own values: slot and binary32, in ascending slot order (R178). -/
def State.trnEntries (s : State) (vs : List ProbeVal) : List (Nat × Nat) :=
  (vs.filter (fun v => s.getB (PRB_DESC v.probe 2) 15)).foldl
    (fun l v => insertBySlot (s.getF (PRB_DESC v.probe 2) 0 11, v.f32) l) []

/-- A leaf's Transit section (R178). -/
def leafTransit (es : List (Nat × Nat)) : List Byte := es.flatMap (fun e => leBytes 2 e.1 ++ zeros 2 ++ leBytes 4 e.2)

/-- Whether an epoch's contribution carries COARSE (R180, R234). -/
def Epoch.isCoarse (e : Epoch) : Bool := e.coarse || e.coarseIn || e.accs.any (fun a => a.2.coarse)

/-- The flags of a closure but PENDING and RETX (R175, R180). DEDUCED (log 145): the ABS_TRUNC of an included child carries over (R177). -/
def closureFlags (strict : Bool) (e : Epoch) (v : Votes) (trunc : Bool) : Nat :=
  b2n e.degraded + b2n e.isCoarse * 2 + b2n (v.approx || e.approx) * 4 + b2n e.stale * 8 + b2n (e.isVoid || e.trnFailed) * 32 +
    b2n (trunc || e.truncated) * 64 + b2n e.stopped * 128 + b2n strict * 256

/-- The Transit section a node sends for an epoch: a failed pass gives none (R178, R317, R321). -/
def State.trnSection (s : State) (c : Ctx) (e : Epoch) : List Byte :=
  if c.level = 0 then leafTransit (s.trnEntries e.ownVals) else if e.trnFailed then [] else e.trnBytes

/-- A closure of an epoch, without its CRC (R175). `pend` is N_PEND. -/
def State.closureBytes (s : State) (c : Ctx) (e : Epoch) (pend : Bool) : List Byte :=
  let v := voteCut e.votes
  let absents := epochAbsents c e
  let listed := absents.take 64
  let sk := sketchSection c e v
  let tr := s.trnSection c e
  let h : ClosureHead :=
    { k := e.k, kind := 0, level := c.level,
      flags := closureFlags (s.getB EPO_CTL 0) e v (decide (64 < absents.length)) + b2n pend * 16,
      nMembers := c.members, counts := epochCounts c e, platVer := e.platVer,
      subVer := if c.level = 0 then 0 else leAt tr 0 2, sketchLen := sk.length, trnLen := tr.length, nAbs := listed.length,
      nPend := b2n pend, tClose := if c.level = 0 then s.now else e.tClose }
  h.bytes ++ listed.flatMap (leBytes 8) ++ sk ++ tr

/-- A RESOLVE message of an epoch, without its CRC (R187). DESIGN CHOICE (log 114): its header names the members, and every other count
and version in it is zero. -/
def State.resolveBytes (s : State) (c : Ctx) (e : Epoch) : List Byte :=
  let h : ClosureHead :=
    { k := e.k, kind := 1, level := c.level, flags := b2n e.trnFailed * 32 + b2n (s.getB EPO_CTL 0) * 256, nMembers := c.members,
      counts := noCounts, platVer := 0, subVer := 0, sketchLen := 0, trnLen := 0, nAbs := 0, nPend := 0, tClose := s.now }
  h.bytes

/-! ### Where it goes (R103, R174, R187) -/

/-- The parent a context's closures go to, over the chain, to another role of the instance, or over Landing. `bs` is the
payload without its CRC; `type` is 1 CLOSURE or 2 ASLEEP, `ep` the epoch. A leaf's own station number does not name its
tray build, so its messages go by the chain; one that is HEADLESS or not inserted sends nothing (R118, R173). -/
def sendParent (type : Nat) (c : Ctx) (ep : Nat) (degraded : Bool) (bs : List Byte) (s : State) : State :=
  if s.isTray = false then
    if s.chMode 0 = 0 ∨ s.inserted 0 = false then s
    else
      sendMsg 0 { cls := 3, type := type, dst := stTrayStation s.station, parcel := c.parcel, epoch := ep, auth := false,
                  degraded := degraded, retx := false, bytes := withCrc bs, sent := 0 } s
  else if c.parent = s.station then s.later (.ownRole type c.parcel ep bs)
  else sendTray type c.parent c.parcel ep degraded bs s

/-! ### Retention (R194, R195) -/

/-- How many a context keeps (R194). -/
def State.keepLimit (s : State) (pub : Bool) : Nat := if s.isTray then (if pub then 4096 else 256) else 16

/-- The newest `n` entries of a table by key. -/
def newest {α : Type} (n : Nat) (t : Tbl α) : Tbl α := t.drop (t.length - n)

/-- What context number `n` keeps. -/
def State.keep? (s : State) (n : Nat) : Option Keep := Tbl.get? s.par.keeps n

/-- Change what context number `n` keeps. -/
def modKeep (n : Nat) (f : Keep → Keep) (s : State) : State := { s with par := { s.par with keeps := Tbl.modify s.par.keeps n f } }

/-- Free the Berths buffers of the kept items of which `f` holds. -/
def berthFree (f : KeptBuf → Bool) (s : State) : State :=
  ({ s with par := { s.par with berthed := s.par.berthed.filter (fun x => !(f x)) } }).each (s.par.berthed.filter f)
    (fun x t => t.each x.bufs (fun b u => brtRelease b.1 b.2 u))

/-- A leaf's oldest kept item is discarded for space (R195). -/
def evictKept (x : KeptBuf) (s : State) : State :=
  ((modKeep x.ctx (fun y => { y with items := Tbl.erase y.items x.k, trn := Tbl.erase y.trn x.k })
    (berthFree (fun y => y == x) s)).inc EPO_RET_EVICT 1).evt EPO_EVT 6

/-- A leaf finds room in Berths for an item to be kept: while it does not fit, the oldest kept one is discarded (R195). DEDUCED
(log 116): the request of a closure is a CLOSURE request under R487, that of a record is not. Answers whether it fits. -/
def berthItem : Nat → Nat → Nat → Bool → Nat → State → Bool × State
  | 0, _, _, _, _, s => (false, s)
  | f + 1, n, k, urgent, size, s =>
    match brtRequest urgent size s with
    | (some bufs, s1) => (true, { s1 with par := { s1.par with berthed := s1.par.berthed ++ [{ ctx := n, k := k, bufs := bufs }] } })
    | (none, s1) =>
      match s1.par.berthed with
      | [] => (false, s1)
      | x :: _ => berthItem f n k urgent size (evictKept x s1)

/-- An item's bytes and its Transit section are kept (R194, R323). -/
def keepPut (n : Nat) (k : Nat) (bs trn : List Byte) (s : State) : State :=
  modKeep n (fun x => { x with items := Tbl.set x.items k bs, trn := Tbl.set x.trn k trn }) s

/-- Keep a closure, ASLEEP message or record of epoch `k` under context number `n`, its CRC included, with its Transit
section (R194, R195, R323). In hold memory a long one is written once its leave has come (R432). -/
def keepItem (n : Nat) (c : Ctx) (k : Nat) (bs trn : List Byte) (s : State) : State :=
  let lim := s.keepLimit c.pub
  let s0 := modKeep n (fun x => { x with items := newest (lim - 1) (Tbl.erase x.items k), trn := newest (lim - 1) (Tbl.erase x.trn k),
                                         resolves := x.resolves.filter (fun e => decide (k < e.1 + lim)), last := some k }) s
  let (fits, s1) := if s.isTray then (true, s0) else
    berthItem (s0.par.berthed.length + 1) n k (!c.pub) bs.length
      (berthFree (fun b => b.ctx == n && ((s0.keep? n).map (fun x => (Tbl.get? x.items b.k).isNone)).getD true) s0)
  if s1.holdLong (bs.length + trn.length) then ownAsk (.keep n k bs trn) (bs.length + trn.length) s1
  else if fits then keepPut n k bs trn s1 else s1

/-! ### The record (R192) -/

/-- The flags of a record (R192). -/
def recordFlags (e : Epoch) (v : Votes) (n : Counts) (trunc : Bool) : Nat :=
  b2n (0 < n.absent) + b2n (0 < n.asleep) * 2 + b2n e.stale * 4 + b2n e.degraded * 8 + b2n e.isCoarse * 16 +
    b2n (e.isVoid || e.trnFailed) * 32 + b2n (v.approx || e.approx) * 64 + b2n (trunc || e.truncated) * 128 +
    b2n e.stopped * 256 + b2n (n.roster + n.declared < n.absent) * 512

/-- What the derivation reads of an epoch's record. -/
def State.recView (s : State) (c : Ctx) (e : Epoch) : RecView :=
  let v := voteCut e.votes
  let absents := epochAbsents c e
  let n := epochCounts c e
  { k := e.k, station := s.station, accs := c.probes.map (fun p => (p.probe, accFor e p.probe)), votes := v.table,
    absents := absents.take 1024, trn := if e.trnFailed then [] else e.trnBytes,
    flags := recordFlags e v n (decide (1024 < absents.length)), nInc := n.inc, follows := c.last.map (· + 1) == some e.k,
    mixed := e.mixed }

/-- A record with its CRC (R192). -/
def State.recordBytes (s : State) (c : Ctx) (e : Epoch) (vs : List Verdict) : List Byte :=
  let v := voteCut e.votes
  let absents := (epochAbsents c e).take 1024
  let n := epochCounts c e
  let sk := sketchSection c e v
  let r := s.recView c e
  let trn := if c.level = 0 then [] else s.trnSection c e
  let len := 128 + 8 * absents.length + sk.length + 64 * vs.length + 4
  withCrc (leBytes 2 1 ++ leBytes 2 c.parcel ++ leBytes 5 e.k ++ leBytes 1 (c.level % 8 + b2n (s.getB EPO_CTL 0) * 8) ++
    leBytes 3 s.station ++ zeros 3 ++ timeBytes (c.boundary e.k) ++ timeBytes (c.boundary (e.k + 1)) ++ timeBytes s.now ++
    leBytes 4 (c.members % 2 ^ 20) ++ leBytes 4 n.inc ++ leBytes 4 n.asleep ++ leBytes 4 n.absent ++
    leBytes 4 (n.absent - n.roster - n.declared) ++ leBytes 4 n.roster ++ leBytes 4 n.declared ++ leBytes 4 n.stale ++
    leBytes 4 n.degraded ++ leBytes 2 n.voids ++ leBytes 2 r.flags ++ leBytes 2 e.platVer ++ leBytes 2 (leAt trn 0 2) ++
    leBytes 4 absents.length ++ leBytes 4 sk.length ++ leBytes 4 vs.length ++ leBytes 4 len ++ zeros 16 ++
    absents.flatMap (leBytes 8) ++ sk ++ vs.flatMap (fun w => verdictBytes w.head 0))

/-! ### Commands of the block's own (R423) -/

/-- The block sends a command to another instance under its node key (R408, R418, R423); answers whether it could: with
NODE_EN clear it issues none. `st` is a leaf of its chains or a tray build its tree entries name. -/
def issueCommand (opcode parcel st : Nat) (params : List Word) (purpose : IssueFor) (s : State) : Bool × State :=
  if s.getB PIL_CTL 7 = false then (false, s)
  else
    let tag := s.pil.nextTag
    let ws := [w32 (opcode + (params.length + 2) * 2 ^ 16), w32 (tag + parcel % 2 ^ 12 * 2 ^ 16)] ++ params
    let (e, s0) := nodeSeal (fun key origin time => envBody st false key origin time ws) s
    let bs := envBody st false e.keyId e.origin (e.time.getD 0) ws ++ e.mac
    let issued : Issued := { tag := tag, opcode := opcode, station := st, purpose := purpose }
    let s1 : State := { s0 with pil := { s0.pil with issued := s0.pil.issued ++ [issued], nextTag := (tag + 1) % 2 ^ 16 } }
    if stPos st = 0 then
      match s.lndAddr st with
      | none => (true, s1)
      | some a => (true, sendEnvelope (.landing a) false st bs s1)
    else (true, sendEnvelope (.chain (stChain st)) false st bs s1)

end Sys2Proof.Machine
end

