-- ==== Sys2Proof/Machine/Tally.lean ====
section
/-! DEFINITION. Tally's queue (R232 to R236): merging, folding, building, backlog and saturation. -/

namespace Sys2Proof.Machine

/-! ### The queue (R232) -/

/-- Whether Tally does its work: its compute tier is in ACTIVE and the unit is not held in reset. -/
def State.tallyUp (s : State) : Bool := s.computeActive && !s.quiesced .tally

/-- End boundary of the epoch of an item, for the queue's order. -/
def State.itemEnd (s : State) (i : TallyItem) : Nat := ((s.ctx? i.ctx).map (fun c => c.boundary (i.k + 1))).getD 0

/-- Whether an item comes before another: by the end boundary of its epoch, and then by its time of arrival (R232). -/
def State.itemBefore (s : State) (i x : TallyItem) : Bool :=
  decide (s.itemEnd i < s.itemEnd x) || (s.itemEnd i == s.itemEnd x && decide (i.arr < x.arr))

/-- Put an item behind those that do not come after it (R232). The item in progress keeps its place, and so does a fold queued
behind it, which is the next item of the queue (R234). -/
def insertItem (s : State) (i : TallyItem) : List TallyItem → List TallyItem
  | [] => [i]
  | x :: xs => if x.work ≠ .fold ∧ s.itemBefore i x = true then i :: x :: xs else x :: insertItem s i xs

/-- What Tally works off in one DAT_CLK edge, in hundredths of a byte: 19.2 GB/s or 102.4 GB/s over 0.8 ns (R232). -/
def State.edgeWork (s : State) : Nat := if s.isTray then 8192 else 1536

/-- Bytes worked off of the item in progress (R233). -/
def State.workDone (s : State) : Nat :=
  s.par.workBase + (if s.tallyUp && s.wit.selfRun.isNone then (s.dat.edges - s.par.workFrom) * s.edgeWork / 100 else 0)

/-- TAL_BACKLOG: the cost queued and what remains of the item in progress, in bytes (R233). -/
def State.backlog (s : State) : Nat :=
  match s.par.queue with
  | [] => 0
  | i :: rest => rest.foldl (fun n x => n + x.cost) (i.cost - s.workDone)

/-- Work on the item at the front begins. -/
def startWork (s : State) : State := { s with par := { s.par with workBase := 0, workFrom := s.dat.edges } }

/-- Tally's clock stops, or runs again: what it has worked off of its item stays. -/
def holdWork (s : State) : State := { s with par := { s.par with workBase := s.workDone, workFrom := s.dat.edges } }

/-- Bytes that Tally works off in 100 ns (R232). -/
def State.tallyRate (s : State) : Nat := if s.isTray then 10240 else 1920

/-- Whether the backlog exceeds SAT_TIME (R233). -/
def State.saturated (s : State) : Bool := decide (s.getF TAL_CTL 0 16 * s.tallyRate < s.backlog)

/-- Put the queue, and keep the largest backlog seen (R238). Work begins on a new front. -/
def setQueue (q : List TallyItem) (s : State) : State :=
  let s1 : State := { s with par := { s.par with queue := q } }
  let s2 := if q.head? = s.par.queue.head? then s1 else startWork s1
  s2.maxR TAL_BACKLOG_MAX s2.backlog

/-- Whether an item belongs to an epoch of a context. -/
def TallyItem.isOf (i : TallyItem) (n k : Nat) : Bool := i.ctx == n && i.k == k

/-! ### Saturation (R233, R234, R236) -/

/-- The fine buffers with queued work: context, epoch (R233). One whose fold is queued is no longer fine. -/
def State.fineBuffers (s : State) : List (Nat × Nat) :=
  ((s.par.queue.map (fun i => (i.ctx, i.k))).eraseDups).filter (fun b =>
    !(s.par.queue.any (fun i => i.isOf b.1 b.2 && i.work == .fold)) &&
      ((s.epoch? b.1 b.2).map (fun e => !e.coarse)).getD false)

/-- Whether buffer `a` is folded rather than `b` (R233). DESIGN CHOICE (log 148): of equal priority and SEQ the earlier epoch, then the
earlier context. -/
def State.victimBefore (s : State) (a b : Nat × Nat) : Bool :=
  match s.ctx? a.1, s.ctx? b.1 with
  | some x, some y =>
    if x.prio ≠ y.prio then decide (x.prio < y.prio)
    else if x.seq ≠ y.seq then decide (y.seq < x.seq)
    else decide (a.2 < b.2)
  | _, _ => false

/-- The victim, if one remains (R233). -/
def State.victim (s : State) : Option (Nat × Nat) :=
  s.fineBuffers.foldl (fun b x => match b with
    | none => some x
    | some w => if s.victimBefore x w then some x else some w) none

/-- Cost of folding a context's buffer (R232). -/
def foldCost (c : Ctx) : Nat := 2048 * (c.probes.filter (fun p => bit p.sketch 0)).length

/-- An item as it costs once its buffer is coarse (R232, R234). -/
def State.recost (s : State) (i : TallyItem) : TallyItem :=
  match i.work with
  | .merge bs => { i with cost := sectionCost (fun _ => true) bs }
  | .fold => i
  | .build =>
    match s.ctx? i.ctx, s.epoch? i.ctx i.k with
    | some c, some e => { i with cost := (sketchSection c { e with coarse := true } (voteCut e.votes)).length }
    | _, _ => i

/-- A victim's fold is queued after the item in progress and the folds that already stand behind it, and its later items become
coarse (R234). -/
def foldVictim (n k : Nat) (s : State) : State :=
  match s.ctx? n, s.par.queue with
  | some c, front :: rest =>
    let it : TallyItem := { ctx := n, k := k, work := .fold, cost := foldCost c, arr := s.dat.edges }
    let folds := rest.takeWhile (fun i => i.work == .fold)
    let others := (rest.drop folds.length).map (fun i => if i.isOf n k then s.recost i else i)
    ((setQueue (front :: (folds ++ it :: others)) s).inc TAL_COARSE 1).evt TAL_EVT 0
  | _, _ => s

/-- Take victims until the backlog is no longer above SAT_TIME or none remains (R233). -/
def foldVictims : Nat → State → State
  | 0, s => s
  | f + 1, s =>
    if s.saturated = false then s
    else
      match s.victim with
      | none => s
      | some (n, k) => foldVictims f (foldVictim n k s)

/-- Each epoch with work queued while Tally may not fold is counted once (R236). -/
def satDelay (s : State) : State :=
  if s.saturated = false then s
  else
    s.each ((s.par.queue.map (fun i => (i.ctx, i.k))).eraseDups) (fun b t =>
      match t.epoch? b.1 b.2 with
      | none => t
      | some e =>
        if e.satCounted then t
        else ((t.modEpoch b.1 b.2 (fun x => { x with satCounted := true })).inc TAL_SAT_DELAY 1).evt TAL_EVT 5)

/-- The check of the backlog at an arrival or a gate close (R233, R236). -/
def satCheck (s : State) : State :=
  if s.getB EPO_CTL 0 ∨ s.getB TAL_CTL 16 = false then satDelay s else foldVictims 512 s

/-- An item joins the queue, and the backlog is checked. -/
def tallyPut (i : TallyItem) (s : State) : State :=
  match s.par.queue with
  | [] => satCheck (setQueue [i] s)
  | front :: rest => satCheck (setQueue (front :: insertItem s i rest) s)

/-! ### Work (R210, R220, R225, R234) -/

/-- Merge one probe sketch into an epoch (R210, R220). -/
def mergeSketch (n k : Nat) (bs : List Byte) (s : State) : State :=
  match s.ctx? n, s.epoch? n k with
  | some c, some e =>
    let i := sketchOf bs
    match c.probes.find? (fun p => p.probe == i.probe && p.sketch % 16 != 0) with
    | none => (s.inc TAL_MISMATCH 1).evt TAL_EVT 7
    | some p =>
      let a := accFor e p.probe
      if i.comp = p.sketch % 16 ∧ i.xform = p.xform ∧ i.shift = ofInt 8 (toInt 6 p.shift) then
        let (ns, m, a1) := mergeAcc a i.acc
        noteSat ns m (s.modEpoch n k (fun x => { x with accs := Tbl.set x.accs p.probe a1 }))
      else
        ((s.modEpoch n k (fun x => { x with accs := Tbl.set x.accs p.probe { a with mismatch := true } })).inc
          TAL_MISMATCH 1).evt TAL_EVT 7
  | _, _ => s

/-- Merge a vote section into an epoch (R225). -/
def mergeVotes (n k : Nat) (bs : List Byte) (s : State) : State :=
  let s1 := s.each (voteEntries bs) (fun e t => enterVote n k e.1 e.2 t)
  let f := leAt bs 3 1
  s1.modEpoch n k (fun x =>
    { x with votes := { x.votes with ovf := min (x.votes.ovf + leAt bs 4 4) (2 ^ 32 - 1), approx := x.votes.approx || bit f 0,
                                     csat := x.votes.csat || bit f 1, spilled := x.votes.spilled || bit f 2 } })

/-- Merge a child's sketch section (R210, R220, R225). -/
def mergeSection (n k : Nat) (bs : List Byte) (s : State) : State :=
  s.each ((sketchItems bs).getD []) (fun i t => if leAt i 0 2 = 0xFC00 then mergeVotes n k i t else mergeSketch n k i t)

/-- Fold an epoch's buffer (R234). -/
def foldEpoch (n k : Nat) (s : State) : State :=
  match s.ctx? n, s.epoch? n k with
  | some c, some e =>
    let ps := c.probes.filter (fun p => p.sketch % 16 != 0)
    let folded := ps.map (fun p => (p.probe, foldAcc (accFor e p.probe)))
    noteSat (folded.foldl (fun t x => t + x.2.1) 0) false
      (s.modEpoch n k (fun x => { x with coarse := true, accs := folded.map (fun y => (y.1, y.2.2)) }))
  | _, _ => s

/-- What an item does as it completes; the queue no longer holds it. A leaf's section that was built while the fold of its buffer
waited is done with that fold (R234). -/
def tallyWork (i : TallyItem) (s : State) : State :=
  let queued (w : TallyWork) : Bool := s.par.queue.any (fun x => x.isOf i.ctx i.k && x.work == w)
  match i.work with
  | .merge bs => mergeSection i.ctx i.k bs s
  | .fold =>
    (foldEpoch i.ctx i.k s).modEpoch i.ctx i.k (fun e =>
      if e.build = .pending ∧ queued .build = false then { e with build := .done } else e)
  | .build => if queued .fold then s else s.modEpoch i.ctx i.k (fun e => { e with build := .done })

/-- Items of a context, or of one of its epochs, leave the queue. -/
def dropItems (f : TallyItem → Bool) (s : State) : State := setQueue (s.par.queue.filter (fun i => !(f i))) s

/-- Whether an epoch has work in the queue, or sections that wait for its buffer (R231). -/
def State.hasWork (s : State) (n k : Nat) : Bool :=
  s.par.queue.any (fun i => i.isOf n k) || ((s.epoch? n k).map (fun e => !e.held.isEmpty)).getD false

/-- Whether the buffer of epoch `k` still holds an earlier epoch of the context (R231). -/
def Ctx.bufferBusy (c : Ctx) (k : Nat) : Bool := c.epochs.any (fun e => decide (e.k < k) && e.k % 2 == k % 2 && !e.sentPending)

/-- The probes whose sketches a section brings coarse. -/
def coarseOf (bs : List Byte) : List Nat :=
  (((sketchItems bs).getD []).filter (fun i => leAt i 0 2 != 0xFC00 && (sketchOf i).acc.coarse)).map (fun i => leAt i 0 2)

/-- Whether the accumulator of a probe is coarse once what is queued of its epoch has been merged: its buffer is or will be folded, or
a child's sketch is coarse (R220, R232). -/
def State.coarseAcc (s : State) (n k probe : Nat) : Bool :=
  match s.epoch? n k with
  | none => false
  | some e =>
    e.coarse || ((Tbl.get? e.accs probe).map (·.coarse)).getD false ||
      s.par.queue.any (fun i => i.isOf n k && (match i.work with
        | .fold => true
        | .merge bs => (coarseOf bs).contains probe
        | .build => false))

/-- A child's section that arrived at an edge is queued to be merged. -/
def queueMerge (n k arr : Nat) (bs : List Byte) (s : State) : State :=
  tallyPut { ctx := n, k := k, work := .merge bs, cost := sectionCost (s.coarseAcc n k) bs, arr := arr } s

/-- A leaf's section is queued to be built, once all that it is built from is in (R232). -/
def buildPut (n k : Nat) (s : State) : State :=
  match s.ctx? n, s.epoch? n k with
  | some c, some e =>
    if c.level ≠ 0 ∨ e.build ≠ .pending ∨ e.cad = .pending ∨ s.par.queue.any (fun i => i.isOf n k && i.work == .build) = true then s
    else tallyPut { ctx := n, k := k, work := .build, cost := (sketchSection c e (voteCut e.votes)).length, arr := s.dat.edges } s
  | _, _ => s

/-- Sections that waited for a buffer which has become free are queued (R231). -/
def unhold (n : Nat) (s : State) : State :=
  match s.ctx? n with
  | none => s
  | some c =>
    s.each (c.epochs.filter (fun e => !e.held.isEmpty && !c.bufferBusy e.k)) (fun e t =>
      (t.modEpoch n e.k (fun x => { x with held := [] })).each e.held (fun x u => queueMerge n e.k x.1 x.2 u))

end Sys2Proof.Machine
end

