-- ==== Sys2Proof/Machine/TransitSec.lean ====
section
/-! DEFINITION. The Transit section and its merge (R302, R308, R321, R322). -/

namespace Sys2Proof.Machine

/-- A Transit section (R321); sums and maxima are binary32. -/
structure TrnSec where
  subVer : Nat
  nCol : Nat
  nExcl : Nat
  flags : Nat
  resSum : Nat
  resMax : Nat
  resStn : Nat
  mahSum : Nat
  mahMax : Nat
  mahStn : Nat
  coefSum : List Nat
  coefSq : List Nat
  deriving DecidableEq, Repr

/-- The bytes of a section (R321). -/
def TrnSec.bytes (t : TrnSec) : List Byte :=
  leBytes 2 t.subVer ++ leBytes 2 t.coefSum.length ++ leBytes 4 (t.nCol % 2 ^ 20) ++ leBytes 4 (t.nExcl % 2 ^ 20) ++
    leBytes 4 t.flags ++ leBytes 4 t.resSum ++ leBytes 4 t.resMax ++ leBytes 4 (t.resStn % 2 ^ 20) ++ leBytes 4 t.mahSum ++
    leBytes 4 t.mahMax ++ leBytes 4 (t.mahStn % 2 ^ 20) ++ zeros 8 ++ t.coefSum.flatMap (leBytes 4) ++
    t.coefSq.flatMap (leBytes 4)

/-- A section from its bytes. -/
def trnSecOf (bs : List Byte) : TrnSec :=
  let r := leAt bs 2 2
  { subVer := leAt bs 0 2, nCol := leAt bs 4 4 % 2 ^ 20, nExcl := leAt bs 8 4 % 2 ^ 20, flags := leAt bs 12 4 % 4,
    resSum := leAt bs 16 4, resMax := leAt bs 20 4, resStn := leAt bs 24 4 % 2 ^ 20, mahSum := leAt bs 28 4,
    mahMax := leAt bs 32 4, mahStn := leAt bs 36 4 % 2 ^ 20,
    coefSum := (List.range r).map (fun j => leAt bs (48 + 4 * j) 4),
    coefSq := (List.range r).map (fun j => leAt bs (48 + 4 * (r + j)) 4) }

/-- The larger of two maxima with its station; of two equal ones that of the lower station (R308). -/
def maxOf (a : Nat × Nat) (b : Nat × Nat) : Nat × Nat :=
  if f32Lt a.1 b.1 then b else if f32Lt b.1 a.1 then a else if b.2 < a.2 then b else a

/-- Two sections together (R322). -/
def TrnSec.add (a b : TrnSec) : TrnSec :=
  let r := maxOf (a.resMax, a.resStn) (b.resMax, b.resStn)
  let m := maxOf (a.mahMax, a.mahStn) (b.mahMax, b.mahStn)
  { subVer := a.subVer, nCol := a.nCol + b.nCol, nExcl := a.nExcl + b.nExcl, flags := a.flags ||| b.flags,
    resSum := f32Add a.resSum b.resSum, resMax := r.1, resStn := r.2, mahSum := f32Add a.mahSum b.mahSum, mahMax := m.1,
    mahStn := m.2, coefSum := List.zipWith f32Add a.coefSum b.coefSum, coefSq := List.zipWith f32Add a.coefSq b.coefSq }

/-- Whether a section enters the merge: its version is the one bound, its rank that of the first included (R322). -/
def secFits (bound : Nat) (first : Option TrnSec) (t : TrnSec) : Bool :=
  t.subVer == bound && (match first with
    | none => true
    | some f => f.coefSum.length == t.coefSum.length)

/-- Merge sections in the order given; answers the merged section, if one enters, and how many were excluded (R322). -/
def mergeSecs (bound : Nat) : List TrnSec → Option TrnSec → Nat → Option TrnSec × Nat
  | [], acc, n => (acc, n)
  | t :: ts, acc, n =>
    if secFits bound acc t then
      mergeSecs bound ts (some (match acc with
        | none => t
        | some a => a.add t)) n
    else mergeSecs bound ts acc (n + 1)

/-- Put a child in ascending station number. -/
def insertKid (x : KidEpoch) : List KidEpoch → List KidEpoch
  | [] => [x]
  | y :: ys => if x.station < y.station then x :: y :: ys else y :: insertKid x ys

/-- The merged section of an epoch at a parent role, and the sections excluded (R201, R322). -/
def epochSections (e : Epoch) : List Byte × Nat :=
  let kids := (e.kids.filter (fun x => x.phase == .included && !x.voided && !x.pending && !x.trn.isEmpty)).foldl
    (fun l x => insertKid x l) []
  match mergeSecs e.sub (kids.map (fun x => trnSecOf x.trn)) none 0 with
  | (none, n) => ([], n)
  | (some t, n) => (if t.nCol = 0 then [] else t.bytes, n)

end Sys2Proof.Machine
end

