-- ==== Sys2Proof/Machine/Epochs.lean ====
section
/-! DEFINITION. An epoch at a node (R170 to R198, R240, R250): messages in, deadlines, the gate, the finish, sending and
publishing, the drain. -/

namespace Sys2Proof.Machine

/-! ### Freeing (R240, R250, R559, R560) -/

/-- A context returns to FREE: what waits for it goes with it. What it kept stays (R195). -/
def freeCtx (n : Nat) (force : Bool) (s : State) : State :=
  let s0 := if (s.ctx? n).any (fun c => c.asker.isRemote) then pilotFree (remoteDone s) else s
  let s1 := dropItems (fun i => i.ctx == n) s0
  let s2 : State := { s1 with
    par := { s1.par with ctxs := Tbl.erase s1.par.ctxs n },
    cad := { s1.cad with pass := s1.cad.pass.map (fun p => { p with rows := p.rows.filter (fun r => r.1 != n) }) },
    trn := { s1.trn with pass := s1.trn.pass.map (fun p => if p.ctx = n then { p with ctx := 256 } else p) } }
  let s3 := s2.evt PAR_EVT 3
  (if force then s3.evt PAR_EVT 7 else s3).later .trnRun

/-- A role's context of a parcel is freed, and PARCEL_FREE passed on to every child that holds the parcel: to another instance as a
command, to the instance's own next lower role inside the block, which refuses it under R240 while LIVE or RELEASING without FORCE and
then passes nothing on (R560). A lower role that publishes a reservation of its own is no child. The fuel counts the roles. -/
def freeRole : Nat → Nat → Bool → State → State
  | 0, _, _, s => s
  | f + 1, n, force, s =>
    match s.ctx? n with
    | none => s
    | some c =>
      let s1 := s.each (c.kids.filter (fun x => x.station != s.station)) (fun x u =>
        (issueCommand 0x14 c.parcel x.station [w32 (b2n force)] (.free c.parcel x.station) u).2)
      let s2 := freeCtx n force s1
      if c.level ≤ 1 ∨ c.kids.any (fun x => x.station == s.station) = false then s2
      else
        match s2.ctxAt c.parcel (c.level - 1) with
        | none => s2
        | some (m, x) => if x.pub ∨ (x.isLive = true ∧ force = false) then s2 else freeRole f m force s2

/-- PARCEL_FREE from a role downward. Where the instance then holds the parcel no more, epoch-effective rulings that wait for it are
discarded, and counted where its commit never came (R559). -/
def freeParcel (n : Nat) (force : Bool) (s : State) : State :=
  match s.ctx? n with
  | none => s
  | some c =>
    let mine (r : Ruling) : Bool := r.atEpoch && r.parcel == c.parcel
    let s1 := freeRole 5 n force s
    if (s1.ctxsOf c.parcel).isEmpty = false then s1
    else
      let s2 := dropPend mine s1
      if c.phase = .reserved then s2.each (s1.par.pend.filter mine) (fun _ t => countRefusal stBadParam t) else s2

/-- A publishing node whose last record is written frees the parcel (R240, R250). -/
def drainFree (n : Nat) (s : State) : State :=
  match s.ctx? n with
  | none => s
  | some c =>
    if c.phase = .draining ∧ c.pub = true ∧ (c.endE = some 0 ∨ c.last = c.endE.map (· - 1)) then freeParcel n false s
    else s

/-! ### Sending and publishing (R174, R187, R192, R339) -/

/-- An epoch leaves the context: it is the last one sent or published, and its buffer is free (R231). -/
def epochDone (n k : Nat) (s : State) : State :=
  unhold n (s.modCtx n (fun c => { c with epochs := c.epochs.filter (fun e => e.k != k), last := some k }))

/-- An epoch as a leaf sends its closure: DEGRADED while its chain is cut or its way upstream fenced (R28, R117). A tray build's
closure takes the flag from those it merges (R180). -/
def Epoch.asSent (s : State) (c : Ctx) (e : Epoch) : Epoch :=
  if c.level = 0 ∧ s.chainDegraded = true then { e with degraded := true, ownDegraded := e.own != .notMember } else e

/-- A leaf that is HEADLESS keeps the closure of an epoch (R118, R186). -/
def noteWithheld (n k : Nat) (s : State) : State :=
  if s.isTray = false ∧ s.chMode 0 = 0 then s.modCtx n (fun c => { c with withheld := some k }) else s

/-- Count an epoch that leaves with APPROX (R238). -/
def noteApprox (e : Epoch) (s : State) : State :=
  if (voteCut e.votes).approx || e.approx then (s.inc TAL_APPROX 1).evt TAL_EVT 1 else s

/-- A node sends its closure for an epoch; `pend` where Transit's checks have not completed (R174, R187). An epoch that
leaves PENDING stays listed until its RESOLVE has been sent. -/
def sendClosure (n : Nat) (c : Ctx) (e0 : Epoch) (pend : Bool) (s : State) : State :=
  let e := e0.asSent s c
  let bs := s.closureBytes c e pend
  let s1 := noteApprox e (keepItem n c e.k (withCrc bs) (if c.level = 0 then [] else s.trnSection c e) s)
  let s2 := if pend then unhold n ((s1.modEpoch n e.k (fun x => { x with sentPending := true })).modCtx n (fun x => { x with last := some e.k }))
            else epochDone n e.k s1
  drainFree n (sendParent 1 c e.k e.degraded bs (noteWithheld n e.k s2))

/-- A base tier sends ASLEEP for an epoch (R55, R179). -/
def sendAsleep (n : Nat) (c : Ctx) (e0 : Epoch) (s : State) : State :=
  let e := e0.asSent s c
  let bs := asleepBytes e.k e.degraded
  sendParent 2 c e.k e.degraded bs (noteWithheld n e.k (epochDone n e.k (keepItem n c e.k (withCrc bs) [] s)))

/-- The publishing node writes an epoch's record and what follows from it (R190, R192, R339, R341). -/
def publish (n : Nat) (c0 : Ctx) (e : Epoch) (s : State) : State :=
  let due := c0.extPend.filter (fun x => decide (x.1 ≤ e.k))
  let c : Ctx := { c0 with
    extPend := c0.extPend.filter (fun x => !(decide (x.1 ≤ e.k))),
    extBars := withBars c0.extBars ((due.map (fun x => x.2)).filter (fun x => c0.probes.any (fun p => p.probe == x.1 && p.barred))) }
  let s0 := s.setCtx n c
  let v := s0.recView c e
  let vs := allVerdicts (s0.vrdCfg n) c v
  let held := heldVerdicts vs
  let s1 := noteApprox e (epochDone n e.k (keepItem n c e.k (s0.recordBytes c e held) v.trn s0))
  let s2 := (s1.each held (fun w t => writeVerdict w.head t)).evt EPO_EVT 0
  let s3 := if held.length < vs.length then (s2.inc EPO_VRD_DROP (vs.length - held.length)).evt EPO_VRD_EVT 1 else s2
  drainFree n (afterRecord n v vs s3)

/-! ### Handing on (R54, R189, R313) -/

/-- Whether every part of an ended epoch is in, so that its closure may leave or its record be written. -/
def Epoch.ready (c : Ctx) (e : Epoch) : Bool :=
  e.endCut.isSome && e.own != .waiting && e.cad != .pending && e.build != .pending &&
    (c.level == 0 || (e.gate && e.fin && e.trn != .pending && (!c.pub || e.trnCheck != .pending) && !e.sentPending))

/-- Send or publish the oldest epochs that are ready, in ascending order (R54); a leaf sends ASLEEP for one it slept in (R55). A
level-1 node that does not publish sends by TRAY_CLOSURE_SEND alone (R313). -/
def advance : Nat → Nat → State → State
  | 0, _, s => s
  | f + 1, n, s =>
    match s.ctx? n with
    | none => s
    | some c =>
      match c.oldestOpen with
      | none => s
      | some e =>
        if e.ready c = false then s
        else if c.pub then advance f n (publish n c e s)
        else if c.level = 1 then s
        else if c.level = 0 ∧ e.own = .asleep then advance f n (sendAsleep n c e s)
        else advance f n (sendClosure n c e false s)

/-- Advance a context as far as it goes. -/
def advanceAll (n : Nat) (s : State) : State := advance (((s.ctx? n).map (fun c => c.epochs.length)).getD 0 + 1) n s

/-! ### Rows and passes (R268, R278, R309, R310, R320, R447) -/

/-- Stations that give Cadastre a row for an epoch, ascending (R268). -/
def State.rowStations (s : State) (c : Ctx) (e : Epoch) : List Nat :=
  if c.level = 0 then [s.station]
  else if c.level = 1 then
    (if e.own = .included then [s.station] else []) ++
      sortAsc ((e.kids.filter (fun x => x.phase == .included)).map (·.station))
  else []

/-- A row that has no score. -/
def unscoredRow (st : Nat) : ScoreRow :=
  { station := st, voted := false, nan := false, ovf := false, unscored := true, scores := [] }

/-- Keep the scores of an epoch, the last two of each context (R283). -/
def keepScores (n k : Nat) (x : ScoreSet) (s : State) : State :=
  modKeep n (fun y => { y with scores := newest 2 (Tbl.set y.scores k x) }) s

/-- The slot's state: 0 EMPTY, 1 LOADING, 2 READY (R296). -/
def State.platState (s : State) (i : Nat) : Nat := s.getF (CAD_PLAT_ID i) 30 2

/-- The slot that a version occupies. -/
def State.platSlot (s : State) (v : Nat) : Option Nat :=
  (List.range s.platSlots).find? (fun i => s.platState i != 0 && s.getF (CAD_PLAT_ID i) 0 16 == v)

/-- The outputs of a loaded version (R284). -/
def State.platOuts (s : State) (v : Nat) : Nat := ((s.platSlot v).bind (Tbl.get? s.cad.outs)).getD 0

/-- An epoch's rows are given up: each is UNSCORED, and PLAT_VER is zero (R277, R278, R447). -/
def cadAbandon (n k : Nat) (s : State) : State :=
  match s.ctx? n, s.epoch? n k with
  | some c, some e =>
    let rows := s.rowStations c e
    let out := e.cadOut ++ (rows.drop e.cadOut.length).map unscoredRow
    let s1 := s.modEpoch n k (fun x => { x with cad := .done, platVer := 0, cadOut := out })
    buildPut n k
      ((keepScores n k { platVer := 0, nOut := s.platOuts e.plat, rows := out } s1).inc CAD_UNSCORED (rows.length - e.cadOut.length))
  | _, _ => s

/-- The rows of an epoch with a plat bound become ready (R268); a fenced Cadastre leaves them UNSCORED (R447). An epoch
without a row has none unscored, and is scored at once (R278). -/
def cadBegin (n k : Nat) (s : State) : State :=
  match s.ctx? n, s.epoch? n k with
  | some c, some e =>
    if e.plat = 0 then s
    else if (s.rowStations c e).isEmpty then
      keepScores n k { platVer := e.plat, nOut := s.platOuts e.plat, rows := [] }
        (s.modEpoch n k (fun x => { x with cad := .done, platVer := e.plat }))
    else
      let s1 := s.modEpoch n k (fun x => { x with cad := .pending })
      if s.fenced .cadastre then cadAbandon n k s1 else s1
  | _, _ => s

/-- A pass of Transit is given up: the epoch has no Transit contribution (R310, R320). -/
def trnAbandon (n k : Nat) (s : State) : State :=
  ((s.modEpoch n k (fun x => { x with trn := .done, trnCheck := .none, trnBytes := [] })).inc TRN_UNRUN 1).evt TRN_EVT 5

/-- A level-1 gate has closed: its pass is ready (R309), or given up at once (R320, R447). -/
def trnBegin (n k : Nat) (s : State) : State :=
  match s.epoch? n k with
  | none => s
  | some e =>
    if e.sub = 0 then s
    else if s.fenced .transit ∨ s.getF TRN_FENCE_ARR 0 4 = 15 then trnAbandon n k s
    else s.modEpoch n k (fun x => { x with trn := .pending, trnCheck := .pending })

/-! ### The finish (R232) -/

/-- Tally finishes an epoch whose gate has closed once none of its work is queued (R232). A level-1 node's rows are then
ready; a parent role has merged its Transit sections (R322). -/
def tryFinish (n k : Nat) (s : State) : State :=
  match s.ctx? n, s.epoch? n k with
  | some c, some e =>
    if c.level = 0 ∨ e.gate = false ∨ e.fin = true ∨ e.own = .waiting ∨ s.hasWork n k = true ∨ s.tallyUp = false then s
    else
      let s1 := s.modEpoch n k (fun x => { x with fin := true })
      if c.level = 1 then advanceAll n (cadBegin n k s1)
      else
        let (bs, bad) := epochSections e
        advanceAll n ((s1.modEpoch n k (fun x => { x with trnBytes := bs })).inc TRN_SEC_MISMATCH bad)
  | _, _ => s

/-- TALLY_ITEM_COMPLETE: the item in progress completes (R232). -/
def itemComplete (s : State) : State :=
  match s.par.queue with
  | [] => s
  | i :: rest =>
    if s.tallyUp = false ∨ s.wit.selfRun.isSome = true then s
    else
      let s1 := tallyWork i (memReadBack 1 i.ctx (memWritten 1 i.ctx (startWork (setQueue rest s))))
      match s1.ctx? i.ctx with
      | none => s1
      | some c => if c.level = 0 then advanceAll i.ctx s1 else tryFinish i.ctx i.k s1

/-! ### Deadlines (R181, R182, R198) -/

/-- 100 ns, in clock units. -/
def hundredU : Nat := nsU 100

/-- The rank-⌈N / 100⌉ sample counted from the largest, in units of 100 ns rounded up (R182). -/
def q99Of (xs : List Nat) : Nat :=
  let n := xs.length
  ceilDiv ((sortAsc xs).getD (n - ceilDiv n 100) 0) hundredU

/-- The end of a window of 128 epochs (R182). -/
def windowEnd (n : Nat) (s : State) : State :=
  match s.ctx? n with
  | none => s
  | some c =>
    if c.window < 128 then s
    else
      let margin := s.rd (EPO_DL_MARGIN c.level)
      let ceil := s.rd (EPO_DL_CEIL c.level)
      let q := q99Of c.samples
      let d := if c.samples.isEmpty then c.dl else min (max (q + margin) (s.rd (EPO_DL_FLOOR c.level))) ceil
      s.modCtx n (fun x => { x with window := 0, samples := [], marginDue := false, q99 := if c.samples.isEmpty then x.q99 else q,
                                    dl := if c.marginDue then min (d + margin) ceil else d })

/-- The window after a gate: an epoch with a TIMEOUT adds MARGIN, after the window's value where the window ends on
it (R182). DEDUCED (log 140): the new D_l does not govern an epoch whose end boundary has passed. -/
def windowNote (n : Nat) (timedOut : Bool) (s : State) : State :=
  match s.ctx? n with
  | none => s
  | some c =>
    let last := decide (127 ≤ c.window)
    let d := if timedOut && !last then min (c.dl + s.rd (EPO_DL_MARGIN c.level)) (s.rd (EPO_DL_CEIL c.level)) else c.dl
    s.modCtx n (fun x => { x with window := x.window + 1, dl := d, marginDue := x.marginDue || (timedOut && last) })

/-- Outside STRICT an outstanding child becomes ABSENT with TIMEOUT, and an unresolved section is excluded (R183, R188). -/
def expire (n k : Nat) (s : State) : State :=
  match s.epoch? n k with
  | none => s
  | some e =>
    let outs := (e.kids.filter (fun x => x.phase == .outstanding)).length
    let unres := (e.kids.filter (·.pending)).length
    let kids := e.kids.map (fun x =>
      if x.phase = .outstanding then { x with phase := .absentTimeout }
      else if x.pending then { x with pending := false, voided := true } else x)
    let s1 := s.modEpoch n k (fun x => { x with kids := kids, timeouts := x.timeouts + outs, isVoid := x.isVoid || decide (0 < unres) })
    let s2 := s1.modCtx n (fun c => { c with samples := c.samples ++ List.replicate outs (e.dl * hundredU) })
    let s3 := if outs = 0 then s2 else (s2.inc EPO_TIMEOUT outs).evt EPO_EVT 2
    if unres = 0 then s3 else (s3.inc EPO_VOIDS unres).evt EPO_EVT 4

/-- Under STRICT the node pulls an epoch from a child of another instance (R198); without a node key it stalls. -/
def pullFrom (n : Nat) (c : Ctx) (k st : Nat) (s : State) : State :=
  if s.getB PIL_CTL 7 = false then s.modCtx n (fun x => { x with stalled := true })
  else
    (issueCommand 0x1C c.parcel st [w32 k, w32 (k / 2 ^ 32), w32 (1 + c.levelOf st * 2 ^ 8)] (.pull c.parcel st k)
      (s.inc EPO_PULLS 1)).2

/-- Whether epoch `k` of a context is still to be sent: it has not begun, is in progress, or is open (R205). -/
def Ctx.unsent (c : Ctx) (k : Nat) : Bool := decide (c.next ≤ k) || c.epochs.any (fun e => e.k == k && !e.sentPending)

/-- A kept message resent on a pull: RETX is set in a closure's flags (R175, R198). -/
def retxBytes (bs : List Byte) : List Byte :=
  let body := bs.take (bs.length - 4)
  if body.length < 64 then body
  else body.take 7 ++ [BitVec.ofNat 8 (leAt body 7 1 ||| 2)] ++ body.drop 8

/-- A kept closure or ASLEEP message goes to the parent again with RETX set, and its RESOLVE after it (R198, R205). -/
def resendNow (n : Nat) (c : Ctx) (k : Nat) (s : State) : State :=
  match (s.keep? n).bind (fun x => (Tbl.get? x.items k).map (fun bs => (bs, Tbl.get? x.resolves k))) with
  | none => s
  | some (bs, res) =>
    let s1 := sendParent (if bs.length = 12 then 2 else 1) c k false (retxBytes bs) s
    match res with
    | none => s1
    | some r => sendParent 1 c k false (retxBytes r) s1

/-- An item of an epoch is sent again where it is kept, a long one once the leave for its read has come (R432); answers how many are. -/
def resendOne (n : Nat) (c : Ctx) (k : Nat) (s : State) : Nat × State :=
  match (s.keep? n).bind (fun x => Tbl.get? x.items k) with
  | none => (0, s)
  | some bs => (1, if s.holdLong bs.length then ownAsk (.resend n k) bs.length s else resendNow n c k s)

/-- A pull from the instance's own lower role, a child like the others (R32, R197, R198), answered here: what it keeps is resent, and
an epoch that it no longer keeps stalls the wait. -/
def pullOwn (n : Nat) (c : Ctx) (k : Nat) (s : State) : State :=
  if s.getB PIL_CTL 7 = false then s.modCtx n (fun x => { x with stalled := true })
  else
    let s1 := s.inc EPO_PULLS 1
    match s1.ctxAt c.parcel (c.levelOf s.station) with
    | none => s1.modCtx n (fun x => { x with stalled := true })
    | some (m, low) =>
      match resendOne m low k s1 with
      | (0, s2) => if low.unsent k then s2 else s2.modCtx n (fun x => { x with stalled := true })
      | (_, s2) => s2

/-- CLOSE_DEADLINE_EXPIRY (R183, R188, R197, R198). -/
def deadlineExpiry (parcel level : Nat) (s : State) : State :=
  match s.ctxAt parcel level with
  | none => s
  | some (n, c) =>
    match c.openGate with
    | none => s
    | some e =>
      if s.tallyUp = false ∨ level = 0 then s
      else if s.getB EPO_CTL 0 then
        s.each (e.kids.filter (fun x => x.phase == .outstanding || x.pending))
          (fun x t => if x.station = s.station then pullOwn n c e.k t else pullFrom n c e.k x.station t)
      else expire n e.k s

/-- STRICT_STALL: the oldest open epoch is more than 2 × P past its end (R198). -/
def strictStall (parcel level : Nat) (s : State) : State :=
  match s.ctxAt parcel level with
  | none => s
  | some (_, c) => if s.getB EPO_CTL 0 ∧ c.openGate.isSome = true then s.evt EPO_EVT 5 else s

/-! ### The gate (R189) -/

/-- Close the gate of an epoch. -/
def gateClose (n k : Nat) (s : State) : State :=
  match s.ctx? n, s.epoch? n k with
  | some c, some e =>
    let s0 := windowEnd n s
    let s1 := windowNote n (decide (0 < e.timeouts)) (s0.modEpoch n k (fun x => { x with gate := true, tClose := s.now }))
    let s2 := s1.modCtx n (fun x => { x with stalled := false })
    let s3 := if c.level = 1 then trnBegin n k s2 else s2
    tryFinish n k (satCheck s3)
  | _, _ => s

/-- GATE_CLOSE: the oldest open gate closes where every child and every pending contribution is settled (R189). -/
def gateCloseDue (parcel level : Nat) (s : State) : State :=
  match s.ctxAt parcel level with
  | none => s
  | some (n, c) =>
    match c.openGate with
    | none => s
    | some e =>
      if level = 0 ∨ s.tallyUp = false ∨ e.outstanding ≠ 0 ∨ e.awaitsResolve = true then s else gateClose n e.k s

/-- Outside STRICT the gates of epochs two or more before `k` close at once (R185); under STRICT none does. Answers
whether the message may be accepted. -/
def overrun (n k : Nat) (s : State) : Bool × State :=
  match s.ctx? n with
  | none => (false, s)
  | some c =>
    let old := c.epochs.filter (fun e => e.endCut.isSome && !e.gate && decide (e.k + 2 ≤ k))
    if old.isEmpty then (true, s)
    else if s.getB EPO_CTL 0 then (false, s)
    else (true, s.each old (fun e t => gateClose n e.k (((expire n e.k t).inc EPO_OVERRUN 1).evt EPO_EVT 3)))

/-! ### Messages in (R171, R179, R183, R184, R188) -/

/-- A malformed message, or one for an epoch that has not begun here, is discarded and counted (R171). -/
def epochErr (s : State) : State := (s.inc EPO_EPOCH_ERR 1).evt EPO_EVT 8

/-- A LATE message is discarded and counted (R184). -/
def lateMsg (s : State) : State := (s.inc EPO_LATE 1).evt EPO_EVT 1

/-- The context that takes a message of a child at a level. -/
def State.takerOf (s : State) (src parcel childLevel : Nat) : Option (Nat × Ctx) :=
  match s.ctxAt parcel (childLevel + 1) with
  | none => none
  | some (n, c) => if c.kids.any (fun x => x.station == src) then some (n, c) else none

/-- Change a child's place in an epoch. -/
def modKid (n k st : Nat) (f : KidEpoch → KidEpoch) (s : State) : State :=
  s.modEpoch n k (fun e => { e with kids := e.kids.map (fun x => if x.station = st then f x else x) })

/-- Take in a FULL closure that has arrived in time (R180, R182, R183, R188); its sections wait in Berths while the epoch's buffer is not
free (R231). DEDUCED (log 140): its sample counts in the window in force at its arrival, whichever epoch it is for. -/
def includeClosure (n : Nat) (c : Ctx) (k src : Nat) (bs : List Byte) (s : State) : State :=
  let h := closureHeadOf bs
  let f := h.flags
  let sk := slice bs (64 + 8 * h.nAbs) h.sketchLen
  let trn := slice bs (64 + 8 * h.nAbs + h.sketchLen) h.trnLen
  let absents := (List.range h.nAbs).map (fun i => leAt bs (64 + 8 * i) 8)
  let s1 := modKid n k src (fun x =>
    { x with phase := .included, pending := bit f 4, nInc := h.counts.inc, nAsleep := h.counts.asleep, nAbsent := h.counts.absent,
             nStale := h.counts.stale, nDegraded := h.counts.degraded, nVoid := h.counts.voids, nRoster := h.counts.roster,
             nDeclared := h.counts.declared, absents := absents, trn := trn }) s
  let s2 := s1.modEpoch n k (fun e =>
    { e with degraded := e.degraded || bit f 0, coarseIn := e.coarseIn || bit f 1, approx := e.approx || bit f 2,
             stale := e.stale || bit f 3, isVoid := e.isVoid || bit f 5, truncated := e.truncated || bit f 6,
             stopped := e.stopped || bit f 7, mixed := e.mixed || bit f 8 != s.getB EPO_CTL 0 })
  let late := (timeDiff s.now (c.boundary (k + 1) % clockMod)).toNat
  let s3 := s2.modCtx n (fun x => { x with samples := x.samples ++ [late] })
  if sk.isEmpty then satCheck s3
  else if ((s3.ctx? n).map (fun x => x.bufferBusy k)).getD false then
    satCheck (s3.modEpoch n k (fun e => { e with held := e.held ++ [(s3.dat.edges, sk)] }))
  else queueMerge n k s3.dat.edges sk s3

/-- A child's message for an epoch, once its sender's context is known: LATE, a duplicate, an overrun, or taken in by
`f`. -/
def takeMsg (n k src : Nat) (f : State → State) (s : State) : State :=
  match s.ctx? n with
  | none => s
  | some c =>
    match c.epoch? k with
    | none => if k < c.next then lateMsg s else epochErr s
    | some e =>
      if e.gate then lateMsg s
      else
        match e.kids.find? (fun x => x.station == src) with
        | none => s
        | some x =>
          if absentReason x.phase ≠ none then lateMsg s
          else if x.phase ≠ .outstanding then s
          else
            match overrun n k s with
            | (false, s1) => s1
            | (true, s1) => f s1

/-- A child's RESOLVE (R188). DESIGN CHOICE (log 115): one that finds nothing of the child PENDING is discarded without a count. -/
def resolveIn (n k src : Nat) (void : Bool) (s : State) : State :=
  match s.epoch? n k with
  | none => s
  | some e =>
    if e.kids.any (fun x => x.station == src && x.pending) = false then s
    else
      let s1 := modKid n k src (fun x => { x with pending := false, voided := void }) s
      if void then ((s1.modEpoch n k (fun x => { x with isVoid := true })).inc EPO_VOIDS 1).evt EPO_EVT 4 else s1

/-- CLOSURE_RECEIVE and RESOLVE_RECEIVE: a message of TYPE CLOSURE, its payload without its CRC (R171, R183, R188). DESIGN CHOICE
(log 113): while Tally is down, a message is dropped whole and counted nowhere. -/
def closureIn (src parcel ep : Nat) (bs : List Byte) (s : State) : State :=
  if closureBad ep bs then epochErr s
  else
    let h := closureHeadOf bs
    match s.takerOf src parcel h.level with
    | none => s
    | some (n, c) =>
      if s.tallyUp = false then s
      else if h.kind = 1 then resolveIn n h.k src (bit h.flags 5) s
      else takeMsg n h.k src (includeClosure n c h.k src bs) s

/-- ASLEEP_RECEIVE: a leaf's ASLEEP message (R171, R179, R183); DESIGN CHOICE (log 113) as for a closure. -/
def asleepIn (src parcel ep : Nat) (bs : List Byte) (s : State) : State :=
  if bs.length ≠ 8 ∨ leAt bs 0 5 % 2 ^ 24 ≠ ep % 2 ^ 24 then epochErr s
  else
    match s.takerOf src parcel 0 with
    | none => s
    | some (n, _) =>
      if s.tallyUp = false then s
      else
        let k := leAt bs 0 5
        takeMsg n k src (fun t =>
          satCheck ((modKid n k src (fun x => { x with phase := .asleep }) t).modEpoch n k (fun e =>
            { e with degraded := e.degraded || bit (leAt bs 5 1) 0 }))) s

/-- A message between two roles of the instance (R174). -/
def ownRoleIn (type parcel ep : Nat) (bs : List Byte) (s : State) : State :=
  if type = 1 then closureIn s.station parcel ep bs s else s

/-! ### The tray build's own closure and RESOLVE (R187, R313, R317) -/

/-- TRAY_CLOSURE_SEND: the oldest epoch of a level-1 context that does not publish leaves once Tally, Cadastre and Transit
allow: with PENDING where Transit's checks still run, but not before them where its pass raised a vote (R313). -/
def traySend (parcel : Nat) (s : State) : State :=
  match s.ctxAt parcel 1 with
  | none => s
  | some (n, c) =>
    match c.epochs.find? (fun e => e.endCut.isSome && !e.sentPending) with
    | none => s
    | some e =>
      if c.pub ∨ e.ready c = false ∨ (e.trnCheck = .pending ∧ e.trnVotes ≠ []) ∨
          c.epochs.any (fun x => x.sentPending && decide (x.k < e.k)) = true then s
      else sendClosure n c e (e.trnCheck == .pending) s

/-- The RESOLVE of an epoch whose closure left with PENDING, within 1 µs of the last check (R187). -/
def sendResolve (n : Nat) (c : Ctx) (e : Epoch) (s : State) : State :=
  let bs := s.resolveBytes c e
  let s1 := modKeep n (fun x => { x with resolves := Tbl.set x.resolves e.k (withCrc bs) }) (epochDone n e.k s)
  drainFree n (sendParent 1 c e.k e.degraded bs s1)

/-! ### Declarations, pulls, HEADLESS (R183, R186, R198) -/

/-- ABSENT_DECLARE over a run of epochs: how many were declared (R183, R205). Later epochs keep the declaration. -/
def declareAbsent (n st first count : Nat) (s : State) : Nat × State :=
  match s.ctx? n with
  | none => (0, s)
  | some c =>
    let inRun (k : Nat) : Bool := decide (first ≤ k) && decide (k < first + count)
    let hit (e : Epoch) : Bool :=
      inRun e.k && !e.gate && e.kids.any (fun x => x.station == st && x.phase != .included && x.phase != .asleep)
    let hits := (c.epochs.filter hit).length
    let later := first + count - max first c.next
    let c1 : Ctx := { c with
      declared := if c.next < first + count then c.declared ++ [(first, count, st)] else c.declared,
      epochs := c.epochs.map (fun e => if hit e then { e with kids := e.kids.map (fun x =>
        if x.station = st then { x with phase := .absentDeclared } else x) } else e) }
    (hits + later, s.setCtx n c1)

/-- A kept closure of a leaf with DEGRADED set, and N_DEGRADED the members it includes (R28, R117, R175). -/
def flaggedBytes (bs : List Byte) : List Byte :=
  bs.take 6 ++ leBytes 2 (leAt bs 6 2 ||| 1) ++ slice bs 8 15 ++ slice bs 11 3 ++ bs.drop 26

/-- What a leaf sends first of what it kept while HEADLESS: a closure is DEGRADED where the chain is degraded as it is sent
(R28, R117; log 112). -/
def headlessBytes (s : State) (bs : List Byte) : List Byte :=
  let body := bs.take (bs.length - 4)
  if s.chainDegraded = true ∧ 64 ≤ body.length then flaggedBytes body else body

/-- A leaf that leaves HEADLESS sends what it kept of the most recent epoch whose end boundary has passed (R186): of the boundaries
raised, `next - 1` is the last, and it ended epoch `next - 2`. -/
def headlessExit (s : State) : State :=
  s.each (s.par.ctxs.filter (fun e => e.2.level == 0 && !e.2.pub)) (fun e t =>
    let t1 := t.modCtx e.1 (fun c => { c with withheld := none })
    match e.2.withheld with
    | none => t
    | some k => match (t.keep? e.1).bind (fun x => Tbl.get? x.items k) with
      | none => t1
      | some bs =>
        if k + 2 = e.2.next then sendParent (if bs.length = 12 then 2 else 1) e.2 k (t1.chainDegraded && bs.length != 12) (headlessBytes t1 bs) t1
        else t1)

/-- The child's answer to a pull was ABSENT (R198). -/
def pullAbsent (parcel st : Nat) (s : State) : State :=
  s.each (s.ctxsOf parcel) (fun e t =>
    if e.2.kids.any (fun x => x.station == st) then t.modCtx e.1 (fun c => { c with stalled := true }) else t)

end Sys2Proof.Machine
end

