-- ==== Sys2Proof/Machine/Reserve.lean ====
section
/-! DEFINITION. Reservation (R242 to R246, R558): staged definitions, a node's part, claim exchanges, answers. -/

namespace Sys2Proof.Machine

/-! ### Entries (R242) -/

/-- A probe entry of a definition. -/
def probeEntOf (e : Nat × Nat) : ProbeEnt :=
  { probe := fld e.1 0 10, sketch := fld e.1 12 4, xform := fld e.1 16 3, shift := fld e.1 24 6, unit := fld e.2 0 12 }

/-- The tray of a member entry. -/
def memTray (e : Nat × Nat) : Nat := fld e.1 0 14

/-- Whether the tray build's own station is a member. -/
def memSelf (e : Nat × Nat) : Bool := bit e.1 31

/-- Members of an entry. -/
def memCount (e : Nat × Nat) : Nat := popCount 32 e.2 + b2n (memSelf e)

/-- The leaves of an entry, as station numbers in ascending order. -/
def memLeaves (e : Nat × Nat) : List Nat :=
  (List.range 32).filterMap (fun i => if bit e.2 i then some (memTray e * 64 + i / 16 * 32 + i % 16 + 1) else none)

/-- A member entry without the reserved bits of its words (R8, R242). -/
def memClean (e : Nat × Nat) : Nat × Nat := (memTray e + b2n (memSelf e) * 2 ^ 31, e.2 % 2 ^ 32)

/-- The entry that holds one leaf alone. -/
def leafEntry (st : Nat) : Nat × Nat := (stTray st, 2 ^ (stChain st * 16 + stPos st - 1))

/-- Members of all entries. -/
def memTotal (ms : List (Nat × Nat)) : Nat := ms.foldl (fun n e => n + memCount e) 0

/-! ### Staging (R242, R261) -/

/-- The staged definition of a parcel. -/
def State.staged? (s : State) (parcel : Nat) : Option Staged := s.par.staged.find? (fun d => d.parcel == parcel)

/-- Drop the staged definition of a parcel. -/
def unstage (parcel : Nat) (s : State) : State :=
  { s with par := { s.par with staged := s.par.staged.filter (fun d => d.parcel != parcel) } }

/-- The entries of a PARCEL_DEFINE command. -/
def defineEntries (c : Cmd) : List (Nat × Nat) := (List.range (c.f 3 0 10)).map (fun i => (c.w (4 + 2 * i), c.w (5 + 2 * i)))

/-- PARCEL_DEFINE (R242, R261). -/
def parcelDefine (c : Cmd) (s : State) : Ans × State :=
  let sec := c.f 2 0 2
  let idx := c.f 2 16 16
  let n := c.f 3 0 10
  if sec = 3 ∨ 510 < n ∨ (sec = 0 ∧ n ≠ 0) then ans stBadParam s
  else if sec = 0 then ans stOk (unstage c.parcel s)
  else if n = 0 then ans stOk s
  else
    let old := (s.staged? c.parcel).getD { parcel := c.parcel, probes := [], members := [] }
    let held := if sec = 1 then old.probes else old.members
    let new := held.take idx ++ defineEntries c
    let limit := if sec = 1 then 256 else if s.isTray then 16384 else 1
    let keys := new.map (fun e => if sec = 1 then fld e.1 0 10 else memTray e)
    if held.length < idx ∨ limit < new.length ∨ ascending keys = false then ans stBadParam s
    else if (s.staged? c.parcel).isNone ∧ (if s.isTray then 4 else 1) ≤ s.par.staged.length then ans stNoSpace s
    else
      let d : Staged := if sec = 1 then { old with probes := new } else { old with members := new }
      let s1 := unstage c.parcel s
      ans stOk { s1 with par := { s1.par with staged := s1.par.staged ++ [d] } }

/-! ### A node's part (R229, R244) -/

/-- What a node holds of a parcel: whether its own station is a member, its children, the members below. -/
structure NodeShape where
  self : Bool
  kids : List Kid
  members : Nat
  deriving DecidableEq, Repr

/-- Trays below a role 2, as tray numbers, from its tree entry (R558). -/
def State.traysBelow (s : State) : List Nat := (s.roleChildren 2).map (fun c => stTray c.1)

/-- The shape of a part at a level, or none where the node has no such place on the parcel's paths (R244). `claimed` is
what children have claimed, at level 3 or 4. -/
def State.shapeOf (s : State) (level : Nat) (ms : List (Nat × Nat)) (claimed : Tbl (List Nat)) : Option NodeShape :=
  if level = 0 then
    if s.isTray then none
    else if ms.isEmpty then some { self := false, kids := [], members := 0 }
    else if ms.map memClean = [leafEntry s.station] then some { self := true, kids := [], members := 1 }
    else none
  else if s.isTray = false then none
  else if level = 1 then
    match ms with
    | [] => some { self := false, kids := [], members := 0 }
    | [e] =>
      if memTray e ≠ stTray s.station then none
      else some { self := memSelf e, kids := (memLeaves e).map (fun st => { station := st, level := 0, members := 1 }),
                  members := memCount e }
    | _ => none
  else if s.roleHeld level = false then none
  else if level = 2 then
    if ms.all (fun e => s.traysBelow.contains (memTray e)) then
      some { self := false, kids := ms.map (fun e => { station := memTray e * 64, level := 1, members := memCount e }),
             members := memTotal ms }
    else none
  else if ms.all (fun e => claimed.any (fun x => x.2.contains (memTray e))) then
    some { self := false, members := memTotal ms,
           kids := (claimed.filter (fun x => !x.2.isEmpty)).map (fun x =>
             { station := x.1, level := level - 1, members := memTotal (ms.filter (fun e => x.2.contains (memTray e))) }) }
  else none

/-- Whether a probe entry agrees with the station's descriptor (R244). -/
def State.probeAgrees (s : State) (p : ProbeEnt) : Bool :=
  s.getB (PRB_DESC p.probe 0) 31 && s.getF (PRB_DESC p.probe 1) 12 4 == p.sketch && s.getF (PRB_DESC p.probe 0) 25 3 == p.xform &&
    s.getF (PRB_DESC p.probe 0) 19 6 == p.shift && s.getF (PRB_DESC p.probe 3) 0 12 == p.unit

/-- The first check of R244 that fails at this node, and the count that it raises (R251). -/
def State.resvBad (s : State) (level parcel period : Nat) (probes : List ProbeEnt) (sh : Option NodeShape) :
    Option (Nat × Option Loc) :=
  match sh with
  | none => some (stBadParam, none)
  | some sh =>
    let pages := ctxPages s.isTray probes
    if period < 10 ∨ 6000000 < period then some (stBadParam, none)
    else if sh.self = true ∧ probes.all s.probeAgrees = false then some (stBadParam, none)
    else if level = 1 ∧ sh.kids.all (fun k => bit (s.rd (CHN_ROSTER (stChain k.station))) (stPos k.station)) = false then
      some (stAbsent, none)
    else if (s.ctxAt parcel level).isSome then some (stBusyContext, some PAR_FAIL_CTX)
    else if sh.self = true ∧ 8 ≤ s.membership then some (stBusyContext, some PAR_FAIL_MEMB)
    else if s.ctxFree = 0 then some (stBusyContext, some PAR_FAIL_CTX)
    else if s.pagesFree < pages ∨ s.ctxPageMax < pages then some (stBusyContext, some PAR_FAIL_PAGES)
    else none

/-- A reservation is refused at this node (R251, R263). -/
def resvRefused (why : Option Loc) (s : State) : State :=
  let s1 := s.evt PAR_EVT 1
  match why with
  | some l => s1.inc l 1
  | none => s1

/-- A context as it is reserved (R182, R240, R341). -/
def ctxBlank (s : State) (level : Nat) (pub : Bool) (asker : Asker) (parent : Nat) (p : ResvPart) (sh : NodeShape)
    (claimed : Tbl (List Nat)) : Ctx :=
  { parcel := p.parcel, level := level, pub := pub, phase := .reserved, committed := false, counted := sh.self,
    period := p.period, prio := p.prio, t0 := 0, endE := none, parent := parent, self := sh.self, members := sh.members,
    kids := sh.kids, probes := p.probes.map probeEntOf, pages := s.lowestPages (ctxPages s.isTray (p.probes.map probeEntOf)), seq := 0, next := 0,
    last := none, dl := if level = 0 then 0 else s.rd (EPO_DL_CEIL level), q99 := 0, samples := [], window := 0,
    marginDue := false, stalled := false, declared := [], epochs := [], bars := [], extBars := [], extPend := [], absRuns := [],
    prevVerds := [], plat := 0, sub := 0, asker := asker, parts := [], resvOk := false, entries := p.members, claimed := claimed,
    withheld := none }

/-- The lowest-numbered free context is allocated, and what it kept is given up (R195, R230); a publishing node's verdict
configuration is loaded (R353). -/
def allocCtx (n : Nat) (c : Ctx) (s : State) : State :=
  let k : Keep := { parcel := c.parcel, level := c.level, pub := c.pub, last := none, items := [], resolves := [], trn := [],
                    scores := [] }
  let s0 := (berthFree (fun b => b.ctx == n) s).setCtx n c
  let s1 := ({ s0 with par := { s0.par with keeps := Tbl.set s0.par.keeps n k } } : State).evt PAR_EVT 0
  if c.pub then ((s1.wr (EPO_VRD_CFG0 n) 0x18020040).wr (EPO_VRD_CFG1 n) 0x03010101).wr (EPO_VRD_CFG2 n) 0x00100003 else s1

/-- The part of a definition below a child (R244). -/
def partFor (level : Nat) (st : Nat) (ms : List (Nat × Nat)) (claimed : Tbl (List Nat)) : List (Nat × Nat) :=
  if level = 1 then [leafEntry st]
  else if level = 2 then ms.filter (fun e => memTray e == stTray st)
  else ms.filter (fun e => ((Tbl.get? claimed st).getD []).contains (memTray e))

/-- The words of a part as its tag covers them. DESIGN CHOICE (log 134): the spec gives the contents and no layout. -/
def partWords (p : ResvPart) : List Word :=
  [w32 (0x11 + (7 + 2 * p.probes.length + 2 * p.members.length) * 2 ^ 16), w32 (p.tag + p.parcel % 2 ^ 12 * 2 ^ 16), w32 p.level,
   w32 p.period, w32 p.prio, w32 p.probes.length, w32 p.members.length] ++
    (p.probes ++ p.members).flatMap (fun e => [w32 e.1, w32 e.2])

/-- The words of a question of a claim exchange as its tag covers them. DESIGN CHOICE (log 134). -/
def askWords (tag parcel level : Nat) (trays : List Nat) : List Word :=
  [w32 (0x11 + (4 + trays.length) * 2 ^ 16), w32 (tag + parcel % 2 ^ 12 * 2 ^ 16), w32 level, w32 trays.length] ++ trays.map w32

/-- The words of an answer to such a question: the trays claimed, or the station that was given up. -/
def claimWords (tag : Nat) (status : Nat) (ns : List Nat) : List Word := replyHead status false 0x11 tag ns.length ++ ns.map w32

/-- No envelope: what passes between the roles of one instance. -/
def ownSeal (station : Nat) : EnvSeal := { keyId := 0, origin := station, time := none, mac := [] }

/-- Send a child of another instance its part, signed with the node key (R244, R423). -/
def sendPart (c : Ctx) (st tag : Nat) (s : State) : State :=
  let p : ResvPart :=
    { env := ownSeal s.station, tag := tag,
      via := if stPos st = 0 then (match s.lndAddr st with
        | some a => .landing a
        | none => .own) else .chain (stChain st),
      parcel := c.parcel, level := c.level - 1, period := c.period, prio := c.prio,
      probes := c.probes.map (fun p => (p.probe + p.sketch * 2 ^ 12 + p.xform * 2 ^ 16 + p.shift * 2 ^ 24, p.unit)),
      members := partFor c.level st c.entries c.claimed }
  let (e, s1) := nodeSeal (fun key origin time => envBody st false key origin time (partWords p)) s
  s1.emit (.part tag st { p with env := e })

/-- Give an issued command a tag (R421). -/
def issueTag (opcode st : Nat) (p : IssueFor) (s : State) : Nat × State :=
  let tag := s.pil.nextTag
  (tag, { s with pil := { s.pil with issued := s.pil.issued ++ [{ tag := tag, opcode := opcode, station := st, purpose := p }],
                                     nextTag := (tag + 1) % 2 ^ 16 } })

/-- Hand every child its part (R244): the next lower role of the instance inside the block, the others as remote commands;
without a node key these have TIMEOUT at once (R423), and the last check of R244 fails. -/
def sendParts (n : Nat) (c : Ctx) (s : State) : State :=
  s.each c.kids (fun k t =>
    let own := k.station == t.station
    let add (a : Option (Nat × Nat × Nat)) (u : State) : State :=
      u.modCtx n (fun x => { x with parts := x.parts ++ [{ station := k.station, own := own, resends := 0, answer := a }] })
    if own then
      (add none t).later (.ownPart n
        { env := ownSeal t.station, tag := 0, via := .own, parcel := c.parcel, level := c.level - 1, period := c.period,
          prio := c.prio, probes := c.probes.map (fun p => (p.probe + p.sketch * 2 ^ 12 + p.xform * 2 ^ 16 + p.shift * 2 ^ 24, p.unit)),
          members := partFor c.level k.station c.entries c.claimed })
    else if t.getB PIL_CTL 7 = false then (add (some (k.station, stTimeout, 0)) t).evt PAR_EVT 1
    else
      let (tag, t1) := issueTag 0x11 k.station (.reserve c.parcel k.station) t
      sendPart c k.station tag (add none t1))

/-! ### Answers (R244, R245) -/

/-- Answer whoever asked for a part: failing station, its status, contexts reserved (R244, R261). A remote asker gets a
reply to its command. -/
def remoteAnswer (keyId origin tag : Nat) (via : Via) (a : Nat × Nat × Nat) (s : State) : State :=
  let res := [w32 a.1, w32 a.2.1, w32 a.2.2]
  pilotFree (remoteDone (replyRemote keyId origin via (replyHead a.2.1 false 0x11 tag res.length ++ res) s))

/-- The worse of two answers: a failure of the lower station stands (R245); two successes add their contexts. -/
def joinAnswer (a b : Nat × Nat × Nat) : Nat × Nat × Nat :=
  if a.2.1 = stOk ∧ b.2.1 = stOk then (0, stOk, a.2.2 + b.2.2)
  else if a.2.1 = stOk then b
  else if b.2.1 = stOk then a
  else if b.1 < a.1 then b else a

/-- Once every child has answered or been given up, the node answers in turn (R244); the publishing node undoes a
reservation that failed anywhere (R245). The fuel counts the roles of an instance. -/
def settleResv : Nat → Nat → State → State
  | 0, _, s => s
  | f + 1, n, s =>
    match s.ctx? n with
    | none => s
    | some c =>
      if c.asker = .nobody ∨ c.parts.any (fun p => p.answer.isNone) = true then s
      else
        let a := c.parts.foldl (fun r p => joinAnswer r (p.answer.getD (0, stOk, 0))) (0, stOk, 1)
        let ok := a.2.1 == stOk
        match c.asker with
        | .job id =>
          let s1 := unstage c.parcel (s.modCtx n (fun x => { x with resvOk := ok, asker := .nobody }))
          let s2 := if ok then s1 else freeParcel n false s1
          finishJob id a.2.1 [w32 a.1, w32 a.2.1, w32 (if ok then a.2.2 else 0)] s2
        | .remote k o t v =>
          remoteAnswer k o t v a (s.modCtx n (fun x => { x with resvOk := ok, asker := .nobody }))
        | .role m =>
          let s1 := (s.modCtx n (fun x => { x with resvOk := ok, asker := .nobody })).modCtx m (fun x =>
            { x with parts := x.parts.map (fun p => if p.own ∧ p.answer = none then { p with answer := some a } else p) })
          settleResv f m s1
        | .nobody => s

/-- An asker gets a failure at once, with the station that failed (R245). -/
def failAsker (asker : Asker) (parcel st status : Nat) (s : State) : State :=
  let a : Nat × Nat × Nat := (st, status, 0)
  match asker with
  | .job id => finishJob id status [w32 a.1, w32 a.2.1, 0#32] (unstage parcel s)
  | .remote k o t v => remoteAnswer k o t v a s
  | .role m =>
    settleResv 4 m (s.modCtx m (fun x =>
      { x with parts := x.parts.map (fun p => if p.own ∧ p.answer = none then { p with answer := some a } else p) }))
  | .nobody => s

/-- An asker gets this node's refusal at once. -/
def refuseAsker (asker : Asker) (parcel status : Nat) (s : State) : State := failAsker asker parcel s.station status s

/-- A claim exchange shows that the reservation has no place here: a PARCEL_RESERVE command is refused, with nothing but its
status (R243, R558); a node's part fails (R244). -/
def claimRefused (asker : Asker) (parcel : Nat) (s : State) : State :=
  match asker with
  | .job id => finishJob id stBadParam [] s
  | _ => refuseAsker asker parcel stBadParam s

/-- A node's part, its children's trays being known (R244). -/
def reserveNode (level : Nat) (pub : Bool) (asker : Asker) (parent : Nat) (p : ResvPart) (claimed : Tbl (List Nat))
    (s : State) : State :=
  let sh := s.shapeOf level p.members claimed
  match s.resvBad level p.parcel p.period (p.probes.map probeEntOf) sh with
  | some (st, why) => refuseAsker asker p.parcel st (resvRefused why s)
  | none =>
    match sh, Tbl.lowestFree s.par.ctxs s.ctxMax with
    | some sh, some n =>
      let c := ctxBlank s level pub asker parent p sh claimed
      settleResv 4 n (sendParts n c (allocCtx n c s))
    | _, _ => s

/-! ### Claim exchanges (R558) -/

/-- The claim exchange of a parcel at a level. -/
def State.claim? (s : State) (parcel level : Nat) : Option ClaimSt :=
  s.par.claims.find? (fun c => c.parcel == parcel && c.level == level)

/-- Put or drop a claim exchange. -/
def putClaim (c : ClaimSt) (s : State) : State :=
  { s with par := { s.par with claims := s.par.claims.filter (fun x => !(x.parcel == c.parcel && x.level == c.level)) ++ [c] } }

/-- Drop a claim exchange. -/
def dropClaim (parcel level : Nat) (s : State) : State :=
  { s with par := { s.par with claims := s.par.claims.filter (fun x => !(x.parcel == parcel && x.level == level)) } }

/-- Ask a child of another instance, whose role has a level, which trays lie below it (R423, R558). -/
def sendAsk (parcel level st : Nat) (trays : List Nat) (s : State) : State :=
  let (tag, s1) := issueTag 0x11 st (.claim parcel st) s
  let (e, s2) := nodeSeal (fun key origin time => envBody st false key origin time (askWords tag parcel level trays)) s1
  s2.emit (.claimAsk e tag st parcel level trays)

/-- The member trays of a definition. -/
def claimTrays (ms : List (Nat × Nat)) : List Nat := ms.map memTray

/-- A claim exchange begins: every child of the role is asked (R558). The next lower role of the instance answers inside
the block. -/
def claimBegin (c : ClaimSt) (s : State) : State :=
  let trays := claimTrays c.members
  let kids := (s.roleChildren c.level).map (·.1)
  let ext := kids.filter (· != s.station)
  let mine := kids.contains s.station
  let asked := if s.getB PIL_CTL 7 then ext else []
  let own : Tbl (List Nat) := if mine && c.level == 3 then [(s.station, trays.filter (s.traysBelow.contains ·))] else []
  let waits := (asked ++ (if mine && c.level != 3 then [s.station] else [])).map (fun st => (st, 0))
  let s1 := putClaim { c with waits := waits, answers := own } s
  let s2 := if mine && c.level != 3 then s1.later (.ownClaim c.parcel (c.level - 1) trays) else s1
  s2.each asked (fun st t => sendAsk c.parcel (c.level - 1) st trays t)

/-- A claim exchange as it starts. -/
def claimOf (level : Nat) (asker : Asker) (only : Bool) (p : ResvPart) : ClaimSt :=
  { parcel := p.parcel, level := level, asker := asker, period := p.period, prio := p.prio, probes := p.probes,
    members := p.members, waits := [], answers := [], lost := [], only := only }

/-- The part of a definition that a claim exchange carries. -/
def ClaimSt.part (c : ClaimSt) : ResvPart :=
  { env := ownSeal 0, tag := 0, via := .own, parcel := c.parcel, level := c.level, period := c.period, prio := c.prio,
    probes := c.probes, members := c.members }

/-- The parent that an asker stands for. -/
def State.askerParent (s : State) : Asker → Nat
  | .remote _ o _ _ => o
  | .role _ => s.station
  | _ => 0

/-- The answer to a parent's question, under its key (R421, R558). -/
def claimReply (keyId origin tag parcel : Nat) (trays : List Nat) (s : State) : State :=
  let (e, s1) := replySeal keyId origin (claimWords tag stOk trays) s
  pilotFree (remoteDone (s1.emit (.claimAnswer e tag origin parcel trays)))

/-- The answer that a station below was given up (R421, R558). -/
def claimLost (keyId origin tag parcel gone : Nat) (s : State) : State :=
  let (e, s1) := replySeal keyId origin (claimWords tag stTimeout [gone]) s
  pilotFree (remoteDone (s1.emit (.claimFailed e tag origin parcel gone)))

/-- Every child has answered a claim exchange or been given up (R558): a question is answered; a part is reserved; the
publishing node is found, or the next lower role is asked. A child given up, here or below a child asked, reports TIMEOUT (R244, step
4): the failure names the lowest such station (R245). -/
def claimDone : Nat → Nat → Nat → State → State
  | 0, _, _, s => s
  | f + 1, parcel, level, s =>
    match s.claim? parcel level with
    | none => s
    | some c =>
      if c.waits.isEmpty = false then s
      else
        let s1 := dropClaim parcel level s
        let trays := claimTrays c.members
        let gone := c.lost ++ ((s.roleChildren level).map (·.1)).filter (fun st => (Tbl.get? c.answers st).isNone && !(c.lost.contains st))
        let worst := gone.foldl min (gone.headD 0)
        if c.only then
          let mine := c.answers.flatMap (·.2)
          match c.asker with
          | .remote k o t _ => if gone.isEmpty then claimReply k o t parcel mine s1 else claimLost k o t parcel worst s1
          | .role lv =>
            (match s1.claim? parcel lv with
             | none => s1
             | some up =>
               claimDone f parcel lv (putClaim { up with waits := up.waits.filter (fun w => w.1 != s1.station),
                                                         lost := if gone.isEmpty then up.lost else up.lost ++ [worst],
                                                         answers := Tbl.set up.answers s1.station mine } s1))
          | _ => s1
        else if gone.isEmpty = false then failAsker c.asker parcel worst stTimeout (s1.evt PAR_EVT 1)
        else if trays.all (fun t => c.answers.any (fun a => a.2.contains t)) = false then claimRefused c.asker parcel s1
        else
          match c.asker, c.answers.find? (fun a => trays.all (fun t => a.2.contains t)) with
          | .job _, some a =>
            if a.1 ≠ s1.station then claimRefused c.asker parcel s1
            else if level = 3 then reserveNode 2 true c.asker 0 c.part [] s1
            else claimDone f parcel (level - 1) (claimBegin { c with level := level - 1 } s1)
          | .job _, none => reserveNode level true c.asker 0 c.part c.answers s1
          | _, _ => reserveNode level false c.asker (s1.askerParent c.asker) c.part c.answers s1

/-- A claim exchange begins, and is settled at once where nothing has to be awaited. -/
def claimStart (c : ClaimSt) (s : State) : State := claimDone 4 c.parcel c.level (claimBegin c s)

/-- An answer to a question of a claim exchange is accepted as every reply is (R421), and answers the exchange that asked. -/
def claimIn (e : EnvSeal) (tag st parcel : Nat) (ws : List Word) (f : ClaimSt → ClaimSt) (s : State) : State :=
  match s.issuedFor e.origin tag 0x11 st with
  | none => authFail s
  | some x =>
    replyCheck e.keyId (envBody st true e.keyId e.origin (e.time.getD 0) ws) e.mac (fun t =>
      let t1 := issuedDone x t
      match t1.par.claims.find? (fun c => c.parcel == parcel && x.purpose == .claim parcel st && c.waits.any (fun w => w.1 == st)) with
      | none => t1
      | some c => claimDone 4 parcel c.level (putClaim (f { c with waits := c.waits.filter (fun w => w.1 != st) }) t1)) s

/-- A child answers a claim exchange (R558). -/
def claimAnswerIn (e : EnvSeal) (tag st parcel : Nat) (trays : List Nat) (s : State) : State :=
  claimIn e tag st parcel (claimWords tag stOk trays) (fun c => { c with answers := Tbl.set c.answers st trays }) s

/-- A child tells that a station below it was given up in a claim exchange (R244, R558). -/
def claimFailedIn (e : EnvSeal) (tag st parcel gone : Nat) (s : State) : State :=
  claimIn e tag st parcel (claimWords tag stTimeout [gone]) (fun c =>
    { c with lost := c.lost ++ [gone], answers := Tbl.set c.answers st [] }) s

/-- A reservation part, or a question of a claim exchange, is a remote command (R244, R558): it is received by the six steps of R419,
counts among the 8 of step 5 until it is replied to, needs a key of class CONFIGURE (R409, R423), and starts when Pilot is free
(R411). -/
def nodeCommand (e : EnvSeal) (tag : Nat) (via : Via) (ws : List Word) (x : Launch) (f : State → State) (s : State) : State :=
  if s.pil.booted = false then s
  else
    envAdmit e (envBody s.station false e.keyId e.origin (e.time.getD 0) ws)
      (replyRemote e.keyId e.origin via (replyHead stNoSpace false 0x11 tag 0)) (fun k t =>
        let s1 := (t.inc PIL_REMOTE 1).inc PIL_CMDS 1
        if s1.getF (PIL_KEY_ID k) 28 2 < 2 then
          remoteDone (replyRemote e.keyId e.origin via (replyHead stNoAuth false 0x11 tag 0) (s1.inc PIL_REFUSED 1))
        else launchOr x f s1) s

/-- A question that the station has no place to answer is refused (R244, second check; R558). -/
def askRefused (e : EnvSeal) (tag : Nat) (via : Via) (status : Nat) (s : State) : State :=
  pilotFree (remoteDone (replyRemote e.keyId e.origin via (replyHead status false 0x11 tag 0) (s.inc PIL_REFUSED 1)))

/-- A parent asks in a claim exchange (R558): role 2 answers from its tree entry, a higher role asks its children. -/
def claimAsk (e : EnvSeal) (tag : Nat) (via : Via) (parcel level : Nat) (trays : List Nat) (s : State) : State :=
  if s.isTray = false ∨ s.roleHeld level = false ∨ s.roleParent level ≠ e.origin ∨ level < 2 ∨ 4 < level then
    askRefused e tag via stBadParam s
  else if level = 2 then claimReply e.keyId e.origin tag parcel (trays.filter (s.traysBelow.contains ·)) s
  else if (s.claim? parcel level).isSome then askRefused e tag via stBusyContext s
  else
    claimStart (claimOf level (.remote e.keyId e.origin tag via) true
      { env := e, tag := tag, via := via, parcel := parcel, level := level, period := 0, prio := 0,
        probes := [], members := trays.map (fun t => (t, 0)) }) s

/-- A parent's question arrives (R558). -/
def claimAskIn (e : EnvSeal) (tag : Nat) (via : Via) (parcel level : Nat) (trays : List Nat) (s : State) : State :=
  nodeCommand e tag via (askWords tag parcel level trays) (.ask e tag via parcel level trays) (claimAsk e tag via parcel level trays) s

/-- The next higher role of the instance asks (R558). -/
def ownClaim (parcel level : Nat) (trays : List Nat) (s : State) : State :=
  claimStart (claimOf level (.role (level + 1)) true
    { env := ownSeal 0, tag := 0, via := .own, parcel := parcel, level := level, period := 0, prio := 0, probes := [],
      members := trays.map (fun t => (t, 0)) }) s

/-! ### Parts in (R244) -/

/-- A part reaches a role: its own checks, then, at level 3 or 4, the claims of its children, then the reservation. -/
def partIn (asker : Asker) (parent : Nat) (p : ResvPart) (s : State) : State :=
  if p.level ≤ 2 then reserveNode p.level false asker parent p [] s
  else
    let sh : Option NodeShape := if s.isTray && s.roleHeld p.level then some { self := false, kids := [], members := 0 } else none
    match s.resvBad p.level p.parcel p.period (p.probes.map probeEntOf) sh with
    | some (st, why) => refuseAsker asker p.parcel st (resvRefused why s)
    | none => claimStart (claimOf p.level asker false p) s

/-- A part from another instance (R244). A part sent again finds its context: the answer is given again. One from a node that is not
the role's parent is refused (R244, second check). -/
def partTake (p : ResvPart) (s : State) : State :=
  let asker : Asker := .remote p.env.keyId p.env.origin p.tag p.via
  let parentOk := if p.level = 0 then !s.isTray && p.env.origin == stTrayStation s.station
                  else s.isTray && s.roleHeld p.level && s.roleParent p.level == p.env.origin
  if (s.claim? p.parcel p.level).isSome then refuseAsker asker p.parcel stBusyContext s
  else
    match (s.ctxAt p.parcel p.level).filter (fun e => e.2.parent == p.env.origin && !e.2.pub && e.2.phase == .reserved) with
    | some (n, _) => settleResv 4 n (s.modCtx n (fun x => { x with asker := asker }))
    | none =>
      if parentOk then partIn asker p.env.origin p s
      else refuseAsker asker p.parcel stBadParam (resvRefused none s)

/-- RESERVATION_PART_RECEIVE: a part arrives (R244, R419). -/
def partReceive (p : ResvPart) (s : State) : State := nodeCommand p.env p.tag p.via (partWords p) (.part p) (partTake p) s

/-- A role hands a part to the next lower role of the instance. -/
def ownPart (ctx : Nat) (p : ResvPart) (s : State) : State := partIn (.role ctx) s.station p s

/-- A child's answer to its part (R244). -/
def partAnswer (parcel st : Nat) (a : Nat × Nat × Nat) (s : State) : State :=
  match (s.ctxsOf parcel).find? (fun e => e.2.parts.any (fun p => p.station == st && !p.own && p.answer.isNone)) with
  | none => s
  | some (n, _) =>
    settleResv 4 n (s.modCtx n (fun x =>
      { x with parts := x.parts.map (fun p => if p.station = st ∧ p.own = false ∧ p.answer = none then { p with answer := some a } else p) }))

/-- RESERVATION_RESEND_TIMEOUT (R244, R558): a silent child gets its part or question again, at most three times, and is
then given up with TIMEOUT: the last check of R244 then fails at this node (R263). -/
def resvResend (parcel level : Nat) (s : State) : State :=
  let s1 : State := match s.claim? parcel level with
    | none => s
    | some c =>
      let ext := c.waits.filter (fun w => w.1 != s.station)
      let again := ext.filter (fun w => decide (w.2 < 3))
      let t := s.each again (fun w t => sendAsk parcel (level - 1) w.1 (claimTrays c.members) t)
      claimDone 4 parcel level (putClaim { c with waits := again.map (fun w => (w.1, w.2 + 1)) ++
                                                           c.waits.filter (fun w => w.1 == s.station) } t)
  match s1.ctxAt parcel level with
  | none => s1
  | some (n, c) =>
    let silent := c.parts.filter (fun p => !p.own && p.answer.isNone)
    let s2 := s1.each (silent.filter (fun p => decide (p.resends < 3))) (fun p t =>
      let (tag, t1) := issueTag 0x11 p.station (.reserve parcel p.station) t
      sendPart c p.station tag t1)
    let s3 := if silent.any (fun p => decide (3 ≤ p.resends)) then s2.evt PAR_EVT 1 else s2
    settleResv 4 n (s3.modCtx n (fun x => { x with parts := x.parts.map (fun p =>
      if p.own ∨ p.answer.isSome = true then p
      else if p.resends < 3 then { p with resends := p.resends + 1 }
      else { p with answer := some (p.station, stTimeout, 0) }) }))

/-! ### PARCEL_RESERVE (R243, R558) -/

/-- Whether the members lie in one child's subtree at a level, so that a node below would publish (R243). -/
def oneChild (level : Nat) (ms : List (Nat × Nat)) : Bool :=
  match ms with
  | [e] => if level = 1 then memCount e == 1 && !(memSelf e) else level == 2
  | _ => false

/-- The member entries of a definition that name a member. -/
def Staged.entries (d : Staged) : List (Nat × Nat) := d.members.filter (fun e => memCount e != 0)

/-- The role that R243 and R558 give a definition's members at this instance: none where the members lie outside its
subtrees, or below one child; a level of 3 or more where a claim exchange is still to find it. -/
def State.resvLevel (s : State) (ms : List (Nat × Nat)) : Option Nat :=
  let trays := claimTrays ms
  if s.isTray = false then (if ms.isEmpty ∨ ms.map memClean = [leafEntry s.station] then some 0 else none)
  else if trays.all (fun t => t == stTray s.station) then (if oneChild 1 ms then none else some 1)
  else if s.roleHeld 2 && trays.all (fun t => s.traysBelow.contains t) then (if oneChild 2 ms then none else some 2)
  else [4, 3].find? s.roleHeld

/-- A reservation's job begins at the instance that is to publish (R243, R558). -/
def reserveBegin (id parcel period prio : Nat) (s : State) : State :=
  match s.staged? parcel with
  | none => claimRefused (.job id) parcel s
  | some d =>
    let p : ResvPart := { env := ownSeal 0, tag := 0, via := .own, parcel := parcel, level := 0, period := period,
                          prio := prio, probes := d.probes, members := d.entries }
    match s.resvLevel d.entries with
    | none => claimRefused (.job id) parcel s
    | some l => if l < 3 then reserveNode l true (.job id) 0 p [] s else claimStart (claimOf l (.job id) false p) s

/-- PARCEL_RESERVE's own part (R243, R261): a period of zero, no staged definition, and members that give the instance no
role for them are refused; a period outside its range fails R244's first check. -/
def parcelReserve (c : Cmd) (s : State) : Ans × State :=
  match s.staged? c.parcel with
  | none => ans stBadParam s
  | some d =>
    if c.w 2 = 0 ∨ (s.resvLevel d.entries).isNone then ans stBadParam s
    else if s.par.claims.any (fun x => x.parcel == c.parcel && !x.only) then ans stBusyContext s
    else (.started .waiting .plain, s.later (.reserve s.pil.nextJob c.parcel (c.w 2) (c.f 3 0 2)))

/-- RESERVATION_LAPSE: RESV_HOLD has passed since the reply, without a commit (R246). -/
def resvLapse (parcel : Nat) (s : State) : State :=
  match s.ctxPub parcel with
  | none => s
  | some (n, c) =>
    if c.phase = .reserved ∧ c.resvOk = true then ((freeParcel n false s).inc PAR_LAPSED 1).evt PAR_EVT 6 else s

end Sys2Proof.Machine
end

