-- ==== Sys2Proof/Machine/Splice.lean ====
section
/-! DEFINITION. Splices, gate-list transfer, the roster and link state (R113, R114, R119 to R128). -/

namespace Sys2Proof.Machine

/-! ### Times of cycles (R93, R121) -/

/-- Clock units in one Timetable cycle of 9,830.4 ns, times ten. -/
def cycleTenths : Nat := 98304 * 2 ^ 32

/-- Datum time at which cycle `k` begins, computed from time zero (R93). -/
def cycleTime (k : Nat) : Nat := k * cycleTenths / 10

/-- The cycle a Datum time falls in. -/
def cycleOf (t : Nat) : Nat := t * 10 / cycleTenths

/-- The splice time (R121): start of c + 7,372.8 ns + (p_E + p_W) / 2. -/
def spliceAt (c pE pW : Nat) : Nat := cycleTime c + 73728 * 2 ^ 32 / 10 + (pE + pW) / 2

/-- The full cycle number nearest to `ref` whose low 24 bits are `low`. -/
def cycNear (ref low : Nat) : Nat :=
  let b := ref / 2 ^ 24 * 2 ^ 24 + low % 2 ^ 24
  if b + 2 ^ 23 < ref then b + 2 ^ 24 else if ref + 2 ^ 23 < b then b - 2 ^ 24 else b

/-! ### Gate lists on the wire (R113) -/

/-- How many entries the next cell of a list takes: up to 13; the last at most 12, so that the CRC fits behind them. -/
def tmtTake (n : Nat) : Nat := if n ≤ 12 then n else if n = 13 then 12 else 13

/-- The chunks of a TMT_LIST message: each cell's eight header bytes and its entries (R113). Only an empty list has a cell
without entries. -/
def tmtChunks (ver dir admin : Nat) : Nat → Nat → List Nat → List Byte
  | 0, _, _ => []
  | k + 1, first, es =>
    let m := tmtTake es.length
    (leBytes 2 ver ++ leBytes 1 (dir + 2 * admin) ++ leBytes 1 first ++ leBytes 1 m ++ zeros 3 ++
      (es.take m).flatMap (leBytes 8)) ++
    (if es.length ≤ m then [] else tmtChunks ver dir admin k (first + m) (es.drop m))

/-- The payload of a TMT_LIST message (R113). -/
def tmtListBytes (ver dir admin : Nat) (es : List Nat) : List Byte := tmtChunks ver dir admin 6 0 es

/-- The entries of a received TMT_LIST message, with their indexes. -/
def tmtEntries : Nat → List Byte → List (Nat × Nat)
  | 0, _ => []
  | k + 1, bs =>
    if bs.length < 8 then []
    else
      let first := leAt bs 3 1
      let n := min (leAt bs 4 1) 13
      (List.range n).map (fun i => (first + i, leAt bs (8 + 8 * i) 8)) ++ tmtEntries k (bs.drop (8 + 8 * n))

/-- Put a whole list: the entries given, their reserved bits ignored (R8, R108), zero elsewhere. -/
def putList (ch L : Nat) (es : List (Nat × Nat)) (s : State) : State :=
  s.each (List.range 64) (fun n t => t.wr (TMT_ENT ch L n) ((Tbl.get? es n).getD 0 % 2 ^ 48))

/-- A station stores a complete list and acknowledges it with a REPLY (R113); in bypass it only stores it (R120). -/
def tmtListReceive (ch : Nat) (bs : List Byte) (s : State) : State :=
  let ver := leAt bs 0 2
  let dir := leAt bs 2 1 % 2
  let admin := leAt bs 2 1 / 2 % 2
  let s1 := putList ch (dir + 2 * admin) (tmtEntries 6 bs) s
  let s2 := if admin = 1 then (s1.setF (TMT_VER ch) 16 16 ver).putB (TMT_CTL ch) 0 true else s1.setF (TMT_VER ch) 0 16 ver
  let s3 := if admin = 1 then s2 else s2.setChain ch { s2.chain ch with opVer := Tbl.set (s2.chain ch).opVer dir ver }
  if s3.inserted ch ∧ s3.isTray = false then sendUp 9 0 (bs.take 3) s3 else s3

/-- Whether every leaf of the roster has acknowledged list `dir` (R113, R114). -/
def ackedAll (s : State) (ch dir : Nat) : Bool :=
  let got := (Tbl.get? (s.chain ch).adminGot dir).getD 0
  (setBits 17 (s.rd (CHN_ROSTER ch))).all (fun p => bit got p)

/-- Finish the TMT_LOAD job of a chain and direction once every leaf has acknowledged. -/
def tmtLoadCheck (ch dir : Nat) (s : State) : State :=
  if ackedAll s ch dir then
    s.each (s.pil.jobs.filter (fun j => j.opcode == 0xC4 && j.data == .nums [ch, dir] && j.phase == .waiting))
      (fun j t => finishJob j.id stOk [] t)
  else s

/-- The tray build takes a leaf's acknowledgement of an admin list (R113). -/
def tmtAck (ch src : Nat) (bs : List Byte) (s : State) : State :=
  let dir := leAt bs 2 1 % 2
  if leAt bs 0 2 = s.getF (TMT_VER ch) 16 16 ∧ bit (leAt bs 2 1) 1 = true then
    let c := s.chain ch
    tmtLoadCheck ch dir
      (s.setChain ch { c with adminGot := Tbl.set c.adminGot dir (setBit ((Tbl.get? c.adminGot dir).getD 0) (stPos src)) })
  else s

/-! ### Announcing a splice (R121, R123) -/

/-- Send the operational lists of a chain to its leaves. -/
def sendOpLists (ch : Nat) (s : State) : State :=
  let ver := s.getF (TMT_VER ch) 0 16
  s.each [0, 1] (fun dir t =>
    sendAll ch 0xD 0 (tmtListBytes ver dir 0 ((List.range 64).map (fun n => t.rd (TMT_ENT ch dir n)))) t)

/-- The payload of SPLICE_ANN (R123). -/
def annBytes (station : Nat) (out : Bool) (cyc ver : Nat) : List Byte :=
  leBytes 3 (station + b2n out * 2 ^ 23) ++ leBytes 3 (cyc % 2 ^ 24) ++ leBytes 2 ver

/-- Send the operational lists in this cycle, and behind them a splice's announcement, so that a station that judges the
announcement has received them (R123; log 127). -/
def announceNow (ch : Nat) (a : SpliceAnn) (s : State) : State :=
  sendAll ch 0xC 0 (annBytes a.station a.out a.cyc a.ver) (sendOpLists ch s)

/-- The splice of a chain whose time comes next: of those not yet done, the one with the earliest cycle (R121). -/
def spliceDue (c : ChainSt) : Option SpliceAnn :=
  (c.splices.filter (fun a => !a.done)).foldl (fun best a => match best with
    | some b => if a.cyc < b.cyc then some a else some b
    | none => some a) none

/-- Show the next splice of a chain that is announced and not yet done (R129, R130); with none, CHN_SPL_CTL.PENDING falls. -/
def showSplice (ch : Nat) (s : State) : State :=
  match spliceDue (s.chain ch) with
  | none => s.putB (CHN_SPL_CTL ch) 31 false
  | some a => (s.wrTime (CHN_SPL_SUB ch) (CHN_SPL_SEC ch) a.time).wr (CHN_SPL_CTL ch) (a.station + b2n a.out * 2 ^ 30 + 2 ^ 31)

/-- Announce a splice in this cycle and the 3 that follow (R123). When container 0 comes to the splicing station is not known to
the tray build: its T_s is free (log 38). -/
def announce (ch station : Nat) (out : Bool) (cyc : Nat) (s : State) : State :=
  let len := cycleTenths / 10
  let (e, s1) := s.draw
  let (w, s2) := s1.draw
  let a : SpliceAnn := { station := station, out := out, cyc := cyc, ver := s.getF (TMT_VER ch) 0 16,
                         time := spliceAt cyc (e.toNat % len) (w.toNat % len), left := 3, done := false, windowOpen := false, near := false }
  showSplice ch (announceNow ch a (s2.setChain ch { s2.chain ch with splices := (s2.chain ch).splices ++ [a] }))

/-- The announcements that go out with a cycle (R123). -/
def announceDue (ch : Nat) (s : State) : State :=
  let due := (s.chain ch).splices.filter (fun a => decide (0 < a.left))
  let s1 := s.setChain ch { s.chain ch with splices := (s.chain ch).splices.map (fun a => { a with left := a.left - 1 }) }
  s1.each due (announceNow ch)

/-- Whether a splice of a station at cycle `c` is refused (R128): a station not on the chain, another splice within
128 cycles, or a roster bit that does not fit. -/
def spliceBad (s : State) (ch station : Nat) (out : Bool) (c : Nat) : Bool :=
  stNames station == false || stPos station == 0 || stTray station != stTray s.station ||
    (s.chain ch).splices.any (fun a => decide (a.cyc ≤ c + 128) && decide (c ≤ a.cyc + 128)) ||
    bit (s.rd (CHN_ROSTER ch)) (stPos station) != out

/-- What an announced station must fulfil to splice in (R20, R23, R67, R120, R123). -/
def State.maySpliceIn (s : State) (a : SpliceAnn) : Bool :=
  s.stationValid && a.station == s.station && !s.inserted 0 && s.getB CHN_CTL 0 && s.datState == 2 &&
    s.pins.straps.fordListen && [0, 1].all (fun d => Tbl.get? (s.chain 0).opVer d == some a.ver)

/-- A leaf learns of a splice (R123). Its own it prepares where the conditions hold, else it sets ANN_SEEN; `pE` and
`pW` are the arrival times of container 0 after the start of its cycle. -/
def spliceAnn (bs : List Byte) (pE pW : Nat) (s : State) : State :=
  let v := leAt bs 0 3
  let c := s.chain 0
  let cyc := cycNear (s.rd (TMT_CYC 0)) (leAt bs 3 3)
  let a : SpliceAnn := { station := v % 2 ^ 20, out := bit v 23, cyc := cyc, ver := leAt bs 6 2, time := spliceAt cyc pE pW, left := 0,
                         done := false, windowOpen := false, near := false }
  let s1 := if c.splices.any (fun x => x.station == a.station && x.cyc == cyc) then s
    else s.setChain 0 { c with splices := c.splices ++ [a] }
  if a.station ≠ s.station then s1
  else if (if a.out then s.inserted 0 else s.maySpliceIn a) then
    let s2 := (s1.wrTime (CHN_SPL_SUB 0) (CHN_SPL_SEC 0) a.time).wr (CHN_SPL_CTL 0) (a.station + b2n a.out * 2 ^ 30 + 2 ^ 31)
    if a.out then
      s2.each (s2.pil.jobs.filter (fun j => j.opcode == 0xC3 && j.phase == .waiting)) (fun j t => finishJob j.id stOk [] t)
    else s2
  else if s.getB (CHN_SPL_CTL 0) 31 ∨ s.inserted 0 = true then s1
  else s1.evt (CHN_EVT 0) 3

/-- The window of a splice opens (R557); `near` tells whether this station is one of the ford's two nearest inserted
neighbours. -/
def openWindow (ch : Nat) (near : Bool) (a : SpliceAnn) (s : State) : State :=
  let c := s.chain ch
  s.setChain ch { c with splices := c.splices.map (fun x =>
    if x = a then { x with done := true, windowOpen := true, near := near } else x) }

/-- T_s at the splicing leaf: FORD_HOLD rises or falls (R119, R121, R124). A leaf that no longer fulfils what a splice-in asks keeps
it low and sets ANN_SEEN (R123). -/
def leafSplice (a : SpliceAnn) (s : State) : State :=
  if a.station ≠ s.station ∨ s.getB (CHN_SPL_CTL 0) 31 = false ∨ s.getB (CHN_SPL_CTL 0) 30 ≠ a.out then s
  else
    let s1 := s.putB (CHN_SPL_CTL 0) 31 false
    if a.out = false ∧ s.maySpliceIn a = false then s1.evt (CHN_EVT 0) 3
    else
      let s2 := (s1.putB (CHN_STATUS 0) 13 (!a.out)).putB (CHN_STATUS 0) 12 (!a.out)
      (listenLock 0 (s2.setChain 0 { s2.chain 0 with stopOrig := false })).evt (CHN_EVT 0) (if a.out then 5 else 4)

/-- Change the roster; a change sets ROSTER_CHANGE (R126). -/
def setRoster (ch pos : Nat) (on : Bool) (s : State) : State :=
  if s.getB (CHN_ROSTER ch) pos = on then s
  else
    let s1 := (s.putB (CHN_ROSTER ch) pos on).evt (CHN_EVT ch) 9
    s1.setChain ch { s1.chain ch with unanswered := Tbl.erase (s1.chain ch).unanswered pos }

/-- The T_s reference a SPLICE replies with: the start of its cycle (R128). -/
def spliceReply (cyc : Nat) : List Word := timeWords (cycleTime cyc)

/-- Finish the SPLICE jobs of a station. -/
def spliceJobs (ch station : Nat) (out : Bool) (s : State) : State :=
  s.each (s.pil.jobs.filter (fun j => j.opcode == 0xC2 && j.phase == .waiting))
    (fun j t =>
      match j.data with
      | .nums [c0, st, o, cyc] => if c0 = ch ∧ st = station ∧ o = b2n out then finishJob j.id stOk (spliceReply cyc) t else t
      | _ => t)

/-- T_s at the tray build: a splice-out clears the roster bit and completes (R126, R128); of a splice-in the time is noted
(R183). -/
def traySplice (ch : Nat) (a : SpliceAnn) (s : State) : State :=
  if a.out then (spliceJobs ch a.station true (setRoster ch (stPos a.station) false s)).evt (CHN_EVT ch) 5
  else s.setChain ch { s.chain ch with inAt := Tbl.set (s.chain ch).inAt (stPos a.station) s.now }

/-- A splice time (R121, R557): the next splice of the chain takes place, and no other. -/
def spliceTime (ch : Nat) (near : Bool) (s : State) : State :=
  match spliceDue (s.chain ch) with
  | none => s
  | some a =>
    if s.isTray then showSplice ch (openWindow ch near a (traySplice ch a s)) else openWindow ch near a (leafSplice a s)

/-- 100 µs after T_s: covered directions that are not UP take the effects of DOWN (R557). -/
def windowClose (ch : Nat) (s : State) : State :=
  let down := [Side.west, Side.east].filter (fun sd => windowCovers s ch sd && s.rxState ch sd != 2)
  let c := s.chain ch
  let s1 := s.setChain ch { c with splices := c.splices.map (fun a => { a with windowOpen := false }) }
  s1.each down (fun sd t => downEffects ch sd t)

/-- A leaf's request for a splice-out reaches the tray build, which announces it with a lead of 64 cycles (R128). -/
def spliceRequest (ch src : Nat) (s : State) : State :=
  let c := s.rd (TMT_CYC ch) + 64
  if s.isTray = false ∨ spliceBad s ch src true c = true then s else announce ch src true c s

/-! ### The roster (R126) -/

/-- Send a ROLL to every leaf of a chain (R126). -/
def rollSend (ch : Nat) (s : State) : State :=
  if s.isTray = false ∨ s.inserted ch = false then s
  else
    let c := s.chain ch
    let n := (c.roll + 1) % 65536
    let un := (setBits 17 (s.rd (CHN_ROSTER ch))).foldl (fun t p => Tbl.set t p ((Tbl.get? t p).getD 0 + 1)) c.unanswered
    sendAll ch 0xE 0 (leBytes 2 n) (s.setChain ch { c with roll := n, unanswered := un })

/-- An inserted leaf answers a ROLL (R126). -/
def rollReceive (bs : List Byte) (s : State) : State :=
  if s.isTray ∨ s.inserted 0 = false then s else sendUp 0xF 0 (bs.take 2 ++ leBytes 1 s.datState) s

/-- The tray build takes a ROLL_ACK (R126). The first one of a leaf that has spliced in completes its splice-in (R128, R130). -/
def rollAck (ch src : Nat) (s : State) : State :=
  if s.isTray = false then s
  else
    let new := !s.getB (CHN_ROSTER ch) (stPos src)
    let s1 := setRoster ch (stPos src) true s
    let s2 := s1.setChain ch { s1.chain ch with unanswered := Tbl.erase (s1.chain ch).unanswered (stPos src) }
    spliceJobs ch src false
      (if new && (s2.chain ch).splices.any (fun a => a.done && !a.out && a.station == src) then s2.evt (CHN_EVT ch) 4 else s2)

/-- Two consecutive rolls of a leaf have gone unanswered (R126). -/
def rollTimeout (ch pos : Nat) (s : State) : State :=
  if s.isTray ∧ 2 ≤ (Tbl.get? (s.chain ch).unanswered pos).getD 0 then setRoster ch pos false s else s

/-- H of a returning time word against the roster (R126): a mismatch sends an extra ROLL in the next cycle. -/
def hopCheck (ch : Nat) (s : State) : State :=
  if s.getF (CHN_STATUS ch) 16 5 - 1 = popCount 17 (s.rd (CHN_ROSTER ch)) then s
  else s.setChain ch { s.chain ch with rollDue := true }

/-- The extra ROLL that falls due with a cycle (R126). -/
def rollExtra (ch : Nat) (s : State) : State :=
  if (s.chain ch).rollDue then rollSend ch (s.setChain ch { s.chain ch with rollDue := false }) else s

/-- A LINK_ALARM reaches the tray build: it notes the link and tells the leaves (R127). -/
def linkAlarmReceive (ch src : Nat) (bs : List Byte) (s : State) : State :=
  if s.isTray = false then s
  else noteLink ch (stPos src) (if leAt bs 0 1 % 2 = 1 then .east else .west) (leAt bs 2 1) s

/-- A leaf learns the fenced and down links of its chain (R111, R127). -/
def linkStateReceive (bs : List Byte) (s : State) : State :=
  if s.isTray then s
  else s.setChain 0 { s.chain 0 with links := (List.range 4).map (fun i => leAt bs (3 * i) 3 % 2 ^ 17) }

/-! ### Commands (R128) -/

/-- STATION_SET. -/
def opStationSet : OpInfo := ⟨0xC0, 2, .both, false, false, lenIs 3⟩
/-- CHAIN_SET. -/
def opChainSet : OpInfo := ⟨0xC1, 2, .both, false, false, lenEven⟩
/-- SPLICE. -/
def opSplice : OpInfo := ⟨0xC2, 2, .trayOnly, false, true, lenIs 4⟩
/-- SPLICE_REQ. -/
def opSpliceReq : OpInfo := ⟨0xC3, 1, .leafOnly, false, true, lenIs 2⟩
/-- TMT_LOAD. -/
def opTmtLoad : OpInfo := ⟨0xC4, 2, .trayOnly, false, true, lenCount 2 (fun ps => fld (wAt ps 0) 8 7) 0 64 (fun n => 4 + 2 * n)⟩
/-- TMT_SWAP. -/
def opTmtSwap : OpInfo := ⟨0xC5, 2, .trayOnly, false, true, lenIs 6⟩
/-- LANE_UNFENCE. -/
def opLaneUnfence : OpInfo := ⟨0xC6, 2, .both, false, false, lenIs 3⟩

/-- CHAIN_SET's check of one pair: the register's offset within 0x03_0000 and its value (R128, R130). -/
def chainSetBad (off v : Nat) : Bool :=
  if off = 4 then v / 2 ^ 12 != 0 || fld v 3 5 != 0 || bit v 1 || fld v 8 4 == 0 || decide (8 < fld v 8 4)
  else off != 8 && off != 0xC

/-- The pairs of words of a command, from word 2 on. -/
def pairsOf : List Word → List (Nat × Nat)
  | a :: b :: r => (a.toNat, b.toNat) :: pairsOf r
  | _ => []

/-- CHAIN_SET (R128). -/
def chainSet (c : Cmd) (s : State) : Ans × State :=
  let ps := pairsOf c.params
  if ps.any (fun p => chainSetBad p.1 p.2) then ans stBadParam s
  else
    ans stOk (s.each ps (fun p t =>
      if p.1 = 4 then t.wr CHN_CTL p.2 else if p.1 = 8 then t.wr CHN_LISTEN_DLY p.2 else t.wr CHN_LISTEN_DLY_E p.2))

/-- SPLICE (R121, R128). -/
def spliceCmd (c : Cmd) (s : State) : Ans × State :=
  let st := c.f 2 0 20
  let out := bit (c.w 2) 24
  let lead := c.f 3 0 16
  let ch := stChain st
  let cyc := s.rd (TMT_CYC ch) + lead
  if lead < 16 ∨ 4096 < lead ∨ spliceBad s ch st out cyc = true then ans stBadParam s
  else (.started .waiting (.nums [ch, st, b2n out, cyc]), announce ch st out cyc s)

/-- SPLICE_REQ (R128). -/
def spliceReqCmd (_c : Cmd) (s : State) : Ans × State :=
  if s.inserted 0 = false then ans stBadParam s else (.started .waiting .plain, s.emit (.spliceReq s.station))

/-- TMT_LOAD (R109, R113, R128). DEDUCED (log 143): START 0 is BAD_PARAM, and POS 17 to 31 is accepted. -/
def tmtLoadCmd (c : Cmd) (s : State) : Ans × State :=
  let dir := c.f 2 0 1
  let ch := c.f 2 1 1
  let n := c.f 2 8 7
  let ver := c.f 3 0 16
  let es := (List.range n).map (fun i => c.w64 (4 + 2 * i) % 2 ^ 48)
  if 64 < n then ans stBadParam s
  else
    let bad := gateListBad es
    if bad = 2 then ans stBadLen s
    else if bad = 1 ∨ es.any (fun e => fld e 0 10 == 0) then ans stBadParam s
    else
      let s1 := putList ch (2 + dir) ((List.range n).zip es) s
      let s2 := (s1.setF (TMT_VER ch) 16 16 ver).putB (TMT_CTL ch) 0 true
      let s3 := s2.setChain ch { s2.chain ch with adminGot := Tbl.set (s2.chain ch).adminGot dir 0 }
      let s4 := sendAll ch 0xD 0 (tmtListBytes ver dir 1 es) s3
      if ackedAll s4 ch dir then ans stOk s4 else (.started .waiting (.nums [ch, dir]), s4)

/-- LANE_UNFENCE (R100, R128): lanes are unfenced in receive, and their sender is told. A tray build's own link is fenced no
longer once none of its lanes is (log 105). -/
def laneUnfence (c : Cmd) (s : State) : Ans × State :=
  let sd : Side := if c.f 2 0 1 = 1 then .east else .west
  let ch := if s.isTray then c.f 2 1 1 else 0
  let m := c.f 2 4 4
  let s1 := s.setF (CHN_LANES ch) (lanesLo sd) 4 (s.fencedRx ch sd &&& (m ^^^ 15))
  let s2 := if m = 0 then s1 else queueRow ch (.lanes sd m false) s1
  ans stOk (if s2.fencedRx ch sd = 0 then clearLink ch (linkOf 0 sd) 1 s2 else s2)

end Sys2Proof.Machine
end

