-- ==== Sys2Proof/Machine/Strobe.lean ====
section
/-! DEFINITION. A strobe (R82, R136, R169, R172, R173, R240, R256): it ends one epoch, applies the rulings of the next and
begins it; an own station's values are formed once both cuts are in (R157). -/

namespace Sys2Proof.Machine

/-! ### Rulings with an epoch as effective point (R256, R290, R330, R344) -/

/-- Whether ruling `a` is applied before `b` (R256). -/
def Ruling.before (a b : Ruling) : Bool :=
  if a.kind ≠ b.kind then decide (a.kind < b.kind)
  else if a.issuer ≠ b.issuer then decide (a.issuer < b.issuer)
  else decide (a.no < b.no)

/-- Put a ruling in its order. -/
def insertRuling (r : Ruling) : List Ruling → List Ruling
  | [] => [r]
  | x :: xs => if r.before x then r :: x :: xs else x :: insertRuling r xs

/-- Rulings in the order of R256. -/
def sortRulings (rs : List Ruling) : List Ruling := rs.foldr insertRuling []

/-- A ruling among rulings in the order of their effective points. -/
def insertPoint (point : Ruling → Nat) (r : Ruling) : List Ruling → List Ruling
  | [] => [r]
  | x :: xs => if point r ≤ point x then r :: x :: xs else x :: insertPoint point r xs

/-- Rulings by their effective points, and those of one point by KIND, ISSUER and RUL_NO (R256). -/
def sortPoints (point : Ruling → Nat) (rs : List Ruling) : List Ruling := (sortRulings rs).foldr (insertPoint point) []

/-- Set or remove the bars of a ruling's entries (R344). -/
def setBars (t : Tbl Nat) (es : List (Nat × Nat)) : Tbl Nat :=
  es.foldl (fun t e => if e.2 = 0 then Tbl.erase t e.1 else Tbl.set t e.1 e.2) t

/-- A BAR takes effect at a member station (R344, R345). -/
def barEffect (r : Ruling) (s : State) : State :=
  s.each ((s.ctxsOf r.parcel).filter (fun e => e.2.self && e.2.level == s.ownLevel)) (fun e t =>
    t.modCtx e.1 (fun c => { c with bars := setBars c.bars (barEntries r.body) }))

/-- A PLAT_SWAP takes effect: at a leaf's context, or a tray build's level-1 context (R290). -/
def platEffect (r : Ruling) (s : State) : State :=
  match s.platSwap r.body with
  | none => s
  | some v => match s.ctxAt r.parcel s.ownLevel with
    | none => s
    | some (n, _) => (s.modCtx n (fun c => { c with plat := v })).evt CAD_EVT 4

/-- A SUBSPACE_SWAP takes effect: a level-1 context binds, a parent role records the version (R330). -/
def subEffect (r : Ruling) (s : State) : State :=
  let v := leAt r.body 0 2
  s.each ((s.ctxsOf r.parcel).filter (fun e => decide (1 ≤ e.2.level))) (fun e t =>
    (t.modCtx e.1 (fun c => { c with sub := v })).evt TRN_EVT 6)

/-- An epoch-effective ruling takes effect (R256). -/
def epochRuling (r : Ruling) (s : State) : State :=
  let s1 := (dropPend (fun x => x == r) s).inc RUL_APPLIED 1
  if r.kind = 1 then barEffect r s1 else if r.kind = 4 then platEffect r s1 else if r.kind = 5 then subEffect r s1 else s1

/-- The pending rulings of a parcel that are due at the start of epoch `k`. One whose unit is powered off waits for the
return to ACTIVE (R256). -/
def State.dueRulings (s : State) (parcel k : Nat) : List Ruling :=
  sortPoints Ruling.effect (s.par.pend.filter (fun r => r.atEpoch && r.parcel == parcel && decide (r.effect ≤ k) && s.computeActive))

/-! ### Ending an epoch (R169, R173, R183) -/

/-- Whether a child counts as inserted in an epoch that began at `start` (R183): a leaf whose roster bit is set (R126) and whose
splice-in took effect no later; a child that is no leaf does. -/
def State.rosterOf (s : State) (st start : Nat) : Bool :=
  stPos st == 0 ||
    (bit (s.rd (CHN_ROSTER (stChain st))) (stPos st) &&
      ((Tbl.get? (s.chain (stChain st)).inAt (stPos st)).map (fun t => decide (timeDiff t (start % clockMod) ≤ 0))).getD true)

/-- Whether the strobe is one of those that a forward step passed: its boundary lies more than one edge back (R84). -/
def State.passedBoundary (s : State) (t : Nat) : Bool :=
  s.dat.catchUp && decide (s.effInc ≤ timeDiff s.now (t % clockMod))

/-- The strobe of boundary `next` ends the epoch in progress of a context. A station whose compute tier was not in
ACTIVE at the epoch's start is asleep in it: a leaf sends ASLEEP, once its older epochs are sent (R54, R55). -/
def epochEnd (n cut : Nat) (s : State) : State :=
  match s.ctx? n with
  | none => s
  | some c =>
    match c.current with
    | none => s
    | some e =>
      let kids := e.kids.map (fun x =>
        if x.phase = .outstanding ∧ c.level = 1 ∧ s.rosterOf x.station (c.boundary e.k) = false then { x with phase := .absentRoster } else x)
      let bad := s.passedBoundary (c.boundary (e.k + 1))
      let e1 : Epoch := { e with
        endCut := some cut, dl := min c.dl (2 * c.period * 100), kids := kids,
        own := if e.own = .waiting ∧ e.active = false then .asleep else e.own,
        degraded := e.degraded || bad, ownDegraded := e.ownDegraded || (bad && e.own != .notMember) }
      let s1 := s.modEpoch n e.k (fun _ => e1)
      if c.level = 0 ∧ e1.own = .asleep then advanceAll n s1 else s1

/-! ### Beginning an epoch (R172, R173, R240) -/

/-- Whether an epoch of a station's child is declared absent in advance (R183). -/
def Ctx.declaredIn (c : Ctx) (k st : Nat) : Bool :=
  c.declared.any (fun d => d.2.2 == st && decide (d.1 ≤ k) && decide (k < d.1 + d.2.1))

/-- A child at the start of an epoch (R183). -/
def kidStart (c : Ctx) (k : Nat) (x : Kid) : KidEpoch :=
  { station := x.station, phase := if c.declaredIn k x.station then .absentDeclared else .outstanding,
    pending := false, voided := false, nInc := 0, nAsleep := 0, nAbsent := 0, nStale := 0, nDegraded := 0, nVoid := 0,
    nRoster := 0, nDeclared := 0, absents := [], trn := [] }

/-- Epoch `k` of a context as it begins. -/
def epochStart (s : State) (c : Ctx) (k cut : Nat) : Epoch :=
  let bad := s.timeBad
  let mine := c.self && c.level == s.ownLevel
  { k := k, cut := cut, endCut := none, active := s.computeActive, dl := 0, kids := c.kids.map (kidStart c k),
    own := if mine then .waiting else .notMember, ownVals := [], ownStale := false, ownDegraded := bad && mine, gate := false,
    fin := false, accs := [], votes := votesBlank, degraded := bad, coarse := false, coarseIn := false,
    stale := false, isVoid := false, stopped := s.dat.dieStop && mine, approx := false, truncated := false, timeouts := 0,
    satCounted := false, build := .none, cad := .none, trn := .none, trnCheck := .none, trnBytes := [], trnFailed := false,
    trnVotes := [], cadOut := [], sentPending := false, bars := c.bars, plat := if c.level ≤ 1 then c.plat else 0,
    sub := c.sub, platVer := 0, tClose := 0, held := [], mixed := false }

/-- Whether a station takes an epoch in: a leaf that is not inserted does not (R173), nor a Tally held in reset (R447). DEDUCED (log 147):
a leaf that publishes its own parcel takes none either and writes no record. -/
def State.takesEpoch (s : State) (c : Ctx) : Bool := (c.level != 0 || s.inserted 0) && !s.quiesced .tally

/-- Boundary `next` of a context: the first gives it its commit sequence, be it its last as well (R240, R248); it drains at E, ends
after epoch 2⁴⁰ − 1, or begins its next epoch (R170, R240). -/
def epochBegin (n cut seq : Nat) (s : State) : State :=
  match s.ctx? n with
  | none => s
  | some c =>
    let k := c.next
    let s1 := if k = 0 then
        (s.modCtx n (fun x => { x with phase := if x.phase = .armed then .live else x.phase, committed := true, seq := seq })).evt PAR_EVT 2
      else s
    if c.endE.any (fun e => decide (e ≤ k)) then drainFree n (s1.modCtx n (fun x => { x with phase := .draining, next := k + 1 }))
    else if epochLimit ≤ k then (s1.modCtx n (fun x => { x with next := k + 1 })).evt EPO_EVT 7
    else
      let c1 := (s1.ctx? n).getD c
      let es := if s1.takesEpoch c1 then [epochStart s1 c1 k cut] else []
      s1.modCtx n (fun x => { x with next := k + 1, epochs := x.epochs ++ es })

/-! ### Own values (R157, R218, R268) -/

/-- The own station's values of an epoch are formed once both of its cuts are in; a leaf's section is then to be built and
its row is ready (R157, R232, R268). -/
def ownEval (n : Nat) (e : Epoch) (s : State) : State :=
  match s.ctx? n, s.cut? e.cut, e.endCut.bind s.cut? with
  | some c, some a, some b =>
    if e.own ≠ .waiting ∨ e.active = false ∨ s.computeActive = false ∨ s.cutReady a = false ∨ s.cutReady b = false then s
    else
      let s1 := evalEpoch n e.k a b s
      if c.level = 0 then
        advanceAll n (buildPut n e.k (cadBegin n e.k (s1.modEpoch n e.k (fun x => { x with build := .pending }))))
      else tryFinish n e.k s1
  | _, _, _ => s

/-- At a tray build whose own station is no member, its probes' values for the rows of an epoch: their features are the same in
every row (R267). -/
def rowProbes (n k : Nat) (s : State) : State :=
  match s.ctx? n, s.epoch? n k with
  | some c, some e =>
    match s.cut? e.cut, e.endCut.bind s.cut? with
    | some a, some b =>
      if e.own ≠ .notMember ∨ c.level ≠ s.ownLevel ∨ e.plat = 0 ∨ e.ownVals ≠ [] ∨ s.computeActive = false ∨ s.cutReady a = false ∨
          s.cutReady b = false then s
      else s.modEpoch n k (fun x => { x with ownVals := c.probes.map (fun p => probeVal p (s.probeRead c k a b p.probe)) })
    | _, _ => s
  | _, _ => s

/-- Every own contribution that can be formed, in ascending epoch order (R54), and the values of a tray build that is no member
(R267). -/
def evalReady (s : State) : State :=
  s.each s.par.ctxs (fun c t => t.each (c.2.epochs.filter (fun e => e.endCut.isSome && (e.own == .waiting || e.own == .notMember)))
    (fun e u => if e.own = .waiting then ownEval c.1 e u else rowProbes c.1 e.k u))

/-- Beat stamps that no epoch can need any more are forgotten. -/
def oldestStart (s : State) : Nat :=
  (s.par.ctxs.flatMap (fun c => c.2.epochs.map (fun e => c.2.boundary e.k))).foldl min s.now

/-! ### The commit sequence (R239, R248) -/

/-- The commit sequence of a parcel that counts from T0: the next number, or the lowest of those that parcels with a higher number have
got at the same effective point (R239). -/
def State.seqFor (s : State) (parcel t0 : Nat) : Nat :=
  (s.par.ctxs.filter (fun e => e.2.committed && e.2.t0 == t0 && decide (parcel < e.2.parcel))).foldl (fun n e => min n e.2.seq)
    (s.par.commits + 1)

/-- A commit takes its place in the sequence: those from number `q` on stand one later. -/
def seqTake (q : Nat) (s : State) : State :=
  { s with par := { s.par with commits := s.par.commits + 1, ctxs := s.par.ctxs.map (fun e =>
      (e.1, if e.2.committed ∧ q ≤ e.2.seq then { e.2 with seq := e.2.seq + 1 } else e.2)) } }

/-! ### The strobe -/

/-- EPOCH_STROBE of a parcel: boundary `next` of every context that the instance holds of it (R82, R138, R169, R256). Pods and gauges
are captured at it whatever the compute tier does, but for a tier that is powered off (R54, R136, R146). -/
def strobe (parcel : Nat) (lanes : List TapLane) (s : State) : State :=
  let cs := ((List.range 5).filterMap (fun l => s.ctxAt parcel l)).filter (fun e =>
    e.2.phase == .armed || e.2.phase == .live || e.2.phase == .releasing)
  match cs with
  | [] => s
  | (_, c) :: _ =>
    if epochLimit < c.next then s
    else
      let s0 := countLanes lanes s
      let (cut, s1) := if s0.powerState = 2 then (0, s0) else takeCut s0
      let s2 := s1.each cs (fun e t => epochEnd e.1 cut t)
      let s3 := s2.each (s2.dueRulings parcel c.next) epochRuling
      let seq := s3.seqFor parcel c.t0
      let s4 := if c.next = 0 then seqTake seq s3 else s3
      let s5 := s4.each cs (fun e t => epochBegin e.1 cut seq t)
      pruneBeats (oldestStart s5) (pruneCuts (evalReady s5))
end Sys2Proof.Machine
end

