-- ==== Sys2Proof/Machine/Wake.lean ====
section
/-! DEFINITION. Wake (R356 to R381): filters, packets, the state machine, capture modes, the buffer and its drain,
power-down and power-up. -/

namespace Sys2Proof.Machine

/-! ### Status (R383) -/

/-- Change Wake's own state. -/
def State.modWak (s : State) (f : WakSt → WakSt) : State := { s with wak := f s.wak }

/-- WAK_STATUS.ARMED. -/
def State.wakArmed (s : State) : Bool := s.getB WAK_STATUS 15

/-- WAK_STATUS.CAPTURE: 0 OFF, 1 HOLD, 2 PRE, 3 POST. -/
def State.capture (s : State) : Nat := s.getF WAK_STATUS 13 2

/-- WAK_STATUS.INTEREST. -/
def State.interest (s : State) : Bool := s.getB WAK_STATUS 12

/-- WAK_STATUS.STATE. -/
def State.wakState (s : State) : Nat := s.getF WAK_STATUS 8 3

/-- Whether packets are written: in PRE and POST (R370), and not between a POWER_DOWN and the end of its flush (R376). -/
def State.capturing (s : State) : Bool := (s.capture == 2 || s.capture == 3) && s.wak.flushUntil.isNone

/-- Bytes of the buffer (R371). -/
def State.wakBuf (s : State) : Nat := if s.isTray then 8388608 else 1048576

/-- Bytes of the pre region. -/
def State.preSize (s : State) : Nat := s.wakBuf / 16 * s.getF WAK_CTL 28 4

/-- B_post, bytes of the post region. -/
def State.postSize (s : State) : Nat := s.wakBuf - s.preSize

/-- WAK_FILL follows F. -/
def wakFill (s : State) : State := s.wr WAK_FILL (s.wak.post.length % 2 ^ 24)

/-! ### Packets (R362 to R365) -/

/-- An unsigned LEB128 number. -/
def varint : Nat → Nat → List Byte
  | 0, _ => []
  | k + 1, n => if n < 128 then [BitVec.ofNat 8 n] else BitVec.ofNat 8 (n % 128 + 128) :: varint k (n / 128)

/-- A varint of at most 10 bytes. -/
def varint10 (n : Nat) : List Byte := varint 10 (n % 2 ^ 64)

/-- The kinds of packet as drops treat them: those that must leave 64 bytes free (R374). -/
def wakRestrained (type : Nat) : Bool := type == 1 || type == 4 || type == 6 || type == 7

/-- The pre region takes a packet, losing whole packets from its oldest end (R371). -/
def preFit (size : Nat) : List WakPkt → Nat → List WakPkt × Nat
  | [], n => ([], n)
  | p :: ps, n =>
    if (p :: ps).foldl (fun k q => k + q.bytes.length) 0 ≤ size then (p :: ps, n) else preFit size ps (n + 1)

/-- Shedding follows F (R374): it begins at SHED_THR sixteenths of B_post and ends below half of that. -/
def wakShedding (s : State) : State :=
  let level := s.postSize / 16 * s.getF WAK_CTL 24 4
  let f := s.wak.post.length
  s.modWak (fun w => { w with shedding := if level ≤ f then true else if 2 * f < level then false else w.shedding })

/-- Put the bytes of a packet with its stamp into a region; false where it was dropped (R371, R374). -/
def wakPlace (post sync : Bool) (type stamp : Nat) (bs : List Byte) (s : State) : Bool × State :=
  let done (t : State) : State :=
    memReadBack 4 0 (memWritten 4 0 (wakShedding (wakFill ((t.modWak (fun w =>
      { w with pkts := w.pkts + 1, since := w.since + 1, stamp := stamp })).inc WAK_PKTS 1))))
  if post then
    let room := s.postSize - s.wak.post.length
    let need := bs.length + (if wakRestrained type then 64 else 0)
    if room < need then (false, s)
    else (true, done (s.modWak (fun w => { w with post := w.post ++ bs, lens := w.lens ++ [(bs.length, type == 1)] })))
  else
    let (kept, n) := preFit s.preSize (s.wak.pre ++ [{ bytes := bs, sync := sync }]) 0
    (true, done ((s.modWak (fun w => { w with pre := kept })).inc WAK_PRE_OVR n))

/-- A loss of data accesses and of other packets, by reason, waits to be reported (R375). -/
def noteLoss (reason nAcc nOther : Nat) (s : State) : State :=
  s.modWak (fun w =>
    let (a, o) := (Tbl.get? w.loss reason).getD (0, 0)
    { w with loss := Tbl.set w.loss reason (a + nAcc, o + nOther) })

/-- DELTA of a packet (R362). -/
def wakDelta (stamp : Nat) (s : State) : List Byte := varint10 (stamp - s.wak.stamp)

/-- Write the next LOSS packet that is due; one that is dropped keeps its counts for the next (R375). Answers whether one was
written. -/
def wakLossOut (post : Bool) (stamp : Nat) (s : State) : Bool × State :=
  match s.wak.loss with
  | [] => (false, s)
  | e :: _ =>
    let (ok, s1) := wakPlace post false 3 stamp (BitVec.ofNat 8 (0x30 + e.1) :: wakDelta stamp s ++ varint10 e.2.1 ++ varint10 e.2.2) s
    if ok then (true, (s1.modWak (fun w => { w with loss := Tbl.erase w.loss e.1 })).evt WAK_EVT 2) else (false, s1.inc WAK_DROP 1)

/-- Write one packet: byte 0, DELTA, its body; a packet that does not fit is dropped and counted (R362, R374). -/
def wakOut (post : Bool) (type low stamp : Nat) (body : List Byte) (s : State) : State :=
  let (ok, s1) := wakPlace post false type stamp (BitVec.ofNat 8 (type * 16 + low % 16) :: wakDelta stamp s ++ body) s
  if ok then s1 else noteLoss 1 (b2n (type == 1)) (b2n (type != 1)) (s1.inc WAK_DROP 1)

/-- Write a SYNC; the address chains start anew after it (R362, R363, R365). -/
def wakSyncOut (post : Bool) (reason time info stamp : Nat) (s : State) : State :=
  let bs := BitVec.ofNat 8 (0x20 + reason) :: timeBytes time ++ leBytes 4 s.wak.pkts ++ leBytes 2 (s.getF WAK_STATUS 16 16) ++
    leBytes 1 info
  let (ok, s1) := wakPlace post true 2 stamp bs s
  let s2 := if ok then s1.modWak (fun w => { w with addr := [] }) else noteLoss 1 0 1 (s1.inc WAK_DROP 1)
  s2.modWak (fun w => { w with since := 0, syncAt := time })

/-- Whether an item goes before another: by stamp, then internal events before taps in ascending number (R364). -/
def WakItem.before (a b : WakItem) : Bool := decide (a.stamp < b.stamp) || (a.stamp == b.stamp && decide (a.rank < b.rank))

/-- An item takes its place in the merger's order, after those it is equal to. -/
def wakInsert (x : WakItem) : List WakItem → List WakItem
  | [] => [x]
  | y :: ys => if x.before y then x :: y :: ys else y :: wakInsert x ys

/-- An item stamped in the present cycle waits for the merger (R364). -/
def wakEnqueue (rank : Nat) (post : Bool) (body : WakBody) (s : State) : State :=
  s.modWak (fun w => { w with queue := wakInsert { stamp := s.dat.edges, rank := rank, post := post, body := body } w.queue })

/-- A packet of an internal event for a region. -/
def wakPut (post : Bool) (type low : Nat) (body : List Byte) (s : State) : State := wakEnqueue 0 post (.packet type low body) s

/-- A packet in the region of the present mode, where packets are written. -/
def wakWrite (type low : Nat) (body : List Byte) (s : State) : State :=
  if s.capturing then wakPut (s.capture == 3) type low body s else s

/-- A SYNC for a region, with the time and the state of this cycle (R362, R365). -/
def wakSyncTo (post : Bool) (reason : Nat) (s : State) : State :=
  wakEnqueue 0 post (.sync reason s.now (s.wakState + s.capture * 8 + b2n s.interest * 32)) s

/-- A SYNC in the region of the present mode, where packets are written (R365). -/
def wakSync (reason : Nat) (s : State) : State :=
  if s.capturing && s.computeActive then wakSyncTo (s.capture == 3) reason s else s

/-- Whether an item is a SYNC. -/
def WakItem.isSync (x : WakItem) : Bool := match x.body with | .sync _ _ _ => true | _ => false

/-- The periodic SYNC, once 4,096 packets or 1 ms of Datum time have passed since the last (R365). -/
def wakSyncDue (s : State) : State :=
  if !(s.wak.queue.any WakItem.isSync) && (decide (4096 ≤ s.wak.since) || decide ((nsU 1000000 : Nat) ≤ timeDiff s.now s.wak.syncAt)) then
    wakSync 0 s
  else s

/-! ### Leave and drain (R372, R374) -/

/-- Bytes queued for drain: the pre segment, then the post region. -/
def State.wakQueued (s : State) : Nat := s.wak.seg.length + s.wak.post.length

/-- While interest is set, Wake asks for leave; it releases it once interest is clear and the queue is empty (R374). -/
def wakLeave (s : State) : State :=
  if s.interest = true then
    if s.hasLeave .wakeDrain || s.asksLeave .wakeDrain || s.wak.askAt.isSome then s
    else askLeave 3 (s.pwrClass WAK_PWR) (s.pwrAmt WAK_PWR) .wakeDrain s
  else if (s.hasLeave .wakeDrain || s.asksLeave .wakeDrain) ∧ s.wakQueued = 0 then
    releaseLeave .wakeDrain (s.putB WAK_STATUS 11 false)
  else s

/-- Leave for drain is granted (R374). -/
def wakGranted (s : State) : State := wakLeave (s.putB WAK_STATUS 11 true)

/-- Leave for drain is refused: Wake asks again at each PWR_WAIT while interest lasts (R374). After a refusal that followed a wait that
is at once, after one at once (R434) when PWR_WAIT has passed. -/
def wakRefused (waited : Bool) (s : State) : State :=
  let s1 := s.evt WAK_EVT 6
  if waited then wakLeave s1 else s1.modWak (fun w => { w with askAt := some (s.dat.edges + s.getF PWR_CTL 0 16 * 1250) })

/-- The time at which Wake asks again has come (R374). -/
def wakAskAgain (s : State) : State :=
  if s.wak.askAt.any (fun e => decide (e ≤ s.dat.edges)) then wakLeave (s.modWak (fun w => { w with askAt := none })) else s

/-- Bytes of the destination ring. -/
def State.dstSize (s : State) : Nat := s.getF WAK_DST_SIZE 0 28 * 4096

/-- Whether the destination ring has room for a unit (R372). -/
def State.dstRoom (s : State) : Bool :=
  decide ((s.rd WAK_DST_WR + 2 ^ 64 - s.rd WAK_DST_RD) % 2 ^ 64 + 64 ≤ s.dstSize)

/-- What remains of a region's packets, by bytes and kind, once `n` bytes of it have been drained. -/
def dropLens : Nat → List (Nat × Bool) → List (Nat × Bool)
  | _, [] => []
  | n, x :: xs => if x.1 ≤ n then dropLens (n - x.1) xs else (x.1 - n, x.2) :: xs

/-- Copy one unit into the destination ring, padded where the queue holds less (R372). -/
def drainOne (s : State) : State :=
  let q := s.wak.seg ++ s.wak.post
  let unit := padTo 64 (q.take 64)
  let s1 := (storeRing (s.rd WAK_DST_BASE) s.dstSize (s.rd WAK_DST_WR) unit s).inc WAK_DST_WR 64
  let s2 := s1.modWak (fun w => { w with
    seg := w.seg.drop 64, post := w.post.drop (64 - w.seg.length), lens := dropLens (64 - w.seg.length) w.lens })
  let lvl := s2.getF WAK_CTL2 24 4
  let used := (s2.rd WAK_DST_WR + 2 ^ 64 - s2.rd WAK_DST_RD) % 2 ^ 64
  let s3 := if 0 < lvl ∧ s2.dstSize / 16 * lvl ≤ used then s2.evt WAK_EVT 1 else s2
  wakShedding (wakFill s3)

/-- The session ends: its flush is complete (R370, R372). -/
def sessionEnd (s : State) : State :=
  let s1 := (s.modWak (fun w => { w with flushing := false, pre := [], timers := [], fresh := false, shedding := false })).putB
    WAK_STATUS 15 false
  let s2 := wakLeave ((s1.putB WAK_STATUS 12 false).evt WAK_EVT 5)
  s2.each (s2.pil.jobs.filter (fun j => j.opcode == 0x52 && (match j.phase with | .running => true | _ => false)))
    (fun j t => finishJob j.id stOk [w32 t.wak.lost] t)

/-- Whether drain has a unit to copy: a whole one, or in a flush what is left (R372, R376). -/
def State.drainWants (s : State) : Bool :=
  (s.computeActive || s.wak.flushUntil.isSome) && s.wakQueued != 0 &&
    (decide (64 ≤ s.wakQueued) || s.wak.flushUntil.isSome || (s.wak.flushing && s.wak.queue.isEmpty))

/-- Drain copies one 64-byte unit when room allows; a flush pads its last unit (R372). -/
def drainUnit (s : State) : State :=
  if s.computeActive = false ∧ s.wak.flushUntil = none then s
  else if s.drainWants = false then wakLeave s
  else if s.dstRoom = false then s
  else
    let s1 := wakLeave (drainOne s)
    if s1.wak.flushing = true ∧ s1.wakQueued = 0 ∧ s1.wak.queue = [] then sessionEnd s1 else s1

/-- Each µs during which drain cannot write is counted (R372): 1,250 cycles of DAT_CLK. -/
def wakStall (s : State) : State :=
  if s.drainWants && !s.dstRoom then
    match s.wak.stall with
    | none => s.modWak (fun w => { w with stall := some s.dat.edges })
    | some f => if f + 1250 ≤ s.dat.edges then (s.modWak (fun w => { w with stall := some (f + 1250) })).inc WAK_DST_STALL 1 else s
  else if s.wak.stall.isSome then s.modWak (fun w => { w with stall := none })
  else s

/-- Copy units until the queue is empty or the ring is full. -/
def drainUnits : Nat → State → State
  | 0, s => s
  | n + 1, s => if s.wakQueued = 0 ∨ s.dstRoom = false then s else drainUnits n (drainOne s)

/-- The flush before a power state, as far as the ring has room; an emptied queue releases leave (R374, R376). -/
def drainAll (s : State) : State := wakLeave (drainUnits (s.wakQueued / 64 + 1) s)

/-! ### Capture modes (R370) -/

/-- Put the capture mode. -/
def setCapture (m : Nat) (s : State) : State := s.setF WAK_STATUS 13 2 m

/-- The mode in which Wake waits for a START: PRE where there is a pre region. -/
def State.restMode (s : State) : Nat := if 0 < s.getF WAK_CTL 28 4 then 2 else 1

/-- The pre region from its oldest SYNC onward. -/
def preSegment (ps : List WakPkt) : List Byte := (ps.dropWhile (fun p => !p.sync)).flatMap (·.bytes)

/-- A START action (R370). -/
def captureStart (source : Nat) (s : State) : State :=
  if s.capture = 1 ∨ s.capture = 2 then wakEnqueue 0 true (.start source) (setCapture 3 s) else s

/-- A STOP action (R370). -/
def captureStop (source : Nat) (s : State) : State :=
  if s.capture = 3 then
    let s1 := setCapture s.restMode (wakPut true 0xB source [] s)
    if s1.capture = 2 then wakSyncTo false 2 s1 else s1
  else s

/-! ### The state machine (R366 to R369) -/

/-- Whether an event is of a kind and parameter (R368). -/
def WakEv.isOf (e : WakEv) (kind param : Nat) : Bool :=
  match e with
  | .range k => kind == 1 && param % 16 == k
  | .cnt c => kind == 2 && param % 4 == c
  | .cad p => kind == 3 || (kind == 4 && param == p)
  | .trigger c => kind == 5 && (bit param 8 || param % 256 == c)
  | .timer t => kind == 6 && param % 2 == t
  | .beat n => kind == 7 && param % 8 == n
  | .host c => kind == 8 && (bit param 8 || param % 256 == c)
  | .always => kind == 9

/-- Whether a counter has an event to count: a kind from 1 to 8 other than 2 (R369). -/
def State.cntOn (s : State) (c : Nat) : Bool :=
  let kind := s.getF (WAK_CNT_CFG c) 28 4
  decide (1 ≤ kind) && decide (kind ≤ 8) && kind != 2

/-- A counter takes the events of a cycle; answers whether it reached LIMIT. What comes after in the same cycle counts from 0 (R369). -/
def wakCount (c : Nat) (evs : List WakEv) (s : State) : Bool × State :=
  let kind := s.getF (WAK_CNT_CFG c) 28 4
  let n := (evs.filter (fun e => e.isOf kind (s.getF (WAK_CNT_CFG c) 16 12))).length
  let v := s.rd (WAK_CNT_VAL c) + n
  if n = 0 ∨ s.cntOn c = false then (false, s)
  else if s.rd (WAK_CNT_LIMIT c) ≤ v then (true, s.wr (WAK_CNT_VAL c) (v % s.rd (WAK_CNT_LIMIT c)))
  else (false, s.wr (WAK_CNT_VAL c) v)

/-- All four counters take the events of a cycle; the CNT events raised. -/
def wakCounters (evs : List WakEv) (s : State) : List WakEv × State :=
  (List.range 4).foldl
    (fun (r : List WakEv × State) c => let (hit, t) := wakCount c evs r.2; (if hit then r.1 ++ [.cnt c] else r.1, t)) ([], s)

/-- ARM_STOP arms the lowest-numbered free slot for the present time plus STOP_DLY (R83, R367). -/
def armStop (s : State) : State :=
  match (List.range 4).find? (fun m => !(s.getB (DAT_STOP_CTL m) 0) && !(s.getB (DAT_STOP_CTL m) 1)) with
  | none => (s.inc WAK_ACT_FAIL 1).evt WAK_EVT 7
  | some m =>
    (s.wrTime (DAT_STOP_SUB m) (DAT_STOP_SEC m) (clockAdd s.now (nsU (s.getF WAK_CTL2 0 24 * 100) : Nat))).putB (DAT_STOP_CTL m) 0 true

/-- A state is entered: its timers restart (R369). -/
def enterState (n : Nat) (s : State) : State :=
  let on := (List.range 2).filter (fun t => s.getB (WAK_SM_CFG n) t)
  (s.setF WAK_STATUS 8 3 n).modWak (fun w => { w with
    fresh := true, timers := on.foldl (fun ts t => Tbl.set ts t (clockAdd s.now (nsU (s.getF (WAK_TMR_PER t) 0 24 * 1000) : Nat))) w.timers })

/-- Transition `i` of the present state fires (R366, R367). -/
def wakFire (i : Nat) (s : State) : State :=
  let old := s.wakState
  let w := s.rd (WAK_SM_TR old i)
  let s1 := if bit w 9 then wakWrite 4 0 (leBytes 4 (old * 4 + i)) s else s
  let s2 := if bit w 11 then captureStart 0 s1 else s1
  let s3 := if bit w 10 then captureStop 0 s2 else s2
  let s4 := if fld w 7 2 = 1 then s3.putB WAK_STATUS 12 true else if fld w 7 2 = 2 then s3.putB WAK_STATUS 12 false else s3
  let s5 := if bit w 6 then s4.evt WAK_EVT 0 else s4
  let s6 := if bit w 5 then armStop s5 else s5
  let next := fld w 12 3
  wakLeave (enterState next (wakWrite 5 next (leBytes 1 (old + i * 8)) s6))

/-- The first enabled transition of the present state whose event is among those of the cycle (R366). -/
def State.wakTrans (s : State) (evs : List WakEv) : Option Nat :=
  (List.range 4).find? (fun i =>
    let w := s.rd (WAK_SM_TR s.wakState i)
    bit w 15 && evs.any (fun e => e.isOf (fld w 28 4) (fld w 16 12)))

/-- One cycle of the machine with all its events, one of those that waited for the compute tier among them: at most one
transition fires (R366, R369, R377). -/
def wakMachine (s : State) : State :=
  let evs := s.wak.evs ++ (s.wak.held.take 1).map (fun e => e.2)
  let (cnts, s1) := wakCounters evs (s.modWak (fun w => { w with evs := [], held := w.held.drop 1 }))
  let all := evs ++ cnts ++ (if s1.wak.fresh then [.always] else [])
  let s2 := s1.modWak (fun w => { w with fresh := false })
  match s2.wakTrans all with
  | some i => wakFire i s2
  | none => s2

/-- Whether Wake runs: the compute tier is in ACTIVE, and no entry into a power state waits for the flush. -/
def State.wakRuns (s : State) : Bool := s.computeActive && s.wak.flushUntil.isNone

/-- Events of the present cycle (R368): the machine meets them together at its end. None occurs outside a session, or while the
compute tier is not in ACTIVE. -/
def wakEvents (es : List WakEv) (s : State) : State :=
  if s.capture = 0 ∨ s.wakRuns = false then s else s.modWak (fun w => { w with evs := w.evs ++ es })

/-- An event among those that wait, in time order. -/
def heldInsert (x : Nat × WakEv) : List (Nat × WakEv) → List (Nat × WakEv)
  | [] => [x]
  | y :: ys => if timeDiff x.1 y.1 < 0 then x :: y :: ys else y :: heldInsert x ys

/-- A TRIGGER or an expiry of a Datum time that Wake is to meet at the compute tier's return, in time order, one a cycle (R377). -/
def wakHold (time : Nat) (e : WakEv) (s : State) : State :=
  if s.capture = 0 then s else s.modWak (fun w => { w with held := heldInsert (time, e) w.held })

/-- A timer whose Datum time has come expires (R369); while the compute tier is away, that is presented at its return (R377). -/
def timerExpiry (t : Nat) (s : State) : State :=
  match Tbl.get? s.wak.timers t with
  | none => s
  | some e =>
    if timeDiff s.now e < 0 then s
    else
      let s1 := s.modWak (fun w => { w with timers := Tbl.erase w.timers t })
      if s.wakRuns then wakEvents [.timer t] s1 else wakHold e (.timer t) s1

/-- The timers whose Datum time has come expire (R369). -/
def timersDue (s : State) : State := s.each (List.range 2) timerExpiry

/-- A counter's event takes it to LIMIT: it raises CNT and restarts (R369). -/
def counterLimit (c : Nat) (s : State) : State :=
  if c < 4 ∧ s.capture ≠ 0 ∧ s.wakRuns = true ∧ s.cntOn c = true ∧ s.rd (WAK_CNT_LIMIT c) ≤ s.rd (WAK_CNT_VAL c) + 1 then
    wakEvents [.cnt c] (s.wr (WAK_CNT_VAL c) 0)
  else s

/-! ### Tap records (R356 to R363) -/

/-- Whether a comparator is hit by an access (R359). -/
def State.rangeHit (s : State) (k addr size : Nat) : Bool :=
  let b := s.rd (WAK_RNG_BASE k)
  let l := s.rd (WAK_RNG_LIMIT k)
  decide (b ≤ l) && decide (addr ≤ l) && decide (b ≤ addr + size - 1)

/-- The mode of a comparator: 1 include, 2 exclude. -/
def State.rangeMode (s : State) (k : Nat) : Nat := s.getF WAK_RNG_MODE (2 * k) 2

/-- Whether the engine passes a tap's mask (R359). -/
def State.tapEngine (s : State) (n eng : Nat) : Bool :=
  let m := s.getF (WAK_TAP_CFG n) 12 12
  (eng &&& m) == (s.getF (WAK_TAP_CFG n) 0 12 &&& m)

/-- Whether an access is excluded by its attributes (R361). -/
def State.secExcluded (s : State) (auth : Nat) (r : TapRecord) : Bool :=
  (r.sec && decide (auth < s.getF WAK_SEC 0 3)) || (r.priv && decide (auth < s.getF WAK_SEC 4 3))

/-- Zigzag of an address difference. -/
def zigzag64 (d : Nat) : Nat := if bit d 63 then 2 * (2 ^ 64 - d % 2 ^ 64) - 1 else 2 * (d % 2 ^ 64)

/-- Write the ACCESS packet of a data access (R363, R374). -/
def accessOut (post : Bool) (n stamp : Nat) (r : TapRecord) (s : State) : State :=
  let s0 := wakShedding s
  let want := s0.getF (WAK_TAP_CFG n) 26 2
  let shed := post && s0.wak.shedding && want != 0
  let val := if shed then 0 else want
  let last := Tbl.get? s0.wak.addr n
  let data := r.data.take r.size
  let value := if val = 1 then padTo 8 data else if val = 2 then padTo 16 data
    else if val = 3 then leBytes 4 (crc32c data) else []
  let flags := val * 64 + b2n last.isNone * 32 + b2n r.sec * 16 + b2n r.priv * 8 + b2n shed * 4
  let addr := match last with
    | none => leBytes 8 r.addr
    | some a => varint10 (zigzag64 ((r.addr + 2 ^ 64 - a) % 2 ^ 64))
  let body := leBytes 1 flags ++ leBytes 2 (r.engine % 4096) ++ varint10 r.size ++ addr ++ value
  let (ok, s1) := wakPlace post false 1 stamp (BitVec.ofNat 8 (0x10 + b2n r.write * 8 + n % 8) :: wakDelta stamp s0 ++ body) s0
  if ok then
    let s2 := s1.modWak (fun w => { w with addr := Tbl.set w.addr n r.addr })
    if shed then (s2.inc WAK_SHED 1).evt WAK_EVT 4 else s2
  else noteLoss 1 1 0 (s1.inc WAK_DROP 1)

/-- A record that is to be written enters its tap's FIFO of 64 entries, or is lost (R364, R375). Whether it is written, and in which
region, is known at the end of its cycle. -/
def tapStore (n : Nat) (body : WakBody) (s : State) : State :=
  if s.capture = 0 ∨ s.wakRuns = false then s
  else if 64 ≤ (s.wak.queue.filter (fun x => x.rank == n + 1)).length then
    let acc := match body with | .access _ _ => true | _ => false
    noteLoss 0 (b2n acc) (b2n (!acc)) ((s.inc WAK_FIFO_DROP 1).evt WAK_EVT 3)
  else wakEnqueue (n + 1) (s.capture == 3) body s

/-- A data access (R359, R361, R368). DESIGN CHOICE: the filters stand before the FIFO, so what they exclude takes no entry. -/
def tapAccess (n auth : Nat) (r : TapRecord) (s : State) : State :=
  if s.secExcluded auth r then s.inc WAK_SEC_EXCL 1
  else
    let cfg := s.rd (WAK_TAP_CFG n)
    let passes := bit cfg 31 && (if r.write then bit cfg 29 else bit cfg 30) && s.tapEngine n r.engine
    if passes = false then s
    else
      let hits := (List.range 16).filter (fun k => s.rangeHit k r.addr r.size)
      let excl := hits.any (fun k => s.rangeMode k == 2)
      let anyIncl := (List.range 16).any (fun k => s.rangeMode k == 1)
      let incl := hits.any (fun k => s.rangeMode k == 1)
      let s1 := wakEvents (hits.map .range) s
      if excl = false ∧ (anyIncl = false ∨ incl = true) then tapStore n (.access n r) s1 else s1

/-- An access tap presents a record, which is stamped in the present cycle (R356 to R361). -/
def tapRecord (n auth : Nat) (r : TapRecord) (s : State) : State :=
  if s.computeActive = false ∨ 8 ≤ n then s
  else if 2 < r.kind then s.inc WAK_FIFO_DROP 1
  else if r.kind = 0 then tapAccess n auth r s
  else if s.getB (WAK_TAP_CFG n) 31 && s.getB (WAK_TAP_CFG n) 28 && s.tapEngine n r.engine then
    if r.kind = 1 then tapStore n (.packet 6 n (leBytes 2 (r.engine % 4096) ++ leBytes 8 r.addr ++ padTo 2 r.data)) s
    else tapStore n (.packet 7 n (leBytes 2 (r.engine % 4096) ++ padTo 4 r.data)) s
  else s

/-! ### The merger (R364) -/

/-- An item is written. -/
def wakItemOut (x : WakItem) (s : State) : State :=
  match x.body with
  | .packet type low bytes => wakOut x.post type low x.stamp bytes s
  | .sync reason time info => wakSyncOut x.post reason time info x.stamp s
  | .start source =>
    wakOut true 0xA source x.stamp [] (s.modWak (fun w => { w with seg := w.seg ++ preSegment w.pre, pre := [] }))
  | .access n r => accessOut x.post n x.stamp r s

/-- An item that does not fit behind the LOSS packets that are due is dropped (R374, R375). -/
def wakItemLost (x : WakItem) (s : State) : State :=
  let acc := match x.body with
    | .packet type _ _ => type == 1
    | .access _ _ => true
    | _ => false
  let s1 := match x.body with
    | .start _ => s.modWak (fun w => { w with seg := w.seg ++ preSegment w.pre, pre := [] })
    | .sync _ time _ => s.modWak (fun w => { w with since := 0, syncAt := time })
    | _ => s
  noteLoss 1 (b2n acc) (b2n (!acc)) (s1.inc WAK_DROP 1)

/-- Whether LOSS packets that are due go before an item. DESIGN CHOICE: not before the SYNC of a power-up, since no DELTA spans a
power-down (R375, R377). -/
def WakItem.afterLoss (x : WakItem) : Bool := match x.body with | .sync 3 _ _ => false | _ => true

/-- The LOSS packets that are due, one of each reason. -/
def wakLossAll (post : Bool) (stamp : Nat) : Nat → State → State
  | 0, s => s
  | n + 1, s => wakLossAll post stamp n (wakLossOut post stamp s).2

/-- Whether an item is written if the LOSS packets that are due go before it (R374, R375). -/
def State.wakFits (s : State) (x : WakItem) : Bool :=
  let t := wakLossAll x.post x.stamp s.wak.loss.length s
  t.wak.loss.isEmpty && (wakItemOut x t).wak.pkts != t.wak.pkts

/-- The merger writes one packet: a LOSS that is due, where the first item is written after it, or else the first item (R364,
R375). -/
def wakMerge (s : State) : State :=
  match s.wak.queue with
  | [] => s
  | x :: xs =>
    let (done, s1) := if x.afterLoss && !s.wak.loss.isEmpty && s.wakFits x then wakLossOut x.post x.stamp s else (false, s)
    if done then s1
    else if x.afterLoss && !s.wak.loss.isEmpty then wakItemLost x (s1.modWak (fun w => { w with queue := xs }))
    else wakItemOut x (s1.modWak (fun w => { w with queue := xs }))

/-- The merger writes until nothing waits. -/
def wakMergeAll : Nat → State → State
  | 0, s => s
  | n + 1, s => if s.wak.queue.isEmpty then s else wakMergeAll n (wakMerge s)

/-- How many packets write everything that waits: each item, and a LOSS of each reason before it. -/
def State.wakBacklog (s : State) : Nat := 4 * s.wak.queue.length

/-- The records of the present cycle come after its internal events (R364): they go to the region of the mode in which the cycle ends,
and to none in HOLD and OFF (R370). -/
def wakRegions (s : State) : State :=
  let tap (x : WakItem) : Bool := x.stamp == s.dat.edges && x.rank != 0
  s.modWak (fun w => { w with queue :=
    (w.queue.filter (fun x => !(tap x) || s.capturing)).map (fun x => if tap x then { x with post := s.capture == 3 } else x) })

/-- A DAT_CLK cycle of Wake: the timers, the machine, the periodic SYNC, one packet of the merger (R364 to R366, R369). The timers
run in the base tier. -/
def wakTick (s0 : State) : State :=
  let s := wakAskAgain (wakStall (timersDue s0))
  if s.wakRuns = false then s
  else
    let s1 := if s.capture = 0 then s else wakMachine s
    let s2 := wakMerge (wakSyncDue (wakRegions s1))
    if s2.wak.flushing = true ∧ s2.wakQueued = 0 ∧ s2.wak.queue = [] then sessionEnd s2 else s2

/-! ### Marks and triggers (R378, R379) -/

/-- A TRIGGER ruling takes effect (R378). -/
def wakTrigger (code : Nat) (s : State) : State :=
  if s.wakRuns then wakEvents [.trigger code] (wakWrite 4 2 (leBytes 4 code) s) else wakHold s.now (.trigger code) s

/-- A TRIGGER whose time came while the compute tier was away takes effect at its return: its MARK, and its event among those that
wait (R256, R377, R378). -/
def wakLateTrigger (time code : Nat) (s : State) : State := wakHold time (.trigger code) (wakWrite 4 2 (leBytes 4 code) s)

/-- A MARK command with TRACE set (R379). -/
def wakMark (code : Nat) (time : List Byte) (s : State) : State :=
  if s.computeActive then wakWrite 4 1 (leBytes 4 code ++ time) s else s

/-! ### Power (R376, R377, R447, R555) -/

/-- A flush before a power state begins: the entry waits for it up to FLUSH_TMO (R376). -/
def flushBegin (s : State) : State :=
  s.modWak (fun w => { w with flushUntil := some (s.dat.edges + s.getF WAK_CTL 0 16 * 1250), stall := none })

/-- The compute tier is about to leave ACTIVE: POWER_DOWN is written after all that waits, once, and the post region flushed as far as
the destination has room (R376). -/
def wakPowerDown (sleep : Bool) (s : State) : State :=
  if s.wak.flushUntil.isSome then drainAll s
  else
    let s0 := s.modWak (fun w => { w with downAt := some s.now, downSleep := sleep, lostNow := 0 })
    if s0.capturing then
      let s1 := wakWrite 8 (b2n sleep) [] (wakRegions (wakMachine s0))
      drainAll (flushBegin (wakMergeAll s1.wakBacklog s1))
    else s0

/-- The way from DOZE to SLEEP: the post region kept is flushed (R555). -/
def wakDozeSleep (s : State) : State :=
  if s.wak.flushUntil.isSome then drainAll s
  else if s.capturing then drainAll (flushBegin s)
  else s

/-- Whether an entry into a power state still waits for Wake's flush (R376). -/
def State.flushWaits (s : State) : Bool :=
  s.wakQueued != 0 && s.wak.flushUntil.any (fun u => decide (s.dat.edges < u))

/-- The wait for the flush is over. -/
def flushEnd (s : State) : State := s.modWak (fun w => { w with flushUntil := none, stall := none })

/-- What was not drained is lost when the compute tier loses its state; the post bytes are counted as the accesses and other packets
that did not leave, those that waited for the merger among them (R362, R375, R376). -/
def wakLose (s : State) : State :=
  let n := s.wak.post.length
  let isAcc (x : WakItem) : Bool := match x.body with
    | .access _ _ => true
    | _ => false
  let waiting := s.wak.queue.filter (fun x => x.post)
  let acc := (s.wak.lens.filter (·.2)).length + (waiting.filter isAcc).length
  let all := s.wak.lens.length + waiting.length
  let s0 := if all ≠ 0 then noteLoss 2 acc (all - acc) s else s
  let s1 := s0.modWak (fun w => { w with pre := [], seg := [], post := [], lens := [], queue := [], evs := [], addr := [],
                                         shedding := false, lost := w.lost + n, lostNow := w.lostNow + n, downSleep := true,
                                         flushUntil := none, stall := none })
  (wakFill s1).inc WAK_PWR_LOST n

/-- The compute tier is back in ACTIVE: PRE resumes with an empty pre region; SYNC and POWER_UP; the events that waited follow, one per cycle (R377). -/
def wakPowerUp (s : State) : State :=
  let ns := match s.wak.downAt with
    | some t => ((timeDiff s.now t).toNat) / 2 ^ 32
    | none => 0
  let s0 := if s.capture = 2 then s.modWak (fun w => { w with pre := [] }) else s
  let s1 :=
    if s0.capturing then
      wakWrite 9 (b2n s.wak.downSleep)
        (leBytes 8 ns ++ leBytes 1 (b2n (0 < s.wak.lostNow)) ++ leBytes 4 s.wak.lostNow) (wakSync 3 s0)
    else s0
  s1.modWak (fun w => { w with downAt := none, lostNow := 0, downSleep := false })

/-- A session ends as under WAKE_DISARM: STOP if POST, END, then the flush (R370, R372). -/
def wakDisarm (s : State) : State :=
  if s.capture = 0 then s
  else
    let s1 := if s.capture = 3 then wakPut true 0xB 1 [] s else s
    let s2 := setCapture 0 (wakPut true 0xC 0 [] s1)
    s2.modWak (fun w => { w with flushing := true, timers := [], held := [], evs := [], askAt := none })

/-- A quiesced Wake: the session ends, and what was not drained is lost and counted (R447). -/
def wakQuiesce (s : State) : State :=
  let s1 := wakLose s
  if s1.wakArmed then sessionEnd (setCapture 0 (s1.modWak (fun w => { w with held := [] }))) else s1

/-! ### Commands (R380, R381) -/

/-- WAKE_CFG's check of one pair: the status it is refused with, if it is. -/
def wakPairBad (b : Build) (off v : Nat) : Option Nat :=
  let bad (p : Bool) : Option Nat := if p then some stBadParam else none
  if off = 0x04 then bad (fld v 24 4 == 0 || fld v 16 8 == 0 || fld v 0 16 == 0)
  else if off = 0x08 then bad (fld v 28 4 != 0)
  else if off = 0x0C then bad (fld v 11 21 != 0)
  else if off = 0x20 then bad (v % 4096 != 0)
  else if off = 0x24 then none
  else if off = 0x28 then (if v = 0 then some stBadLen else bad (decide (v < 16) || fld v 28 4 != 0))
  else if (off = 0x70 ∨ off = 0x74) ∧ b = .tray then none
  else if off = 0x78 ∧ b = .tray then (if v = 0 then some stBadLen else bad (fld v 28 4 != 0))
  else if 0x100 ≤ off ∧ off < 0x200 ∧ off % 4 = 0 then none
  else if off = 0x200 then bad ((List.range 16).any (fun k => fld v (2 * k) 2 == 3))
  else if 0x210 ≤ off ∧ off < 0x230 ∧ off % 4 = 0 then bad (fld v 24 2 != 0)
  else if 0x240 ≤ off ∧ off < 0x280 ∧ off % 16 = 0 then bad (fld v 28 4 == 0 || fld v 28 4 == 2 || decide (8 < fld v 28 4) || fld v 0 16 != 0)
  else if 0x240 ≤ off ∧ off < 0x280 ∧ off % 16 = 4 then bad (v == 0)
  else if off = 0x280 ∨ off = 0x284 then bad (v == 0 || fld v 24 8 != 0)
  else if 0x300 ≤ off ∧ off < 0x400 ∧ off % 0x20 = 0 then bad (fld v 2 30 != 0)
  else if 0x300 ≤ off ∧ off < 0x400 ∧ off % 4 = 0 ∧ off % 0x20 ≤ 0x10 then
    bad (decide (9 < fld v 28 4) || fld v 7 2 == 3 || fld v 0 5 != 0)
  else some stBadParam

/-- Write one half of a 64-bit register. -/
def putHalf (l : Loc) (hi : Bool) (v : Nat) (s : State) : State := s.setF l (if hi then 32 else 0) 32 v

/-- Write one pair of WAKE_CFG. -/
def wakPut1 (off v : Nat) (s : State) : State :=
  if off = 0x04 then s.wr WAK_CTL v
  else if off = 0x08 then s.wr WAK_CTL2 v
  else if off = 0x0C then s.wr WAK_PWR v
  else if off = 0x20 ∨ off = 0x24 then putHalf WAK_DST_BASE (off == 0x24) v s
  else if off = 0x28 then s.wr WAK_DST_SIZE v
  else if off = 0x70 ∨ off = 0x74 then putHalf WAK_XR_BASE (off == 0x74) v s
  else if off = 0x78 then s.wr WAK_XR_SIZE v
  else if off < 0x200 then
    let k := (off - 0x100) / 16
    if off % 16 < 8 then putHalf (WAK_RNG_BASE k) (off % 8 == 4) v s else putHalf (WAK_RNG_LIMIT k) (off % 8 == 4) v s
  else if off = 0x200 then s.wr WAK_RNG_MODE v
  else if off < 0x240 then s.wr (WAK_TAP_CFG ((off - 0x210) / 4)) v
  else if off < 0x280 then
    if off % 16 = 0 then s.wr (WAK_CNT_CFG ((off - 0x240) / 16)) v else s.wr (WAK_CNT_LIMIT ((off - 0x240) / 16)) v
  else if off < 0x300 then s.wr (WAK_TMR_PER ((off - 0x280) / 4)) v
  else if off % 0x20 = 0 then s.wr (WAK_SM_CFG ((off - 0x300) / 0x20)) v
  else s.wr (WAK_SM_TR ((off - 0x300) / 0x20) ((off % 0x20 - 4) / 4)) v

/-- WAKE_ARM (R366, R369 to R372, R381). -/
def wakArm (postNow : Bool) (s : State) : Nat × State :=
  let n := (s.getF WAK_STATUS 16 16 + 1) % 65536
  let s1 := (s.wr WAK_STATUS (n * 2 ^ 16 + 2 ^ 15)).wr WAK_DST_WR 0
  let s2 := (s1.wr WAK_DST_RD 0).modWak (fun w =>
    { w with pre := [], seg := [], post := [], lens := [], queue := [], evs := [], stamp := s.dat.edges, pkts := 0, since := 0,
             syncAt := s.now, addr := [], loss := [], shedding := false,
             timers := [], fresh := false, flushing := false, lost := 0, lostNow := 0, downAt := none, held := [], stall := none,
             askAt := none })
  let s3 := s2.each (List.range 4) (fun c t => t.wr (WAK_CNT_VAL c) 0)
  let m := if postNow then 3 else s3.restMode
  let s4 := wakSyncTo (m != 2) 1 (setCapture m s3)
  let s5 := if postNow then wakPut true 0xA 1 [] s4 else s4
  (n, enterState 0 s5)

/-- The runs of at most 65,536 bytes in which WAKE_SEND sends (R380). -/
def wakChunks : Nat → Nat → Nat → List (Nat × Nat)
  | 0, _, _ => []
  | k + 1, first, n => if n = 0 then [] else (first, min n 65536) :: wakChunks k (first + 65536) (n - 65536)

/-- Bytes of the destination ring by session count; none where a read fails. -/
def ringBytes (first n : Nat) (s : State) : Option (List Byte) × State :=
  let size := s.dstSize
  let o := first % size
  let base := s.rd WAK_DST_BASE
  if o + n ≤ size then loadBytes (base + o) n s
  else
    match loadBytes (base + o) (size - o) s with
    | (none, s1) => (none, s1)
    | (some a, s1) =>
      match loadBytes base (n - (size - o)) s1 with
      | (none, s2) => (none, s2)
      | (some b, s2) => (some (a ++ b), s2)

/-- WAKE_SEND (R380, R381). -/
def wakSend (first count : Nat) (s : State) : Option Nat × State :=
  let cs := wakChunks 257 first count
  let r := cs.foldl (fun (r : Bool × State) ch =>
    match ringBytes ch.1 ch.2 r.2 with
    | (some bs, t) =>
      (r.1, sendUp 5 0 (leBytes 1 1 ++ zeros 1 ++ leBytes 2 (t.getF WAK_STATUS 16 16) ++ leBytes 8 ch.1 ++ leBytes 4 ch.2 ++ bs) t)
    | (none, t) => (false, t)) (true, s)
  (if r.1 then some cs.length else none, r.2)

/-- A record of the excerpt ring is written (R380). -/
def excerptPut (r : List Byte) (s : State) : State :=
  let size := s.getF WAK_XR_SIZE 0 28 * 4096
  if size < (s.rd WAK_XR_WR + 2 ^ 64 - s.rd WAK_XR_RD) % 2 ^ 64 + r.length then s.inc WAK_XR_DROP 1
  else (storeRing (s.rd WAK_XR_BASE) size (s.rd WAK_XR_WR) r s).inc WAK_XR_WR r.length

/-- A trace or Logbook excerpt is written into the excerpt ring of a tray build (R380, R480); `bs` is the message's
payload without its CRC. -/
def excerptReceive (src : Nat) (bs : List Byte) (s : State) : State :=
  let kind := leAt bs 0 1
  if s.isTray = false ∨ (kind ≠ 1 ∧ kind ≠ 2) then s
  else
    let (session, off, body) :=
      if kind = 1 then (leAt bs 2 2, leAt bs 4 8, bs.drop 16) else (0xFFFF, leAt bs 4 4, bs.drop 12)
    let r0 := leBytes 4 src ++ leBytes 2 session ++ zeros 2 ++ leBytes 8 off ++ leBytes 4 body.length ++ zeros 4 ++ body
    let r := r0 ++ zeros ((8 - r0.length % 8) % 8)
    if s.ownWaits (.excerpt r) r.length then ownAsk (.excerpt r) r.length s else excerptPut r s

end Sys2Proof.Machine
end

