-- ==== Sys2Proof/Machine/Parcels.lean ====
section
/-! DEFINITION. Commands on parcels and rulings (R247 to R262), TMT_SWAP (R114), and the effect of a ruling with a Datum
time as its effective point (R256, R260). -/

namespace Sys2Proof

open Machine

/-- Two parameter words as an epoch, from word `i` (R205). -/
def Cmd.epoch (c : Cmd) (i : Nat) : Nat := c.w i + c.f (i + 1) 0 8 * 2 ^ 32

end Sys2Proof

namespace Sys2Proof.Machine

/-! ### Issuing for a command (R255, R257, R261) -/

/-- A command issues a ruling and replies with its counts once every acknowledgement is in (R261). -/
def rulingCmd (c : Cmd) (r : Ruling) (s : State) : Ans × State :=
  let no := s.rd RUL_NEXT
  let s1 := issueRuling (.job s.pil.nextJob) r s
  match s1.seen? s.station no with
  | some x => if x.acked then finished c stOk (rulingCounts x) s1 else (.started .waiting .plain, s1)
  | none => (.started .waiting .plain, s1)

/-- The level at which the instance issues (R252): of the role that holds the parcel, or of its highest role. -/
def State.issueLevel (s : State) (fleet : Bool) (parcel : Nat) : Nat :=
  if fleet then ([4, 3, 2].find? s.roleHeld).getD s.ownLevel
  else ((s.ctxHigh parcel).map (fun e => e.2.level)).getD s.ownLevel

/-! ### PARCEL_COMMIT, PARCEL_RELEASE, PARCEL_FREE, PARCEL_CFG (R240, R247 to R250, R560, R261) -/

/-- PARCEL_COMMIT (R247). -/
def parcelCommit (c : Cmd) (s : State) : Ans × State :=
  match c.time 2 with
  | none => ans stBadParam s
  | some t =>
    if timeDiff t s.now < (s.ruleLead : Nat) then ans stTooLate s
    else
      match s.ctxHigh c.parcel, s.ctxPub c.parcel with
      | none, _ => ans stAbsent s
      | some _, none => ans stBadParam s
      | some _, some (n, x) =>
        if x.phase ≠ .reserved then ans stBadParam s
        else if x.resvOk = false then ans stBusyContext (refuseAsker x.asker c.parcel stBusyContext (freeParcel n false s))
        else
          rulingCmd c { no := 0, kind := 8, atEpoch := false, fleet := false, effect := t, issuer := 0, level := x.level,
                        parcel := c.parcel, body := [] } s

/-- PARCEL_RELEASE (R249). -/
def parcelRelease (c : Cmd) (s : State) : Ans × State :=
  match s.ctxHigh c.parcel, s.ctxPub c.parcel with
  | none, _ => ans stAbsent s
  | some _, none => ans stBadParam s
  | some _, some (n, x) =>
    if x.phase = .releasing ∨ x.phase = .draining then ans stBadParam s
    else if x.phase = .reserved then
      finished c stOk [0#32, 0#32, 0#32, 0#32] (refuseAsker x.asker c.parcel stBusyContext (freeParcel n false s))
    else
      let r : Ruling := { no := 0, kind := 9, atEpoch := true, fleet := false, effect := c.epoch 2, issuer := 0,
                          level := x.level, parcel := c.parcel, body := [] }
      if s.leadShort r then ans stTooLate s else rulingCmd c r s

/-- PARCEL_FREE (R240, R560): on the highest role at which the instance holds the parcel. -/
def parcelFree (c : Cmd) (s : State) : Ans × State :=
  match s.ctxHigh c.parcel with
  | none => ans stAbsent s
  | some (n, x) =>
    let force := bit (c.w 2) 0
    if x.isLive ∧ force = false then ans stBusyContext s else ans stOk (freeParcel n force s)

/-- PARCEL_CFG (R261, R263). -/
def parcelCfg (c : Cmd) (s : State) : Ans × State :=
  let bad := c.f 2 16 16 == 0 || c.f 2 10 6 != 0 || c.f 2 0 10 == 0 || c.f 3 24 8 != 0 || decide (c.f 3 0 24 < 10) ||
    decide (10000000 < c.f 3 0 24)
  if bad then ans stBadParam s else ans stOk ((s.wr PAR_CTL (c.w 2)).wr RUL_LEAD (c.w 3))

/-! ### RULING_ISSUE (R254, R257, R261) -/

/-- Kinds that RULING_ISSUE issues. -/
def kindIssued (k : Nat) : Bool := decide (1 ≤ k) && decide (k ≤ 6)

/-- The ruling a RULING_ISSUE command spells, its time none where malformed (R57). -/
def rulingOfCmd (c : Cmd) (s : State) : Option Ruling :=
  let ep := bit (c.w 2) 8
  let fleet := bit (c.w 2) 9
  (if ep then some (c.epoch 3) else c.time 3).map (fun e =>
    { no := 0, kind := c.f 2 0 8, atEpoch := ep, fleet := fleet, effect := e, issuer := 0, level := s.issueLevel fleet c.parcel,
      parcel := c.parcel, body := wordsBytes (c.params.drop 5) })

/-- Whether RULING_ISSUE's parameters are refused (R261). -/
def rulingCmdBad (c : Cmd) (s : State) : Bool :=
  let k := c.f 2 0 8
  let ep := bit (c.w 2) 8
  let fleet := bit (c.w 2) 9
  let b := c.f 6 0 10
  !kindIssued k || (fleet && ep) || (fleet && !kindFleet k) || ep != kindEpoch k || (b == 0) != (k == 3) || decide (1016 < b) ||
    (!fleet && (s.ctxHigh c.parcel).isNone)

/-- A bar among those to come, behind all of its effective epoch and of earlier ones (R256). -/
def insertBar (b : Nat × Nat × Nat) : List (Nat × Nat × Nat) → List (Nat × Nat × Nat)
  | [] => [b]
  | x :: xs => if b.1 < x.1 then b :: x :: xs else x :: insertBar b xs

/-- A BAR issued at the publishing node sets its extremes bars from the record of its effective epoch (R341). -/
def noteExtBars (r : Ruling) (s : State) : State :=
  match s.ctxPub r.parcel with
  | none => s
  | some (n, _) =>
    s.modCtx n (fun x =>
      let bars := (barEntries r.body).foldl (fun t e => insertBar (r.effect, e.1, e.2) t) x.extPend
      { x with extPend := bars })

/-- RULING_ISSUE. -/
def rulingIssue (c : Cmd) (s : State) : Ans × State :=
  if rulingCmdBad c s then ans stBadParam s
  else
    match rulingOfCmd c s with
    | none => ans stBadParam s
    | some r =>
      if s.leadShort r then ans stTooLate s
      else rulingCmd c r (if r.kind = 1 ∧ s.bodyBad r = false then noteExtBars r s else s)

/-! ### STOP_AT, STOP_DISARM (R258, R259) -/

/-- STOP_AT (R258). -/
def stopAt (c : Cmd) (s : State) : Ans × State :=
  match c.time 2 with
  | none => ans stBadParam s
  | some t =>
    if timeDiff t s.now < (microU : Nat) then ans stTooLate s
    else
      match s.freeStop with
      | none => ans stNoSpace s
      | some m => ansWith [w32 m] (armStopSlot m t s)

/-- STOP_DISARM (R259). -/
def stopDisarm (c : Cmd) (s : State) : Ans × State :=
  let ms := (setBits 4 (c.w 2)).filter (fun m => s.getB (DAT_STOP_CTL m) 0)
  ansWith [w32 (maskOf ms)] (s.each ms (fun m t => t.wr (DAT_STOP_CTL m) 0))

/-! ### TMT_SWAP (R114, R128) -/

/-- The first cycle that begins at or after a time (R93). -/
def cycleFrom (t : Nat) : Nat := if cycleTime (cycleOf t) < t then cycleOf t + 1 else cycleOf t

/-- TMT_SWAP (R114). The ruling concerns no parcel (R102). Only lists that a TMT_LOAD has brought count as loaded: the default lists
do not (DESIGN CHOICE, log 106). -/
def tmtSwapCmd (c : Cmd) (s : State) : Ans × State :=
  let ch := c.f 5 0 1
  match c.time 2 with
  | none => ans stBadParam s
  | some t =>
    let got (d : Nat) : Bool := (Tbl.get? (s.chain ch).adminGot d).isSome
    if timeDiff t s.now < (cycleTime 64 : Nat) then ans stTooLate s
    else if got 0 = false ∨ got 1 = false then ans stBadParam s
    else if ackedAll s ch 0 = false ∨ ackedAll s ch 1 = false then ans stTimeout s
    else
      let k := cycleFrom t
      let r : Ruling := { no := 0, kind := 7, atEpoch := false, fleet := true, effect := cycleTime k % clockMod, issuer := 0,
                          level := 1, parcel := 0, body := leBytes 2 (s.getF (TMT_VER ch) 16 16) ++ leBytes 5 k ++ zeros 1, chain := ch }
      (.started .waiting (.nums [ch, k]), issueRuling .nobody r s)

/-- The swap of a chain's lists takes place: its command has its final reply (R128). -/
def swapJobs (ch cyc : Nat) (s : State) : State :=
  s.each s.pil.jobs (fun j t =>
    match j.opcode, j.phase, j.data with
    | 0xC5, .waiting, .nums [c, k] => if c = ch ∧ cycReached k cyc = true then finishJob j.id stOk [w32 k, w32 (k / 2 ^ 32)] t else t
    | _, _, _ => t)

/-! ### Rulings with a Datum time (R256, R258, R260) -/

/-- What a packet of a WITNESS_PUSH does is Witness's; the rest of a timed ruling's effect (R256, R260). -/
def timedRuling (push : List Byte → State → State) (r : Ruling) (s : State) : State :=
  let s1 := (dropPend (fun x => x == r) s).inc RUL_APPLIED 1
  if r.kind = 2 then (if s.stopConcerns r then wakTrigger (leAt r.body 0 1) s1 else s1)
  else if r.kind = 6 then (if s.stopConcerns r then push r.body s1 else s1)
  else s1

/-- Whether a ruling's unit lies in the compute tier, so that it waits for ACTIVE (R256): all that are held do. -/
def State.rulingDue (s : State) (r : Ruling) : Bool :=
  s.computeActive &&
    (if r.atEpoch then (match s.ctxLow r.parcel with | some (_, c) => decide (r.effect < c.next) | none => false) else true)

/-- Whether a time-effective ruling is applied before another whose point has come: its time lies before it, or is the same and R256's
order puts it first (R84, R256). -/
def Ruling.ahead (r x : Ruling) : Bool :=
  !x.atEpoch && (decide (timeDiff x.effect r.effect < 0) || (x.effect == r.effect && x.before r))

/-- Whether ruling `a` comes before `b` in the order of a forward step: by effective time, then by R256 (R84). -/
def Ruling.sooner (a b : Ruling) : Bool := if a.effect = b.effect then a.before b else decide (timeDiff a.effect b.effect < 0)

/-- Put a ruling in the order of time. -/
def insertTimed (r : Ruling) : List Ruling → List Ruling
  | [] => [r]
  | x :: xs => if r.sooner x then r :: x :: xs else x :: insertTimed r xs

/-- RULING_EFFECT: a held ruling's effective point has come, and with it that of every time-effective one before it, which are applied
first in their order (R84, R256). -/
def rulingEffect (push : List Byte → State → State) (issuer no : Nat) (s : State) : State :=
  match s.par.pend.find? (fun r => r.issuer == issuer && r.no == no) with
  | none => s
  | some r =>
    if s.rulingDue r = false then s
    else if r.atEpoch then epochRuling r s
    else s.each ((s.par.pend.filter (fun x => r.ahead x)).foldr insertTimed [] ++ [r]) (timedRuling push)

/-- A time-effective ruling whose point passed while the compute tier was away takes effect at its return (R256, R377). -/
def lateRuling (push : List Byte → State → State) (r : Ruling) (s : State) : State :=
  if r.kind = 2 then
    let s1 := (dropPend (fun x => x == r) s).inc RUL_APPLIED 1
    if s.stopConcerns r then wakLateTrigger r.effect (leAt r.body 0 1) s1 else s1
  else timedRuling push r s

/-- The effective point of a ruling as a Datum time: its own time, or the start boundary of its epoch (R256). -/
def State.pointOf (s : State) (r : Ruling) : Nat :=
  if r.atEpoch then ((s.ctxLow r.parcel).map (fun e => e.2.boundary r.effect)).getD 0 else r.effect

/-- Rulings whose point passed while their unit was powered off take effect at the return to ACTIVE, in order (R256). -/
def deferredRulings (push : List Byte → State → State) (s : State) : State :=
  let passed (r : Ruling) : Bool := s.rulingDue r && (r.atEpoch || decide (timeDiff r.effect s.now ≤ 0))
  s.each (sortPoints s.pointOf (s.par.pend.filter passed)) (fun r t => if r.atEpoch then epochRuling r t else lateRuling push r t)

/-! ### The opcode table's rows (R261) -/

/-- PARCEL_DEFINE. -/
def opParcelDefine : OpInfo := ⟨0x10, 2, .both, false, false, lenCount 3 (fun ps => fld (wAt ps 1) 0 10) 0 510 (fun n => 4 + 2 * n)⟩
/-- PARCEL_RESERVE. -/
def opParcelReserve : OpInfo := ⟨0x11, 2, .both, false, true, lenIs 4⟩
/-- PARCEL_COMMIT. -/
def opParcelCommit : OpInfo := ⟨0x12, 2, .both, false, true, lenIs 5⟩
/-- PARCEL_RELEASE. -/
def opParcelRelease : OpInfo := ⟨0x13, 2, .both, false, true, lenIs 4⟩
/-- PARCEL_FREE. -/
def opParcelFree : OpInfo := ⟨0x14, 2, .both, false, false, lenIs 3⟩
/-- PARCEL_CFG. -/
def opParcelCfg : OpInfo := ⟨0x15, 2, .both, false, false, lenIs 4⟩
/-- RULING_ISSUE: OPERATE for BAR and TRIGGER, CONFIGURE otherwise. -/
def opRulingIssue (c : Cmd) : OpInfo :=
  ⟨0x80, if c.f 2 0 8 = 1 ∨ c.f 2 0 8 = 2 then 1 else 2, .both, false, true,
   lenCount 6 (fun ps => fld (wAt ps 4) 0 10) 0 1016 (fun b => 7 + b)⟩
/-- STOP_AT. -/
def opStopAt : OpInfo := ⟨0x81, 2, .both, false, false, lenIs 5⟩
/-- STOP_DISARM. -/
def opStopDisarm : OpInfo := ⟨0x82, 2, .both, false, false, lenIs 3⟩

end Sys2Proof.Machine
end

