-- ==== Sys2Proof/Machine/EpochCmds.lean ====
section
/-! DEFINITION. Commands on epochs, Tally and verdicts (R205, R237, R353). -/

namespace Sys2Proof.Machine

/-! ### EPOCH_READ (R205) -/

/-- Which context number keeps what an EPOCH_READ or CLOSURE_PULL names, of a parcel held now or before (R195). -/
def State.keepsOf (s : State) (parcel : Nat) : List (Nat × Keep) := s.par.keeps.filter (fun e => e.2.parcel == parcel)

/-- What a read of a source finds: its STATE, and the bytes where they are available (R205). -/
def keepState (live : Bool) (x : Keep) (k : Nat) : Nat × List Byte :=
  match Tbl.get? x.items k with
  | some bs => (0, bs)
  | none => if live && x.last.all (fun l => decide (l < k)) then (1, []) else (2, [])

/-- Of what is kept of a released parcel, that of the lowest level (R205). -/
def lowestKeep (ks : List (Nat × Keep)) : Option (Nat × Keep) :=
  ks.foldl (fun best e => match best with
    | some b => if e.2.level < b.2.level then some e else some b
    | none => some e) none

/-- The STATE and bytes of an EPOCH_READ (R205). -/
def State.epochItem (s : State) (parcel k source level : Nat) : Nat × List Byte :=
  let ks := s.keepsOf parcel
  match s.ctxLow parcel with
  | some (low, _) =>
    if source = 0 then
      match s.ctxPub parcel with
      | none => (2, [])
      | some (n, _) => (match s.keep? n with | some x => keepState true x k | none => (1, []))
    else
      match if level = 0 then some low else (s.ctxAt parcel level).map (·.1) with
      | none => (3, [])
      | some n =>
        if ((s.ctx? n).map (·.pub)).getD false then (2, [])
        else (match s.keep? n with | some x => keepState true x k | none => (1, []))
  | none =>
    if ks.isEmpty then (3, [])
    else if source = 0 then
      match ks.find? (fun e => e.2.pub) with
      | some e => keepState false e.2 k
      | none => (2, [])
    else
      match if level = 0 then lowestKeep ks else ks.find? (fun e => e.2.level == level) with
      | some e => if e.2.pub then (2, []) else keepState false e.2 k
      | none => (3, [])

/-- EPOCH_READ. -/
def epochRead (c : Cmd) (s : State) : Ans × State :=
  let off := c.w 4
  let cnt := c.f 5 0 13
  let (st0, bs0) := s.epochItem c.parcel (c.epoch 2) (c.f 5 16 1) (c.f 5 17 3)
  if st0 = 0 ∧ s.holdAsks (min cnt (bs0.length - off)) = true ∧ off % 4 = 0 ∧ cnt % 4 = 0 ∧ cnt ≤ 4080 ∧ off < bs0.length then holdWait s
  else
  let (ok, s1) := if st0 = 0 then keptReads s else (true, s)
  let (st, bs) := if ok then (st0, bs0) else (2, [])
  if off % 4 ≠ 0 ∨ cnt % 4 ≠ 0 ∨ 4080 < cnt ∨ (st = 0 ∧ bs.length ≤ off) then ans stBadParam s
  else ansWith ([w32 st, w32 bs.length] ++ bytesWords (slice bs off cnt)) s1

/-! ### DEADLINE_SET, STRICT_SET (R182, R196) -/

/-- DEADLINE_SET (R182, R205). -/
def deadlineSet (c : Cmd) (s : State) : Ans × State :=
  let l := c.f 2 0 3
  let lo := c.w 3
  let hi := c.w 4
  if l < 1 ∨ 4 < l ∨ lo = 0 ∨ c.w 5 = 0 ∨ hi < lo then ans stBadParam s
  else
    let s1 := ((s.wr (EPO_DL_FLOOR l) lo).wr (EPO_DL_CEIL l) hi).wr (EPO_DL_MARGIN l) (c.w 5)
    ans stOk (s1.each (s1.par.ctxs.filter (fun e => e.2.level == l)) (fun e t =>
      t.modCtx e.1 (fun x => { x with dl := min (max x.dl lo) hi })))

/-- STRICT_SET (R196). -/
def strictSet (c : Cmd) (s : State) : Ans × State :=
  if s.anyCtx then ans stBusyContext s else ans stOk (s.wr EPO_CTL (c.f 2 0 1))

/-! ### ABSENT_DECLARE, CLOSURE_PULL (R183, R198, R205) -/

/-- ABSENT_DECLARE. -/
def absentDeclare (c : Cmd) (s : State) : Ans × State :=
  let st := c.f 4 0 20
  let cnt := c.f 5 0 16
  if (s.ctxsOf c.parcel).isEmpty then ans stAbsent s
  else
    match (s.ctxsOf c.parcel).find? (fun e => e.2.kids.any (fun x => x.station == st)) with
    | none => ans stBadParam s
    | some (n, _) =>
      let (d, s1) := declareAbsent n st (c.epoch 2) cnt s
      ansWith [w32 d, w32 (cnt - d)] s1

/-- The context that a CLOSURE_PULL names (R205). -/
def State.pulledCtx (s : State) (c : Cmd) : Option (Nat × Ctx) :=
  let level := c.f 4 8 3
  if level ≠ 0 then s.ctxAt c.parcel level
  else
    let mine := match c.src with
      | .remote _ origin _ => (s.ctxsOf c.parcel).find? (fun e => e.2.parent == origin && !e.2.pub)
      | .aperture _ => none
    if mine.isSome then mine else s.ctxLow c.parcel

/-- CLOSURE_PULL: refused where the first epoch is kept no longer, not where it is still to be sent (R205). A context that publishes
keeps no closure. DEDUCED (log 146): with a count of 0 it answers OK whatever is kept. -/
def closurePull (c : Cmd) (s : State) : Ans × State :=
  let first := c.epoch 2
  let cnt := c.f 4 0 5
  match s.pulledCtx c with
  | none => ans stAbsent s
  | some (n, x) =>
    let kept := !x.pub && (x.unsent first || ((s.keep? n).bind (fun y => Tbl.get? y.items first)).isSome)
    if cnt ≠ 0 ∧ kept = false then ans stAbsent s
    else if 16 < cnt then ans stBadParam s
    else
      let r := (List.range cnt).foldl (fun (a : Nat × State) i =>
        let (m, t) := resendOne n x (first + i) a.2
        (a.1 + m, t)) (0, s)
      ansWith [w32 r.1] r.2

/-! ### Tally (R237) -/

/-- The entries of a VOTE_RAISE: suspect and count. -/
def voteEnts (c : Cmd) : List (Nat × Nat) := (List.range (c.f 2 0 5)).map (fun i => (c.w (3 + 2 * i), c.f (4 + 2 * i) 0 24))

/-- VOTE_RAISE (R237): into the epoch in progress, all entries or none. -/
def voteRaise (c : Cmd) (s : State) : Ans × State :=
  let es := voteEnts c
  if 16 < c.f 2 0 5 ∨ es.any (fun e => !stNames (e.1 / 4096)) = true then ans stBadParam s
  else
    match s.ctxLow c.parcel with
    | none => ans stAbsent s
    | some (n, x) =>
      match x.committed, x.current with
      | true, some e =>
        let live := es.filter (fun v => v.2 != 0)
        let fresh := (live.map (fun v => voteKey v.1 5)).eraseDups.filter (fun k => !e.votes.own.contains k)
        if 64 < (e.votes.own.filter (fun k => keyKind k == 5)).length + fresh.length then ans stNoSpace s
        else ans stOk (s.each live (fun v t => (raiseVote n e.k 5 v.1 v.2 t).2))
      | true, none => ans stOk s
      | false, _ => ans stAbsent s

/-- TALLY_SET (R237, R239). -/
def tallySet (c : Cmd) (s : State) : Ans × State :=
  if c.f 2 17 15 ≠ 0 ∨ c.f 2 0 16 < 10 ∨ 10000 < c.f 2 0 16 then ans stBadParam s else ans stOk (s.wr TAL_CTL (c.w 2))

/-! ### Verdicts (R353, R355) -/

/-- VERDICT_SET. -/
def verdictSet (c : Cmd) (s : State) : Ans × State :=
  match s.ctxHigh c.parcel, s.ctxPub c.parcel with
  | none, _ => ans stAbsent s
  | some _, none => ans stBadParam s
  | some _, some (n, _) =>
    let bad := c.f 2 24 8 == 0 || decide (c.f 2 16 8 < 2) || c.f 2 0 16 == 0 || c.f 3 24 8 == 0 || c.f 3 16 8 == 0 ||
      c.f 3 8 8 == 0 || c.f 3 0 8 == 0 || c.f 4 16 16 == 0 || c.f 4 2 14 != 0
    if bad then ans stBadParam s
    else ans stOk (((s.wr (EPO_VRD_CFG0 n) (c.w 2)).wr (EPO_VRD_CFG1 n) (c.w 3)).wr (EPO_VRD_CFG2 n) (c.w 4))

/-- VERDICT_READ. -/
def verdictReadCmd (c : Cmd) (s : State) : Ans × State :=
  if 63 < c.w 3 then ans stBadParam s else ansWith (verdictRead (c.w 2) (c.f 3 0 6) s) s

/-- VERDICT_SINK. -/
def verdictSink (c : Cmd) (s : State) : Ans × State :=
  if c.f 2 16 16 = 0 then ans stBadParam s
  else
    let s1 := s.wr EPO_VRD_CTL (c.f 2 16 16 * 2 ^ 16 + c.f 2 0 1)
    ans stOk { s1 with lnd := { s1.lnd with sinkIp := c.ip 3 } }

/-! ### Rows of the opcode table -/

/-- EPOCH_READ. -/
def opEpochRead : OpInfo := ⟨0x18, 0, .both, false, false, lenIs 6⟩
/-- DEADLINE_SET. -/
def opDeadlineSet : OpInfo := ⟨0x19, 2, .trayOnly, false, false, lenIs 6⟩
/-- STRICT_SET. -/
def opStrictSet : OpInfo := ⟨0x1A, 2, .both, false, false, lenIs 3⟩
/-- ABSENT_DECLARE. -/
def opAbsentDeclare : OpInfo := ⟨0x1B, 1, .trayOnly, false, false, lenIs 6⟩
/-- CLOSURE_PULL. -/
def opClosurePull : OpInfo := ⟨0x1C, 1, .both, false, false, lenIs 5⟩
/-- VOTE_RAISE. -/
def opVoteRaise : OpInfo := ⟨0x1D, 1, .both, true, false, lenCount 2 (fun ps => fld (wAt ps 0) 0 5) 0 16 (fun n => 3 + 2 * n)⟩
/-- TALLY_SET. -/
def opTallySet : OpInfo := ⟨0x1E, 2, .both, true, false, lenIs 3⟩
/-- VERDICT_SET. -/
def opVerdictSet : OpInfo := ⟨0x16, 2, .both, false, false, lenIs 5⟩
/-- VERDICT_READ. -/
def opVerdictRead : OpInfo := ⟨0x17, 0, .both, false, false, lenIs 4⟩
/-- VERDICT_SINK. -/
def opVerdictSink : OpInfo := ⟨0x1F, 2, .trayOnly, false, false, lenIs 7⟩

end Sys2Proof.Machine
end

