-- ==== Sys2Proof/Machine/Transcend.lean ====
section
/-! DEFINITION. Exponentials and logarithms rounded correctly to binary32 (R280, R281). Numbers stand in fixed point with
512 fraction bits; what is computed lies within 2⁻⁴⁰⁰ of the mathematical value, and no result but the exact ones treated
apart lies nearer than that to a boundary of rounding (DEDUCED). -/

namespace Sys2Proof.Machine

/-- One, in fixed point. -/
def fixOne : Nat := 2 ^ 512

/-- Terms of the exponential series from the `k`-th, `t` being that term. -/
def expTerms : Nat → Nat → Nat → Nat → Nat
  | 0, _, t, _ => t
  | n + 1, k, t, r => t + expTerms n (k + 1) (t * r / (fixOne * (k + 1))) r

/-- Square `n` times. -/
def fixSquares : Nat → Nat → Nat
  | 0, v => v
  | n + 1, v => fixSquares n (v * v / fixOne)

/-- `e ^ (r / 2⁵¹²)` for `r` below 128 in fixed point. -/
def fixExp (r : Nat) : Nat := fixSquares 10 (expTerms 96 0 fixOne (r / 2 ^ 10))

/-- Terms of the series of the inverse hyperbolic tangent: `t` is an odd power of `z`, `z2` its square. -/
def atanhTerms : Nat → Nat → Nat → Nat → Nat
  | 0, _, _, _ => 0
  | n + 1, k, t, z2 => t / k + atanhTerms n (k + 2) (t * z2 / fixOne) z2

/-- The logarithm of `(1 + z) / (1 − z)`, for `z` in fixed point up to 1/3. -/
def fixAtanh2 (z : Nat) : Nat := 2 * atanhTerms 176 1 z (z * z / fixOne)

/-- The logarithm of 2. -/
def fixLn2 : Nat := fixAtanh2 (fixOne / 3)

/-- The natural logarithm of `m ≥ 1`. -/
def fixLn (m : Nat) : Nat :=
  let k := m.log2
  k * fixLn2 + fixAtanh2 ((m - 2 ^ k) * fixOne / (m + 2 ^ k))

/-- The Euler–Mascheroni constant. -/
def fixGamma : Nat :=
  0x93c467e37db0c7a4d1be3f810152cb56a1cecc3af65cc0190c03df34709affbd8e4b59fa03a9f0eed0649ccb621057d11056ae9132135a08e43b4673d74bafea

/-- Units of a finite binary32 magnitude in fixed point. -/
def fixMag (b : Nat) : Nat := f32Mag b * 2 ^ 363

/-- 105, past which `e⁻ˣ` rounds to zero. -/
def fixLimit : Nat := 105 * fixOne

/-- The correctly rounded `eˣ` of a binary32 (R280). -/
def f32ExpOf (b : Nat) : Nat :=
  if f32IsNan b then f32QNan
  else if f32IsInf b then (if f32Neg b then 0 else 0x7F800000)
  else
    let r := fixMag b
    if fixLimit ≤ r then (if f32Neg b then 0 else 0x7F800000)
    else if f32Neg b then f32Quot fixOne (fixExp r) else f32Quot (fixExp r) fixOne

/-- The correctly rounded `1 / (1 + e⁻ˢ)` of a binary32 (R280). -/
def f32Logistic (b : Nat) : Nat :=
  if f32IsNan b then f32QNan
  else if f32IsInf b || decide (fixLimit ≤ fixMag b) then (if f32Neg b then 0 else 0x3F800000)
  else
    let e := fixExp (fixMag b)
    if f32Neg b then f32Quot fixOne (e + fixOne) else f32Quot e (e + fixOne)

/-- The correctly rounded `2⁻q` of a binary32; whole powers of two are exact (R281). -/
def f32Exp2Neg (b : Nat) : Nat :=
  if f32IsNan b then f32QNan
  else if f32IsInf b then (if f32Neg b then 0x7F800000 else 0)
  else
    let q := f32Units b
    let i := q / (f32One : Int)
    let f := (q % (f32One : Int)).toNat
    if i > 151 then 0
    else if i < -129 then 0x7F800000
    else
      let e := if f = 0 then fixOne else fixExp (f * fixLn2 / f32One)
      if 0 ≤ i then f32Quot fixOne (e * 2 ^ i.toNat) else f32Quot (fixOne * 2 ^ (-i).toNat) e

/-- The correctly rounded `c(n)` of the isolation link (R281). -/
def f32IsoC (n : Nat) : Nat :=
  if n ≤ 2 then 0x3F800000
  else f32Quot (2 * (fixLn (n - 1) + fixGamma) * n - 2 * (n - 1) * fixOne) (n * fixOne)

end Sys2Proof.Machine
end

