-- ==== Sys2Proof/Machine/Plat.lean ====
section
/-! DEFINITION. The plat image (R284 to R287): its header and sections, the checks of PLAT_LOAD, and the evaluation of a
row (R264, R265, R269 to R272, R279 to R281). -/

namespace Sys2Proof.Machine

/-! ### The header (R284) -/

/-- The header of a plat image. -/
structure PlatHead where
  magic : Nat
  format : Nat
  version : Nat
  role : Nat
  link : Nat
  nOut : Nat
  signed : Bool
  nTrees : Nat
  nNodes : Nat
  nLeaves : Nat
  nFeat : Nat
  nPages : Nat
  isoN : Nat
  imgLen : Nat
  featOff : Nat
  pageOff : Nat
  treeOff : Nat
  nodeOff : Nat
  plotOff : Nat
  leafOff : Nat
  outOff : Nat
  sigOff : Nat
  crc : Nat
  deriving DecidableEq, Repr

/-- The header of an image. -/
def platHead (b : List Byte) : PlatHead :=
  { magic := leAt b 0 4, format := leAt b 4 2, version := leAt b 6 2, role := leAt b 8 1 % 4, link := leAt b 9 1,
    nOut := leAt b 10 1, signed := bit (leAt b 11 1) 0, nTrees := leAt b 12 2, nNodes := leAt b 16 4, nLeaves := leAt b 20 4,
    nFeat := leAt b 24 2, nPages := leAt b 26 2, isoN := leAt b 28 4, imgLen := leAt b 32 4, featOff := leAt b 36 4,
    pageOff := leAt b 40 4, treeOff := leAt b 44 4, nodeOff := leAt b 48 4, plotOff := leAt b 52 4, leafOff := leAt b 56 4,
    outOff := leAt b 60 4, sigOff := leAt b 64 4, crc := leAt b 68 4 }

/-- BASE of an output. -/
def platBase (b : List Byte) (o : Nat) : Nat := leAt b (128 + 4 * o) 4

/-! ### Entries of the sections (R285) -/

/-- Entry `f` of the feature map. -/
def platFeat (b : List Byte) (h : PlatHead) (f : Nat) : Nat := leAt b (h.featOff + 4 * f) 4

/-- Entry `p` of the page table: first tree and tree count. -/
def platPage (b : List Byte) (h : PlatHead) (p : Nat) : Nat × Nat := (leAt b (h.pageOff + 8 * p) 4, leAt b (h.pageOff + 8 * p + 4) 4)

/-- Entry `i` of the tree directory: NODE_FIRST and node count. -/
def platTree (b : List Byte) (h : PlatHead) (i : Nat) : Nat × Nat := (leAt b (h.treeOff + 8 * i) 4, leAt b (h.treeOff + 8 * i + 4) 1)

/-- The threshold of node record `j`. -/
def nodeThr (b : List Byte) (h : PlatHead) (j : Nat) : Nat := leAt b (h.nodeOff + 8 * j) 4

/-- The other half of node record `j`. -/
def nodeWord (b : List Byte) (h : PlatHead) (j : Nat) : Nat := leAt b (h.nodeOff + 8 * j + 4) 4

/-- A node's reference to its left or right child. -/
def nodeRef (b : List Byte) (h : PlatHead) (j : Nat) (right : Bool) : Nat := fld (nodeWord b h j) (if right then 20 else 11) 9

/-- Plot record `l`. -/
def platPlot (b : List Byte) (h : PlatHead) (l : Nat) : Nat := leAt b (h.plotOff + 4 * l) 4

/-- Leaf value `l`: value and OUT. -/
def platLeaf (b : List Byte) (h : PlatHead) (l : Nat) : Nat × Nat := (leAt b (h.leafOff + 8 * l) 4, leAt b (h.leafOff + 8 * l + 4) 1 % 16)

/-- An output's table entry: UNIT, VOTE_EN, DIR, BAR. -/
structure PlatOut where
  unit : Nat
  voteEn : Bool
  dir : Bool
  bar : Nat
  deriving DecidableEq, Repr

/-- Entry `o` of the output table. -/
def platOut (b : List Byte) (h : PlatHead) (o : Nat) : PlatOut :=
  { unit := leAt b (h.outOff + 16 * o) 2 % 4096, voteEn := bit (leAt b (h.outOff + 16 * o + 2) 1) 0,
    dir := bit (leAt b (h.outOff + 16 * o + 2) 1) 1, bar := leAt b (h.outOff + 16 * o + 4) 4 }

/-! ### Checks of PLAT_LOAD (R287)

Each answers the first offending entry, or none. -/

/-- The first index below `n` at which `f` holds. -/
def firstBad (n : Nat) (f : Nat → Bool) : Option Nat := (List.range n).find? f

/-- A check without entries. -/
def badIf (c : Bool) : Option Nat := if c then some 0 else none

/-- Sections of an image, padding included: offset and size, the header first (R284). -/
def platSections (h : PlatHead) : List (Nat × Nat) :=
  let pad (n : Nat) : Nat := ceilDiv n 8 * 8
  [(0, 192), (h.featOff, pad (4 * h.nFeat)), (h.pageOff, 8 * h.nPages), (h.treeOff, 8 * h.nTrees), (h.nodeOff, 8 * h.nNodes),
   (h.plotOff, pad (4 * h.nLeaves)), (h.leafOff, 8 * h.nLeaves), (h.outOff, 16 * h.nOut)] ++
    (if h.signed then [(h.sigOff, 64)] else [])

/-- Whether two sections of a list share a byte. -/
def sectionsClash : List (Nat × Nat) → Bool
  | [] => false
  | a :: r => r.any (fun b => a.2 != 0 && b.2 != 0 && decide (a.1 < b.1 + b.2) && decide (b.1 < a.1 + a.2)) || sectionsClash r

/-- Check 5: lengths, counts and places. DEDUCED: an image is a whole number of 8-byte words and offsets are multiples of
8, and a signature ends the image. -/
def platCheck5 (len : Nat) (h : PlatHead) : Bool :=
  let ss := platSections h
  h.imgLen != len || len % 8 != 0 || h.nOut == 0 || decide (16 < h.nOut) || h.nFeat == 0 || decide (1024 < h.nFeat) || h.nTrees == 0 ||
    h.nPages == 0 || ss.any (fun x => x.1 % 8 != 0 || decide (len < x.1 + x.2)) || sectionsClash ss ||
    (if h.signed then h.sigOff + 64 != len else h.sigOff != 0)

/-- Check 6 of one feature map entry (R267). -/
def featBad (b : Build) (e : Nat) : Bool :=
  let k := fld e 16 3
  decide (3 < k) || (b == .leaf && decide (1 < k)) || (k == 1 && decide (1023 < fld e 0 16)) || (k == 2 && decide (2047 < fld e 0 16))

/-- Plots per bank where tree `i` of a run goes to bank `i mod n` (R273): `leaves` gives a tree's leaves. -/
def bankUse (n : Nat) (leaves : List Nat) : List Nat :=
  (List.range n).map (fun k => (leaves.mapIdx (fun i l => if i % n = k then l else 0)).foldl (· + ·) 0)

/-- Leaves of trees `first` to `first + count - 1`. -/
def treeLeaves (b : List Byte) (h : PlatHead) (first count : Nat) : List Nat :=
  (List.range count).map (fun i => (platTree b h (first + i)).2 + 1)

/-- Check 7: the page table, and for a paged load with a window, that every page fits it. -/
def platCheck7 (banks : Nat) (window : Option Nat) (b : List Byte) (h : PlatHead) : Option Nat :=
  let next (p : Nat) : Nat := if p = 0 then 0 else (platPage b h (p - 1)).1 + (platPage b h (p - 1)).2
  firstBad h.nPages (fun p =>
    let e := platPage b h p
    e.1 != next p || e.2 == 0 || decide (h.nTrees < e.1 + e.2) || (p + 1 == h.nPages && e.1 + e.2 != h.nTrees) ||
      (match window with
       | none => false
       | some w => (bankUse banks (treeLeaves b h e.1 e.2)).any (fun u => decide (w < u))))

/-- Check 8: the tree directory and the totals. -/
def platCheck8 (b : List Byte) (h : PlatHead) : Option Nat :=
  let next (i : Nat) : Nat := if i = 0 then 0 else (platTree b h (i - 1)).1 + (platTree b h (i - 1)).2
  match firstBad h.nTrees (fun i => (platTree b h i).1 != next i) with
  | some i => some i
  | none => if next h.nTrees = h.nNodes ∧ h.nLeaves = h.nNodes + h.nTrees then none else some 0

/-- The trees of an image: NODE_FIRST, node count and tree index. -/
def platTrees (b : List Byte) (h : PlatHead) : List (Nat × Nat × Nat) :=
  (List.range h.nTrees).map (fun i => ((platTree b h i).1, (platTree b h i).2, i))

/-- The child references of a tree's nodes, each with its parent's index and its side. -/
def treeRefs (b : List Byte) (h : PlatHead) (first count : Nat) : List (Nat × Nat × Bool) :=
  (List.range count).flatMap (fun j => [(nodeRef b h (first + j) false, j, false), (nodeRef b h (first + j) true, j, true)])

/-- Whether node `j` of a tree breaks check 9, or is not the child of one parent. -/
def nodeBad (b : List Byte) (h : PlatHead) (first count j : Nat) (refs : List (Nat × Nat × Bool)) : Bool :=
  let w := nodeWord b h (first + j)
  let refBad (r : Nat) : Bool := if bit r 8 then decide (count < r % 256) else decide (r ≤ j) || decide (count ≤ r)
  decide (h.nFeat ≤ fld w 0 10) || f32IsNan (nodeThr b h (first + j)) || refBad (nodeRef b h (first + j) false) ||
    refBad (nodeRef b h (first + j) true) || (j != 0 && (refs.filter (fun r => r.1 == j)).length != 1)

/-- Check 9 of a tree: the index of an offending node among all, else of an offending leaf. -/
def treeCheck9 (b : List Byte) (h : PlatHead) (t : Nat × Nat × Nat) : Option Nat :=
  let refs := treeRefs b h t.1 t.2.1
  match firstBad t.2.1 (fun j => nodeBad b h t.1 t.2.1 j refs) with
  | some j => some (t.1 + j)
  | none =>
    if t.2.1 = 0 then none
    else (firstBad (t.2.1 + 1) (fun l => (refs.filter (fun r => r.1 == 256 + l)).length != 1)).map (fun l => t.1 + t.2.2 + l)

/-- The number of nodes above each node of a tree; parents come before their children. -/
def nodeDepths (refs : List (Nat × Nat × Bool)) (count : Nat) : Tbl Nat :=
  (List.range count).foldl (fun t j =>
    match refs.find? (fun r => r.1 == j) with
    | some r => Tbl.set t j ((Tbl.get? t r.2.1).getD 0 + 1)
    | none => Tbl.set t j 0) []

/-- The plot record that a leaf of a tree must have: PARENT, SIDE and DEPTH (R285). -/
def plotOf (refs : List (Nat × Nat × Bool)) (depths : Tbl Nat) (l : Nat) : Nat :=
  match refs.find? (fun r => r.1 == 256 + l) with
  | some r => r.2.1 + b2n r.2.2 * 2 ^ 8 + ((Tbl.get? depths r.2.1).getD 0 + 1) * 2 ^ 9
  | none => 0

/-- Check 10 of a tree. -/
def treeCheck10 (b : List Byte) (h : PlatHead) (t : Nat × Nat × Nat) : Option Nat :=
  let refs := treeRefs b h t.1 t.2.1
  let ds := nodeDepths refs t.2.1
  (firstBad (t.2.1 + 1) (fun l => platPlot b h (t.1 + t.2.2 + l) % 2 ^ 17 != plotOf refs ds l)).map (fun l => t.1 + t.2.2 + l)

/-- Check 11. -/
def platCheck11 (b : List Byte) (h : PlatHead) : Option Nat :=
  match firstBad h.nLeaves (fun l => !(f32Finite (platLeaf b h l).1) || decide (h.nOut ≤ (platLeaf b h l).2)) with
  | some l => some l
  | none => firstBad 16 (fun o => !(f32Finite (platBase b o)))

/-- Whether a reserved field of the image is not zero (R284, R285). -/
def platReserved (b : List Byte) (h : PlatHead) : Bool :=
  decide (4 ≤ leAt b 8 1) || decide (2 ≤ leAt b 11 1) || leAt b 14 2 != 0 || leAt b 72 56 != 0 ||
    leAt b (128 + 4 * h.nOut) (4 * (16 - h.nOut)) != 0 ||
    (firstBad h.nFeat (fun f => decide (2 ^ 19 ≤ platFeat b h f))).isSome ||
    (firstBad h.nTrees (fun i => leAt b (h.treeOff + 8 * i + 5) 3 != 0)).isSome ||
    (firstBad h.nNodes (fun j => decide (2 ^ 29 ≤ nodeWord b h j))).isSome ||
    (firstBad h.nLeaves (fun l => decide (2 ^ 17 ≤ platPlot b h l) || decide (16 ≤ leAt b (h.leafOff + 8 * l + 4) 4))).isSome ||
    (firstBad h.nOut (fun o => decide (2 ^ 12 ≤ leAt b (h.outOff + 16 * o) 2) || decide (4 ≤ leAt b (h.outOff + 16 * o + 2) 2) ||
      leAt b (h.outOff + 16 * o + 8) 8 != 0)).isSome ||
    (h.nFeat % 2 == 1 && leAt b (h.featOff + 4 * h.nFeat) 4 != 0) || (h.nLeaves % 2 == 1 && leAt b (h.plotOff + 4 * h.nLeaves) 4 != 0)

/-- Check 12. -/
def platCheck12 (b : List Byte) (h : PlatHead) : Option Nat :=
  match firstBad h.nOut (fun o => (platOut b h o).voteEn && f32IsNan (platOut b h o).bar) with
  | some o => some o
  | none => badIf (platReserved b h)

/-- The CRC-32C an image should hold (R284). -/
def platCrc (b : List Byte) : Nat := crc32c (b.take 68 ++ b.drop 72)

/-- The first check of R287 below 14 that fails: its code and the offending entry. -/
def platCheck (build : Build) (banks : Nat) (window : Option Nat) (version len : Nat) (loaded : Bool) (b : List Byte) : Option (Nat × Nat) :=
  let h := platHead b
  let c1 := badIf (h.magic != 0x54414C50 || h.format != 1)
  let c2 := badIf (h.version == 0 || h.version != version || loaded)
  let c3 := badIf (h.role != (if build = .leaf then 1 else 2))
  let c4 := badIf (decide (4 < h.link) || (if h.link = 4 then h.nOut != 1 || decide (h.isoN < 2) else h.isoN != 0))
  if c1.isSome then some (1, 0)
  else if c2.isSome then some (2, 0)
  else if c3.isSome then some (3, 0)
  else if c4.isSome then some (4, 0)
  else if platCheck5 len h then some (5, 0)
  else
    match firstBad h.nFeat (fun f => featBad build (platFeat b h f)) with
    | some f => some (6, f)
    | none =>
      match platCheck7 banks window b h with
      | some p => some (7, p)
      | none =>
        match platCheck8 b h with
        | some i => some (8, i)
        | none =>
          match (platTrees b h).findSome? (treeCheck9 b h) with
          | some j => some (9, j)
          | none =>
            match (platTrees b h).findSome? (treeCheck10 b h) with
            | some l => some (10, l)
            | none =>
              match platCheck11 b h with
              | some l => some (11, l)
              | none =>
                match platCheck12 b h with
                | some o => some (12, o)
                | none => if platCrc b = h.crc then none else some (13, 0)

/-- Check 14: the signature (R286); `key` is the public key, if one is loaded. -/
def platSigOk (key : Option (Nat × Nat)) (required : Bool) (b : List Byte) : Bool :=
  let h := platHead b
  if h.signed then
    (match key with
     | none => false
     | some q => ecdsaVerify q (b.take h.sigOff) (leAt b h.sigOff 32) (leAt b (h.sigOff + 32) 32))
  else !required

/-! ### Feature keys (R264, R265) -/

/-- The key of a binary32, and whether it is missing. -/
def featKey (b : Nat) : Nat × Bool :=
  if f32IsNan b then (0, true)
  else
    let c := if b = 2 ^ 31 then 0 else b
    (if bit c 31 then 2 ^ 32 - 1 - c else c + 2 ^ 31, false)

/-! ### Trees (R269 to R272) -/

/-- A node's outcome: whether it turns right (R269). -/
def nodeRight (b : List Byte) (h : PlatHead) (j : Nat) (row : List Nat) : Bool :=
  let w := nodeWord b h j
  let (x, miss) := featKey (row.getD (fld w 0 10) f32QNan)
  if miss then bit w 10 else decide ((featKey (nodeThr b h j)).1 ≤ x)

/-- The node-result vector that a tree's comparators form: bit k is 1 where node k turns right; every bit at or above the
node count is 0 (R270). -/
def nodeVector (b : List Byte) (h : PlatHead) (first count : Nat) (row : List Nat) : BitVec 256 :=
  (List.range (min count 255)).foldl (fun v k => if nodeRight b h (first + k) row then v ||| BitVec.ofNat 256 (2 ^ k) else v) 0#256

/-! ### Plots (R271, R273) -/

/-- The path from the root to what a child reference names: the nodes' bits (C) and those of them at which it turns right
(D) (R271). Parents come before their children, so as many steps as there are nodes reach the root. -/
def plotPath (refs : List (Nat × Nat × Bool)) : Nat → Nat → BitVec 256 × BitVec 256
  | 0, _ => (0#256, 0#256)
  | n + 1, r =>
    match refs.find? (fun x => x.1 == r) with
    | none => (0#256, 0#256)
    | some x =>
      let up := plotPath refs n x.2.1
      let here : BitVec 256 := BitVec.ofNat 256 (2 ^ x.2.1)
      (up.1 ||| here, if x.2.2 then up.2 ||| here else up.2)

/-- Whether a number has an odd number of bits set. -/
def oddBits (w v : Nat) : Bool := (setBits w v).length % 2 == 1

/-- The parity bit over a plot's fields (R271). -/
def Plot.parityOf (p : Plot) : Bool :=
  oddBits 256 p.care.toNat != (oddBits 256 p.value.toNat != (oddBits 11 p.tag != oddBits 11 p.slot))

/-- Whether a plot passes its parity (R292). -/
def Plot.sound (p : Plot) : Bool := p.parity == p.parityOf

/-- Whether a plot answers a search: its tag is the tree's, and (V XOR D) AND C is zero (R271). -/
def Plot.hit (v : BitVec 256) (t : TreeAt) (p : Plot) : Bool :=
  p.bank == t.bank && p.tag == t.tag && ((v ^^^ p.value) &&& p.care) == 0#256

/-- The plot of leaf `l` of a tree, at an entry of its bank (R271). -/
def plotAt (refs : List (Nat × Nat × Bool)) (count l : Nat) (t : TreeAt) (entry : Nat) : Plot :=
  let c := plotPath refs (count + 1) (256 + l)
  let p : Plot := { bank := t.bank, entry := entry, care := c.1, value := c.2, tag := t.tag, slot := entry, parity := false }
  { p with parity := p.parityOf }

/-- Entries of a bank from `lo` to `hi - 1` that no plot takes. -/
def freeEntries (plots : List Plot) (bank lo hi : Nat) : List Nat :=
  ((List.range hi).drop lo).filter (fun n => !(plots.any (fun p => p.bank == bank && p.entry == n)))

/-- The lowest tree tag that no tree of a bank carries. -/
def freeTag (trees : List TreeAt) (bank : Nat) : Nat :=
  ((List.range 2048).find? (fun n => !(trees.any (fun t => t.bank == bank && t.tag == n)))).getD 0

/-- A tree takes entries of its bank, region `lo` to `hi - 1`, beside what stands there already (R273). DESIGN CHOICE: the
lowest free entries and the lowest free tag; a leaf's slot in the leaf value table is its plot's entry. -/
def placeTree (lo hi : Nat) (b : List Byte) (h : PlatHead) (old : PlotSet) (x : Nat × Nat) (new : PlotSet) : PlotSet :=
  let first := (platTree b h x.1).1
  let count := (platTree b h x.1).2
  let t : TreeAt := { tree := x.1, bank := x.2, tag := freeTag (old.trees ++ new.trees) x.2 }
  let refs := treeRefs b h first count
  let places := (List.range (count + 1)).zip (freeEntries (old.plots ++ new.plots) x.2 lo hi)
  { trees := new.trees ++ [t],
    plots := new.plots ++ places.map (fun p => plotAt refs count p.1 t p.2),
    leafs := new.leafs ++ places.map (fun p =>
      let v := platLeaf b h (first + x.1 + p.1)
      { bank := x.2, slot := p.2, value := v.1, out := v.2 : LeafVal }) }

/-- Trees `first` to `first + n - 1` take their places, the j-th of them in bank j mod `banks` (R273). -/
def placeTrees (banks lo hi : Nat) (b : List Byte) (h : PlatHead) (old : PlotSet) (first n : Nat) : PlotSet :=
  (List.range n).foldl (fun new j => placeTree lo hi b h old (first + j, j % banks) new) { trees := [], plots := [], leafs := [] }

/-! ### Searches (R271, R279, R292) -/

/-- What the searches of a row's trees give: the raw sums, or none after a search in error; and whether one of them returned a
plot that fails its parity. -/
structure RowSearch where
  sums : Option (List Nat)
  spoilt : Bool
  deriving DecidableEq, Repr

/-- Add a leaf's value to the output it names (R279). -/
def addLeaf (sums : List Nat) (v : Nat × Nat) : List Nat := sums.mapIdx (fun o x => if o = v.2 then f32Add x v.1 else x)

/-- One tree of a row: its comparators, its search among the plots of its bank, and the value of the leaf that matches. No
match, more than one, or a plot that fails its parity is an error (R292). -/
def searchTree (b : List Byte) (h : PlatHead) (row : List Nat) (plots : List Plot) (leafs : List LeafVal) (t : TreeAt) (r : RowSearch) :
    RowSearch :=
  match r.sums with
  | none => r
  | some sums =>
    let v := nodeVector b h (platTree b h t.tree).1 (platTree b h t.tree).2 row
    match plots.filter (Plot.hit v t) with
    | [p] =>
      if p.sound = false then { sums := none, spoilt := true }
      else
        match leafs.find? (fun x => x.bank == p.bank && x.slot == p.slot) with
        | some x => { r with sums := some (addLeaf sums (x.value, x.out)) }
        | none => { r with sums := none }
    | _ => { r with sums := none }

/-- The raw sums of a row, in ascending tree index across the plat's pages (R279); `old` is what stands in the resident
region beside each page. -/
def rowSums (b : List Byte) (h : PlatHead) (row : List Nat) (old : List Plot) (sets : List PlotSet) : RowSearch :=
  sets.foldl (fun r x => x.trees.foldl (fun q t => searchTree b h row (old ++ x.plots) x.leafs t q) r)
    { sums := some ((List.range h.nOut).map (platBase b)), spoilt := false }

/-! ### Links (R280, R281) -/

/-- The largest of some values. -/
def f32Max (xs : List Nat) : Nat :=
  (xs.filter (fun x => !(f32IsNan x))).foldl (fun m x => if f32IsNan m || f32Lt m x then x else m) f32QNan

/-- The scores of the raw sums. -/
def linkScores (h : PlatHead) (sums : List Nat) : List Nat :=
  match h.link with
  | 1 => sums.map f32Logistic
  | 2 => sums.map f32ExpOf
  | 3 =>
    let m := f32Max sums
    let es := sums.map (fun s => f32ExpOf (f32Sub s m))
    let tot := es.foldl f32Add 0
    es.map (fun e => f32Div e tot)
  | 4 => sums.map (fun s => f32Exp2Neg (f32Div (f32Div s (f32OfNat h.nTrees)) (f32IsoC h.isoN)))
  | _ => sums.map (fun s => if f32IsNan s then f32QNan else s)

/-- Whether a score passes the bar of its output (R282). -/
def votePasses (o : PlatOut) (z : Nat) : Bool := o.voteEn && (if o.dir then f32Le z o.bar else f32Le o.bar z)

/-! ### The length of a pass (R274) -/

/-- CMP_CLK cycles of a pass on a resident plat. -/
def residentCycles (banks rows : Nat) (h : PlatHead) : Nat := rows * ceilDiv h.nTrees banks

/-- Records of a page: its nodes and leaves. -/
def pageRecords (b : List Byte) (h : PlatHead) (p : Nat × Nat) : Nat :=
  (treeLeaves b h p.1 p.2).foldl (fun n l => n + 2 * l - 1) 0

/-- CMP_CLK cycles of one page: its load, the longer of its plots' writes and its fetch, and its searches. `fetch` gives the
CMP_CLK cycles in which so many bytes arrive. -/
def pageCycles (fetch : Nat → Nat) (banks rows : Nat) (b : List Byte) (h : PlatHead) (p : Nat × Nat) : Nat :=
  max ((bankUse banks (treeLeaves b h p.1 p.2)).foldl max 0) (fetch (8 * pageRecords b h p)) + rows * ceilDiv p.2 banks

/-- CMP_CLK cycles of a pass on a paged plat. -/
def pagedCycles (fetch : Nat → Nat) (banks rows : Nat) (b : List Byte) (h : PlatHead) : Nat :=
  (List.range h.nPages).foldl (fun n p => n + pageCycles fetch banks rows b h (platPage b h p)) 0

end Sys2Proof.Machine
end

