-- ==== Sys2Proof/Machine/Cadastre.lean ====
section
/-! DEFINITION. Cadastre (R266 to R268, R273 to R278, R282, R283, R288 to R294): plat slots, passes, reloads, commands. -/

namespace Sys2Proof.Machine

/-! ### Slots and banks (R273, R288) -/

/-- Banks of the build (R273). -/
def State.cadBanks (s : State) : Nat := if s.isTray then 32 else 4

/-- Entries of a bank. -/
def State.bankSize (s : State) : Nat := if s.isTray then 2048 else 1024

/-- The page window (R296). -/
def State.cadWindow (s : State) : Nat := s.getF CAD_CTL 0 12

/-- Whether a slot's plat is held in the resident region. -/
def State.platResident (s : State) (i : Nat) : Bool := s.getB (CAD_PLAT_ID i) 29

/-- Plots of a resident plat in each bank (R273). -/
def State.platUse (s : State) (b : List Byte) : List Nat :=
  let h := platHead b
  bankUse s.cadBanks (treeLeaves b h 0 h.nTrees)

/-- Free resident entries of each bank (R273): a plat keeps its entries while its trees wait for their reload. -/
def State.bankFree (s : State) : List Nat :=
  (List.range s.cadBanks).map (fun k => s.bankSize - s.cadWindow - (s.cad.use.foldl (fun n e => n + e.2.getD k 0) 0))

/-- Whether a plat fits the resident region. -/
def State.platFits (s : State) (b : List Byte) : Bool := ((s.platUse b).zip s.bankFree).all (fun x => decide (x.1 ≤ x.2))

/-- The plots that stand in the resident region. -/
def State.residentPlots (s : State) : PlotSet :=
  { trees := s.cad.plots.flatMap (fun e => e.2.trees), plots := s.cad.plots.flatMap (fun e => e.2.plots),
    leafs := s.cad.plots.flatMap (fun e => e.2.leafs) }

/-- The plots of the resident plats other than slot `i`'s: a row of slot `i` is searched among them and its own (R271, R292). -/
def State.otherPlots (s : State) (i : Nat) : List Plot := (Tbl.erase s.cad.plots i).flatMap (fun e => e.2.plots)

/-- CAD_RES_FREE and CAD_RES_MIN (R295). -/
def State.resFree (s : State) : Nat × Nat := (s.bankFree.foldl (· + ·) 0, s.bankFree.foldl min s.bankSize)

/-- A slot becomes EMPTY. -/
def platDrop (i : Nat) (s : State) : State :=
  let s1 := ((s.wr (CAD_PLAT_ID i) 0).wr (CAD_PLAT_SIZE i) 0).wr (CAD_PLAT_ADDR i) 0
  { s1 with cad := { s1.cad with resident := Tbl.erase s1.cad.resident i, plots := Tbl.erase s1.cad.plots i,
                                 use := Tbl.erase s1.cad.use i, lens := Tbl.erase s1.cad.lens i, outs := Tbl.erase s1.cad.outs i } }

/-- The image of a slot as memory holds it (R289). -/
def platImage (i : Nat) (s : State) : Option (List Byte) × State :=
  loadBytes (s.rd (CAD_PLAT_ADDR i)) ((Tbl.get? s.cad.lens i).getD 0) s

/-- A plat takes its slot, READY or LOADING (R288, R296). -/
def platPlace (i st addr : Nat) (resident : Bool) (b : List Byte) (s : State) : State :=
  let h := platHead b
  let id := st * 2 ^ 30 + b2n resident * 2 ^ 29 + b2n h.signed * 2 ^ 28 + h.role * 2 ^ 26 + h.version
  let s1 := ((s.wr (CAD_PLAT_ID i) id).wr (CAD_PLAT_SIZE i) (h.nPages * 2 ^ 16 + h.nTrees)).wr (CAD_PLAT_ADDR i) addr
  { s1 with cad := { s1.cad with lens := Tbl.set s1.cad.lens i b.length, outs := Tbl.set s1.cad.outs i h.nOut } }

/-- Invert the parity of plot `i` of a list. -/
def spoilPlot (ps : List Plot) (i : Nat) : List Plot := ps.mapIdx (fun j p => if j = i then { p with parity := !p.parity } else p)

/-- Plots and their leaf values are written, those of a slot's resident trees under its number and those of pages under 1,024: an injection under R453 that awaits the next plot spoils one of them, and which
is written first is free. -/
def plotsWritten (slot : Nat) (x : PlotSet) (s : State) : PlotSet × State :=
  let s1 := memWritten 2 slot s
  let s2 := memWritten 3 slot s1
  let hits (t : State) : Nat := (t.flt.inject.filter (fun i => i.target == 2 && i.written)).length
  if hits s < hits s1 then
    let (v, s3) := s2.draw
    ({ x with plots := spoilPlot x.plots (v.toNat % max 1 x.plots.length) }, s3)
  else (x, s2)

/-- Plots of a plat are written into the resident region, the entries above the page window: its trees stand there (R273). -/
def platWrite (i : Nat) (b : List Byte) (s : State) : State :=
  let h := platHead b
  let (x, s1) := plotsWritten i (placeTrees s.cadBanks s.cadWindow s.bankSize b h s.residentPlots 0 h.nTrees)
    (memGone 2 i (memGone 3 i s))
  { s1 with cad := { s1.cad with resident := Tbl.set s1.cad.resident i b, plots := Tbl.set s1.cad.plots i x,
                                 use := Tbl.set s1.cad.use i (s.platUse b) } }

/-- The pages of a paged plat pass through the window, entries 0 to WINDOW - 1, one after another (R273, R274). -/
def pageSets (b : List Byte) (s : State) : List PlotSet × State :=
  let h := platHead b
  let old := s.residentPlots
  (List.range h.nPages).foldl (fun a p =>
    let e := platPage b h p
    let (x, t) := plotsWritten 1024 (placeTrees s.cadBanks 0 s.cadWindow b h old e.1 e.2) a.2
    (a.1 ++ [x], t.inc CAD_PAGES 1)) ([], s)

/-- The plots that a plat's rows are searched in: those of the resident region, or those of its pages as they are loaded. -/
def platSets (i : Nat) (b : List Byte) (s : State) : List PlotSet × State :=
  if s.platResident i then ((Tbl.get? s.cad.plots i).toList, s) else pageSets b s

/-! ### Binding (R290, R291) -/

/-- The version that a pending PLAT_SWAP pins here: a station acts on it for its context of the parcel, a tray build for its
level-1 context (R290). -/
def State.pinnedBy (s : State) (r : Ruling) : Option Nat :=
  if r.kind = 4 ∧ (s.ctxAt r.parcel s.ownLevel).isSome = true then s.platSwap r.body else none

/-- Versions that pending PLAT_SWAP rulings name for this build. -/
def State.pinned (s : State) : List Nat := s.par.pend.filterMap s.pinnedBy

/-- The version pending for a parcel, 0 where none is (R295). -/
def State.platPending (s : State) (parcel : Nat) : Nat := ((s.par.pend.filter (fun r => r.parcel == parcel)).findSome? s.pinnedBy).getD 0

/-- Contexts bound to a version or pinning it (R296). -/
def State.platBound (s : State) (v : Nat) : Nat :=
  (s.par.ctxs.filter (fun e => e.2.level == s.ownLevel && e.2.plat == v)).length + (s.pinned.filter (· == v)).length

/-- Whether an epoch not yet scored is to be scored with a version. -/
def State.platNamed (s : State) (v : Nat) : Bool :=
  s.par.ctxs.any (fun e => e.2.epochs.any (fun x => x.plat == v && x.cad != .done))

/-! ### Jobs (R275) -/

/-- A job: context, epoch, its end boundary, its context's SEQ. -/
structure CadJob where
  ctx : Nat
  k : Nat
  fin : Nat
  seq : Nat
  deriving DecidableEq, Repr

/-- Whether a job is taken before another (R275). -/
def CadJob.before (a b : CadJob) : Bool := decide (a.fin < b.fin) || (a.fin == b.fin && decide (a.seq < b.seq))

/-- Insert in order. -/
def insertJob (j : CadJob) : List CadJob → List CadJob
  | [] => [j]
  | x :: xs => if j.before x then j :: x :: xs else x :: insertJob j xs

/-- Jobs with a row ready and not scored, in order (R268, R275). -/
def State.cadJobs (s : State) : List CadJob :=
  (s.par.ctxs.flatMap (fun e => (e.2.epochs.filter (fun x => x.cad == .pending)).map (fun x =>
    { ctx := e.1, k := x.k, fin := e.2.boundary (x.k + 1), seq := e.2.seq : CadJob }))).foldl (fun l j => insertJob j l) []

/-- Rows of a job not yet scored: context, epoch, station. -/
def State.jobRows (s : State) (j : CadJob) : List (Nat × Nat × Nat) :=
  match s.ctx? j.ctx, s.epoch? j.ctx j.k with
  | some c, some e => ((s.rowStations c e).drop e.cadOut.length).map (fun st => (j.ctx, j.k, st))
  | _, _ => []

/-- The version a job is scored with. -/
def State.jobPlat (s : State) (j : CadJob) : Nat := ((s.epoch? j.ctx j.k).map (·.plat)).getD 0

/-- CAD_PENDING (R295). -/
def State.cadPending (s : State) : Nat :=
  (s.cadJobs.flatMap s.jobRows).length

/-! ### Rows (R266, R267) -/

/-- The value of a feature map entry in a row. -/
def State.rowValue (s : State) (c : Ctx) (e : Epoch) (st : Nat) (entry : Nat) : Nat :=
  let k := fld entry 16 3
  let ix := fld entry 0 16
  if k = 1 then
    match c.probes.find? (fun p => s.getB (PRB_DESC p.probe 2) 31 && s.getF (PRB_DESC p.probe 2) 16 10 == ix) with
    | none => f32QNan
    | some p => ((e.ownVals.find? (fun v => v.probe == p.probe)).map ProbeVal.f32).getD f32QNan
  else if k = 2 then
    let own := s.trnEntries e.ownVals
    let es : List (Nat × Nat) :=
      if st = s.station then own
      else
        match e.kids.find? (fun x => x.station == st) with
        | none => []
        | some x => (List.range (x.trn.length / 8)).map (fun i => (leAt x.trn (8 * i) 2, leAt x.trn (8 * i + 4) 4))
    ((es.find? (fun x => x.1 == ix)).map (·.2)).getD f32QNan
  else if k = 3 then f32OfNat (stChain st * 32 + stPos st)
  else f32QNan

/-- The features of a row, by feature index. -/
def State.rowFeats (s : State) (b : List Byte) (n k st : Nat) : List Nat :=
  let h := platHead b
  match s.ctx? n, s.epoch? n k with
  | some c, some e => (List.range h.nFeat).map (fun f => s.rowValue c e st (platFeat b h f))
  | _, _ => []

/-! ### Scoring a row (R279, R280, R282, R292) -/

/-- A search in error is counted and raises its source (R292). -/
def searchErr (s : State) : State := rateNote 0xA (faultEdge 15 ((s.inc CAD_SEARCH_ERR 1).evt CAD_EVT 3))

/-- A search has returned a plot whose parity is spoilt: the injection has been met (R453). -/
def spoiltMet (s : State) : State :=
  match s.flt.inject.find? (fun i => i.target == 2 && i.written) with
  | none => s
  | some i => { s with flt := { s.flt with inject := s.flt.inject.erase i } }

/-- The sums and scores of a row, or none where a search is in error. -/
def scoreOf (slot : Nat) (b : List Byte) (sets : List PlotSet) (feats : List Nat) (s : State) : Option (List Nat × List Nat) × State :=
  let s1 := memReadBack 3 (if s.platResident slot then slot else 1024) s
  let r := rowSums b (platHead b) feats (s.otherPlots slot) sets
  match r.sums with
  | none => (none, searchErr (if r.spoilt then spoiltMet s1 else s1))
  | some sums => (some (sums, linkScores (platHead b) sums), s1)

/-- The votes of a row's scores, output by output: whether any was raised (R282). -/
def rowVotes (b : List Byte) (n k st : Nat) (zs : List Nat) (s : State) : Bool × State :=
  let h := platHead b
  ((List.range h.nOut).zip zs).foldl (fun a x =>
    let o := platOut b h x.1
    if votePasses o x.2 then
      let (ok, t) := raiseVote n k 4 (suspectNo st o.unit) 1 a.2
      if ok then (true, (t.inc CAD_VOTES 1).later (.modelVote (((t.ctx? n).map (·.parcel)).getD 0))) else (a.1, t)
    else a) (false, s)

/-- One row of a pass. -/
def passRow (slot : Nat) (b : List Byte) (sets : List PlotSet) (r : Nat × Nat × Nat) (s : State) : State :=
  let (n, k, st) := r
  let (got, s1) := scoreOf slot b sets (s.rowFeats b n k st) s
  match got with
  | none => (s1.modEpoch n k (fun e => { e with cadOut := e.cadOut ++ [unscoredRow st] })).inc CAD_UNSCORED 1
  | some (sums, zs) =>
    let (voted, s2) := rowVotes b n k st zs s1
    let row : ScoreRow := { station := st, voted := voted, nan := (sums ++ zs).any f32IsNan, ovf := (sums ++ zs).any f32IsInf,
                            unscored := false, scores := zs }
    (s2.modEpoch n k (fun e => { e with cadOut := e.cadOut ++ [row] })).inc CAD_ROWS 1

/-- A job whose last row has been scored hands on its epoch (R278, R282, R283). -/
def jobDone (n k nOut : Nat) (s : State) : State :=
  match s.ctx? n, s.epoch? n k with
  | some c, some e =>
    if e.cad ≠ .pending ∨ e.cadOut.length < (s.rowStations c e).length then s
    else
      let ver := if e.cadOut.any (·.unscored) then 0 else e.plat
      let s1 := s.modEpoch n k (fun x => { x with cad := .done, platVer := ver })
      advanceAll n (buildPut n k (keepScores n k { platVer := ver, nOut := nOut, rows := e.cadOut } s1))
  | _, _ => s

/-! ### Reloads (R293) -/

/-- READY resident plats whose trees do not stand in the resident region, in ascending slot order. -/
def State.reloadDue (s : State) : List Nat :=
  (List.range s.platSlots).filter (fun i => s.platState i == 2 && s.platResident i && (Tbl.get? s.cad.resident i).isNone)

/-- Whether Cadastre can work: its tier is in ACTIVE and it is not held in reset. -/
def State.cadUp (s : State) : Bool := s.computeActive && !s.quiesced .cadastre

/-- The first plat that waits for its reload asks for leave (R276, R293). -/
def reloadAsk (s : State) : State :=
  match s.reloadDue with
  | [] => s
  | i :: _ =>
    if s.cadUp = false ∨ s.asksLeave (.cadReload i) = true then s
    else askLeave 1 (s.pwrClass CAD_PWR) (s.pwrAmt CAD_PWR) (.cadReload i) s

/-- Give up the epochs that were to be scored with a version that has gone (R293). -/
def abandonPlat (v : Nat) (s : State) : State :=
  s.each (s.par.ctxs.flatMap (fun e => (e.2.epochs.filter (fun x => x.plat == v && x.cad == .pending)).map (fun x => (e.1, x.k))))
    (fun x t => advanceAll x.1 (cadAbandon x.1 x.2 t))

/-- SCORE_ROW commands that wait: for the pass under way, or for the reload of their plat (R293, R294). -/
def State.scoreWaits (s : State) : List Job := s.pil.jobs.filter (fun j => j.opcode == 0x35 && j.phase == .waiting)

/-- The features a SCORE_ROW gives, by feature position (R294). -/
def scoreRowFeats (c : Cmd) : List Nat :=
  let first := c.f 3 0 10
  let n := c.f 3 16 11
  (List.range 1024).map (fun p => if first ≤ p ∧ p < first + n then c.w (5 + (p - first)) else f32QNan)

/-- A SCORE_ROW's results against an image (R294). -/
def scoreRowRun (c : Cmd) (slot : Nat) (b : List Byte) (sets : List PlotSet) (s : State) : List Word × State :=
  let h := platHead b
  match scoreOf slot b sets (scoreRowFeats c) s with
  | (none, s1) => ([w32 h.nOut, w32 4] ++ List.replicate (2 * h.nOut) 0#32, s1.inc CAD_UNSCORED 1)
  | (some (sums, zs), s1) =>
    ([w32 h.nOut, w32 (b2n ((sums ++ zs).any f32IsNan) + b2n ((sums ++ zs).any f32IsInf) * 2)] ++ sums.map w32 ++ zs.map w32, s1)

/-- A SCORE_ROW runs: at once on a resident plat, by asking for leave on a paged one, and not yet while a pass is under way or
its plat waits for its reload (R276, R293, R294). -/
def scoreRow (c : Cmd) (s : State) : Ans × State :=
  if s.fenced .cadastre || s.quiesced .cadastre then ans stFenced s
  else
    match readySlot CAD_PLAT_ID s.platSlots s (c.f 2 0 16) with
    | none => ans stAbsent s
    | some i =>
      if 1019 < c.f 3 16 11 ∨ 1024 < c.f 3 0 10 + c.f 3 16 11 then ans stBadParam s
      else if s.cad.pass.isSome || s.wit.selfRun.isSome then (.started .waiting .plain, s)
      else if s.platResident i then
        match Tbl.get? s.cad.resident i with
        | none => (.started .waiting .plain, s)
        | some b =>
          let (res, s1) := scoreRowRun c i b (Tbl.get? s.cad.plots i).toList s
          ansWith res s1
      else
        (.started (.waitLeave 0) .plain, askLeave 1 (s.pwrClass CAD_PWR) (s.pwrAmt CAD_PWR) (.cadLoad s.pil.nextJob) s)

/-- The waiting SCORE_ROW commands run, as far as they can: after any pass already begun and before any not yet begun
(R294). -/
def scoreRowsRun (s : State) : State :=
  if s.cadUp = false then s
  else
    s.each s.scoreWaits (fun j t =>
      let next := t.pil.nextJob
      let r := scoreRow j.cmd { t with pil := { t.pil with nextJob := j.id } }
      let u : State := { r.2 with pil := { r.2.pil with nextJob := next } }
      match r.1 with
      | .reply st res => finishJob j.id st res u
      | .started ph d => modJob j.id (fun x => { x with phase := ph, data := d }) u)

/-- Leave for a reload is granted: the image is read again and its CRC checked (R293). -/
def reloadGranted (i : Nat) (s : State) : State :=
  if s.cadUp = false ∨ s.reloadDue.contains i = false then releaseLeave (.cadReload i) s
  else
    let v := s.getF (CAD_PLAT_ID i) 0 16
    let (img, s1) := platImage i s
    let ok := match img with
      | some b => platCrc b == (platHead b).crc &&
          ({ s1 with cad := { s1.cad with use := Tbl.erase s1.cad.use i } } : State).platFits b
      | none => false
    let s2 : State := match img with
      | some b => if ok then platWrite i b s1 else s1
      | none => s1
    let s3 : State :=
      if ok then s2
      else
        let t := (platDrop i s2).evt CAD_EVT 5
        let u : State := { t with par := { t.par with ctxs := t.par.ctxs.map (fun e => (e.1, { e.2 with plat := if e.2.plat = v then 0 else e.2.plat })) } }
        abandonPlat v u
    reloadAsk (releaseLeave (.cadReload i) (scoreRowsRun s3))

/-! ### Passes (R274 to R277) -/

/-- A pass begins on the plat of the first job: a job's rows on a resident plat, on a paged plat every ready row bound to
it, up to 4,096 (R275). -/
def passBegin (j : CadJob) (slot : Nat) (s : State) : State :=
  let rows := if s.platResident slot then s.jobRows j
    else (((s.cadJobs.filter (fun x => s.jobPlat x == s.jobPlat j)).flatMap s.jobRows).take 4096)
  { s with cad := { s.cad with pass := some { slot := slot, rows := rows } } }

/-- Whether no pass may begin: one is under way, a self-test or a transition of the compute tier is, a reload is due,
or a SCORE_ROW goes before it (R275, R293, R294, R400, R464). -/
def State.passHeld (s : State) : Bool :=
  !s.cadUp || s.cad.pass.isSome || s.wit.selfRun.isSome || s.plm.goal.isSome || !s.reloadDue.isEmpty || s.fenced .cadastre ||
    s.pil.jobs.any (fun j => j.opcode == 0x35 && (j.phase == .waiting || j.phase == .waitLeave 0))

/-- CADASTRE_PASS_START (R275, R276, R293): the next pass begins, or asks for the leave it needs. -/
def cadStart (s0 : State) : State :=
  let s := scoreRowsRun s0
  if s.cadUp ∧ s.reloadDue ≠ [] then reloadAsk s
  else if s.passHeld then s
  else
    match s.cadJobs with
    | [] => s
    | j :: _ =>
      match s.platSlot (s.jobPlat j) with
      | none => advanceAll j.ctx (cadAbandon j.ctx j.k s)
      | some i =>
        if s.platResident i ∨ s.hasLeave (.cadPass 0) = true then passBegin j i s
        else if s.asksLeave (.cadPass 0) then s
        else askLeave 1 (s.pwrClass CAD_PWR) (s.pwrAmt CAD_PWR) (.cadPass 0) s

/-- Leave for a pass is granted: it begins (R276), or the grant is given back where no job needs it. -/
def passGranted (s : State) : State :=
  let paged := match s.cadJobs with
    | j :: _ => (match s.platSlot (s.jobPlat j) with | some i => !s.platResident i | none => false)
    | [] => false
  if s.passHeld = false ∧ paged = true then cadStart s else releaseLeave (.cadPass 0) s

/-- The CMP_CLK cycles of a pass (R274). At a leaf a page arrives at 8 bytes per HOST_CLK cycle; how many CMP_CLK cycles one
of those takes, a fraction, is free. -/
def passCycles (b : List Byte) (resident : Bool) (rows : Nat) (s : State) : Nat × State :=
  let h := platHead b
  if resident then (residentCycles s.cadBanks rows h, s)
  else if s.isTray then (pagedCycles (fun n => ceilDiv n 256) s.cadBanks rows b h, s)
  else
    let (v, s1) := s.draw
    let num := v.toNat % 2 ^ 32
    let den := v.toNat / 2 ^ 32 + 1
    (pagedCycles (fun n => ceilDiv (ceilDiv n 8 * num) den) s.cadBanks rows b h, s1)

/-- The pass under way scores its rows; a paged plat that cannot be fetched leaves them UNSCORED (R274, R292). -/
def passRun (p : CadPass) (s : State) : State :=
  let resident := s.platResident p.slot
  let (img, s1) : Option (List Byte) × State := if resident then (Tbl.get? s.cad.resident p.slot, s) else platImage p.slot s
  let jobs := (p.rows.map (fun r => (r.1, r.2.1))).eraseDups
  match img with
  | none => s1.each jobs (fun j t => advanceAll j.1 (cadAbandon j.1 j.2 t))
  | some b =>
    let h := platHead b
    let (sets, s2) := platSets p.slot b s1
    let (len, s3) := passCycles b resident p.rows.length s2
    let s4 := (s3.each p.rows (passRow p.slot b sets)).maxR CAD_PASS_MAX len
    s4.each jobs (fun j t => jobDone j.1 j.2 h.nOut t)

/-- CADASTRE_PASS_COMPLETE (R274, R276): the last scores and votes are delivered, and leave is released. -/
def cadComplete (s : State) : State :=
  match s.cad.pass with
  | none => s
  | some p =>
    let s1 := passRun p { s with cad := { s.cad with pass := none } }
    scoreRowsRun ((if s1.hasLeave (.cadPass 0) then releaseLeave (.cadPass 0) s1 else s1).inc CAD_PASSES 1)

/-- SCORE_TIMEOUT (R277): a job whose pass has not begun is abandoned, but not under STRICT. `ep` is the epoch's low bits. -/
def scoreTimeout (parcel ep : Nat) (s : State) : State :=
  match s.ctxAt parcel s.ownLevel with
  | none => s
  | some (n, c) =>
    match c.epochs.find? (fun e => e.k % 2 ^ 24 == ep % 2 ^ 24 && e.cad == .pending) with
    | none => s
    | some e =>
      let begun := s.cad.pass.any (fun p => p.rows.any (fun r => r.1 == n && r.2.1 == e.k))
      if begun ∨ s.getB EPO_CTL 0 = true then s
      else
        let s1 := advanceAll n ((cadAbandon n e.k s).evt CAD_EVT 2)
        if s1.cadJobs.isEmpty then releaseLeave (.cadPass 0) s1 else s1

/-- What Cadastre loses with the power of its tier, at ZY_CRST_N or under QUIESCE: the pass under way and what its memories
held; the rows of that pass are given up (R293, R447). -/
def cadLose (s : State) : State :=
  let jobs := match s.cad.pass with
    | none => []
    | some p => (p.rows.map (fun r => (r.1, r.2.1))).eraseDups
  let s1 := releaseLeave (.cadPass 0) { s with cad := { s.cad with pass := none, resident := [], plots := [] } }
  s1.each jobs (fun j t => cadAbandon j.1 j.2 t)

/-- A fenced Cadastre scores nothing: every ready row is UNSCORED; a pass that has begun runs to its end (R275, R447). -/
def cadFence (s : State) : State :=
  let busy (j : CadJob) : Bool := s.cad.pass.any (fun p => p.rows.any (fun r => r.1 == j.ctx && r.2.1 == j.k))
  releaseLeave (.cadPass 0) (s.each (s.cadJobs.filter (fun j => !(busy j))) (fun j t => advanceAll j.ctx (cadAbandon j.ctx j.k t)))

/-! ### PLAT_LOAD, PLAT_UNLOAD (R287, R288, R291) -/

/-- The plat key, if one is loaded. -/
def State.platKey (s : State) : Option (Nat × Nat) :=
  if s.getB CAD_KEY_CTL 0 then some (leAt s.cad.signKey 0 32, leAt s.cad.signKey 32 32) else none

/-- A refused load; with ASYNC_OK it has been accepted and is refused finally (R294, R296). -/
def loadRefused (c : Cmd) (st : Nat) (res : List Word) (s : State) : Ans × State := finished c st res (s.evt CAD_EVT 1)

/-- PLAT_LOAD. -/
def platLoad (c : Cmd) (s : State) : Ans × State :=
  let v := c.f 5 0 16
  let resident := bit (c.w 5) 16
  if c.w 4 = 0 then loadRefused c stBadLen [] s
  else if s.fenced .cadastre || s.quiesced .cadastre then loadRefused c stFenced [] s
  else if s.holdAsks (c.w 4) then holdWait s
  else
    match loadBytes (c.w64 2) (c.w 4) s with
    | (none, s1) => loadRefused c stTimeout [] s1
    | (some b, s1) =>
      let window := if resident || s1.cadWindow = 0 then none else some s1.cadWindow
      match platCheck s1.build s1.cadBanks window v b.length (s1.platSlot v).isSome b with
      | some (code, ix) => loadRefused c stBadParam [w32 code, w32 ix] s1
      | none =>
        if platSigOk s1.platKey (s1.getB CAD_KEY_CTL 1) b = false then loadRefused c stNoAuth [] s1
        else
          match (List.range s1.platSlots).find? (fun i => s1.platState i == 0) with
          | none => loadRefused c stNoSpace [] s1
          | some i =>
            if resident then
              if s1.platFits b = false then loadRefused c stNoSpace [] s1
              else
                (.started (.waitLeave 0) (.bytes b),
                  askLeave 1 (s1.pwrClass CAD_PWR) (s1.pwrAmt CAD_PWR) (.cadLoad s1.pil.nextJob) (platPlace i 1 (c.w64 2) true b s1))
            else if s1.cadWindow = 0 then loadRefused c stNoSpace [] s1
            else finished c stOk [w32 i] ((platPlace i 2 (c.w64 2) false b s1).evt CAD_EVT 0)

/-- Leave for a command's write or search is granted (R276, R288, R294). -/
def cadLoadGranted (id : Nat) (s : State) : State :=
  let done (s1 : State) : State := releaseLeave (.cadLoad id) s1
  match s.job? id with
  | none => done s
  | some j =>
    if s.fenced .cadastre || s.quiesced .cadastre then
      done (finishJob id stFenced [] (match j.data, s.platSlot (j.cmd.f 5 0 16) with
        | .bytes _, some i => (platDrop i s).evt CAD_EVT 1
        | _, _ => s))
    else if j.opcode = 0x35 then
      match s.platSlot (j.cmd.f 2 0 16) with
      | none => done (finishJob id stAbsent [] s)
      | some i =>
        match platImage i s with
        | (none, s1) => done (finishJob id stTimeout [] s1)
        | (some b, s1) =>
          let (sets, s2) := platSets i b s1
          let (res, s3) := scoreRowRun j.cmd i b sets s2
          done (finishJob id stOk res s3)
    else
      match j.data, s.platSlot (j.cmd.f 5 0 16) with
      | .bytes b, some i =>
        if s.platFits b then
          done (finishJob id stOk [w32 i] (platWrite i b ((platPlace i 2 (j.cmd.w64 2) true b s).evt CAD_EVT 0)))
        else done (finishJob id stNoSpace [] ((platDrop i s).evt CAD_EVT 1))
      | _, _ => done (finishJob id stBusyPower [] s)

/-- Leave for a command was refused (R276, R288, R294). -/
def cadLoadRefused (id : Nat) (s : State) : State :=
  match s.job? id with
  | none => s
  | some j =>
    let s1 := finishJob id stBusyPower [] s
    if j.opcode = 0x35 then s1
    else
      match s1.platSlot (j.cmd.f 5 0 16) with
      | some i => (platDrop i s1).evt CAD_EVT 1
      | none => s1

/-- LEAVE_WAIT: a pass or a write waited for leave (R296). -/
def cadWaited (waited : Bool) (s : State) : State := if waited then s.evt CAD_EVT 6 else s

/-- PLAT_UNLOAD (R291). -/
def platUnload (c : Cmd) (s : State) : Ans × State :=
  let v := c.f 2 0 16
  match readySlot CAD_PLAT_ID s.platSlots s v with
  | none => ans stAbsent s
  | some i =>
    if s.platBound v ≠ 0 ∨ s.platNamed v = true then ans stBusyContext s
    else ans stOk (platDrop i s)

/-! ### PLAT_KEY, CAD_SET, SCORE_READ, SCORE_ROW (R294) -/

/-- The 64 bytes of a public key in a command, from word 3 on. -/
def keyBytes (c : Cmd) : List Byte := wordsBytes (slice64 c)
where
  /-- Words 3 to 18. -/
  slice64 (c : Cmd) : List Word := (c.params.drop 1).take 16

/-- The point of a public key's 64 bytes. -/
def keyPoint (bs : List Byte) : Nat × Nat := (leAt bs 0 32, leAt bs 32 32)

/-- PLAT_KEY. -/
def platKeyCmd (c : Cmd) (s : State) : Ans × State :=
  let req := bit (c.w 2) 0
  let present := bit (c.w 2) 1
  let k := keyBytes c
  if (present && !p256OnCurve (keyPoint k)) || (req && !present) then ans stBadParam s
  else ans stOk ({ s with cad := { s.cad with signKey := if present then k else [] } }.wr CAD_KEY_CTL (b2n present + b2n req * 2))

/-- CAD_SET. -/
def cadSet (c : Cmd) (s : State) : Ans × State :=
  let w := c.f 2 0 12
  if c.f 2 16 16 = 0 ∨ c.f 2 12 4 ≠ 0 ∨ w % 256 ≠ 0 ∨ s.bankSize < w ∨ c.f 3 11 21 ≠ 0 then ans stBadParam s
  else if w ≠ s.cadWindow ∧ (List.range s.platSlots).any (fun i => s.platState i != 0) = true then ans stBusyContext s
  else ans stOk ((s.wr CAD_CTL (c.w 2)).wr CAD_PWR (c.w 3))

/-- A row's words in SCORE_READ: its flags, then as many scores as there are outputs. -/
def scoreWords (nOut : Nat) (r : ScoreRow) : List Word :=
  w32 (r.station + b2n r.voted * 2 ^ 24 + b2n r.nan * 2 ^ 25 + b2n r.ovf * 2 ^ 26 + b2n r.unscored * 2 ^ 27) ::
    (List.range nOut).map (fun o => w32 (r.scores.getD o 0))

/-- SCORE_READ. -/
def scoreRead (c : Cmd) (s : State) : Ans × State :=
  let first := c.f 4 0 6
  let cnt := c.f 4 8 6
  let k := c.epoch 2
  let none_ (st : Nat) : Ans × State := ansWith [w32 st, 0#32, 0#32] s
  if 33 < first + cnt then ans stBadParam s
  else
    match s.ctxAt c.parcel s.ownLevel with
    | none => none_ (if (s.ctxsOf c.parcel).isEmpty then 3 else 2)
    | some (n, _) =>
      let kept : Tbl ScoreSet := ((s.keep? n).map (·.scores)).getD []
      match Tbl.get? kept k with
      | none => none_ (if (kept.map (·.1)).all (fun x => decide (x < k)) then 1 else 2)
      | some x =>
        ansWith ([0#32, w32 (x.rows.length + x.nOut * 2 ^ 16), w32 x.platVer] ++
          ((x.rows.drop first).take cnt).flatMap (scoreWords x.nOut)) s

/-! ### Rows of the opcode table (R294) -/

/-- PLAT_LOAD. -/
def opPlatLoad : OpInfo := ⟨0x30, 2, .both, true, true, lenIs 6⟩
/-- PLAT_UNLOAD. -/
def opPlatUnload : OpInfo := ⟨0x31, 2, .both, true, false, lenIs 3⟩
/-- PLAT_KEY. -/
def opPlatKey : OpInfo := ⟨0x32, 3, .both, true, false, lenIs 19⟩
/-- CAD_SET. -/
def opCadSet : OpInfo := ⟨0x33, 2, .both, true, false, lenIs 4⟩
/-- SCORE_READ. -/
def opScoreRead : OpInfo := ⟨0x34, 0, .both, true, false, lenIs 5⟩
/-- SCORE_ROW. -/
def opScoreRow : OpInfo := ⟨0x35, 1, .both, true, false, lenCount 3 (fun ps => fld (wAt ps 1) 16 11) 0 1019 (fun n => 5 + n)⟩

end Sys2Proof.Machine
end

