-- ==== Sys2Proof/Machine/TrnMath.lean ====
section
/-! DEFINITION. The arithmetic of Transit's arrays and level unit (R298 to R302, R304, R314, R315). An element stands as an
integer: the signed value in INT8, the bits of a binary32 in the float formats, whose every value is a binary32. -/

namespace Sys2Proof.Machine

/-! ### Number formats (R298, R299) -/

/-- Bytes of an element of a format. -/
def elemBytes (num : Nat) : Nat := if num = 3 then 2 else 1

/-- Whether a format is a float format. -/
def isFloatNum (num : Nat) : Bool := num != 0

/-- Significand bits and bias of the two OCP formats. -/
def ocpShape (num : Nat) : Nat × Nat := if num = 1 then (4, 7) else (3, 15)

/-- The largest finite magnitude an OCP format is given, in units of 2⁻¹⁴⁹. -/
def ocpMax (num : Nat) : Nat := (if num = 1 then 448 else 57344) * f32One

/-- The code of a binary32 in an OCP format: nearest, ties to even, saturating; a NaN becomes 0x7F (R299). -/
def ocpCode (num x : Nat) : Nat :=
  let (p, bias) := ocpShape num
  if f32IsNan x then 0x7F
  else
    let sub := 150 - bias - (p - 1)
    let u := f32Mag x
    let q := 2 ^ max sub (u.log2 - (p - 1))
    let r := if f32IsInf x then ocpMax num else min (rne u q * q) (ocpMax num)
    let mag := if r < 2 ^ (sub + p - 1) then r / 2 ^ sub
      else let e := r.log2; (e + bias - 149) * 2 ^ (p - 1) + (r / 2 ^ (e - (p - 1)) - 2 ^ (p - 1))
    b2n (f32Neg x) * 128 + mag

/-- The binary32 of a code of an OCP format. -/
def ocpValue (num c : Nat) : Nat :=
  let (p, bias) := ocpShape num
  let m := c % 128
  let e := m / 2 ^ (p - 1)
  let f := m % 2 ^ (p - 1)
  let sg := b2n (bit c 7) * 2 ^ 31
  if num = 1 ∧ m = 127 then f32QNan
  else if num ≠ 1 ∧ e = 31 then (if f = 0 then sg + 0x7F800000 else f32QNan)
  else if e = 0 then sg + f32Enc (f * 2 ^ (150 - bias - (p - 1)))
  else sg + f32Enc ((2 ^ (p - 1) + f) * 2 ^ (e + 149 - bias - (p - 1)))

/-- A binary32 times QIN as an INT8: nearest, ties to even, from −127 to 127; a NaN becomes 0 (R299). -/
def int8Of (x qin : Nat) : Int :=
  if f32IsNan x || f32IsNan qin then 0
  else
    let m := if f32IsInf x || f32IsInf qin then 127 else min 127 (rne (f32Mag x * f32Mag qin) (f32One * f32One))
    if f32Neg x != f32Neg qin then -(m : Int) else (m : Int)

/-- The code of a binary32 in a format (R299). -/
def numCode (num qin x : Nat) : Nat :=
  if num = 0 then ofInt 8 (int8Of x qin)
  else if num = 3 then (if f32IsNan x then 0x7FC0 else f32ToBf16 x)
  else ocpCode num x

/-- The element that a code of a format stands for. -/
def numElem (num c : Nat) : Int :=
  if num = 0 then toInt 8 (c % 256) else if num = 3 then (bf16ToF32 c : Nat) else (ocpValue num (c % 256) : Nat)

/-- A binary32 converted to a stage's input (R299). -/
def numConv (num qin x : Nat) : Int := numElem num (numCode num qin x)

/-! ### Sums (R300, R302) -/

/-- A product of two elements. -/
def mulElem (num : Nat) (a b : Int) : Int := if num = 0 then a * b else (f32Mul a.toNat b.toNat : Nat)

/-- A sum of two elements. -/
def addElem (num : Nat) (a b : Int) : Int := if num = 0 then a + b else (f32Add a.toNat b.toNat : Nat)

/-- A sum in ascending order that begins at its first term. -/
def seqSum (num : Nat) : List Int → Int
  | [] => 0
  | x :: xs => xs.foldl (addElem num) x

/-- The same of binary32 values. -/
def f32Sum : List Nat → Nat
  | [] => 0
  | x :: xs => xs.foldl f32Add x

/-- Rows `128 kt` to `128 kt + 127` of a vector, zero past its end. -/
def chunk (kt : Nat) (xs : List Int) : List Int :=
  let c := (xs.drop (128 * kt)).take 128
  c ++ List.replicate (128 - c.length) 0

/-- What a column of a tile puts out for an input (R300, step 2). -/
def tileOut (num : Nat) (ws xs : List Int) : Int := seqSum num (List.zipWith (mulElem num) xs ws)

/-- The sum of a column's partials, in ascending K-tile order (R300, step 3). -/
def columnSum (num kTiles : Nat) (ws xs : List Int) : Int :=
  seqSum num ((List.range kTiles).map (fun kt => tileOut num (chunk kt ws) (chunk kt xs)))

/-- ReLU on a binary32. -/
def f32Relu (x : Nat) : Nat := if f32IsNan x then x else if f32Lt 0 x then x else 0

/-- Pairwise reduction of a list whose length is a power of two. -/
def pairSums : Nat → List Nat → List Nat
  | 0, xs => xs
  | n + 1, xs => pairSums n ((List.range (xs.length / 2)).map (fun i => f32Add (xs.getD (2 * i) 0) (xs.getD (2 * i + 1) 0)))

/-- A sum of squares (R302). -/
def sumSquares (xs : List Nat) : Nat :=
  let lane (l : Nat) : Nat := f32Sum ((List.range (ceilDiv (xs.length - l) 128)).map (fun i =>
    let x := xs.getD (l + 128 * i) 0
    f32Mul x x))
  (pairSums 7 ((List.range 128).map lane)).getD 0 0

/-! ### Stages (R300, R305) -/

/-- A stage as it runs: its format, dimensions, columns of weights, dequantisation factors and biases by output, and whether
ReLU applies. -/
structure TrnStage where
  num : Nat
  qin : Nat
  k : Nat
  n : Nat
  cols : List (List Int)
  dq : List Nat
  bias : Option (List Nat)
  relu : Bool
  deriving DecidableEq, Repr

/-- A stage's input vector after conversion. -/
def TrnStage.input (t : TrnStage) (xs : List Nat) : List Int := xs.map (numConv t.num t.qin)

/-- K-tiles of a stage (R311). -/
def TrnStage.kTiles (t : TrnStage) : Nat := ceilDiv t.k 128

/-- One output of a stage for one converted input (R300, steps 2 to 6). -/
def TrnStage.outAt (t : TrnStage) (xs : List Int) (j : Nat) : Nat :=
  let z := columnSum t.num t.kTiles (t.cols.getD j []) xs
  let y := if t.num = 0 then f32Mul (f32OfInt (z * (f32One : Int)) 1) (t.dq.getD j 0) else z.toNat
  let y1 := match t.bias with
    | none => y
    | some b => f32Add y (b.getD j 0)
  if t.relu then f32Relu y1 else y1

/-- The outputs of a stage for an input. -/
def TrnStage.run (t : TrnStage) (xs : List Nat) : List Nat :=
  let zs := t.input xs
  (List.range t.n).map (t.outAt zs)

/-! ### Checks of a tile (R314, R315) -/

/-- Whether a comparison of R315 is a mismatch: `terms` form the first sum, `b` is the second. -/
def sumMismatch (num tol : Nat) (terms : List Int) (b : Int) : Bool :=
  let a := seqSum num terms
  if num = 0 then (a - b) % 2 ^ 32 != 0
  else
    let x := a.toNat
    let y := b.toNat
    if f32Finite x && f32Finite y then
      let m := f32Sum (terms.map (fun t => f32Abs t.toNat))
      f32Lt (f32Mul tol (f32Add m (f32Abs y))) (f32Abs (f32Sub x y))
    else f32Finite x != f32Finite y

/-- The checks of tile (kt, columns `first` to `first + w - 1`) over the converted inputs of a stage: the columns, counted
from the tile's first, whose check fails, and how many vector checks fail. -/
def tileChecks (t : TrnStage) (tol kt first w : Nat) (inputs : List (List Int)) : List Nat × Nat :=
  let cols := ((t.cols.drop first).take w).map (chunk kt)
  let xs := inputs.map (chunk kt)
  let ws := (List.range 128).map (fun k => seqSum t.num (cols.map (fun c => c.getD k 0)))
  let xsum := (List.range 128).map (fun k => seqSum t.num (xs.map (fun v => v.getD k 0)))
  let vec := xs.filter (fun x => sumMismatch t.num tol (cols.map (fun c => tileOut t.num c x)) (tileOut t.num ws x))
  let bad := (List.range cols.length).filter (fun j =>
    let c := cols.getD j []
    sumMismatch t.num tol (xs.map (fun x => tileOut t.num c x)) (tileOut t.num c xsum))
  (bad, vec.length)

end Sys2Proof.Machine
end

