-- ==== Sys2Proof/Machine/SubImage.lean ====
section
/-! DEFINITION. The subspace image (R325, R326), the checks of SUBSPACE_LOAD (R327), and the stages and tiles of a pass
(R305, R311, R312). -/

namespace Sys2Proof.Machine

/-! ### Header and descriptors (R325, R326) -/

/-- The header of a subspace image. -/
structure SubHead where
  magic : Nat
  format : Nat
  version : Nat
  mode : Nat
  tray : Bool
  mahal : Bool
  learn : Bool
  num : Nat
  s : Nat
  nFeat : Nat
  rank : Nat
  missMax : Nat
  resBar : Nat
  mahBar : Nat
  eta : Nat
  imgLen : Nat
  slotOff : Nat
  muOff : Nat
  scaleOff : Nat
  nuOff : Nat
  stageOff : Nat
  crc : Nat
  deriving DecidableEq, Repr

/-- The header of an image. -/
def subHead (b : List Byte) : SubHead :=
  { magic := leAt b 0 4, format := leAt b 4 2, version := leAt b 6 2, mode := fld (leAt b 8 1) 0 2, tray := bit (leAt b 8 1) 2,
    mahal := bit (leAt b 8 1) 3, learn := bit (leAt b 8 1) 4, num := fld (leAt b 9 1) 0 3, s := leAt b 10 2, nFeat := leAt b 12 4,
    rank := leAt b 16 2, missMax := leAt b 18 2, resBar := leAt b 20 4, mahBar := leAt b 24 4, eta := leAt b 28 4,
    imgLen := leAt b 32 4, slotOff := leAt b 36 4, muOff := leAt b 40 4, scaleOff := leAt b 44 4, nuOff := leAt b 48 4,
    stageOff := leAt b 52 4, crc := leAt b 60 4 }

/-- A stage descriptor. -/
structure SubStage where
  wOff : Nat
  k : Nat
  n : Nat
  qin : Nat
  dqOff : Nat
  biasOff : Nat
  act : Bool
  transpose : Bool
  deriving DecidableEq, Repr

/-- Descriptor `i` of an image. -/
def subStage (b : List Byte) (h : SubHead) (i : Nat) : SubStage :=
  let o := h.stageOff + 32 * i
  { wOff := leAt b o 4, k := leAt b (o + 4) 4, n := leAt b (o + 8) 4, qin := leAt b (o + 12) 4, dqOff := leAt b (o + 16) 4,
    biasOff := leAt b (o + 20) 4, act := bit (leAt b (o + 24) 1) 0, transpose := bit (leAt b (o + 24) 1) 1 }

/-- Stages of an image: two, or three with MAHAL (R305). -/
def SubHead.stages (h : SubHead) : List Nat := if h.mahal then [0, 1, 2] else [0, 1]

/-- The slot that entry `i` of the slot map names. -/
def subSlot (b : List Byte) (h : SubHead) (i : Nat) : Nat := leAt b (h.slotOff + 2 * i) 2 % 2048

/-- Entry `i` of a section of 4-byte entries. -/
def subF32 (b : List Byte) (off i : Nat) : Nat := leAt b (off + 4 * i) 4

/-! ### Tiled weights (R326) -/

/-- The byte at which element (k, j) of a tiled matrix with `kk` rows lies, from its start. -/
def tileByte (e kk k j : Nat) : Nat :=
  ((j / 128) * ceilDiv kk 128 + k / 128) * 16384 * e + (128 * (k % 128) + j % 128) * e

/-- Bytes of a tiled matrix. -/
def tiledSize (e k n : Nat) : Nat := ceilDiv k 128 * ceilDiv n 128 * 16384 * e

/-- Element (k, j) of a stage's weights: with TRANSPOSE the tiles hold the matrix with K and N exchanged. -/
def tiledElem (num off kk nn : Nat) (transpose : Bool) (b : List Byte) (k j : Nat) : Nat :=
  let e := elemBytes num
  leAt b (off + (if transpose then tileByte e nn j k else tileByte e kk k j)) e

/-- The columns of a tiled matrix, as elements. -/
def tiledCols (num off kk nn : Nat) (transpose : Bool) (b : List Byte) : List (List Int) :=
  (List.range nn).map (fun j => (List.range kk).map (fun k => numElem num (tiledElem num off kk nn transpose b k j)))

/-- The bytes of a tiled matrix of codes, zero past its dimensions. -/
def tiledBytes (num kk nn : Nat) (f : Nat → Nat → Nat) : List Byte :=
  (List.range (ceilDiv nn 128)).flatMap (fun nt => (List.range (ceilDiv kk 128)).flatMap (fun kt =>
    (List.range 128).flatMap (fun k => (List.range 128).flatMap (fun j =>
      leBytes (elemBytes num) (if 128 * kt + k < kk ∧ 128 * nt + j < nn then f (128 * kt + k) (128 * nt + j) else 0)))))

/-- Put bytes at an offset of an image. -/
def putBytes (b : List Byte) (off : Nat) (x : List Byte) : List Byte := b.take off ++ x ++ b.drop (off + x.length)

/-- Whether a stage's tiles are read transposed: stage 1 of LINEAR uses the weights of stage 0 transposed, so the other way
round than stage 0 reads them (R305, R326). -/
def subTransposed (b : List Byte) (h : SubHead) (i : Nat) : Bool :=
  if h.mode = 0 ∧ i = 1 then !(subStage b h 0).transpose else (subStage b h i).transpose

/-- The offset of a stage's tiles. -/
def subTiles (b : List Byte) (h : SubHead) (i : Nat) : Nat := (subStage b h (if h.mode = 0 ∧ i = 1 then 0 else i)).wOff

/-- A stage of an image as it runs. -/
def subRunStage (b : List Byte) (h : SubHead) (i : Nat) : TrnStage :=
  let d := subStage b h i
  { num := h.num, qin := d.qin, k := d.k, n := d.n, cols := tiledCols h.num (subTiles b h i) d.k d.n (subTransposed b h i) b,
    dq := if h.num = 0 then (List.range d.n).map (subF32 b d.dqOff) else [],
    bias := if d.biasOff = 0 then none else some ((List.range d.n).map (subF32 b d.biasOff)), relu := d.act }

/-- Whether two stages share their weights: one reads the other's tiles transposed, with K and N exchanged (R326). -/
def stagesShare (b : List Byte) (h : SubHead) (i j : Nat) : Bool :=
  let d := subStage b h i
  let e := subStage b h j
  subTiles b h i == subTiles b h j && subTransposed b h i != subTransposed b h j &&
    (h.mode == 0 && i ≤ 1 && j ≤ 1 || d.k == e.n && d.n == e.k)

/-- Stages whose weights take space: not one that shares those of a stage before it (R326). -/
def ownStages (b : List Byte) (h : SubHead) : List Nat :=
  h.stages.filter (fun i => !((h.stages.filter (· < i)).any (stagesShare b h i)))

/-- Weight bytes of all stages (R334). -/
def subWeightBytes (b : List Byte) (h : SubHead) : Nat :=
  (ownStages b h).foldl (fun t i => let d := subStage b h i; t + tiledSize (elemBytes h.num) d.k d.n) 0

/-- U of a LINEAR image as binary32, feature by feature: the master copy of R324. -/
def subMaster (b : List Byte) (h : SubHead) : List Byte :=
  let d := subStage b h 0
  (List.range d.k).flatMap (fun i => (List.range d.n).flatMap (fun j =>
    leBytes 4 (numElem h.num (tiledElem h.num d.wOff d.k d.n d.transpose b i j)).toNat))

/-- An image whose stage weights are converted from a master copy (R324, step 3; R331). -/
def subFromMaster (b : List Byte) (h : SubHead) (m : List Byte) : List Byte :=
  let d := subStage b h 0
  let code (i j : Nat) : Nat := numCode h.num 0 (leAt m (4 * (d.n * i + j)) 4)
  putBytes b d.wOff (if d.transpose then tiledBytes h.num d.n d.k (fun j i => code i j) else tiledBytes h.num d.k d.n code)

/-! ### Checks of SUBSPACE_LOAD (R327)

Each answers the byte offset of the fault, or none. -/

/-- The first of some tests that fails. -/
def firstOff (xs : List (Nat × Bool)) : Option Nat := (xs.find? (·.2)).map (·.1)

/-- Check 1. -/
def subCheck1 (version : Nat) (loaded : Bool) (h : SubHead) : Option Nat :=
  firstOff [(0, h.magic != 0x53425553), (4, h.format != 1), (6, h.version == 0 || h.version != version || loaded)]

/-- Check 2. -/
def subCheck2 (resident : Bool) (h : SubHead) : Option Nat :=
  firstOff [(8, decide (2 ≤ h.mode)), (9, decide (4 ≤ h.num)), (8, h.learn && (h.mode != 0 || h.num == 0 || !resident))]

/-- Sections of an image: where their offset is given, offset and size (R325, R326). -/
def subSections (b : List Byte) (h : SubHead) : List (Nat × Nat × Nat) :=
  [(32, 0, 128), (36, h.slotOff, 2 * h.s), (40, h.muOff, 4 * h.nFeat), (44, h.scaleOff, 4 * h.nFeat)] ++
    (if h.mahal then [(48, h.nuOff, 4 * h.rank)] else []) ++ [(52, h.stageOff, 96)] ++
    (ownStages b h).map (fun i => let d := subStage b h i; (h.stageOff + 32 * i, d.wOff, tiledSize (elemBytes h.num) d.k d.n)) ++
    (if h.num = 0 then h.stages.map (fun i => let d := subStage b h i; (h.stageOff + 32 * i + 16, d.dqOff, 4 * d.n)) else []) ++
    (h.stages.filter (fun i => (subStage b h i).biasOff != 0)).map (fun i =>
      let d := subStage b h i; (h.stageOff + 32 * i + 20, d.biasOff, 4 * d.n))

/-- The first section that shares a byte with one before it. -/
def sectionOverlap : List (Nat × Nat × Nat) → List (Nat × Nat × Nat) → Option Nat
  | _, [] => none
  | seen, x :: xs =>
    if seen.any (fun a => a.2.2 != 0 && x.2.2 != 0 && decide (a.2.1 < x.2.1 + x.2.2) && decide (x.2.1 < a.2.1 + a.2.2)) then some x.1
    else sectionOverlap (seen ++ [x]) xs

/-- Check 3. DEDUCED: an image is a whole number of 8-byte words and its offsets are multiples of 8. -/
def subCheck3 (len : Nat) (b : List Byte) (h : SubHead) : Option Nat :=
  match firstOff [(32, h.imgLen != len || len % 8 != 0), (10, h.s == 0 || decide (2048 < h.s)),
      (12, h.nFeat != (if h.tray then 32 * h.s else h.s)), (16, h.rank == 0 || decide (512 < h.rank)), (18, decide (h.s < h.missMax)),
      (52, h.stageOff % 8 != 0 || decide (len < h.stageOff + 96))] with
  | some o => some o
  | none =>
    let ss := subSections b h
    match ss.find? (fun x => x.2.1 % 8 != 0 || decide (len < x.2.1 + x.2.2)) with
    | some x => some x.1
    | none => sectionOverlap [] ss

/-- Check 4: the dimensions of R305. -/
def subCheck4 (b : List Byte) (h : SubHead) : Option Nat :=
  let dim (i k n : Nat) : List (Nat × Bool) :=
    [(h.stageOff + 32 * i + 4, (subStage b h i).k != k), (h.stageOff + 32 * i + 8, (subStage b h i).n != n)]
  firstOff (dim 0 h.nFeat h.rank ++ dim 1 h.rank h.nFeat ++ (if h.mahal then dim 2 h.rank h.rank else []))

/-- The first entry of a section of binary32 that is not finite. -/
def badEntry (b : List Byte) (off n : Nat) : Option Nat :=
  ((List.range n).find? (fun i => !(f32Finite (subF32 b off i)))).map (fun i => off + 4 * i)

/-- The first weight of a stage that is −128. -/
def badInt8 (b : List Byte) (h : SubHead) (i : Nat) : Option Nat :=
  let d := subStage b h i
  ((List.range (tiledSize 1 d.k d.n)).find? (fun o => leAt b (d.wOff + o) 1 == 128)).map (d.wOff + ·)

/-- Check 5. -/
def subCheck5 (b : List Byte) (h : SubHead) : Option Nat :=
  ([badEntry b h.muOff h.nFeat, badEntry b h.scaleOff h.nFeat] ++ (if h.mahal then [badEntry b h.nuOff h.rank] else []) ++
    (if h.num = 0 then h.stages.map (fun i => badEntry b (subStage b h i).dqOff (subStage b h i).n) else []) ++
    ((h.stages.filter (fun i => (subStage b h i).biasOff != 0)).map (fun i => badEntry b (subStage b h i).biasOff (subStage b h i).n)) ++
    (if h.num = 0 then (ownStages b h).map (badInt8 b h) else [])).findSome? id

/-- Check 6: T is lower-triangular; its element (j, k) is the weight from input k to output j (R305). -/
def subCheck6 (b : List Byte) (h : SubHead) : Option Nat :=
  if h.mahal = false then none
  else
    let d := subStage b h 2
    (List.range d.n).findSome? (fun j =>
      ((List.range d.k).find? (fun k => decide (j < k) && (
        let z := numElem h.num (tiledElem h.num d.wOff d.k d.n d.transpose b k j)
        z != 0 && (h.num == 0 || z != 2 ^ 31)))).map (fun k =>
          d.wOff + (if d.transpose then tileByte (elemBytes h.num) d.n j k else tileByte (elemBytes h.num) d.k k j)))

/-- Check 7: reserved fields, and descriptor 2 without MAHAL. -/
def subCheck7 (b : List Byte) (h : SubHead) : Option Nat :=
  match firstOff ([(8, decide (32 ≤ leAt b 8 1)), (9, decide (8 ≤ leAt b 9 1)), (56, leAt b 56 4 != 0), (64, leAt b 64 64 != 0)] ++
      [0, 1, 2].flatMap (fun i =>
        let o := h.stageOff + 32 * i
        [(o, i == 2 && !h.mahal && leAt b o 32 != 0), (o + 24, decide (4 ≤ leAt b (o + 24) 1)), (o + 25, leAt b (o + 25) 7 != 0)])) with
  | some o => some o
  | none => ((List.range h.s).find? (fun i => decide (2048 ≤ leAt b (h.slotOff + 2 * i) 2))).map (fun i => h.slotOff + 2 * i)

/-- The CRC-32C an image should hold (R325). -/
def subCrc (b : List Byte) : Nat := crc32c (b.take 60 ++ b.drop 64)

/-- The first check of R327 that fails: its code and the byte offset of the fault. -/
def subCheck (version len : Nat) (loaded resident : Bool) (b : List Byte) : Option (Nat × Nat) :=
  let h := subHead b
  match subCheck1 version loaded h with
  | some o => some (1, o)
  | none =>
    match subCheck2 resident h with
    | some o => some (2, o)
    | none =>
      match subCheck3 len b h with
      | some o => some (3, o)
      | none =>
        match subCheck4 b h with
        | some o => some (4, o)
        | none =>
          match subCheck5 b h with
          | some o => some (5, o)
          | none =>
            match subCheck6 b h with
            | some o => some (6, o)
            | none =>
              match subCheck7 b h with
              | some o => some (7, o)
              | none => if subCrc b = h.crc then none else some (8, 60)

/-! ### Tiles (R311) -/

/-- A tile as it is dealt: its stage, N-tile, K-tile and array. -/
structure TrnTile where
  stage : Nat
  nt : Nat
  kt : Nat
  array : Nat
  deriving DecidableEq, Repr

/-- The arrays that no fence takes out. -/
def healthyArrays (fenceArr : Nat) : List Nat := (List.range 4).filter (fun a => !(bit fenceArr a))

/-- The group fenced in an array, if one is. -/
def fencedGroup (fence a : Nat) : Option Nat := (List.range 8).find? (fun g => bit fence (8 * a + g))

/-- The width of an N-tile: 112 once a healthy array runs without one of its groups. -/
def tileWidth (fence fenceArr : Nat) : Nat :=
  if (healthyArrays fenceArr).any (fun a => (fencedGroup fence a).isSome) then 112 else 128

/-- The N-tiles and K-tiles of stages, in the order of the deal. -/
def tileList (w : Nat) (dims : List (Nat × Nat × Nat)) : List (Nat × Nat × Nat) :=
  dims.flatMap (fun d => (List.range (ceilDiv d.2.2 w)).flatMap (fun nt => (List.range (ceilDiv d.2.1 128)).map (fun kt => (d.1, nt, kt))))

/-- Tiles dealt to the healthy arrays in turn (R311). `dims` gives each stage with its K and N. -/
def dealTiles (fence fenceArr : Nat) (dims : List (Nat × Nat × Nat)) : List TrnTile :=
  let hs := healthyArrays fenceArr
  (tileList (tileWidth fence fenceArr) dims).mapIdx (fun i t =>
    { stage := t.1, nt := t.2.1, kt := t.2.2, array := hs.getD (i % hs.length) 0 })

/-- The column of an array that a tile's column `j` runs on: its healthy columns in turn (R319). DESIGN CHOICE: an array whose
own fence TRN_UNFENCE has cleared while two or more of its groups stay fenced has fewer healthy columns than a tile, and takes
the last of them a second time from its first on. -/
def physColumn (fence fenceArr a j : Nat) : Nat :=
  if tileWidth fence fenceArr = 128 then j
  else
    let ok := (List.range 128).filter (fun c => !(bit fence (8 * a + c / 16)))
    ok.getD (if j < ok.length then j else j - ok.length) j

/-- Stages with their dimensions. -/
def subDims (b : List Byte) (h : SubHead) : List (Nat × Nat × Nat) :=
  h.stages.map (fun i => let d := subStage b h i; (i, d.k, d.n))

/-! ### Time (R301, R312) -/

/-- Cycles of the level unit over some elements. -/
def levelCycles (n : Nat) : Nat := 16 + ceilDiv n 128

/-- One stage over the arrays: `free` gives, by array, when its next tile may load; `arrive` when a tile's weights are there,
`first` when the stage may stream. Answers when its last tile completes. -/
def stageTime (s first : Nat) : List (TrnTile × Nat) → Tbl (Nat × Nat) → Nat → Nat × Tbl (Nat × Nat)
  | [], free, last => (last, free)
  | (t, arrive) :: ts, free, last =>
    let (loadFrom, streamFrom) := (Tbl.get? free t.array).getD (0, 0)
    let loaded := max loadFrom arrive + 128
    let start := max (max loaded streamFrom) first
    stageTime s first ts (Tbl.set free t.array (start, start + s)) (max last (start + s + 256))

/-- CMP_CLK cycles of a pass from its grant to its last check (R301, R312, R316): `m` columns, weights resident or streamed
at 384 bytes a cycle. -/
def trnCycles (b : List Byte) (resident : Bool) (fence fenceArr m : Nat) : Nat :=
  let h := subHead b
  let tiles := dealTiles fence fenceArr (subDims b h)
  let bytes := 16384 * elemBytes h.num
  let timed := tiles.mapIdx (fun i t => (t, if resident then 0 else ceilDiv ((i + 1) * bytes) 384))
  let s := (if h.num = 3 then 2 else 1) * (m + 1)
  let (t0, free) := stageTime s (levelCycles (h.nFeat * m)) (timed.filter (fun x => x.1.stage == 0)) [] 0
  let next := t0 + levelCycles (h.rank * m * (if h.mahal then 2 else 1))
  (stageTime s next (timed.filter (fun x => x.1.stage != 0)) free t0).1 + 64

/-! ### A pass's results (R305 to R308) -/

/-- What a column gives: its station, its coefficients, its residual, the squared norms by block, and its squared distance. -/
structure TrnOut where
  station : Nat
  c : List Nat
  e : List Nat
  rho : List (Nat × Nat)
  d2 : Nat
  deriving DecidableEq, Repr

/-- The inputs of a stage over a pass's columns: the centred features, the coefficients, or c − ν. -/
def stageInputs (b : List Byte) (h : SubHead) (cs : List (List Nat)) (xs : List (List Nat)) (i : Nat) : List (List Nat) :=
  if i = 0 then xs else if i = 1 then cs
  else cs.map (fun c => c.mapIdx (fun j x => f32Sub x (subF32 b h.nuOff j)))

/-- The outputs of a column; `blocks` are those that give a residual. -/
def columnOut (b : List Byte) (h : SubHead) (station : Nat) (xs : List Nat) (blocks : List Nat) : TrnOut :=
  let c := (subRunStage b h 0).run xs
  let e := List.zipWith f32Sub xs ((subRunStage b h 1).run c)
  let rho := blocks.map (fun q => (q, sumSquares ((e.drop (q * h.s)).take h.s)))
  let d2 := if h.mahal then sumSquares ((subRunStage b h 2).run (c.mapIdx (fun j x => f32Sub x (subF32 b h.nuOff j)))) else 0
  { station := station, c := c, e := e, rho := rho, d2 := d2 }

/-- A column without its blocks that are not finite; none where the column itself is excluded (R306). Answers how many
columns and blocks are excluded. -/
def finiteOut (tray : Bool) (o : TrnOut) : Option TrnOut × Nat :=
  let rho := o.rho.filter (fun r => f32Finite r.2)
  let lost := if tray then o.rho.length - rho.length else 0
  if (o.c ++ [o.d2]).all f32Finite && !rho.isEmpty then (some { o with rho := rho }, lost) else (none, lost + 1)

/-- The columns that remain, and how many columns and blocks are excluded. -/
def finiteOuts (tray : Bool) (os : List TrnOut) : List TrnOut × Nat :=
  let xs := os.map (finiteOut tray)
  (xs.filterMap (·.1), xs.foldl (fun n x => n + x.2) 0)

/-- Component-wise sums of vectors, in ascending order. -/
def vecSum : List (List Nat) → List Nat
  | [] => []
  | x :: xs => xs.foldl (fun a b => List.zipWith f32Add a b) x

end Sys2Proof.Machine
end

