-- ==== Sys2Proof/Machine/Transit.lean ====
section
/-! DEFINITION. Transit (R303 to R324, R328 to R332): slots, passes, checks, fences, updates, commands. -/

namespace Sys2Proof.Machine

/-! ### Slots (R328, R330, R331) -/

/-- Slots of subspaces. -/
def trnSlots : Nat := 8

/-- The slot's state: 0 EMPTY, 1 LOADING, 2 READY (R334). -/
def State.subState (s : State) (i : Nat) : Nat := s.getF (TRN_SUB_ID i) 30 2

/-- The slot that a version occupies. -/
def State.subSlotOf (s : State) (v : Nat) : Option Nat :=
  (List.range trnSlots).find? (fun i => s.subState i != 0 && s.getF (TRN_SUB_ID i) 0 16 == v)

/-- Whether a slot's weights are kept in scratch. -/
def State.subResident (s : State) (i : Nat) : Bool := s.getB (TRN_SUB_ID i) 29

/-- Whether a slot's subspace is updated under R324. -/
def State.subLearns (s : State) (i : Nat) : Bool := s.getB (TRN_SUB_ID i) 28

/-- Free units of 64 KiB of the weight area (R328). -/
def State.scratchFree (s : State) : Nat :=
  480 - (((List.range trnSlots).filter (fun i => s.subState i != 0 && s.subResident i)).map (fun i =>
    s.getF (TRN_SUB_SIZE i) 0 16)).foldl (· + ·) 0

/-- TRN_SCR_FREE follows the slots. -/
def scratchNote (s : State) : State := s.wr TRN_SCR_FREE (s.scratchFree * 64)

/-- A slot becomes EMPTY. -/
def subDrop (i : Nat) (s : State) : State :=
  let s1 := ((s.wr (TRN_SUB_ID i) 0).wr (TRN_SUB_SIZE i) 0).wr (TRN_SUB_ADDR i) 0
  scratchNote { s1 with trn := { s1.trn with
    weights := Tbl.erase s1.trn.weights i, lens := Tbl.erase s1.trn.lens i, learnAt := Tbl.erase s1.trn.learnAt i,
    learned := s1.trn.learned.filter (· != i), updates := Tbl.erase s1.trn.updates i } }

/-- A subspace takes its slot, READY or LOADING (R328, R334). -/
def subPlace (i st addr : Nat) (resident : Bool) (learnAt : Option Nat) (b : List Byte) (s : State) : State :=
  let h := subHead b
  let id := st * 2 ^ 30 + b2n resident * 2 ^ 29 + b2n h.learn * 2 ^ 28 + h.version
  let s1 := ((s.wr (TRN_SUB_ID i) id).wr (TRN_SUB_SIZE i) (h.rank * 2 ^ 16 + ceilDiv (subWeightBytes b h) 65536)).wr (TRN_SUB_ADDR i) addr
  scratchNote { s1 with trn := { s1.trn with
    lens := Tbl.set s1.trn.lens i b.length,
    learnAt := match learnAt with | some a => Tbl.set s1.trn.learnAt i a | none => s1.trn.learnAt } }

/-- Weights are copied into scratch. -/
def subWrite (i : Nat) (b : List Byte) (s : State) : State :=
  scratchNote (memWritten 6 i <| memGone 6 i { s with trn := { s.trn with weights := Tbl.set s.trn.weights i b } })

/-- The image of a slot as hold memory has it (R329). -/
def subFetch (i : Nat) (s : State) : Option (List Byte) × State :=
  loadBytes (s.rd (TRN_SUB_ADDR i)) ((Tbl.get? s.trn.lens i).getD 0) s

/-- Versions that pending SUBSPACE_SWAP rulings pin (R330). -/
def State.subPins (s : State) : List Nat := (s.par.pend.filter (fun r => r.kind == 5)).map (fun r => leAt r.body 0 2)

/-- The version pending for a parcel, 0 where none is (R333). -/
def State.subPending (s : State) (parcel : Nat) : Nat :=
  ((s.par.pend.filter (fun r => r.kind == 5 && r.parcel == parcel)).head?.map (fun r => leAt r.body 0 2)).getD 0

/-- Contexts bound to a version or pinning it (R334). -/
def State.subBound (s : State) (v : Nat) : Nat :=
  (s.par.ctxs.filter (fun e => e.2.level == 1 && e.2.sub == v)).length + (s.subPins.filter (· == v)).length

/-- Whether an epoch whose pass is not complete names a version (R331). -/
def State.subNamed (s : State) (v : Nat) : Bool :=
  s.par.ctxs.any (fun e => e.2.level == 1 && e.2.epochs.any (fun x => x.sub == v && (x.trn != .done || x.trnCheck == .pending))) ||
    s.trn.pass.any (fun p => s.getF (TRN_SUB_ID p.slot) 0 16 == v)

/-! ### Readiness (R309, R310, R320) -/

/-- Whether Transit can work: its tier is in ACTIVE and it is not held in reset. -/
def State.trnUp (s : State) : Bool := s.computeActive && !s.quiesced .transit

/-- Whether every array is fenced, or the unit is (R320, R447). -/
def State.trnFenced (s : State) : Bool := s.fenced .transit || s.getF TRN_FENCE_ARR 0 4 == 15

/-- Ready passes in order (R309). -/
def State.trnJobs (s : State) : List CadJob :=
  (s.par.ctxs.flatMap (fun e => if e.2.level != 1 then [] else
    (e.2.epochs.filter (fun x => x.trn == .pending && x.gate && x.own != .waiting &&
      !(s.trn.pass.any (fun p => p.ctx == e.1 && p.k == x.k)))).map (fun x =>
        { ctx := e.1, k := x.k, fin := e.2.boundary (x.k + 1), seq := e.2.seq : CadJob }))).foldl (fun l j => insertJob j l) []

/-- Whether a TRN_RUN runs. -/
def State.trnRunning (s : State) : Bool := s.pil.jobs.any (fun j => j.opcode == 0x42 && j.phase == .running)

/-- READY resident subspaces whose weights do not stand in scratch, in ascending slot order (R331). -/
def State.trnReloadDue (s : State) : List Nat :=
  (List.range trnSlots).filter (fun i => s.subState i == 2 && s.subResident i && (Tbl.get? s.trn.weights i).isNone)

/-- The first subspace that waits for its reload asks for leave (R331). -/
def trnReloadAsk (s : State) : State :=
  match s.trnReloadDue with
  | [] => s
  | i :: _ =>
    if s.trnUp = false ∨ s.asksLeave (.trnReload i) = true then s
    else askLeave 2 (s.pwrClass TRN_PWR) (s.pwrAmt TRN_PWR) (.trnReload i) s

/-- TRN_RUN commands that have not begun. -/
def State.trnRunWaits (s : State) : List Job :=
  s.pil.jobs.filter (fun j => j.opcode == 0x42 && (match j.phase with | .waitLeave _ => true | _ => false))

/-- Waiting TRN_RUN commands end as FENCED while every array is fenced (R320), and ask for leave once no pass is ready or under
way (R309). -/
def trnRunAsk (s : State) : State :=
  if s.trnFenced then s.each s.trnRunWaits (fun j t => finishJob j.id stFenced [] (releaseLeave (.trnLoad j.id) t))
  else if s.trn.pass.isSome ∨ s.trnJobs ≠ [] then s
  else
    s.each s.trnRunWaits (fun j t =>
      if t.asksLeave (.trnLoad j.id) || t.hasLeave (.trnLoad j.id) then t
      else askLeave 2 (t.pwrClass TRN_PWR) (t.pwrAmt TRN_PWR) (.trnLoad j.id) t)

/-- Give passes up (R310, R320); a TRN_RUN may have waited for them. -/
def trnGiveUp (js : List CadJob) (s : State) : State :=
  trnRunAsk (s.each js (fun j t => advanceAll j.ctx (trnAbandon j.ctx j.k t)))

/-- LEAVE_WAIT: a pass or load waited for leave (R334). -/
def trnWaited (waited : Bool) (s : State) : State := if waited then s.evt TRN_EVT 8 else s

/-- The request of a pass is withdrawn, the pass being given up; while it waited it has waited for leave (R334). -/
def trnUnask (s : State) : State := releaseLeave (.trnPass 0) (trnWaited (s.asksLeave (.trnPass 0)) s)

/-- Ready passes end as abandoned while every array is fenced, STRICT or not (R320); a pass under way keeps its leave until its
last check (R310). -/
def trnFence (s : State) : State :=
  if s.trnFenced then
    trnGiveUp s.trnJobs (if s.trn.pass.isNone then trnUnask s else s)
  else s

/-! ### Columns (R303, R304) -/

/-- A station's features by the slot map: the value, or none where it is missing. -/
def slotFeats (b : List Byte) (h : SubHead) (es : List (Nat × Nat)) : List (Option Nat) :=
  (List.range h.s).map (fun i =>
    match es.find? (fun x => x.1 == subSlot b h i) with
    | some x => if f32IsNan x.2 then none else some x.2
    | none => none)

/-- Centred features, the first of them feature `from` of the image (R304). -/
def centred (b : List Byte) (h : SubHead) (first : Nat) (vs : List (Option Nat)) : List Nat :=
  vs.mapIdx (fun i v => match v with
    | none => 0
    | some x => f32Mul (f32Sub x (subF32 b h.muOff (first + i))) (subF32 b h.scaleOff (first + i)))

/-- How many features are missing. -/
def missCount (vs : List (Option Nat)) : Nat := (vs.filter (·.isNone)).length

/-- The Transit entries of an included station of an epoch. -/
def State.trnOf (s : State) (e : Epoch) (st : Nat) : List (Nat × Nat) :=
  if st = s.station then s.trnEntries e.ownVals
  else match e.kids.find? (fun x => x.station == st) with
    | none => []
    | some x => (List.range (x.trn.length / 8)).map (fun i => (leAt x.trn (8 * i) 2, leAt x.trn (8 * i + 4) 4))

/-- The input columns of a pass, and how many columns and blocks are excluded at once (R303, R304). -/
def State.trnColumns (s : State) (c : Ctx) (e : Epoch) (b : List Byte) : List TrnCol × Nat :=
  let h := subHead b
  let sts := s.rowStations c e
  if h.tray then
    let vs := (List.range 32).map (fun q =>
      let st := sts.find? (fun x => x != s.station && stChain x * 16 + stPos x == q + 1)
      match st with
      | some x => slotFeats b h (s.trnOf e x)
      | none => List.replicate h.s none)
    let blocks := (List.range 32).filter (fun q => decide (missCount (vs.getD q []) ≤ h.missMax))
    let xs := (vs.mapIdx (fun q v => centred b h (q * h.s) v)).flatMap id
    if blocks.isEmpty then ([], 33) else ([{ station := s.station, xs := xs, blocks := blocks }], 32 - blocks.length)
  else
    let cs := (sortAsc sts).map (fun st => (st, slotFeats b h (s.trnOf e st)))
    let ok := cs.filter (fun x => decide (missCount x.2 ≤ h.missMax))
    (ok.map (fun x => { station := x.1, xs := centred b h 0 x.2, blocks := [0] }), cs.length - ok.length)

/-- The station of block `q` of the TRAY layout. -/
def State.blockStation (s : State) (q : Nat) : Nat := s.station / 64 * 64 + q / 16 * 32 + q % 16 + 1

/-! ### Results (R306 to R308, R321) -/

/-- The columns of a pass that remain after R306, and how many more columns and blocks are excluded. -/
def TrnPass.outs (p : TrnPass) : List TrnOut × Nat :=
  let h := subHead p.image
  finiteOuts h.tray (p.cols.map (fun c => columnOut p.image h c.station c.xs c.blocks))

/-- The station that a column's block stands for. -/
def State.rhoStation (s : State) (tray : Bool) (o : TrnOut) (q : Nat) : Nat := if tray then s.blockStation q else o.station

/-- The largest of values, each with its station (R308). -/
def largest : List (Nat × Nat) → Nat × Nat
  | [] => (0, 0)
  | x :: xs => xs.foldl maxOf x

/-- The section of a pass's remaining columns; empty where none remains (R308, R321). -/
def State.trnSectionOf (s : State) (p : TrnPass) (os : List TrnOut) (excl : Nat) : List Byte :=
  let h := subHead p.image
  let rhos := os.flatMap (fun o => o.rho.map (fun r => (r.2, s.rhoStation h.tray o r.1)))
  let d2s := if h.mahal then os.map (fun o => (o.d2, o.station)) else []
  if rhos.isEmpty then []
  else
    let r := largest rhos
    let m := largest d2s
    ({ subVer := h.version, nCol := rhos.length, nExcl := excl, flags := b2n p.learned + b2n h.mahal * 2,
       resSum := f32Sum (rhos.map (·.1)), resMax := r.1, resStn := r.2, mahSum := f32Sum (d2s.map (·.1)), mahMax := m.1,
       mahStn := m.2, coefSum := vecSum (os.map (·.c)), coefSq := vecSum (os.map (fun o => o.c.map (fun x => f32Mul x x))) : TrnSec }).bytes

/-- Whether a value is at or past its bar; a bar of +∞ disables the test (R307). -/
def barPassed (bar v : Nat) : Bool := !(f32IsInf bar) && f32Le bar v

/-- The suspects of a pass's DRIFT votes, in order (R307). -/
def State.trnSuspects (s : State) (p : TrnPass) (os : List TrnOut) : List Nat :=
  let h := subHead p.image
  os.flatMap (fun o =>
    let far := h.mahal && barPassed h.mahBar o.d2
    if h.tray then
      (o.rho.filter (fun r => barPassed h.resBar r.2)).map (fun r => suspectNo (s.blockStation r.1) 0xFFF) ++
        (if far then [suspectNo s.station 0xFFF] else [])
    else if far || o.rho.any (fun r => barPassed h.resBar r.2) then [suspectNo o.station 0xFFF] else [])

/-- Tiles of a pass, in the order of the deal (R311). -/
def TrnPass.tiles (p : TrnPass) : List TrnTile :=
  if p.cols.isEmpty then [] else dealTiles p.fence p.fenceArr (subDims p.image (subHead p.image))

/-- The last tile has completed: the contribution and the votes stand (R306 to R308, R313). -/
def trnFormed (p : TrnPass) (s : State) : State :=
  let (os, ex) := p.outs
  let excl := p.excluded + ex
  let s1 := (s.inc TRN_EXCL excl).modEpoch p.ctx p.k (fun e =>
    { e with trn := .done, trnBytes := s.trnSectionOf p os excl, trnVotes := s.trnSuspects p os })
  advanceAll p.ctx s1

/-! ### Updates (R324) -/

/-- The master copy after an epoch: each element plus η times its sum over the columns. -/
def learnMaster (h : SubHead) (os : List TrnOut) (m : List Byte) : List Byte :=
  let resid (o : TrnOut) (i : Nat) : Int :=
    ((if h.tray && !(o.rho.any (fun r => r.1 == i / h.s)) then 0 else o.e.getD i 0 : Nat) : Int)
  let es (i : Nat) : List Int := os.map (fun o => resid o i)
  let cs (j : Nat) : List Int := os.map (fun o => ((o.c.getD j 0 : Nat) : Int))
  (List.range h.nFeat).flatMap (fun i => (List.range h.rank).flatMap (fun j =>
    let du := f32Mul h.eta (columnSum 3 (ceilDiv os.length 128) (cs j) (es i)).toNat
    leBytes 4 (f32Add (leAt m (4 * (h.rank * i + j)) 4) du)))

/-- The update after a pass that passed all its checks; the new weights serve the epoch after next (R324). -/
def trnLearn (p : TrnPass) (s : State) : State :=
  let h := subHead p.image
  match Tbl.get? s.trn.learnAt p.slot with
  | none => s
  | some a =>
    if h.learn = false ∨ s.getB TRN_CTL 0 = false ∨ (Tbl.get? s.trn.weights p.slot).isNone = true then s
    else
      match loadBytes a (4 * h.nFeat * h.rank) s with
      | (none, s1) => s1
      | (some m, s1) =>
        let m1 := learnMaster h p.outs.1 m
        let s2 := (storeBytes a m1 s1).2
        let u := (Tbl.get? s2.trn.updates p.slot).getD [] ++ [(p.ctx, p.k + 2, subFromMaster p.image h m1)]
        let s3 : State := { s2 with trn := { s2.trn with updates := Tbl.set s2.trn.updates p.slot u } }
        ((memWritten 6 p.slot s3).inc TRN_LEARN 1).evt TRN_EVT 9

/-- The weights that serve a context's epoch: updates due by then take the place of those in scratch (R324). -/
def trnServe (i n k : Nat) (s : State) : State :=
  let us := (Tbl.get? s.trn.updates i).getD []
  let due := us.filter (fun u => u.1 != n || decide (u.2.1 ≤ k))
  match due.getLast? with
  | none => s
  | some u => { s with trn := { s.trn with
      weights := Tbl.set s.trn.weights i u.2.2,
      learned := if s.trn.learned.contains i then s.trn.learned else s.trn.learned ++ [i],
      updates := Tbl.set s.trn.updates i (us.filter (fun u => u.1 == n && decide (k < u.2.1))) } }

/-! ### Checks and fences (R315 to R319) -/

/-- Whether a whole array is to be fenced: two groups of it are, or two unlocated counts stand against it. -/
def State.arrayFails (s : State) (a : Nat) : Bool := decide (2 ≤ popCount 8 (s.getF TRN_FENCE (8 * a) 8))

/-- A fence is raised and recorded (R319). -/
def fenceNote (a : Nat) (whole : Bool) (s : State) : State :=
  logEvent 0x30 (leBytes 1 a ++ leBytes 1 (s.getF TRN_FENCE (8 * a) 8) ++ leBytes 1 (b2n whole)) ((faultEdge 33 s).evt TRN_EVT 4)

/-- A whole array is fenced. -/
def fenceArray (a : Nat) (s : State) : State :=
  if s.getB TRN_FENCE_ARR a then s else fenceNote a true (s.putB TRN_FENCE_ARR a true)

/-- A column group is fenced; the second of an array fences the array. -/
def fenceGroup (a g : Nat) (s : State) : State :=
  if s.getB TRN_FENCE (8 * a + g) then s
  else
    let s1 := fenceNote a false (s.putB TRN_FENCE (8 * a + g) true)
    if s1.arrayFails a then fenceArray a s1 else s1

/-- A count against a group (8: unlocated) of an array; the second within FENCE_WIN fences (R318, R319). -/
def fenceCount (a g : Nat) (s : State) : State :=
  let win := s.getF TRN_CTL 8 8 * 12500000
  let live := s.trn.counts.filter (fun x => x.1 == a && x.2.1 == g && decide (s.dat.edges ≤ x.2.2 + win))
  let rest := s.trn.counts.filter (fun x => !(x.1 == a && x.2.1 == g))
  if live.isEmpty then { s with trn := { s.trn with counts := rest ++ [(a, g, s.dat.edges)] } }
  else
    let s1 : State := { s with trn := { s.trn with counts := rest } }
    if g = 8 then fenceArray a s1 else fenceGroup a g s1

/-- Mismatches of one tile: `groups` those of its failing column checks, `n` how many comparisons failed (R316, R318). -/
def tileFails (a : Nat) (groups : List Nat) (n : Nat) (s : State) : State :=
  if n = 0 then s
  else
    let s1 := (faultEdge 32 (s.inc TRN_MISMATCH n)).evt TRN_EVT 2
    let s2 := s1.each (List.range n) (fun _ t => rateNote 9 t)
    trnFence (if groups.isEmpty then fenceCount a 8 s2 else s2.each groups.eraseDups (fun g t => fenceCount a g t))

/-- The groups of an array that a tile's failing columns lie in (R318). -/
def groupsOf (fence fenceArr a : Nat) (cols : List Nat) : List Nat := cols.map (fun j => physColumn fence fenceArr a j / 16 % 8)

/-- The checks of one tile of a pass (R315): failing columns of the tile, and failing vector checks. -/
def passTileChecks (p : TrnPass) (tol : Nat) (t : TrnTile) : List Nat × Nat :=
  let h := subHead p.image
  let st := subRunStage p.image h t.stage
  let cs := if t.stage = 0 then [] else p.cols.map (fun c => (subRunStage p.image h 0).run c.xs)
  let xs := stageInputs p.image h cs (p.cols.map (·.xs)) t.stage
  let w := tileWidth p.fence p.fenceArr
  tileChecks st tol t.kt (t.nt * w) w (xs.map st.input)

/-! ### Passes (R309, R310, R313, R316, R317) -/

/-- The contribution of a pass that failed is voided (R317). -/
def trnVoid (n k : Nat) (s : State) : State :=
  ((s.modEpoch n k (fun e => { e with trnFailed := true, trnVotes := [] })).inc TRN_VOIDS 1).evt TRN_EVT 3

/-- The votes of a pass that passed enter the epoch (R307). -/
def trnVotesIn (n k : Nat) (s : State) : State :=
  s.each (((s.epoch? n k).map (·.trnVotes)).getD []) (fun v t =>
    let (ok, u) := raiseVoteOf true n k 2 v 1 t
    if ok then u.inc TRN_VOTES 1 else u)

/-- The epoch goes on once its checks have completed: RESOLVE leaves, or what waited for them (R187, R313). -/
def trnHandOn (n k : Nat) (s : State) : State :=
  let s1 := s.modEpoch n k (fun e => { e with trnCheck := .done })
  match s1.ctx? n, s1.epoch? n k with
  | some c, some e => if e.sentPending then sendResolve n c e s1 else advanceAll n s1
  | _, _ => s1

/-- The last check of a pass has completed; the update that may follow runs under its leave, which is then released (R310, R317,
R324, R432). -/
def trnPassEnd (p : TrnPass) (s : State) : State :=
  let s1 : State := { s with trn := { s.trn with pass := none } }
  let s2 := (s1.inc TRN_PASSES 1).maxR TRN_PASS_MAX (trnCycles p.image (s.subResident p.slot) p.fence p.fenceArr p.cols.length)
  let s3 := if p.failed then trnVoid p.ctx p.k s2 else trnLearn p (trnVotesIn p.ctx p.k s2)
  trnRunAsk (trnHandOn p.ctx p.k (releaseLeave (.trnPass 0) s3))

/-- A pass begins on its columns; one without columns ends at once (R303, R304). -/
def trnPassBegin (j : CadJob) (i : Nat) (s : State) : State :=
  let s0 := trnServe i j.ctx j.k s
  let (img, s1) : Option (List Byte) × State := if s0.subResident i then (Tbl.get? s0.trn.weights i, s0) else subFetch i s0
  match img, s1.ctx? j.ctx, s1.epoch? j.ctx j.k with
  | some b, some c, some e =>
    let (cols, ex) := s1.trnColumns c e b
    let p : TrnPass :=
      { ctx := j.ctx, k := j.k, slot := i, image := b, learned := s1.trn.learned.contains i, cols := cols, excluded := ex, done := 0,
        checked := 0, fence := s1.rd TRN_FENCE, fenceArr := s1.rd TRN_FENCE_ARR, failed := false }
    let s2 : State := { s1 with trn := { s1.trn with pass := some p } }
    if cols.isEmpty then trnPassEnd p (trnFormed p s2) else s2
  | _, _, _ => releaseLeave (.trnPass 0) (trnGiveUp [j] s1)

/-- TRANSIT_PASS_START (R309, R310): the next pass begins, or asks for the leave it needs. -/
def trnStart (s : State) : State :=
  if s.trnUp = false ∨ s.trn.pass.isSome = true ∨ s.plm.goal.isSome = true ∨ s.trnRunning = true then s
  else if s.trnReloadDue ≠ [] then trnReloadAsk s
  else if s.trnFenced then trnFence s
  else
    match s.trnJobs with
    | [] => s
    | j :: _ =>
      match s.subSlotOf (((s.epoch? j.ctx j.k).map (·.sub)).getD 0) with
      | none => trnGiveUp [j] s
      | some i =>
        if s.hasLeave (.trnPass 0) then trnPassBegin j i s
        else if s.asksLeave (.trnPass 0) then s
        else askLeave 2 (s.pwrClass TRN_PWR) (s.pwrAmt TRN_PWR) (.trnPass 0) s

/-- Leave for a pass is granted: it begins, or the grant is given back where it cannot. -/
def trnPassGranted (s : State) : State :=
  let s1 := trnStart s
  if s1.trn.pass.isSome then s1 else releaseLeave (.trnPass 0) s1

/-- TRANSIT_TILE_COMPLETE (R312): the next tile of the pass completes; with the last the epilogues are formed. -/
def trnTile (s : State) : State :=
  match s.trn.pass with
  | none => s
  | some p =>
    let n := p.tiles.length
    if n ≤ p.done then s
    else
      let p1 := { p with done := p.done + 1 }
      let s1 := (memReadBack 6 p.slot { s with trn := { s.trn with pass := some p1 } }).inc TRN_TILES 1
      if p1.done = n then trnFormed p1 s1 else s1

/-- TRANSIT_CHECK_COMPLETE (R316): the checks of the oldest tile not yet checked. `cols` and `unlocated` are mismatches that
an error of the array brings about beside those of rounding. -/
def trnCheckDone (cols : List Nat) (unlocated : Bool) (s : State) : State :=
  match s.trn.pass with
  | none => s
  | some p =>
    match p.tiles[p.checked]? with
    | none => s
    | some t =>
      if p.done ≤ p.checked then s
      else
        let (bad, vec) := passTileChecks p (s.rd TRN_ABFT_TOL) t
        let allBad := (bad ++ cols.map (· % 128)).eraseDups
        let n := allBad.length + vec + b2n (unlocated && vec == 0)
        let p1 := { p with checked := p.checked + 1, failed := p.failed || n != 0 }
        let s1 := tileFails t.array (groupsOf p.fence p.fenceArr t.array allBad) n { s with trn := { s.trn with pass := some p1 } }
        if p1.checked = p.tiles.length then trnPassEnd p1 s1 else s1

/-- TRANSIT_RUN_TIMEOUT (R310): a pass not begun is abandoned, but not under STRICT. `ep` is the epoch's low bits. -/
def trnRunTimeout (parcel ep : Nat) (s : State) : State :=
  match s.ctxAt parcel 1 with
  | none => s
  | some (n, _) =>
    match s.trnJobs.find? (fun j => j.ctx == n && j.k % 2 ^ 24 == ep % 2 ^ 24) with
    | none => s
    | some j =>
      if s.getB EPO_CTL 0 then s
      else
        let s1 := trnGiveUp [j] s
        if s1.trnJobs.isEmpty ∧ s1.trn.pass.isNone = true then trnUnask s1 else s1

/-- What Transit loses with the power of its tier, at ZY_CRST_N or under QUIESCE: scratch and the pass under way (R331,
R447). A contribution already sent is voided, since its checks never complete. -/
def trnLose (s : State) : State :=
  let s1 := releaseLeave (.trnPass 0) { s with trn := { s.trn with pass := none, weights := [] } }
  match s.trn.pass with
  | none => s1
  | some p =>
    match s1.epoch? p.ctx p.k with
    | none => s1
    | some e => if e.sentPending then trnHandOn p.ctx p.k (trnVoid p.ctx p.k s1) else trnAbandon p.ctx p.k s1

/-! ### Reloads (R331) -/

/-- The weights of a slot read again, if its image's CRC matches: from the learn area where it learns. -/
def trnReload (i : Nat) (s : State) : Option (List Byte) × State :=
  match subFetch i s with
  | (none, s1) => (none, s1)
  | (some b, s1) =>
    if subCrc b ≠ (subHead b).crc then (none, s1)
    else
      match Tbl.get? s1.trn.learnAt i with
      | none => (some b, s1)
      | some a =>
        match loadBytes a (4 * (subHead b).nFeat * (subHead b).rank) s1 with
        | (none, s2) => (none, s2)
        | (some m, s2) => (some (subFromMaster b (subHead b) m), s2)

/-- Leave for a reload is granted (R331). -/
def trnReloadGranted (i : Nat) (s : State) : State :=
  if s.trnUp = false ∨ s.trnReloadDue.contains i = false then releaseLeave (.trnReload i) s
  else
    let v := s.getF (TRN_SUB_ID i) 0 16
    let done (t : State) : State := trnReloadAsk (releaseLeave (.trnReload i) t)
    match trnReload i s with
    | (some b, s1) =>
      let was := s1.trn.learned.contains i || ((Tbl.get? s1.trn.updates i).getD []) != []
      done (subWrite i b { s1 with trn := { s1.trn with
        learned := if was && !(s1.trn.learned.contains i) then s1.trn.learned ++ [i] else s1.trn.learned,
        updates := Tbl.erase s1.trn.updates i } })
    | (none, s1) =>
      let t := (subDrop i s1).evt TRN_EVT 7
      let u : State := { t with par := { t.par with ctxs := t.par.ctxs.map (fun e =>
        (e.1, { e.2 with sub := if e.2.level = 1 ∧ e.2.sub = v then 0 else e.2.sub })) } }
      done (trnGiveUp (u.trnJobs.filter (fun j => ((u.epoch? j.ctx j.k).map (·.sub)).getD 0 == v)) u)

/-! ### SUBSPACE_LOAD, SUBSPACE_UNLOAD (R327, R328, R331, R332) -/

/-- A refused load; with ASYNC_OK it has been accepted and is refused finally (R332, R334). -/
def subRefused (c : Cmd) (st : Nat) (res : List Word) (s : State) : Ans × State := finished c st res (s.evt TRN_EVT 1)

/-- SUBSPACE_LOAD. -/
def subLoad (c : Cmd) (s : State) : Ans × State :=
  let v := c.f 5 0 16
  let resident := bit (c.w 5) 16
  let area := bit (c.w 5) 17
  if c.w 4 = 0 then subRefused c stBadLen [] s
  else if s.fenced .transit || s.quiesced .transit then subRefused c stFenced [] s
  else if s.holdAsks (c.w 4) then holdWait s
  else
    match loadBytes (c.w64 2) (c.w 4) s with
    | (none, s1) => subRefused c stTimeout [] s1
    | (some b, s1) =>
      match subCheck v b.length (s1.subSlotOf v).isSome resident b with
      | some (code, off) => subRefused c stBadParam [w32 code, w32 off] s1
      | none =>
        let h := subHead b
        if h.learn && !area then subRefused c stBadParam [0#32, 0#32] s1
        else
          match (List.range trnSlots).find? (fun i => s1.subState i == 0) with
          | none => subRefused c stNoSpace [] s1
          | some i =>
            let la := if h.learn then some (c.w64 6) else none
            if resident then
              if s1.scratchFree < ceilDiv (subWeightBytes b h) 65536 then subRefused c stNoSpace [] s1
              else
                (.started (.waitLeave 0) (.bytes b),
                  askLeave 2 (s1.pwrClass TRN_PWR) (s1.pwrAmt TRN_PWR) (.trnLoad s1.pil.nextJob) (subPlace i 1 (c.w64 2) true la b s1))
            else finished c stOk [w32 i] ((subPlace i 2 (c.w64 2) false none b s1).evt TRN_EVT 0)

/-- The copy of a load that has its leave; a learning subspace's master copy is laid down (R324, R328). -/
def subLoadCopy (id i : Nat) (b : List Byte) (j : Job) (s : State) : State :=
  let h := subHead b
  let la := if h.learn then some (j.cmd.w64 6) else none
  let (ok, s1) := match la with
    | some a => storeBytes a (subMaster b h) s
    | none => (true, s)
  if ok then finishJob id stOk [w32 i] (subWrite i b ((subPlace i 2 (j.cmd.w64 2) true la b s1).evt TRN_EVT 0))
  else finishJob id stTimeout [] ((subDrop i s1).evt TRN_EVT 1)

/-- Leave for a load or a TRN_RUN is granted (R309, R328, R332). -/
def trnLoadGranted (id : Nat) (s : State) : State :=
  match s.job? id with
  | none => releaseLeave (.trnLoad id) s
  | some j =>
    if j.opcode = 0x42 then
      if s.trnFenced then finishJob id stFenced [] (releaseLeave (.trnLoad id) s)
      else if s.trn.pass.isSome ∨ s.trnJobs ≠ [] then releaseLeave (.trnLoad id) s
      else modJob id (fun x => { x with phase := .running }) s
    else
      releaseLeave (.trnLoad id) (match j.data, s.subSlotOf (j.cmd.f 5 0 16) with
        | .bytes b, some i =>
          if s.fenced .transit || s.quiesced .transit then finishJob id stFenced [] ((subDrop i s).evt TRN_EVT 1)
          else subLoadCopy id i b j s
        | _, _ => finishJob id stBusyPower [] s)

/-- Leave for a load or a TRN_RUN was refused (R328, R332). -/
def trnLoadRefused (id : Nat) (s : State) : State :=
  match s.job? id with
  | none => s
  | some j =>
    let s1 := finishJob id stBusyPower [] s
    if j.opcode = 0x42 then s1
    else
      match s1.subSlotOf (j.cmd.f 5 0 16) with
      | some i => (subDrop i s1).evt TRN_EVT 1
      | none => s1

/-- SUBSPACE_UNLOAD. -/
def subUnload (c : Cmd) (s : State) : Ans × State :=
  let v := c.f 2 0 16
  match readySlot TRN_SUB_ID trnSlots s v with
  | none => ans stAbsent s
  | some i => if s.subBound v ≠ 0 ∨ s.subNamed v = true then ans stBusyContext s else ans stOk (subDrop i s)

/-! ### TRN_RUN (R332) -/

/-- TRN_RUN. -/
def trnRun (c : Cmd) (s : State) : Ans × State :=
  let k := c.w 8
  let n := c.w 9
  let m := c.f 10 0 13
  if k = 0 ∨ n = 0 then ans stBadLen s
  else if 65536 < k ∨ 65536 < n ∨ 4096 < m ∨ 4 ≤ c.f 11 0 3 then ans stBadParam s
  else if s.trnFenced ∨ s.quiesced .transit = true then ans stFenced s
  else if m = 0 then ansWith [0#32] s
  else (.started (.waitLeave 0) .plain,
    if s.trn.pass.isSome ∨ s.trnJobs ≠ [] then s
    else askLeave 2 (s.pwrClass TRN_PWR) (s.pwrAmt TRN_PWR) (.trnLoad s.pil.nextJob) s)

/-- The stage of a TRN_RUN over its weights. -/
def runStage (c : Cmd) (w : List Byte) : TrnStage :=
  let num := c.f 11 0 3
  { num := num, qin := 0x3F800000, k := c.w 8, n := c.w 9, cols := tiledCols num 0 (c.w 8) (c.w 9) (bit (c.w 11) 4) w,
    dq := List.replicate (c.w 9) 0x3F800000, bias := none, relu := bit (c.w 11) 3 }

/-- The inputs of a TRN_RUN: M columns of K values. -/
def runInputs (c : Cmd) (x : List Byte) : List (List Nat) :=
  (List.range (c.f 10 0 13)).map (fun v => (List.range (c.w 8)).map (fun k => subF32 x 0 (v * c.w 8 + k)))

/-- The checks of a TRN_RUN, tile by tile: whether any failed (R315, R332). -/
def runChecks (t : TrnStage) (xs : List (List Nat)) (s : State) : Bool × State :=
  let fence := s.rd TRN_FENCE
  let arr := s.rd TRN_FENCE_ARR
  let w := tileWidth fence arr
  let tol := s.rd TRN_ABFT_TOL
  let ins := xs.map t.input
  (dealTiles fence arr [(0, t.k, t.n)]).foldl (fun a x =>
    let (bad, vec) := tileChecks t tol x.kt (x.nt * w) w ins
    let n := bad.length + vec
    (a.1 || n != 0, tileFails x.array (groupsOf fence arr x.array bad) n (a.2.inc TRN_TILES 1))) (false, s)

/-- A running TRN_RUN is done: Y is written whatever the checks found (R332). -/
def trnRunDone (id : Nat) (s : State) : State :=
  match s.job? id with
  | none => s
  | some j =>
    let c := j.cmd
    let e := elemBytes (c.f 11 0 3)
    let (x, s1) := loadBytes (c.w64 2) (4 * c.w 8 * c.f 10 0 13) s
    let size := if bit (c.w 11) 4 then tiledSize e (c.w 9) (c.w 8) else tiledSize e (c.w 8) (c.w 9)
    let (w, s2) := loadBytes (c.w64 4) size s1
    let free (t : State) : State := releaseLeave (.trnLoad id) t
    match x, w with
    | some xb, some wb =>
      let t := runStage c wb
      let xs := runInputs c xb
      let (bad, s3) := runChecks t xs s2
      let (ok, s4) := storeBytes (c.w64 6) ((xs.flatMap t.run).flatMap (leBytes 4)) s3
      free (if ok then finishJob id stOk [w32 (b2n bad)] s4 else finishJob id stTimeout [] s4)
    | _, _ => free (finishJob id stTimeout [] s2)

/-! ### TRN_SET, TRN_UNFENCE, TRN_READ (R332) -/

/-- TRN_SET. -/
def trnSet (c : Cmd) (s : State) : Ans × State :=
  let tol := c.w 4
  if c.f 2 16 16 = 0 ∨ c.f 2 8 8 = 0 ∨ c.f 2 1 7 ≠ 0 ∨ c.f 3 11 21 ≠ 0 ∨ f32Finite tol = false ∨ f32Lt tol 0 = true then ans stBadParam s
  else ans stOk (((s.wr TRN_CTL (c.w 2)).wr TRN_PWR (c.w 3)).wr TRN_ABFT_TOL tol)

/-- TRN_UNFENCE. -/
def trnUnfence (c : Cmd) (s : State) : Ans × State :=
  let gs := c.w 2
  let as := c.f 3 0 4
  let s1 := (s.wr TRN_FENCE (s.rd TRN_FENCE - (s.rd TRN_FENCE &&& gs))).wr TRN_FENCE_ARR (s.rd TRN_FENCE_ARR - (s.rd TRN_FENCE_ARR &&& as))
  ans stOk { s1 with trn := { s1.trn with
    counts := s1.trn.counts.filter (fun x => !(if x.2.1 = 8 then bit as x.1 else bit gs (8 * x.1 + x.2.1))) } }

/-- What is kept of Transit sections, laid out as the kept messages are (R323). -/
def State.trnKept (s : State) : State :=
  { s with par := { s.par with keeps := s.par.keeps.map (fun e => (e.1, { e.2 with items := e.2.trn })) } }

/-- TRN_READ. -/
def trnRead (c : Cmd) (s : State) : Ans × State :=
  let off := c.w 4
  let cnt := c.f 5 0 13
  let (st0, bs0) := s.trnKept.epochItem c.parcel (c.epoch 2) (c.f 5 16 1) 0
  if st0 = 0 ∧ s.holdAsks (min cnt (bs0.length - off)) = true ∧ off % 4 = 0 ∧ cnt % 4 = 0 ∧ cnt ≤ 4080 ∧ off < bs0.length then holdWait s
  else
  let (ok, s1) := if st0 = 0 then keptReads s else (true, s)
  let (st, bs) := if ok then (st0, bs0) else (2, [])
  if off % 4 ≠ 0 ∨ cnt % 4 ≠ 0 ∨ 4080 < cnt ∨ (st = 0 ∧ bs.length ≤ off) then ans stBadParam s
  else ansWith ([w32 st, w32 bs.length] ++ bytesWords (slice bs off cnt)) s1

/-! ### Rows of the opcode table (R332) -/

/-- SUBSPACE_LOAD. -/
def opSubspaceLoad : OpInfo := ⟨0x40, 2, .trayOnly, true, true, lenIs 8⟩
/-- SUBSPACE_UNLOAD. -/
def opSubspaceUnload : OpInfo := ⟨0x41, 2, .trayOnly, true, false, lenIs 3⟩
/-- TRN_RUN. -/
def opTrnRun : OpInfo := ⟨0x42, 2, .trayOnly, true, true, lenIs 12⟩
/-- TRN_SET. -/
def opTrnSet : OpInfo := ⟨0x43, 2, .trayOnly, true, false, lenIs 5⟩
/-- TRN_UNFENCE. -/
def opTrnUnfence : OpInfo := ⟨0x44, 2, .trayOnly, true, false, lenIs 4⟩
/-- TRN_READ. -/
def opTrnRead : OpInfo := ⟨0x45, 0, .trayOnly, true, false, lenIs 6⟩

end Sys2Proof.Machine
end

