-- ==== Sys2Proof/Machine/Witness.lean ====
section
/-! DEFINITION. Witness (R385 to R402): packs and their store, pushes, engine tests, runs, self-tests, commands. -/

namespace Sys2Proof.Machine

/-! ### The pack image (R385, R386, R388) -/

/-- The header of a witness pack. -/
structure PackHead where
  magic : Nat
  format : Nat
  version : Nat
  cls : Nat
  signed : Bool
  nRec : Nat
  imgLen : Nat
  recOff : Nat
  sigOff : Nat
  crc : Nat
  deriving DecidableEq, Repr

/-- The header of an image. -/
def packHead (b : List Byte) : PackHead :=
  { magic := leAt b 0 4, format := leAt b 4 2, version := leAt b 6 2, cls := leAt b 8 1, signed := bit (leAt b 9 1) 0,
    nRec := leAt b 10 2, imgLen := leAt b 12 4, recOff := leAt b 16 4, sigOff := leAt b 20 4, crc := leAt b 24 4 }

/-- A record table entry: the input's offset and length, the output's length, the digest. -/
structure PackRec where
  inOff : Nat
  inLen : Nat
  outLen : Nat
  digest : Nat
  deriving DecidableEq, Repr

/-- Entry `i` of the record table. -/
def packRec (b : List Byte) (h : PackHead) (i : Nat) : PackRec :=
  let o := h.recOff + 24 * i
  { inOff := leAt b o 4, inLen := leAt b (o + 4) 4, outLen := leAt b (o + 8) 4, digest := leAt b (o + 16) 8 }

/-- Whether two ranges share a byte. -/
def rangesMeet (a n b m : Nat) : Bool := n != 0 && m != 0 && decide (a < b + m) && decide (b < a + n)

/-- Check 2. DEDUCED: the bounds of R385 (whole 8-byte words, at most 65,536 bytes, the places of table and signature)
belong to it. -/
def packCheck2 (len : Nat) (h : PackHead) : Bool :=
  let t := 24 * h.nRec
  h.imgLen != len || len % 8 != 0 || decide (65536 < len) || h.nRec == 0 || decide (512 < h.nRec) || h.recOff % 8 != 0 ||
    decide (h.recOff < 64) || decide (len < h.recOff + t) ||
    (if h.signed then h.sigOff + 64 != len || rangesMeet h.recOff t h.sigOff 64 || decide (h.sigOff < 64) else h.sigOff != 0)

/-- Whether a record breaks R386. -/
def recordBad (len : Nat) (b : List Byte) (h : PackHead) (i : Nat) : Bool :=
  let r := packRec b h i
  r.inLen == 0 || decide (65536 < r.inLen) || decide (16777216 < r.outLen) || decide (len < r.inOff + r.inLen) ||
    rangesMeet r.inOff r.inLen 0 64 || rangesMeet r.inOff r.inLen h.recOff (24 * h.nRec) ||
    (h.signed && rangesMeet r.inOff r.inLen h.sigOff 64)

/-- Whether a pack's signature is missing or wrong (R387). -/
def packSigBad (key : Option (Nat × Nat)) (required : Bool) (b : List Byte) (h : PackHead) : Bool :=
  if h.signed then
    (match key with
     | none => true
     | some q => !(ecdsaVerify q (b.take h.sigOff) (leAt b h.sigOff 32) (leAt b (h.sigOff + 32) 32)))
  else required

/-- The first check of R388 that fails; 0 for none. -/
def packCheck (cls version len : Nat) (key : Option (Nat × Nat)) (required : Bool) (b : List Byte) : Nat :=
  let h := packHead b
  if h.magic ≠ 0x4E544957 ∨ h.format ≠ 1 ∨ h.version = 0 ∨ h.version ≠ version ∨ h.cls ≠ cls then 1
  else if packCheck2 len h then 2
  else if (List.range h.nRec).any (recordBad len b h) then 3
  else if 2 ≤ leAt b 9 1 ∨ leAt b 28 36 ≠ 0 ∨ (List.range h.nRec).any (fun i => leAt b (h.recOff + 24 * i + 12) 4 != 0) = true then 4
  else if crc32c (b.take 24 ++ b.drop 28) ≠ h.crc then 5
  else if packSigBad key required b h then 6
  else 0

/-! ### The store (R389) -/

/-- The slots of the store. -/
def State.packSlots (s : State) : List Nat := List.range (s.rd WIT_STORE_SIZE)

/-- Whether a slot is READY. -/
def State.packReady (s : State) (i : Nat) : Bool := s.getF (WIT_PACK_ID i) 30 2 == 2

/-- Class and version of a slot. -/
def State.packKey (s : State) (i : Nat) : Nat × Nat := (s.getF (WIT_PACK_ID i) 16 8, s.getF (WIT_PACK_ID i) 0 16)

/-- READY slots of a class. -/
def State.packsOf (s : State) (cls : Nat) : List Nat := s.packSlots.filter (fun i => s.packReady i && (s.packKey i).1 == cls)

/-- The READY slot of a pair. -/
def State.packSlot (s : State) (cls version : Nat) : Option Nat := (s.packsOf cls).find? (fun i => (s.packKey i).2 == version)

/-- Whether a run is using a slot, also where a RETIRE has emptied it since (log 84). -/
def State.packUsed (s : State) (i : Nat) : Bool := s.wit.run.any (fun r => r.slot == i)

/-- The slot of the lowest version among some. -/
def State.lowestPack (s : State) (is : List Nat) : Option Nat :=
  is.foldl (fun a i => match a with
    | none => some i
    | some j => if (s.packKey i).2 < (s.packKey j).2 then some i else some j) none

/-- Where a pack goes (R389): a slot, or the status that refuses it. DESIGN CHOICE: a pack delivered again under a pair that
is held takes that pair's slot, so that none is held twice. -/
def State.packPlace (s : State) (cls version : Nat) : Nat ⊕ Nat :=
  match s.packSlot cls version with
  | some i => if s.packUsed i then .inr stBusyContext else .inl i
  | none =>
    match s.packSlots.find? (fun i => !(s.packReady i) && !(s.packUsed i)) with
    | some i => .inl i
    | none =>
      let held := s.packsOf cls
      match s.lowestPack (held.filter (fun i => !(s.packUsed i))) with
      | some i => .inl i
      | none => .inr (if held.isEmpty then stNoSpace else stBusyContext)

/-- Empty a slot. -/
def packEmpty (i : Nat) (s : State) : State := (s.wr (WIT_PACK_ID i) 0).wr (WIT_PACK_LEN i) 0

/-- Write a pack into a slot; it is READY once its last byte is written. Answers whether it was. -/
def packWrite (i : Nat) (b : List Byte) (s : State) : Bool × State :=
  let h := packHead b
  let (ok, s1) := storeBytes (s.rd WIT_STORE_BASE + i * 65536) b (packEmpty i s)
  if ok then
    (true, (s1.wr (WIT_PACK_ID i) (2 * 2 ^ 30 + b2n h.signed * 2 ^ 29 + h.cls * 2 ^ 16 + h.version)).wr (WIT_PACK_LEN i)
      (h.nRec * 2 ^ 22 + h.imgLen))
  else (false, s1)

/-- The counters, events and last failure of Witness lie in the compute tier (R403): while it is powered off or held in reset they do not
change (R516). -/
def witTier (f : State → State) (s : State) : State := if s.computeOff then s else f s

/-- A pack or staging is dropped (R389, R392). -/
def pushDrop (s : State) : State := witTier (fun t => (t.inc WIT_PUSH_DROP 1).evt WIT_EVT 3) s

/-- A pack is refused: its code is shown (R388). -/
def packBad (code : Nat) (s : State) : State :=
  witTier (fun t => ((t.inc WIT_PACK_BAD 1).setF WIT_EVT 8 8 code).evt WIT_EVT 2) s

/-- The key that verifies packs, if one is loaded. -/
def State.witKey (s : State) : Option (Nat × Nat) :=
  if s.getB WIT_KEY_CTL 0 then some (leAt s.wit.signKey 0 32, leAt s.wit.signKey 32 32) else none

/-! ### Pushes (R391, R392) -/

/-- The bytes of a staging, and whether every fragment is there. -/
def WitStage.bytes (g : WitStage) : Option (List Byte) :=
  if g.frags.length = g.nFrag then some (((List.range g.nFrag).flatMap (fun i => (Tbl.get? g.frags i).getD [])).take g.packLen) else none

/-- Take a staging out, and free its space in Berths. -/
def unstagePack (cls version : Nat) (s : State) : State :=
  let (out, left) := s.wit.staging.partition (fun g => g.cls == cls && g.version == version)
  ({ s with wit := { s.wit with staging := left } } : State).each (out.flatMap (·.bufs)) (fun b t => brtRelease b.1 b.2 t)

/-- A complete staging is checked and placed; it stays while every pack of its class is in use (R389, R392), and while a long write of it
has no leave yet (R432). -/
def stagePlace (leave : Bool) (g : WitStage) (s : State) : State :=
  match g.bytes with
  | none => s
  | some b =>
    let code := packCheck g.cls g.version b.length s.witKey (s.getB WIT_KEY_CTL 1) b
    if code ≠ 0 then packBad code (unstagePack g.cls g.version s)
    else
      match s.packPlace g.cls g.version with
      | .inl i =>
        if s.holdLong b.length = true ∧ leave = false then ownAsk (.pack g.cls g.version) b.length s
        else
          let (ok, s1) := packWrite i b (unstagePack g.cls g.version s)
          if ok then s1 else pushDrop s1
      | .inr st => if st = stBusyContext then s else pushDrop (unstagePack g.cls g.version s)

/-- A fragment is copied into its staging, which takes space in Berths for it (R392, R485). DESIGN CHOICE (log 84): where Berths has
none, the staging is discarded. -/
def stageCopy (g : WitStage) (frag : Nat) (bs : List Byte) (s : State) : State :=
  if (Tbl.get? g.frags frag).isSome then stagePlace false g s
  else
    match brtRequest false bs.length s with
    | (none, s1) => pushDrop (unstagePack g.cls g.version s1)
    | (some bufs, s1) =>
      let g1 := { g with frags := Tbl.set g.frags frag bs, bufs := g.bufs ++ bufs }
      stagePlace false g1 { s1 with wit := { s1.wit with staging := s1.wit.staging.map (fun x => if x = g then g1 else x) } }

/-- A fragment takes effect (R392). -/
def stageFragment (cls version n len frag : Nat) (bs : List Byte) (s : State) : State :=
  if (s.packSlot cls version).isSome then s
  else
    match s.wit.staging.find? (fun g => g.cls == cls && g.version == version) with
    | some g => if g.nFrag ≠ n ∨ g.packLen ≠ len then s else stageCopy g frag bs s
    | none =>
      let s1 := match s.wit.staging with
        | x :: _ :: _ => pushDrop (unstagePack x.cls x.version s)
        | _ => s
      let g : WitStage := { cls := cls, version := version, nFrag := n, packLen := len, frags := [], bufs := [] }
      stageCopy g frag bs { s1 with wit := { s1.wit with staging := s1.wit.staging ++ [g] } }

/-- A WITNESS_PUSH ruling takes effect (R391, R392). -/
def witPush (b : List Byte) (s : State) : State :=
  let version := leAt b 0 2
  let cls := leAt b 2 1
  if bit (leAt b 3 1) 0 then
    (match s.packSlot cls version with
     | some i => packEmpty i s
     | none => s)
  else stageFragment cls version (leAt b 5 1) (leAt b 8 4) (leAt b 4 1) (b.drop 32) s

/-- WITNESS_STAGING_TIMEOUT (R392): the `n`-th staging by age is discarded if it is not complete. -/
def stagingTimeout (n : Nat) (s : State) : State :=
  match s.wit.staging[n]? with
  | none => s
  | some g => if g.bytes.isSome then s else pushDrop (unstagePack g.cls g.version s)

/-! ### Engine states (R393, R394, R399) -/

/-- An engine's state: 0 OFF, 1 WAITING, 2 DUE, 3 OVERDUE, 4 RUNNING, 5 FENCE_WAIT, 6 FENCED. -/
def State.engSt (s : State) (n : Nat) : Nat := s.getF (WIT_ENG_STATE n) 29 3

/-- WIT_FENCE_REQ and WIT_FENCED follow the engines' states. -/
def witLevels (s : State) : State :=
  let mask (st : Nat) : Nat := ((List.range 64).filter (fun n => s.engSt n == st)).foldl (fun m n => m + 2 ^ n) 0
  (s.wr WIT_FENCE_REQ (mask 5)).wr WIT_FENCED (mask 6)

/-- An engine enters a state. -/
def setEng (n st : Nat) (s : State) : State := witLevels (s.setF (WIT_ENG_STATE n) 29 3 st)

/-- The present time as WIT_ENG_n_DUE counts it, in ms. -/
def State.nowMs (s : State) : Nat := s.now / secU * 1000 + s.now % secU / nsU 1000000

/-- D := now + T_test. -/
def setDue (n : Nat) (s : State) : State := s.wr (WIT_ENG_DUE n) ((s.nowMs + s.rd (WIT_ENG_PER n)) % 2 ^ 58)

/-- Whether an engine's tests are scheduled. -/
def State.engOn (s : State) (n : Nat) : Bool := s.getB (WIT_ENG_CFG n) 31 && s.getB WIT_CTL 0

/-- Whether a run is in progress, from the grant that is taken on. -/
def State.witBusy (s : State) : Bool := s.wit.run.isSome || s.wit.taken.isSome

/-- The level of TEST_REQ[n] (R393, R394, R399). DEDUCED (log 85): from the beginning of an entry into DOZE or SLEEP on, no engine
asks, since no run may start (R464). -/
def State.testReq (s : State) (n : Nat) : Bool :=
  s.computeActive && (s.engSt n == 4 || ((s.engSt n == 2 || s.engSt n == 3) && !(s.wit.retry.contains n) && s.plm.goal.isNone &&
    (!s.witBusy || s.wit.taken == some n)))

/-- The level of TEST_PREEMPT[n] (R393, R394): low while ZY_CRST_N is asserted (R528). -/
def State.testPreempt (s : State) (n : Nat) : Bool := bit s.wit.preempt n && !s.pins.crst

/-- Put TEST_PREEMPT[n]. -/
def setPreempt (n : Nat) (v : Bool) (s : State) : State :=
  { s with wit := { s.wit with preempt := setFld s.wit.preempt n 1 (b2n v) } }

/-- Complete stagings that waited for the end of a run are placed (R389). -/
def placeWaiting (s : State) : State := s.each s.wit.staging (stagePlace false)

/-- A run, or the wait for its leave, is over for an engine: its outputs drop and leave is released (R393). -/
def runOver (n : Nat) (s : State) : State :=
  let s1 := setPreempt n false (releaseLeave (.witness n) s)
  placeWaiting { s1 with wit := { s1.wit with
    run := s1.wit.run.filter (fun r => r.eng != n), taken := s1.wit.taken.filter (· != n), retry := s1.wit.retry.filter (· != n) } }

/-- The policy's action when D + W passes (R393). -/
def witPolicy (n : Nat) (s : State) : State :=
  let p := s.getF (WIT_ENG_CFG n) 29 2
  let s1 := witTier (·.inc WIT_OVERDUE 1) s
  if p = 2 then logEvent 0x22 (leBytes 2 n) (setEng n 5 (runOver n s1))
  else
    let s2 := setEng n 3 (witTier (·.evt WIT_EVT 1) s1)
    if p = 1 then setPreempt n true s2 else s2

/-- WITNESS_DUE (R393): now has reached D. -/
def witDue (n : Nat) (s : State) : State :=
  if 64 ≤ n ∨ s.engSt n ≠ 1 ∨ s.nowMs < s.rd (WIT_ENG_DUE n) then s
  else if (s.packsOf (s.getF (WIT_ENG_CFG n) 0 8)).isEmpty then witTier (·.inc WIT_NO_PACK 1) (setDue n s)
  else setEng n 2 s

/-- WITNESS_WINDOW_EXPIRY (R393): now has reached D + W. -/
def witWindow (n : Nat) (s : State) : State :=
  if 64 ≤ n ∨ s.engSt n ≠ 2 ∨ s.nowMs < s.rd (WIT_ENG_DUE n) + s.rd (WIT_ENG_WIN n) then s else witPolicy n s

/-- A grant taken whose leave has not come is over: the engine stays as it is. -/
def takenOver (n : Nat) (s : State) : State :=
  let s1 := releaseLeave (.witness n) s
  placeWaiting { s1 with wit := { s1.wit with taken := s1.wit.taken.filter (· != n) } }

/-- A run is aborted (R398). -/
def runAbort (n : Nat) (count : Bool) (s : State) : State :=
  if s.engSt n ≠ 4 then takenOver n s
  else
    let s1 := runOver n s
    let s2 := if count then s1.inc WIT_ABORT 1 else s1
    if s2.nowMs < s2.rd (WIT_ENG_DUE n) + s2.rd (WIT_ENG_WIN n) then setEng n 2 s2 else witPolicy n s2

/-- The engine whose grant was taken at this same edge, its leave not yet come, yields to a lower-numbered one whose grant rises in the
same cycle (R394). -/
def gntYields (n : Nat) (s : State) : State :=
  match s.wit.taken with
  | some m =>
    if n < m ∧ s.wit.takenAt = s.dat.edges ∧ s.wit.run.isNone = true ∧ bit s.wit.gnt n = false ∧
        ({ s with wit := { s.wit with taken := none } } : State).testReq n = true then
      { releaseLeave (.witness m) s with wit := { (releaseLeave (.witness m) s).wit with taken := none } }
    else s
  | none => s

/-- TEST_GNT_RISE (R394). -/
def testGntRise (n : Nat) (s0 : State) : State :=
  if 64 ≤ n then s0
  else
    let s := gntYields n s0
    let s1 : State := { s with wit := { s.wit with gnt := setFld s.wit.gnt n 1 1 } }
    if bit s.wit.gnt n = true ∨ s1.testReq n = false ∨ s1.witBusy = true then s1
    else askLeave 4 (s1.pwrClass WIT_PWR) (s1.pwrAmt WIT_PWR) (.witness n) { s1 with wit := { s1.wit with taken := some n, takenAt := s1.dat.edges } }

/-- TEST_GNT_FALL (R398). -/
def testGntFall (n : Nat) (s : State) : State :=
  if 64 ≤ n then s
  else
    let high := s.testReq n
    let s1 : State := { s with wit := { s.wit with gnt := setFld s.wit.gnt n 1 0 } }
    if high && (s.wit.run.any (fun r => r.eng == n) || s.wit.taken == some n) then runAbort n true s1 else s1

/-- WITNESS_LEAVE_RETRY (R393): TEST_REQ rises again 1 ms after a refusal. -/
def witRetry (n : Nat) (s : State) : State := { s with wit := { s.wit with retry := s.wit.retry.filter (· != n) } }

/-- The pack of an engine's next run (R395). -/
def State.nextPack (s : State) (n : Nat) : Option Nat :=
  let held := s.packsOf (s.getF (WIT_ENG_CFG n) 0 8)
  let last := s.getF (WIT_ENG_STATE n) 0 16
  match s.lowestPack (held.filter (fun i => decide (last < (s.packKey i).2))) with
  | some i => some i
  | none => s.lowestPack held

/-- Leave for a run is granted: the run begins (R393, R395). Where its class has no pack any longer the engine waits for its
next period. -/
def witGranted (n : Nat) (s : State) : State :=
  if s.wit.taken ≠ some n then releaseLeave (.witness n) s
  else
    match s.nextPack n with
    | none => setEng n 1 ((setDue n (runOver n s)).inc WIT_NO_PACK 1)
    | some i =>
      let r : WitRun :=
        { eng := n, slot := i, cls := (s.packKey i).1, version := (s.packKey i).2,
          len := s.getF (WIT_PACK_LEN i) 0 17, record := 0, sent := false, ending := false }
      setEng n 4 { s with wit := { s.wit with taken := none, run := some r } }

/-- Leave for a run was refused: TEST_REQ falls for 1 ms (R393). -/
def witRefused (n : Nat) (s : State) : State :=
  if s.wit.taken ≠ some n then s
  else ({ s with wit := { s.wit with taken := none, retry := s.wit.retry.filter (· != n) ++ [n] } } : State) |> witTier (·.inc WIT_LEAVE_FAIL 1)

/-! ### Runs (R395 to R398) -/

/-- The pack of a run as the store holds it, of the length it had as the run began (R390). -/
def runPack (r : WitRun) (s : State) : Option (List Byte) × State :=
  loadBytes (s.rd WIT_STORE_BASE + r.slot * 65536) r.len s

/-- Inject the run's record; a pack that cannot be read ends the run as an abort does. -/
def injectRecord (r : WitRun) (s : State) : State :=
  match runPack r s with
  | (none, s1) => runAbort r.eng true s1
  | (some b, s1) =>
    let p := packRec b (packHead b) r.record
    ({ s1 with wit := { s1.wit with run := some { r with sent := true } } } : State).emit
      (.inject r.eng r.record (slice b p.inOff p.inLen))

/-- WITNESS_RUN_START (R395): the run of an engine injects its first record. -/
def witRunStart (n : Nat) (s : State) : State :=
  match s.wit.run with
  | some r => if r.eng = n ∧ r.sent = false then injectRecord r s else s
  | none => s

/-- A record has failed (R397). -/
def recordFails (r : WitRun) (digest got : Nat) (s : State) : State :=
  let n := r.eng
  let s1 := ownVoteAll 3 n 1 s
  let s2 := (((s1.wr WIT_LAST_ID (n * 2 ^ 26 + r.record * 2 ^ 17 + r.version)).wr WIT_LAST_CLASS r.cls).wr WIT_LAST_EXP digest).wr
    WIT_LAST_GOT got
  let s3 := logEvent 0x20 (leBytes 2 n ++ leBytes 1 r.cls ++ zeros 1 ++ leBytes 2 r.version ++ leBytes 2 r.record ++ leBytes 8 digest ++
    leBytes 8 got) ((s2.inc WIT_FAIL 1).evt WIT_EVT 0)
  setEng n 5 (runOver n ((rateNote 8 s3).setF (WIT_ENG_STATE n) 0 29 (2 ^ 28 + r.version)))

/-- A run has passed (R393). -/
def runPasses (r : WitRun) (s : State) : State :=
  let n := r.eng
  setEng n 1 (runOver n ((setDue n (s.inc WIT_PASS 1)).setF (WIT_ENG_STATE n) 0 29 r.version))

/-- WITNESS_RECORD_RETURN (R395, R396): a record's output returns under its tag. -/
def recordReturn (eng record : Nat) (bytes : List Byte) (s : State) : State :=
  match s.wit.run with
  | none => witTier (·.inc WIT_RET_STRAY 1) s
  | some r =>
    if r.eng ≠ eng ∨ r.record ≠ record ∨ r.sent = false then witTier (·.inc WIT_RET_STRAY 1) s
    else
      match runPack r s with
      | (none, s1) => runAbort eng true s1
      | (some b, s1) =>
        let h := packHead b
        let p := packRec b h r.record
        let got := crc64 bytes
        if got ≠ p.digest ∨ bytes.length ≠ p.outLen then recordFails r p.digest got s1
        else if r.ending then runAbort eng true s1
        else if r.record + 1 < h.nRec then injectRecord { r with record := r.record + 1, sent := false } s1
        else runPasses r s1

/-- WITNESS_RETURN_TIMEOUT (R396): the awaited output did not return in RET_TMO; `bytes` is what returned of it. -/
def returnTimeout (eng : Nat) (bytes : List Byte) (s : State) : State :=
  match s.wit.run with
  | none => s
  | some r =>
    if r.eng ≠ eng ∨ r.sent = false then s
    else
      match runPack r s with
      | (none, s1) => runAbort eng true s1
      | (some b, s1) => recordFails r (packRec b (packHead b) r.record).digest (crc64 bytes) s1

/-- A run, or a grant taken, ends at DIE_STOP (R398). -/
def witDieStop (s : State) : State :=
  match s.wit.run, s.wit.taken with
  | some r, _ => runAbort r.eng true s
  | none, some n => runAbort n true s
  | none, none => s

/-- A run ends at the entry into DOZE or SLEEP, with the record in flight if there is one (R398, R462). -/
def witPowerEntry (s : State) : State :=
  match s.wit.run with
  | some r => if r.sent then { s with wit := { s.wit with run := some { r with ending := true } } } else runAbort r.eng true s
  | none => witDieStop s

/-! ### ENGINE_REPORT, TEST_NOW (R393, R402) -/

/-- ENGINE_REPORT. -/
def engineReport (c : Cmd) (s : State) : Ans × State :=
  let fenced := c.w64 2
  let declined := c.w64 4
  if fenced &&& declined ≠ 0 ∨ (setBits 64 declined).any (fun n => s.engSt n != 5) = true then ans stBadParam s
  else
    let s1 := s.each ((setBits 64 fenced).filter (fun n => s.engSt n != 0)) (fun n t => setEng n 6 (runOver n t))
    ans stOk (s1.each (setBits 64 declined) (fun n t => setEng n 1 (setDue n t)))

/-- TEST_NOW. -/
def testNow (c : Cmd) (s : State) : Ans × State :=
  let ns := (setBits 64 (c.w64 2)).filter (fun n => s.engSt n == 1)
  ansWith [w32 ns.length] (s.each ns (fun n t => t.wr (WIT_ENG_DUE n) t.nowMs))

/-! ### WIT_SET (R402) -/

/-- The engine and field that an offset within 0x0D_0000 names: 0 CFG, 1 PER, 2 WIN. -/
def engField (off : Nat) : Option (Nat × Nat) :=
  if 0x1000 ≤ off ∧ off < 0x1800 ∧ off % 4 = 0 ∧ off % 32 < 12 then some ((off - 0x1000) / 32, off % 32 / 4) else none

/-- Whether WIT_SET refuses a pair. -/
def witPairBad (off v : Nat) : Bool :=
  if off = 4 then fld v 16 16 == 0 || fld v 4 12 == 0 || fld v 2 2 != 0
  else if off = 8 then fld v 11 21 != 0
  else if off = 0x10 then fld v 0 16 != 0
  else if off = 0x14 then false
  else if off = 0x18 then decide (256 < v)
  else
    match engField off with
    | some (_, 0) => fld v 29 2 == 3 || fld v 8 21 != 0
    | some _ => v == 0
    | none => true

/-- Write one pair. -/
def witPut (off v : Nat) (s : State) : State :=
  if off = 4 then s.wr WIT_CTL v
  else if off = 8 then s.wr WIT_PWR v
  else if off = 0x10 then s.setF WIT_STORE_BASE 0 32 v
  else if off = 0x14 then s.setF WIT_STORE_BASE 32 32 v
  else if off = 0x18 then s.wr WIT_STORE_SIZE v
  else
    match engField off with
    | some (n, 0) => s.wr (WIT_ENG_CFG n) v
    | some (n, 1) => s.wr (WIT_ENG_PER n) v
    | some (n, _) => s.wr (WIT_ENG_WIN n) v
    | none => s

/-- An engine's state after its settings or SCHED_EN were written (R393); `wrote` tells that its CFG was. -/
def engSettle (n : Nat) (wrote : Bool) (s : State) : State :=
  if s.engOn n = false then (if s.engSt n = 0 then s else setEng n 0 (runOver n (if s.engSt n = 4 then s.inc WIT_ABORT 1 else s)))
  else if s.engSt n = 0 ∨ (s.engSt n = 6 ∧ wrote = true) then setEng n 1 (setDue n s)
  else s

/-- The pairs of a WIT_SET. -/
def witPairs : List Word → List (Nat × Nat)
  | a :: b :: r => (a.toNat, b.toNat) :: witPairs r
  | _ => []

/-- WIT_SET. -/
def witSet (c : Cmd) (s : State) : Ans × State :=
  let ps := witPairs c.params
  let store := ps.any (fun p => p.1 == 0x10 || p.1 == 0x14 || p.1 == 0x18)
  if ps.any (fun p => p.1 == 0x18 && p.2 == 0) then ans stBadLen s
  else if ps.any (fun p => witPairBad p.1 p.2) then ans stBadParam s
  else if store ∧ (List.range 256).any s.packReady = true then ans stBusyContext s
  else
    let s1 := s.each ps (fun p t => witPut p.1 p.2 t)
    ans stOk (s1.each (List.range 64) (fun n t => engSettle n (ps.any (fun p => engField p.1 == some (n, 0))) t))

/-! ### PACK_LOAD, PACK_DROP, WIT_KEY (R389, R402) -/

/-- PACK_LOAD: with ASYNC_OK it is accepted, and a refusal is its final reply. -/
def packLoad (c : Cmd) (s : State) : Ans × State :=
  if c.w 4 = 0 then finished c stBadLen [] s
  else if s.holdAsks (c.w 4) then holdWait s
  else
    match loadBytes (c.w64 2) (c.w 4) s with
    | (none, s1) => finished c stTimeout [] s1
    | (some b, s1) =>
      let cls := c.f 5 16 8
      let version := c.f 5 0 16
      let code := packCheck cls version b.length s1.witKey (s1.getB WIT_KEY_CTL 1) b
      if code = 6 then finished c stNoAuth [] (packBad 6 s1)
      else if code ≠ 0 then finished c stBadParam [w32 code] (packBad code s1)
      else
        match s1.packPlace cls version with
        | .inr st => finished c st [] (if st = stNoSpace then pushDrop s1 else s1)
        | .inl i =>
          let (ok, s2) := packWrite i b s1
          if ok then finished c stOk [w32 i] s2 else finished c stTimeout [] s2

/-- PACK_DROP. -/
def packDrop (c : Cmd) (s : State) : Ans × State :=
  match s.packSlot (c.f 2 16 8) (c.f 2 0 16) with
  | none => ans stAbsent s
  | some i => if s.packUsed i then ans stBusyContext s else ans stOk (packEmpty i s)

/-- WIT_KEY: as PLAT_KEY. -/
def witKeyCmd (c : Cmd) (s : State) : Ans × State :=
  let req := bit (c.w 2) 0
  let present := bit (c.w 2) 1
  let k := keyBytes c
  if (present && !p256OnCurve (keyPoint k)) || (req && !present) then ans stBadParam s
  else ans stOk ({ s with wit := { s.wit with signKey := if present then k else [] } }.wr WIT_KEY_CTL (b2n present + b2n req * 2))

/-! ### Self-tests (R400, R401) -/

/-- SELF_TEST_DUE (R400). -/
def selfDue (s : State) : State := if s.getB WIT_CTL 1 then { s with wit := { s.wit with selfDue := true } } else s

/-- Whether no boundary of a LIVE parcel falls within the next 50 µs (R400). -/
def State.noBoundarySoon (s : State) : Bool :=
  s.par.ctxs.all (fun e => !e.2.isLive ||
    (let d := timeDiff (e.2.boundary e.2.next % clockMod) s.now
     decide (d < 0) || decide ((nsU 50000 : Nat) < d)))

/-- Whether the self-tests may run now (R400). -/
def State.selfIdle (s : State) : Bool :=
  s.computeActive && s.par.queue.isEmpty && s.cadJobs.isEmpty && s.cad.pass.isNone && s.wit.selfRun.isNone && s.noBoundarySoon

/-- A self-test that fails (R401). -/
def selfFails (unit which : Nat) (s : State) : State :=
  let s1 := ownVoteAll 3 unit 1 (faultEdge 18 s)
  (logEvent 0x21 (leBytes 1 which) (s1.inc WIT_SELF_FAIL 1)).evt WIT_EVT 4

/-- Tally's test, and the end of the tests: `res` holds what Cadastre's gave. Work that arrived meanwhile begins. -/
def selfTally (r : WitSelf) (res : Nat) (s : State) : State :=
  let s0 : State := { s with wit := { s.wit with selfRun := none, selfDue := false } }
  let (res1, s1) : Nat × State :=
    if s0.pagesFree = 0 ∨ s0.quiesced .tally = true then (8, s0.inc WIT_SELF_SKIP 1)
    else
      let t := memWritten 1 256 s0
      let bad := r.talBad || t.flt.inject.any (fun i => i.target == 1 && i.written && i.key == 256 && i.bits != 1)
      let u := memReadBack 1 256 t
      if bad then (0, selfFails 0xFFD 1 u) else (2, u)
  let s2 := s1.each (s1.pil.jobs.filter (fun j => j.opcode == 0x66 && j.phase == .waiting)) (fun j t =>
    finishJob j.id stOk [w32 (res + res1)] t)
  cadStart (if s2.par.queue.isEmpty then s2 else startWork s2)

/-- Whether Cadastre has room for its test, and may be tested (R400, R447). -/
def State.selfRoom (s : State) : Bool :=
  (s.cadWindow != 0 || decide (9 ≤ s.resFree.2)) && !s.fenced .cadastre && !s.quiesced .cadastre

/-- SELF_TEST_RUN (R400): the tests run, Cadastre's once it has its leave. The operands are the errors of the hardware that
make them fail. -/
def selfRun (cadBad talBad : Bool) (s : State) : State :=
  if s.wit.selfDue = false ∨ s.selfIdle = false then s
  else
    let r : WitSelf := { cadBad := cadBad, talBad := talBad }
    let s1 : State := { s with wit := { s.wit with selfRun := some r } }
    if s1.selfRoom then askLeave 1 (s1.pwrClass CAD_PWR) (s1.pwrAmt CAD_PWR) (.cadPass 1) s1
    else selfTally r 4 (s1.inc WIT_SELF_SKIP 1)

/-- The instant for the tests has passed by as their leave came: they stay due, and the work that waited for them begins (R400). -/
def selfAgain (s : State) : State :=
  let s1 : State := { s with wit := { s.wit with selfRun := none } }
  cadStart (if s1.par.queue.isEmpty then s1 else startWork s1)

/-- Leave for Cadastre's test is granted: where a boundary has come near since it was asked, the tests wait for the next instant
(R400). Whether a row of the test finds a plot whose parity an injection has spoilt is free. -/
def selfGranted (s : State) : State :=
  match s.wit.selfRun with
  | none => releaseLeave (.cadPass 1) s
  | some r =>
    if s.computeActive = false ∨ s.noBoundarySoon = false then selfAgain (releaseLeave (.cadPass 1) s)
    else
      let hits (t : State) : Nat := (t.flt.inject.filter (fun i => i.target == 2 && i.written)).length
      let t := memWritten 3 4096 (memWritten 2 4096 s)
      let (v, t1) := if hits s < hits t then (let d := t.draw; (d.1.toNat % 2, spoiltMet d.2)) else (0, t)
      let bad := r.cadBad || v == 1 || t1.flt.inject.any (fun i => i.target == 3 && i.written && i.key == 4096 && i.bits != 1)
      let u := releaseLeave (.cadPass 1) (memReadBack 3 4096 (if v = 1 then searchErr t1 else t1))
      if bad then selfTally r 0 (selfFails 0xFFE 0 u) else selfTally r 1 u

/-- Leave for Cadastre's test was refused: the test is skipped. -/
def selfRefused (s : State) : State :=
  match s.wit.selfRun with
  | none => s
  | some r => selfTally r 4 (s.inc WIT_SELF_SKIP 1)

/-- SELF_NOW: the tests fall due at once. -/
def selfNow (_c : Cmd) (s : State) : Ans × State := (.started .waiting .plain, { s with wit := { s.wit with selfDue := true } })

/-- What Witness loses with the power of its tier or at ZY_CRST_N: the run and the tests under way. Levels follow the engines'
states again (R399). -/
def witLose (s : State) : State :=
  let s1 := match s.wit.run, s.wit.taken with
    | some r, _ => runAbort r.eng true s
    | none, some n => runAbort n true s
    | none, none => s
  releaseLeave (.cadPass 1) { s1 with wit := { s1.wit with selfRun := none } }

/-! ### Rows of the opcode table (R402) -/

/-- WIT_SET. -/
def opWitSet : OpInfo := ⟨0x60, 2, .both, true, false, lenEven⟩
/-- PACK_LOAD. -/
def opPackLoad : OpInfo := ⟨0x61, 2, .both, true, true, lenIs 6⟩
/-- PACK_DROP. -/
def opPackDrop : OpInfo := ⟨0x62, 2, .both, true, false, lenIs 3⟩
/-- WIT_KEY. -/
def opWitKey : OpInfo := ⟨0x63, 3, .both, true, false, lenIs 19⟩
/-- ENGINE_REPORT. -/
def opEngineReport : OpInfo := ⟨0x64, 1, .both, true, false, lenIs 6⟩
/-- TEST_NOW. -/
def opTestNow : OpInfo := ⟨0x65, 1, .both, true, false, lenIs 4⟩
/-- SELF_NOW. -/
def opSelfNow : OpInfo := ⟨0x66, 2, .both, true, true, lenIs 2⟩

end Sys2Proof.Machine
end

