-- ==== Sys2Proof/Machine/PilotCmds.lean ====
section
/-! DEFINITION. Pilot's own commands and its firmware (R426 to R431, R438). -/

namespace Sys2Proof.Machine

/-! ### NOP, ECHO, IDENT (R426) -/

/-- NOP. -/
def nopCmd (_c : Cmd) (s : State) : Ans × State := ans stOk s

/-- ECHO. -/
def echoCmd (c : Cmd) (s : State) : Ans × State := ansWith c.params s

/-- IDENT. -/
def identCmd (_c : Cmd) (s : State) : Ans × State :=
  ansWith [w32 (s.rd CAP_ID), w32 (s.rd CHN_STATION), w32 (s.rd PIL_FW), w32 (s.rd CAP_UNITS),
    w32 (s.datState + b2n s.datValid * 2 ^ 4 + b2n (s.getB EPO_CTL 0) * 2 ^ 8), w32 s.powerState] s

/-! ### PWR_SET, KEY_SET, PIL_SET (R426, R438) -/

/-- PWR_SET. -/
def pwrSet (c : Cmd) (s : State) : Ans × State :=
  let bad := c.f 2 0 16 == 0 || c.f 2 16 16 != 0 || c.f 4 11 21 != 0 ||
    (if s.isTray then c.f 3 16 16 == 0 || c.f 3 11 5 != 0 else c.w 3 != 0)
  if bad then ans stBadParam s
  else ans stOk (((s.wr PWR_CTL (c.w 2)).wr PWR_HOLD_CFG (c.w 3)).wr PWR_STOW_CFG (c.w 4))

/-- Remove the replay table's entries of a KEY_ID (R419). -/
def dropReplay (keyId : Nat) (s : State) : State :=
  { s with pil := { s.pil with replay := s.pil.replay.filter (fun e => e.2.keyId != keyId) } }

/-- The entries of the key that a slot holds go with it. -/
def dropSlotReplay (slot : Nat) (s : State) : State :=
  if s.getB (PIL_KEY_ID slot) 31 then dropReplay (s.getF (PIL_KEY_ID slot) 0 16) s else s

/-- KEY_SET. -/
def keySet (c : Cmd) (s : State) : Ans × State :=
  let slot := c.f 2 0 3
  let valid := bit (c.w 2) 8
  let id := c.f 3 0 16
  let other := (List.range 8).any (fun i => i != slot && s.getB (PIL_KEY_ID i) 31 && s.getF (PIL_KEY_ID i) 0 16 == id)
  if valid && (id == 0 || other) then ans stBadParam s
  else if s.getB PIL_CTL 7 && s.getF PIL_CTL 0 3 == slot then ans stBusyContext s
  else
    let s1 := dropSlotReplay slot s
    let key := wordsBytes ((c.params.drop 2).take 8)
    if valid then
      let s2 := s1.wr (PIL_KEY_ID slot) (2 ^ 31 + c.f 2 4 2 * 2 ^ 28 + id)
      ans stOk { s2 with pil := { s2.pil with keys := Tbl.set s2.pil.keys slot key } }
    else
      let s2 := s1.wr (PIL_KEY_ID slot) 0
      ans stOk { s2 with pil := { s2.pil with keys := Tbl.erase s2.pil.keys slot } }

/-- PIL_SET. -/
def pilSet (c : Cmd) (s : State) : Ans × State :=
  let bad := c.f 2 16 16 == 0 || c.f 2 8 8 != 0 || c.f 2 3 4 != 0 ||
    (bit (c.w 2) 7 && !(s.getB (PIL_KEY_ID (c.f 2 0 3)) 31))
  if bad then ans stBadParam s else ans stOk (s.wr PIL_CTL (c.w 2))

/-! ### Firmware (R427 to R430) -/

/-- Whether anything but the command itself keeps Pilot busy as it starts (R430); one that has waited for its leave has started. -/
def State.fwBusy (s : State) (c : Cmd) : Bool :=
  let own := match c.src with
    | .aperture a => a
    | .remote _ _ _ => 5
  let mine := match c.src with
    | .aperture _ => 0
    | .remote _ _ _ => 1
  (s.job? s.pil.nextJob).isNone &&
    ((List.range 5).any (fun a => a != own && (s.aperture a).st == .busy) || s.rd PIL_ASYNC != 0 || decide (mine < s.rd PIL_REMOTE))

/-- Empty patch RAM (R429, R430). -/
def patchClear (s : State) : State := { s.setF PIL_FW 16 16 0 with pil := { s.pil with patch := [] } }

/-- Hook entry `i` of a patch: hook and code offset. -/
def patchHook (b : List Byte) (i : Nat) : Nat × Nat := (leAt b (leAt b 16 4 + 8 * i) 2 % 1024, leAt b (leAt b 16 4 + 8 * i + 4) 4)

/-- Check 3 of R429. DEDUCED: the bounds and multiples of R428 belong to it. -/
def patchCheck3 (count : Nat) (b : List Byte) : Bool :=
  let n := leAt b 10 2
  let hook := leAt b 16 4
  let code := leAt b 20 4
  let len := leAt b 24 4
  let sig := leAt b 28 4
  leAt b 12 4 != count || count % 8 != 0 || decide (count < 128) || decide (131072 < count) || decide (1024 < n) || decide (129024 < len) ||
    len % 8 != 0 || hook % 8 != 0 || code % 8 != 0 || sig % 8 != 0 || decide (count < hook + 8 * n) || decide (count < code + len) ||
    sig + 64 != count || rangesMeet hook (8 * n) 0 64 || rangesMeet code len 0 64 || decide (sig < 64) || rangesMeet hook (8 * n) code len ||
    rangesMeet hook (8 * n) sig 64 || rangesMeet code len sig 64

/-- The first check of R429 that fails; 0 for none. -/
def patchCheck (rom count : Nat) (key : Option (Nat × Nat)) (b : List Byte) : Nat :=
  let n := leAt b 10 2
  let hooks := (List.range n).map (patchHook b)
  if leAt b 0 4 ≠ 0x48435450 ∨ leAt b 4 2 ≠ 1 ∨ leAt b 6 2 = 0 then 1
  else if leAt b 8 2 ≠ rom then 2
  else if patchCheck3 count b then 3
  else if (hooks.zip (hooks.drop 1)).any (fun x => decide (x.2.1 ≤ x.1.1)) = true ∨ hooks.any (fun x => decide (leAt b 24 4 ≤ x.2)) = true then 4
  else if leAt b 36 28 ≠ 0 ∨ (List.range n).any (fun i => leAt b (leAt b 16 4 + 8 * i) 4 / 1024 != 0) = true then 5
  else if crc32c (b.take 32 ++ b.drop 36) ≠ leAt b 32 4 then 6
  else
    match key with
    | none => 7
    | some q =>
      let sig := leAt b 28 4
      if ecdsaVerify q (b.take sig) (leAt b sig 32) (leAt b (sig + 32) 32) then 0 else 8

/-- The key that verifies patches, if one is loaded. -/
def State.fwKeyPoint (s : State) : Option (Nat × Nat) :=
  if s.getB PIL_FW_KEY_CTL 0 then some (keyPoint s.pil.fwKey) else none

/-- FW_PATCH: with ASYNC_OK it is accepted once it starts, and a refused load is its final reply. -/
def fwPatch (c : Cmd) (s : State) : Ans × State :=
  if c.w 4 = 0 then ans stBadLen s
  else if s.fwBusy c then ans stBusyContext s
  else if s.holdAsks (c.w 4) then holdWait s
  else
    match loadBytes (c.w64 2) (c.w 4) (patchClear s) with
    | (none, s1) => finished c stTimeout [] s1
    | (some b, s1) =>
      let code := patchCheck (s1.getF PIL_FW 0 16) b.length s1.fwKeyPoint b
      let v := leAt b 6 2
      if code = 0 then finished c stOk [w32 v] { s1.setF PIL_FW 16 16 v with pil := { s1.pil with patch := b } }
      else
        let s2 := logEvent 0x60 (leBytes 1 code ++ zeros 1 ++ leBytes 2 v) (s1.evt PIL_EVT 9)
        if code = 8 then finished c stNoAuth [] s2 else finished c stBadParam [w32 code] s2

/-- FW_KEY. -/
def fwKeyCmd (c : Cmd) (s : State) : Ans × State :=
  let present := bit (c.w 2) 1
  let k := keyBytes c
  if present && !p256OnCurve (keyPoint k) then ans stBadParam s
  else ans stOk ({ s with pil := { s.pil with fwKey := if present then k else [] } }.wr PIL_FW_KEY_CTL (b2n present))

/-- FW_REVERT. -/
def fwRevert (c : Cmd) (s : State) : Ans × State := if s.fwBusy c then ans stBusyContext s else ans stOk (patchClear s)

/-! ### Rows of the opcode table (R426) -/

/-- NOP. -/
def opNop : OpInfo := ⟨0x00, 0, .both, false, false, lenIs 2⟩
/-- ECHO. -/
def opEcho : OpInfo := ⟨0x01, 0, .both, false, false, fun _ _ => true⟩
/-- IDENT. -/
def opIdent : OpInfo := ⟨0x02, 0, .both, false, false, lenIs 2⟩
/-- PWR_SET. -/
def opPwrSet : OpInfo := ⟨0x03, 2, .both, false, false, lenIs 5⟩
/-- KEY_SET. -/
def opKeySet : OpInfo := ⟨0x04, 3, .both, false, false, lenIs 12⟩
/-- PIL_SET. -/
def opPilSet : OpInfo := ⟨0x05, 2, .both, false, false, lenIs 3⟩
/-- FW_PATCH. -/
def opFwPatch : OpInfo := ⟨0xF0, 2, .both, false, true, lenIs 5⟩
/-- FW_KEY. -/
def opFwKey : OpInfo := ⟨0xF1, 3, .both, false, false, lenIs 19⟩
/-- FW_REVERT. -/
def opFwRevert : OpInfo := ⟨0xF2, 2, .both, false, false, lenIs 2⟩

end Sys2Proof.Machine
end

