-- ==== Sys2Proof/Machine/ProbeCmds.lean ====
section
/-! DEFINITION. Commands on probes, pod maps, counters, trackers, gauges and beats (R151, R152, R161, R165). -/

namespace Sys2Proof.Machine

/-- Whether a probe is named by the list of a parcel held at the instance (R165). -/
def State.probeInUse (s : State) (p : Nat) : Bool := s.par.ctxs.any (fun e => e.2.probes.any (fun x => x.probe == p))

/-- Every probe in use. -/
def State.probesUsed (s : State) : List Nat := s.par.ctxs.flatMap (fun e => e.2.probes.map (·.probe))

/-- A probe descriptor: its four words, reserved bits dropped (R8, R151). -/
structure Desc where
  w0 : Nat
  w1 : Nat
  w2 : Nat
  w3 : Nat
  deriving DecidableEq, Repr

/-- The descriptor of a probe as it stands. -/
def State.desc (s : State) (p : Nat) : Desc :=
  { w0 := s.rd (PRB_DESC p 0), w1 := s.rd (PRB_DESC p 1), w2 := s.rd (PRB_DESC p 2), w3 := s.rd (PRB_DESC p 3) }

/-- A descriptor's source and transform (R152). -/
def Desc.pair (d : Desc) : Nat × Nat := (fld d.w0 28 3, fld d.w0 25 3)

/-- Word 0 of a descriptor with what is reserved in it zero (R8, R151): bits [18:16], and where VALID is 0 the reserved
encodings of SRC and XFORM, which R152 refuses in a valid descriptor. -/
def descHead (a : Nat) : Nat :=
  let a1 := setFld a 16 3 0
  if bit a1 31 then a1
  else
    let a2 := if 4 ≤ fld a1 28 3 then setFld a1 28 3 0 else a1
    if 5 ≤ fld a2 25 3 then setFld a2 25 3 0 else a2

/-- A descriptor as PROBE_SET writes it (R8, R151): SRC_B is reserved but for RATIO. -/
def descOf (a b c d : Nat) : Desc :=
  { w0 := descHead a, w1 := setFld (if fld a 25 3 = 2 then b else b % 2 ^ 16) 0 11 0,
    w2 := setFld (setFld c 26 5 0) 11 4 0, w3 := setFld (setFld d 24 7 0) 12 4 0 }

/-- Whether a valid descriptor by itself breaks R152. -/
def Desc.bad (d : Desc) (tray : Bool) : Bool :=
  let a := fld d.w0 0 16
  match d.pair with
  | (0, 0) => tray
  | (0, 1) => tray
  | (0, 4) => tray
  | (1, 2) => tray
  | (2, 4) => decide ((if tray then 64 else 256) ≤ a)
  | (3, 3) => decide (8 ≤ a)
  | _ => true

/-- Whether numbers repeat. -/
def repeats : List Nat → Bool
  | [] => false
  | x :: xs => xs.contains x || repeats xs

/-- The uses that no two valid descriptors may share: CAD_SLOT, TRN_SLOT, TRK (R152). -/
def descClash (ds : List Desc) : Bool :=
  repeats ((ds.filter (fun d => bit d.w2 31)).map (fun d => fld d.w2 16 10)) ||
    repeats ((ds.filter (fun d => bit d.w2 15)).map (fun d => fld d.w2 0 11)) ||
    repeats ((ds.filter (fun d => bit d.w3 31)).map (fun d => fld d.w3 16 8))

/-- Put a descriptor. -/
def putDesc (p : Nat) (d : Desc) (s : State) : State :=
  (((s.wr (PRB_DESC p 0) d.w0).wr (PRB_DESC p 1) d.w1).wr (PRB_DESC p 2) d.w2).wr (PRB_DESC p 3) d.w3

/-- PROBE_SET (R152, R165). -/
def probeSet (c : Cmd) (s : State) : Ans × State :=
  let first := c.f 2 0 10
  let n := c.f 2 16 9
  if 255 < n ∨ 1024 < first + n then ans stBadParam s
  else
    let ds := (List.range n).map (fun i => (first + i, descOf (c.w (3 + 4 * i)) (c.w (4 + 4 * i)) (c.w (5 + 4 * i)) (c.w (6 + 4 * i))))
    let s1 := s.each ds (fun e t => putDesc e.1 e.2 t)
    let valid := if n = 0 then [] else ((List.range 1024).filter (fun p => s1.getB (PRB_DESC p 0) 31)).map s1.desc
    if ds.any (fun e => bit e.2.w0 31 && e.2.bad s.isTray) ∨ descClash valid = true then ans stBadParam s
    else if ds.any (fun e => s.probeInUse e.1) then ans stBusyContext s
    else ans stOk s1

/-- Whether a counter feeds a probe in use (R165). -/
def State.counterUsed (s : State) (n : Nat) : Bool :=
  s.probesUsed.any (fun p =>
    let d := s.desc p
    (decide (d.pair.1 ≤ 1) && fld d.w0 0 16 == n) || (d.pair.1 == 1 && fld d.w1 16 16 == n))

/-- The entries of a TAP_MAP command: event and its 16 bits, reserved bits dropped. DEDUCED (log 109): the entries fill the halves
in order, so entry `i` stands in half `i mod 2` where the first event is odd as well. -/
def tapMapEnts (c : Cmd) : List (Nat × Nat) :=
  (List.range (c.f 3 0 11)).map (fun i =>
    let h := c.f (4 + i / 2) (16 * (i % 2)) 16
    (c.f 2 16 10 + i, b2n (bit h 15) * 2 ^ 15 + h % 1024))

/-- TAP_MAP (R132, R165). DEDUCED (log 144): with n = 0 on a pod that is off it is refused with ABSENT. -/
def tapMap (c : Cmd) (s : State) : Ans × State :=
  let pod := c.f 2 0 6
  let n := c.f 3 0 11
  if 1024 < n ∨ 1024 < c.f 2 16 10 + n then ans stBadParam s
  else
    let es := tapMapEnts c
    let old (e : Nat) : Nat := s.getF (TAP_MAP pod (e / 2)) (16 * (e % 2)) 16
    let busy := es.any (fun x => old x.1 != x.2 &&
      (s.counterUsed (1024 * pod + old x.1 % 1024) || s.counterUsed (1024 * pod + x.2 % 1024)))
    if busy then ans stBusyContext s
    else if s.podOn pod = false then ans stAbsent s
    else ans stOk (s.each es (fun x t => t.setF (TAP_MAP pod (x.1 / 2)) (16 * (x.1 % 2)) 16 x.2))

/-- TAP_CLEAR (R141, R165): it replies when every clear has been captured. -/
def tapClear (c : Cmd) (s : State) : Ans × State :=
  let first := c.f 2 0 16
  let n := c.f 3 0 17
  if 65536 < first + n then ans stBadParam s
  else if n = 0 then ans stOk s
  else
    let id := s.pil.nextJob
    let pods := (List.range 64).filter (fun p => s.podOn p && decide (first < 1024 * (p + 1)) && decide (1024 * p < first + n))
    let s1 := s.each pods (podClearAsk id first n)
    if s1.clearWaits id then (.started .waiting .plain, s1) else ans stOk s1

/-- TRK_SET (R161, R164, R165). -/
def trkSet (c : Cmd) (s : State) : Ans × State :=
  let first := c.f 2 0 8
  let n := c.f 2 8 9
  if 170 < n ∨ 256 < first + n then ans stBadParam s
  else
    let bad (i : Nat) : Bool := c.f (3 + 6 * i) 12 4 == 0 || decide (32 < c.f (4 + 6 * i) 16 6) || c.w (6 + 6 * i) == 0
    if (List.range n).any bad then ans stBadParam s
    else
      ans stOk (s.each (List.range n) (fun i t =>
        let w := 3 + 6 * i
        let k := first + i
        let t1 := (t.wr (PRB_TRK_CFG k 0) (setFld (setFld (c.w w) 28 3 0) 0 12 0)).wr (PRB_TRK_CFG k 1)
          (setFld (setFld (c.w (w + 1)) 22 2 0) 0 16 0)
        trackerStart k (t1.each [2, 3, 4, 5] (fun j u => u.wr (PRB_TRK_CFG k j) (c.w (w + j))))))

/-- INPUT_SET (R146, R149, R165). -/
def inputSet (c : Cmd) (s : State) : Ans × State :=
  let gauges := c.f 2 0 9
  let mask := c.f 2 16 8
  let tmo := c.f 3 0 12
  if (if s.isTray then 64 else 256) < gauges ∨ tmo = 0 then ans stBadParam s
  else
    let dropped (p : Nat) : Bool :=
      let d := s.desc p
      let a := fld d.w0 0 16
      (d.pair.1 == 2 && decide (gauges ≤ a) && decide (a < s.gaugeCount)) || (d.pair.1 == 3 && s.beatOn a && !(bit mask a))
    if s.probesUsed.any dropped then ans stBusyContext s
    else
      let off := (List.range 8).filter (fun b => s.beatOn b && !(bit mask b))
      ans stOk (((s.each off beatForget).wr GAU_CTL (gauges + tmo * 2 ^ 16)).wr BEA_CTL mask)

/-! ### Rows of the opcode table (R165) -/

/-- PROBE_SET. -/
def opProbeSet : OpInfo := ⟨0x20, 2, .both, true, false, lenCount 2 (fun ps => fld (wAt ps 0) 16 9) 0 255 (fun n => 3 + 4 * n)⟩
/-- TAP_MAP. -/
def opTapMap : OpInfo := ⟨0x21, 2, .leafOnly, false, false, lenCount 3 (fun ps => fld (wAt ps 1) 0 11) 0 1024 (fun n => 4 + (n + 1) / 2)⟩
/-- TAP_CLEAR. -/
def opTapClear : OpInfo := ⟨0x22, 1, .leafOnly, false, false, lenIs 4⟩
/-- TRK_SET. -/
def opTrkSet : OpInfo := ⟨0x23, 2, .both, true, false, lenCount 2 (fun ps => fld (wAt ps 0) 8 9) 0 170 (fun n => 3 + 6 * n)⟩
/-- INPUT_SET. -/
def opInputSet : OpInfo := ⟨0x24, 2, .both, false, false, lenIs 4⟩

end Sys2Proof.Machine
end

