-- ==== Sys2Proof/Machine/Datum.lean ====
section
/-! DEFINITION. Datum's events and commands (R72 to R91): time words at a leaf, PPS edges, pulses, SERVO_SET, TIME_ROLE,
TIME_SET and PULSE_SET. -/

namespace Sys2Proof.Machine

/-! ### Time words at a leaf (R72) -/

/-- The delay of the link into a side (R72), or the listen estimate while in bypass (R120). -/
def State.wordDelay (s : State) (sd : Side) : Nat :=
  if s.inserted 0 then s.linkDelay 0 sd
  else match sd with
    | .west => s.rd CHN_LISTEN_DLY
    | .east => s.rd CHN_LISTEN_DLY_E

/-- A leaf notes what a time word says of its chain: the mode that its cycle has (R116), and the side it came on. -/
def wordNote (sd : Side) (whole : Bool) (s : State) : State :=
  let c := s.chain 0
  let cyc := s.rd (TMT_CYC 0)
  setModeAt 0 cyc (if whole then 1 else 2) (s.setChain 0 (match sd with
    | .west => { c with wordW := some cyc }
    | .east => { c with wordE := some cyc }))

/-- A row 1 of container 0 leaves a leaf on the other side (R72, R97, R122). -/
def wordRow (sd : Side) (blocks : List Block) (s : State) : State :=
  s.drive 0 (otherSide sd) (.row 0 (otherSide sd) (s.rd (TMT_CYC 0)) 0 1 blocks)

/-- A leaf forwards a time word on its other side with its own delay and residence added (R72). -/
def wordForward (sd : Side) (bs : List Byte) (rx tx : Nat) (s : State) : State :=
  let flags := leAt bs 20 1
  let h := (fld flags 0 5 + 1) % 32
  let res := timeDiff (s.txStamp tx) (s.rxStamp rx) / 65536
  let corr := toInt 48 (leAt bs 12 6) + (s.wordDelay sd : Nat) + res
  wordRow sd (rowBlocks 0xA
    (rowBytes (bs.take 12 ++ leBytes 6 (ofInt 48 corr) ++ slice bs 18 2 ++ leBytes 1 (setFld flags 0 5 h) ++ slice bs 21 1))) s

/-- A leaf takes its time from a word (R72): its reference time and the offset as the servo's measurement. A word that reports
its tray in FREE_RUN or ACQUIRE makes epochs in progress DEGRADED (R66). DEDUCED (log 142): it does so with SERVO_EN 0 too. -/
def wordTake (sd : Side) (origin : Nat) (bs : List Byte) (rx : Nat) (s : State) : State :=
  let flags := leAt bs 20 1
  let whole := bit flags 5
  let share := toInt 16 (leAt bs 18 2)
  let h := fld flags 0 5 + 1
  let sh := if whole ∧ s.getB DAT_CTL 4 = true then share else 0
  let ref := clockAdd origin ((toInt 48 (leAt bs 12 6) + (s.wordDelay sd : Nat) + (h : Int) * sh) * 65536)
  let s1 := s.putB DAT_STATE 6 (sd == .east)
  let s2 := if leAt bs 21 1 % 8 ≤ 1 then s1.later .timeBad else s1
  measure (timeDiff ref (s2.rxStamp rx) / 65536) s2

/-- What every time word received leaves in a leaf's registers, whether or not the leaf takes its time from it: HOP and WHOLE
of DAT_STATE, and the SHARE received (R90, R91). -/
def wordFields (bs : List Byte) (s : State) : State :=
  let flags := leAt bs 20 1
  ((s.setF DAT_STATE 16 5 (fld flags 0 5 + 1)).putB DAT_STATE 7 (bit flags 5)).setF DAT_CLOSURE 0 16 (leAt bs 18 2)

/-- A leaf receives a time word (R72): it takes its time from it where REF is 0 and the word is not the second copy of a whole
ring, and forwards it if it is inserted. A side whose D is unseeded gives no measurement, and row 1 goes on idle (R122). `rx`
and `tx` are the local times at which the word came and at which it leaves. DESIGN CHOICE (log 103): an inserted leaf with
another REF forwards the word all the same. -/
def timeWordReceive (sd : Side) (blocks : List Block) (rx tx : Nat) (s : State) : State :=
  if s.isTray then s
  else
    match timeWordOf blocks with
    | none => s.inc DAT_TW_ERR 1
    | some (origin, bs) =>
      let flags := leAt bs 20 1
      let s1 := wordNote sd (bit flags 5) (wordFields bs s)
      if s1.inserted 0 ∧ s1.unseeded 0 sd = true then wordRow sd idleRow s1
      else
        let s2 := if s1.datRef = 0 ∧ (bit flags 5 && bit flags 6) = false then wordTake sd origin bs rx s1 else s1
        if s2.inserted 0 then wordForward sd bs rx tx s2 else s2

/-! ### The PPS input (R76, R91) -/

/-- A rising edge of DAT_PPS_IN (R76): the nearest whole second minus its stamp is the grandmaster's measurement. -/
def ppsEdge (edge : Nat) (s : State) : State :=
  let t := beatStamp edge
  let s1 := { s with dat := { s.dat with ppsMiss := 0 } }.putB DAT_STATE 5 true
  if s1.isTray ∧ s1.dat.role.role = 2 ∧ s1.datRef = 2 then
    let sec := (t + secU / 2) / secU * secU
    measure (timeDiff (sec % clockMod) t / 65536) s1
  else s1

/-- An expected edge does not come (R91): PPS_SEEN falls at the second second without one. -/
def ppsMiss (s : State) : State :=
  let s1 := { s with dat := { s.dat with ppsMiss := s.dat.ppsMiss + 1 } }.evt DAT_EVT 7
  if 2 ≤ s1.dat.ppsMiss then s1.putB DAT_STATE 5 false else s1

/-! ### SERVO_SET (R89) -/

/-- The registers SERVO_SET writes, by offset within 0x02_0000, as 32-bit halves (R89). -/
def servoRegs : List Nat := [0x04, 0x18, 0x1C, 0x24, 0x28, 0x2C, 0x30, 0x34, 0x38, 0x50, 0x54]

/-- Whether a field of 8 bits lies within `lo … hi`. -/
def fieldIn (v at_ w lo hi : Nat) : Bool := decide (lo ≤ fld v at_ w) && decide (fld v at_ w ≤ hi)

/-- SERVO_SET's check of one pair (R89, R90, R91). -/
def servoPairBad (b : Build) (off v : Nat) : Bool :=
  if off = 0x04 then b == .leaf && (fld v 1 2 == 1 || fld v 1 2 == 2)
  else if off = 0x24 then !(fieldIn v 0 8 1 63 && fieldIn v 8 8 1 63 && fieldIn v 16 8 1 63 && fieldIn v 24 8 1 63)
  else if off = 0x28 then fld v 16 16 == 0 || fld v 0 16 == 0 || decide (fld v 16 16 < fld v 0 16)
  else if off = 0x2C then !(fieldIn v 16 8 2 255 && fieldIn v 8 8 1 255 && fieldIn v 0 8 1 255)
  else if off = 0x30 then v == 0 || decide (999999999 < v)
  else if off = 0x34 then decide (999999999 < v)
  else if off = 0x38 then v == 0 || decide (3600000 < v)
  else !(servoRegs.contains off)

/-- Write one pair; reserved bits are ignored (R8). -/
def servoPut (off v : Nat) (s : State) : State :=
  if off = 0x04 then s.wr DAT_CTL (v &&& 0x17)
  else if off = 0x18 then s.setF DAT_INC 0 32 v
  else if off = 0x1C then s.setF DAT_INC 32 32 v
  else if off = 0x24 then s.wr DAT_GAIN v
  else if off = 0x28 then s.wr DAT_THR v
  else if off = 0x2C then s.wr DAT_COUNT (v % 2 ^ 24)
  else if off = 0x30 then s.wr DAT_STEP_THR v
  else if off = 0x34 then s.wr DAT_STEP_MAX v
  else if off = 0x38 then s.wr DAT_HOLD_MAX v
  else if off = 0x50 then s.wr DAT_PMA_LAT v
  else s.wr DAT_ASYM v

/-- SERVO_SET: all pairs at one edge, or nothing (R62, R64, R89). -/
def servoSet (c : Cmd) (s : State) : Ans × State :=
  let ps := pairsOf c.params
  if ps.any (fun p => servoPairBad s.build p.1 p.2) then ans stBadParam s
  else
    let s1 := s.each ps (fun p t => servoPut p.1 p.2 t)
    let changed := s1.datRef != s.datRef || (s.getB DAT_CTL 0 && !s1.getB DAT_CTL 0)
    ans stOk (if ps = [] then s1 else roleSettled s.gmHeld changed s1)

/-! ### TIME_ROLE, TIME_SET, PULSE_SET (R64, R78, R81, R88) -/

/-- Addresses of four words each, from parameter word `i` on. -/
def ipList (c : Cmd) (i n : Nat) : List Nat := (List.range n).map (fun k => c.ip (i + 4 * k))

/-- TIME_ROLE (R64, R88). -/
def timeRoleCmd (c : Cmd) (s : State) : Ans × State :=
  let n := c.w 9
  if 64 < n ∨ c.f 2 0 2 = 3 ∨ 7 < c.f 2 12 4 ∨ 7 < c.f 2 16 4 then ans stBadParam s
  else
    let r : TimeRole :=
      { role := c.f 2 0 2, layer2 := bit (c.w 2) 2, domain := c.f 2 4 7, syncLog := c.f 2 12 4, dreqLog := c.f 2 16 4,
        asym := toInt 32 (c.w 3), master := c.ip 4, children := ipList c 10 n }
    ans stOk (roleSettled s.gmHeld false { s with dat := { s.dat with role := r } })

/-- TIME_SET puts the clock to a time, by a step (R65, R85); time has then been loaded (R91, VALID). -/
def putClock (t : Nat) (s : State) : State :=
  { s with dat := { s.dat with clock := t, stepMark := some (s.dat.edges + 1), catchUp := s.dat.catchUp || decide (0 < timeDiff t s.now) } }

/-- TIME_SET (R57, R78), given whether a reduction context is reserved or committed. -/
def timeSetCmd (held : Bool) (c : Cmd) (s : State) : Ans × State :=
  match c.time 2 with
  | none => ans stBadParam s
  | some t =>
    if s.isTray = false ∨ s.dat.role.role ≠ 2 then ans stBadParam s
    else if held then ans stBusyContext s
    else
      ans stOk ((rateNote 6 ((((putClock t s).putB DAT_STATE 4 true).inc DAT_STEPS 1).evt DAT_EVT 3)).later .clockStep)

/-- The index of the first programmed edge of a periodic output at or after a time (R81). -/
def firstEdge (start per t : Nat) : Nat := if t ≤ start then 0 else ceilDiv (t - start) (nsU per)

/-- The number of the next edge of a pulse output (R80). -/
def putPulseNext (n k : Nat) (s : State) : State := { s with dat := { s.dat with pulseNext := Tbl.set s.dat.pulseNext n k } }

/-- PULSE_SET (R57, R80, R81). -/
def pulseSet (c : Cmd) (s : State) : Ans × State :=
  let n := c.f 2 0 3
  let per := c.w 6
  let width := c.f 7 0 16
  match c.time 3 with
  | none => ans stBadParam s
  | some start =>
    if width = 0 ∨ (per ≠ 0 ∧ (per < 8 ∨ 5 * per < 4 * (width + 1))) then ans stBadParam s
    else
      let earliest := s.now + nsU 1000
      if per = 0 ∧ start < earliest then ans stTooLate s
      else
        let late := per ≠ 0 ∧ start < s.now
        let k := if late then firstEdge start per earliest else 0
        let s1 := (s.wrTime (DAT_PLS_SUB n) (DAT_PLS_SEC n) start).wr (DAT_PLS_PER n) per
        let s2 := s1.wr (DAT_PLS_CTL n) (c.w 7 &&& 0xC000FFFF)
        let s3 := pulseHold (putPulseNext n k s2)
        ans stOk (if late then s3.evt DAT_EVT 9 else s3)

/-- SERVO_SET. -/
def opServoSet : OpInfo := ⟨0x73, 2, .both, false, false, lenEven⟩
/-- MARK. -/
def opMark : OpInfo := ⟨0x70, 1, .both, false, false, lenIs 4⟩
/-- PULSE_SET. -/
def opPulseSet : OpInfo := ⟨0x71, 2, .both, false, false, lenIs 8⟩
/-- TIME_SET. -/
def opTimeSet : OpInfo := ⟨0x72, 3, .both, false, false, lenIs 5⟩
/-- TIME_ROLE. -/
def opTimeRole : OpInfo := ⟨0x74, 2, .trayOnly, false, false, lenCount 9 (fun ps => wAt ps 7) 0 64 (fun n => 10 + 4 * n)⟩
/-- TIME_PROBE. -/
def opTimeProbe : OpInfo := ⟨0x75, 0, .trayOnly, false, true, lenIs 7⟩

end Sys2Proof.Machine
end

