-- ==== Sys2Proof/Machine/Landing.lean ====
section
/-! DEFINITION. Landing (R500 to R514): its commands, its gates, the frames it sends and receives. -/

namespace Sys2Proof.Machine

/-! ### Frames as bytes (R500, R501) -/

/-- The one's-complement sum of a list of bytes, taken as big-endian halfwords. -/
def onesSum : List Byte → Nat → Nat
  | a :: b :: r, acc => onesSum r (let t := acc + a.toNat * 256 + b.toNat; t % 65536 + t / 65536)
  | [a], acc => let t := acc + a.toNat * 256; t % 65536 + t / 65536
  | [], acc => acc

/-- The UDP checksum over IPv6 of a datagram: source and destination, length, protocol, then the datagram with its
checksum field as it stands. -/
def udpSum (ips udp : List Byte) : Nat :=
  onesSum (ips ++ beBytes 4 udp.length ++ [0#8, 0#8, 0#8, 17#8] ++ udp) 0

/-- The checksum to put into a datagram whose field holds zero; zero goes out as all ones. -/
def udpChecksum (ips udp : List Byte) : Nat :=
  let c := 65535 - udpSum ips udp
  if c = 0 then 65535 else c

/-- An Ethernet II frame carrying a UDP datagram over IPv6 (R500). Addresses stand in the order of their memory image (R7,
DEDUCED: the log says so). -/
def udpFrame (dmac smac dscp src dst sport dport : Nat) (body : List Byte) : List Byte :=
  let n := body.length + 8
  let ips := leBytes 16 src ++ leBytes 16 dst
  let head := beBytes 2 sport ++ beBytes 2 dport ++ beBytes 2 n
  let ck := udpChecksum ips (head ++ zeros 2 ++ body)
  leBytes 6 dmac ++ leBytes 6 smac ++ beBytes 2 0x86DD ++ beBytes 4 (6 * 2 ^ 28 + dscp * 4 * 2 ^ 20) ++ beBytes 2 n ++
    [17#8, 64#8] ++ ips ++ head ++ beBytes 2 ck ++ body

/-- DSCP of a class (R514). -/
def State.lndDscp (s : State) (cls : Nat) : Nat := if cls = 0 then 0 else s.getF LND_DSCP (6 * cls - 6) 6

/-- LND_CTL.PORT. -/
def State.lndPort (s : State) : Nat := s.getF LND_CTL 16 16

/-- The instance's own IPv6 address. -/
def State.ownIp (s : State) : Nat := s.rdIp LND_IP6

/-- A bundle (R501): its header with the CRC of everything else, then its items. -/
def bundleBytes (kind cls src n bseq : Nat) (items : List (List Byte)) : List Byte :=
  let head := leBytes 2 0x5A4C ++ [1#8] ++ leBytes 1 (kind + cls * 4) ++ leBytes 3 src ++ leBytes 1 n ++ leBytes 4 bseq
  head ++ leBytes 4 (crc32c (head ++ items.flatten)) ++ items.flatten

/-- Key of the bundle count of a destination and class. -/
def bseqKey (ip cls : Nat) : Nat := ip * 8 + cls

/-- The frame of a queued bundle, and the count of bundles to its destination moved on (R500, R501). -/
def bundleFrame (f : LndFrame) (s : State) : List Byte × State :=
  let key := bseqKey f.ip f.cls
  let n := (Tbl.get? s.lnd.bseq key).getD 0
  let b := bundleBytes f.kind f.cls s.station f.items.length n f.items
  (udpFrame (s.rd (LND_GW f.stream)) (s.rd LND_MAC) (s.lndDscp f.cls) s.ownIp f.ip s.lndPort s.lndPort b,
   { s with lnd := { s.lnd with bseq := Tbl.set s.lnd.bseq key ((n + 1) % 2 ^ 32) } })

/-! ### Gates (R509, R510) -/

/-- The absolute number of the 9.6 ns slot in which a time falls, counted from time zero. -/
def lndSlot (t : Nat) : Nat := t * 10 / (96 * 2 ^ 32)

/-- Whether a class's gate is open in a slot of the cycle (R509). -/
def State.lndGateOpen (s : State) (stream cls slot : Nat) : Bool :=
  (List.range 64).any (fun n =>
    let e := gateOf (s.rd (LND_ENT stream 0 n))
    bit e.classes (cls - 1) && (e.index slot).isSome)

/-- Time a frame of `len` bytes takes on a stream of 64 bytes a nanosecond, in clock units. -/
def frameTime (len : Nat) : Nat := nsU (ceilDiv len 64)

/-- Whether a class's gate is open now and stays so until a frame of a length would end (R504, R510). -/
def State.gateFits (s : State) (stream cls len : Nat) : Bool :=
  let a := lndSlot s.now
  let b := lndSlot (s.now + frameTime len - 1)
  (List.range (b - a + 1)).all (fun i => s.lndGateOpen stream cls ((a + i) % 1024))

/-- A stream's admin list becomes operational (R509). -/
def lndSwap (stream : Nat) (s : State) : State :=
  let s1 := s.each (List.range 64) (fun n t => t.wr (LND_ENT stream 0 n) (t.rd (LND_ENT stream 1 n)))
  let ver := (Tbl.get? s1.lnd.gateVer (2 * stream + 1)).getD 0
  let left := Tbl.erase s1.lnd.swap stream
  let s2 := { s1 with lnd := { s1.lnd with gateVer := Tbl.set s1.lnd.gateVer (2 * stream) ver, swap := left } }
  let s3 := if stream = 0 then s2.setF LND_GATE_VER 0 16 ver else s2
  (if left.isEmpty then s3.putB LND_GATE_CYC 63 false else s3).evt LND_EVT 3

/-- Pending swaps whose cycle has come, or has been passed by a forward step, take effect (R115, R509). -/
def lndSwapDue (cyc : Nat) (s : State) : State :=
  s.each (s.lnd.swap.filter (fun e => cycReached e.2 cyc)) (fun e t => lndSwap e.1 t)

/-! ### Sending (R504 to R506) -/

/-- Whether a stream is enabled. -/
def State.streamOn (s : State) (stream : Nat) : Bool := stream < 2 && s.getB LND_CTL stream

/-- A class's next frame: the flow head with the lowest start tag, the lower flow at equal tags (R505). `frames` stands in
the order of joining, so that a flow's first frame is its head. -/
def State.lndHead (s : State) (stream cls : Nat) : Option LndFrame :=
  (s.lnd.frames.filter (fun f => f.stream == stream && f.cls == cls)).foldl
    (fun best f => match best with
      | none => some f
      | some b => if f.start < b.start ∨ (f.start = b.start ∧ f.flow < b.flow) then some f else some b) none

/-- Whether a class's shaper lets a frame of a length start (R506). -/
def State.shaperFits (s : State) (stream cls len : Nat) : Bool :=
  !(s.getB (LND_SHP_RATE stream cls) 31) || decide (len * 1000 ≤ s.bucket (lndKey stream cls))

/-- The frame a stream would send next of its classes (R504). -/
def State.lndNext (s : State) (stream : Nat) : Option LndFrame :=
  ([1, 2, 3, 4, 5].filterMap (s.lndHead stream)).find? (fun f =>
    s.gateFits stream f.cls f.len && s.shaperFits stream f.cls f.len)

/-- Key of the largest finish tag a class has sent, in the table of virtual times. -/
def lndFin (k : Nat) : Nat := 64 + k

/-- A frame boundary: no class of the stream sends, so that V is the largest finish tag each has sent (R505). -/
def lndIdle (stream : Nat) (s : State) : State :=
  s.each [1, 2, 3, 4, 5] (fun c t =>
    match Tbl.get? t.lnd.served (lndFin (lndKey stream c)) with
    | none => t
    | some f => { t with lnd := { t.lnd with served := Tbl.set t.lnd.served (lndKey stream c) f } })

/-- Send a queued frame of a class (R504 to R506). -/
def lndSend (f : LndFrame) (s : State) : State :=
  let k := lndKey f.stream f.cls
  let fin := max (f.start + f.len) ((Tbl.get? s.lnd.served (lndFin k)).getD 0)
  let s1 := if s.getB (LND_SHP_RATE f.stream f.cls) 31 then takeTokens k f.len s else s
  let s2 := { s1 with lnd := { s1.lnd with frames := s1.lnd.frames.erase f,
                                           served := Tbl.set (Tbl.set s1.lnd.served k f.start) (lndFin k) fin } }
  let (bs, s3) := bundleFrame f s2
  (s3.inc LND_TX_FRAMES 1).emit (.frame f.stream false bs)

/-! ### Commands (R511, R512) -/

/-- Whether a register offset within a shaper's block names class 1 to 5: `o` counts from the stream's first register. -/
def shpOffOk (o : Nat) : Bool := decide (8 ≤ o) && decide (o < 48) && o % 4 == 0

/-- LND_SET's check of one pair (R512 to R514). -/
def lndPairBad (o v : Nat) : Bool :=
  if o = 0x440 then decide (1 < v)
  else if o = 0x448 then v % 4096 != 0
  else if o = 0x44C then false
  else if o = 0x450 then decide (2 ^ 28 ≤ v)
  else if o = 0x470 ∨ o = 0x474 ∨ o = 0x478 ∨ o = 0x47C then false
  else if o = 0x4404 then v / 2 ^ 16 == 0 || fld v 5 11 != 0 || fld v 2 2 != 0
  else if o = 0x440C then decide (2 ^ 30 ≤ v)
  else if o = 0x4410 ∨ o = 0x4418 ∨ o = 0x4420 then false
  else if o = 0x4414 ∨ o = 0x441C ∨ o = 0x4424 then decide (2 ^ 16 ≤ v)
  else if o = 0x4430 ∨ o = 0x4434 ∨ o = 0x4438 ∨ o = 0x443C then false
  else if (0x4500 ≤ o ∧ o < 0x4580) ∧ shpOffOk ((o - 0x4500) % 0x40) = true then
    if o % 8 = 0 then fld v 16 15 != 0 || (bit v 31 && v % 2 ^ 16 == 0) else decide (2 ^ 16 ≤ v) || decide (v < 9)
  else if (0x45C0 ≤ o ∧ o < 0x45E0) ∧ o % 4 = 0 then
    if o % 8 = 0 then decide (2 ^ 16 ≤ v) else decide (2 ^ 16 ≤ v) || decide (v < 9)
  else true

/-- The bucket keys a pair concerns: a shaper's or a policer's. -/
def lndPairBucket (o : Nat) : Option Nat :=
  if 0x4500 ≤ o ∧ o < 0x4580 then some (lndKey ((o - 0x4500) / 0x40) ((o - 0x4500) % 0x40 / 8))
  else if 0x45C0 ≤ o ∧ o < 0x45E0 then some (64 + 2 * ((o - 0x45C0) / 0x10) + (o - 0x45C0) % 0x10 / 8)
  else none

/-- The register a pair writes, and the bit its word begins at. -/
def lndPairReg (o : Nat) : Loc × Nat :=
  if o = 0x440 then (STW_SR_CTL, 0)
  else if o = 0x448 then (STW_SR_BASE, 0)
  else if o = 0x44C then (STW_SR_BASE, 32)
  else if o = 0x450 then (STW_SR_SIZE, 0)
  else if o < 0x480 then (STW_SR_COLL ((o - 0x470) / 4), 0)
  else if o = 0x4404 then (LND_CTL, 0)
  else if o = 0x440C then (LND_DSCP, 0)
  else if o = 0x4410 then (LND_MAC, 0)
  else if o = 0x4414 then (LND_MAC, 32)
  else if o < 0x4428 then (LND_GW ((o - 0x4418) / 8), if o % 8 = 0 then 0 else 32)
  else if o < 0x4440 then (LND_IP6 ((o - 0x4430) / 4), 0)
  else if o < 0x4580 then
    let st := (o - 0x4500) / 0x40
    let c := (o - 0x4500) % 0x40 / 8
    if o % 8 = 0 then (LND_SHP_RATE st c, 0) else (LND_SHP_BURST st c, 0)
  else
    let st := (o - 0x45C0) / 0x10
    let k := (o - 0x45C0) % 0x10 / 8
    if o % 8 = 0 then (LND_POL_RATE st k, 0) else (LND_POL_BURST st k, 0)

/-- Write one pair. A bucket keeps the tokens it holds, clamped to its new BURST, and accrues at its new RATE from the next
edge on (R507). -/
def lndPut (p : Nat × Nat) (s : State) : State :=
  let (l, lo) := lndPairReg p.1
  match lndPairBucket p.1 with
  | none => s.setF l lo 32 p.2
  | some k =>
    let s1 := (putBucket k (s.bucket k) s).setF l lo 32 p.2
    putBucket k (s1.bucket k) s1

/-- LND_SET (R507, R512). -/
def lndSetCmd (c : Cmd) (s : State) : Ans × State :=
  let ps := pairsOf c.params
  if ps.any (fun p => lndPairBad p.1 p.2) then ans stBadParam s else ans stOk (s.each ps (fun p t => lndPut p t))

/-- BERTH_SET (R487, R512). -/
def berthSetCmd (c : Cmd) (s : State) : Ans × State :=
  if berthSetBad s.build (c.w 2) then ans stBadParam s
  else ans stOk (s.wr BRT_CTL (c.w 2))

/-- The children of a TREE_SET: station, stream, address. -/
def treeKids (c : Cmd) : List (Nat × Nat × Nat) :=
  (List.range (c.f 8 0 7)).map (fun k => (c.f (9 + 5 * k) 0 20, c.f (9 + 5 * k) 31 1, c.ip (10 + 5 * k)))

/-- Whether a station number is a tray build's. -/
def isTrayStation (st : Nat) : Bool := st % 64 == 0

/-- TREE_SET's own checks (R511). -/
def treeSetBad (c : Cmd) (s : State) : Bool :=
  let l := c.f 2 0 3
  let root := bit (c.w 2) 9
  let kids := treeKids c
  let sts := kids.map (·.1)
  if l = 0 ∨ 4 < l ∨ 64 < c.f 8 0 7 then true
  else if bit (c.w 2) 8 then decide (l < 4) && s.roleHeld (l + 1)
  else
    (!root && c.f 3 24 3 != l + 1) || (l == 4 && !root) ||
    (l == 1 && !kids.isEmpty) ||
    (decide (2 ≤ l) && (decide (kids.length < 2) || decide (64 < kids.length) || sts.eraseDups.length != sts.length ||
      sts.any (fun st => !isTrayStation st) || !sts.contains s.station)) ||
    (decide (3 ≤ l) && !s.roleHeld (l - 1))

/-- Whether the instance holds a reserved or committed context at level 2 or above (R33). -/
def State.treeInUse (s : State) : Bool := s.par.ctxs.any (fun e => decide (2 ≤ e.2.level))

/-- Put the children of a role: the registers, and the addresses held inside (R511, R514). -/
def putKids (l : Nat) (kids : List (Nat × Nat × Nat)) (s : State) : State :=
  if l < 2 then s
  else
    s.each (List.range 64) (fun k t =>
      match kids[k]? with
      | none => { t.wr (LND_TREE_CH l k) 0 with lnd := { t.lnd with childIp := Tbl.erase t.lnd.childIp (64 * l + k) } }
      | some (st, sm, ip) =>
        { t.wr (LND_TREE_CH l k) (2 ^ 31 + sm * 2 ^ 30 + st) with
            lnd := { t.lnd with childIp := Tbl.set t.lnd.childIp (64 * l + k) ip } })

/-- TREE_SET (R33, R511): writes or clears the entry of one role. -/
def treeSetCmd (c : Cmd) (s : State) : Ans × State :=
  let l := c.f 2 0 3
  if treeSetBad c s then ans stBadParam s
  else if s.treeInUse then ans stBusyContext s
  else if bit (c.w 2) 8 then
    ans stOk (putKids l [] (wrIp (LND_TREE_ADDR l) 0 ((s.wr (LND_TREE_ID l) 0).wr (LND_TREE_N l) 0)))
  else
    let root := bit (c.w 2) 9
    let kids := treeKids c
    let id := 2 ^ 31 + b2n root * 2 ^ 30 + c.f 2 10 1 * 2 ^ 29 + (if root then 0 else c.f 3 24 3 * 2 ^ 24 + c.f 3 0 20)
    ans stOk (putKids l kids (wrIp (LND_TREE_ADDR l) (if root then 0 else c.ip 4)
      ((s.wr (LND_TREE_ID l) id).wr (LND_TREE_N l) kids.length)))

/-- The entries of a list that Landing's rules refuse: 0 none, 1 BAD_PARAM, 2 BAD_LEN (R109, R509). MODE is reserved, so that
no two entries clash. -/
def lndListBad (es : List Nat) : Nat :=
  let gs := es.map gateOf
  if gs.any (fun g => g.bad 1023 == 2) then 2 else if gs.any (fun g => g.bad 1023 != 0) then 1 else 0

/-- A gate list entry of Landing as it is held: POS, MODE, ALARM_N and the bits above CLASSES are reserved, and ignored (R8, R108,
R509). -/
def lndEnt (v : Nat) : Nat := setFld (v % 2 ^ 48) 34 9 0

/-- LND_GATE_LOAD (R509, R512): a stream's admin list. -/
def lndGateLoadCmd (c : Cmd) (s : State) : Ans × State :=
  let stream := c.f 2 0 1
  let n := c.f 2 8 7
  let es := (List.range n).map (fun i => lndEnt (c.w64 (4 + 2 * i)))
  let ver := c.f 3 0 16
  if 64 < n then ans stBadParam s
  else if lndListBad es = 2 then ans stBadLen s
  else if lndListBad es = 1 then ans stBadParam s
  else
    let s1 := s.each (List.range 64) (fun i t => t.wr (LND_ENT stream 1 i) (es.getD i 0))
    let s2 := { s1 with lnd := { s1.lnd with gateVer := Tbl.set s1.lnd.gateVer (2 * stream + 1) ver } }
    ans stOk (if stream = 0 then s2.setF LND_GATE_VER 16 16 ver else s2)

/-- LND_GATE_SWAP (R509, R512). -/
def lndGateSwapCmd (c : Cmd) (s : State) : Ans × State :=
  let cyc := c.w 2 + c.f 3 0 8 * 2 ^ 32
  let mask := c.f 4 0 2
  if cycReached (cycleOf s.now + 64) cyc = false then ans stTooLate s
  else if mask = 0 then ans stOk s
  else
    ans stOk ((s.each ((List.range 2).filter (bit mask)) (fun st t =>
      { t with lnd := { t.lnd with swap := Tbl.set t.lnd.swap st cyc } })).wr LND_GATE_CYC (2 ^ 63 + cyc))

/-- BERTH_SET. -/
def opBerthSet : OpInfo := ⟨0xB1, 2, .both, false, false, lenIs 3⟩
/-- LND_SET. -/
def opLndSet : OpInfo := ⟨0xB2, 2, .trayOnly, false, false, lenEven⟩
/-- TREE_SET. -/
def opTreeSet : OpInfo := ⟨0xB3, 2, .trayOnly, false, false, lenCount 8 (fun ps => fld (wAt ps 6) 0 7) 0 64 (fun n => 9 + 5 * n)⟩
/-- LND_GATE_LOAD. -/
def opLndGateLoad : OpInfo := ⟨0xB4, 2, .trayOnly, false, false, lenCount 2 (fun ps => fld (wAt ps 0) 8 7) 0 64 (fun n => 4 + 2 * n)⟩
/-- LND_GATE_SWAP. -/
def opLndGateSwap : OpInfo := ⟨0xB5, 2, .trayOnly, false, false, lenIs 5⟩

/-! ### Receiving (R503, R508) -/

/-- Count a frame as bad (R503). -/
def rxBad (s : State) : State := (s.inc LND_RX_BAD 1).evt LND_EVT 0

/-- Whether a frame's bundle passes every check of R503, in the rule's order. -/
def bundleOk (s : State) (bs : List Byte) : Bool :=
  let udp := bs.drop 54
  let b := bs.drop 62
  let n := leAt b 7 1
  let kind := fld (leAt b 3 1) 0 2
  leAt bs 38 16 == s.ownIp && udpSum (slice bs 22 32) udp == 65535 && leAt b 0 2 == 0x5A4C && leAt b 2 1 == 1 &&
    decide (kind < 2) && (decide (1 ≤ n) && decide (n ≤ 64)) && bs.length == frameLen n (if kind = 1 then 64 else 128) &&
    leAt b 12 4 == crc32c (b.take 12 ++ b.drop 16)

/-- Cut a list into pieces of `k`. -/
def piecesOf (k : Nat) : Nat → List Byte → List (List Byte)
  | 0, _ => []
  | n + 1, bs => bs.take k :: piecesOf k n (bs.drop k)

/-- The policer a bundle meets: 0 for one that carries CMD cells, 1 for a SERIES bundle (R508). -/
def policerOf (cls : Nat) (cells : List (List Byte)) : Option Nat :=
  if cells.any (fun c => leAt c 0 1 % 32 == 8) then some 0 else if cls = 4 then some 1 else none

/-- Send a frame out of the other stream, or discard it (R503). -/
def forwardFrame (stream : Nat) (bs : List Byte) (rx : Nat) (s : State) : State :=
  let held := s.lnd.forward.foldl (fun n f => n + f.2.2.length) 0
  if s.getB LND_CTL 4 = false ∨ 65536 < held + bs.length then (s.inc LND_FWD_DROP 1).evt LND_EVT 2
  else { s with lnd := { s.lnd with forward := s.lnd.forward ++ [(1 - stream, rx, bs)] } }

/-- A bundle that has passed the checks: policed, counted, and its items handed on, each cell by `cellIn`,
each verdict to the sink's queue (R348, R502, R508). -/
def bundleIn (cellIn : LndAddr → List Byte → State → State) (stream : Nat) (bs : List Byte) (s : State) : State :=
  let b := bs.drop 62
  let n := leAt b 7 1
  let kind := fld (leAt b 3 1) 0 2
  let cls := fld (leAt b 3 1) 2 3
  let items := if kind = 0 then piecesOf 128 n (b.drop 16) else []
  let from_ : LndAddr := { stream := stream, ip := leAt bs 22 16 }
  let recs := if kind = 1 then piecesOf 64 n (b.drop 16) else []
  let take := fun t => State.each (items.foldl (fun u c => cellIn from_ c u) (State.inc t LND_RX_FRAMES 1)) recs sinkVerdict
  match policerOf cls items with
  | none => take s
  | some k =>
    let key := 64 + 2 * stream + k
    if s.bucket key < bs.length * 1000 then (s.inc LND_POL_DROP 1).evt LND_EVT 1
    else take (takeTokens key bs.length s)

/-- A fall of LND_s_UP (R543). -/
def landingDown (stream : Nat) (s : State) : State :=
  if s.isTray = false ∨ 2 ≤ stream ∨ bit s.pins.lndUp stream = false then s
  else faultLine 37 false { s with pins := { s.pins with lndUp := clrBit s.pins.lndUp stream } }

end Sys2Proof.Machine
end

