-- ==== Sys2Proof/Machine/Ptp.lean ====
section
/-! DEFINITION. IEEE 1588 on Landing (R75, R76, R88, R544), and the stream's transmitter and receiver (R503, R504). The layout
of 1588 messages is PRESUMED from IEEE 1588-2019, which R75 names and does not repeat; the log lists it. -/

namespace Sys2Proof.Machine

/-! ### Messages -/

/-- A 1588 message taken apart. Times are in clock units, the correction in units of 2⁻¹⁶ ns. -/
structure PtpMsg where
  kind : Nat
  domain : Nat
  twoStep : Bool
  corr : Int
  source : List Byte
  seq : Nat
  time : Nat
  /-- Its time stamp has 10⁹ nanoseconds or more: the message is malformed where that time counts (R62). -/
  bad : Bool
  requester : List Byte
  deriving DecidableEq, Repr

/-- Message types. -/
def ptpSync : Nat := 0
/-- Delay_Req. -/
def ptpDelayReq : Nat := 1
/-- Follow_Up. -/
def ptpFollowUp : Nat := 8
/-- Delay_Resp. -/
def ptpDelayResp : Nat := 9
/-- Announce. -/
def ptpAnnounce : Nat := 11
/-- Management. -/
def ptpManagement : Nat := 13

/-- The bytes of a message from offset `o`, as a big-endian number. -/
def beAt (bs : List Byte) (o k : Nat) : Nat := beNat (slice bs o k)

/-- A message of at least 44 bytes (a header and a time stamp). -/
def ptpOf (bs : List Byte) : Option PtpMsg :=
  if bs.length < 44 then none
  else
    some { kind := beAt bs 0 1 % 16, domain := beAt bs 4 1, twoStep := bit (beAt bs 6 1) 1, corr := toInt 64 (beAt bs 8 8),
           source := slice bs 20 10, seq := beAt bs 30 2, time := beAt bs 34 6 * secU + nsU (beAt bs 40 4),
           bad := decide (1000000000 ≤ beAt bs 40 4),
           requester := slice bs 44 10 }

/-- The clock identity of the instance: its MAC address with FFFE in the middle, and the port's number. -/
def State.portId (s : State) (stream : Nat) : List Byte :=
  let m := leBytes 6 (s.rd LND_MAC)
  m.take 3 ++ [0xFF#8, 0xFE#8] ++ m.drop 3 ++ beBytes 2 (stream + 1)

/-- The control field of a message type. -/
def ptpControl (kind : Nat) : Nat :=
  if kind = ptpSync then 0 else if kind = ptpDelayReq then 1 else if kind = ptpFollowUp then 2 else if kind = ptpDelayResp then 3
  else if kind = ptpManagement then 4 else 5

/-- A time stamp field: whole seconds and nanoseconds. -/
def ptpStamp (t : Nat) : List Byte := beBytes 6 (t / secU) ++ beBytes 4 (t % secU / 2 ^ 32)

/-- What a stamp field cannot hold of a time, in units of 2⁻¹⁶ ns. -/
def ptpFraction (t : Nat) : Nat := t % 2 ^ 32 / 2 ^ 16

/-- A message: its header, then its body. -/
def ptpBytes (s : State) (stream kind seq : Nat) (corr : Int) (log : Nat) (body : List Byte) : List Byte :=
  beBytes 1 kind ++ [2#8] ++ beBytes 2 (34 + body.length) ++ beBytes 1 s.dat.role.domain ++ [0#8] ++ zeros 2 ++
    beBytes 8 (ofInt 64 corr) ++ zeros 4 ++ s.portId stream ++ beBytes 2 seq ++ beBytes 1 (ptpControl kind) ++ beBytes 1 log ++ body

/-- A log interval as its byte: minus `n`, two's complement. -/
def ptpLog (n : Nat) : Nat := ofInt 8 (-(n : Int))

/-! ### Frames of the 1588 port (R75) -/

/-- Whether a message type is an event message. -/
def ptpEvent (kind : Nat) : Bool := kind < 4

/-- Multicast MAC address of 1588 over layer 2, as a register would hold it. -/
def ptpMac : Nat := 0x00000000191B01

/-- A frame with a message: over layer 2, or over UDP to an address (R75). -/
def ptpFrame (s : State) (layer2 : Bool) (stream kind ip : Nat) (msg : List Byte) : List Byte :=
  if layer2 then leBytes 6 ptpMac ++ leBytes 6 (s.rd LND_MAC) ++ beBytes 2 0x88F7 ++ msg
  else
    let port := if ptpEvent kind then 319 else 320
    udpFrame (s.rd (LND_GW stream)) (s.rd LND_MAC) 0 s.ownIp ip port port msg

/-- Where a frame's 1588 message begins, if it carries one. -/
def ptpOffset (bs : List Byte) : Option Nat :=
  if beAt bs 12 2 = 0x88F7 then some 14
  else if beAt bs 12 2 = 0x86DD ∧ beAt bs 20 1 = 17 ∧ (beAt bs 56 2 = 319 ∨ beAt bs 56 2 = 320) then some 62
  else none

/-- Whether a frame's UDP checksum is correct; a frame of layer 2 has none. -/
def ptpSumOk (bs : List Byte) (off : Nat) : Bool := off == 14 || udpSum (slice bs 22 32) (bs.drop 54) == 65535

/-- Replace a frame's 1588 message, and correct its UDP checksum in the same pass (R75). -/
def ptpPut (bs : List Byte) (off : Nat) (msg : List Byte) : List Byte :=
  if off = 62 then
    let ips := slice bs 22 32
    let head := slice bs 54 6
    bs.take 60 ++ beBytes 2 (udpChecksum ips (head ++ zeros 2 ++ msg)) ++ msg
  else bs.take off ++ msg

/-- A message with a time put in: the stamp field, and its fraction added to the correction field. -/
def ptpStamped (msg : List Byte) (t : Nat) : List Byte :=
  msg.take 8 ++ beBytes 8 (ofInt 64 (toInt 64 (beAt msg 8 8) + (ptpFraction t : Nat))) ++ slice msg 16 18 ++ ptpStamp t ++ msg.drop 44

/-- A message with a residence time added to its correction field. -/
def ptpCorrected (msg : List Byte) (d : Int) : List Byte :=
  msg.take 8 ++ beBytes 8 (ofInt 64 (toInt 64 (beAt msg 8 8) + d)) ++ msg.drop 16

/-- Units of 1/64 ns in clock units. -/
def phyTime (n : Nat) : Nat := n * 2 ^ 26

/-- The transmit stamp of a frame whose first beat is taken now (R544). -/
def State.lndTxStamp (s : State) (edge : Nat) : Nat := clockAdd edge (phyTime s.pins.straps.phyTx : Nat)

/-- The receive stamp of a frame whose first beat is presented at `edge` (R544). -/
def State.lndRxStamp (s : State) (edge : Nat) : Nat := clockAdd edge (-(phyTime s.pins.straps.phyRx : Nat) : Int)

/-- The LND_CLK edge of an event at a stream interface in this DAT_CLK cycle: its phase, measured in steps of 50 ps, is a free value
below the 0.8 ns of the cycle (R544; log 130). -/
def State.lndEdge (s : State) : Nat × State :=
  let (v, s1) := s.draw
  (clockAdd s.now (v.toNat % 16 * (2 ^ 32 / 20) : Nat), s1)

/-- Queue a TIME frame (R504). -/
def queueTime (stream : Nat) (bs : List Byte) (s : State) : State := { s with lnd := { s.lnd with time := s.lnd.time ++ [(stream, bs)] } }

/-- A change of the 1588 port. -/
def modPtp (f : PtpSt → PtpSt) (s : State) : State := { s with dat := { s.dat with ptp := f s.dat.ptp } }

/-- Drop and count a message (R75). -/
def ptpDrop (s : State) : State := modPtp (fun p => { p with dropped := p.dropped + 1 }) s

/-! ### What the port sends (R75, R88) -/

/-- Whether the instance's Datum is locked to DAT_PPS_IN. -/
def State.ppsLocked (s : State) : Bool := s.datRef == 2 && s.datState == 2

/-- The body of an Announce: the grandmaster's class is 6 while locked to DAT_PPS_IN, 248 otherwise (R75). PRESUMED (log 46): a boundary
clock that is a slave names its own clock as grandmaster. -/
def announceBody (s : State) : List Byte :=
  zeros 10 ++ zeros 2 ++ zeros 1 ++ [128#8] ++ beBytes 1 (if s.ppsLocked then 6 else 248) ++ [0xFE#8] ++ beBytes 2 0xFFFF ++ [128#8] ++
    (s.portId 0).take 8 ++ zeros 2 ++ [0xA0#8]

/-- One Sync and one Announce for an address; a Sync takes its origin stamp as it leaves. -/
def syncTo (ip : Nat) (s : State) : State :=
  let r := s.dat.role
  let q := s.dat.ptp.seqSync
  let sync := ptpBytes s 0 ptpSync q 0 (ptpLog r.syncLog) (zeros 10)
  let ann := ptpBytes s 0 ptpAnnounce q 0 (ptpLog r.syncLog) (announceBody s)
  queueTime 0 (ptpFrame s r.layer2 0 ptpAnnounce ip ann) (queueTime 0 (ptpFrame s r.layer2 0 ptpSync ip sync) s)

/-- A master sends Sync at its interval, to each child tray that TIME_ROLE names, or once over layer 2 (R75, R88). -/
def ptpSyncSend (s : State) : State :=
  if s.isTray = false ∨ s.dat.role.role = 0 then s
  else
    let ips := if s.dat.role.layer2 then [0] else s.dat.role.children
    modPtp (fun p => { p with seqSync := (p.seqSync + 1) % 65536 }) (s.each ips (fun ip t => syncTo ip t))

/-- Queue a Delay_Req to an address; answers its sequence number. -/
def delayReqTo (layer2 : Bool) (ip : Nat) (s : State) : Nat × State :=
  let q := s.dat.ptp.seqDreq
  let m := ptpBytes s 0 ptpDelayReq q 0 0x7F (zeros 10)
  (q, modPtp (fun p => { p with seqDreq := (p.seqDreq + 1) % 65536 }) (queueTime 0 (ptpFrame s layer2 0 ptpDelayReq ip m) s))

/-- A slave sends a Delay_Req at its interval; `tx` is the Datum time of the edge at which its first beat is taken, and its
stamp is t3 (R75, R76). -/
def delayReqSend (tx : Nat) (s : State) : State :=
  if s.isTray = false ∨ s.dat.role.role ≠ 1 then s
  else
    let (q, s1) := delayReqTo s.dat.role.layer2 s.dat.role.master s
    modPtp (fun p => { p with ex := { p.ex with dreqSeq := some q, t3 := some (s.lndTxStamp tx) } }) s1

/-- An event frame leaves: a Sync takes its origin stamp; a probe's Delay_Req has its t3 (R76, R544). -/
def timeLeaves (stream : Nat) (bs : List Byte) (s : State) : State :=
  let (edge, sE) := s.lndEdge
  let t := s.lndTxStamp edge
  let s0 := sE.inc LND_TX_FRAMES 1
  match ptpOffset bs with
  | none => s0.emit (.frame stream false bs)
  | some off =>
    let msg := bs.drop off
    match ptpOf msg with
    | none => s0.emit (.frame stream false bs)
    | some m =>
      let out := if m.kind = ptpSync then ptpPut bs off (ptpStamped msg t) else bs
      let s1 := if m.kind = ptpDelayReq then
          modPtp (fun p => { p with runs := p.runs.map (fun r =>
            if r.ex.dreqSeq = some m.seq ∧ r.ex.t3 = none then { r with ex := { r.ex with t3 := some t } } else r) }) s0
        else s0
      s1.emit (.frame stream (ptpEvent m.kind) out)

/-! ### What the port receives (R75, R76) -/

/-- An exchange takes a Sync: its receive stamp, and its origin time unless a Follow_Up brings it. -/
def PtpEx.sync (e : PtpEx) (m : PtpMsg) (rx : Nat) : PtpEx :=
  if m.bad ∧ m.twoStep = false then e else
  { e with syncSeq := some m.seq, awaitFollow := m.twoStep, t1 := if m.twoStep then none else some m.time, t2 := some rx, cs := m.corr }

/-- An exchange takes the Follow_Up of its Sync. -/
def PtpEx.followUp (e : PtpEx) (m : PtpMsg) : PtpEx :=
  if e.awaitFollow ∧ e.syncSeq = some m.seq ∧ m.bad = false then { e with awaitFollow := false, t1 := some m.time, cs := e.cs + m.corr } else e

/-- The offset and the mean path delay that a Delay_Resp completes, without the configured asymmetry (R76). -/
def PtpEx.found (e : PtpEx) (m : PtpMsg) : Option (Int × Int) :=
  match e.t1, e.t2, e.t3 with
  | some t1, some t2, some t3 =>
    if e.dreqSeq = some m.seq ∧ m.bad = false then
      let up := timeDiff m.time t3 / 65536 - m.corr
      let down := timeDiff t2 t1 / 65536 - e.cs
      some (up - down, up + down)
    else none
  | _, _, _ => none

/-- The slave's measurement (R76): o = ((t4 − t3 − c_d) − (t2 − t1 − c_s)) / 2 + A / 2, and the mean path delay filtered. -/
def slaveMeasures (diff sum : Int) (s : State) : State :=
  let d := toInt 64 (s.rd DAT_MPD)
  let s1 := s.wr DAT_MPD (ofInt 64 (d + (sum / 2 - d) / 16))
  let s2 := modPtp (fun p => { p with ex := .blank }) s1
  if s2.datRef = 1 then measure ((diff + s2.dat.role.asym) / 2) s2 else s2

/-- The results of a probe (R88): means, then the least and the greatest offset, two words each. -/
def probeWords (found : List (Int × Int)) : List Word :=
  let n : Int := found.length
  let os := found.map (·.1)
  let mean := fun (xs : List Int) => if n = 0 then 0 else xs.foldl (· + ·) 0 / n
  let lo := os.tail.foldl min (os.headD 0)
  let hi := os.tail.foldl max (os.headD 0)
  ([mean os, mean (found.map (·.2)), lo, hi].map (ofInt 64)).flatMap (fun v => [w32 v, w32 (v / 2 ^ 32)])

/-- A probe has one more exchange, or its last (R88). -/
def probeFound (r : ProbeRun) (diff sum : Int) (s : State) : State :=
  let found := r.found ++ [(diff / 2, sum / 2)]
  let drop := modPtp (fun p => { p with runs := p.runs.filter (fun x => x.job != r.job) }) s
  if r.left ≤ 1 then finishJob r.job stOk (probeWords found) drop
  else
    let (q, s1) := delayReqTo false r.peer drop
    modPtp (fun p => { p with runs := p.runs ++
      [{ r with left := r.left - 1, found := found, ex := { PtpEx.blank with dreqSeq := some q } }] }) s1

/-- The reply to a Delay_Req, on the stream it came on (R75, R504). -/
def delayResp (stream : Nat) (layer2 : Bool) (ip : Nat) (m : PtpMsg) (rx : Nat) (s : State) : State :=
  let msg := ptpBytes s stream ptpDelayResp m.seq (m.corr - (ptpFraction rx : Nat)) (ptpLog s.dat.role.dreqLog) (ptpStamp rx ++ m.source)
  queueTime stream (ptpFrame s layer2 stream ptpDelayResp ip msg) s

/-- The answer to a management message (actions GET 0, SET 1, RESPONSE 2, COMMAND 3, ACKNOWLEDGE 4): NULL_PTP_MANAGEMENT, where a
COMMAND is acknowledged and a GET or SET has its RESPONSE, and GET of CURRENT_DATA_SET; any other is dropped and counted (R75).
stepsRemoved, which the spec does not give, is a free value; offsetFromMaster is this clock less the master's, minus DAT_OFFSET. -/
def managementIn (stream : Nat) (layer2 : Bool) (ip : Nat) (msg : List Byte) (m : PtpMsg) (s : State) : State :=
  let action := beAt msg 46 1 % 16
  let id := beAt msg 52 2
  let back := fun (act : Nat) (data : List Byte) (t : State) =>
    let body := m.source ++ slice msg 44 2 ++ beBytes 1 act ++ zeros 1 ++ beBytes 2 1 ++ beBytes 2 (2 + data.length) ++ beBytes 2 id ++ data
    queueTime stream (ptpFrame t layer2 stream ptpManagement ip (ptpBytes t stream ptpManagement m.seq 0 0x7F body)) t
  if msg.length < 54 ∨ action = 2 ∨ 3 < action then ptpDrop s
  else if id = 0 then back (if action = 3 then 4 else 2) [] s
  else if id = 0x2001 ∧ action = 0 then
    let (steps, s1) := s.draw
    back 2 (beBytes 2 (steps.toNat % 65536) ++ beBytes 8 (ofInt 64 (-(toInt 64 (s1.rd DAT_OFFSET)))) ++ beBytes 8 (s1.rd DAT_MPD)) s1
  else ptpDrop s

/-- Whether a message comes from the configured master (R75, R88): by its address, or over layer 2, where frames carry none, by its
clock identity, which has to be the low 64 bits of that address (DESIGN CHOICE, log 107). -/
def State.fromMaster (s : State) (layer2 : Bool) (ip : Nat) (m : PtpMsg) : Bool :=
  s.dat.role.role == 1 &&
    (if layer2 then m.source.take 8 == slice (leBytes 16 s.dat.role.master) 8 8 else ip == s.dat.role.master)

/-- A message of the configured domain, from an address, with its receive stamp (R75, R76). -/
def ptpMessage (stream : Nat) (layer2 : Bool) (ip : Nat) (msg : List Byte) (m : PtpMsg) (rx : Nat) (s : State) : State :=
  let master := s.fromMaster layer2 ip m
  let each := fun (f : PtpEx → PtpEx) (t : State) => modPtp (fun p =>
    { p with ex := if master then f p.ex else p.ex,
             runs := p.runs.map (fun r => if !layer2 && r.peer == ip then { r with ex := f r.ex } else r) }) t
  if m.kind = ptpSync then each (fun e => e.sync m rx) s
  else if m.kind = ptpFollowUp then each (fun e => e.followUp m) s
  else if m.kind = ptpDelayReq then delayResp stream layer2 ip m rx s
  else if m.kind = ptpDelayResp then
    if m.requester ≠ s.portId 0 then s
    else
      let s1 := s.each (s.dat.ptp.runs.filter (fun r => !layer2 && r.peer == ip)) (fun r t =>
        match r.ex.found m with
        | some (d, u) => probeFound r d u t
        | none => t)
      match master, s.dat.ptp.ex.found m with
      | true, some (d, u) => slaveMeasures d u s1
      | _, _ => s1
  else if m.kind = ptpAnnounce then (if s.dat.role.role = 1 ∧ master = false then ptpDrop s else s)
  else if m.kind = ptpManagement then managementIn stream layer2 ip msg m s
  else ptpDrop s

/-- A 1588 frame addressed to the instance, with its receive stamp: the checks of domain, checksum and form first (R75). -/
def ptpIn (stream off : Nat) (bs : List Byte) (rx : Nat) (s : State) : State :=
  match ptpOf (bs.drop off) with
  | none => ptpDrop s
  | some m =>
    if ptpSumOk bs off = false ∨ m.domain ≠ s.dat.role.domain then ptpDrop s
    else ptpMessage stream (off == 14) (leAt bs 22 16) (bs.drop off) m rx s

/-- PTP_RECEIVE: a frame with a 1588 message, `stamp` being the Datum time at which its first beat is presented less what
it spent beyond the PHY (R75, R544). One for another MAC is forwarded (R503). -/
def ptpReceive (stream : Nat) (bs : List Byte) (stamp : Nat) (s : State) : State :=
  if s.isTray = false ∨ s.streamOn stream = false then s
  else if leAt bs 0 6 ≠ s.rd LND_MAC ∧ leAt bs 0 6 ≠ ptpMac then forwardFrame stream bs (s.lndRxStamp stamp) s
  else
    match ptpOffset bs with
    | none => rxBad s
    | some off => ptpIn stream off bs (s.lndRxStamp stamp) s

/-! ### The stream's transmitter and receiver (R503, R504) -/

/-- A forwarded frame leaves; the residence of a PTP event message is added to its correction field (R75, R503). -/
def forwardLeaves (stream rx : Nat) (bs : List Byte) (s : State) : State :=
  let (edge, sE) := s.lndEdge
  let s0 := sE.inc LND_TX_FRAMES 1
  match ptpOffset bs with
  | none => s0.emit (.frame stream false bs)
  | some off =>
    let msg := bs.drop off
    if ptpEvent (beAt msg 0 1 % 16) ∧ 34 ≤ msg.length then
      s0.emit (.frame stream true (ptpPut bs off (ptpCorrected msg (timeDiff (s.lndTxStamp edge) rx / 65536))))
    else s0.emit (.frame stream false bs)

/-- FRAME_TRANSMIT: at a frame boundary the stream sends the first that is ready (R504). -/
def frameTransmit (stream : Nat) (s : State) : State :=
  if s.isTray = false ∨ s.streamOn stream = false then s
  else
    let s0 := lndIdle stream (lndSwapDue (cycleOf s.now) s)
    match s0.lnd.time.find? (fun e => e.1 == stream) with
    | some e => timeLeaves stream e.2 { s0 with lnd := { s0.lnd with time := s0.lnd.time.erase e } }
    | none =>
      match s0.lnd.forward.find? (fun e => e.1 == stream) with
      | some e => forwardLeaves stream e.2.1 e.2.2 { s0 with lnd := { s0.lnd with forward := s0.lnd.forward.erase e } }
      | none =>
        match s0.lndNext stream with
        | some f => lndSend f s0
        | none => s0

/-- The receive stamp of a frame whose first beat is presented in this cycle, `age` being its RX_AGE (R544). -/
def State.rxEdge (s : State) (age : Nat) : Nat × State :=
  let (edge, s1) := s.lndEdge
  (clockAdd (s.lndRxStamp edge) (-(phyTime age : Nat) : Int), s1)

/-- FRAME_RECEIVE: another's frame is forwarded, a 1588 message goes to its port, a bundle that passes every check is
policed and its items are handed on (R503, R508). `age` is RX_AGE; one that failed its FCS is discarded (R543, R544). -/
def frameReceive (cellIn : LndAddr → List Byte → State → State) (stream : Nat) (bs : List Byte) (age : Nat) (err : Bool) (s : State) :
    State :=
  if s.isTray = false ∨ s.streamOn stream = false then s
  else if err then rxBad s
  else if leAt bs 0 6 ≠ s.rd LND_MAC then forwardFrame stream bs (s.rxEdge age).1 (s.rxEdge age).2
  else
    match ptpOffset bs with
    | some off => ptpIn stream off bs (s.rxEdge age).1 (s.rxEdge age).2
    | none => if bundleOk s bs then bundleIn cellIn stream bs s else rxBad s

/-! ### TIME_PROBE (R88) -/

/-- TIME_PROBE: measure-only exchanges with a peer; a count of 0 acts on nothing (R88). DEDUCED (log 52): the Sync of an exchange is the
next one that the peer sends. -/
def timeProbeCmd (c : Cmd) (s : State) : Ans × State :=
  let n := c.w 6
  if 64 < n then ans stBadParam s
  else if n = 0 then ansWith (List.replicate 8 0#32) s
  else
    let (q, s1) := delayReqTo false (c.ip 2) s
    let run : ProbeRun := { job := s.pil.nextJob, peer := c.ip 2, left := n, ex := { PtpEx.blank with dreqSeq := some q }, found := [] }
    (.started .running .plain, modPtp (fun p => { p with runs := p.runs ++ [run] }) s1)

/-- A probe whose exchanges have not all completed by its deadline ends with TIMEOUT (R412). -/
def timeProbeDone (id : Nat) (s : State) : State :=
  finishJob id stTimeout [] (modPtp (fun p => { p with runs := p.runs.filter (fun r => r.job != id) }) s)

end Sys2Proof.Machine
end

