-- ==== Sys2Proof/Machine/UnitCmds.lean ====
section
/-! DEFINITION. Commands of Wake, of the fault collector, of the Logbook and of Plumb (R381, R458, R481). -/

namespace Sys2Proof.Machine

/-! ### Wake (R379 to R381) -/

/-- WAKE_CFG. -/
def wakeCfg (c : Cmd) (s : State) : Ans × State :=
  let ps := witPairs c.params
  let bad := ps.filterMap (fun p => wakPairBad s.build p.1 p.2)
  if s.wakArmed then ans stBadParam s
  else if bad.contains stBadLen then ans stBadLen s
  else if bad ≠ [] then ans stBadParam s
  else ans stOk (s.each ps (fun p t => wakPut1 p.1 p.2 t))

/-- WAKE_ARM. -/
def wakeArm (c : Cmd) (s : State) : Ans × State :=
  if s.fenced .wake || s.quiesced .wake then ans stFenced s
  else if s.wakArmed = true ∨ s.dstSize = 0 then ans stBadParam s
  else
    let (n, s1) := wakArm (bit (c.w 2) 0) s
    ansWith [w32 n] s1

/-- WAKE_DISARM: the final reply follows the flush. -/
def wakeDisarm (_c : Cmd) (s : State) : Ans × State :=
  let s1 := wakDisarm s
  if s1.wak.flushing then (.started .running .plain, s1) else ansWith [w32 s1.wak.lost] s1

/-- A running WAKE_DISARM is done once the flush has ended. -/
def wakeDisarmDone (id : Nat) (s : State) : State := if s.wak.flushing then s else finishJob id stOk [w32 s.wak.lost] s

/-- WAKE_TRIG. -/
def wakeTrig (c : Cmd) (s : State) : Ans × State :=
  let code := c.f 2 0 8
  if s.wakArmed = false then ans stAbsent s
  else ans stOk (wakEvents [.host code] (wakWrite 4 3 (leBytes 4 code) s))

/-- WAKE_SECURE. -/
def wakeSecure (c : Cmd) (s : State) : Ans × State :=
  let v := c.w 2
  if fld v 8 24 ≠ 0 ∨ bit v 3 = true ∨ bit v 7 = true ∨ 4 < fld v 0 3 ∨ 4 < fld v 4 3 then ans stBadParam s
  else ans stOk (s.wr WAK_SEC v)

/-- A command that has queued `k` BULK messages completes once the last of them is sent (R381, R481), at once where there are none. -/
def bulkJob (c : Cmd) (k : Nat) (s : State) : Ans × State :=
  if k = 0 then finished c stOk [0#32] s
  else (.started .running (.nums [(s.chain 0).bulkDone + bulkWaiting (s.chain 0), k]), s)

/-- Its final reply falls due once as many messages have left the queue as had then been put into it. -/
def bulkJobDone (id : Nat) (s : State) : State :=
  match s.job? id with
  | none => s
  | some j =>
    match j.data with
    | .nums [t, k] => if t ≤ (s.chain 0).bulkDone then finishJob id stOk [w32 k] s else s
    | _ => s

/-- WAKE_SEND. -/
def wakeSend (c : Cmd) (s : State) : Ans × State :=
  let first := c.w64 2
  let n := c.w 4
  let top := s.rd WAK_DST_WR
  if n % 4 ≠ 0 ∨ 16777216 < n ∨ (n ≠ 0 ∧ (first + s.dstSize < top ∨ top < first + n)) then ans stBadParam s
  else
    match wakSend first n s with
    | (none, s1) => ans stTimeout s1
    | (some k, s1) => bulkJob c k s1

/-! ### The fault collector (R449, R453, R454, R458) -/

/-- The source whose configuration a pair writes. -/
def fltPairSource (off : Nat) : Option Nat := if 0x100 ≤ off then some ((off - 0x100) / 16) else none

/-- FLT_SET. -/
def fltSet (c : Cmd) (s : State) : Ans × State :=
  let ps := witPairs c.params
  if ps.any (fun p => fltPairBad s.build p.1 p.2) then ans stBadParam s
  else if ps.any (fun p => (fltPairSource p.1).any (fun n => s.fltState n != 0)) then ans stBusyContext s
  else ans stOk (s.each ps (fun p t => fltPut p.1 p.2 t))

/-- FLT_CLEAR. -/
def fltClearCmd (c : Cmd) (s : State) : Ans × State :=
  let (yes, no, s1) := fltClear c.authority (c.w64 2) s
  ansWith [w32 yes, w32 (yes / 2 ^ 32), w32 no, w32 (no / 2 ^ 32)] s1

/-- FLT_INJECT. -/
def fltInject (c : Cmd) (s : State) : Ans × State :=
  let target := c.f 2 0 8
  let bits := c.f 2 8 2
  let dur := c.f 5 0 16
  if s.getB FLT_CTL 0 = false then ans stNoAuth s
  else if injectBad s target bits dur then ans stBadParam s
  else ans stOk (inject target bits (bit (c.w 2) 16) (c.f 2 24 8) (c.w64 3) dur s)

/-- FLT_DEBUG. -/
def fltDebug (c : Cmd) (s : State) : Ans × State := ans stOk (s.putB FLT_CTL 0 (bit (c.w 2) 0))

/-! ### The Logbook (R476, R480, R481) -/

/-- LOG_CLEAR. -/
def logClearCmd (c : Cmd) (s : State) : Ans × State := if 8 ≤ c.w 2 then ans stBadParam s else ans stOk (logClear (c.w 2) s)

/-- LOG_HIST_SET. -/
def logHistSet (c : Cmd) (s : State) : Ans × State :=
  let first := c.f 2 0 6
  let n := c.f 2 16 7
  let defs := (List.range n).map (fun i => (first + i, c.w (3 + 2 * i), c.w (4 + 2 * i)))
  if 64 < first + n ∨ 64 < n ∨ defs.any (fun d => histBad (fld d.2.1 0 2) (fld d.2.1 8 8)) = true then ans stBadParam s
  else ans stOk (s.each defs (fun d t => histSet d.1 d.2.1 d.2.2 t))

/-- LOG_FLUSH. -/
def logFlush (_c : Cmd) (s : State) : Ans × State := ans stOk (writeAccum s)

/-- LOG_SEND. -/
def logSendCmd (c : Cmd) (s : State) : Ans × State :=
  let first := c.f 2 0 15
  let n := c.f 3 0 16
  if 32768 < first + n then ans stBadParam s else bulkJob c (ceilDiv n 1024) (logSend first n s)

/-! ### Plumb (R462, R463, R481, R537) -/

/-- PLM_SET: its pairs take effect at the next rule tick. -/
def plmSet (c : Cmd) (s : State) : Ans × State :=
  let ps := witPairs c.params
  if ps.any (fun p => plmPairBad p.1 p.2) then ans stBadParam s
  else ans stOk { s with plm := { s.plm with staged := s.plm.staged ++ ps } }

/-- POWER_SET: the final reply follows the transition. -/
def powerSet (c : Cmd) (s : State) : Ans × State :=
  let t := c.f 2 0 2
  if t = 3 then ans stBadParam s
  else if t ≠ 2 ∧ s.bondFail = true then ans stFenced s
  else if t = 2 ∧ s.isTray = true ∧ s.anyCtx = true then ans stBusyContext s
  else
    let s1 := powerRequest t s
    if s1.plm.goal.isNone then finished c stOk [w32 s1.powerState] s1 else (.started .running .plain, s1)

/-- A POWER_SET whose request a later one replaced is done once no transition is under way (R462). -/
def powerSetDone (id : Nat) (s : State) : State := if s.plm.goal.isSome then s else finishJob id stOk [w32 s.powerState] s

/-! ### Rows of the opcode table -/

/-- WAKE_CFG. -/
def opWakeCfg : OpInfo := ⟨0x50, 2, .both, true, false, lenEven⟩
/-- WAKE_ARM. -/
def opWakeArm : OpInfo := ⟨0x51, 1, .both, true, false, lenIs 3⟩
/-- WAKE_DISARM. -/
def opWakeDisarm : OpInfo := ⟨0x52, 1, .both, true, true, lenIs 2⟩
/-- WAKE_TRIG. -/
def opWakeTrig : OpInfo := ⟨0x53, 1, .both, true, false, lenIs 3⟩
/-- WAKE_SECURE. -/
def opWakeSecure : OpInfo := ⟨0x54, 3, .both, true, false, lenIs 3⟩
/-- WAKE_SEND. -/
def opWakeSend : OpInfo := ⟨0x55, 1, .leafOnly, true, true, lenIs 5⟩
/-- FLT_SET. -/
def opFltSet : OpInfo := ⟨0x90, 2, .both, false, false, lenEven⟩
/-- FLT_CLEAR. -/
def opFltClear : OpInfo := ⟨0x91, 1, .both, false, false, lenIs 4⟩
/-- FLT_INJECT. -/
def opFltInject : OpInfo := ⟨0x92, 2, .both, false, false, lenIs 6⟩
/-- FLT_DEBUG. -/
def opFltDebug : OpInfo := ⟨0x93, 3, .both, false, false, lenIs 3⟩
/-- LOG_CLEAR. -/
def opLogClear : OpInfo := ⟨0xA0, 3, .both, false, false, lenIs 3⟩
/-- LOG_HIST_SET. -/
def opLogHistSet : OpInfo := ⟨0xA1, 3, .both, false, false, lenCount 2 (fun ps => fld (wAt ps 0) 16 7) 0 64 (fun n => 3 + 2 * n)⟩
/-- LOG_FLUSH. -/
def opLogFlush : OpInfo := ⟨0xA2, 1, .both, false, false, lenIs 2⟩
/-- LOG_SEND. -/
def opLogSend : OpInfo := ⟨0xA3, 1, .leafOnly, false, true, lenIs 4⟩
/-- PLM_SET. -/
def opPlmSet : OpInfo := ⟨0xA4, 2, .both, false, false, lenEven⟩
/-- POWER_SET. -/
def opPowerSet : OpInfo := ⟨0xA5, 1, .both, false, true, lenIs 3⟩

end Sys2Proof.Machine
end

