-- ==== Sys2Proof/Machine/PilotOps.lean ====
section
/-! DEFINITION. Every opcode with its command (R425), the last few commands, and a command as it is taken from its words
(R408). -/

namespace Sys2Proof.Machine

/-! ### STATION_SET, MARK, TIME_SET (R21, R78, R87) -/

/-- Whether a tray build or a leaf may hold a station number (R18, R21). -/
def stationFits (b : Build) (st : Nat) : Bool :=
  stNames st && (match b with
    | .tray => stPos st == 0 && stChain st == 0
    | .leaf => decide (1 ≤ stPos st) && decide (stPos st ≤ 16))

/-- STATION_SET (R21). -/
def stationSet (c : Cmd) (s : State) : Ans × State :=
  let st := c.f 2 0 20
  if stationFits s.build st = false ∨ s.chainList.any (fun ch => s.getB (CHN_STATUS ch) 13) = true ∨ s.anyCtx = true then
    ans stBadParam s
  else ans stOk (s.wr CHN_STATION (2 ^ 31 + st))

/-- MARK (R87, R88, R379): the stamp, with SOFT set; a Logbook event and a Wake packet where they are asked for. -/
def markCmd (c : Cmd) (s : State) : Ans × State :=
  let t := s.now
  let s1 := if bit (c.w 3) 0 then logEvent 0x50 (leBytes 4 (c.w 2) ++ timeBytes t) s else s
  let s2 := if bit (c.w 3) 1 then wakMark (c.w 2) (timeBytes t) s1 else s1
  ansWith (timeWords t ++ [1#32]) s2

/-- TIME_SET (R78), which a held reduction context refuses. -/
def timeSet (c : Cmd) (s : State) : Ans × State := timeSetCmd s.anyCtx c s

/-! ### Opcodes (R425) -/

/-- The command an opcode names, and what it does once checks 1 to 5 are passed. -/
def pilotOp (code : Nat) (c : Cmd) : Option (OpInfo × (Cmd → State → Ans × State)) :=
  if code = 0x00 then some (opNop, nopCmd)
  else if code = 0x01 then some (opEcho, echoCmd)
  else if code = 0x02 then some (opIdent, identCmd)
  else if code = 0x03 then some (opPwrSet, pwrSet)
  else if code = 0x04 then some (opKeySet, keySet)
  else if code = 0x05 then some (opPilSet, pilSet)
  else if code = 0x10 then some (opParcelDefine, parcelDefine)
  else if code = 0x11 then some (opParcelReserve, parcelReserve)
  else if code = 0x12 then some (opParcelCommit, parcelCommit)
  else if code = 0x13 then some (opParcelRelease, parcelRelease)
  else if code = 0x14 then some (opParcelFree, parcelFree)
  else if code = 0x15 then some (opParcelCfg, parcelCfg)
  else if code = 0x16 then some (opVerdictSet, verdictSet)
  else if code = 0x17 then some (opVerdictRead, verdictReadCmd)
  else if code = 0x18 then some (opEpochRead, epochRead)
  else if code = 0x19 then some (opDeadlineSet, deadlineSet)
  else if code = 0x1A then some (opStrictSet, strictSet)
  else if code = 0x1B then some (opAbsentDeclare, absentDeclare)
  else if code = 0x1C then some (opClosurePull, closurePull)
  else if code = 0x1D then some (opVoteRaise, voteRaise)
  else if code = 0x1E then some (opTallySet, tallySet)
  else if code = 0x1F then some (opVerdictSink, verdictSink)
  else if code = 0x20 then some (opProbeSet, probeSet)
  else if code = 0x21 then some (opTapMap, tapMap)
  else if code = 0x22 then some (opTapClear, tapClear)
  else if code = 0x23 then some (opTrkSet, trkSet)
  else if code = 0x24 then some (opInputSet, inputSet)
  else if code = 0x30 then some (opPlatLoad, platLoad)
  else if code = 0x31 then some (opPlatUnload, platUnload)
  else if code = 0x32 then some (opPlatKey, platKeyCmd)
  else if code = 0x33 then some (opCadSet, cadSet)
  else if code = 0x34 then some (opScoreRead, scoreRead)
  else if code = 0x35 then some (opScoreRow, scoreRow)
  else if code = 0x40 then some (opSubspaceLoad, subLoad)
  else if code = 0x41 then some (opSubspaceUnload, subUnload)
  else if code = 0x42 then some (opTrnRun, trnRun)
  else if code = 0x43 then some (opTrnSet, trnSet)
  else if code = 0x44 then some (opTrnUnfence, trnUnfence)
  else if code = 0x45 then some (opTrnRead, trnRead)
  else if code = 0x50 then some (opWakeCfg, wakeCfg)
  else if code = 0x51 then some (opWakeArm, wakeArm)
  else if code = 0x52 then some (opWakeDisarm, wakeDisarm)
  else if code = 0x53 then some (opWakeTrig, wakeTrig)
  else if code = 0x54 then some (opWakeSecure, wakeSecure)
  else if code = 0x55 then some (opWakeSend, wakeSend)
  else if code = 0x60 then some (opWitSet, witSet)
  else if code = 0x61 then some (opPackLoad, packLoad)
  else if code = 0x62 then some (opPackDrop, packDrop)
  else if code = 0x63 then some (opWitKey, witKeyCmd)
  else if code = 0x64 then some (opEngineReport, engineReport)
  else if code = 0x65 then some (opTestNow, testNow)
  else if code = 0x66 then some (opSelfNow, selfNow)
  else if code = 0x70 then some (opMark, markCmd)
  else if code = 0x71 then some (opPulseSet, pulseSet)
  else if code = 0x72 then some (opTimeSet, timeSet)
  else if code = 0x73 then some (opServoSet, servoSet)
  else if code = 0x74 then some (opTimeRole, timeRoleCmd)
  else if code = 0x75 then some (opTimeProbe, timeProbeCmd)
  else if code = 0x80 then some (opRulingIssue c, rulingIssue)
  else if code = 0x81 then some (opStopAt, stopAt)
  else if code = 0x82 then some (opStopDisarm, stopDisarm)
  else if code = 0x90 then some (opFltSet, fltSet)
  else if code = 0x91 then some (opFltClear, fltClearCmd)
  else if code = 0x92 then some (opFltInject, fltInject)
  else if code = 0x93 then some (opFltDebug, fltDebug)
  else if code = 0xA0 then some (opLogClear, logClearCmd)
  else if code = 0xA1 then some (opLogHistSet, logHistSet)
  else if code = 0xA2 then some (opLogFlush, logFlush)
  else if code = 0xA3 then some (opLogSend, logSendCmd)
  else if code = 0xA4 then some (opPlmSet, plmSet)
  else if code = 0xA5 then some (opPowerSet, powerSet)
  else if code = 0xB0 then some (opStowJob, stowJob)
  else if code = 0xB1 then some (opBerthSet, berthSetCmd)
  else if code = 0xB2 then some (opLndSet, lndSetCmd)
  else if code = 0xB3 then some (opTreeSet, treeSetCmd)
  else if code = 0xB4 then some (opLndGateLoad, lndGateLoadCmd)
  else if code = 0xB5 then some (opLndGateSwap, lndGateSwapCmd)
  else if code = 0xC0 then some (opStationSet, stationSet)
  else if code = 0xC1 then some (opChainSet, chainSet)
  else if code = 0xC2 then some (opSplice, spliceCmd)
  else if code = 0xC3 then some (opSpliceReq, spliceReqCmd)
  else if code = 0xC4 then some (opTmtLoad, tmtLoadCmd)
  else if code = 0xC5 then some (opTmtSwap, tmtSwapCmd)
  else if code = 0xC6 then some (opLaneUnfence, laneUnfence)
  else if code = 0xF0 then some (opFwPatch, fwPatch)
  else if code = 0xF1 then some (opFwKey, fwKeyCmd)
  else if code = 0xF2 then some (opFwRevert, fwRevert)
  else none

/-- An opcode that names no command of the build (R409, check 1). -/
def opUnknown (b : Build) (code : Nat) : OpInfo :=
  ⟨code, 0, (match b with | .tray => .leafOnly | .leaf => .trayOnly), false, false, fun _ _ => false⟩

/-- A command under an opcode, as it is launched (R409). -/
def runOpcode (code : Nat) (c : Cmd) (s : State) : State :=
  match pilotOp code c with
  | some (o, own) => runCmd o own c s
  | none => runCmd (opUnknown s.build code) (fun _ t => ans stBadOpcode t) c s

/-- A command under an opcode starts (R409). -/
def startOpcode (code : Nat) (c : Cmd) (s : State) : State :=
  match pilotOp code c with
  | some (o, own) => started o own c s
  | none => started (opUnknown s.build code) (fun _ t => ans stBadOpcode t) c s

/-- What a launched command does as it starts. -/
def Launch.start : Launch → State → State
  | .cmd code c => startOpcode code c
  | .part p => partTake p
  | .ask e tag via parcel level trays => claimAsk e tag via parcel level trays

/-- Pilot starts the next launched command once no other is in its Pilot phase, in the order of their launch (R411). -/
def pilotNext (s : State) : State :=
  if s.pilotHeld then s
  else
    match s.pil.launchQ with
    | [] => s
    | x :: xs => pilotFree (x.start { s with pil := { s.pil with launchQ := xs } })

/-- The opcode of a command's words (R408). -/
def wordsOpcode (ws : List Word) : Nat := fld (wAt ws 0) 0 8

/-- A command taken apart (R408), launched by `src` with `written` words counted. Words beyond LENGTH are not its own;
words that are missing hold zero (R406). -/
def cmdOf (src : Src) (level written : Nat) (ws : List Word) : Cmd :=
  let w0 := wAt ws 0
  let w1 := wAt ws 1
  let len := fld w0 16 16
  { src := src, level := level, asyncOk := bit w0 8, isSigned := bit w0 9, strictOnly := bit w0 10, rsv0 := fld w0 11 5,
    length := len, tag := fld w1 0 16, parcel := fld w1 16 12, rsv1 := fld w1 28 4,
    params := (List.range (min len 1024 - 2)).map (fun i => ws.getD (i + 2) 0#32), written := written }

end Sys2Proof.Machine
end

