-- ==== Sys2Proof/Machine/Envelope.lean ====
section
/-! DEFINITION. Envelopes that arrive (R417 to R423): commands for this station, commands relayed to a leaf, and replies. -/

namespace Sys2Proof.Machine

/-! ### Layout (R418) -/

/-- An envelope taken apart. `body` is what its tag covers. -/
structure Envelope where
  station : Nat
  reply : Bool
  keyId : Nat
  origin : Nat
  time : Option Nat
  words : List Word
  body : List Byte
  tag : List Byte
  deriving DecidableEq, Repr

/-- An envelope from its bytes: none where its length is not that of the words it carries. -/
def envelopeOf (bs : List Byte) : Option Envelope :=
  let n := (bs.length - 40) / 4
  let ws := bytesWords (slice bs 24 (4 * n))
  if bs.length < 48 ∨ 4136 < bs.length ∨ bs.length ≠ 40 + 4 * fld (wAt ws 0) 16 16 then none
  else
    some { station := leAt bs 0 3 % 2 ^ 20, reply := bit (leAt bs 3 1) 0, keyId := leAt bs 4 2, origin := leAt bs 8 4,
           time := decTime (leAt bs 12 12), words := ws, body := bs.take (24 + 4 * n), tag := bs.drop (24 + 4 * n) }

/-- Count an envelope discarded by the relay (R422). -/
def relayDrop (s : State) : State := s.inc PIL_RELAY_DROP 1

/-! ### A command for this station (R419) -/

/-- The block's answer NO_SPACE to an envelope it cannot launch (R419). -/
def envNoSpace (via : Via) (e : Envelope) (s : State) : State :=
  replyRemote e.keyId e.origin via (replyHead stNoSpace false (wordsOpcode e.words) (fld (wAt e.words 1) 0 16) 0) s

/-- The fields of an envelope beside its words. -/
def Envelope.seal (e : Envelope) : EnvSeal := { keyId := e.keyId, origin := e.origin, time := e.time, mac := e.tag }

/-- A command envelope addressed to this station, in the six steps of R419. -/
def envTake (via : Via) (e : Envelope) (s : State) : State :=
  envAdmit e.seal e.body (envNoSpace via e) (fun k t =>
    runOpcode (wordsOpcode e.words) (cmdOf (.remote e.keyId e.origin via) (t.getF (PIL_KEY_ID k) 28 2) e.words.length e.words) t) s

/-! ### Relaying (R422) -/

/-- Put the relay table, and its count in PIL_RELAY. -/
def putRelay (t : Tbl RelayEnt) (s : State) : State := ({ s with pil := { s.pil with relay := t } } : State).wr PIL_RELAY t.length

/-- A tray build relays a command envelope to a leaf of its chains (R422). -/
def envRelay (via : Via) (bs : List Byte) (e : Envelope) (s : State) : State :=
  if stTray e.station ≠ stTray s.station ∨ stNames e.station = false ∨ stPos e.station = 0 then relayDrop s
  else
    match Tbl.lowestFree s.pil.relay 64 with
    | none => relayDrop s
    | some i =>
      let x : RelayEnt := { station := e.station, origin := e.origin, tag := fld (wAt e.words 1) 0 16, source := via, held := false }
      sendEnvelope (.chain (stChain e.station)) false e.station bs (putRelay (Tbl.set s.pil.relay i x) s)

/-- The 60 s of a relay entry held after an ACCEPTED reply end (R422). -/
def relayTimeout (i : Nat) (s : State) : State :=
  if (Tbl.get? s.pil.relay i).any (·.held) then putRelay (Tbl.erase s.pil.relay i) s else s

/-! ### Replies (R421 to R423) -/

/-- What the final reply to a command the block issued brings about. -/
def issuedAnswered (x : Issued) (ws : List Word) (s : State) : State :=
  let status := fld (wAt ws 0) 0 8
  match x.purpose with
  | .reserve parcel child =>
    partAnswer parcel child (if 5 ≤ ws.length then (wAt ws 2, wAt ws 3, wAt ws 4) else (child, status, 0)) s
  | .pull parcel child _ => if status = stAbsent then pullAbsent parcel child s else s
  | _ => s

/-- The entry a leaf's reply matches (R422). -/
def State.relayFor (s : State) (e : Envelope) : Option (Nat × RelayEnt) :=
  s.pil.relay.find? (fun x => x.2.station == e.station && x.2.origin == e.origin && x.2.tag == fld (wAt e.words 1) 0 16)

/-- A reply to a command of the block's own is accepted where its tag matches; an ACCEPTED reply leaves the final one to
come (R421). -/
def replyTake (x : Issued) (e : Envelope) (s : State) : State :=
  replyCheck e.keyId e.body e.tag (fun t =>
    if fld (wAt e.words 0) 0 8 = stAccepted then t else issuedAnswered x e.words (issuedDone x t)) s

/-- A reply envelope (R421, R422): one for this node, or a leaf's that goes back to where its command came from. -/
def envReply (bs : List Byte) (e : Envelope) (s : State) : State :=
  match s.issuedFor e.origin (fld (wAt e.words 1) 0 16) (fld (wAt e.words 1) 16 8) e.station with
  | some x => replyTake x e s
  | none =>
    match s.relayFor e with
    | none => authFail s
    | some (i, x) =>
      let t := if fld (wAt e.words 0) 0 8 = stAccepted then Tbl.set s.pil.relay i { x with held := true } else Tbl.erase s.pil.relay i
      sendEnvelope x.source true (stOrigin e.origin) bs (putRelay t s)

/-! ### Every envelope -/

/-- An envelope that has arrived whole, by the way `via`: its length is checked first, then it goes where its STATION and its
REPLY flag say (R418 to R422). Pilot handles none before it has booted (R545). -/
def envelopeIn (via : Via) (bs : List Byte) (s : State) : State :=
  if s.pil.booted = false then s
  else
    match envelopeOf bs with
    | none => authFail s
    | some e =>
      if e.reply then envReply bs e s
      else if s.stationValid = true ∧ e.station = s.station then envTake via e s
      else if s.isTray then envRelay via bs e s
      else s

end Sys2Proof.Machine
end

