-- ==== Sys2Proof/Machine/RegFind.lean ====
section
/-! DEFINITION. Which register an offset names (R10, R549), and the registers a reset loses (R515). -/

namespace Sys2Proof.Machine

/-- The indices at which an array of registers reaches a distance from its first one. Outer dimensions come first. -/
def dimsAt : List (Nat × Nat × Nat) → Nat → Option (List Nat)
  | [], r => if r = 0 then some [] else none
  | (st, f, n) :: ds, r =>
    let q := min (r / st) (n - 1)
    (dimsAt ds (r - q * st)).map (fun ix => (f + q) :: ix)

/-- A register found at an offset: its row, its indices, and whether the offset is that of its high half. -/
structure RegHit where
  row : RegRow
  ix : List Nat
  high : Bool

/-- The location of a register found. -/
def RegHit.at (h : RegHit) : Loc := h.row.loc h.ix

/-- A row's register at an offset. -/
def RegRow.hit (r : RegRow) (off : Nat) : Option RegHit :=
  if off < r.base then none
  else
    match dimsAt r.dims (off - r.base) with
    | some ix => some { row := r, ix := ix, high := false }
    | none =>
      if r.wide ∧ r.base + 4 ≤ off then
        (dimsAt r.dims (off - r.base - 4)).map (fun ix => { row := r, ix := ix, high := true })
      else none

/-- The register at an offset. -/
def regAt (off : Nat) : Option RegHit := regRows.findSome? (fun r => r.hit off)

/-- The reset that governs the register at an offset; offsets that name none are the power-on reset's. -/
def domAt (off : Nat) : Dom := ((regAt off).map (fun h => h.row.dom)).getD .por

/-- Put every register of a reset domain back to its value after reset, except those of rows with a given base
offset (R13, R515). -/
def resetRegs (d : Dom) (kept : List Nat) (s : State) : State :=
  { s with regs := s.regs.filter (fun e =>
      match regAt e.1 with
      | none => true
      | some h => h.row.dom != d || kept.contains h.row.base) }

end Sys2Proof.Machine
end

