-- ==== Sys2Proof/Machine/Power.lean ====
section
/-! DEFINITION. Power states and resets (R43, R447, R452, R462 to R467, R515 to R521, R535 to R537, R545, R555): entries into
DOZE and SLEEP, returns to ACTIVE, the three resets, Pilot's boot. -/

namespace Sys2Proof.Machine

/-! ### What leaves with the compute tier (R55, R241, R293, R331, R376, R447, R467) -/

/-- The epochs in progress are ones in which the compute tier stopped: this station is asleep in them (R55, R467). -/
def epochsAsleep (s : State) : State := markCurrent (fun e => { e with active := false }) s

/-- A context whose open epochs of a kind are lost: they send no closure (R447). A draining context that has none left has
drained. -/
def Ctx.lose (c : Ctx) (lost : Epoch → Bool) : Ctx :=
  let left := c.epochs.filter (fun e => e.sentPending || !(lost e))
  { c with epochs := left, last := if c.phase = .draining ∧ left.isEmpty = true ∧ c.endE.isSome = true then c.endE.map (· - 1) else c.last }

/-- Tally's store and queue are lost with the open epochs of a kind, and each context hands on what it still can (R447). -/
def loseEpochs (lost : Epoch → Bool) (s : State) : State :=
  let s1 := setQueue [] { s with par := { s.par with ctxs := s.par.ctxs.map (fun e => (e.1, e.2.lose lost)) } }
  trnRunAsk (s1.each s1.par.ctxs (fun e t => drainFree e.1 (advanceAll e.1 t)))

/-- QUIESCE of Tally: every open epoch is lost (R447). -/
def tallyQuiesce (s : State) : State := loseEpochs (fun _ => true) s

/-- Whether an epoch is lost with the power of the compute tier or at ZY_CRST_N: one that has ended, or has taken in a
child. A leaf's epoch whose ASLEEP message is still to be sent holds nothing of Tally's (R55). -/
def Epoch.lostAsleep (e : Epoch) : Bool :=
  (e.endCut.isSome && (e.own != .asleep || !e.kids.isEmpty)) || e.kids.any (fun x => x.phase == .included || x.phase == .asleep)

/-- Opcodes of the commands whose work a unit of the compute tier does after their Pilot phase. -/
def computeJobs : List Nat := [0x30, 0x35, 0x40, 0x42, 0xB0]

/-- The leave a command's job may hold or ask for. -/
def jobLeaves (id : Nat) : List LeaveFor := [.cadLoad id, .trnLoad id, .stow id, .hold id]

/-- A load that is to begin again gives its LOADING slot back (R287). -/
def dropLoading (j : Job) (s : State) : State :=
  if j.opcode = 0x30 then
    (match s.platSlot (j.cmd.f 5 0 16) with
     | some i => if s.platState i = 1 then platDrop i s else s
     | none => s)
  else if j.opcode = 0x40 then
    (match s.subSlotOf (j.cmd.f 5 0 16) with
     | some i => if s.subState i = 1 then subDrop i s else s
     | none => s)
  else s

/-- Pilot has detected an error in its own execution, which is what raises source 8: the command in its Pilot phase ends with INTERNAL
(R410, R411; DEDUCED, log 135: the row of the line stands for the error). -/
def pilotErrs (s : State) : State :=
  match s.pil.jobs.find? (fun j => !j.async) with
  | none => s
  | some j => deliverFinal j stInternal [] ((dropLoading j (s.each (jobLeaves j.id) releaseLeave)).evt PIL_EVT 10)

/-- Commands whose unit has not begun their work wait for the return to ACTIVE, their leave released (R43, R464); one that holds no
async slot is refused, as R43 refuses it while the tier is off. `all` takes those in progress as well, whose work is lost. -/
def requeueJobs (all : Bool) (s : State) : State :=
  s.each (s.pil.jobs.filter (fun j => computeJobs.contains j.opcode &&
      (match j.phase with
       | .waitLeave _ => true
       | .running => all
       | _ => false)))
    (fun j t =>
      let t1 := dropLoading j (t.each (jobLeaves j.id) releaseLeave)
      if j.async then modJob j.id (fun x => { x with phase := .waitPower }) t1 else finishJob j.id stBusyPower [] t1)

/-- Rows of registers that the base tier keeps a copy of (R466). -/
def keptRows : List Nat := [(PRB_DESC 0 0).off, (PRB_TRK_CFG 0 0).off]

/-- Registers that besides keep their values across SLEEP: Wake's counters (R377), and the bytes lost at the entry (R376). -/
def sleepRows : List Nat := [(WAK_CNT_VAL 0).off, WAK_PWR_LOST.off]

/-- The snapshots and pre-clear values that are crossing from a pod to the compute tier are discarded and counted, and their banks are
free (R520); a cut that awaited one has a STALE pod. DEDUCED (log 44): of the channels between domains that reset separately, those of
the pods' snapshots and of the access taps are the ones in which an entry can stand; a capture counts as one. -/
def flushSnaps (s : State) : State :=
  s.each (s.tap.pods.map (·.1)) (fun p t =>
    let x := t.pod p
    let gone := x.caps.filter (fun c => !c.waiting)
    if gone.isEmpty then t
    else
      ((t.setPod p { x with caps := x.caps.filter (·.waiting) }).inc CDC_FLUSHED gone.length).each gone (fun c u =>
        match c.cut with
        | some id => giveSnap id p { stale := true, deferred := c.deferred, vals := [] } u
        | none => u))

/-- The access-tap entries that Wake has not yet read are discarded and counted (R520, R527). -/
def flushTaps (s : State) : State :=
  let isAcc (i : WakItem) : Bool := match i.body with
    | .access _ _ => true
    | _ => false
  ({ s with wak := { s.wak with queue := s.wak.queue.filter (fun i => !(isAcc i)) } } : State).inc CDC_FLUSHED
    (s.wak.queue.filter isAcc).length

/-- What the compute tier holds is lost (R206, R241, R283, R293, R331, R376, R515, R518). -/
def computeLost (sleep : Bool) (s : State) : State :=
  let s1 := witLose (trnLose (cadLose (wakLose (requeueJobs true (flushSnaps s)))))
  let s2 := loseEpochs Epoch.lostAsleep s1
  resetRegs .crst (if sleep then keptRows ++ sleepRows else keptRows) { s2 with par := { s2.par with
    keeps := s2.par.keeps.map (fun e => (e.1, { e.2 with scores := [] })),
    ctxs := s2.par.ctxs.map (fun e => (e.1, { e.2 with q99 := 0, stalled := false })) } }

/-! ### The return to ACTIVE (R43, R377, R465, R466) -/

/-- A command held until now runs (R43): its own part, under the number it already has. -/
def resumeJob (j : Job) (s : State) : State :=
  match pilotOp j.opcode j.cmd with
  | none => s
  | some (_, own) =>
    let next := s.pil.nextJob
    let r := own j.cmd { s with pil := { s.pil with nextJob := j.id } }
    let s1 : State := { r.2 with pil := { r.2.pil with nextJob := next } }
    match r.1 with
    | .reply st res => finishJob j.id st res (if st = stOk ∨ st = stTimeout then s1 else s1.inc PIL_REFUSED 1)
    | .started ph d => modJob j.id (fun x => { x with phase := ph, data := d }) s1

/-- Leave for a command's hold-port transfer is granted: the command goes on, and the leave is released with the transfer
(R432, R435). -/
def holdGranted (id : Nat) (s : State) : State :=
  match s.job? id with
  | none => releaseLeave (.hold id) s
  | some j =>
    let t := releaseLeave (.hold id) (resumeJob j s)
    if j.opcode = 0xB0 then stowNext t else t

/-- It is refused: the command has not started (R435); a load's refusal shows in its unit (R296, R334). -/
def holdRefused (id : Nat) (s : State) : State :=
  match s.job? id with
  | none => s
  | some j =>
    let s1 := finishJob id stBusyPower [] s
    if j.opcode = 0x30 then s1.evt CAD_EVT 1 else if j.opcode = 0x40 then s1.evt TRN_EVT 1
    else if j.opcode = 0xB0 then stowNext s1 else s1

/-- Every command held runs, in the order of launch (R43, R411). -/
def resumeJobs (s : State) : State := s.each (s.pil.jobs.filter (fun j => j.phase == .waitPower)) resumeJob

/-- Every POWER_SET whose own state is reached is done, even while a later request waits (R462, R481). -/
def reachedDone (st : Nat) (s : State) : State :=
  s.each (s.pil.jobs.filter (fun j => j.opcode == 0xA5 && j.phase == .running && j.cmd.f 2 0 2 == st))
    (fun j t => finishJob j.id stOk [w32 st] t)

/-- A transition has reached a state: a request that waits begins the next one (R462). -/
def endTransition (st : Nat) (s : State) : State :=
  let s1 := ({ s with plm := { s.plm with goal := none } } : State).putB PLM_POWER 3 false
  let s2 := reachedDone st (s1.setF PLM_POWER 0 2 st)
  let t := s2.getF PLM_POWER 4 2
  if t = st then s2 else beginTransition t s2

/-- The compute tier is in ACTIVE again: the work of step 4 of R465, after what a loss of power asks for (R293, R331, R377,
R466); the probe unit takes the stamps that waited (R86, R149), and the fault lines of the tier cross again (R457). -/
def nowActive (lost : Bool) (s : State) : State :=
  let s1 := rateNote 0xB (((((holdWork s).putB PLM_POWER 3 false).setF PLM_POWER 0 2 0).inc PLM_WAKES 1).evt PLM_EVT 2)
  let s2 : State := crossingDone 13 { s1 with plm := { s1.plm with goal := none } }
  let s3 := trnReloadAsk (reloadAsk (if lost then s2.each (List.range 256) trackerStart else
    { s2 with cad := { s2.cad with resident := [], plots := [] }, trn := { s2.trn with weights := [] } }))
  let s4 := evalReady (deferredRulings witPush (witLevels (wakPowerUp (s3.each (List.range 8) beatTake))))
  endTransition 0 (scoreRowsRun (resumeJobs s4))

/-! ### The bond test (R535 to R537) -/

/-- Number of bond groups of a build (R538). -/
def bondGroups (b : Build) : Nat :=
  match b with
  | .leaf => 31
  | .tray => 274

/-- The first group that fails the test: an unusable or reserved entry of its own, or a mismatch (R536). -/
def State.bondBad (s : State) (t : BondTest) : Option Nat :=
  let own := (List.range (bondGroups s.build)).find? (fun g => decide (33 ≤ (Tbl.get? s.otpBond g).getD 0))
  match own, t.bad with
  | some a, some b => some (min a b)
  | some a, none => some a
  | none, b => b

/-- A test that fails (R536, R537): the tier is in SLEEP again, and what waited for it is refused. -/
def bondFails (g : Nat) (s : State) : State :=
  let s1 := (s.setF CDC_BOND_STATUS 30 2 2).wr CDC_BOND_BAD (2 ^ 31 + g % 65536)
  let s2 : State := { s1 with plm := { s1.plm with goal := none } }
  let s3 := faultLine 4 false (s2.wr PLM_POWER (2 + 2 * 16 + 4))
  s3.each (s3.pil.jobs.filter (fun j => j.phase == .waitPower)) (fun j t => finishJob j.id stFenced [] t)

/-- A test that passes. -/
def bondPasses (s : State) : State := (s.setF CDC_BOND_STATUS 30 2 3).wr CDC_BOND_BAD 0

/-- The compute tier leaves reset: the test, then ACTIVE or the failure (R465, R536, R537). -/
def tierUp (t : BondTest) (s : State) : State :=
  let s1 : State := { s with pins := { s.pins with straps := { s.pins.straps with bondBad := t.bad } } }
  match s1.bondBad t with
  | some g => bondFails g s1
  | none => nowActive true (bondPasses s1)

/-! ### Transitions (R464, R465, R555) -/

/-- Whether a compute-tier source is in GRACE (R452). -/
def State.graceLeft (s : State) : Bool := (List.range 64).any (fun n => fltCompute n && s.fltState n == 1)

/-- Whether what has begun has ended, so that an entry may go on (R452, R464). -/
def State.entryClear (s : State) : Bool :=
  s.cad.pass.isNone && s.trn.pass.isNone && s.wit.run.isNone && s.wit.selfRun.isNone && !s.graceLeft

/-- POWER_ENTRY: from ACTIVE into DOZE or SLEEP, once steps 1 to 3 allow it (R464). -/
def powerEntry (s : State) : State :=
  match s.plm.goal with
  | none => s
  | some t =>
    if t = 0 ∨ s.computeActive = false ∨ s.entryClear = false then s
    else
      let s1 := wakPowerDown (t == 2) s
      if s1.flushWaits then s1
      else
        let s2 := epochsAsleep (requeueJobs false (holdWork (flushEnd s1)))
        endTransition t (if t = 2 then computeLost true s2 else s2)

/-- POWER_EXIT: from DOZE or SLEEP to ACTIVE (R465). -/
def powerExit (t : BondTest) (s : State) : State :=
  if s.plm.goal ≠ some 0 ∨ s.powerState = 0 ∨ s.pins.crst = true then s
  else if s.powerState = 2 then tierUp t s
  else nowActive s.wak.downSleep s

/-- DOZE_SLEEP_CHANGE: without passing through ACTIVE (R555). From SLEEP the tier leaves its internal reset, with the test of R536; the
bonds are as they were found last (DESIGN CHOICE, log 93). -/
def dozeSleep (s : State) : State :=
  if s.pins.crst then s
  else if s.powerState = 1 ∧ s.plm.goal = some 2 then
    (if s.graceLeft then s
     else
       let s1 := wakDozeSleep s
       if s1.flushWaits then s1 else endTransition 2 (computeLost true s1))
  else if s.powerState = 2 ∧ s.plm.goal = some 1 then
    match s.bondBad { bad := s.pins.straps.bondBad } with
    | some g => bondFails g s
    | none => endTransition 1 (bondPasses s)
  else s

/-! ### Resets (R414, R515 to R520, R545) -/

/-- ZY_CRST_N falls: compute-tier state is lost without the steps of R464 (R518). In SLEEP there is none. -/
def crstAssert (s : State) : State :=
  let s0 : State := { s with pins := { s.pins with crst := true } }
  if s.pins.por ∨ s.pins.crst = true then s0
  else
    let s1 : State := ({ s0 with plm := { s0.plm with goal := none } } : State).putB PLM_POWER 3 false
    if s.powerState = 2 then s1 else computeLost false (epochsAsleep s1)

/-- ZY_CRST_N rises: the bond test, then ACTIVE (R536, R537). A tier that a request put into SLEEP stays there (R462). -/
def crstRelease (t : BondTest) (s : State) : State :=
  let s0 : State := { s with pins := { s.pins with crst := false } }
  if s.pins.por ∨ s.pins.crst = false then s0
  else if s.powerState = 2 ∧ s.bondFail = false then s0
  else tierUp t ((s0.putB PLM_POWER 2 false).setF PLM_POWER 4 2 0)

/-- ZY_HRST_N falls (R405, R414, R515): apertures, done queue and the host port's own state go; replies of commands already
launched are discarded; slots stay held until their commands complete. -/
def hrstAssert (s : State) : State :=
  let gone (c : Cmd) : Cmd :=
    match c.src with
    | .aperture _ => { c with src := .aperture 5 }
    | _ => c
  let held := (s.pil.jobs.filter (·.async)).length
  let s1 := resetRegs .hrst [] (if s.pins.hrst then s else flushTaps s)
  if s.pins.por then { s with pins := { s.pins with hrst := true } } else
  ({ s1 with pins := { s1.pins with hrst := true },
             pil := { s1.pil with aps := [], latches := [], holds := [], captures := [],
                                  launchQ := s1.pil.launchQ.map (fun x => match x with
                                    | .cmd code c => .cmd code (gone c)
                                    | y => y),
                                  jobs := s1.pil.jobs.map (fun j => { j with cmd := gone j.cmd }) } } : State).wr PIL_ASYNC held

/-- ZY_HRST_N rises. -/
def hrstRelease (s : State) : State := { s with pins := { s.pins with hrst := false } }

/-- ZY_PORST_N falls: the whole block is held in reset. What MRAM, OTP and the memories outside hold stays (R515, R516). -/
def porstAssert (s0 : State) : State :=
  let s := logCut s0
  let b := State.resetOf s.build
  { b with pending := s.pending, out := s.out, free := s.free, hostMem := s.hostMem, holdMem := s.holdMem, otpBond := s.otpBond,
           regs := s.regs.filter (fun e => domAt e.1 == .mram),
           log := { b.log with units := s.log.units, dropped := s.log.dropped, torn := s.log.torn, clears := s.log.clears },
           pins := { s.pins with por := true } }

/-- ZY_PORST_N rises: the base tier starts, straps are sampled, the bond map is applied, the Logbook comes up (R474, R530,
R535, R545). A compute tier whose own reset is not asserted leaves reset with it. -/
def porstRelease (x : Straps) (s : State) : State :=
  if s.pins.por = false then s
  else
    let s0 : State := { s with pins := { s.pins with por := false, straps := x, memTrained := x.memTrained, lndUp := x.lndUp,
                                                     tapOn := x.tapOn } }
    let repaired := ((List.range (bondGroups s.build)).filter (fun g =>
      let e := (Tbl.get? s.otpBond g).getD 0
      decide (1 ≤ e) && decide (e ≤ 32))).length
    let s1 := logPowerOn ((s0.setF CDC_BOND_STATUS 0 16 repaired).putB FLT_CTL 1 x.testMode)
    if s1.pins.crst then s1
    else
      match s1.bondBad { bad := x.bondBad } with
      | some g => bondFails g s1
      | none => bondPasses s1

/-- PILOT_BOOT: Pilot has booted from ROM; every aperture is FREE (R405). -/
def pilotBoots (s : State) : State := { s with pil := { s.pil with booted := true, aps := [] } }

/-! ### FENCE_UNIT and QUIESCE (R447) -/

/-- FENCE_UNIT takes hold of a unit. -/
def unitFence (u : FltUnit) (s : State) : State :=
  match u with
  | .tally => s
  | .cadastre => cadFence s
  | .transit => trnFence s
  | .wake => wakDisarm s
  | .stow => stowQuiesce s

/-- QUIESCE resets a unit. -/
def unitQuiesce (u : FltUnit) (s : State) : State :=
  match u with
  | .tally => tallyQuiesce s
  | .cadastre => let t := cadLose s; t.each t.par.ctxs (fun e v => advanceAll e.1 v)
  | .transit => let t := trnLose s; trnRunAsk (t.each t.par.ctxs (fun e v => advanceAll e.1 v))
  | .wake => wakQuiesce s
  | .stow => stowQuiesce s

/-- QUIESCE_RELEASE: the 2 µs reset of a unit ends (R447). -/
def quiesceRelease (u : FltUnit) (s : State) : State :=
  if s.quiesced u = false then s
  else
    let s1 : State := { s with flt := { s.flt with quiesced := s.flt.quiesced.filter (· != u) } }
    match u with
    | .cadastre => if s1.computeActive then reloadAsk s1 else s1
    | .transit => if s1.computeActive then trnReloadAsk s1 else s1
    | _ => s1

end Sys2Proof.Machine
end

