-- ==== Sys2Proof/Machine/Finish.lean ====
section
/-! DEFINITION. What an event in one unit brings about in the others within the same step, and the outer form of every
command's meaning. -/

namespace Sys2Proof.Machine

/-- A transfer of the block's own is made (R432). -/
def OwnMove.run (m : OwnMove) (s : State) : State :=
  match m with
  | .series r => seriesPut r s
  | .excerpt r => excerptPut r s
  | .pack cls version => s.each (s.wit.staging.filter (fun g => g.cls == cls && g.version == version)) (stagePlace true)
  | .keep n k bs trn => keepPut n k bs trn s
  | .resend n k => (match s.ctx? n with
    | some c => resendNow n c k s
    | none => s)

/-- Leave for a transfer of the block's own is granted: it is made, and with it those of its ring that waited for it (R432, R435). -/
def ownGranted (id : Nat) (s : State) : State :=
  let (ms, s1) := ownTake id s
  releaseLeave (.own id) (s1.each ms OwnMove.run)

/-- Leave for it is refused: after a wait it asks again; refused at once, it is discarded (log 129). -/
def ownRefused (id : Nat) (waited : Bool) (s : State) : State :=
  if waited then askLeave 5 (s.pwrClass PWR_HOLD_CFG) (s.pwrAmt PWR_HOLD_CFG) (.own id) s
  else
    let (ms, s1) := ownTake id s
    s1.each (ms.drop 1) OwnMove.run

/-- A granted request goes to the operation it was made for (R433). -/
def leaveGranted (p : LeaveFor) (s : State) : State :=
  match p with
  | .cadPass n => if n = 0 then passGranted (cadWaited (s.leaveWaited p) s) else selfGranted s
  | .cadLoad id => cadLoadGranted id (cadWaited (s.leaveWaited p) s)
  | .cadReload i => reloadGranted i (cadWaited (s.leaveWaited p) s)
  | .trnPass _ => trnPassGranted (trnWaited (s.leaveWaited p) s)
  | .trnLoad id => trnLoadGranted id (trnWaited (s.leaveWaited p) s)
  | .trnReload i => trnReloadGranted i (trnWaited (s.leaveWaited p) s)
  | .wakeDrain => wakGranted s
  | .witness n => witGranted n s
  | .hold id => holdGranted id s
  | .stow id => stowGranted id s
  | .own id => ownGranted id s

/-- So does a refusal (R435); a reload that waited in vain asks again, since its work still waits (R293, R331). -/
def leaveRefused (p : LeaveFor) (waited : Bool) (s : State) : State :=
  match p with
  | .cadPass n => if n = 0 then (let t := cadWaited waited s; if waited then cadStart t else t) else selfRefused s
  | .cadLoad id => cadLoadRefused id (cadWaited waited s)
  | .cadReload _ => let t := cadWaited waited s; if waited then reloadAsk t else t
  | .trnPass _ => let t := trnWaited waited s; if waited then trnStart t else t
  | .trnLoad id => trnLoadRefused id (trnWaited waited s)
  | .trnReload _ => let t := trnWaited waited s; if waited then trnReloadAsk t else t
  | .wakeDrain => wakRefused waited s
  | .witness n => witRefused n s
  | .hold id => holdRefused id s
  | .stow id => stowRefused id s
  | .own id => ownRefused id waited s

/-- Epochs in progress of which the station is a member carry STOPPED (R180, R203, R445). -/
def markStopped (s : State) : State := markCurrent (fun e => { e with stopped := e.stopped || e.own != .notMember }) s

/-- Epochs in progress carry DEGRADED, and the station's own contribution to them too (R66). -/
def markDegraded (s : State) : State :=
  markCurrent (fun e => { e with degraded := true, ownDegraded := e.ownDegraded || e.own != .notMember }) s

/-- One consequence. -/
def perform (t : Todo) (s : State) : State :=
  match t with
  | .stopped => markStopped s
  | .timeBad => markDegraded s
  | .dieStop => witDieStop (markStopped s)
  | .powerEntry => witPowerEntry s
  | .fence u => unitFence u s
  | .quiesce u => unitQuiesce u s
  | .leaveGranted p => leaveGranted p s
  | .leaveRefused p w => leaveRefused p w s
  | .trnRun => trnRunAsk s
  | .pilotNext => pilotNext s
  | .clockStep => wakSync 4 s
  | .modelVote parcel => wakEvents [.cad parcel] s
  | .ownRole type parcel ep bs => ownRoleIn type parcel ep bs s
  | .reserve job parcel period prio => reserveBegin job parcel period prio s
  | .ownPart ctx p => ownPart ctx p s
  | .ownClaim parcel level trays => ownClaim parcel level trays s
  | .landEnv a reply st bs =>
    sendLanding a { cls := 2, type := if reply then 9 else 8, dst := st, parcel := 0, epoch := 0, auth := true,
                    degraded := false, retx := false, bytes := withCrc bs, sent := 0 } s

/-- Consequences in the order in which they arose, each with what it brings about in its turn. -/
def performAll : Nat → State → State
  | 0, s => { s with todo := [] }
  | n + 1, s =>
    match s.todo with
    | [] => s
    | t :: ts => performAll n (perform t { s with todo := ts })

/-- How many consequences one step may have: more than any chain of causes in the block (a context leads to at most a
message to each higher role, a job to one request for leave). -/
def performLimit : Nat := 4096

/-- The step's end: every consequence, and what Landing's part has queued. -/
def finish (s : State) : State := flushLanding (performAll performLimit s)

/-- One edge of DAT_CLK: Wake's cycle ends, and the clock goes on (R58, R364, R366). -/
def datEdge (s : State) : State := finish (clockEdge (wakTick s))

/-- The meaning of a row that is an event: nothing while ZY_PORST_N holds the block in reset (R515, R516). -/
def evNext (f : State → State) (s : State) : Host.Outcome State Fault Refusal := .next (whenUp (fun t => finish (f t)) s)

/-- The meaning of a row that is a Pilot command. -/
def cmdNext (o : OpInfo) (own : Cmd → State → Ans × State) (c : Cmd) (s : State) : Host.Outcome State Fault Refusal :=
  evNext (runCmd o own c) s

end Sys2Proof.Machine
end

