-- ==== Sys2Proof/Machine/Chain.lean ====
section
/-! DEFINITION. Cells and messages on their way to their consumers (R102 to R107, R502), and the cycle of the Timetable as it
touches several units (R93, R114, R186). -/

namespace Sys2Proof.Machine

/-! ### Messages (R103) -/

/-- A ruling that arrives in a message from a station (R253, R255). -/
def rulingMsg (src parcel : Nat) (bs : List Byte) (s : State) : State :=
  let (e, r) := rulingOf parcel bs
  rulingArrive e.isSome (.station src) r s

/-- A LINK_ALARM at the tray build: its effect on the chain, and its verdict as an alarm of kind 2 (R127, R347). -/
def linkAlarmMsg (ch src : Nat) (bs : List Byte) (s : State) : State :=
  if s.isTray then alarmIn 2 src 0 0 s.now 0 (linkAlarmReceive ch src bs s) else s

/-- A splice announcement that came in a cell: when container 0 arrives is not in it, and is free. -/
def spliceMsg (bs : List Byte) (s : State) : State :=
  let len := cycleTenths / 10
  let (e, s1) := s.draw
  let (w, s2) := s1.draw
  spliceAnn bs (e.toNat % len) (w.toNat % len) s2

/-- A whole message goes to its consumer (R103); `ch` is 2 for one that came on Landing. -/
def messageIn (ch : Nat) (via : Via) (m : RxMsg) (s : State) : State :=
  let bs := m.bytes
  if m.type = 0x1 then closureIn m.src m.parcel m.epoch bs s
  else if m.type = 0x2 then asleepIn m.src m.parcel m.epoch bs s
  else if m.type = 0x4 then (if s.isTray then seriesWrite m.src m.parcel (withCrc bs) s else s)
  else if m.type = 0x5 then excerptReceive m.src bs s
  else if m.type = 0x6 then bulkResend ch bs s
  else if m.type = 0x7 then rulingMsg m.src m.parcel bs s
  else if m.type = 0x8 then envelopeIn via bs s
  else if m.type = 0x9 then (if s.isTray ∧ ch < 2 ∧ bs.length = 3 then tmtAck ch m.src bs s else envelopeIn via bs s)
  else if m.type = 0xA then alarmReceive m.src bs s
  else if m.type = 0xB then linkAlarmMsg ch m.src bs s
  else if m.type = 0xF then rollAck ch m.src s
  else if s.isTray then s
  else if m.type = 0xC then spliceMsg bs s
  else if m.type = 0xD then tmtListReceive ch bs s
  else if m.type = 0xE then rollReceive bs s
  else if m.type = 0x10 then linkStateReceive bs s
  else s

/-! ### Cells (R102, R104 to R107) -/

/-- Whether a destination names this leaf: its number, or the code for every leaf of its chain, or for those of them that are members
of a parcel which it holds (R104). -/
def State.dstMine (s : State) (dst parcel : Nat) : Bool :=
  dst == s.station || dst == dstAll (stTray s.station) (stChain s.station) ||
    (dst == dstMembers (stTray s.station) (stChain s.station) && !(s.ctxsOf parcel).isEmpty)

/-- Whether a leaf takes a cell in (R104): one that is for it; in bypass only lists, announcements and link states (R120). -/
def State.leafTakes (s : State) (c : Cell) : Bool :=
  s.dstMine c.dst c.parcel && (s.inserted 0 || c.type == 0xC || c.type == 0xD || c.type == 0x10)

/-- A cell that is taken in: its number is checked (R105, R107), and the message it completes is put together (R106). -/
def cellMessage (ch : Nat) (c : Cell) (s : State) : Option RxMsg × State :=
  if c.cls = 5 ∧ c.retx = true then bulkResent ch c s
  else
    match seqNote ch c s with
    | (chk, t) =>
      if c.cls = 5 ∧ s.getB CHN_CTL 2 = true then bulkCell ch (s.rd (TMT_CYC (ch % 2))) c chk t
      else assemble ch c (match chk with | .inOrder => false | _ => true) t

/-- A cell that is not taken in has its number checked too (R106): a gap before it breaks the message under assembly (R105). -/
def cellPassed (ch : Nat) (c : Cell) (s : State) : State :=
  if c.retx then s
  else
    match seqNote ch c s with
    | (.inOrder, t) => t
    | (_, t) => t.setChain ch { t.chain ch with asm := (t.chain ch).asm.map (fun m =>
        if m.src = c.src ∧ m.cls = c.cls then { m with broken := true } else m) }

/-- A cell that is taken in, and the message it completes is handed on (R105 to R107). -/
def cellTake (ch : Nat) (via : Via) (c : Cell) (s : State) : State :=
  match cellMessage ch c s with
  | (none, t) => t
  | (some m, t) => messageIn ch via m t

/-- A whole cell at a tray build (R95, R103, R104, R106): its own has come round; one of a reserved type, or for no station that it
serves, is discarded and counted. -/
def trayCell (ch : Nat) (c : Cell) (s : State) : State :=
  if s.inserted ch = false ∨ c.src = s.station then s
  else if cellTypeKnown c.type = true ∧ c.dst = s.station then cellTake ch (.chain ch) c s
  else (cellPassed ch c s).inc (CHN_LOST ch) 1

/-- A whole cell at a leaf (R95, R104, R106): one that carries its own number as source is discarded and counted; of the others it
takes its own, and checks the numbers of all that its tray build sends. -/
def leafCell (ch : Nat) (c : Cell) (s : State) : State :=
  if c.src = s.station then s.inc (CHN_LOST ch) 1
  else if s.leafTakes c then cellTake ch (.chain ch) c s
  else if c.src = stTrayStation s.station then cellPassed ch c s
  else s

/-- CELL_RECEIVE (R102, R104, R106). A cell of fewer than 128 bytes was cut short; one whose LEN or CLASS is malformed is dropped. -/
def cellReceive (ch : Nat) (bs : List Byte) (s : State) : State :=
  if bs.length < 128 then s.inc (CHN_TRUNC ch) 1
  else if cellHcrcOk bs = false then (s.inc (CHN_HCRC_ERR ch) 1).evt (CHN_EVT ch) 0
  else
    match parseCell bs with
    | none => s
    | some c => if s.isTray then trayCell ch c s else leafCell ch c s

/-- A cell out of a bundle of Landing (R502): it is for this station or for nobody here. -/
def landingCellIn (a : LndAddr) (bs : List Byte) (s : State) : State :=
  if cellHcrcOk bs = false then s
  else
    match parseCell bs with
    | none => s
    | some c => if cellTypeKnown c.type ∧ c.dst = s.station then cellTake 2 (.landing a) c s else s

/-! ### Time words and cycles (R72, R74, R93, R114, R126, R186) -/

/-- A time word at a leaf; with the first after HEADLESS it sends what R186 asks for. -/
def timeWordIn (sd : Side) (blocks : List Block) (rx tx : Nat) (s : State) : State :=
  let s1 := timeWordReceive sd blocks rx tx s
  if s.isTray = false ∧ s.chMode 0 = 0 ∧ s1.chMode 0 ≠ 0 then headlessExit s1 else s1

/-- The tray build's own time word comes back: its measurement, and H against the roster (R74, R126). -/
def timeWordBack (ch : Nat) (blocks : List Block) (rx : Nat) (s : State) : State :=
  if s.isTray = false ∨ s.inserted ch = false then s
  else
    match timeWordOf blocks with
    | none => s.inc DAT_TW_ERR 1
    | some (origin, bs) => hopCheck ch (wordReturn ch origin bs rx s)

/-- A cycle begins on a chain: its rows, the announcements and the ROLL that fall due, gaps that are still open, and swaps that
have taken effect (R93, R107, R114, R123, R126). How many invalid sync headers came with the cycle before is free (R129; log 131). -/
def chainCycle (cyc : Nat) (aligned : List Nat) (ch : Nat) (s : State) : State :=
  let (v, s0) := s.draw
  let s1 := swapJobs ch cyc (cycleStart ch cyc (aligned.contains ch) (badHeaders ch v.toNat s0))
  bulkRetry ch cyc (if s1.isTray then rollExtra ch (announceDue ch s1) else s1)

/-- TIMETABLE_CYCLE_START: the cycle begins on every chain, and pending swaps of chains and of Landing take place; `aligned` names
the chains whose alignment row of the cycle that ends has come back (R116). -/
def timetableCycle (cyc : Nat) (aligned : List Nat) (s : State) : State :=
  let s1 := s.each s.chainList (chainCycle cyc aligned)
  if s1.isTray then lndSwapDue cyc (bulkRetry 2 cyc s1) else s1

/-- BEAT_EDGE: the stamp, and Wake's event (R85, R149, R368). -/
def beatRise (n edge : Nat) (s : State) : State := if 8 ≤ n then s else wakEvents [.beat n] (beatStamped n edge s)

/-- HEADLESS, CHAIN_CUT and their like name a chain the station serves. -/
def onChain (ch : Nat) (f : State → State) (s : State) : State := if s.chainList.contains ch then f s else s

/-! ### The final reply of a started command (R412) -/

/-- COMMAND_FINAL_REPLY: a command whose work has ended is answered; one whose unit has the rest to do ends it; one that
waits for something outside has waited long enough. -/
def finalReply (id : Nat) (s : State) : State :=
  match s.job? id with
  | none => s
  | some j =>
    match j.phase with
    | .done st res => deliverFinal j st res s
    | .waiting =>
      if j.opcode = 0x35 ∨ j.opcode = 0x66 then s
      else if j.opcode = 0xC2 then deliverFinal j stAbsent [] s
      else deliverFinal j stTimeout [] s
    | .running =>
      let s1 :=
        if j.opcode = 0x42 then trnRunDone id s
        else if j.opcode = 0x52 then wakeDisarmDone id s
        else if j.opcode = 0x55 ∨ j.opcode = 0xA3 then bulkJobDone id s
        else if j.opcode = 0x75 then timeProbeDone id s
        else if j.opcode = 0xA5 then powerSetDone id s
        else s
      match s1.job? id with
      | some k => (match k.phase with
        | .done st res => deliverFinal k st res s1
        | _ => s1)
      | none => s1
    | _ => s

end Sys2Proof.Machine
end

