-- ==== Sys2Proof/Machine/ChainRows.lean ====
section
/-! DEFINITION. The meanings of the rows of the chains, of Datum and its pins, and of the Timetable (R62 to R91, R92 to R130). -/

namespace Sys2Proof.Machine

/-- TIMETABLE_CYCLE_START (R93). -/
def execTimetableCycleStart (cyc : Nat) (aligned : List Nat) (s : State) : Host.Outcome State Fault Refusal :=
  evNext (timetableCycle cyc aligned) s

/-- CONTAINER_START (R93). -/
def execContainerStart (ch : Nat) (dir : Dir) (cyc cont : Nat) (full : Bool) (s : State) : Host.Outcome State Fault Refusal :=
  evNext (onChain ch (containerStart ch dir cyc cont full)) s

/-- CONTAINER_RELAY (R94). -/
def execContainerRelay (ch : Nat) (dir : Dir) (cyc cont : Nat) (cell : Option (List Byte)) (s : State) : Host.Outcome State Fault Refusal :=
  evNext (onChain ch (containerRelay ch dir cyc cont cell)) s

/-- CELL_RECEIVE (R106). The direction is the one the cell came in; no check depends on it. -/
def execCellReceive (ch : Nat) (_dir : Dir) (bytes : List Byte) (s : State) : Host.Outcome State Fault Refusal :=
  evNext (onChain ch (cellReceive ch bytes)) s

/-- BULK_REQ_RECEIVE (R107). Only the node at the far end of the chain asks, so its number is not needed. -/
def execBulkReqReceive (ch : Nat) (_src : Nat) (bytes : List Byte) (s : State) : Host.Outcome State Fault Refusal :=
  evNext (onChain ch (bulkResend ch bytes)) s

/-- BULK_RETENTION_EXPIRY (R107). BULK leaves a leaf in one direction. -/
def execBulkRetentionExpiry (ch : Nat) (_dir : Dir) (seq : Nat) (s : State) : Host.Outcome State Fault Refusal :=
  evNext (onChain ch (bulkExpire ch seq)) s

/-- TIME_WORD_RECEIVE (R72). -/
def execTimeWordReceive (side : Side) (blocks : List Block) (rx tx : Nat) (s : State) : Host.Outcome State Fault Refusal :=
  evNext (timeWordIn side blocks rx tx) s

/-- TIME_WORD_RETURN (R74). -/
def execTimeWordReturn (ch : Nat) (blocks : List Block) (rx : Nat) (s : State) : Host.Outcome State Fault Refusal :=
  evNext (onChain ch (timeWordBack ch blocks rx)) s

/-- REF_TIMEOUT (R62). -/
def execRefTimeout (s : State) : Host.Outcome State Fault Refusal := evNext refTimeout s

/-- HOLDOVER_EXPIRY (R62). -/
def execHoldoverExpiry (s : State) : Host.Outcome State Fault Refusal := evNext holdoverExpiry s

/-- PLUMB_TRIM (R51). -/
def execPlumbTrim (cycles : Nat) (s : State) : Host.Outcome State Fault Refusal := evNext (plumbTrim cycles) s

/-- LINK_DELAY_REQUEST (R70). -/
def execLinkDelayRequest (ch : Nat) (side : Side) (tx : Nat) (s : State) : Host.Outcome State Fault Refusal :=
  evNext (onChain ch (ldRequest ch side tx)) s

/-- LINK_DELAY_MESSAGE_RECEIVE (R71). -/
def execLinkDelayMessageReceive (ch : Nat) (side : Side) (blocks : List Block) (rx tx : Nat) (s : State) : Host.Outcome State Fault Refusal :=
  evNext (onChain ch (ldReceive ch side blocks rx tx)) s

/-- LINK_DELAY_TIMEOUT (R71). -/
def execLinkDelayTimeout (ch : Nat) (side : Side) (s : State) : Host.Outcome State Fault Refusal :=
  evNext (onChain ch (fun t => t.setChain ch (setLd (t.chain ch) side none))) s

/-- LANE_REQUEST_RECEIVE (R100). -/
def execLaneRequestReceive (ch : Nat) (side : Side) (blocks : List Block) (s : State) : Host.Outcome State Fault Refusal :=
  evNext (onChain ch (laneRequest ch side blocks)) s

/-- BLOCK_LOCK_GAIN (R99). -/
def execBlockLockGain (ch : Nat) (side : Side) (lanes : Nat) (s : State) : Host.Outcome State Fault Refusal :=
  evNext (onChain ch (blockLockGain ch side lanes)) s

/-- ALIGNMENT_LOCK (R99). -/
def execAlignmentLock (ch : Nat) (side : Side) (s : State) : Host.Outcome State Fault Refusal :=
  evNext (onChain ch (alignmentLock ch side)) s

/-- LOCKING_TIMEOUT (R99). -/
def execLockingTimeout (ch : Nat) (side : Side) (s : State) : Host.Outcome State Fault Refusal :=
  evNext (onChain ch (lockingTimeout ch side)) s

/-- BLOCK_LOCK_LOSS (R99). -/
def execBlockLockLoss (ch : Nat) (side : Side) (lane : Nat) (s : State) : Host.Outcome State Fault Refusal :=
  evNext (onChain ch (blockLockLoss ch side lane)) s

/-- ALIGNMENT_LOSS (R99). -/
def execAlignmentLoss (ch : Nat) (side : Side) (s : State) : Host.Outcome State Fault Refusal :=
  evNext (onChain ch (alignmentLoss ch side)) s

/-- CHAIN_CUT (R116): the ring is cut from the cycle after this one. -/
def execChainCut (ch : Nat) (s : State) : Host.Outcome State Fault Refusal :=
  evNext (onChain ch (fun t => chainCut ch (t.rd (TMT_CYC ch) + 1) t)) s

/-- CHAIN_WHOLE (R116): the ring is whole from the cycle after this one. -/
def execChainWhole (ch : Nat) (s : State) : Host.Outcome State Fault Refusal :=
  evNext (onChain ch (fun t => chainWhole ch (t.rd (TMT_CYC ch) + 1) t)) s

/-- HEADLESS (R118). -/
def execHeadless (s : State) : Host.Outcome State Fault Refusal := evNext headless s

/-- SPLICE_ANN_RECEIVE (R123). -/
def execSpliceAnnReceive (bytes : List Byte) (pE pW : Nat) (s : State) : Host.Outcome State Fault Refusal :=
  evNext (fun t => if t.isTray then t else spliceAnn bytes pE pW t) s

/-- TMT_LIST_RECEIVE (R113). -/
def execTmtListReceive (ch : Nat) (bytes : List Byte) (s : State) : Host.Outcome State Fault Refusal :=
  evNext (onChain ch (tmtListReceive ch bytes)) s

/-- SPLICE_REQUEST_RECEIVE (R128). -/
def execSpliceRequestReceive (ch src : Nat) (s : State) : Host.Outcome State Fault Refusal :=
  evNext (onChain ch (spliceRequest ch src)) s

/-- SPLICE_TIME (R121); `near` tells a leaf that it is one of the ford's two nearest inserted neighbours (R557). -/
def execSpliceTime (ch : Nat) (near : Bool) (s : State) : Host.Outcome State Fault Refusal :=
  evNext (onChain ch (spliceTime ch near)) s

/-- SPLICE_WINDOW_CLOSE (R557). -/
def execSpliceWindowClose (ch : Nat) (s : State) : Host.Outcome State Fault Refusal := evNext (onChain ch (windowClose ch)) s

/-- ROLL_SEND (R126). -/
def execRollSend (ch : Nat) (s : State) : Host.Outcome State Fault Refusal := evNext (onChain ch (rollSend ch)) s

/-- ROLL_RECEIVE (R126). -/
def execRollReceive (bytes : List Byte) (s : State) : Host.Outcome State Fault Refusal := evNext (rollReceive bytes) s

/-- ROLL_ACK_RECEIVE (R126). What the leaf says of its servo is for software to read from the leaf. -/
def execRollAckReceive (ch src : Nat) (_bytes : List Byte) (s : State) : Host.Outcome State Fault Refusal :=
  evNext (onChain ch (rollAck ch src)) s

/-- ROLL_ACK_TIMEOUT (R126). -/
def execRollAckTimeout (ch pos : Nat) (s : State) : Host.Outcome State Fault Refusal :=
  evNext (onChain ch (rollTimeout ch pos)) s

/-- LINK_ALARM_RECEIVE (R127). -/
def execLinkAlarmReceive (ch src : Nat) (bytes : List Byte) (s : State) : Host.Outcome State Fault Refusal :=
  evNext (onChain ch (linkAlarmMsg ch src bytes)) s

/-- LINK_STATE_RECEIVE (R111). -/
def execLinkStateReceive (bytes : List Byte) (s : State) : Host.Outcome State Fault Refusal :=
  evNext (linkStateReceive bytes) s

/-- BEAT_EDGE (R85). -/
def execBeatEdge (n : Nat) (edge : Nat) (s : State) : Host.Outcome State Fault Refusal := evNext (beatRise n edge) s

/-- PPS_EDGE (R77). -/
def execPpsEdge (edge : Nat) (s : State) : Host.Outcome State Fault Refusal := evNext (ppsEdge edge) s

/-- PPS_MISS (R91). -/
def execPpsMiss (s : State) : Host.Outcome State Fault Refusal := evNext ppsMiss s

/-- PULSE_EDGE (R80). -/
def execPulseEdge (n : Nat) (s : State) : Host.Outcome State Fault Refusal := evNext (pulseEdge n) s

/-- STOP_SLOT_FIRE (R83). -/
def execStopSlotFire (m : Nat) (s : State) : Host.Outcome State Fault Refusal := evNext (stopFire m) s

/-- DIE_STOP_RELEASE (R533). -/
def execDieStopRelease (s : State) : Host.Outcome State Fault Refusal := evNext dieStopRelease s

/-- DIE_STOP_ACK (R533). -/
def execDieStopAck (level : Bool) (s : State) : Host.Outcome State Fault Refusal := evNext (dieStopAck level) s

/-- STOP_NOACK (R533). -/
def execStopNoack (s : State) : Host.Outcome State Fault Refusal :=
  evNext (fun t => if t.dat.dieStop ∧ t.dat.dieAck = false then faultLine 11 true t else t) s

end Sys2Proof.Machine
end

