-- ==== Sys2Proof/Machine/CmdRows.lean ====
section
/-! DEFINITION. The meanings of the rows that are Pilot commands (R408 to R410, R425): each launches its command, which its own
part in its unit's file carries out once checks 1 to 5 have passed. -/

namespace Sys2Proof.Machine

/-- NOP (R426). -/
def execNop (c : Cmd) (s : State) : Host.Outcome State Fault Refusal := cmdNext opNop nopCmd c s

/-- ECHO (R426). -/
def execEcho (c : Cmd) (s : State) : Host.Outcome State Fault Refusal := cmdNext opEcho echoCmd c s

/-- IDENT (R426). -/
def execIdent (c : Cmd) (s : State) : Host.Outcome State Fault Refusal := cmdNext opIdent identCmd c s

/-- PWR_SET (R426). -/
def execPwrSet (c : Cmd) (s : State) : Host.Outcome State Fault Refusal := cmdNext opPwrSet pwrSet c s

/-- KEY_SET (R426). -/
def execKeySet (c : Cmd) (s : State) : Host.Outcome State Fault Refusal := cmdNext opKeySet keySet c s

/-- PIL_SET (R426). -/
def execPilSet (c : Cmd) (s : State) : Host.Outcome State Fault Refusal := cmdNext opPilSet pilSet c s

/-- FW_PATCH (R429). -/
def execFwPatch (c : Cmd) (s : State) : Host.Outcome State Fault Refusal := cmdNext opFwPatch fwPatch c s

/-- FW_KEY (R426). -/
def execFwKey (c : Cmd) (s : State) : Host.Outcome State Fault Refusal := cmdNext opFwKey fwKeyCmd c s

/-- FW_REVERT (R430). -/
def execFwRevert (c : Cmd) (s : State) : Host.Outcome State Fault Refusal := cmdNext opFwRevert fwRevert c s

/-- PARCEL_DEFINE (R242). -/
def execParcelDefine (c : Cmd) (s : State) : Host.Outcome State Fault Refusal := cmdNext opParcelDefine parcelDefine c s

/-- PARCEL_RESERVE (R243). -/
def execParcelReserve (c : Cmd) (s : State) : Host.Outcome State Fault Refusal := cmdNext opParcelReserve parcelReserve c s

/-- PARCEL_COMMIT (R247). -/
def execParcelCommit (c : Cmd) (s : State) : Host.Outcome State Fault Refusal := cmdNext opParcelCommit parcelCommit c s

/-- PARCEL_RELEASE (R249). -/
def execParcelRelease (c : Cmd) (s : State) : Host.Outcome State Fault Refusal := cmdNext opParcelRelease parcelRelease c s

/-- PARCEL_FREE (R560). -/
def execParcelFree (c : Cmd) (s : State) : Host.Outcome State Fault Refusal := cmdNext opParcelFree parcelFree c s

/-- PARCEL_CFG (R261). -/
def execParcelCfg (c : Cmd) (s : State) : Host.Outcome State Fault Refusal := cmdNext opParcelCfg parcelCfg c s

/-- RULING_ISSUE (R257). -/
def execRulingIssue (c : Cmd) (s : State) : Host.Outcome State Fault Refusal := cmdNext (opRulingIssue c) rulingIssue c s

/-- STOP_AT (R258). -/
def execStopAt (c : Cmd) (s : State) : Host.Outcome State Fault Refusal := cmdNext opStopAt stopAt c s

/-- STOP_DISARM (R259). -/
def execStopDisarm (c : Cmd) (s : State) : Host.Outcome State Fault Refusal := cmdNext opStopDisarm stopDisarm c s

/-- VERDICT_SET (R353). -/
def execVerdictSet (c : Cmd) (s : State) : Host.Outcome State Fault Refusal := cmdNext opVerdictSet verdictSet c s

/-- VERDICT_READ (R349). -/
def execVerdictRead (c : Cmd) (s : State) : Host.Outcome State Fault Refusal := cmdNext opVerdictRead verdictReadCmd c s

/-- VERDICT_SINK (R353). -/
def execVerdictSink (c : Cmd) (s : State) : Host.Outcome State Fault Refusal := cmdNext opVerdictSink verdictSink c s

/-- EPOCH_READ (R205). -/
def execEpochRead (c : Cmd) (s : State) : Host.Outcome State Fault Refusal := cmdNext opEpochRead epochRead c s

/-- DEADLINE_SET (R182). -/
def execDeadlineSet (c : Cmd) (s : State) : Host.Outcome State Fault Refusal := cmdNext opDeadlineSet deadlineSet c s

/-- STRICT_SET (R196). -/
def execStrictSet (c : Cmd) (s : State) : Host.Outcome State Fault Refusal := cmdNext opStrictSet strictSet c s

/-- ABSENT_DECLARE (R183). -/
def execAbsentDeclare (c : Cmd) (s : State) : Host.Outcome State Fault Refusal := cmdNext opAbsentDeclare absentDeclare c s

/-- CLOSURE_PULL (R198). -/
def execClosurePull (c : Cmd) (s : State) : Host.Outcome State Fault Refusal := cmdNext opClosurePull closurePull c s

/-- VOTE_RAISE (R237). -/
def execVoteRaise (c : Cmd) (s : State) : Host.Outcome State Fault Refusal := cmdNext opVoteRaise voteRaise c s

/-- TALLY_SET (R237). -/
def execTallySet (c : Cmd) (s : State) : Host.Outcome State Fault Refusal := cmdNext opTallySet tallySet c s

/-- PROBE_SET (R152). -/
def execProbeSet (c : Cmd) (s : State) : Host.Outcome State Fault Refusal := cmdNext opProbeSet probeSet c s

/-- TAP_MAP (R165). -/
def execTapMap (c : Cmd) (s : State) : Host.Outcome State Fault Refusal := cmdNext opTapMap tapMap c s

/-- TAP_CLEAR (R141). -/
def execTapClear (c : Cmd) (s : State) : Host.Outcome State Fault Refusal := cmdNext opTapClear tapClear c s

/-- TRK_SET (R164). -/
def execTrkSet (c : Cmd) (s : State) : Host.Outcome State Fault Refusal := cmdNext opTrkSet trkSet c s

/-- INPUT_SET (R165). -/
def execInputSet (c : Cmd) (s : State) : Host.Outcome State Fault Refusal := cmdNext opInputSet inputSet c s

/-- PLAT_LOAD (R288). -/
def execPlatLoad (c : Cmd) (s : State) : Host.Outcome State Fault Refusal := cmdNext opPlatLoad platLoad c s

/-- PLAT_UNLOAD (R291). -/
def execPlatUnload (c : Cmd) (s : State) : Host.Outcome State Fault Refusal := cmdNext opPlatUnload platUnload c s

/-- PLAT_KEY (R294). -/
def execPlatKey (c : Cmd) (s : State) : Host.Outcome State Fault Refusal := cmdNext opPlatKey platKeyCmd c s

/-- CAD_SET (R294). -/
def execCadSet (c : Cmd) (s : State) : Host.Outcome State Fault Refusal := cmdNext opCadSet cadSet c s

/-- SCORE_READ (R283). -/
def execScoreRead (c : Cmd) (s : State) : Host.Outcome State Fault Refusal := cmdNext opScoreRead scoreRead c s

/-- SCORE_ROW (R294). -/
def execScoreRow (c : Cmd) (s : State) : Host.Outcome State Fault Refusal := cmdNext opScoreRow scoreRow c s

/-- SUBSPACE_LOAD (R328). -/
def execSubspaceLoad (c : Cmd) (s : State) : Host.Outcome State Fault Refusal := cmdNext opSubspaceLoad subLoad c s

/-- SUBSPACE_UNLOAD (R331). -/
def execSubspaceUnload (c : Cmd) (s : State) : Host.Outcome State Fault Refusal := cmdNext opSubspaceUnload subUnload c s

/-- TRN_RUN (R332). -/
def execTrnRun (c : Cmd) (s : State) : Host.Outcome State Fault Refusal := cmdNext opTrnRun trnRun c s

/-- TRN_SET (R332). -/
def execTrnSet (c : Cmd) (s : State) : Host.Outcome State Fault Refusal := cmdNext opTrnSet trnSet c s

/-- TRN_UNFENCE (R332). -/
def execTrnUnfence (c : Cmd) (s : State) : Host.Outcome State Fault Refusal := cmdNext opTrnUnfence trnUnfence c s

/-- TRN_READ (R323). -/
def execTrnRead (c : Cmd) (s : State) : Host.Outcome State Fault Refusal := cmdNext opTrnRead trnRead c s

/-- WAKE_CFG (R381). -/
def execWakeCfg (c : Cmd) (s : State) : Host.Outcome State Fault Refusal := cmdNext opWakeCfg wakeCfg c s

/-- WAKE_ARM (R370). -/
def execWakeArm (c : Cmd) (s : State) : Host.Outcome State Fault Refusal := cmdNext opWakeArm wakeArm c s

/-- WAKE_DISARM (R370). -/
def execWakeDisarm (c : Cmd) (s : State) : Host.Outcome State Fault Refusal := cmdNext opWakeDisarm wakeDisarm c s

/-- WAKE_TRIG (R379). -/
def execWakeTrig (c : Cmd) (s : State) : Host.Outcome State Fault Refusal := cmdNext opWakeTrig wakeTrig c s

/-- WAKE_SECURE (R361). -/
def execWakeSecure (c : Cmd) (s : State) : Host.Outcome State Fault Refusal := cmdNext opWakeSecure wakeSecure c s

/-- WAKE_SEND (R380). -/
def execWakeSend (c : Cmd) (s : State) : Host.Outcome State Fault Refusal := cmdNext opWakeSend wakeSend c s

/-- WIT_SET (R402). -/
def execWitSet (c : Cmd) (s : State) : Host.Outcome State Fault Refusal := cmdNext opWitSet witSet c s

/-- PACK_LOAD (R389). -/
def execPackLoad (c : Cmd) (s : State) : Host.Outcome State Fault Refusal := cmdNext opPackLoad packLoad c s

/-- PACK_DROP (R402). -/
def execPackDrop (c : Cmd) (s : State) : Host.Outcome State Fault Refusal := cmdNext opPackDrop packDrop c s

/-- WIT_KEY (R402). -/
def execWitKey (c : Cmd) (s : State) : Host.Outcome State Fault Refusal := cmdNext opWitKey witKeyCmd c s

/-- ENGINE_REPORT (R393). -/
def execEngineReport (c : Cmd) (s : State) : Host.Outcome State Fault Refusal := cmdNext opEngineReport engineReport c s

/-- TEST_NOW (R402). -/
def execTestNow (c : Cmd) (s : State) : Host.Outcome State Fault Refusal := cmdNext opTestNow testNow c s

/-- SELF_NOW (R402). -/
def execSelfNow (c : Cmd) (s : State) : Host.Outcome State Fault Refusal := cmdNext opSelfNow selfNow c s

/-- MARK (R87). -/
def execMark (c : Cmd) (s : State) : Host.Outcome State Fault Refusal := cmdNext opMark markCmd c s

/-- PULSE_SET (R81). -/
def execPulseSet (c : Cmd) (s : State) : Host.Outcome State Fault Refusal := cmdNext opPulseSet pulseSet c s

/-- TIME_SET (R78). -/
def execTimeSet (c : Cmd) (s : State) : Host.Outcome State Fault Refusal := cmdNext opTimeSet timeSet c s

/-- SERVO_SET (R89). -/
def execServoSet (c : Cmd) (s : State) : Host.Outcome State Fault Refusal := cmdNext opServoSet servoSet c s

/-- TIME_ROLE (R64). -/
def execTimeRole (c : Cmd) (s : State) : Host.Outcome State Fault Refusal := cmdNext opTimeRole timeRoleCmd c s

/-- TIME_PROBE (R88). -/
def execTimeProbe (c : Cmd) (s : State) : Host.Outcome State Fault Refusal := cmdNext opTimeProbe timeProbeCmd c s

/-- FLT_SET (R458). -/
def execFltSet (c : Cmd) (s : State) : Host.Outcome State Fault Refusal := cmdNext opFltSet fltSet c s

/-- FLT_CLEAR (R449). -/
def execFltClear (c : Cmd) (s : State) : Host.Outcome State Fault Refusal := cmdNext opFltClear fltClearCmd c s

/-- FLT_INJECT (R453). -/
def execFltInject (c : Cmd) (s : State) : Host.Outcome State Fault Refusal := cmdNext opFltInject fltInject c s

/-- FLT_DEBUG (R454). -/
def execFltDebug (c : Cmd) (s : State) : Host.Outcome State Fault Refusal := cmdNext opFltDebug fltDebug c s

/-- LOG_CLEAR (R481). -/
def execLogClear (c : Cmd) (s : State) : Host.Outcome State Fault Refusal := cmdNext opLogClear logClearCmd c s

/-- LOG_HIST_SET (R481). -/
def execLogHistSet (c : Cmd) (s : State) : Host.Outcome State Fault Refusal := cmdNext opLogHistSet logHistSet c s

/-- LOG_FLUSH (R476). -/
def execLogFlush (c : Cmd) (s : State) : Host.Outcome State Fault Refusal := cmdNext opLogFlush logFlush c s

/-- LOG_SEND (R480). -/
def execLogSend (c : Cmd) (s : State) : Host.Outcome State Fault Refusal := cmdNext opLogSend logSendCmd c s

/-- PLM_SET (R481). -/
def execPlmSet (c : Cmd) (s : State) : Host.Outcome State Fault Refusal := cmdNext opPlmSet plmSet c s

/-- POWER_SET (R462). -/
def execPowerSet (c : Cmd) (s : State) : Host.Outcome State Fault Refusal := cmdNext opPowerSet powerSet c s

/-- STOW_JOB (R497). -/
def execStowJob (c : Cmd) (s : State) : Host.Outcome State Fault Refusal := cmdNext opStowJob stowJob c s

/-- BERTH_SET (R512). -/
def execBerthSet (c : Cmd) (s : State) : Host.Outcome State Fault Refusal := cmdNext opBerthSet berthSetCmd c s

/-- LND_SET (R512). -/
def execLndSet (c : Cmd) (s : State) : Host.Outcome State Fault Refusal := cmdNext opLndSet lndSetCmd c s

/-- TREE_SET (R511). -/
def execTreeSet (c : Cmd) (s : State) : Host.Outcome State Fault Refusal := cmdNext opTreeSet treeSetCmd c s

/-- LND_GATE_LOAD (R512). -/
def execLndGateLoad (c : Cmd) (s : State) : Host.Outcome State Fault Refusal := cmdNext opLndGateLoad lndGateLoadCmd c s

/-- LND_GATE_SWAP (R509). -/
def execLndGateSwap (c : Cmd) (s : State) : Host.Outcome State Fault Refusal := cmdNext opLndGateSwap lndGateSwapCmd c s

/-- STATION_SET (R21). -/
def execStationSet (c : Cmd) (s : State) : Host.Outcome State Fault Refusal := cmdNext opStationSet stationSet c s

/-- CHAIN_SET (R128). -/
def execChainSet (c : Cmd) (s : State) : Host.Outcome State Fault Refusal := cmdNext opChainSet chainSet c s

/-- SPLICE (R121). -/
def execSplice (c : Cmd) (s : State) : Host.Outcome State Fault Refusal := cmdNext opSplice spliceCmd c s

/-- SPLICE_REQ (R128). -/
def execSpliceReq (c : Cmd) (s : State) : Host.Outcome State Fault Refusal := cmdNext opSpliceReq spliceReqCmd c s

/-- TMT_LOAD (R113). -/
def execTmtLoad (c : Cmd) (s : State) : Host.Outcome State Fault Refusal := cmdNext opTmtLoad tmtLoadCmd c s

/-- TMT_SWAP (R114). -/
def execTmtSwap (c : Cmd) (s : State) : Host.Outcome State Fault Refusal := cmdNext opTmtSwap tmtSwapCmd c s

/-- LANE_UNFENCE (R100). -/
def execLaneUnfence (c : Cmd) (s : State) : Host.Outcome State Fault Refusal := cmdNext opLaneUnfence laneUnfence c s

end Sys2Proof.Machine
end

