-- ==== Sys2Proof/Machine/EpochRows.lean ====
section
/-! DEFINITION. The meanings of the rows of pods, epochs, Tally, Cadastre and Transit (R131 to R150, R168 to R207, R222 to R239, R264 to
R334). -/

namespace Sys2Proof.Machine

/-- EPOCH_STROBE (R82). `lanes` is what the pods have counted since the last capture. -/
def execEpochStrobe (parcel : Nat) (lanes : List TapLane) (s : State) : Host.Outcome State Fault Refusal :=
  evNext (strobe parcel lanes) s

/-- SNAPSHOT_DEFERRED_CAPTURE (R139). -/
def execSnapshotDeferredCapture (pod : Nat) (lanes : List TapLane) (s : State) : Host.Outcome State Fault Refusal :=
  evNext (deferredCapture pod lanes) s

/-- SNAPSHOT_DELIVERED (R139). -/
def execSnapshotDelivered (pod : Nat) (s : State) : Host.Outcome State Fault Refusal :=
  evNext (fun t => evalReady (snapshotCrossed pod t)) s

/-- SNAPSHOT_TIMEOUT (R140). -/
def execSnapshotTimeout (pod : Nat) (s : State) : Host.Outcome State Fault Refusal :=
  evNext (fun t => evalReady (snapshotLate pod t)) s

/-- SERIES_DISCARD (R160). -/
def execSeriesDiscard (parcel : Nat) (s : State) : Host.Outcome State Fault Refusal := evNext (seriesDiscard parcel) s

/-- GAUGE_ANSWER (R146). -/
def execGaugeAnswer (data : Word) (s : State) : Host.Outcome State Fault Refusal :=
  evNext (fun t => evalReady (gaugeSettle (some data.toNat) t)) s

/-- GAUGE_TIMEOUT (R147). -/
def execGaugeTimeout (s : State) : Host.Outcome State Fault Refusal := evNext (fun t => evalReady (gaugeSettle none t)) s

/-- TAP_ON_RISE (R134). -/
def execTapOnRise (pod : Nat) (s : State) : Host.Outcome State Fault Refusal := evNext (podRise pod) s

/-- TAP_ON_FALL (R144). -/
def execTapOnFall (pod : Nat) (s : State) : Host.Outcome State Fault Refusal := evNext (fun t => evalReady (podFall pod t)) s

/-- CLOSURE_RECEIVE (R183). The payload carries the flag of the cell header too (R178). -/
def execClosureReceive (src parcel ep : Nat) (_degraded : Bool) (bytes : List Byte) (s : State) : Host.Outcome State Fault Refusal :=
  evNext (closureIn src parcel ep bytes) s

/-- ASLEEP_RECEIVE (R179). The payload carries the flag of the cell header too (R179). -/
def execAsleepReceive (src parcel ep : Nat) (_degraded : Bool) (bytes : List Byte) (s : State) : Host.Outcome State Fault Refusal :=
  evNext (asleepIn src parcel ep bytes) s

/-- RESOLVE_RECEIVE (R188). A RESOLVE is a CLOSURE message of its own kind. -/
def execResolveReceive (src parcel ep : Nat) (_degraded : Bool) (bytes : List Byte) (s : State) : Host.Outcome State Fault Refusal :=
  evNext (closureIn src parcel ep bytes) s

/-- TALLY_ITEM_COMPLETE (R232). -/
def execTallyItemComplete (s : State) : Host.Outcome State Fault Refusal := evNext itemComplete s

/-- CLOSE_DEADLINE_EXPIRY (R183). -/
def execCloseDeadlineExpiry (parcel level : Nat) (s : State) : Host.Outcome State Fault Refusal :=
  evNext (deadlineExpiry parcel level) s

/-- STRICT_STALL (R198). -/
def execStrictStall (parcel level : Nat) (s : State) : Host.Outcome State Fault Refusal :=
  evNext (strictStall parcel level) s

/-- GATE_CLOSE (R189). -/
def execGateClose (parcel level : Nat) (s : State) : Host.Outcome State Fault Refusal := evNext (gateCloseDue parcel level) s

/-- DEADLINE_WINDOW_END (R182). -/
def execDeadlineWindowEnd (parcel level : Nat) (s : State) : Host.Outcome State Fault Refusal :=
  evNext (fun t => match t.ctxAt parcel level with | some (n, _) => windowEnd n t | none => t) s

/-- TRAY_CLOSURE_SEND (R313). -/
def execTrayClosureSend (parcel : Nat) (s : State) : Host.Outcome State Fault Refusal := evNext (traySend parcel) s

/-- CADASTRE_PASS_START (R275). -/
def execCadastrePassStart (s : State) : Host.Outcome State Fault Refusal := evNext cadStart s

/-- CADASTRE_PASS_COMPLETE (R274). -/
def execCadastrePassComplete (s : State) : Host.Outcome State Fault Refusal := evNext cadComplete s

/-- SCORE_TIMEOUT (R277). -/
def execScoreTimeout (parcel ep : Nat) (s : State) : Host.Outcome State Fault Refusal := evNext (scoreTimeout parcel ep) s

/-- TRANSIT_PASS_START (R309). -/
def execTransitPassStart (s : State) : Host.Outcome State Fault Refusal := evNext trnStart s

/-- TRANSIT_TILE_COMPLETE (R312). -/
def execTransitTileComplete (s : State) : Host.Outcome State Fault Refusal := evNext trnTile s

/-- TRANSIT_CHECK_COMPLETE (R316). -/
def execTransitCheckComplete (cols : List Nat) (unlocated : Bool) (s : State) : Host.Outcome State Fault Refusal :=
  evNext (trnCheckDone cols unlocated) s

/-- TRANSIT_RUN_TIMEOUT (R310). -/
def execTransitRunTimeout (parcel ep : Nat) (s : State) : Host.Outcome State Fault Refusal :=
  evNext (trnRunTimeout parcel ep) s

end Sys2Proof.Machine
end

