-- ==== Sys2Proof/Machine/HostPort.lean ====
section
/-! DEFINITION. The host target port (R2, R6 to R13, R42, R60, R145, R405, R413, R499, R549 to R553): every register as it is
shown, its read and its write, the latches and holds of requesters, the command apertures. -/

namespace Sys2Proof.Machine

/-! ### Where an offset lies (R549 to R552) -/

/-- Offset ranges, instances included, that a build lacks, each with its last offset (R549). -/
def absentRanges : Build → List (Nat × Nat)
  | .leaf =>
    [(0x34000, 0x37FFF), (0x81200, 0x82FFF), (0x83100, 0x83FFF), (0x85200, 0x86FFF), (0x91100, 0x91FFF), (0xA0140, 0xA01FF),
     (0xA1040, 0xA13FF), (0xB0000, 0xBFFFF), (0xE0300, 0xE04FF), (0xE847C, 0xE8847), (0xFC400, 0xFDFFF), (0xFE000, 0xFFFFF)]
  | .tray => [(0x40000, 0x40FFF), (0x41500, 0x417FF), (0x60000, 0x7FFFF), (0x100000, 0x17FFFF)]

/-- Whether an offset lies in a range, or an instance, that a build lacks (R2, R549). -/
def absentAt (b : Build) (off : Nat) : Bool := (absentRanges b).any (fun r => decide (r.1 ≤ off) && decide (off ≤ r.2))

/-- Base offsets of the _SUB registers of the pairs of R60; the _SEC register lies 8 above. -/
def pairBases : List Nat :=
  [DAT_NOW_SUB.off, (DAT_PLS_SUB 0).off, (DAT_STOP_SUB 0).off, (DAT_BEAT_SUB 0).off, (CHN_SPL_SUB 0).off, (PAR_CTX_T0_SUB 0).off]

/-- Registers of the rings that a leaf build does not have, and that read zero there (R373, R499). -/
def trayRings : List Nat := [WAK_XR_RD.off, STW_SR_RD.off]

/-! ### What registers show -/

/-- PIL_AP_STATE (R405, R436). -/
def State.apState (s : State) : Nat :=
  if s.pil.booted then
    (List.range 5).foldl (fun n a => n + (match (s.aperture a).st with
      | .free => 0 | .filling => 1 | .busy => 2 | .replied => 3) * 4 ^ a) 0
  else 0x2AA

/-- EPO_CTX_n_ID (R207). -/
def Ctx.idWord (c : Ctx) : Nat := 2 ^ 31 + b2n c.pub * 2 ^ 30 + b2n c.committed * 2 ^ 29 + c.level % 8 * 2 ^ 24 + c.parcel % 2 ^ 12

/-- An epoch number behind a NONE bit (R207, R263). -/
def epochOrNone : Option Nat → Nat
  | some k => k % 2 ^ 40
  | none => 2 ^ 63

/-- µs left on a grace timer (R460). -/
def State.graceLeftUs (s : State) (n : Nat) : Nat :=
  match s.fltState n, Tbl.get? s.flt.graceEnd n with
  | 1, some e => ceilDiv (e - s.dat.edges) 1250
  | _, _ => 0

/-- The live levels of the fault lines (R441, R460). -/
def State.lineWord (s : State) (first : Nat) : Nat :=
  (List.range 32).foldl (fun m i => if s.fltLine (first + i) then setBit m i else m) 0

/-- The base offset of the row of the LND_TOK registers, whose classes count from 1. -/
def lndTokRow : Nat := (LND_TOK 0 1).off

/-- Registers that show other parts of the state: the value of those at a base offset, or none for the rest. -/
def State.derived (s : State) (base : Nat) (ix : List Nat) : Option Nat :=
  let n := ix.getD 0 0
  let ofCtx (d : Nat) (f : Ctx → Nat) : Option Nat := some (((s.ctx? n).map f).getD d)
  if base = PIL_AP_STATE.off then some s.apState
  else if base = DAT_NOW_SUB.off then some (timeSub s.now)
  else if base = DAT_NOW_SEC.off then some (timeSec s.now)
  else if base = TAP_ON.off then some s.pins.tapOn
  else if base = (CHN_STATUS 0).off then some (setFld (s.rd (CHN_STATUS n)) 15 1 (b2n (!s.pins.straps.fordListen)))
  else if base = (CHN_BLK_ERR 0).off then some (((s.chain n).badHeads + 2 ^ 32 - s.rd (CHN_BLK_ERR n)) % 2 ^ 32)
  else if base = (EPO_CTX_ID 0).off then ofCtx 0 Ctx.idWord
  else if base = (EPO_CTX_LAST 0).off then ofCtx (2 ^ 63) (fun c => epochOrNone c.last)
  else if base = (EPO_CTX_DL 0).off then ofCtx 0 (fun c => if s.isTray then c.dl else 0)
  else if base = (EPO_CTX_Q99 0).off then ofCtx 0 (·.q99)
  else if base = (EPO_CTX_WAIT 0).off then ofCtx 0 Ctx.wait
  else if base = TAL_PAGES_FREE.off then some s.pagesFree
  else if base = TAL_CTX_FREE.off then some s.ctxFree
  else if base = TAL_BACKLOG.off then some s.backlog
  else if base = (TAL_CTX_CFG 0).off then ofCtx 0 (fun c => c.prio % 4 * 2 ^ 30 + c.probes.length % 512 * 2 ^ 16 + c.pages.length % 512)
  else if base = (TAL_CTX_SEQ 0).off then ofCtx 0 (·.seq)
  else if base = (TAL_CTX_STATE 0).off then ofCtx 0 Ctx.tally
  else if base = PAR_OCC.off then some s.parOcc
  else if base = PAR_MEMB.off then some (s.membership % 16)
  else if base = PAR_THIN.off then some s.parThin
  else if base = PAR_SERVED.off then some s.parServed
  else if base = RUL_PEND.off then some s.par.pend.length
  else if base = (PAR_CTX_STATE 0).off then ofCtx 0 (fun c => phaseNo c.phase * 2 ^ 29 + c.period % 2 ^ 23)
  else if base = (PAR_CTX_MEMB 0).off then ofCtx 0 (fun c => c.members % 2 ^ 20)
  else if base = (PAR_CTX_T0_SUB 0).off then ofCtx 0 (fun c => timeSub c.t0)
  else if base = (PAR_CTX_T0_SEC 0).off then ofCtx 0 (fun c => timeSec c.t0)
  else if base = (PAR_CTX_END 0).off then ofCtx (2 ^ 63) (fun c => epochOrNone c.endE)
  else if base = CAD_RES_FREE.off then some s.resFree.1
  else if base = CAD_RES_MIN.off then some s.resFree.2
  else if base = CAD_PENDING.off then some s.cadPending
  else if base = (CAD_CTX_BIND 0).off then
    ofCtx 0 (fun c => if c.level = s.ownLevel then s.platPending c.parcel * 2 ^ 16 + c.plat else 0)
  else if base = (CAD_PLAT_ID 0).off then
    some (setFld (s.rd (CAD_PLAT_ID n)) 16 10 (if s.platState n = 0 then 0 else s.platBound (s.getF (CAD_PLAT_ID n) 0 16)))
  else if base = (TRN_CTX_BIND 0).off then ofCtx 0 (fun c => if 1 ≤ c.level then s.subPending c.parcel * 2 ^ 16 + c.sub else 0)
  else if base = (TRN_SUB_ID 0).off then
    some (setFld (s.rd (TRN_SUB_ID n)) 16 10 (if s.subState n = 0 then 0 else s.subBound (s.getF (TRN_SUB_ID n) 0 16)))
  else if base = FLT_LINE.off then some (s.lineWord 0)
  else if base = FLT_LINE_HI.off then some (s.lineWord 32)
  else if base = FLT_STATE.off then
    some (if s.dat.edges < s.flt.errUntil then setFld (s.rd FLT_STATE) 3 1 0 else s.rd FLT_STATE)
  else if base = (FLT_SRC_STATE 0).off then some (setFld (setFld (s.rd (FLT_SRC_STATE n)) 29 1 (b2n (s.fltLine n))) 0 20 (s.graceLeftUs n))
  else if base = (CDC_BOND_MAP 0).off then some ((Tbl.get? s.otpBond n).getD 0)
  else if base = (LOG_WINDOW 0).off then some (leAt (s.unitShown (s.getF LOG_CURSOR 0 15)) (4 * n) 4)
  else if base = lndTokRow then some (s.bucket (lndKey n (ix.getD 1 0)) / 1000)
  else if base = PWR_STATE.off then some (setFld (s.rd PWR_STATE) 17 1 (b2n s.gntLevel))
  else if base = HLD_STATUS.off then some (s.pins.memTrained % 2 ^ 12)
  else none

/-- The value a register shows (R11, R13). -/
def State.shown (s : State) (h : RegHit) : Nat :=
  ((s.derived h.row.base h.ix).getD (s.rd h.at)) % 2 ^ h.at.width

/-! ### Latches, holds and captures (R10, R60) -/

/-- Put a requester's read latch, or empty it. -/
def putLatch (rq : Nat) (l : Option ReadLatch) (s : State) : State :=
  { s with pil := { s.pil with latches := match l with
      | some x => Tbl.set s.pil.latches rq x
      | none => Tbl.erase s.pil.latches rq } }

/-- Put a requester's write hold, or empty it. -/
def putHold (rq : Nat) (l : Option WriteHold) (s : State) : State :=
  { s with pil := { s.pil with holds := match l with
      | some x => Tbl.set s.pil.holds rq x
      | none => Tbl.erase s.pil.holds rq } }

/-- The pair of R60 that a register belongs to: its _SUB register's row, by offset, and whether it is the _SEC register. -/
def pairOf (h : RegHit) : Option (Nat × Bool) :=
  if pairBases.contains h.row.base then some (h.at.off, false)
  else if 8 ≤ h.row.base ∧ pairBases.contains (h.row.base - 8) = true then some (h.at.off - 8, true)
  else none

/-- What a requester's capture of a pair holds: its _SUB and _SEC values. -/
def State.capture? (s : State) (rq sub : Nat) : Option (Nat × Nat) :=
  ((s.pil.captures.find? (fun c => c.rq == rq && c.off == sub)).map (fun c => (c.time % 2 ^ 48, c.time / 2 ^ 48)))

/-- Capture a whole time for a requester (R60). -/
def captureTime (rq sub time : Nat) (s : State) : State :=
  { s with pil := { s.pil with captures := s.pil.captures.filter (fun c => !(c.rq == rq && c.off == sub)) ++
      [{ rq := rq, off := sub, time := time }] } }

/-- What the register at an offset shows, zero where none lies there. -/
def State.shownAt (s : State) (off : Nat) : Nat := ((regAt off).map s.shown).getD 0

/-! ### Reads (R10 to R12, R42, R60, R145, R405) -/

/-- What an RC register holds once a read has cleared it (R11): a largest or smallest value since the last read starts again from
the present one (R238, R513); CHN_BLK_ERR holds the count at which it was read last (R129). -/
def State.cleared (s : State) (h : RegHit) : Nat :=
  if h.row.base = TAL_BACKLOG_MAX.off then s.backlog
  else if h.row.base = (BRT_POOL_MIN 0).off then s.brtFree (h.ix.getD 0 0)
  else if h.row.base = (CHN_BLK_ERR 0).off then (s.chain (h.ix.getD 0 0)).badHeads
  else 0

/-- A read clears an RC register in the same access (R11). -/
def readClear (h : RegHit) (s : State) : State := if h.row.acc = .rc then s.wr h.at (s.cleared h) else s

/-- The whole value of a live counter (R145): zero from a pod that is off, with TAP_EVT.STALE_READ; zero after the timeout of the
pod's crossing from one whose TAP_CLK has stopped (R455, R527). -/
def liveCounter (n : Nat) (s : State) : Nat × State :=
  if s.podOn (n / 1024) = false then (0, s.evt TAP_EVT 0)
  else if bit s.tap.stopped (n / 1024) then (0, cdcTimed (n / 1024) s)
  else (s.counter n, s)

/-- Whether a requester's latch holds the high half of the register at `low` (R10). -/
def State.latched (s : State) (rq low : Nat) : Bool := ((Tbl.get? s.pil.latches rq).map (·.off)) == some low

/-- A 32-bit read of half of a 64-bit value: the low half latches the high half, the high half takes what the latch holds for
it (R10). `low` is the register's offset, `v` its current value. -/
def readHalf (rq low : Nat) (high : Bool) (v : Nat) (s : State) : Nat × State :=
  if high then
    match Tbl.get? s.pil.latches rq with
    | some l => if l.off = low then (l.high, putLatch rq none s) else (v / 2 ^ 32, s)
    | none => (v / 2 ^ 32, s)
  else (v % 2 ^ 32, putLatch rq (some { off := low, high := v / 2 ^ 32 }) s)

/-- A 32-bit read of a register. DESIGN CHOICE (log 108): of a 64-bit RC register the read of the low half clears the whole, and that
of the high half clears nothing. -/
def readReg32 (rq : Nat) (h : RegHit) (s : State) : Nat × State :=
  let v := s.shown h
  if h.row.wide = false then (v, readClear h s)
  else
    match pairOf h with
    | some (sub, sec) =>
      if sec = false ∧ h.high = false then
        (v % 2 ^ 32, captureTime rq sub (v % 2 ^ 48 + s.shownAt (sub + 8) * 2 ^ 48) s)
      else
        let c := s.capture? rq sub
        let x := match c with
          | some (a, b) => if sec then b else a
          | none => v
        (if h.high then x / 2 ^ 32 else x % 2 ^ 32, s)
    | none =>
      let (x, s1) := readHalf rq h.at.off h.high v s
      (x, if h.high then s1 else readClear h s1)

/-- A 64-bit read of a register marked 64; a _SUB register is captured, a _SEC register shows its capture. -/
def readReg64 (rq : Nat) (h : RegHit) (s : State) : Nat × State :=
  let v := s.shown h
  match pairOf h with
  | some (sub, false) => (v, captureTime rq sub (v % 2 ^ 48 + s.shownAt (sub + 8) * 2 ^ 48) s)
  | some (sub, true) => (((s.capture? rq sub).map (·.2)).getD v, s)
  | none => (v, readClear h s)

/-- Whether a compute-tier register is out of reach: its tier is powered off (R42, R551, R552). -/
def State.sleepHit (s : State) (h : RegHit) : Bool := h.row.dom == .crst && s.powerState == 2

/-- Whether an access crosses into a compute tier that is powered and held in reset: CMP_CLK may then have stopped (R516, R522). -/
def State.heldHit (s : State) (h : RegHit) : Bool := h.row.dom == .crst && s.pins.crst

/-- A read of a register of either tier: none of the compute tier's while that is powered off (R551); one that waits on a stopped
CMP_CLK ends with zero data and the timeout of crossing 0x0A1 (R455, R553). Whether CMP_CLK has stopped under ZY_CRST_N is free (R522). -/
def tierRead (h : RegHit) (f : State → Nat × State) (s : State) : Nat × State :=
  if s.sleepHit h then (0, s.evt CAP_SLEEP_HIT 0)
  else if s.heldHit h then (if s.draw.1.toNat % 2 = 1 then (0, cdcTimed 0xA1 s.draw.2) else f s.draw.2)
  else f s

/-- A write likewise: a register that is held in reset does not change. -/
def tierWrite (h : RegHit) (f : State → State) (s : State) : State :=
  if s.sleepHit h then s.evt CAP_SLEEP_HIT 0
  else if s.heldHit h then (if s.draw.1.toNat % 2 = 1 then cdcTimed 0xA1 s.draw.2 else s.draw.2)
  else f s

/-- A 32-bit read at an aligned offset, in the steps of R551. -/
def read32 (rq off : Nat) (s : State) : Nat × State :=
  if absentAt s.build off then (0, s.evt CAP_ABSENT_HIT 0)
  else if 0x10000 ≤ off ∧ off < 0x15000 then
    let a := s.aperture ((off - 0x10000) / 0x1000)
    (if a.st = .replied then (a.reply.getD (off % 0x1000 / 4) 0#32).toNat else 0, s)
  else if 0x100000 ≤ off ∧ off < 0x180000 then
    if off % 8 = 4 ∧ s.latched rq (off - 4) = true then readHalf rq (off - 4) true 0 s
    else
      let (v, s1) := liveCounter ((off - 0x100000) / 8) s
      readHalf rq (off - off % 8) (off % 8 == 4) v s1
  else
    match regAt off with
    | none => (0, s)
    | some h => tierRead h (readReg32 rq h) s

/-- A 64-bit read as the two 32-bit reads of its halves, the low half first (R553). -/
def readHalves (rq off : Nat) (s : State) : Nat × State :=
  let lo := read32 rq off s
  let hi := read32 rq (off + 4) lo.2
  (lo.1 + hi.1 * 2 ^ 32, hi.2)

/-- A 64-bit read at an aligned offset: of a register marked 64 as a whole, else of its two halves (R551, R553). -/
def read64 (rq off : Nat) (s : State) : Nat × State :=
  if absentAt s.build off then readHalves rq off s
  else if 0x100000 ≤ off ∧ off < 0x180000 then liveCounter ((off - 0x100000) / 8) s
  else
    match regAt off with
    | some h =>
      if h.row.wide = true ∧ h.high = false then
        tierRead h (readReg64 rq h) s
      else readHalves rq off s
    | none => readHalves rq off s

/-- A read access: its data goes to its requester. While ZY_HRST_N is asserted the port completes no access (R519). -/
def hostRead (rq off : Nat) (wide : Bool) (s : State) : State :=
  if s.pins.hrst then s
  else
    let size := if wide then 8 else 4
    if off % size ≠ 0 then (s.evt CAP_ACC_ERR 0).emit (.readData rq off 0)
    else
      let (v, s1) := if wide then read64 rq off s else read32 rq off s
      s1.emit (.readData rq off (BitVec.ofNat 64 v))

/-! ### Writes (R10 to R12, R373, R405, R413, R499) -/

/-- A read pointer is set, unless that would move it beyond its write pointer (R373). -/
def putReadPtr (rd wr : Loc) (v : Nat) (s : State) : State :=
  if s.rd wr < v then s.evt CAP_ACC_ERR 0 else s.wr rd v

/-- PIL_DONE_RD is set: the entries it passes are consumed and their slots freed (R412, R413). -/
def putDoneRd (v : Nat) (s : State) : State :=
  let beyond := (v + 2 ^ 32 - s.rd PIL_DONE_WR) % 2 ^ 32
  if 0 < beyond ∧ beyond < 2 ^ 31 then s.evt CAP_ACC_ERR 0
  else
    let n := (v + 2 ^ 32 - s.rd PIL_DONE_RD) % 2 ^ 32
    let s1 := s.wr PIL_DONE_RD v
    if n < 2 ^ 31 then s1.wr PIL_ASYNC (s1.rd PIL_ASYNC - n) else s1

/-- A whole value is written to a register under its access code (R11). -/
def writeReg (h : RegHit) (v : Nat) (s : State) : State :=
  let l := h.at
  match h.row.acc with
  | .ro => s
  | .rc => s
  | .wo => s
  | .w1c =>
    let keep := if h.row.base = WIT_EVT.off then 0xFF00 else 0
    s.wr l (s.rd l &&& ((v % 2 ^ l.width) ^^^ (2 ^ l.width - 1) ||| keep))
  | .rw =>
    if s.isTray = false ∧ trayRings.contains h.row.base = true then s
    else if h.row.base = PIL_DONE_RD.off then putDoneRd (v % 2 ^ 32) s
    else if h.row.base = WAK_DST_RD.off then putReadPtr WAK_DST_RD WAK_DST_WR v s
    else if h.row.base = WAK_XR_RD.off then putReadPtr WAK_XR_RD WAK_XR_WR v s
    else if h.row.base = STW_SR_RD.off then putReadPtr STW_SR_RD STW_SR_WR v s
    else if h.row.base = LOG_CURSOR.off then s.wr LOG_CURSOR (v % 2 ^ 15)
    else s.wr l v

/-- A 32-bit write of half of a register marked 64 (R10): the low half is held for the requester, the high half takes effect
with the half held for it, or else keeps the register's low half: of a W1C register it then clears nothing there. -/
def writeHalf (rq : Nat) (h : RegHit) (v : Nat) (s : State) : State :=
  if h.high = false then putHold rq (some { off := h.at.off, low := v % 2 ^ 32 }) s
  else
    let kept := (if h.row.acc = .w1c then 0 else s.shown h % 2 ^ 32) + v % 2 ^ 32 * 2 ^ 32
    match Tbl.get? s.pil.holds rq with
    | some x => if x.off = h.at.off then writeReg h (x.low + v % 2 ^ 32 * 2 ^ 32) (putHold rq none s) else writeReg h kept s
    | none => writeReg h kept s

/-- Words written to an aperture (R405 to R407), each with its offset in words; `auth` is AUTH_LEVEL. -/
def apertureWords (auth a : Nat) (ws : List (Nat × Word)) (s : State) : State :=
  if a = 4 ∧ auth ≠ 3 then s.evt CAP_ACC_ERR 0
  else
    let x := s.aperture a
    if s.pil.booted = false ∨ x.st = .busy then (s.inc PIL_BUSY_WR 1).evt PIL_EVT 6
    else
      let x0 : Aperture := if x.st = .filling then x else { st := .filling, count := 0, have0 := false, mem := [], reply := [] }
      let x1 : Aperture := { x0 with count := x0.count + ws.length, have0 := x0.have0 || ws.any (fun w => w.1 == 0),
                                     mem := ws.foldl (fun t w => Tbl.set t w.1 w.2) x0.mem }
      let s1 := s.setAperture a x1
      let words := (List.range 1024).map (fun i => (Tbl.get? x1.mem i).getD 0#32)
      let len := fld (wAt words 0) 16 16
      if x1.have0 = true ∧ (len < 2 ∨ 1024 < len ∨ len ≤ x1.count) then
        runOpcode (wordsOpcode words) (cmdOf (.aperture a) auth x1.count words) s1
      else s1

/-- A 32-bit write at an aligned offset, in the steps of R551. -/
def write32 (rq off v : Nat) (s : State) : State :=
  if absentAt s.build off then s.evt CAP_ABSENT_HIT 0
  else
    match regAt off with
    | none => s
    | some h =>
      if h.row.wide then tierWrite h (writeHalf rq h v) s else tierWrite h (writeReg h v) s

/-- A 64-bit write as the two 32-bit writes of its halves, the low half first (R553). -/
def writeHalves (rq off v : Nat) (s : State) : State :=
  write32 rq (off + 4) (v / 2 ^ 32) (write32 rq off (v % 2 ^ 32) s)

/-- A 64-bit write at an aligned offset: of a register marked 64 as a whole, else of its two halves (R551, R553). -/
def write64 (rq off v : Nat) (s : State) : State :=
  match regAt off with
  | some h =>
    if h.row.wide = true ∧ h.high = false ∧ absentAt s.build off = false then
      tierWrite h (writeReg h v) s
    else writeHalves rq off v s
  | none => writeHalves rq off v s

/-- A write access. -/
def hostWrite (auth rq off : Nat) (wide : Bool) (v : Nat) (s : State) : State :=
  if s.pins.hrst then s
  else if off % (if wide then 8 else 4) ≠ 0 then s.evt CAP_ACC_ERR 0
  else if 0x10000 ≤ off ∧ off < 0x15000 then
    let w := off % 0x1000 / 4
    let lo := (w, BitVec.ofNat 32 v)
    apertureWords auth ((off - 0x10000) / 0x1000) (if wide then [lo, (w + 1, BitVec.ofNat 32 (v / 2 ^ 32))] else [lo]) s
  else if wide then write64 rq off v s
  else write32 rq off v s

/-- The width of the register at an offset, for an access that names the register as a whole. -/
def wideAt (off : Nat) : Bool := ((regAt off).map (fun h => h.row.wide && !h.high)).getD false

/-- An access of any size (R9): one of neither 4 nor 8 bytes is refused. -/
def hostAccess (rq off : Nat) (write : Bool) (size v : Nat) (s : State) : State :=
  if size = 4 ∨ size = 8 then
    (if write then hostWrite 0 rq off (size == 8) v s else hostRead rq off (size == 8) s)
  else if s.pins.hrst then s
  else
    let t := s.evt CAP_ACC_ERR 0
    if write then t else t.emit (.readData rq off 0)

end Sys2Proof.Machine
end

