-- ==== Sys2Proof/Machine/HostRows.lean ====
section
/-! DEFINITION. The meanings of the rows of the host target port (R9 to R12, R42, R60, R145, R373, R405, R413, R499, R551). Each
takes the access through the steps of R551, whatever offset it is given. -/

namespace Sys2Proof.Machine

/-- APERTURE_WRITE (R405). `ap` and `off` name the aperture and the byte in it. -/
def execApertureWrite (auth rq ap off : Nat) (wide : Bool) (data : DWord) (s : State) : Host.Outcome State Fault Refusal :=
  evNext (fun t => if 5 ≤ ap ∨ 0x1000 ≤ off then t else hostWrite auth rq (0x10000 + 0x1000 * ap + off) wide data.toNat t) s

/-- W1C_WRITE (R12): a write of the register's own width. -/
def execW1cWrite (rq off : Nat) (data : DWord) (s : State) : Host.Outcome State Fault Refusal :=
  evNext (hostWrite 0 rq off (wideAt off) data.toNat) s

/-- RC_READ (R12): a read of the register's own width. -/
def execRcRead (rq off : Nat) (s : State) : Host.Outcome State Fault Refusal := evNext (hostRead rq off (wideAt off)) s

/-- REGISTER_WRITE (R11). -/
def execRegisterWrite (rq off : Nat) (wide : Bool) (data : DWord) (s : State) : Host.Outcome State Fault Refusal :=
  evNext (hostWrite 0 rq off wide data.toNat) s

/-- LOW_HALF_READ (R10). -/
def execLowHalfRead (rq off : Nat) (s : State) : Host.Outcome State Fault Refusal := evNext (hostRead rq off false) s

/-- HIGH_HALF_READ (R10). -/
def execHighHalfRead (rq off : Nat) (s : State) : Host.Outcome State Fault Refusal := evNext (hostRead rq off false) s

/-- LOW_HALF_WRITE (R10). -/
def execLowHalfWrite (rq off : Nat) (data : Word) (s : State) : Host.Outcome State Fault Refusal :=
  evNext (hostWrite 0 rq off false data.toNat) s

/-- HIGH_HALF_WRITE (R10). -/
def execHighHalfWrite (rq off : Nat) (data : Word) (s : State) : Host.Outcome State Fault Refusal :=
  evNext (hostWrite 0 rq off false data.toNat) s

/-- DAT_NOW_CAPTURE (R60). -/
def execDatNowCapture (rq off : Nat) (wide : Bool) (s : State) : Host.Outcome State Fault Refusal := evNext (hostRead rq off wide) s

/-- LIVE_COUNTER_READ (R145). `lanes` is what the pods have counted until the pod edge of the read, `running` whether the pod's
TAP_CLK runs. -/
def execLiveCounterRead (rq off : Nat) (wide running : Bool) (lanes : List TapLane) (s : State) : Host.Outcome State Fault Refusal :=
  evNext (fun t => hostRead rq off wide (podClock off running (countLanes lanes t))) s

/-- COMPUTE_REGISTER_ACCESS (R42). -/
def execComputeRegisterAccess (rq off : Nat) (write wide : Bool) (data : DWord) (s : State) : Host.Outcome State Fault Refusal :=
  evNext (fun t => if write then hostWrite 0 rq off wide data.toNat t else hostRead rq off wide t) s

/-- PIL_DONE_RD_WRITE (R413). -/
def execPilDoneRdWrite (rq : Nat) (data : Word) (s : State) : Host.Outcome State Fault Refusal :=
  evNext (hostWrite 0 rq PIL_DONE_RD.off false data.toNat) s

/-- WAK_DST_RD_WRITE (R373). -/
def execWakDstRdWrite (rq : Nat) (data : DWord) (s : State) : Host.Outcome State Fault Refusal :=
  evNext (hostWrite 0 rq WAK_DST_RD.off true data.toNat) s

/-- WAK_XR_RD_WRITE (R373). -/
def execWakXrRdWrite (rq : Nat) (data : DWord) (s : State) : Host.Outcome State Fault Refusal :=
  evNext (hostWrite 0 rq WAK_XR_RD.off true data.toNat) s

/-- STW_SR_RD_WRITE (R499). -/
def execStwSrRdWrite (rq : Nat) (data : DWord) (s : State) : Host.Outcome State Fault Refusal :=
  evNext (hostWrite 0 rq STW_SR_RD.off true data.toNat) s

/-- REFUSED_ACCESS (R551): an access of any size and alignment. -/
def execRefusedAccess (rq off : Nat) (write : Bool) (size : Nat) (data : DWord) (s : State) : Host.Outcome State Fault Refusal :=
  evNext (hostAccess rq off write size data.toNat) s

end Sys2Proof.Machine
end

