-- ==== Sys2Proof/Machine/MessageRows.lean ====
section
/-! DEFINITION. The meanings of the rows of envelopes, rulings, reservations, alarms, series and Landing (R240 to R261, R347, R348, R412,
R418 to R422, R484 to R511, R558). -/

namespace Sys2Proof.Machine

/-- ENVELOPE_RECEIVE (R419). -/
def execEnvelopeReceive (via : Via) (bytes : List Byte) (s : State) : Host.Outcome State Fault Refusal :=
  evNext (envelopeIn via bytes) s

/-- ENVELOPE_RELAY (R422). -/
def execEnvelopeRelay (via : Via) (bytes : List Byte) (s : State) : Host.Outcome State Fault Refusal :=
  evNext (fun t => if t.isTray then envelopeIn via bytes t else t) s

/-- REPLY_ENVELOPE_RECEIVE (R421). -/
def execReplyEnvelopeReceive (via : Via) (bytes : List Byte) (s : State) : Host.Outcome State Fault Refusal :=
  evNext (envelopeIn via bytes) s

/-- RELAY_ENTRY_TIMEOUT (R422). -/
def execRelayEntryTimeout (entry : Nat) (s : State) : Host.Outcome State Fault Refusal := evNext (relayTimeout entry) s

/-- COMMAND_FINAL_REPLY (R412). -/
def execCommandFinalReply (job : Nat) (s : State) : Host.Outcome State Fault Refusal := evNext (finalReply job) s

/-- RULING_RECEIVE (R253). -/
def execRulingReceive (src parcel : Nat) (bytes : List Byte) (s : State) : Host.Outcome State Fault Refusal :=
  evNext (rulingMsg src parcel bytes) s

/-- RULING_ACK_RECEIVE (R255). -/
def execRulingAckReceive (ack : RulingAck) (s : State) : Host.Outcome State Fault Refusal := evNext (rulingAckIn ack) s

/-- RULING_RESEND_TIMEOUT (R255). `child` is the silent child whose interval has ended. -/
def execRulingResendTimeout (issuer no child : Nat) (s : State) : Host.Outcome State Fault Refusal :=
  evNext (rulingResend issuer no child) s

/-- RULING_EFFECT (R256). -/
def execRulingEffect (issuer no : Nat) (s : State) : Host.Outcome State Fault Refusal :=
  evNext (rulingEffect witPush issuer no) s

/-- RESERVATION_PART_RECEIVE (R244). -/
def execReservationPartReceive (part : ResvPart) (s : State) : Host.Outcome State Fault Refusal :=
  evNext (partReceive part) s

/-- CLAIM_EXCHANGE (R558). -/
def execClaimExchange (msg : ClaimMsg) (s : State) : Host.Outcome State Fault Refusal :=
  evNext (fun t => match msg with
    | .ask e tag via parcel level trays => claimAskIn e tag via parcel level trays t
    | .answer e tag st parcel trays => claimAnswerIn e tag st parcel trays t
    | .failed e tag st parcel gone => claimFailedIn e tag st parcel gone t) s

/-- RESERVATION_RESEND_TIMEOUT (R244). -/
def execReservationResendTimeout (parcel level : Nat) (s : State) : Host.Outcome State Fault Refusal :=
  evNext (resvResend parcel level) s

/-- RESERVATION_LAPSE (R246). -/
def execReservationLapse (parcel : Nat) (s : State) : Host.Outcome State Fault Refusal := evNext (resvLapse parcel) s

/-- STAGED_DEFINITION_EXPIRY (R242). -/
def execStagedDefinitionExpiry (parcel : Nat) (s : State) : Host.Outcome State Fault Refusal := evNext (unstage parcel) s

/-- ALARM_RECEIVE (R348). -/
def execAlarmReceive (src : Nat) (bytes : List Byte) (s : State) : Host.Outcome State Fault Refusal :=
  evNext (alarmReceive src bytes) s

/-- ALARM_HOLD_END (R348). -/
def execAlarmHoldEnd (entry : Nat) (s : State) : Host.Outcome State Fault Refusal := evNext (alarmHoldEnd entry) s

/-- SERIES_RECEIVE (R499); `bytes` is the payload whole, with its CRC (R159). -/
def execSeriesReceive (src parcel : Nat) (bytes : List Byte) (s : State) : Host.Outcome State Fault Refusal :=
  evNext (fun t => if t.isTray then seriesWrite src parcel bytes t else t) s

/-- BULK_EXCERPT_RECEIVE (R380). -/
def execBulkExcerptReceive (src : Nat) (bytes : List Byte) (s : State) : Host.Outcome State Fault Refusal :=
  evNext (excerptReceive src bytes) s

/-- FRAME_RECEIVE (R503). -/
def execFrameReceive (stream : Nat) (bytes : List Byte) (age : Nat) (err : Bool) (s : State) : Host.Outcome State Fault Refusal :=
  evNext (frameReceive landingCellIn stream bytes age err) s

/-- FRAME_TRANSMIT (R504). -/
def execFrameTransmit (stream : Nat) (s : State) : Host.Outcome State Fault Refusal := evNext (frameTransmit stream) s

/-- PTP_RECEIVE (R76). -/
def execPtpReceive (stream : Nat) (bytes : List Byte) (stamp : Nat) (s : State) : Host.Outcome State Fault Refusal :=
  evNext (ptpReceive stream bytes stamp) s

/-- PTP_SYNC_SEND (R75). -/
def execPtpSyncSend (s : State) : Host.Outcome State Fault Refusal := evNext ptpSyncSend s

/-- DELAY_REQ_SEND (R75). -/
def execDelayReqSend (tx : Nat) (s : State) : Host.Outcome State Fault Refusal := evNext (delayReqSend tx) s

/-- BERTH_ALLOCATE (R485). -/
def execBerthAllocate (first : BrtReq) (more : List BrtReq) (freed : List (Nat × Nat)) (s : State) :
    Host.Outcome State Fault Refusal :=
  evNext (brtCycle (first :: more) freed) s

end Sys2Proof.Machine
end

