-- ==== Sys2Proof/Machine/PowerRows.lean ====
section
/-! DEFINITION. The meanings of the rows of resets, boot and power states (R405, R414, R464, R465, R515 to R518, R536, R545, R555). The
edges of the resets act whether or not ZY_PORST_N is asserted. -/

namespace Sys2Proof.Machine

/-- ZY_PORST_N_ASSERT (R516). -/
def execZyPorstNAssert (s : State) : Host.Outcome State Fault Refusal := .next (finish (porstAssert s))

/-- ZY_PORST_N_RELEASE (R545). -/
def execZyPorstNRelease (straps : Straps) (s : State) : Host.Outcome State Fault Refusal :=
  .next (finish (porstRelease straps s))

/-- ZY_CRST_N_ASSERT (R518). -/
def execZyCrstNAssert (s : State) : Host.Outcome State Fault Refusal := .next (finish (crstAssert s))

/-- ZY_CRST_N_RELEASE (R536). -/
def execZyCrstNRelease (bond : BondTest) (s : State) : Host.Outcome State Fault Refusal :=
  .next (finish (crstRelease bond s))

/-- ZY_HRST_N_ASSERT (R414). -/
def execZyHrstNAssert (s : State) : Host.Outcome State Fault Refusal := .next (finish (hrstAssert s))

/-- ZY_HRST_N_RELEASE (R405). -/
def execZyHrstNRelease (s : State) : Host.Outcome State Fault Refusal := .next (finish (hrstRelease s))

/-- PILOT_BOOT (R405). -/
def execPilotBoot (s : State) : Host.Outcome State Fault Refusal := evNext pilotBoots s

/-- POWER_ENTRY (R464). -/
def execPowerEntry (s : State) : Host.Outcome State Fault Refusal := evNext powerEntry s

/-- POWER_EXIT (R465). -/
def execPowerExit (bond : BondTest) (s : State) : Host.Outcome State Fault Refusal := evNext (powerExit bond) s

/-- DOZE_SLEEP_CHANGE (R555). -/
def execDozeSleepChange (s : State) : Host.Outcome State Fault Refusal := evNext dozeSleep s

/-- QUIESCE_RELEASE (R447). -/
def execQuiesceRelease (unit : FltUnit) (s : State) : Host.Outcome State Fault Refusal := evNext (quiesceRelease unit) s

end Sys2Proof.Machine
end

