-- ==== Sys2Proof/Machine/UnitRows.lean ====
section
/-! DEFINITION. The meanings of the rows of faults, power admission, Wake, Witness, Plumb and the Logbook (R356 to R404, R432 to R435, R440
to R481, R525, R539, R541, R543). -/

namespace Sys2Proof.Machine

/-- FAULT_LINE_RISE (R444). -/
def execFaultLineRise (n : Nat) (held : Bool) (s : State) : Host.Outcome State Fault Refusal := evNext (fun t => faultLine n held (if n = 8 then pilotErrs t else t)) s

/-- FAULT_PAIR_INVALID (R441). -/
def execFaultPairInvalid (n : Nat) (lasting : Bool) (s : State) : Host.Outcome State Fault Refusal :=
  evNext (pairInvalid n lasting) s

/-- GRACE_EXPIRY (R444). -/
def execGraceExpiry (n : Nat) (s : State) : Host.Outcome State Fault Refusal := evNext (graceExpiry n) s

/-- QUIET_EXPIRY (R451). -/
def execQuietExpiry (s : State) : Host.Outcome State Fault Refusal := evNext quietExpiry s

/-- CDC_TIMEOUT (R455). -/
def execCdcTimeout (crossing : Nat) (s : State) : Host.Outcome State Fault Refusal := evNext (cdcTimeout crossing) s

/-- HOST_MASTER_ERROR (R525). -/
def execHostMasterError (s : State) : Host.Outcome State Fault Refusal := evNext hostMasterError s

/-- HOLD_READ_ERROR (R541). -/
def execHoldReadError (port : Nat) (s : State) : Host.Outcome State Fault Refusal := evNext (holdReadError port) s

/-- HOLD_TRAINING_LOSS (R539). -/
def execHoldTrainingLoss (port : Nat) (s : State) : Host.Outcome State Fault Refusal := evNext (holdTrainingLoss port) s

/-- LANDING_LINK_DOWN (R543). -/
def execLandingLinkDown (stream : Nat) (s : State) : Host.Outcome State Fault Refusal := evNext (landingDown stream) s

/-- LEAVE_GRANT (R433). -/
def execLeaveGrant (s : State) : Host.Outcome State Fault Refusal := evNext leaveGrant s

/-- LEAVE_WAIT_EXPIRY (R434). -/
def execLeaveWaitExpiry (s : State) : Host.Outcome State Fault Refusal := evNext leaveExpiry s

/-- WAKE_TAP_RECORD (R356). -/
def execWakeTapRecord (tap auth : Nat) (rec : TapRecord) (s : State) : Host.Outcome State Fault Refusal :=
  evNext (tapRecord tap auth rec) s

/-- WAKE_TIMER_EXPIRY (R369). -/
def execWakeTimerExpiry (n : Nat) (s : State) : Host.Outcome State Fault Refusal := evNext (timerExpiry n) s

/-- WAKE_COUNTER_LIMIT (R369). -/
def execWakeCounterLimit (n : Nat) (s : State) : Host.Outcome State Fault Refusal := evNext (counterLimit n) s

/-- WAKE_SYNC_PERIODIC (R365). -/
def execWakeSyncPeriodic (s : State) : Host.Outcome State Fault Refusal := evNext wakSyncDue s

/-- WAKE_DRAIN_UNIT (R372). -/
def execWakeDrainUnit (s : State) : Host.Outcome State Fault Refusal := evNext drainUnit s

/-- WITNESS_DUE (R393). -/
def execWitnessDue (n : Nat) (s : State) : Host.Outcome State Fault Refusal := evNext (witDue n) s

/-- WITNESS_WINDOW_EXPIRY (R393). -/
def execWitnessWindowExpiry (n : Nat) (s : State) : Host.Outcome State Fault Refusal := evNext (witWindow n) s

/-- TEST_GNT_RISE (R394). -/
def execTestGntRise (n : Nat) (s : State) : Host.Outcome State Fault Refusal := evNext (testGntRise n) s

/-- TEST_GNT_FALL (R398). -/
def execTestGntFall (n : Nat) (s : State) : Host.Outcome State Fault Refusal := evNext (testGntFall n) s

/-- WITNESS_RUN_START (R395). -/
def execWitnessRunStart (n : Nat) (s : State) : Host.Outcome State Fault Refusal := evNext (witRunStart n) s

/-- WITNESS_RECORD_RETURN (R396). -/
def execWitnessRecordReturn (eng record : Nat) (bytes : List Byte) (s : State) : Host.Outcome State Fault Refusal :=
  evNext (recordReturn eng record bytes) s

/-- WITNESS_RETURN_TIMEOUT (R396). -/
def execWitnessReturnTimeout (eng : Nat) (bytes : List Byte) (s : State) : Host.Outcome State Fault Refusal :=
  evNext (returnTimeout eng bytes) s

/-- WITNESS_LEAVE_RETRY (R393). -/
def execWitnessLeaveRetry (n : Nat) (s : State) : Host.Outcome State Fault Refusal := evNext (witRetry n) s

/-- WITNESS_STAGING_TIMEOUT (R392). -/
def execWitnessStagingTimeout (n : Nat) (s : State) : Host.Outcome State Fault Refusal := evNext (stagingTimeout n) s

/-- SELF_TEST_DUE (R400). -/
def execSelfTestDue (s : State) : Host.Outcome State Fault Refusal := evNext selfDue s

/-- SELF_TEST_RUN (R400). -/
def execSelfTestRun (cadFails talFails : Bool) (s : State) : Host.Outcome State Fault Refusal :=
  evNext (selfRun cadFails talFails) s

/-- PLUMB_SAMPLE_TICK (R468). -/
def execPlumbSampleTick (ch : Nat) (s : State) : Host.Outcome State Fault Refusal := evNext (sampleTick ch) s

/-- PLUMB_SAMPLE_ANSWER (R469). -/
def execPlumbSampleAnswer (ch : Nat) (data : Nat) (s : State) : Host.Outcome State Fault Refusal :=
  evNext (sampleAnswer ch data) s

/-- PLUMB_SAMPLE_TIMEOUT (R531). -/
def execPlumbSampleTimeout (ch : Nat) (s : State) : Host.Outcome State Fault Refusal := evNext (sampleTimeout ch) s

/-- PLUMB_RULE_TICK (R470). -/
def execPlumbRuleTick (s : State) : Host.Outcome State Fault Refusal := evNext ruleTick s

/-- RULE_FIRE (R471). -/
def execRuleFire (r : Nat) (s : State) : Host.Outcome State Fault Refusal := evNext (ruleFireDue r) s

/-- RULE_GAP_ALARM (R471). -/
def execRuleGapAlarm (r : Nat) (s : State) : Host.Outcome State Fault Refusal := evNext (ruleGapAlarm r) s

/-- LIFE_TICK (R472). -/
def execLifeTick (s : State) : Host.Outcome State Fault Refusal := evNext lifeTick s

/-- LOG_EVENT_WRITE (R477). -/
def execLogEventWrite (s : State) : Host.Outcome State Fault Refusal := evNext logEventWrite s

end Sys2Proof.Machine
end

