-- ==== Sys2Proof/Machine/Dispatch.lean ====
section
/-! DEFINITION. The dispatch: one arm for each constructor of Instr, each a direct call of its meaning. -/

namespace Sys2Proof.Machine

def exec (i : Instr) (s : State) : Host.Outcome State Fault Refusal :=
  match i with
  | .nop c => Sys2Proof.Machine.execNop c s
  | .echo c => Sys2Proof.Machine.execEcho c s
  | .ident c => Sys2Proof.Machine.execIdent c s
  | .pwrSet c => Sys2Proof.Machine.execPwrSet c s
  | .keySet c => Sys2Proof.Machine.execKeySet c s
  | .pilSet c => Sys2Proof.Machine.execPilSet c s
  | .fwPatch c => Sys2Proof.Machine.execFwPatch c s
  | .fwKey c => Sys2Proof.Machine.execFwKey c s
  | .fwRevert c => Sys2Proof.Machine.execFwRevert c s
  | .parcelDefine c => Sys2Proof.Machine.execParcelDefine c s
  | .parcelReserve c => Sys2Proof.Machine.execParcelReserve c s
  | .parcelCommit c => Sys2Proof.Machine.execParcelCommit c s
  | .parcelRelease c => Sys2Proof.Machine.execParcelRelease c s
  | .parcelFree c => Sys2Proof.Machine.execParcelFree c s
  | .parcelCfg c => Sys2Proof.Machine.execParcelCfg c s
  | .rulingIssue c => Sys2Proof.Machine.execRulingIssue c s
  | .stopAt c => Sys2Proof.Machine.execStopAt c s
  | .stopDisarm c => Sys2Proof.Machine.execStopDisarm c s
  | .verdictSet c => Sys2Proof.Machine.execVerdictSet c s
  | .verdictRead c => Sys2Proof.Machine.execVerdictRead c s
  | .verdictSink c => Sys2Proof.Machine.execVerdictSink c s
  | .epochRead c => Sys2Proof.Machine.execEpochRead c s
  | .deadlineSet c => Sys2Proof.Machine.execDeadlineSet c s
  | .strictSet c => Sys2Proof.Machine.execStrictSet c s
  | .absentDeclare c => Sys2Proof.Machine.execAbsentDeclare c s
  | .closurePull c => Sys2Proof.Machine.execClosurePull c s
  | .voteRaise c => Sys2Proof.Machine.execVoteRaise c s
  | .tallySet c => Sys2Proof.Machine.execTallySet c s
  | .probeSet c => Sys2Proof.Machine.execProbeSet c s
  | .tapMap c => Sys2Proof.Machine.execTapMap c s
  | .tapClear c => Sys2Proof.Machine.execTapClear c s
  | .trkSet c => Sys2Proof.Machine.execTrkSet c s
  | .inputSet c => Sys2Proof.Machine.execInputSet c s
  | .platLoad c => Sys2Proof.Machine.execPlatLoad c s
  | .platUnload c => Sys2Proof.Machine.execPlatUnload c s
  | .platKey c => Sys2Proof.Machine.execPlatKey c s
  | .cadSet c => Sys2Proof.Machine.execCadSet c s
  | .scoreRead c => Sys2Proof.Machine.execScoreRead c s
  | .scoreRow c => Sys2Proof.Machine.execScoreRow c s
  | .subspaceLoad c => Sys2Proof.Machine.execSubspaceLoad c s
  | .subspaceUnload c => Sys2Proof.Machine.execSubspaceUnload c s
  | .trnRun c => Sys2Proof.Machine.execTrnRun c s
  | .trnSet c => Sys2Proof.Machine.execTrnSet c s
  | .trnUnfence c => Sys2Proof.Machine.execTrnUnfence c s
  | .trnRead c => Sys2Proof.Machine.execTrnRead c s
  | .wakeCfg c => Sys2Proof.Machine.execWakeCfg c s
  | .wakeArm c => Sys2Proof.Machine.execWakeArm c s
  | .wakeDisarm c => Sys2Proof.Machine.execWakeDisarm c s
  | .wakeTrig c => Sys2Proof.Machine.execWakeTrig c s
  | .wakeSecure c => Sys2Proof.Machine.execWakeSecure c s
  | .wakeSend c => Sys2Proof.Machine.execWakeSend c s
  | .witSet c => Sys2Proof.Machine.execWitSet c s
  | .packLoad c => Sys2Proof.Machine.execPackLoad c s
  | .packDrop c => Sys2Proof.Machine.execPackDrop c s
  | .witKey c => Sys2Proof.Machine.execWitKey c s
  | .engineReport c => Sys2Proof.Machine.execEngineReport c s
  | .testNow c => Sys2Proof.Machine.execTestNow c s
  | .selfNow c => Sys2Proof.Machine.execSelfNow c s
  | .mark c => Sys2Proof.Machine.execMark c s
  | .pulseSet c => Sys2Proof.Machine.execPulseSet c s
  | .timeSet c => Sys2Proof.Machine.execTimeSet c s
  | .servoSet c => Sys2Proof.Machine.execServoSet c s
  | .timeRole c => Sys2Proof.Machine.execTimeRole c s
  | .timeProbe c => Sys2Proof.Machine.execTimeProbe c s
  | .fltSet c => Sys2Proof.Machine.execFltSet c s
  | .fltClear c => Sys2Proof.Machine.execFltClear c s
  | .fltInject c => Sys2Proof.Machine.execFltInject c s
  | .fltDebug c => Sys2Proof.Machine.execFltDebug c s
  | .logClear c => Sys2Proof.Machine.execLogClear c s
  | .logHistSet c => Sys2Proof.Machine.execLogHistSet c s
  | .logFlush c => Sys2Proof.Machine.execLogFlush c s
  | .logSend c => Sys2Proof.Machine.execLogSend c s
  | .plmSet c => Sys2Proof.Machine.execPlmSet c s
  | .powerSet c => Sys2Proof.Machine.execPowerSet c s
  | .stowJob c => Sys2Proof.Machine.execStowJob c s
  | .berthSet c => Sys2Proof.Machine.execBerthSet c s
  | .lndSet c => Sys2Proof.Machine.execLndSet c s
  | .treeSet c => Sys2Proof.Machine.execTreeSet c s
  | .lndGateLoad c => Sys2Proof.Machine.execLndGateLoad c s
  | .lndGateSwap c => Sys2Proof.Machine.execLndGateSwap c s
  | .stationSet c => Sys2Proof.Machine.execStationSet c s
  | .chainSet c => Sys2Proof.Machine.execChainSet c s
  | .splice c => Sys2Proof.Machine.execSplice c s
  | .spliceReq c => Sys2Proof.Machine.execSpliceReq c s
  | .tmtLoad c => Sys2Proof.Machine.execTmtLoad c s
  | .tmtSwap c => Sys2Proof.Machine.execTmtSwap c s
  | .laneUnfence c => Sys2Proof.Machine.execLaneUnfence c s
  | .apertureWrite auth rq ap off wide data => Sys2Proof.Machine.execApertureWrite auth rq ap off wide data s
  | .w1cWrite rq off data => Sys2Proof.Machine.execW1cWrite rq off data s
  | .rcRead rq off => Sys2Proof.Machine.execRcRead rq off s
  | .registerWrite rq off wide data => Sys2Proof.Machine.execRegisterWrite rq off wide data s
  | .lowHalfRead rq off => Sys2Proof.Machine.execLowHalfRead rq off s
  | .highHalfRead rq off => Sys2Proof.Machine.execHighHalfRead rq off s
  | .lowHalfWrite rq off data => Sys2Proof.Machine.execLowHalfWrite rq off data s
  | .highHalfWrite rq off data => Sys2Proof.Machine.execHighHalfWrite rq off data s
  | .datNowCapture rq off wide => Sys2Proof.Machine.execDatNowCapture rq off wide s
  | .liveCounterRead rq off wide running lanes => Sys2Proof.Machine.execLiveCounterRead rq off wide running lanes s
  | .computeRegisterAccess rq off write wide data => Sys2Proof.Machine.execComputeRegisterAccess rq off write wide data s
  | .pilDoneRdWrite rq data => Sys2Proof.Machine.execPilDoneRdWrite rq data s
  | .wakDstRdWrite rq data => Sys2Proof.Machine.execWakDstRdWrite rq data s
  | .wakXrRdWrite rq data => Sys2Proof.Machine.execWakXrRdWrite rq data s
  | .stwSrRdWrite rq data => Sys2Proof.Machine.execStwSrRdWrite rq data s
  | .zyPorstNAssert => Sys2Proof.Machine.execZyPorstNAssert s
  | .zyPorstNRelease straps => Sys2Proof.Machine.execZyPorstNRelease straps s
  | .zyCrstNAssert => Sys2Proof.Machine.execZyCrstNAssert s
  | .zyCrstNRelease bond => Sys2Proof.Machine.execZyCrstNRelease bond s
  | .zyHrstNAssert => Sys2Proof.Machine.execZyHrstNAssert s
  | .zyHrstNRelease => Sys2Proof.Machine.execZyHrstNRelease s
  | .pilotBoot => Sys2Proof.Machine.execPilotBoot s
  | .powerEntry => Sys2Proof.Machine.execPowerEntry s
  | .powerExit bond => Sys2Proof.Machine.execPowerExit bond s
  | .dozeSleepChange => Sys2Proof.Machine.execDozeSleepChange s
  | .timetableCycleStart cyc aligned => Sys2Proof.Machine.execTimetableCycleStart cyc aligned s
  | .containerStart ch dir cyc cont full => Sys2Proof.Machine.execContainerStart ch dir cyc cont full s
  | .containerRelay ch dir cyc cont cell => Sys2Proof.Machine.execContainerRelay ch dir cyc cont cell s
  | .cellReceive ch dir bytes => Sys2Proof.Machine.execCellReceive ch dir bytes s
  | .bulkReqReceive ch src bytes => Sys2Proof.Machine.execBulkReqReceive ch src bytes s
  | .bulkRetentionExpiry ch dir seq => Sys2Proof.Machine.execBulkRetentionExpiry ch dir seq s
  | .timeWordReceive side blocks rx tx => Sys2Proof.Machine.execTimeWordReceive side blocks rx tx s
  | .timeWordReturn ch blocks rx => Sys2Proof.Machine.execTimeWordReturn ch blocks rx s
  | .refTimeout => Sys2Proof.Machine.execRefTimeout s
  | .holdoverExpiry => Sys2Proof.Machine.execHoldoverExpiry s
  | .plumbTrim cycles => Sys2Proof.Machine.execPlumbTrim cycles s
  | .linkDelayRequest ch side tx => Sys2Proof.Machine.execLinkDelayRequest ch side tx s
  | .linkDelayMessageReceive ch side blocks rx tx => Sys2Proof.Machine.execLinkDelayMessageReceive ch side blocks rx tx s
  | .linkDelayTimeout ch side => Sys2Proof.Machine.execLinkDelayTimeout ch side s
  | .laneRequestReceive ch side blocks => Sys2Proof.Machine.execLaneRequestReceive ch side blocks s
  | .blockLockGain ch side lanes => Sys2Proof.Machine.execBlockLockGain ch side lanes s
  | .alignmentLock ch side => Sys2Proof.Machine.execAlignmentLock ch side s
  | .lockingTimeout ch side => Sys2Proof.Machine.execLockingTimeout ch side s
  | .blockLockLoss ch side lane => Sys2Proof.Machine.execBlockLockLoss ch side lane s
  | .alignmentLoss ch side => Sys2Proof.Machine.execAlignmentLoss ch side s
  | .chainCut ch => Sys2Proof.Machine.execChainCut ch s
  | .chainWhole ch => Sys2Proof.Machine.execChainWhole ch s
  | .headless => Sys2Proof.Machine.execHeadless s
  | .spliceAnnReceive bytes pE pW => Sys2Proof.Machine.execSpliceAnnReceive bytes pE pW s
  | .tmtListReceive ch bytes => Sys2Proof.Machine.execTmtListReceive ch bytes s
  | .spliceRequestReceive ch src => Sys2Proof.Machine.execSpliceRequestReceive ch src s
  | .spliceTime ch near => Sys2Proof.Machine.execSpliceTime ch near s
  | .spliceWindowClose ch => Sys2Proof.Machine.execSpliceWindowClose ch s
  | .rollSend ch => Sys2Proof.Machine.execRollSend ch s
  | .rollReceive bytes => Sys2Proof.Machine.execRollReceive bytes s
  | .rollAckReceive ch src bytes => Sys2Proof.Machine.execRollAckReceive ch src bytes s
  | .rollAckTimeout ch pos => Sys2Proof.Machine.execRollAckTimeout ch pos s
  | .linkAlarmReceive ch src bytes => Sys2Proof.Machine.execLinkAlarmReceive ch src bytes s
  | .linkStateReceive bytes => Sys2Proof.Machine.execLinkStateReceive bytes s
  | .epochStrobe parcel lanes => Sys2Proof.Machine.execEpochStrobe parcel lanes s
  | .snapshotDeferredCapture pod lanes => Sys2Proof.Machine.execSnapshotDeferredCapture pod lanes s
  | .snapshotDelivered pod => Sys2Proof.Machine.execSnapshotDelivered pod s
  | .snapshotTimeout pod => Sys2Proof.Machine.execSnapshotTimeout pod s
  | .seriesDiscard parcel => Sys2Proof.Machine.execSeriesDiscard parcel s
  | .gaugeAnswer data => Sys2Proof.Machine.execGaugeAnswer data s
  | .gaugeTimeout => Sys2Proof.Machine.execGaugeTimeout s
  | .tapOnRise pod => Sys2Proof.Machine.execTapOnRise pod s
  | .tapOnFall pod => Sys2Proof.Machine.execTapOnFall pod s
  | .beatEdge n edge => Sys2Proof.Machine.execBeatEdge n edge s
  | .ppsEdge edge => Sys2Proof.Machine.execPpsEdge edge s
  | .pulseEdge n => Sys2Proof.Machine.execPulseEdge n s
  | .stopSlotFire m => Sys2Proof.Machine.execStopSlotFire m s
  | .dieStopRelease => Sys2Proof.Machine.execDieStopRelease s
  | .dieStopAck level => Sys2Proof.Machine.execDieStopAck level s
  | .stopNoack => Sys2Proof.Machine.execStopNoack s
  | .closureReceive src parcel ep degraded bytes => Sys2Proof.Machine.execClosureReceive src parcel ep degraded bytes s
  | .asleepReceive src parcel ep degraded bytes => Sys2Proof.Machine.execAsleepReceive src parcel ep degraded bytes s
  | .resolveReceive src parcel ep degraded bytes => Sys2Proof.Machine.execResolveReceive src parcel ep degraded bytes s
  | .tallyItemComplete => Sys2Proof.Machine.execTallyItemComplete s
  | .closeDeadlineExpiry parcel level => Sys2Proof.Machine.execCloseDeadlineExpiry parcel level s
  | .strictStall parcel level => Sys2Proof.Machine.execStrictStall parcel level s
  | .gateClose parcel level => Sys2Proof.Machine.execGateClose parcel level s
  | .deadlineWindowEnd parcel level => Sys2Proof.Machine.execDeadlineWindowEnd parcel level s
  | .trayClosureSend parcel => Sys2Proof.Machine.execTrayClosureSend parcel s
  | .cadastrePassStart => Sys2Proof.Machine.execCadastrePassStart s
  | .cadastrePassComplete => Sys2Proof.Machine.execCadastrePassComplete s
  | .scoreTimeout parcel ep => Sys2Proof.Machine.execScoreTimeout parcel ep s
  | .transitPassStart => Sys2Proof.Machine.execTransitPassStart s
  | .transitTileComplete => Sys2Proof.Machine.execTransitTileComplete s
  | .transitCheckComplete cols unlocated => Sys2Proof.Machine.execTransitCheckComplete cols unlocated s
  | .transitRunTimeout parcel ep => Sys2Proof.Machine.execTransitRunTimeout parcel ep s
  | .envelopeReceive via bytes => Sys2Proof.Machine.execEnvelopeReceive via bytes s
  | .envelopeRelay via bytes => Sys2Proof.Machine.execEnvelopeRelay via bytes s
  | .replyEnvelopeReceive via bytes => Sys2Proof.Machine.execReplyEnvelopeReceive via bytes s
  | .relayEntryTimeout entry => Sys2Proof.Machine.execRelayEntryTimeout entry s
  | .commandFinalReply job => Sys2Proof.Machine.execCommandFinalReply job s
  | .rulingReceive src parcel bytes => Sys2Proof.Machine.execRulingReceive src parcel bytes s
  | .rulingAckReceive ack => Sys2Proof.Machine.execRulingAckReceive ack s
  | .rulingResendTimeout issuer no child => Sys2Proof.Machine.execRulingResendTimeout issuer no child s
  | .rulingEffect issuer no => Sys2Proof.Machine.execRulingEffect issuer no s
  | .reservationPartReceive part => Sys2Proof.Machine.execReservationPartReceive part s
  | .claimExchange msg => Sys2Proof.Machine.execClaimExchange msg s
  | .reservationResendTimeout parcel level => Sys2Proof.Machine.execReservationResendTimeout parcel level s
  | .reservationLapse parcel => Sys2Proof.Machine.execReservationLapse parcel s
  | .stagedDefinitionExpiry parcel => Sys2Proof.Machine.execStagedDefinitionExpiry parcel s
  | .alarmReceive src bytes => Sys2Proof.Machine.execAlarmReceive src bytes s
  | .alarmHoldEnd entry => Sys2Proof.Machine.execAlarmHoldEnd entry s
  | .seriesReceive src parcel bytes => Sys2Proof.Machine.execSeriesReceive src parcel bytes s
  | .bulkExcerptReceive src bytes => Sys2Proof.Machine.execBulkExcerptReceive src bytes s
  | .frameReceive stream bytes age err => Sys2Proof.Machine.execFrameReceive stream bytes age err s
  | .frameTransmit stream => Sys2Proof.Machine.execFrameTransmit stream s
  | .ptpReceive stream bytes stamp => Sys2Proof.Machine.execPtpReceive stream bytes stamp s
  | .ptpSyncSend => Sys2Proof.Machine.execPtpSyncSend s
  | .berthAllocate first more freed => Sys2Proof.Machine.execBerthAllocate first more freed s
  | .faultLineRise n held => Sys2Proof.Machine.execFaultLineRise n held s
  | .faultPairInvalid n lasting => Sys2Proof.Machine.execFaultPairInvalid n lasting s
  | .graceExpiry n => Sys2Proof.Machine.execGraceExpiry n s
  | .quietExpiry => Sys2Proof.Machine.execQuietExpiry s
  | .cdcTimeout crossing => Sys2Proof.Machine.execCdcTimeout crossing s
  | .hostMasterError => Sys2Proof.Machine.execHostMasterError s
  | .holdReadError port => Sys2Proof.Machine.execHoldReadError port s
  | .holdTrainingLoss port => Sys2Proof.Machine.execHoldTrainingLoss port s
  | .landingLinkDown stream => Sys2Proof.Machine.execLandingLinkDown stream s
  | .leaveGrant => Sys2Proof.Machine.execLeaveGrant s
  | .leaveWaitExpiry => Sys2Proof.Machine.execLeaveWaitExpiry s
  | .wakeTapRecord tap auth rec => Sys2Proof.Machine.execWakeTapRecord tap auth rec s
  | .wakeTimerExpiry n => Sys2Proof.Machine.execWakeTimerExpiry n s
  | .wakeCounterLimit n => Sys2Proof.Machine.execWakeCounterLimit n s
  | .wakeSyncPeriodic => Sys2Proof.Machine.execWakeSyncPeriodic s
  | .wakeDrainUnit => Sys2Proof.Machine.execWakeDrainUnit s
  | .witnessDue n => Sys2Proof.Machine.execWitnessDue n s
  | .witnessWindowExpiry n => Sys2Proof.Machine.execWitnessWindowExpiry n s
  | .testGntRise n => Sys2Proof.Machine.execTestGntRise n s
  | .testGntFall n => Sys2Proof.Machine.execTestGntFall n s
  | .witnessRunStart n => Sys2Proof.Machine.execWitnessRunStart n s
  | .witnessRecordReturn eng record bytes => Sys2Proof.Machine.execWitnessRecordReturn eng record bytes s
  | .witnessReturnTimeout eng bytes => Sys2Proof.Machine.execWitnessReturnTimeout eng bytes s
  | .witnessLeaveRetry n => Sys2Proof.Machine.execWitnessLeaveRetry n s
  | .witnessStagingTimeout n => Sys2Proof.Machine.execWitnessStagingTimeout n s
  | .selfTestDue => Sys2Proof.Machine.execSelfTestDue s
  | .selfTestRun cadFails talFails => Sys2Proof.Machine.execSelfTestRun cadFails talFails s
  | .plumbSampleTick ch => Sys2Proof.Machine.execPlumbSampleTick ch s
  | .plumbSampleAnswer ch data => Sys2Proof.Machine.execPlumbSampleAnswer ch data s
  | .plumbSampleTimeout ch => Sys2Proof.Machine.execPlumbSampleTimeout ch s
  | .plumbRuleTick => Sys2Proof.Machine.execPlumbRuleTick s
  | .ruleFire r => Sys2Proof.Machine.execRuleFire r s
  | .ruleGapAlarm r => Sys2Proof.Machine.execRuleGapAlarm r s
  | .lifeTick => Sys2Proof.Machine.execLifeTick s
  | .logEventWrite => Sys2Proof.Machine.execLogEventWrite s
  | .refusedAccess rq off write size data => Sys2Proof.Machine.execRefusedAccess rq off write size data s
  | .ppsMiss => Sys2Proof.Machine.execPpsMiss s
  | .delayReqSend tx => Sys2Proof.Machine.execDelayReqSend tx s
  | .quiesceRelease unit => Sys2Proof.Machine.execQuiesceRelease unit s

end Sys2Proof.Machine
end

