-- ==== Sys2Proof/Machine/Step.lean ====
section
/-! DEFINITION. One step: the command at the front of the queue, or one edge of DAT_CLK where none waits. -/

namespace Sys2Proof.Machine

/-- One edge of DAT_CLK (R58). DESIGN CHOICE: on an empty queue the block does what an edge of the clock brings about; in reset the
clock stands still. -/
def idle (s : State) : State := if s.pins.por then s else datEdge s

/-- One step: the command in front, on the state with the rest of the queue; with no command waiting, `idle`. -/
def step (s : State) : Host.Outcome State Fault Refusal :=
  match s.pending with
  | [] => .next (idle s)
  | c :: cs => exec c { s with pending := cs }

/-- `s` with the command that a table word spells put at the front of its queue; `s` itself where the word spells none. -/
def State.withFetchWord (s : State) (nbits w : Nat) : State :=
  match decodeTableWord nbits w with
  | some c => { s with pending := c :: s.pending }
  | none => s

end Sys2Proof.Machine
end

