-- ==== Sys2Proof/Machine/Signals.lean ====
section
/-! DEFINITION. The levels of the block's output signals that follow from its state (R119, R355, R384, R393, R415, R433, R450,
R461, R528, R529, R533). What leaves as an event (a row, a cell, a frame, a pulse, a request) is in `State.out`. -/

namespace Sys2Proof.Machine

/-- ZY_IRQ[k]: 0 follows PIL_EVT[5:0] (R415), 1 EPO_VRD_EVT.NEW (R355), 2 FLT_EVT[4:0] (R461), 3 WAK_EVT's IRQ, DST_LVL, LOSS
and END (R384). -/
def State.irq (s : State) (k : Nat) : Bool :=
  if k = 0 then s.getF PIL_EVT 0 6 != 0
  else if k = 1 then s.getB EPO_VRD_EVT 0
  else if k = 2 then s.getF FLT_EVT 0 5 != 0
  else if k = 3 then s.getB WAK_EVT 0 || s.getB WAK_EVT 1 || s.getB WAK_EVT 2 || s.getB WAK_EVT 5
  else false

/-- ZY_ERR_N is driven low (R450), or forced so by an injection (R453); released else. -/
def State.errDriven (s : State) : Bool := s.getB FLT_STATE 1 || decide (s.dat.edges < s.flt.errUntil)

/-- ZY_ERR_P, which only a tray build has: high where ZY_ERR_N is driven (R450). -/
def State.errP (s : State) : Bool := s.isTray && s.errDriven

/-- FORD_HOLD of a chain (R119, R130). -/
def State.fordHold (s : State) (ch : Nat) : Bool := s.getB (CHN_STATUS ch) 13

/-- DIE_STOP (R533). -/
def State.dieStopOut (s : State) : Bool := s.dat.dieStop

/-- LEAVE_REQ (R433). -/
def State.leaveReq (s : State) : Bool := !s.adm.queue.isEmpty

/-- LEAVE_CLASS: the presented request's class, 0 while LEAVE_REQ is low (R433). -/
def State.leaveClass (s : State) : Nat := (s.adm.queue.head?.map (·.cls)).getD 0

/-- LEAVE_AMT: H while LEAVE_REQ is low, the amount presented while it is high (R433). -/
def State.leaveAmt (s : State) : Nat := (s.leaveShown.map (·.2)).getD s.leaveHeld

/-- FENCE_REQ[n] (R393). -/
def State.fenceReq (s : State) (n : Nat) : Bool := bit (s.rd WIT_FENCE_REQ) n

end Sys2Proof.Machine
end

