-- ==== Sys2Proof/Safety.lean ====
section
/-! DEFINITION. What a safe run and a sound state of the block are, and how a command passes through Pilot, in the terms
the statements use. -/

namespace Sys2Proof.Machine

/-- A step is safe where it answers a next state: it neither faults nor refuses. -/
def safeStep (s : State) : Bool :=
  match step s with
  | .next _ => true
  | _ => false

/-- Nothing is left over from a step: no consequence of it waits, and Landing's part has sent what it queued. -/
def Quiet (s : State) : Prop := s.todo = [] ∧ (s.chain 2).txq = []

/-- The state is in canonical form: registers and both memories list their entries in rising order, and the memories list
no blank byte. -/
def Canonical (s : State) : Prop := Tbl.wf s.regs = true ∧ memWf s.hostMem = true ∧ memWf s.holdMem = true

/-- The state in which a launched command's own part begins: its aperture is BUSY (R405), or one remote command more is
counted (R419); PIL_CMDS has counted it (R409). -/
def opened (c : Cmd) (s : State) : State :=
  match c.src with
  | .aperture a => (s.setAperture a { st := .busy, count := 0, have0 := false, mem := [], reply := [] }).inc PIL_CMDS 1
  | .remote _ _ _ => (s.inc PIL_REMOTE 1).inc PIL_CMDS 1

/-- Pilot is free: no command holds its Pilot phase, and none waits for one (R411). -/
def PilotFree (s : State) : Prop := s.pilotHeld = false ∧ s.pil.launchQ = []

/-- A command reaches Pilot: the block is out of reset and Pilot has booted and is free, and an aperture that carries it is
one of the five, not BUSY, with ZY_HRST_N released, at level 3 for aperture 4 (R405, R407, R411, R414). -/
def Reaches (c : Cmd) (s : State) : Prop :=
  s.pins.por = false ∧ s.pil.booted = true ∧ PilotFree s ∧
    ∀ a, c.src = .aperture a → s.pins.hrst = false ∧ a < 5 ∧ (a = 4 → c.level = 3) ∧ (s.aperture a).st ≠ .busy

/-- A command of the row `o` of the opcode table runs: it reaches Pilot, passes checks 1 to 5 (R409), and its unit is
powered and not fenced off (R43, R537). Its own part begins in `u`. -/
def Runs (o : OpInfo) (c : Cmd) (s u : State) : Prop :=
  Reaches c s ∧ headerFault o c u = none ∧ (o.compute = true → u.getB PLM_POWER 2 = false ∧ u.computeOff = false) ∧
    u = opened c s

/-- The step's end for a command that is answered with a status and results. -/
def concluded (o : OpInfo) (c : Cmd) (status : Nat) (results : List Word) (t : State) : State :=
  finish (sendReply false true c o.code status results t)

/-- The step's end for a command that its own part refuses (R409, check 6): PIL_REFUSED counts it. -/
def turnedAway (o : OpInfo) (c : Cmd) (status : Nat) (results : List Word) (t : State) : State :=
  concluded o c status results (t.inc PIL_REFUSED 1)

/-- The step's end for a command that has started and waits (R411, R412). -/
def begun (o : OpInfo) (c : Cmd) (phase : JobPhase) (data : JobData) (t : State) : State := finish (startJob o c phase data t)

/-- The step's end for a command that has done its work in this step: its final reply follows its ACCEPTED reply where it
asked for one, and is its only reply elsewhere (R411, R412). -/
def ended (o : OpInfo) (c : Cmd) (status : Nat) (results : List Word) (t : State) : State :=
  if c.asyncOk then begun o c (.done status results) .plain t else concluded o c status results t

/-- The step's end for a command that issues a ruling: the ruling is issued (R251), and the command has its final reply with
the ruling's counts once every acknowledgement is in (R261). -/
def rulingSent (o : OpInfo) (c : Cmd) (r : Ruling) (t : State) : State :=
  let v := issueRuling (.job t.pil.nextJob) r t
  match v.seen? t.station (t.rd RUL_NEXT) with
  | some x => if x.acked then ended o c 0x00 (rulingCounts x) v else begun o c .waiting .plain v
  | none => begun o c .waiting .plain v

/-- The block is out of reset and nothing of an earlier step is left over. -/
def Running (s : State) : Prop := s.pins.por = false ∧ Quiet s

/-- The host target port answers: the block runs and ZY_HRST_N is released (R519). -/
def PortOpen (s : State) : Prop := Running s ∧ s.pins.hrst = false

/-- An access of a register `h` as a whole: `off` is its offset, in no range that the build lacks and in no aperture or live
counter, aligned for its width, in a tier that is powered and not held in reset (R9, R42, R551, R553). -/
def Names (s : State) (off : Nat) (h : RegHit) : Prop :=
  regAt off = some h ∧ h.high = false ∧ absentAt s.build off = false ∧ s.sleepHit h = false ∧ s.heldHit h = false ∧
    off % (if h.row.wide then 8 else 4) = 0 ∧ ¬(0x10000 ≤ off ∧ off < 0x15000) ∧ ¬(0x100000 ≤ off ∧ off < 0x180000)

/-- The opcode and the command of a row that is a Pilot command (R425). -/
def commandOf (i : Instr) : Option (Nat × Cmd) :=
  match i with
  | .nop c => some (0x00, c)
  | .echo c => some (0x01, c)
  | .ident c => some (0x02, c)
  | .pwrSet c => some (0x03, c)
  | .keySet c => some (0x04, c)
  | .pilSet c => some (0x05, c)
  | .fwPatch c => some (0xF0, c)
  | .fwKey c => some (0xF1, c)
  | .fwRevert c => some (0xF2, c)
  | .parcelDefine c => some (0x10, c)
  | .parcelReserve c => some (0x11, c)
  | .parcelCommit c => some (0x12, c)
  | .parcelRelease c => some (0x13, c)
  | .parcelFree c => some (0x14, c)
  | .parcelCfg c => some (0x15, c)
  | .rulingIssue c => some (0x80, c)
  | .stopAt c => some (0x81, c)
  | .stopDisarm c => some (0x82, c)
  | .verdictSet c => some (0x16, c)
  | .verdictRead c => some (0x17, c)
  | .verdictSink c => some (0x1F, c)
  | .epochRead c => some (0x18, c)
  | .deadlineSet c => some (0x19, c)
  | .strictSet c => some (0x1A, c)
  | .absentDeclare c => some (0x1B, c)
  | .closurePull c => some (0x1C, c)
  | .voteRaise c => some (0x1D, c)
  | .tallySet c => some (0x1E, c)
  | .probeSet c => some (0x20, c)
  | .tapMap c => some (0x21, c)
  | .tapClear c => some (0x22, c)
  | .trkSet c => some (0x23, c)
  | .inputSet c => some (0x24, c)
  | .platLoad c => some (0x30, c)
  | .platUnload c => some (0x31, c)
  | .platKey c => some (0x32, c)
  | .cadSet c => some (0x33, c)
  | .scoreRead c => some (0x34, c)
  | .scoreRow c => some (0x35, c)
  | .subspaceLoad c => some (0x40, c)
  | .subspaceUnload c => some (0x41, c)
  | .trnRun c => some (0x42, c)
  | .trnSet c => some (0x43, c)
  | .trnUnfence c => some (0x44, c)
  | .trnRead c => some (0x45, c)
  | .wakeCfg c => some (0x50, c)
  | .wakeArm c => some (0x51, c)
  | .wakeDisarm c => some (0x52, c)
  | .wakeTrig c => some (0x53, c)
  | .wakeSecure c => some (0x54, c)
  | .wakeSend c => some (0x55, c)
  | .witSet c => some (0x60, c)
  | .packLoad c => some (0x61, c)
  | .packDrop c => some (0x62, c)
  | .witKey c => some (0x63, c)
  | .engineReport c => some (0x64, c)
  | .testNow c => some (0x65, c)
  | .selfNow c => some (0x66, c)
  | .mark c => some (0x70, c)
  | .pulseSet c => some (0x71, c)
  | .timeSet c => some (0x72, c)
  | .servoSet c => some (0x73, c)
  | .timeRole c => some (0x74, c)
  | .timeProbe c => some (0x75, c)
  | .fltSet c => some (0x90, c)
  | .fltClear c => some (0x91, c)
  | .fltInject c => some (0x92, c)
  | .fltDebug c => some (0x93, c)
  | .logClear c => some (0xA0, c)
  | .logHistSet c => some (0xA1, c)
  | .logFlush c => some (0xA2, c)
  | .logSend c => some (0xA3, c)
  | .plmSet c => some (0xA4, c)
  | .powerSet c => some (0xA5, c)
  | .stowJob c => some (0xB0, c)
  | .berthSet c => some (0xB1, c)
  | .lndSet c => some (0xB2, c)
  | .treeSet c => some (0xB3, c)
  | .lndGateLoad c => some (0xB4, c)
  | .lndGateSwap c => some (0xB5, c)
  | .stationSet c => some (0xC0, c)
  | .chainSet c => some (0xC1, c)
  | .splice c => some (0xC2, c)
  | .spliceReq c => some (0xC3, c)
  | .tmtLoad c => some (0xC4, c)
  | .tmtSwap c => some (0xC5, c)
  | .laneUnfence c => some (0xC6, c)
  | _ => none

/-- The rows that are edges of the reset inputs (R515). -/
def isResetPin (i : Instr) : Bool :=
  match i with
  | .zyPorstNAssert | .zyPorstNRelease _ | .zyCrstNAssert | .zyCrstNRelease _ | .zyHrstNAssert | .zyHrstNRelease => true
  | _ => false

end Sys2Proof.Machine
end

