-- ==== Sys2Proof/Certificates/Slice0/Obligations.lean ====
section
/-! DEFINITION. The statements for the provers. Each completion statement gives the whole next state of its rows, so it is
their frame as well: what its right side does not change is unchanged. Rules are cited as R<n> of spec/. -/

set_option autoImplicit false

open Sys2Proof Sys2Proof.Machine

/-- Pilot's own commands (R426, R430, R438): NOP, ECHO, IDENT, PWR_SET, KEY_SET, PIL_SET, FW_KEY and FW_REVERT, each run to
its OK reply and its whole new state. -/
def Obligations.PilotOwnCommandsComplete : Prop :=
  (∀ c s u, Runs opNop c s u → exec (.nop c) s = .next (concluded opNop c 0x00 [] u)) ∧
  (∀ c s u, Runs opEcho c s u → exec (.echo c) s = .next (concluded opEcho c 0x00 c.params u)) ∧
  (∀ c s u, Runs opIdent c s u → exec (.ident c) s = .next (concluded opIdent c 0x00
    [w32 (u.rd CAP_ID), w32 (u.rd CHN_STATION), w32 (u.rd PIL_FW), w32 (u.rd CAP_UNITS),
      w32 (u.datState + b2n u.datValid * 2 ^ 4 + b2n (u.getB EPO_CTL 0) * 2 ^ 8), w32 u.powerState] u)) ∧
  (∀ c s u, Runs opPwrSet c s u → c.f 2 0 16 ≠ 0 → c.f 2 16 16 = 0 → c.f 4 11 21 = 0 →
    (if u.isTray then c.f 3 16 16 ≠ 0 ∧ c.f 3 11 5 = 0 else c.w 3 = 0) →
    exec (.pwrSet c) s = .next (concluded opPwrSet c 0x00 []
      (((u.wr PWR_CTL (c.w 2)).wr PWR_HOLD_CFG (c.w 3)).wr PWR_STOW_CFG (c.w 4)))) ∧
  (∀ c s u, Runs opKeySet c s u → bit (c.w 2) 8 = true → c.f 3 0 16 ≠ 0 →
    (∀ i, i < 8 → i ≠ c.f 2 0 3 → u.getB (PIL_KEY_ID i) 31 = true → u.getF (PIL_KEY_ID i) 0 16 ≠ c.f 3 0 16) →
    ¬(u.getB PIL_CTL 7 = true ∧ u.getF PIL_CTL 0 3 = c.f 2 0 3) →
    exec (.keySet c) s = .next (concluded opKeySet c 0x00 []
      (let v := (dropSlotReplay (c.f 2 0 3) u).wr (PIL_KEY_ID (c.f 2 0 3)) (2 ^ 31 + c.f 2 4 2 * 2 ^ 28 + c.f 3 0 16)
       { v with pil := { v.pil with
          keys := Tbl.set v.pil.keys (c.f 2 0 3) (wordsBytes ((c.params.drop 2).take 8)) } }))) ∧
  (∀ c s u, Runs opKeySet c s u → bit (c.w 2) 8 = false → ¬(u.getB PIL_CTL 7 = true ∧ u.getF PIL_CTL 0 3 = c.f 2 0 3) →
    exec (.keySet c) s = .next (concluded opKeySet c 0x00 []
      (let v := (dropSlotReplay (c.f 2 0 3) u).wr (PIL_KEY_ID (c.f 2 0 3)) 0
       { v with pil := { v.pil with keys := Tbl.erase v.pil.keys (c.f 2 0 3) } }))) ∧
  (∀ c s u, Runs opPilSet c s u → c.f 2 16 16 ≠ 0 → c.f 2 8 8 = 0 → c.f 2 3 4 = 0 →
    (bit (c.w 2) 7 = true → u.getB (PIL_KEY_ID (c.f 2 0 3)) 31 = true) →
    exec (.pilSet c) s = .next (concluded opPilSet c 0x00 [] (u.wr PIL_CTL (c.w 2)))) ∧
  (∀ c s u, Runs opFwKey c s u → (bit (c.w 2) 1 = true → p256OnCurve (keyPoint (keyBytes c)) = true) →
    exec (.fwKey c) s = .next (concluded opFwKey c 0x00 []
      (({ u with pil := { u.pil with fwKey := if bit (c.w 2) 1 then keyBytes c else [] } } : State).wr PIL_FW_KEY_CTL
        (b2n (bit (c.w 2) 1))))) ∧
  (∀ c s u, Runs opFwRevert c s u → u.fwBusy c = false →
    exec (.fwRevert c) s = .next (concluded opFwRevert c 0x00 []
      { u.setF PIL_FW 16 16 0 with pil := { u.pil with patch := [] } }))

/-- Pilot's own commands are refused as R426, R430 and R438 say: BAD_PARAM for a field out of range, BUSY_CONTEXT for the slot
of the node key or while Pilot has other work; nothing but PIL_REFUSED and the reply changes. -/
def Obligations.PilotOwnCommandsRefuse : Prop :=
  (∀ c s u, Runs opPwrSet c s u →
    (c.f 2 0 16 = 0 ∨ c.f 2 16 16 ≠ 0 ∨ c.f 4 11 21 ≠ 0 ∨
      (if u.isTray then c.f 3 16 16 = 0 ∨ c.f 3 11 5 ≠ 0 else c.w 3 ≠ 0)) →
    exec (.pwrSet c) s = .next (turnedAway opPwrSet c 0x12 [] u)) ∧
  (∀ c s u, Runs opKeySet c s u → bit (c.w 2) 8 = true →
    (c.f 3 0 16 = 0 ∨ ∃ i, i < 8 ∧ i ≠ c.f 2 0 3 ∧ u.getB (PIL_KEY_ID i) 31 = true ∧ u.getF (PIL_KEY_ID i) 0 16 = c.f 3 0 16) →
    exec (.keySet c) s = .next (turnedAway opKeySet c 0x12 [] u)) ∧
  (∀ c s u, Runs opKeySet c s u → bit (c.w 2) 8 = true → c.f 3 0 16 ≠ 0 →
    (∀ i, i < 8 → i ≠ c.f 2 0 3 → u.getB (PIL_KEY_ID i) 31 = true → u.getF (PIL_KEY_ID i) 0 16 ≠ c.f 3 0 16) →
    u.getB PIL_CTL 7 = true → u.getF PIL_CTL 0 3 = c.f 2 0 3 →
    exec (.keySet c) s = .next (turnedAway opKeySet c 0x21 [] u)) ∧
  (∀ c s u, Runs opKeySet c s u → bit (c.w 2) 8 = false → u.getB PIL_CTL 7 = true → u.getF PIL_CTL 0 3 = c.f 2 0 3 →
    exec (.keySet c) s = .next (turnedAway opKeySet c 0x21 [] u)) ∧
  (∀ c s u, Runs opPilSet c s u →
    (c.f 2 16 16 = 0 ∨ c.f 2 8 8 ≠ 0 ∨ c.f 2 3 4 ≠ 0 ∨
      (bit (c.w 2) 7 = true ∧ u.getB (PIL_KEY_ID (c.f 2 0 3)) 31 = false)) →
    exec (.pilSet c) s = .next (turnedAway opPilSet c 0x12 [] u)) ∧
  (∀ c s u, Runs opFwKey c s u → bit (c.w 2) 1 = true → p256OnCurve (keyPoint (keyBytes c)) = false →
    exec (.fwKey c) s = .next (turnedAway opFwKey c 0x12 [] u)) ∧
  (∀ c s u, Runs opFwRevert c s u → u.fwBusy c = true →
    exec (.fwRevert c) s = .next (turnedAway opFwRevert c 0x21 [] u)) ∧
  (∀ c s u, Runs opFwPatch c s u → c.w 4 ≠ 0 → u.fwBusy c = true →
    exec (.fwPatch c) s = .next (turnedAway opFwPatch c 0x21 [] u))

/-- FW_PATCH (R429): on a tray build an image above PWR_HOLD_CFG.THR waits for leave (R432); any patch is then discarded, the image
is read, and the first check it fails names the refusal; an image that passes every check is installed and PIL_FW shows its
version. The model's choices (log 88): an image that cannot be read (R541) answers TIMEOUT with the patch discarded, and the bounds
and multiples that R428 gives an image are judged as check 3. -/
def Obligations.FirmwarePatchChecked : Prop :=
  (∀ c s u, Runs opFwPatch c s u → c.w 4 = 0 → exec (.fwPatch c) s = .next (turnedAway opFwPatch c 0x11 [] u)) ∧
  (∀ c s u, Runs opFwPatch c s u → c.w 4 ≠ 0 → u.fwBusy c = false → u.holdAsks (c.w 4) = true →
    exec (.fwPatch c) s = .next (begun opFwPatch c (.waitLeave 0) .plain
      (askLeave 5 (u.pwrClass PWR_HOLD_CFG) (u.pwrAmt PWR_HOLD_CFG) (.hold u.pil.nextJob) u))) ∧
  (∀ c s u, Runs opFwPatch c s u → c.w 4 ≠ 0 → u.fwBusy c = false → u.holdAsks (c.w 4) = false →
    ∀ v, loadBytes (c.w64 2) (c.w 4) { u.setF PIL_FW 16 16 0 with pil := { u.pil with patch := [] } } = (none, v) →
      exec (.fwPatch c) s = .next (ended opFwPatch c 0x30 [] v)) ∧
  (∀ c s u, Runs opFwPatch c s u → c.w 4 ≠ 0 → u.fwBusy c = false → u.holdAsks (c.w 4) = false →
    ∀ v b, loadBytes (c.w64 2) (c.w 4) { u.setF PIL_FW 16 16 0 with pil := { u.pil with patch := [] } } = (some b, v) →
      let code := patchCheck (v.getF PIL_FW 0 16) b.length v.fwKeyPoint b
      let told := (logEvent 0x60 (leBytes 1 code ++ zeros 1 ++ leBytes 2 (leAt b 6 2)) (v.evt PIL_EVT 9)).inc PIL_REFUSED 1
      (code = 0 → exec (.fwPatch c) s = .next (ended opFwPatch c 0x00 [w32 (leAt b 6 2)]
        { v.setF PIL_FW 16 16 (leAt b 6 2) with pil := { v.pil with patch := b } })) ∧
      (code = 8 → exec (.fwPatch c) s = .next (ended opFwPatch c 0x13 [] told)) ∧
      (code ≠ 0 → code ≠ 8 → exec (.fwPatch c) s = .next (ended opFwPatch c 0x12 [w32 code] told)))

/-- The parcel commands (R240 to R249, R560, R261) on the operands they accept: the staged definition written or cleared, the
reservation begun, the commit and release rulings issued, the context freed, PAR_CTL and RUL_LEAD written. PARCEL_RELEASE of a
parcel that is RESERVED answers four zero counts, and the one that asked for the reservation is told BUSY_CONTEXT: the model's
choice (log 71), since R249 gives no counts for it. -/
def Obligations.ParcelCommandsComplete : Prop :=
  (∀ c s u, Runs opParcelDefine c s u → c.f 2 0 2 = 0 → c.f 3 0 10 = 0 →
    exec (.parcelDefine c) s = .next (concluded opParcelDefine c 0x00 []
      { u with par := { u.par with staged := u.par.staged.filter (fun d => d.parcel != c.parcel) } })) ∧
  (∀ c s u, Runs opParcelDefine c s u → (c.f 2 0 2 = 1 ∨ c.f 2 0 2 = 2) → c.f 3 0 10 ≠ 0 → c.f 3 0 10 ≤ 510 →
    ∀ old, old = (u.staged? c.parcel).getD { parcel := c.parcel, probes := [], members := [] } →
    ∀ new, new = (if c.f 2 0 2 = 1 then old.probes else old.members).take (c.f 2 16 16) ++ defineEntries c →
    c.f 2 16 16 ≤ (if c.f 2 0 2 = 1 then old.probes else old.members).length →
    new.length ≤ (if c.f 2 0 2 = 1 then 256 else if u.isTray then 16384 else 1) →
    ascending (new.map (fun e => if c.f 2 0 2 = 1 then fld e.1 0 10 else memTray e)) = true →
    ((u.staged? c.parcel).isSome ∨ u.par.staged.length < (if u.isTray then 4 else 1)) →
    exec (.parcelDefine c) s = .next (concluded opParcelDefine c 0x00 []
      { u with par := { u.par with
          staged := u.par.staged.filter (fun d => d.parcel != c.parcel) ++
            [if c.f 2 0 2 = 1 then { old with probes := new } else { old with members := new }] } })) ∧
  (∀ c s u d, Runs opParcelReserve c s u → u.staged? c.parcel = some d → c.w 2 ≠ 0 → (u.resvLevel d.entries).isSome →
    (∀ x ∈ u.par.claims, x.parcel = c.parcel → x.only = true) →
    exec (.parcelReserve c) s = .next (begun opParcelReserve c .waiting .plain
      { u with todo := u.todo ++ [.reserve u.pil.nextJob c.parcel (c.w 2) (c.f 3 0 2)] })) ∧
  (∀ c s u t n x y, Runs opParcelCommit c s u → c.time 2 = some t → (u.ruleLead : Int) ≤ timeDiff t u.now →
    u.ctxHigh c.parcel = some y → u.ctxPub c.parcel = some (n, x) → x.phase = .reserved → x.resvOk = true →
    exec (.parcelCommit c) s = .next (rulingSent opParcelCommit c
      { no := 0, kind := 8, atEpoch := false, fleet := false, effect := t, issuer := 0, level := x.level,
        parcel := c.parcel, body := [] } u)) ∧
  (∀ c s u n x y, Runs opParcelRelease c s u → u.ctxHigh c.parcel = some y → u.ctxPub c.parcel = some (n, x) →
    x.phase = .reserved →
    exec (.parcelRelease c) s = .next (ended opParcelRelease c 0x00 [0#32, 0#32, 0#32, 0#32]
      (refuseAsker x.asker c.parcel 0x21 (freeParcel n false u)))) ∧
  (∀ c s u n x y r, Runs opParcelRelease c s u → u.ctxHigh c.parcel = some y → u.ctxPub c.parcel = some (n, x) →
    x.phase ≠ .reserved → x.phase ≠ .releasing → x.phase ≠ .draining →
    r = ({ no := 0, kind := 9, atEpoch := true, fleet := false, effect := c.epoch 2, issuer := 0, level := x.level,
           parcel := c.parcel, body := [] } : Ruling) → u.leadShort r = false →
    exec (.parcelRelease c) s = .next (rulingSent opParcelRelease c r u)) ∧
  (∀ c s u y, Runs opParcelFree c s u → u.ctxHigh c.parcel = some y → (y.2.isLive = true → bit (c.w 2) 0 = true) →
    exec (.parcelFree c) s = .next (concluded opParcelFree c 0x00 [] (freeParcel y.1 (bit (c.w 2) 0) u))) ∧
  (∀ c s u, Runs opParcelCfg c s u → c.f 2 16 16 ≠ 0 → c.f 2 10 6 = 0 → c.f 2 0 10 ≠ 0 → c.f 3 24 8 = 0 →
    10 ≤ c.f 3 0 24 → c.f 3 0 24 ≤ 10000000 →
    exec (.parcelCfg c) s = .next (concluded opParcelCfg c 0x00 [] ((u.wr PAR_CTL (c.w 2)).wr RUL_LEAD (c.w 3))))

/-- RULING_ISSUE, STOP_AT and STOP_DISARM (R254, R257 to R259, R261) on the operands they accept, and TOO_LATE and NO_SPACE where
a ruling's lead is short or no stop slot is free. -/
def Obligations.RulingCommandsComplete : Prop :=
  (∀ c s u r, Runs (opRulingIssue c) c s u → rulingCmdBad c u = false → rulingOfCmd c u = some r → u.leadShort r = false →
    exec (.rulingIssue c) s = .next (rulingSent (opRulingIssue c) c r
      (if r.kind = 1 ∧ u.bodyBad r = false then noteExtBars r u else u))) ∧
  (∀ c s u r, Runs (opRulingIssue c) c s u → rulingCmdBad c u = false → rulingOfCmd c u = some r → u.leadShort r = true →
    exec (.rulingIssue c) s = .next (turnedAway (opRulingIssue c) c 0x14 [] u)) ∧
  (∀ c s u, Runs (opRulingIssue c) c s u → (rulingCmdBad c u = true ∨ rulingOfCmd c u = none) →
    exec (.rulingIssue c) s = .next (turnedAway (opRulingIssue c) c 0x12 [] u)) ∧
  (∀ c s u t m, Runs opStopAt c s u → c.time 2 = some t → (1000 * 2 ^ 32 : Int) ≤ timeDiff t u.now →
    m < 4 → u.getB (DAT_STOP_CTL m) 0 = false → (∀ k, k < m → u.getB (DAT_STOP_CTL k) 0 = true) →
    exec (.stopAt c) s = .next (concluded opStopAt c 0x00 [w32 m]
      (((u.wr (DAT_STOP_SUB m) (timeSub t)).wr (DAT_STOP_SEC m) (timeSec t)).wr (DAT_STOP_CTL m) 1))) ∧
  (∀ c s u t, Runs opStopAt c s u → c.time 2 = some t → timeDiff t u.now < (1000 * 2 ^ 32 : Int) →
    exec (.stopAt c) s = .next (turnedAway opStopAt c 0x14 [] u)) ∧
  (∀ c s u t, Runs opStopAt c s u → c.time 2 = some t → (1000 * 2 ^ 32 : Int) ≤ timeDiff t u.now →
    (∀ m, m < 4 → u.getB (DAT_STOP_CTL m) 0 = true) →
    exec (.stopAt c) s = .next (turnedAway opStopAt c 0x22 [] u)) ∧
  (∀ c s u ms, Runs opStopDisarm c s u → ms = (setBits 4 (c.w 2)).filter (fun m => u.getB (DAT_STOP_CTL m) 0) →
    exec (.stopDisarm c) s = .next (concluded opStopDisarm c 0x00 [w32 (maskOf ms)]
      (u.each ms (fun m t => t.wr (DAT_STOP_CTL m) 0))))

/-- The commands on epochs, Tally and verdicts (R182, R183, R196, R198, R205, R237, R349, R353) on the operands they accept; a long
EPOCH_READ waits for leave (R432). -/
def Obligations.EpochCommandsComplete : Prop :=
  (∀ c s u x bs ok v, Runs opEpochRead c s u → c.w 4 % 4 = 0 → c.f 5 0 13 % 4 = 0 → c.f 5 0 13 ≤ 4080 →
    u.epochItem c.parcel (c.epoch 2) (c.f 5 16 1) (c.f 5 17 3) = (x, bs) → (if x = 0 then keptReads u else (true, u)) = (ok, v) →
    (x = 0 → ok = true → c.w 4 < bs.length) →
    (x = 0 → u.holdAsks (min (c.f 5 0 13) (bs.length - c.w 4)) = false) →
    exec (.epochRead c) s = .next (concluded opEpochRead c 0x00
      (if ok then [w32 x, w32 bs.length] ++ bytesWords (slice bs (c.w 4) (c.f 5 0 13)) else [2#32, 0#32]) v)) ∧
  (∀ c s u bs, Runs opEpochRead c s u → c.w 4 % 4 = 0 → c.f 5 0 13 % 4 = 0 → c.f 5 0 13 ≤ 4080 →
    u.epochItem c.parcel (c.epoch 2) (c.f 5 16 1) (c.f 5 17 3) = (0, bs) → c.w 4 < bs.length →
    u.holdAsks (min (c.f 5 0 13) (bs.length - c.w 4)) = true →
    exec (.epochRead c) s = .next (begun opEpochRead c (.waitLeave 0) .plain
      (askLeave 5 (u.pwrClass PWR_HOLD_CFG) (u.pwrAmt PWR_HOLD_CFG) (.hold u.pil.nextJob) u))) ∧
  (∀ c s u, Runs opDeadlineSet c s u → 1 ≤ c.f 2 0 3 → c.f 2 0 3 ≤ 4 → c.w 3 ≠ 0 → c.w 5 ≠ 0 → c.w 3 ≤ c.w 4 →
    exec (.deadlineSet c) s = .next (concluded opDeadlineSet c 0x00 []
      ((((u.wr (EPO_DL_FLOOR (c.f 2 0 3)) (c.w 3)).wr (EPO_DL_CEIL (c.f 2 0 3)) (c.w 4)).wr (EPO_DL_MARGIN (c.f 2 0 3)) (c.w 5)).each
        (u.par.ctxs.filter (fun e => e.2.level == c.f 2 0 3))
        (fun e t => t.modCtx e.1 (fun x => { x with dl := min (max x.dl (c.w 3)) (c.w 4) }))))) ∧
  (∀ c s u, Runs opStrictSet c s u → u.par.ctxs = [] →
    exec (.strictSet c) s = .next (concluded opStrictSet c 0x00 [] (u.wr EPO_CTL (c.f 2 0 1)))) ∧
  (∀ c s u n x d v, Runs opAbsentDeclare c s u →
    (u.ctxsOf c.parcel).find? (fun e => e.2.kids.any (fun k => k.station == c.f 4 0 20)) = some (n, x) →
    declareAbsent n (c.f 4 0 20) (c.epoch 2) (c.f 5 0 16) u = (d, v) →
    exec (.absentDeclare c) s = .next (concluded opAbsentDeclare c 0x00 [w32 d, w32 (c.f 5 0 16 - d)] v)) ∧
  (∀ c s u n x r, Runs opClosurePull c s u → u.pulledCtx c = some (n, x) → c.f 4 0 5 ≤ 16 →
    (c.f 4 0 5 ≠ 0 → x.pub = false ∧ (x.unsent (c.epoch 2) = true ∨ ((u.keep? n).bind (fun y => Tbl.get? y.items (c.epoch 2))).isSome)) →
    r = (List.range (c.f 4 0 5)).foldl (fun (a : Nat × State) i =>
      (a.1 + (resendOne n x (c.epoch 2 + i) a.2).1, (resendOne n x (c.epoch 2 + i) a.2).2)) (0, u) →
    exec (.closurePull c) s = .next (concluded opClosurePull c 0x00 [w32 r.1] r.2)) ∧
  (∀ c s u n x e, Runs opVoteRaise c s u → c.f 2 0 5 ≤ 16 → (∀ v ∈ voteEnts c, stNames (v.1 / 4096) = true) →
    u.ctxLow c.parcel = some (n, x) → x.committed = true → x.current = some e →
    (e.votes.own.filter (fun k => keyKind k == 5)).length + ((((voteEnts c).filter (fun v => v.2 != 0)).map (fun v =>
      voteKey v.1 5)).eraseDups.filter (fun k => !e.votes.own.contains k)).length ≤ 64 →
    exec (.voteRaise c) s = .next (concluded opVoteRaise c 0x00 []
      (u.each ((voteEnts c).filter (fun v => v.2 != 0)) (fun v t => (raiseVote n e.k 5 v.1 v.2 t).2)))) ∧
  (∀ c s u, Runs opTallySet c s u → c.f 2 17 15 = 0 → 10 ≤ c.f 2 0 16 → c.f 2 0 16 ≤ 10000 →
    exec (.tallySet c) s = .next (concluded opTallySet c 0x00 [] (u.wr TAL_CTL (c.w 2)))) ∧
  (∀ c s u n x y, Runs opVerdictSet c s u → u.ctxHigh c.parcel = some y → u.ctxPub c.parcel = some (n, x) →
    c.f 2 24 8 ≠ 0 → 2 ≤ c.f 2 16 8 → c.f 2 0 16 ≠ 0 → c.f 3 24 8 ≠ 0 → c.f 3 16 8 ≠ 0 → c.f 3 8 8 ≠ 0 → c.f 3 0 8 ≠ 0 →
    c.f 4 16 16 ≠ 0 → c.f 4 2 14 = 0 →
    exec (.verdictSet c) s = .next (concluded opVerdictSet c 0x00 []
      (((u.wr (EPO_VRD_CFG0 n) (c.w 2)).wr (EPO_VRD_CFG1 n) (c.w 3)).wr (EPO_VRD_CFG2 n) (c.w 4)))) ∧
  (∀ c s u, Runs opVerdictRead c s u → c.w 3 ≤ 63 →
    exec (.verdictRead c) s = .next (concluded opVerdictRead c 0x00 (verdictRead (c.w 2) (c.f 3 0 6) u) u)) ∧
  (∀ c s u, Runs opVerdictRead c s u → 63 < c.w 3 → exec (.verdictRead c) s = .next (turnedAway opVerdictRead c 0x12 [] u)) ∧
  (∀ c s u, Runs opVerdictSink c s u → c.f 2 16 16 ≠ 0 →
    exec (.verdictSink c) s = .next (concluded opVerdictSink c 0x00 []
      { u.wr EPO_VRD_CTL (c.f 2 16 16 * 2 ^ 16 + c.f 2 0 1) with lnd := { u.lnd with sinkIp := c.ip 3 } }))

/-- The commands on probes, pod maps, counters, trackers, gauges and beats (R141, R152, R161, R164, R165) on the operands they
accept. TAP_MAP's entries fill the halves of its words from the first word's low half on; for an odd first event that is the model's
choice (log 109), since R165 puts the even event in [15:0]. -/
def Obligations.ProbeCommandsComplete : Prop :=
  (∀ c s u ds v, Runs opProbeSet c s u → c.f 2 16 9 ≤ 255 → c.f 2 0 10 + c.f 2 16 9 ≤ 1024 →
    ds = (List.range (c.f 2 16 9)).map (fun i =>
      (c.f 2 0 10 + i, descOf (c.w (3 + 4 * i)) (c.w (4 + 4 * i)) (c.w (5 + 4 * i)) (c.w (6 + 4 * i)))) →
    v = u.each ds (fun e t => putDesc e.1 e.2 t) →
    (∀ e ∈ ds, bit e.2.w0 31 = true → e.2.bad u.isTray = false) →
    descClash (if c.f 2 16 9 = 0 then [] else ((List.range 1024).filter (fun p => v.getB (PRB_DESC p 0) 31)).map v.desc) = false →
    (∀ e ∈ ds, u.probeInUse e.1 = false) →
    exec (.probeSet c) s = .next (concluded opProbeSet c 0x00 [] v)) ∧
  (∀ c s u, Runs opTapMap c s u → c.f 3 0 11 ≤ 1024 → c.f 2 16 10 + c.f 3 0 11 ≤ 1024 →
    (∀ x ∈ tapMapEnts c, u.getF (TAP_MAP (c.f 2 0 6) (x.1 / 2)) (16 * (x.1 % 2)) 16 = x.2 ∨
      (u.counterUsed (1024 * c.f 2 0 6 + u.getF (TAP_MAP (c.f 2 0 6) (x.1 / 2)) (16 * (x.1 % 2)) 16 % 1024) = false ∧
        u.counterUsed (1024 * c.f 2 0 6 + x.2 % 1024) = false)) →
    u.podOn (c.f 2 0 6) = true →
    exec (.tapMap c) s = .next (concluded opTapMap c 0x00 []
      (u.each (tapMapEnts c) (fun x t => t.setF (TAP_MAP (c.f 2 0 6) (x.1 / 2)) (16 * (x.1 % 2)) 16 x.2)))) ∧
  (∀ c s u v, Runs opTapClear c s u → c.f 2 0 16 + c.f 3 0 17 ≤ 65536 → c.f 3 0 17 ≠ 0 →
    v = u.each ((List.range 64).filter (fun p => u.podOn p && decide (c.f 2 0 16 < 1024 * (p + 1)) &&
      decide (1024 * p < c.f 2 0 16 + c.f 3 0 17))) (podClearAsk u.pil.nextJob (c.f 2 0 16) (c.f 3 0 17)) →
    exec (.tapClear c) s = .next
      (if v.clearWaits u.pil.nextJob then begun opTapClear c .waiting .plain v else concluded opTapClear c 0x00 [] v)) ∧
  (∀ c s u, Runs opTapClear c s u → c.f 2 0 16 ≤ 65536 → c.f 3 0 17 = 0 →
    exec (.tapClear c) s = .next (concluded opTapClear c 0x00 [] u)) ∧
  (∀ c s u, Runs opTrkSet c s u → c.f 2 8 9 ≤ 170 → c.f 2 0 8 + c.f 2 8 9 ≤ 256 →
    (∀ i, i < c.f 2 8 9 → c.f (3 + 6 * i) 12 4 ≠ 0 ∧ c.f (4 + 6 * i) 16 6 ≤ 32 ∧ c.w (6 + 6 * i) ≠ 0) →
    exec (.trkSet c) s = .next (concluded opTrkSet c 0x00 [] (u.each (List.range (c.f 2 8 9)) (fun i t =>
      trackerStart (c.f 2 0 8 + i) (((t.wr (PRB_TRK_CFG (c.f 2 0 8 + i) 0) (setFld (setFld (c.w (3 + 6 * i)) 28 3 0) 0 12 0)).wr
        (PRB_TRK_CFG (c.f 2 0 8 + i) 1) (setFld (setFld (c.w (3 + 6 * i + 1)) 22 2 0) 0 16 0)).each [2, 3, 4, 5] (fun j w =>
          w.wr (PRB_TRK_CFG (c.f 2 0 8 + i) j) (c.w (3 + 6 * i + j)))))))) ∧
  (∀ c s u, Runs opInputSet c s u → c.f 2 0 9 ≤ (if u.isTray then 64 else 256) → c.f 3 0 12 ≠ 0 →
    (∀ p ∈ u.probesUsed, ((u.desc p).pair.1 = 2 → fld (u.desc p).w0 0 16 < c.f 2 0 9 ∨ u.gaugeCount ≤ fld (u.desc p).w0 0 16) ∧
      ((u.desc p).pair.1 = 3 → u.beatOn (fld (u.desc p).w0 0 16) = true → bit (c.f 2 16 8) (fld (u.desc p).w0 0 16) = true)) →
    exec (.inputSet c) s = .next (concluded opInputSet c 0x00 []
      (((u.each ((List.range 8).filter (fun b => u.beatOn b && !(bit (c.f 2 16 8) b))) beatForget).wr GAU_CTL
        (c.f 2 0 9 + c.f 3 0 12 * 2 ^ 16)).wr BEA_CTL (c.f 2 16 8))))

/-- Cadastre's commands (R283, R288, R291, R294, R432) on the operands they accept: an image above PWR_HOLD_CFG.THR waits for leave
on a tray build; an image that passes R287's checks is placed in an
empty slot, resident after leave or paged at once; SCORE_ROW waits while a pass or a self-test runs. The model's choices (log 75):
the slot is the lowest empty one, a resident image is placed when the command asks for leave and written when it is granted, and
SCORE_ROW waits for the reload of a resident plat. -/
def Obligations.CadastreCommandsComplete : Prop :=
  (∀ c s u, Runs opPlatLoad c s u → c.w 4 ≠ 0 → u.fenced .cadastre = false → u.quiesced .cadastre = false →
    u.holdAsks (c.w 4) = true →
    exec (.platLoad c) s = .next (begun opPlatLoad c (.waitLeave 0) .plain
      (askLeave 5 (u.pwrClass PWR_HOLD_CFG) (u.pwrAmt PWR_HOLD_CFG) (.hold u.pil.nextJob) u))) ∧
  (∀ c s u b v i, Runs opPlatLoad c s u → c.w 4 ≠ 0 → u.fenced .cadastre = false → u.quiesced .cadastre = false →
    u.holdAsks (c.w 4) = false → loadBytes (c.w64 2) (c.w 4) u = (some b, v) →
    platCheck v.build v.cadBanks (if bit (c.w 5) 16 || v.cadWindow = 0 then none else some v.cadWindow) (c.f 5 0 16) b.length
      (v.platSlot (c.f 5 0 16)).isSome b = none →
    platSigOk v.platKey (v.getB CAD_KEY_CTL 1) b = true →
    (List.range v.platSlots).find? (fun k => v.platState k == 0) = some i →
    (bit (c.w 5) 16 = true → v.platFits b = true →
      exec (.platLoad c) s = .next (begun opPlatLoad c (.waitLeave 0) (.bytes b)
        (askLeave 1 (v.pwrClass CAD_PWR) (v.pwrAmt CAD_PWR) (.cadLoad v.pil.nextJob) (platPlace i 1 (c.w64 2) true b v)))) ∧
    (bit (c.w 5) 16 = false → v.cadWindow ≠ 0 →
      exec (.platLoad c) s = .next (ended opPlatLoad c 0x00 [w32 i] ((platPlace i 2 (c.w64 2) false b v).evt CAD_EVT 0)))) ∧
  (∀ c s u b v k x, Runs opPlatLoad c s u → c.w 4 ≠ 0 → u.fenced .cadastre = false → u.quiesced .cadastre = false →
    u.holdAsks (c.w 4) = false → loadBytes (c.w64 2) (c.w 4) u = (some b, v) →
    platCheck v.build v.cadBanks (if bit (c.w 5) 16 || v.cadWindow = 0 then none else some v.cadWindow) (c.f 5 0 16) b.length
      (v.platSlot (c.f 5 0 16)).isSome b = some (k, x) →
    exec (.platLoad c) s = .next (ended opPlatLoad c 0x12 [w32 k, w32 x] ((v.evt CAD_EVT 1).inc PIL_REFUSED 1))) ∧
  (∀ c s u i, Runs opPlatUnload c s u → readySlot CAD_PLAT_ID u.platSlots u (c.f 2 0 16) = some i → u.platBound (c.f 2 0 16) = 0 →
    u.platNamed (c.f 2 0 16) = false →
    exec (.platUnload c) s = .next (concluded opPlatUnload c 0x00 []
      { ((u.wr (CAD_PLAT_ID i) 0).wr (CAD_PLAT_SIZE i) 0).wr (CAD_PLAT_ADDR i) 0 with
        cad := { u.cad with
          resident := Tbl.erase u.cad.resident i, plots := Tbl.erase u.cad.plots i, use := Tbl.erase u.cad.use i,
          lens := Tbl.erase u.cad.lens i, outs := Tbl.erase u.cad.outs i } })) ∧
  (∀ c s u, Runs opPlatKey c s u → (bit (c.w 2) 1 = true → p256OnCurve (keyPoint (keyBytes c)) = true) →
    (bit (c.w 2) 0 = true → bit (c.w 2) 1 = true) →
    exec (.platKey c) s = .next (concluded opPlatKey c 0x00 []
      (({ u with cad := { u.cad with signKey := if bit (c.w 2) 1 then keyBytes c else [] } } : State).wr CAD_KEY_CTL
        (b2n (bit (c.w 2) 1) + b2n (bit (c.w 2) 0) * 2)))) ∧
  (∀ c s u, Runs opCadSet c s u → c.f 2 16 16 ≠ 0 → c.f 2 12 4 = 0 → c.f 2 0 12 % 256 = 0 → c.f 2 0 12 ≤ u.bankSize →
    c.f 3 11 21 = 0 → (c.f 2 0 12 = u.cadWindow ∨ ∀ i, i < u.platSlots → u.platState i = 0) →
    exec (.cadSet c) s = .next (concluded opCadSet c 0x00 [] ((u.wr CAD_CTL (c.w 2)).wr CAD_PWR (c.w 3)))) ∧
  (∀ c s u n x ks y, Runs opScoreRead c s u → c.f 4 0 6 + c.f 4 8 6 ≤ 33 → u.ctxAt c.parcel u.ownLevel = some (n, x) →
    u.keep? n = some ks → Tbl.get? ks.scores (c.epoch 2) = some y →
    exec (.scoreRead c) s = .next (concluded opScoreRead c 0x00
      ([0#32, w32 (y.rows.length + y.nOut * 2 ^ 16), w32 y.platVer] ++
        ((y.rows.drop (c.f 4 0 6)).take (c.f 4 8 6)).flatMap (scoreWords y.nOut)) u)) ∧
  (∀ c s u i, Runs opScoreRow c s u → u.fenced .cadastre = false → u.quiesced .cadastre = false →
    readySlot CAD_PLAT_ID u.platSlots u (c.f 2 0 16) = some i → c.f 3 16 11 ≤ 1019 →
    c.f 3 0 10 + c.f 3 16 11 ≤ 1024 →
    (u.cad.pass ≠ none ∨ u.wit.selfRun ≠ none → exec (.scoreRow c) s = .next (begun opScoreRow c .waiting .plain u)) ∧
    (∀ b, u.cad.pass = none → u.wit.selfRun = none → u.platResident i = true → Tbl.get? u.cad.resident i = some b →
      exec (.scoreRow c) s = .next (concluded opScoreRow c 0x00 (scoreRowRun c i b (Tbl.get? u.cad.plots i).toList u).1
        (scoreRowRun c i b (Tbl.get? u.cad.plots i).toList u).2)) ∧
    (u.cad.pass = none → u.wit.selfRun = none → u.platResident i = true → Tbl.get? u.cad.resident i = none →
      exec (.scoreRow c) s = .next (begun opScoreRow c .waiting .plain u)) ∧
    (u.cad.pass = none → u.wit.selfRun = none → u.platResident i = false →
      exec (.scoreRow c) s = .next (begun opScoreRow c (.waitLeave 0) .plain
        (askLeave 1 (u.pwrClass CAD_PWR) (u.pwrAmt CAD_PWR) (.cadLoad u.pil.nextJob) u))))

/-- Transit's commands (R323, R328, R331, R332, R432) on the operands they accept. The model's choices (log 79): SUBSPACE_LOAD takes
the lowest empty slot, and TRN_RUN asks for its leave only once no pass runs or is ready. -/
def Obligations.TransitCommandsComplete : Prop :=
  (∀ c s u, Runs opSubspaceLoad c s u → c.w 4 ≠ 0 → u.fenced .transit = false → u.quiesced .transit = false →
    u.holdAsks (c.w 4) = true →
    exec (.subspaceLoad c) s = .next (begun opSubspaceLoad c (.waitLeave 0) .plain
      (askLeave 5 (u.pwrClass PWR_HOLD_CFG) (u.pwrAmt PWR_HOLD_CFG) (.hold u.pil.nextJob) u))) ∧
  (∀ c s u b v i, Runs opSubspaceLoad c s u → c.w 4 ≠ 0 → u.fenced .transit = false → u.quiesced .transit = false →
    u.holdAsks (c.w 4) = false → loadBytes (c.w64 2) (c.w 4) u = (some b, v) →
    subCheck (c.f 5 0 16) b.length (v.subSlotOf (c.f 5 0 16)).isSome (bit (c.w 5) 16) b = none →
    ((subHead b).learn = true → bit (c.w 5) 17 = true) →
    (List.range trnSlots).find? (fun k => v.subState k == 0) = some i →
    (bit (c.w 5) 16 = true → ceilDiv (subWeightBytes b (subHead b)) 65536 ≤ v.scratchFree →
      exec (.subspaceLoad c) s = .next (begun opSubspaceLoad c (.waitLeave 0) (.bytes b)
        (askLeave 2 (v.pwrClass TRN_PWR) (v.pwrAmt TRN_PWR) (.trnLoad v.pil.nextJob)
          (subPlace i 1 (c.w64 2) true (if (subHead b).learn then some (c.w64 6) else none) b v)))) ∧
    (bit (c.w 5) 16 = false →
      exec (.subspaceLoad c) s = .next (ended opSubspaceLoad c 0x00 [w32 i] ((subPlace i 2 (c.w64 2) false none b v).evt TRN_EVT 0)))) ∧
  (∀ c s u i, Runs opSubspaceUnload c s u → readySlot TRN_SUB_ID trnSlots u (c.f 2 0 16) = some i →
    u.subBound (c.f 2 0 16) = 0 → u.subNamed (c.f 2 0 16) = false →
    exec (.subspaceUnload c) s = .next (concluded opSubspaceUnload c 0x00 [] (subDrop i u))) ∧
  (∀ c s u, Runs opTrnRun c s u → c.w 8 ≠ 0 → c.w 9 ≠ 0 → c.w 8 ≤ 65536 → c.w 9 ≤ 65536 → c.f 10 0 13 ≤ 4096 →
    c.f 11 0 3 < 4 → u.trnFenced = false → u.quiesced .transit = false →
    exec (.trnRun c) s = .next
      (if c.f 10 0 13 = 0 then concluded opTrnRun c 0x00 [0#32] u
       else begun opTrnRun c (.waitLeave 0) .plain
        (if u.trn.pass.isSome ∨ u.trnJobs ≠ [] then u
         else askLeave 2 (u.pwrClass TRN_PWR) (u.pwrAmt TRN_PWR) (.trnLoad u.pil.nextJob) u))) ∧
  (∀ c s u, Runs opTrnSet c s u → c.f 2 16 16 ≠ 0 → c.f 2 8 8 ≠ 0 → c.f 2 1 7 = 0 → c.f 3 11 21 = 0 →
    f32Finite (c.w 4) = true → f32Lt (c.w 4) 0 = false →
    exec (.trnSet c) s = .next (concluded opTrnSet c 0x00 []
      (((u.wr TRN_CTL (c.w 2)).wr TRN_PWR (c.w 3)).wr TRN_ABFT_TOL (c.w 4)))) ∧
  (∀ c s u v, Runs opTrnUnfence c s u → v = (u.wr TRN_FENCE (u.rd TRN_FENCE - (u.rd TRN_FENCE &&& c.w 2))).wr TRN_FENCE_ARR
      (u.rd TRN_FENCE_ARR - (u.rd TRN_FENCE_ARR &&& c.f 3 0 4)) →
    exec (.trnUnfence c) s = .next (concluded opTrnUnfence c 0x00 [] { v with trn := { v.trn with
      counts := v.trn.counts.filter (fun x => !(if x.2.1 = 8 then bit (c.f 3 0 4) x.1 else bit (c.w 2) (8 * x.1 + x.2.1))) } })) ∧
  (∀ c s u x bs ok v, Runs opTrnRead c s u → c.w 4 % 4 = 0 → c.f 5 0 13 % 4 = 0 → c.f 5 0 13 ≤ 4080 →
    u.trnKept.epochItem c.parcel (c.epoch 2) (c.f 5 16 1) 0 = (x, bs) → (if x = 0 then keptReads u else (true, u)) = (ok, v) →
    (x = 0 → ok = true → c.w 4 < bs.length) →
    (x = 0 → u.holdAsks (min (c.f 5 0 13) (bs.length - c.w 4)) = false) →
    exec (.trnRead c) s = .next (concluded opTrnRead c 0x00
      (if ok then [w32 x, w32 bs.length] ++ bytesWords (slice bs (c.w 4) (c.f 5 0 13)) else [2#32, 0#32]) v)) ∧
  (∀ c s u bs, Runs opTrnRead c s u → c.w 4 % 4 = 0 → c.f 5 0 13 % 4 = 0 → c.f 5 0 13 ≤ 4080 →
    u.trnKept.epochItem c.parcel (c.epoch 2) (c.f 5 16 1) 0 = (0, bs) → c.w 4 < bs.length →
    u.holdAsks (min (c.f 5 0 13) (bs.length - c.w 4)) = true →
    exec (.trnRead c) s = .next (begun opTrnRead c (.waitLeave 0) .plain
      (askLeave 5 (u.pwrClass PWR_HOLD_CFG) (u.pwrAmt PWR_HOLD_CFG) (.hold u.pil.nextJob) u)))

/-- Wake's commands (R361, R370, R379 to R381) on the operands they accept; WAKE_SEND has its final reply once its last message is
done. The model's choices (log 83): WAKE_DISARM with no session answers the last LOST_BYTES, and FENCED refuses WAKE_ARM alone. -/
def Obligations.WakeCommandsComplete : Prop :=
  (∀ c s u, Runs opWakeCfg c s u → u.getB WAK_STATUS 15 = false → (∀ p ∈ witPairs c.params, wakPairBad u.build p.1 p.2 = none) →
    exec (.wakeCfg c) s = .next (concluded opWakeCfg c 0x00 [] (u.each (witPairs c.params) (fun p t => wakPut1 p.1 p.2 t)))) ∧
  (∀ c s u, Runs opWakeCfg c s u → u.getB WAK_STATUS 15 = true →
    exec (.wakeCfg c) s = .next (turnedAway opWakeCfg c 0x12 [] u)) ∧
  (∀ c s u, Runs opWakeArm c s u → u.fenced .wake = false → u.quiesced .wake = false → u.getB WAK_STATUS 15 = false →
    u.dstSize ≠ 0 →
    exec (.wakeArm c) s = .next (concluded opWakeArm c 0x00 [w32 ((u.getF WAK_STATUS 16 16 + 1) % 65536)]
      (wakArm (bit (c.w 2) 0) u).2)) ∧
  (∀ c s u, Runs opWakeDisarm c s u →
    exec (.wakeDisarm c) s = .next
      (if (wakDisarm u).wak.flushing then begun opWakeDisarm c .running .plain (wakDisarm u)
       else concluded opWakeDisarm c 0x00 [w32 (wakDisarm u).wak.lost] (wakDisarm u))) ∧
  (∀ c s u, Runs opWakeTrig c s u → u.getB WAK_STATUS 15 = true →
    exec (.wakeTrig c) s = .next (concluded opWakeTrig c 0x00 []
      (wakEvents [.host (c.f 2 0 8)] (wakWrite 4 3 (leBytes 4 (c.f 2 0 8)) u)))) ∧
  (∀ c s u, Runs opWakeTrig c s u → u.getB WAK_STATUS 15 = false →
    exec (.wakeTrig c) s = .next (turnedAway opWakeTrig c 0x32 [] u)) ∧
  (∀ c s u, Runs opWakeSecure c s u → c.f 2 8 24 = 0 → bit (c.w 2) 3 = false → bit (c.w 2) 7 = false → c.f 2 0 3 ≤ 4 →
    c.f 2 4 3 ≤ 4 →
    exec (.wakeSecure c) s = .next (concluded opWakeSecure c 0x00 [] (u.wr WAK_SEC (c.w 2)))) ∧
  (∀ c s u k v, Runs opWakeSend c s u → c.w 4 % 4 = 0 → c.w 4 ≤ 16777216 →
    (c.w 4 = 0 ∨ (u.rd WAK_DST_WR ≤ c.w64 2 + u.dstSize ∧ c.w64 2 + c.w 4 ≤ u.rd WAK_DST_WR)) →
    wakSend (c.w64 2) (c.w 4) u = (some k, v) →
    exec (.wakeSend c) s = .next (if k = 0 then ended opWakeSend c 0x00 [0#32] v
      else begun opWakeSend c .running (.nums [(v.chain 0).bulkDone + bulkWaiting (v.chain 0), k]) v))

/-- Witness's commands (R389, R393, R400, R402) on the operands they accept; on a tray build a pack above PWR_HOLD_CFG.THR waits
for leave (R432). That a pack takes the slot which already holds its ENGINE and PACK, and the lowest EMPTY one else, is the model's
choice (log 84). -/
def Obligations.WitnessCommandsComplete : Prop :=
  (∀ c s u v, Runs opWitSet c s u → (∀ p ∈ witPairs c.params, ¬(p.1 = 0x18 ∧ p.2 = 0) ∧ witPairBad p.1 p.2 = false) →
    ((∃ p ∈ witPairs c.params, p.1 = 0x10 ∨ p.1 = 0x14 ∨ p.1 = 0x18) → ∀ i, i < 256 → u.packReady i = false) →
    v = u.each (witPairs c.params) (fun p t => witPut p.1 p.2 t) →
    exec (.witSet c) s = .next (concluded opWitSet c 0x00 [] (v.each (List.range 64) (fun n t =>
      engSettle n ((witPairs c.params).any (fun p => engField p.1 == some (n, 0))) t)))) ∧
  (∀ c s u, Runs opPackLoad c s u → c.w 4 ≠ 0 → u.holdAsks (c.w 4) = true →
    exec (.packLoad c) s = .next (begun opPackLoad c (.waitLeave 0) .plain
      (askLeave 5 (u.pwrClass PWR_HOLD_CFG) (u.pwrAmt PWR_HOLD_CFG) (.hold u.pil.nextJob) u))) ∧
  (∀ c s u b v i w, Runs opPackLoad c s u → c.w 4 ≠ 0 → u.holdAsks (c.w 4) = false → loadBytes (c.w64 2) (c.w 4) u = (some b, v) →
    packCheck (c.f 5 16 8) (c.f 5 0 16) b.length v.witKey (v.getB WIT_KEY_CTL 1) b = 0 →
    v.packPlace (c.f 5 16 8) (c.f 5 0 16) = .inl i → packWrite i b v = (true, w) →
    exec (.packLoad c) s = .next (ended opPackLoad c 0x00 [w32 i] w)) ∧
  (∀ c s u i, Runs opPackDrop c s u → u.packSlot (c.f 2 16 8) (c.f 2 0 16) = some i → u.packUsed i = false →
    exec (.packDrop c) s = .next (concluded opPackDrop c 0x00 [] (packEmpty i u))) ∧
  (∀ c s u, Runs opWitKey c s u → (bit (c.w 2) 1 = true → p256OnCurve (keyPoint (keyBytes c)) = true) →
    (bit (c.w 2) 0 = true → bit (c.w 2) 1 = true) →
    exec (.witKey c) s = .next (concluded opWitKey c 0x00 []
      (({ u with wit := { u.wit with signKey := if bit (c.w 2) 1 then keyBytes c else [] } } : State).wr WIT_KEY_CTL
        (b2n (bit (c.w 2) 1) + b2n (bit (c.w 2) 0) * 2)))) ∧
  (∀ c s u, Runs opEngineReport c s u → c.w64 2 &&& c.w64 4 = 0 → (∀ n ∈ setBits 64 (c.w64 4), u.engSt n = 5) →
    exec (.engineReport c) s = .next (concluded opEngineReport c 0x00 []
      ((u.each ((setBits 64 (c.w64 2)).filter (fun n => u.engSt n != 0)) (fun n t => setEng n 6 (runOver n t))).each
        (setBits 64 (c.w64 4)) (fun n t => setEng n 1 (setDue n t))))) ∧
  (∀ c s u ns, Runs opTestNow c s u → ns = (setBits 64 (c.w64 2)).filter (fun n => u.engSt n == 1) →
    exec (.testNow c) s = .next (concluded opTestNow c 0x00 [w32 ns.length]
      (u.each ns (fun n t => t.wr (WIT_ENG_DUE n) t.nowMs)))) ∧
  (∀ c s u, Runs opSelfNow c s u →
    exec (.selfNow c) s = .next (begun opSelfNow c .waiting .plain { u with wit := { u.wit with selfDue := true } }))

/-- The commands of the fault collector, the Logbook, Plumb and the power states (R449, R453, R454, R458, R462, R476, R480, R481,
R537) on the operands they accept; PLM_SET's pairs wait for the next PLUMB_RULE_TICK, and LOG_SEND has its final reply once its last message is done (R481). -/
def Obligations.PlantCommandsComplete : Prop :=
  (∀ c s u, Runs opFltSet c s u → (∀ p ∈ witPairs c.params, fltPairBad u.build p.1 p.2 = false ∧
      ∀ n, fltPairSource p.1 = some n → u.fltState n = 0) →
    exec (.fltSet c) s = .next (concluded opFltSet c 0x00 [] (u.each (witPairs c.params) (fun p t => fltPut p.1 p.2 t)))) ∧
  (∀ c s u yes no v, Runs opFltClear c s u → fltClear c.authority (c.w64 2) u = (yes, no, v) →
    exec (.fltClear c) s = .next (concluded opFltClear c 0x00
      [w32 yes, w32 (yes / 2 ^ 32), w32 no, w32 (no / 2 ^ 32)] v)) ∧
  (∀ c s u, Runs opFltInject c s u → u.getB FLT_CTL 0 = true → injectBad u (c.f 2 0 8) (c.f 2 8 2) (c.f 5 0 16) = false →
    exec (.fltInject c) s = .next (concluded opFltInject c 0x00 []
      (inject (c.f 2 0 8) (c.f 2 8 2) (bit (c.w 2) 16) (c.f 2 24 8) (c.w64 3) (c.f 5 0 16) u))) ∧
  (∀ c s u, Runs opFltInject c s u → u.getB FLT_CTL 0 = false →
    exec (.fltInject c) s = .next (turnedAway opFltInject c 0x13 [] u)) ∧
  (∀ c s u, Runs opFltDebug c s u →
    exec (.fltDebug c) s = .next (concluded opFltDebug c 0x00 [] (u.putB FLT_CTL 0 (bit (c.w 2) 0)))) ∧
  (∀ c s u, Runs opLogClear c s u → c.w 2 < 8 →
    exec (.logClear c) s = .next (concluded opLogClear c 0x00 [] (logClear (c.w 2) u))) ∧
  (∀ c s u, Runs opLogHistSet c s u → c.f 2 0 6 + c.f 2 16 7 ≤ 64 →
    (∀ i, i < c.f 2 16 7 → histBad (fld (c.w (3 + 2 * i)) 0 2) (fld (c.w (3 + 2 * i)) 8 8) = false) →
    exec (.logHistSet c) s = .next (concluded opLogHistSet c 0x00 []
      (u.each ((List.range (c.f 2 16 7)).map (fun i => (c.f 2 0 6 + i, c.w (3 + 2 * i), c.w (4 + 2 * i))))
        (fun d t => histSet d.1 d.2.1 d.2.2 t)))) ∧
  (∀ c s u, Runs opLogFlush c s u →
    exec (.logFlush c) s = .next (concluded opLogFlush c 0x00 []
      (let v := u.each u.log.hist (fun e t => writeHist e.1 e.2 t)
       v.each v.log.ext (fun e t => writeExt e.1 e.2 t)))) ∧
  (∀ c s u, Runs opLogSend c s u → c.f 2 0 15 + c.f 3 0 16 ≤ 32768 →
    ∀ v, v = logSend (c.f 2 0 15) (c.f 3 0 16) u →
    exec (.logSend c) s = .next (if c.f 3 0 16 = 0 then ended opLogSend c 0x00 [0#32] v
      else begun opLogSend c .running (.nums [(v.chain 0).bulkDone + bulkWaiting (v.chain 0), ceilDiv (c.f 3 0 16) 1024]) v)) ∧
  (∀ c s u, Runs opPlmSet c s u → (∀ p ∈ witPairs c.params, plmPairBad p.1 p.2 = false) →
    exec (.plmSet c) s = .next (concluded opPlmSet c 0x00 []
      { u with plm := { u.plm with staged := u.plm.staged ++ witPairs c.params } })) ∧
  (∀ c s u v, Runs opPowerSet c s u → c.f 2 0 2 ≠ 3 → (c.f 2 0 2 = 2 ∨ u.bondFail = false) →
    ¬(c.f 2 0 2 = 2 ∧ u.isTray = true ∧ u.par.ctxs ≠ []) → v = powerRequest (c.f 2 0 2) u →
    exec (.powerSet c) s = .next (if v.plm.goal = none then ended opPowerSet c 0x00 [w32 v.powerState] v
      else begun opPowerSet c .running .plain v))

/-- Datum's commands (R64, R78, R80, R81, R87 to R89) on the operands they accept. The model's choices: where R62 and R64 both name a
grandmaster's servo, `roleSettled` follows R64 (log 102); a pulse START before the clock is in the past (log 41). -/
def Obligations.DatumCommandsComplete : Prop :=
  (∀ c s u v, Runs opMark c s u →
    v = (if bit (c.w 3) 0 then logEvent 0x50 (leBytes 4 (c.w 2) ++ timeBytes u.now) u else u) →
    exec (.mark c) s = .next (concluded opMark c 0x00 (timeWords u.now ++ [1#32])
      (if bit (c.w 3) 1 then wakMark (c.w 2) (timeBytes u.now) v else v))) ∧
  (∀ c s u t, Runs opTimeSet c s u → c.time 2 = some t → u.isTray = true → u.dat.role.role = 2 → u.par.ctxs = [] →
    exec (.timeSet c) s = .next (concluded opTimeSet c 0x00 []
      ((rateNote 6 ((((putClock t u).putB DAT_STATE 4 true).inc DAT_STEPS 1).evt DAT_EVT 3)).later .clockStep))) ∧
  (∀ c s u t, Runs opTimeSet c s u → c.time 2 = some t → u.isTray = true → u.dat.role.role = 2 → u.par.ctxs ≠ [] →
    exec (.timeSet c) s = .next (turnedAway opTimeSet c 0x21 [] u)) ∧
  (∀ c s u t, Runs opTimeSet c s u → c.time 2 = some t → (u.isTray = false ∨ u.dat.role.role ≠ 2) →
    exec (.timeSet c) s = .next (turnedAway opTimeSet c 0x12 [] u)) ∧
  (∀ c s u v, Runs opServoSet c s u → (∀ p ∈ pairsOf c.params, servoPairBad u.build p.1 p.2 = false) → pairsOf c.params ≠ [] →
    v = u.each (pairsOf c.params) (fun p t => servoPut p.1 p.2 t) →
    exec (.servoSet c) s = .next (concluded opServoSet c 0x00 []
      (roleSettled u.gmHeld (v.datRef != u.datRef || (u.getB DAT_CTL 0 && !v.getB DAT_CTL 0)) v))) ∧
  (∀ c s u, Runs opServoSet c s u → c.params = [] → exec (.servoSet c) s = .next (concluded opServoSet c 0x00 [] u)) ∧
  (∀ c s u, Runs opTimeRole c s u → c.w 9 ≤ 64 → c.f 2 0 2 ≠ 3 → c.f 2 12 4 ≤ 7 → c.f 2 16 4 ≤ 7 →
    exec (.timeRole c) s = .next (concluded opTimeRole c 0x00 []
      (roleSettled u.gmHeld false { u with dat := { u.dat with
        role := { role := c.f 2 0 2, layer2 := bit (c.w 2) 2, domain := c.f 2 4 7, syncLog := c.f 2 12 4,
                  dreqLog := c.f 2 16 4, asym := toInt 32 (c.w 3), master := c.ip 4, children := ipList c 10 (c.w 9) } } }))) ∧
  (∀ c s u start v, Runs opPulseSet c s u → c.time 3 = some start → c.f 7 0 16 ≠ 0 → c.w 6 = 0 → u.now + 1000 * 2 ^ 32 ≤ start →
    v = (((u.wr (DAT_PLS_SUB (c.f 2 0 3)) (timeSub start)).wr (DAT_PLS_SEC (c.f 2 0 3)) (timeSec start)).wr
      (DAT_PLS_PER (c.f 2 0 3)) 0).wr (DAT_PLS_CTL (c.f 2 0 3)) (c.w 7 &&& 0xC000FFFF) →
    exec (.pulseSet c) s = .next (concluded opPulseSet c 0x00 [] (pulseHold (putPulseNext (c.f 2 0 3) 0 v)))) ∧
  (∀ c s u start v k, Runs opPulseSet c s u → c.time 3 = some start → c.f 7 0 16 ≠ 0 → 8 ≤ c.w 6 →
    4 * (c.f 7 0 16 + 1) ≤ 5 * c.w 6 →
    v = (((u.wr (DAT_PLS_SUB (c.f 2 0 3)) (timeSub start)).wr (DAT_PLS_SEC (c.f 2 0 3)) (timeSec start)).wr
      (DAT_PLS_PER (c.f 2 0 3)) (c.w 6)).wr (DAT_PLS_CTL (c.f 2 0 3)) (c.w 7 &&& 0xC000FFFF) →
    k = ceilDiv (u.now + 1000 * 2 ^ 32 - start) (c.w 6 * 2 ^ 32) →
    exec (.pulseSet c) s = .next (concluded opPulseSet c 0x00 []
      (if start < u.now then (pulseHold (putPulseNext (c.f 2 0 3) k v)).evt DAT_EVT 9 else pulseHold (putPulseNext (c.f 2 0 3) 0 v)))) ∧
  (∀ c s u start, Runs opPulseSet c s u → c.time 3 = some start → c.f 7 0 16 ≠ 0 → c.w 6 = 0 → start < u.now + 1000 * 2 ^ 32 →
    exec (.pulseSet c) s = .next (turnedAway opPulseSet c 0x14 [] u)) ∧
  (∀ c s u, Runs opTimeProbe c s u → c.w 6 = 0 →
    exec (.timeProbe c) s = .next (concluded opTimeProbe c 0x00 (List.replicate 8 0#32) u)) ∧
  (∀ c s u q v, Runs opTimeProbe c s u → c.w 6 ≠ 0 → c.w 6 ≤ 64 → delayReqTo false (c.ip 2) u = (q, v) →
    exec (.timeProbe c) s = .next (begun opTimeProbe c .running .plain
      (modPtp (fun p => { p with runs := p.runs ++ [{ job := u.pil.nextJob, peer := c.ip 2, left := c.w 6,
                                                      ex := { PtpEx.blank with dreqSeq := some q }, found := [] }] }) v)))

/-- STOW_JOB, BERTH_SET and the commands of Landing (R432, R497, R509, R511, R512) on the operands they accept: a job waits
through a change of the power state, for leave of its class, for the jobs before it, or for leave of the hold port. The model's
choices: TREE_SET with ROOT stores the parent as zero (log 51); LND_GATE_SWAP answers TOO_LATE with a mask of 0 too, and
LND_GATE_CYC shows the last pending swap (log 48). -/
def Obligations.StowLandingCommandsComplete : Prop :=
  (∀ c s u, Runs opStowJob c s u → stowBad c = none → u.fenced .stow = false → u.quiesced .stow = false → u.plm.goal ≠ none →
    (c.asyncOk = true → u.rd PIL_ASYNC < 16 → exec (.stowJob c) s = .next (begun opStowJob c .waitPower .plain u)) ∧
    ((c.asyncOk = false ∨ 16 ≤ u.rd PIL_ASYNC) → u.job? u.pil.nextJob = none →
      exec (.stowJob c) s = .next (turnedAway opStowJob c 0x20 [] u))) ∧
  (∀ c s u, Runs opStowJob c s u → stowBad c = none → u.fenced .stow = false → u.quiesced .stow = false → u.plm.goal = none →
    (16384 < c.w 4 → exec (.stowJob c) s = .next (begun opStowJob c (.waitLeave 0) .plain
      (askLeave 6 (u.pwrClass PWR_STOW_CFG) (u.pwrAmt PWR_STOW_CFG) (.stow u.pil.nextJob) u))) ∧
    (c.w 4 ≤ 16384 → u.stowBefore = true → exec (.stowJob c) s = .next (begun opStowJob c (.waitLeave 1) .plain u)) ∧
    (c.w 4 ≤ 16384 → u.stowBefore = false → u.holdAsks (c.w 4) = true → exec (.stowJob c) s = .next (begun opStowJob c (.waitLeave 0) .plain
      (askLeave 5 (u.pwrClass PWR_HOLD_CFG) (u.pwrAmt PWR_HOLD_CFG) (.hold u.pil.nextJob) u))) ∧
    (c.w 4 ≤ 16384 → u.stowBefore = false → u.holdAsks (c.w 4) = false → ∀ n k r v, stowRun c u = (0x00, [w32 n, w32 k, w32 r], v) →
      exec (.stowJob c) s = .next (ended opStowJob c 0x00 [w32 n, w32 k, w32 r] v))) ∧
  (∀ c s u, Runs opBerthSet c s u → berthSetBad u.build (c.w 2) = false →
    exec (.berthSet c) s = .next (concluded opBerthSet c 0x00 [] (u.wr BRT_CTL (c.w 2)))) ∧
  (∀ c s u, Runs opLndSet c s u → (∀ p ∈ pairsOf c.params, lndPairBad p.1 p.2 = false) →
    exec (.lndSet c) s = .next (concluded opLndSet c 0x00 [] (u.each (pairsOf c.params) (fun p t => lndPut p t)))) ∧
  (∀ c s u, Runs opTreeSet c s u → treeSetBad c u = false → u.treeInUse = false → bit (c.w 2) 8 = true →
    exec (.treeSet c) s = .next (concluded opTreeSet c 0x00 [] (putKids (c.f 2 0 3) []
      (wrIp (LND_TREE_ADDR (c.f 2 0 3)) 0 ((u.wr (LND_TREE_ID (c.f 2 0 3)) 0).wr (LND_TREE_N (c.f 2 0 3)) 0))))) ∧
  (∀ c s u id, Runs opTreeSet c s u → treeSetBad c u = false → u.treeInUse = false → bit (c.w 2) 8 = false →
    id = 2 ^ 31 + b2n (bit (c.w 2) 9) * 2 ^ 30 + c.f 2 10 1 * 2 ^ 29 +
      (if bit (c.w 2) 9 then 0 else c.f 3 24 3 * 2 ^ 24 + c.f 3 0 20) →
    exec (.treeSet c) s = .next (concluded opTreeSet c 0x00 [] (putKids (c.f 2 0 3) (treeKids c)
      (wrIp (LND_TREE_ADDR (c.f 2 0 3)) (if bit (c.w 2) 9 then 0 else c.ip 4)
        ((u.wr (LND_TREE_ID (c.f 2 0 3)) id).wr (LND_TREE_N (c.f 2 0 3)) (treeKids c).length))))) ∧
  (∀ c s u es v, Runs opLndGateLoad c s u → c.f 2 8 7 ≤ 64 → es = (List.range (c.f 2 8 7)).map (fun i => lndEnt (c.w64 (4 + 2 * i))) →
    lndListBad es = 0 →
    v = (let w := u.each (List.range 64) (fun i t => t.wr (LND_ENT (c.f 2 0 1) 1 i) (es.getD i 0))
         { w with lnd := { w.lnd with gateVer := Tbl.set w.lnd.gateVer (2 * c.f 2 0 1 + 1) (c.f 3 0 16) } }) →
    exec (.lndGateLoad c) s = .next (concluded opLndGateLoad c 0x00 []
      (if c.f 2 0 1 = 0 then v.setF LND_GATE_VER 16 16 (c.f 3 0 16) else v))) ∧
  (∀ c s u cyc, Runs opLndGateSwap c s u → cyc = c.w 2 + c.f 3 0 8 * 2 ^ 32 → cycReached (cycleOf u.now + 64) cyc = true →
    exec (.lndGateSwap c) s = .next (concluded opLndGateSwap c 0x00 []
      (if c.f 4 0 2 = 0 then u else (u.each ((List.range 2).filter (bit (c.f 4 0 2))) (fun st t =>
        { t with lnd := { t.lnd with swap := Tbl.set t.lnd.swap st cyc } })).wr LND_GATE_CYC (2 ^ 63 + cyc)))) ∧
  (∀ c s u, Runs opLndGateSwap c s u → cycReached (cycleOf u.now + 64) (c.w 2 + c.f 3 0 8 * 2 ^ 32) = false →
    exec (.lndGateSwap c) s = .next (turnedAway opLndGateSwap c 0x14 [] u))

/-- The commands of stations, chains and the Timetable (R21, R100, R113, R114, R121, R128) on the operands they accept. The model's
choices: TMT_SWAP's ruling has PARCEL 0, its chain's level and its chain (log 73), and asks that both lists have been loaded
(log 106); LANE_UNFENCE clears the link's bit in the fault map once none of its lanes is fenced (log 105). -/
def Obligations.ChainCommandsComplete : Prop :=
  (∀ c s u, Runs opStationSet c s u → stationFits u.build (c.f 2 0 20) = true →
    (∀ ch ∈ u.chainList, u.getB (CHN_STATUS ch) 13 = false) → u.par.ctxs = [] →
    exec (.stationSet c) s = .next (concluded opStationSet c 0x00 [] (u.wr CHN_STATION (2 ^ 31 + c.f 2 0 20)))) ∧
  (∀ c s u, Runs opChainSet c s u → (∀ p ∈ pairsOf c.params, chainSetBad p.1 p.2 = false) →
    exec (.chainSet c) s = .next (concluded opChainSet c 0x00 [] (u.each (pairsOf c.params) (fun p t =>
      if p.1 = 4 then t.wr CHN_CTL p.2 else if p.1 = 8 then t.wr CHN_LISTEN_DLY p.2 else t.wr CHN_LISTEN_DLY_E p.2)))) ∧
  (∀ c s u st cyc, Runs opSplice c s u → st = c.f 2 0 20 → cyc = u.rd (TMT_CYC (stChain st)) + c.f 3 0 16 →
    16 ≤ c.f 3 0 16 → c.f 3 0 16 ≤ 4096 → spliceBad u (stChain st) st (bit (c.w 2) 24) cyc = false →
    exec (.splice c) s = .next (begun opSplice c .waiting (.nums [stChain st, st, b2n (bit (c.w 2) 24), cyc])
      (announce (stChain st) st (bit (c.w 2) 24) cyc u))) ∧
  (∀ c s u, Runs opSpliceReq c s u → u.inserted 0 = true →
    exec (.spliceReq c) s = .next (begun opSpliceReq c .waiting .plain { u with out := u.out ++ [.spliceReq u.station] })) ∧
  (∀ c s u ch dir es v w, Runs opTmtLoad c s u → dir = c.f 2 0 1 → ch = c.f 2 1 1 → c.f 2 8 7 ≤ 64 →
    es = (List.range (c.f 2 8 7)).map (fun i => c.w64 (4 + 2 * i) % 2 ^ 48) → gateListBad es = 0 → (∀ e ∈ es, fld e 0 10 ≠ 0) →
    v = ((u.each (List.range 64) (fun n t => t.wr (TMT_ENT ch (2 + dir) n) ((Tbl.get? ((List.range (c.f 2 8 7)).zip es) n).getD 0 % 2 ^ 48))).setF
      (TMT_VER ch) 16 16 (c.f 3 0 16)).putB (TMT_CTL ch) 0 true →
    w = sendAll ch 0xD 0 (tmtListBytes (c.f 3 0 16) dir 1 es)
      (v.setChain ch { v.chain ch with adminGot := Tbl.set (v.chain ch).adminGot dir 0 }) →
    exec (.tmtLoad c) s = .next (if ackedAll w ch dir then concluded opTmtLoad c 0x00 [] w
      else begun opTmtLoad c .waiting (.nums [ch, dir]) w)) ∧
  (∀ c s u ch t k, Runs opTmtSwap c s u → ch = c.f 5 0 1 → c.time 2 = some t → (cycleTime 64 : Int) ≤ timeDiff t u.now →
    (∀ d, d < 2 → (Tbl.get? (u.chain ch).adminGot d).isSome ∧ ackedAll u ch d = true) →
    k = (if cycleTime (cycleOf t) < t then cycleOf t + 1 else cycleOf t) →
    exec (.tmtSwap c) s = .next (begun opTmtSwap c .waiting (.nums [ch, k])
      (issueRuling .nobody
        { no := 0, kind := 7, atEpoch := false, fleet := true, effect := cycleTime k % clockMod, issuer := 0,
          level := 1, parcel := 0, body := leBytes 2 (u.getF (TMT_VER ch) 16 16) ++ leBytes 5 k ++ zeros 1, chain := ch } u))) ∧
  (∀ c s u ch sd m v w, Runs opLaneUnfence c s u → sd = (if c.f 2 0 1 = 1 then Side.east else Side.west) →
    ch = (if u.isTray then c.f 2 1 1 else 0) → m = c.f 2 4 4 → v = u.setF (CHN_LANES ch) (lanesLo sd) 4 (u.fencedRx ch sd &&& (m ^^^ 15)) →
    w = (if m = 0 then v else queueRow ch (.lanes sd m false) v) →
    exec (.laneUnfence c) s = .next (concluded opLaneUnfence c 0x00 []
      (if w.fencedRx ch sd = 0 then clearLink ch (linkOf 0 sd) 1 w else w)))

/-- The host target port's rows for registers as a whole (R9 to R12, R42, R551): a read shows the register, one of an RC counter
starts it anew too, at 0 or where it shows an extreme at the present value; a write of a W1C register clears what it writes 1, LOG_CURSOR
takes its 15 bits, and a write of a read-only register changes nothing. -/
def Obligations.RegisterAccessesComplete : Prop :=
  (∀ rq off data s h, PortOpen s → Names s off h → h.row.acc = .w1c →
    exec (.w1cWrite rq off data) s = .next (s.wr h.at (s.rd h.at &&& ((data.toNat % 2 ^ h.at.width) ^^^ (2 ^ h.at.width - 1) |||
      (if h.row.base = WIT_EVT.off then 0xFF00 else 0))))) ∧
  (∀ rq off s h, PortOpen s → Names s off h → h.row.acc = .rc → pairOf h = none →
    exec (.rcRead rq off) s = .next ((s.wr h.at (s.cleared h)).emit (.readData rq off (BitVec.ofNat 64 (s.shown h))))) ∧
  (∀ rq (data : DWord) s, PortOpen s →
    exec (.registerWrite rq LOG_CURSOR.off false data) s = .next (s.wr LOG_CURSOR (data.toNat % 2 ^ 15))) ∧
  (∀ rq off data s h, PortOpen s → Names s off h → (h.row.acc = .ro ∨ h.row.acc = .rc) →
    exec (.registerWrite rq off h.row.wide data) s = .next s) ∧
  (∀ rq off data s h, PortOpen s → Names s off h → h.row.dom = .crst → pairOf h = none →
    exec (.computeRegisterAccess rq off false h.row.wide data) s = .next
      ((if h.row.acc = .rc then s.wr h.at (s.cleared h) else s).emit (.readData rq off (BitVec.ofNat 64 (s.shown h))))) ∧
  (∀ rq off data s h, PortOpen s → Names s off h → h.row.dom = .crst →
    (h.row.acc = .w1c → exec (.computeRegisterAccess rq off true h.row.wide data) s = .next
      (s.wr h.at (s.rd h.at &&& ((data.toNat % 2 ^ h.at.width) ^^^ (2 ^ h.at.width - 1) |||
        (if h.row.base = WIT_EVT.off then 0xFF00 else 0))))) ∧
    (h.row.acc = .ro ∨ h.row.acc = .rc → exec (.computeRegisterAccess rq off true h.row.wide data) s = .next s))

/-- 32-bit accesses to 64-bit registers (R10): the low half read latches the high half for its requester, whose read of the high
half returns and empties the latch, or shows the register where no latch is its own; a low half written is held for its
requester, and the high half written completes it, or keeps the low half where none is held. Of an RC register the read of the low
half clears the whole and the read of the high half nothing: the model's choice (log 108). -/
def Obligations.HalfAccessesComplete : Prop :=
  (∀ rq off s h, PortOpen s → Names s off h → h.row.wide = true → pairOf h = none → h.row.acc ≠ .rc →
    exec (.lowHalfRead rq off) s = .next ((putLatch rq (some { off := h.at.off, high := s.shown h / 2 ^ 32 }) s).emit
      (.readData rq off (BitVec.ofNat 64 (s.shown h % 2 ^ 32))))) ∧
  (∀ rq off s h t, PortOpen s → Names s off h → h.row.wide = true → pairOf h = none → h.row.acc = .rc →
    t = putLatch rq (some { off := h.at.off, high := s.shown h / 2 ^ 32 }) s →
    exec (.lowHalfRead rq off) s = .next ((t.wr h.at (t.cleared h)).emit
      (.readData rq off (BitVec.ofNat 64 (s.shown h % 2 ^ 32))))) ∧
  (∀ rq off s h, PortOpen s → Names s off h → h.row.wide = true → regAt (off + 4) = some { h with high := true } →
    absentAt s.build (off + 4) = false → pairOf h = none →
    ∀ l, Tbl.get? s.pil.latches rq = some l → l.off = h.at.off →
    exec (.highHalfRead rq (off + 4)) s = .next ((putLatch rq none s).emit (.readData rq (off + 4) (BitVec.ofNat 64 l.high)))) ∧
  (∀ rq off s h, PortOpen s → Names s off h → h.row.wide = true → regAt (off + 4) = some { h with high := true } →
    absentAt s.build (off + 4) = false → pairOf h = none → (∀ l, Tbl.get? s.pil.latches rq = some l → l.off ≠ h.at.off) →
    exec (.highHalfRead rq (off + 4)) s = .next (s.emit (.readData rq (off + 4) (BitVec.ofNat 64 (s.shown h / 2 ^ 32))))) ∧
  (∀ rq off data s h, PortOpen s → Names s off h → h.row.wide = true →
    exec (.lowHalfWrite rq off data) s = .next (putHold rq (some { off := h.at.off, low := data.toNat }) s)) ∧
  (∀ rq off data s h, PortOpen s → Names s off h → h.row.wide = true → regAt (off + 4) = some { h with high := true } →
    absentAt s.build (off + 4) = false → h.row.acc = .ro →
    (∀ x, Tbl.get? s.pil.holds rq = some x → x.off = h.at.off →
      exec (.highHalfWrite rq (off + 4) data) s = .next (putHold rq none s)) ∧
    (Tbl.get? s.pil.holds rq = none → exec (.highHalfWrite rq (off + 4) data) s = .next s)) ∧
  (∀ rq (data : Word) s rd wr, PortOpen s →
    (rd = WAK_DST_RD ∧ wr = WAK_DST_WR ∨ s.build = .tray ∧ (rd = WAK_XR_RD ∧ wr = WAK_XR_WR ∨ rd = STW_SR_RD ∧ wr = STW_SR_WR)) →
    (∀ x, Tbl.get? s.pil.holds rq = some x → x.off = rd.off →
      exec (.highHalfWrite rq (rd.off + 4) data) s = .next
        (if x.low + data.toNat * 2 ^ 32 ≤ s.rd wr then (putHold rq none s).wr rd (x.low + data.toNat * 2 ^ 32)
         else (putHold rq none s).evt CAP_ACC_ERR 0)) ∧
    (Tbl.get? s.pil.holds rq = none →
      exec (.highHalfWrite rq (rd.off + 4) data) s = .next
        (if s.rd rd % 2 ^ 32 + data.toNat * 2 ^ 32 ≤ s.rd wr then s.wr rd (s.rd rd % 2 ^ 32 + data.toNat * 2 ^ 32)
         else s.evt CAP_ACC_ERR 0)))

/-- Reading the clock and the live counters (R10, R60, R145). A read of the low half of a _SUB register, alone or within a 64-bit
read, captures the time of its pair for the requester, of DAT_NOW_SUB the whole clock; the requester's read of the high half
shows the captured value. A live counter is read whole, or low half first with the high half latched for the requester; zero from
a pod that is off, with TAP_EVT.STALE_READ, and zero after the crossing's timeout from one whose TAP_CLK has stopped; on a tray
build the window is absent. -/
def Obligations.LiveReadsComplete : Prop :=
  (∀ rq off s h sub, PortOpen s → Names s off h → h.row.wide = true → pairOf h = some (sub, false) → ∀ wide,
    exec (.datNowCapture rq off wide) s = .next
      ((captureTime rq sub (s.shown h % 2 ^ 48 + s.shownAt (sub + 8) * 2 ^ 48) s).emit
        (.readData rq off (BitVec.ofNat 64 (if wide then s.shown h else s.shown h % 2 ^ 32))))) ∧
  (∀ rq s, PortOpen s → ∀ wide,
    exec (.datNowCapture rq DAT_NOW_SUB.off wide) s = .next ((captureTime rq DAT_NOW_SUB.off (encTime s.now) s).emit
      (.readData rq DAT_NOW_SUB.off (BitVec.ofNat 64 (if wide then timeSub s.now else timeSub s.now % 2 ^ 32))))) ∧
  (∀ rq off s h sub a b, PortOpen s → Names s off h → h.row.wide = true → pairOf h = some (sub, false) →
    regAt (off + 4) = some { h with high := true } → absentAt s.build (off + 4) = false → s.capture? rq sub = some (a, b) →
    exec (.highHalfRead rq (off + 4)) s = .next (s.emit (.readData rq (off + 4) (BitVec.ofNat 64 (a / 2 ^ 32))))) ∧
  (∀ rq running lanes n off s t v, PortOpen s → s.build = .leaf → n < 65536 → off = 0x100000 + 8 * n →
    t = podClock off running (countLanes lanes s) →
    v = (if t.podOn (n / 1024) = true then (if running = true then (t.counter n, t) else (0, cdcTimed (n / 1024) t))
         else (0, t.evt TAP_EVT 0)) →
    exec (.liveCounterRead rq off true running lanes) s = .next (finish (v.2.emit (.readData rq off (BitVec.ofNat 64 v.1)))) ∧
    exec (.liveCounterRead rq off false running lanes) s = .next
      (finish ((putLatch rq (some { off := off, high := v.1 / 2 ^ 32 }) v.2).emit (.readData rq off (BitVec.ofNat 64 (v.1 % 2 ^ 32))))) ∧
    (∀ l, Tbl.get? s.pil.latches rq = some l → l.off = off →
      exec (.liveCounterRead rq (off + 4) false running lanes) s = .next
        (finish ((putLatch rq none t).emit (.readData rq (off + 4) (BitVec.ofNat 64 l.high))))) ∧
    ((∀ l, Tbl.get? s.pil.latches rq = some l → l.off ≠ off) →
      exec (.liveCounterRead rq (off + 4) false running lanes) s = .next
        (finish (v.2.emit (.readData rq (off + 4) (BitVec.ofNat 64 (v.1 / 2 ^ 32))))))) ∧
  (∀ rq wide running lanes off s, PortOpen s → s.build = .tray → 0x100000 ≤ off → off < 0x180000 →
    off % (if wide then 8 else 4) = 0 →
    exec (.liveCounterRead rq off wide running lanes) s = .next
      (finish ((if wide then ((podClock off running (countLanes lanes s)).evt CAP_ABSENT_HIT 0).evt CAP_ABSENT_HIT 0
        else (podClock off running (countLanes lanes s)).evt CAP_ABSENT_HIT 0).emit (.readData rq off 0))))

/-- The ring pointers that the host moves (R373, R413, R499): each is set, unless that would move it beyond its write pointer;
PIL_DONE_RD frees one async slot for each entry it passes. -/
def Obligations.ReadPointerWritesComplete : Prop :=
  (∀ rq (data : Word) s n, PortOpen s →
    ((data.toNat + 2 ^ 32 - s.rd PIL_DONE_WR) % 2 ^ 32 = 0 ∨ 2 ^ 31 ≤ (data.toNat + 2 ^ 32 - s.rd PIL_DONE_WR) % 2 ^ 32) →
    n = (data.toNat + 2 ^ 32 - s.rd PIL_DONE_RD) % 2 ^ 32 → n < 2 ^ 31 →
    exec (.pilDoneRdWrite rq data) s = .next ((s.wr PIL_DONE_RD data.toNat).wr PIL_ASYNC
      ((s.wr PIL_DONE_RD data.toNat).rd PIL_ASYNC - n))) ∧
  (∀ rq (data : Word) s, PortOpen s → 0 < (data.toNat + 2 ^ 32 - s.rd PIL_DONE_WR) % 2 ^ 32 →
    (data.toNat + 2 ^ 32 - s.rd PIL_DONE_WR) % 2 ^ 32 < 2 ^ 31 →
    exec (.pilDoneRdWrite rq data) s = .next (s.evt CAP_ACC_ERR 0)) ∧
  (∀ rq data s, PortOpen s →
    exec (.wakDstRdWrite rq data) s = .next
      (if data.toNat ≤ s.rd WAK_DST_WR then s.wr WAK_DST_RD data.toNat else s.evt CAP_ACC_ERR 0)) ∧
  (∀ rq data s, PortOpen s → s.build = .tray →
    exec (.wakXrRdWrite rq data) s = .next
      (if data.toNat ≤ s.rd WAK_XR_WR then s.wr WAK_XR_RD data.toNat else s.evt CAP_ACC_ERR 0)) ∧
  (∀ rq data s, PortOpen s → s.build = .tray →
    exec (.stwSrRdWrite rq data) s = .next
      (if data.toNat ≤ s.rd STW_SR_WR then s.wr STW_SR_RD data.toNat else s.evt CAP_ACC_ERR 0))

/-- Accesses the port refuses (R9, R42, R551): a width or alignment it lacks sets CAP_ACC_ERR, a range the build lacks sets
CAP_ABSENT_HIT, a compute-tier register whose tier is powered off sets CAP_SLEEP_HIT; a read then returns zero and a write has no
other effect. While ZY_CRST_N is asserted CMP_CLK may stop (R522): an access that waits for it then ends at the timeout of crossing
0x0A1 with zero data and no flag (R455, R553), and elsewhere a read shows the register and a write has no effect; whether the clock
has stopped is a free value, the model's choice (log 137). -/
def Obligations.RefusedAccessesSetTheirBits : Prop :=
  (∀ rq off write size data s, PortOpen s → (size ≠ 4 ∧ size ≠ 8 ∨ size = 4 ∧ off % 4 ≠ 0 ∨ size = 8 ∧ off % 8 ≠ 0) →
    exec (.refusedAccess rq off write size data) s = .next
      (if write then s.evt CAP_ACC_ERR 0 else (s.evt CAP_ACC_ERR 0).emit (.readData rq off 0))) ∧
  (∀ rq off write data s, PortOpen s → off % 4 = 0 → absentAt s.build off = true → ¬(0x10000 ≤ off ∧ off < 0x15000) →
    exec (.refusedAccess rq off write 4 data) s = .next
      (if write then s.evt CAP_ABSENT_HIT 0 else (s.evt CAP_ABSENT_HIT 0).emit (.readData rq off 0))) ∧
  (∀ rq off write data s h, PortOpen s → off % 4 = 0 → absentAt s.build off = false → regAt off = some h → s.sleepHit h = true →
    ¬(0x10000 ≤ off ∧ off < 0x15000) → ¬(0x100000 ≤ off ∧ off < 0x180000) →
    exec (.computeRegisterAccess rq off write false data) s = .next
      (if write then s.evt CAP_SLEEP_HIT 0 else (s.evt CAP_SLEEP_HIT 0).emit (.readData rq off 0))) ∧
  (∀ rq off data s h u, PortOpen s → off % 4 = 0 → absentAt s.build off = false → regAt off = some h →
    s.sleepHit h = false → s.heldHit h = true → h.row.wide = false → u = s.draw.2 →
    ¬(0x10000 ≤ off ∧ off < 0x15000) → ¬(0x100000 ≤ off ∧ off < 0x180000) →
    exec (.computeRegisterAccess rq off false false data) s = .next (finish
      (if s.draw.1.toNat % 2 = 1 then (cdcTimed 0xA1 u).emit (.readData rq off 0)
       else (if h.row.acc = .rc then u.wr h.at (u.cleared h) else u).emit (.readData rq off (BitVec.ofNat 64 (u.shown h))))) ∧
    exec (.computeRegisterAccess rq off true false data) s = .next (finish
      (if s.draw.1.toNat % 2 = 1 then cdcTimed 0xA1 u else u)))

/-- APERTURE_WRITE (R405 to R407): a word fills the aperture, and the write that brings the count to LENGTH launches the command
its words spell; a BUSY aperture counts and drops it, aperture 4 takes it at AUTH_LEVEL 3 alone. A 64-bit write writes two words and
the launch is decided once after both, and one refused counts once: the model's choice (log 22). -/
def Obligations.ApertureWriteFillsAndLaunches : Prop :=
  (∀ auth rq ap off data s x words, PortOpen s → ap < 5 → (ap = 4 → auth = 3) → off < 0x1000 → off % 4 = 0 →
    s.pil.booted = true → (s.aperture ap).st ≠ .busy →
    x = (let y : Aperture := if (s.aperture ap).st = .filling then s.aperture ap
                             else { st := .filling, count := 0, have0 := false, mem := [], reply := [] }
         { y with count := y.count + 1, have0 := y.have0 || off == 0,
                  mem := Tbl.set y.mem (off / 4) (BitVec.ofNat 32 data.toNat) }) →
    words = (List.range 1024).map (fun i => (Tbl.get? x.mem i).getD 0#32) →
    (x.have0 = false ∨ (2 ≤ fld (wAt words 0) 16 16 ∧ fld (wAt words 0) 16 16 ≤ 1024 ∧ x.count < fld (wAt words 0) 16 16) →
      exec (.apertureWrite auth rq ap off false data) s = .next (s.setAperture ap x)) ∧
    (x.have0 = true → (fld (wAt words 0) 16 16 < 2 ∨ 1024 < fld (wAt words 0) 16 16 ∨ fld (wAt words 0) 16 16 ≤ x.count) →
      exec (.apertureWrite auth rq ap off false data) s = .next
        (finish (runOpcode (fld (wAt words 0) 0 8) (cmdOf (.aperture ap) auth x.count words) (s.setAperture ap x))))) ∧
  (∀ auth rq ap off data s x words, PortOpen s → ap < 5 → (ap = 4 → auth = 3) → off < 0x1000 → off % 8 = 0 →
    s.pil.booted = true → (s.aperture ap).st ≠ .busy →
    x = (let y : Aperture := if (s.aperture ap).st = .filling then s.aperture ap
                             else { st := .filling, count := 0, have0 := false, mem := [], reply := [] }
         { y with count := y.count + 2, have0 := y.have0 || off == 0,
                  mem := Tbl.set (Tbl.set y.mem (off / 4) (BitVec.ofNat 32 data.toNat)) (off / 4 + 1)
                    (BitVec.ofNat 32 (data.toNat / 2 ^ 32)) }) →
    words = (List.range 1024).map (fun i => (Tbl.get? x.mem i).getD 0#32) →
    (x.have0 = false ∨ (2 ≤ fld (wAt words 0) 16 16 ∧ fld (wAt words 0) 16 16 ≤ 1024 ∧ x.count < fld (wAt words 0) 16 16) →
      exec (.apertureWrite auth rq ap off true data) s = .next (s.setAperture ap x)) ∧
    (x.have0 = true → (fld (wAt words 0) 16 16 < 2 ∨ 1024 < fld (wAt words 0) 16 16 ∨ fld (wAt words 0) 16 16 ≤ x.count) →
      exec (.apertureWrite auth rq ap off true data) s = .next
        (finish (runOpcode (fld (wAt words 0) 0 8) (cmdOf (.aperture ap) auth x.count words) (s.setAperture ap x))))) ∧
  (∀ auth rq ap off data s, PortOpen s → ap < 5 → (ap = 4 → auth = 3) → off < 0x1000 → off % 4 = 0 →
    (s.pil.booted = false ∨ (s.aperture ap).st = .busy) →
    exec (.apertureWrite auth rq ap off false data) s = .next ((s.inc PIL_BUSY_WR 1).evt PIL_EVT 6) ∧
    (off % 8 = 0 → exec (.apertureWrite auth rq ap off true data) s = .next ((s.inc PIL_BUSY_WR 1).evt PIL_EVT 6))) ∧
  (∀ auth rq off data s, PortOpen s → auth ≠ 3 → off < 0x1000 → off % 4 = 0 →
    exec (.apertureWrite auth rq 4 off false data) s = .next (s.evt CAP_ACC_ERR 0))

/-- The three resets (R405, R414, R515 to R519): ZY_PORST_N asserted leaves every register but those in MRAM at its reset value
and keeps what lies outside the block; released, it samples the straps, FLT_CTL.TEST_MODE among them; ZY_HRST_N asserted empties the apertures, the done
queue and the port's own state; ZY_CRST_N asserted loses the compute tier's state. The model's choices: the blank state of the units
(log 15), the levels of the inputs (log 4) and the OTP (log 17) in `resetOf`; what the discarded channels hold (log 44, with R520);
ZY_CRST_N abandons a transition, and its release leaves a tier in SLEEP that a request put there (log 93); a unit of the Logbook that
is being written when ZY_PORST_N is asserted is cut (log 136). -/
def Obligations.ResetsComplete : Prop :=
  (∀ s t v, t = State.resetOf s.build → v = logCut s →
    exec .zyPorstNAssert s = .next
      { t with pending := v.pending, out := v.out, free := v.free, hostMem := v.hostMem, holdMem := v.holdMem, otpBond := v.otpBond,
               regs := v.regs.filter (fun e => domAt e.1 == .mram),
               log := { t.log with units := v.log.units, dropped := v.log.dropped, torn := v.log.torn, clears := v.log.clears },
               pins := { v.pins with por := true } }) ∧
  (∀ s, s.log.writes = [] → logCut s = s) ∧
  (∀ x s v n, s.pins.por = true →
    n = ((List.range (bondGroups s.build)).filter (fun g => decide (1 ≤ (Tbl.get? s.otpBond g).getD 0) &&
      decide ((Tbl.get? s.otpBond g).getD 0 ≤ 32))).length →
    v = logPowerOn ((({ s with pins := { s.pins with por := false, straps := x, memTrained := x.memTrained, lndUp := x.lndUp,
                                                     tapOn := x.tapOn } } : State).setF CDC_BOND_STATUS 0 16 n).putB FLT_CTL 1 x.testMode) →
    (v.pins.crst = true → exec (.zyPorstNRelease x) s = .next (finish v)) ∧
    (v.pins.crst = false → v.bondBad { bad := x.bondBad } = none →
      exec (.zyPorstNRelease x) s = .next (finish ((v.setF CDC_BOND_STATUS 30 2 3).wr CDC_BOND_BAD 0))) ∧
    (∀ g, v.pins.crst = false → v.bondBad { bad := x.bondBad } = some g →
      exec (.zyPorstNRelease x) s = .next (finish (bondFails g v)))) ∧
  (∀ s t, s.pins.por = false → t = resetRegs .hrst [] (if s.pins.hrst then s else flushTaps s) →
    exec .zyHrstNAssert s = .next (finish
      (({ t with
          pins := { t.pins with hrst := true },
          pil := { t.pil with
            aps := [], latches := [], holds := [], captures := [],
            launchQ := t.pil.launchQ.map (fun x => match x with
              | .cmd code c => .cmd code (match c.src with
                | .aperture _ => { c with src := .aperture 5 }
                | _ => c)
              | y => y),
            jobs := t.pil.jobs.map (fun j => { j with cmd := (match j.cmd.src with
              | .aperture _ => { j.cmd with src := .aperture 5 }
              | _ => j.cmd) }) } } : State).wr PIL_ASYNC (s.pil.jobs.filter (·.async)).length))) ∧
  (∀ s, Quiet s → exec .zyHrstNRelease s = .next { s with pins := { s.pins with hrst := false } }) ∧
  (∀ s t, s.pins.por = false → s.pins.crst = false →
    t = ({ s with pins := { s.pins with crst := true }, plm := { s.plm with goal := none } } : State).putB PLM_POWER 3 false →
    exec .zyCrstNAssert s = .next (finish
      (if s.powerState = 2 then t else computeLost false (epochsAsleep t)))) ∧
  (∀ s, s.pins.por = true → exec .zyHrstNAssert s = .next (finish { s with pins := { s.pins with hrst := true } })) ∧
  (∀ bond s, s.pins.por = false → s.pins.crst = true → (s.powerState = 2 → s.bondFail = true) →
    exec (.zyCrstNRelease bond) s = .next (finish (tierUp bond
      ((({ s with pins := { s.pins with crst := false } } : State).putB PLM_POWER 2 false).setF PLM_POWER 4 2 0))))

/-- Pilot boots with every aperture FREE (R405), and the compute tier changes state as its request asks (R447, R464, R465, R555):
an entry from ACTIVE once what has begun has ended and no compute-tier source is in GRACE, an exit through the bond test from SLEEP
and without it from DOZE, a change between DOZE and SLEEP, and the release of a quiesced unit, after which Cadastre and Transit
reload. The entry waits for the flush of the trace while it may (R376), and SLEEP to DOZE tests the bond as an exit from SLEEP does
(R465, R536, R555); that it tests it by the pattern last seen, and what is tested at all, are the model's choice (log 93). A row whose change is not asked for, or cannot come yet, leaves the block as it is, and so does each of them in reset. -/
def Obligations.PowerChangesComplete : Prop :=
  (∀ s, Running s → exec .pilotBoot s = .next { s with pil := { s.pil with booted := true, aps := [] } }) ∧
  (∀ s t v, s.pins.por = false → s.plm.goal = some t → t ≠ 0 → s.powerState = 0 → s.pins.crst = false →
    s.cad.pass = none → s.trn.pass = none → s.wit.run = none → s.wit.selfRun = none →
    (∀ n, n < 64 → fltCompute n = true → s.fltState n ≠ 1) →
    ∀ w, w = wakPowerDown (t == 2) s →
    v = epochsAsleep (requeueJobs false (holdWork (flushEnd w))) →
    exec .powerEntry s = .next (finish (if w.flushWaits then w else endTransition t (if t = 2 then computeLost true v else v)))) ∧
  (∀ s, Running s → (s.plm.goal = none ∨ s.plm.goal = some 0 ∨ s.computeActive = false ∨ s.cad.pass ≠ none ∨ s.trn.pass ≠ none ∨
      s.wit.run ≠ none ∨ s.wit.selfRun ≠ none ∨ ∃ n, n < 64 ∧ fltCompute n = true ∧ s.fltState n = 1) →
    exec .powerEntry s = .next s) ∧
  (∀ bond s v, s.pins.por = false → s.plm.goal = some 0 → s.powerState = 2 → s.pins.crst = false →
    v = ({ s with pins := { s.pins with straps := { s.pins.straps with bondBad := bond.bad } } } : State) →
    (∀ g, v.bondBad bond = some g → exec (.powerExit bond) s = .next (finish (bondFails g v))) ∧
    (v.bondBad bond = none → exec (.powerExit bond) s = .next (finish (nowActive true
      ((v.setF CDC_BOND_STATUS 30 2 3).wr CDC_BOND_BAD 0))))) ∧
  (∀ bond s, s.pins.por = false → s.plm.goal = some 0 → s.powerState ≠ 0 → s.powerState ≠ 2 → s.pins.crst = false →
    exec (.powerExit bond) s = .next (finish (nowActive s.wak.downSleep s))) ∧
  (∀ bond s, Running s → (s.plm.goal ≠ some 0 ∨ s.powerState = 0 ∨ s.pins.crst = true) → exec (.powerExit bond) s = .next s) ∧
  (∀ s, s.pins.por = false → s.pins.crst = false → s.powerState = 1 → s.plm.goal = some 2 →
    (∀ n, n < 64 → fltCompute n = true → s.fltState n ≠ 1) →
    ∀ w, w = wakDozeSleep s →
    exec .dozeSleepChange s = .next (finish (if w.flushWaits then w else endTransition 2 (computeLost true w)))) ∧
  (∀ s, s.pins.por = false → s.pins.crst = false → s.powerState = 2 → s.plm.goal = some 1 →
    (∀ g, s.bondBad { bad := s.pins.straps.bondBad } = some g → exec .dozeSleepChange s = .next (finish (bondFails g s))) ∧
    (s.bondBad { bad := s.pins.straps.bondBad } = none →
      exec .dozeSleepChange s = .next (finish (endTransition 1 ((s.setF CDC_BOND_STATUS 30 2 3).wr CDC_BOND_BAD 0))))) ∧
  (∀ s, Running s → (s.pins.crst = true ∨ ¬(s.powerState = 1 ∧ s.plm.goal = some 2) ∧ ¬(s.powerState = 2 ∧ s.plm.goal = some 1) ∨
      s.powerState = 1 ∧ ∃ n, n < 64 ∧ fltCompute n = true ∧ s.fltState n = 1) →
    exec .dozeSleepChange s = .next s) ∧
  (∀ u s t, s.pins.por = false → u ∈ s.flt.quiesced →
    t = ({ s with flt := { s.flt with quiesced := s.flt.quiesced.filter (· != u) } } : State) →
    exec (.quiesceRelease u) s = .next (finish
      (if u = .cadastre ∧ s.computeActive = true then reloadAsk t
       else if u = .transit ∧ s.computeActive = true then trnReloadAsk t else t))) ∧
  (∀ u s, Running s → u ∉ s.flt.quiesced → exec (.quiesceRelease u) s = .next s) ∧
  (∀ i u bond s, i ∈ [Instr.pilotBoot, .powerEntry, .powerExit bond, .dozeSleepChange, .quiesceRelease u] → s.pins.por = true →
    exec i s = .next s)

/-- The fault lines (R440, R441, R443, R444): a rising edge is counted and corrected in class C, starts GRACE in class D, escalates in class F,
is nothing more while the grace runs, and is counted and restarts the quiet time once escalated; a pair found invalid is latched
under R441 and escalates, from its grace too, and is held as a pin fault where it has escalated; a grace timer's end escalates. The
model's choices: FAULT_LINE_RISE also ends a line that a timeout marked asserted, and a lasting bad pair that becomes valid, with no
new edge (log 137); line 8 is Pilot's own error, so that a command in its Pilot phase then answers INTERNAL (log 135). -/
def Obligations.FaultEventsComplete : Prop :=
  (∀ n held s t, Running s → fltExists s.build n = true → bit s.flt.lines n = false → bit s.flt.stuck n = false →
    (bit s.flt.badPairs n = false ∨ held = true) → (n = 8 → ∀ j ∈ s.pil.jobs, j.async = true) →
    t = ({ s with flt := { s.flt with
          stuck := s.flt.stuck &&& (2 ^ 64 - 1 - (if fltCompute n then fltComputeMask else 2 ^ n)),
          lines := setFld s.flt.lines n 1 (b2n held), badPairs := setFld s.flt.badPairs n 1 0 } } : State) → t.lineLive n = true →
    (t.fltClass n = 0 →
      exec (.faultLineRise n held) s = .next (rateNote 1 ((t.inc (FLT_SRC_COUNT n) 1).inc FLT_CORRECTED 1))) ∧
    (t.fltClass n = 1 → t.fltState n = 0 → ∀ v, v = rateNote 2 (((putStatus n true (quietRestart t)).inc (FLT_SRC_COUNT n) 1).evt FLT_EVT 0) →
      exec (.faultLineRise n held) s = .next (let w := setFltState n 1 v
        { w with flt := { w.flt with
            graceEnd := Tbl.set w.flt.graceEnd n (t.dat.edges + t.getF (FLT_SRC_CFG n) 0 20 * 1250) } })) ∧
    (t.fltClass n = 2 → t.fltState n = 0 →
      exec (.faultLineRise n held) s = .next (finish (escalate n
        (rateNote 2 (((putStatus n true (quietRestart t)).inc (FLT_SRC_COUNT n) 1).evt FLT_EVT 0))))) ∧
    (t.fltClass n ≠ 0 → t.fltState n = 1 → exec (.faultLineRise n held) s = .next t) ∧
    (t.fltClass n ≠ 0 → t.fltState n = 2 →
      exec (.faultLineRise n held) s = .next ((quietRestart t).inc (FLT_SRC_COUNT n) 1))) ∧
  (∀ n held s, Running s → fltExists s.build n = true → n ≠ 8 →
    (bit s.flt.lines n = true ∨ bit s.flt.stuck n = true ∨ bit s.flt.badPairs n = true ∧ held = false) →
    exec (.faultLineRise n held) s = .next { s with flt := { s.flt with
          stuck := s.flt.stuck &&& (2 ^ 64 - 1 - (if fltCompute n then fltComputeMask else 2 ^ n)),
          lines := setFld s.flt.lines n 1 (b2n held), badPairs := setFld s.flt.badPairs n 1 0 } }) ∧
  (∀ held s j, Running s → s.pil.jobs.find? (fun x => !x.async) = some j →
    exec (.faultLineRise 8 held) s = .next (finish (faultLine 8 held
      (deliverFinal j 0x3F [] ((dropLoading j (s.each (jobLeaves j.id) releaseLeave)).evt PIL_EVT 10))))) ∧
  (∀ n lasting s t v, Running s → s.isTray = true → n < 64 →
    t = ({ s with flt := { s.flt with badPairs := setFld s.flt.badPairs n 1 (b2n lasting) } } : State) →
    v = logEvent 0x12 [BitVec.ofNat 8 n] (((t.wr FLT_WIRE (setBit (t.rd FLT_WIRE) n)).evt FLT_EVT 2).putB (FLT_SRC_STATE n) 28 true) →
    (v.fltState n = 0 → exec (.faultPairInvalid n lasting) s = .next (finish (escalate n
      (rateNote 2 (((putStatus n true (quietRestart v)).inc (FLT_SRC_COUNT n) 1).evt FLT_EVT 0))))) ∧
    (v.fltState n = 1 → exec (.faultPairInvalid n lasting) s = .next (finish (escalate n v))) ∧
    (v.fltState n = 2 → ∀ w, w = (quietRestart v).inc (FLT_SRC_COUNT n) 1 →
      exec (.faultPairInvalid n lasting) s = .next (finish (fltApply { w with flt := { w.flt with
        escalated := Tbl.set w.flt.escalated n (2, 1) } })))) ∧
  (∀ n s, Running s → s.fltState n = 1 → (Tbl.get? s.flt.graceEnd n).getD 0 ≤ s.dat.edges → exec (.graceExpiry n) s = .next (finish (escalate n s)))

/-- Recovery, crossings and ports (R451, R455 to R457, R525, R539, R541, R543): the quiet timer's end withdraws every action and
leaves DEGRADED; a crossing of R527 that times out is counted and raises source 7, a handshake then ends with zero data, and the lines
that it marks asserted rise; the memory and link events raise their sources. -/
def Obligations.RecoveryAndPortEventsComplete : Prop :=
  (∀ s t, Running s → s.getB FLT_STATE 0 = true → (∀ n, n < 64 → s.fltLine n = false ∧ bit s.flt.badPairs n = false) →
    (∀ e ∈ s.flt.escalated, e.2.1 ≠ 2) → s.rd FLT_WIRE = 0 →
    s.flt.quietFrom + s.getF FLT_CTL 16 16 * 1250000 ≤ s.dat.edges →
    t = (s.each (Tbl.keys s.flt.escalated) withdraw).putB FLT_STATE 0 false →
    exec .quietExpiry s = .next (finish (logEvent 0x11
      (leBytes 8 ((Tbl.keys s.flt.escalated).foldl (fun m n => setBit m n) 0)) ((t.inc FLT_RECOVERIES 1).evt FLT_EVT 3)))) ∧
  (∀ x s t v w, Running s → t = ((s.inc CDC_TMO_COUNT 1).wr CDC_TMO_LAST (2 ^ 31 + x % 1024)).evt FLT_EVT 4 →
    v = (if t.getB CDC_TMO_FIRST 31 then t else t.wr CDC_TMO_FIRST (2 ^ 31 + x % 1024)) →
    w = (faultEdge 7 { v with flt := { v.flt with stuck := v.flt.stuck ||| crossingLines x } }).each
      ((List.range 64).filter (fun n => bit (crossingLines x) n && !(v.fltLine n))) faultEdge →
    (crossKind s.build x = none → exec (.cdcTimeout x) s = .next s) ∧
    (crossKind s.build x = some .handshake → exec (.cdcTimeout x) s = .next (finish (w.emit (.crossed x 0)))) ∧
    ((crossKind s.build x = some .fifo ∨ crossKind s.build x = some .event) → exec (.cdcTimeout x) s = .next (finish w))) ∧
  (∀ s, Running s → s.isTray = false →
    exec .hostMasterError s = .next (finish (faultLine 12 false { s with pins := { s.pins with rerr := 1 } }))) ∧
  (∀ p s, Running s → s.isTray = true → p < 12 →
    exec (.holdReadError p) s = .next (finish (faultLine 35 false
      ((({ s with pins := { s.pins with rerr := setBit s.pins.rerr p } } : State).inc HLD_RERR 1).evt HLD_EVT 0)))) ∧
  (∀ p s, Running s → s.isTray = true → p < 12 → bit s.pins.memTrained p = true →
    exec (.holdTrainingLoss p) s = .next (finish (faultLine 36 false
      (({ s with pins := { s.pins with memTrained := clrBit s.pins.memTrained p } } : State).evt HLD_EVT 1)))) ∧
  (∀ st s, Running s → s.isTray = true → st < 2 → bit s.pins.lndUp st = true →
    exec (.landingLinkDown st) s = .next (finish (faultLine 37 false
      { s with pins := { s.pins with lndUp := clrBit s.pins.lndUp st } })))

/-- Leave (R433, R434, R439): a grant shows at LEAVE_GNT at that edge (that PWR_STATE.GNT shows a level of one cycle is the model's
choice, log 133), moves the oldest request to the grants held, notes its wait and reaches the operation it was made
for; a wait that ends refuses it, with those whose waits end then too; either way the next request is presented. -/
def Obligations.LeaveEventsComplete : Prop :=
  (∀ r rs s t, Running s → s.adm.queue = r :: rs →
    t = (({ s with adm := { s.adm with queue := rs, held := s.adm.held ++ [⟨r.purpose, r.amt, r.since⟩], gntAt := some s.dat.edges } } : State).maxR
      PWR_WAIT_MAX ((s.dat.edges - r.since) / 1250)) →
    exec .leaveGrant s = .next (finish (let v := admPresent t
      { v with todo := v.todo ++ [.leaveGranted r.purpose] }))) ∧
  (∀ r rs s late, Running s → s.adm.queue = r :: rs →
    late = (fun (x : LeaveReq) => x.since == r.since || decide (x.since + s.getF PWR_CTL 0 16 * 1250 ≤ s.dat.edges)) →
    exec .leaveWaitExpiry s = .next (finish (admPresent ((refuseLeave r.purpose true
      { s with adm := { s.adm with queue := rs.filter (fun x => !(late x)) } }).each (rs.filter late)
        (fun x t => refuseLeave x.purpose true t)))))

/-- Plumb and the Logbook (R468 to R472, R477, R531): a tick asks an enabled channel's sensor, an answer runs through median and
filter, no answer leaves the channel as it was; the rule tick first puts the staged settings into effect; a rule whose count reaches DWELL fires and one that has fired repeats its
ALARM; each tick of life advances OPTIME; a queued event is written. -/
def Obligations.PlumbLogEventsComplete : Prop :=
  (∀ ch s, Running s → ch < 16 → s.getB (PLM_CH_CFG ch) 31 = true →
    exec (.plumbSampleTick ch) s = .next (({ s with plm := { s.plm with
      waiting := if s.plm.waiting.contains ch then s.plm.waiting else s.plm.waiting ++ [ch] } } : State).emit (.sample ch))) ∧
  (∀ ch data s, Running s → ch ∈ s.plm.waiting → ∀ xs, xs = (data % 65536 :: (Tbl.get? s.plm.raw ch).getD []).take 5 →
    exec (.plumbSampleAnswer ch data) s = .next ((({ s with plm := { s.plm with
        raw := Tbl.set s.plm.raw ch xs, waiting := s.plm.waiting.filter (· != ch) } } : State).wr (PLM_CH_RAW ch) (data % 65536)).wr
      (PLM_CH_FILT ch) (if (Tbl.get? s.plm.raw ch).getD [] = [] then median5 xs * 256
        else ofInt 24 ((s.getF (PLM_CH_FILT ch) 0 24 : Int) + ((median5 xs * 256 : Nat) - (s.getF (PLM_CH_FILT ch) 0 24 : Int)) /
          (2 ^ s.getF (PLM_CH_CFG ch) 24 4 : Nat))))) ∧
  (∀ ch s, Running s →
    exec (.plumbSampleTimeout ch) s = .next { s with plm := { s.plm with waiting := s.plm.waiting.filter (· != ch) } }) ∧
  (∀ s t, Running s → t = ({ s with plm := { s.plm with staged := [] } } : State).each s.plm.staged (fun p u => plmPut p.1 p.2 u) →
    exec .plumbRuleTick s = .next (finish
      ((t.each t.plm.raw (fun e u => extNote e.1 (u.plmValue e.1) u)).each (List.range 32) ruleStep))) ∧
  (∀ r s, Running s → r < 32 → s.getB (PLM_RULE_CFG0 r) 31 = true → s.getF (PLM_RULE_STATE r) 30 2 ≠ 2 → s.ruleHolds r = true →
    s.getF (PLM_RULE_CFG0 r) 0 16 ≤ (if s.getF (PLM_RULE_STATE r) 30 2 = 0 then 1 else s.getF (PLM_RULE_STATE r) 0 16 + 1) →
    exec (.ruleFire r) s = .next (finish (ruleFire r s))) ∧
  (∀ r s, Running s → r < 32 → s.getF (PLM_RULE_STATE r) 30 2 = 2 → s.ruleHolds r = true → s.getB (PLM_RULE_CFG0 r) 26 = true →
    s.getF (PLM_RULE_CFG1 r) 16 16 * 100 ≤ (Tbl.get? s.plm.gap r).getD 0 + 1 →
    exec (.ruleGapAlarm r) s = .next (finish (ruleAlarm r s))) ∧
  (∀ s t, Running s → t = s.wr PLM_OPTIME (min (s.rd PLM_OPTIME + 1) (2 ^ 32 - 1)) →
    exec .lifeTick s = .next (finish (writeAccum (writeIdentity { t with log := { t.log with
      rates := [],
      hist := t.log.hist.map (fun e => (e.1, if e.2.kind = 1 then e.2.sample (t.plmValue e.2.source)
        else e.2.sample ((Tbl.get? t.log.rates e.2.source).getD 0))) } })))) ∧
  (∀ e es s, Running s → s.log.queue = e :: es →
    exec .logEventWrite s = .next (finish (writeEvent e { s with log := { s.log with queue := es } }))) ∧
  (∀ cycles s, Running s → s.getF DAT_STATE 0 3 = 2 →
    exec (.plumbTrim cycles) s = .next { s with plm := { s.plm with trim := some cycles } })

/-- Wake's events (R356, R359 to R372, R377): a data access that passes its tap reaches the machine with the comparators it hits, and
where these decide so enters its tap's FIFO, or is lost where that is full; one excluded, or of a reserved kind, is only counted; a
record of another kind enters the FIFO; a timer whose time has come or a counter that reaches its limit is presented, a timer's event
at the return of the tier where the tier is away; SYNC is due each period; drain copies a unit while the ring has room. The model's choices:
what is held while the tier is away is log 83, that a record is filtered before it enters its FIFO log 122, that both counts of SYNC begin
anew with one dropped log 128, and the order of packets of one cycle logs 6 and 123. -/
def Obligations.WakeEventsComplete : Prop :=
  (∀ n auth r s t, Running s → s.wakRuns = true → n < 8 → r.kind = 0 → s.secExcluded auth r = false →
    s.getB (WAK_TAP_CFG n) 31 = true → s.getB (WAK_TAP_CFG n) (if r.write then 29 else 30) = true → s.tapEngine n r.engine = true →
    ∀ hits, hits = (List.range 16).filter (fun k => s.rangeHit k r.addr r.size) →
    t = (if s.capture = 0 then s else { s with wak := { s.wak with evs := s.wak.evs ++ hits.map .range } }) →
    ((∀ k ∈ hits, s.rangeMode k ≠ 2) ∧ ((∀ k, k < 16 → s.rangeMode k ≠ 1) ∨ ∃ k ∈ hits, s.rangeMode k = 1) →
      exec (.wakeTapRecord n auth r) s = .next (finish (
        if s.capture = 0 then t
        else if 64 ≤ (t.wak.queue.filter (fun x => x.rank == n + 1)).length then
          noteLoss 0 1 0 ((t.inc WAK_FIFO_DROP 1).evt WAK_EVT 3)
        else wakEnqueue (n + 1) (t.capture == 3) (.access n r) t))) ∧
    (¬((∀ k ∈ hits, s.rangeMode k ≠ 2) ∧ ((∀ k, k < 16 → s.rangeMode k ≠ 1) ∨ ∃ k ∈ hits, s.rangeMode k = 1)) →
      exec (.wakeTapRecord n auth r) s = .next (finish t))) ∧
  (∀ n auth r s, Running s → s.computeActive = true → n < 8 → r.kind = 0 → s.secExcluded auth r = true →
    exec (.wakeTapRecord n auth r) s = .next (s.inc WAK_SEC_EXCL 1)) ∧
  (∀ n auth r s, Running s → s.computeActive = true → n < 8 → 2 < r.kind →
    exec (.wakeTapRecord n auth r) s = .next (s.inc WAK_FIFO_DROP 1)) ∧
  (∀ n auth r s body, Running s → s.wakRuns = true → n < 8 → (r.kind = 1 ∨ r.kind = 2) →
    s.getB (WAK_TAP_CFG n) 31 = true → s.getB (WAK_TAP_CFG n) 28 = true → s.tapEngine n r.engine = true →
    body = (if r.kind = 1 then WakBody.packet 6 n (leBytes 2 (r.engine % 4096) ++ leBytes 8 r.addr ++ padTo 2 r.data)
      else .packet 7 n (leBytes 2 (r.engine % 4096) ++ padTo 4 r.data)) →
    exec (.wakeTapRecord n auth r) s = .next (finish (
      if s.capture = 0 then s
      else if 64 ≤ (s.wak.queue.filter (fun x => x.rank == n + 1)).length then
        noteLoss 0 0 1 ((s.inc WAK_FIFO_DROP 1).evt WAK_EVT 3)
      else wakEnqueue (n + 1) (s.capture == 3) body s))) ∧
  (∀ n s e, Running s → Tbl.get? s.wak.timers n = some e →
    (timeDiff s.now e < 0 → exec (.wakeTimerExpiry n) s = .next s) ∧
    (0 ≤ timeDiff s.now e → s.capture ≠ 0 →
      exec (.wakeTimerExpiry n) s = .next { s with wak := { s.wak with
        timers := Tbl.erase s.wak.timers n
        evs := if s.wakRuns = true then s.wak.evs ++ [.timer n] else s.wak.evs
        held := if s.wakRuns = true then s.wak.held else heldInsert (e, .timer n) s.wak.held } })) ∧
  (∀ n s t, Running s → n < 4 → s.capture ≠ 0 → s.wakRuns = true → s.cntOn n = true → s.rd (WAK_CNT_LIMIT n) ≤ s.rd (WAK_CNT_VAL n) + 1 →
    t = s.wr (WAK_CNT_VAL n) 0 →
    exec (.wakeCounterLimit n) s = .next { t with wak := { t.wak with evs := t.wak.evs ++ [.cnt n] } }) ∧
  (∀ s, Running s → s.capturing = true → s.computeActive = true → (∀ x ∈ s.wak.queue, x.isSync = false) →
    (4096 ≤ s.wak.since ∨ (nsU 1000000 : Nat) ≤ timeDiff s.now s.wak.syncAt) →
    exec .wakeSyncPeriodic s = .next (wakEnqueue 0 (s.capture == 3)
      (.sync 0 s.now (s.wakState + s.capture * 8 + b2n s.interest * 32)) s)) ∧
  (∀ s t, Running s → s.drainWants = true → s.dstRoom = true →
    t = wakLeave (drainOne s) → (t.wak.flushing = true → t.wakQueued = 0 → t.wak.queue ≠ []) →
    exec .wakeDrainUnit s = .next (finish t)) ∧
  (∀ s, Running s → s.drainWants = true → s.dstRoom = false → exec .wakeDrainUnit s = .next s)

/-- The test schedule (R393, R394, R398, R392): an engine falls due, and its policy acts when its window passes; a grant taken on
asks for leave, and of grants of one edge the lowest-numbered engine's is taken (R394; an edge stands for a cycle, log 85); a grant lost aborts the run; a wait after a refusal and an unfinished staging end. -/
def Obligations.TestScheduleComplete : Prop :=
  (∀ n s, Running s → n < 64 → s.engSt n = 1 → s.rd (WIT_ENG_DUE n) ≤ s.nowMs →
    exec (.witnessDue n) s = .next (finish (
      if s.packsOf (s.getF (WIT_ENG_CFG n) 0 8) = [] then
        (let t := s.wr (WIT_ENG_DUE n) ((s.nowMs + s.rd (WIT_ENG_PER n)) % 2 ^ 58)
         if t.computeOff then t else t.inc WIT_NO_PACK 1)
      else setEng n 2 s))) ∧
  (∀ n s, Running s → n < 64 → s.engSt n = 2 → s.rd (WIT_ENG_DUE n) + s.rd (WIT_ENG_WIN n) ≤ s.nowMs →
    s.getF (WIT_ENG_CFG n) 29 2 ≠ 2 →
    exec (.witnessWindowExpiry n) s = .next (finish (
      let t := setEng n 3 (if s.computeOff then s else (s.inc WIT_OVERDUE 1).evt WIT_EVT 1)
      if s.getF (WIT_ENG_CFG n) 29 2 = 1 then setPreempt n true t else t))) ∧
  (∀ n s, Running s → n < 64 → s.engSt n = 2 → s.rd (WIT_ENG_DUE n) + s.rd (WIT_ENG_WIN n) ≤ s.nowMs →
    s.getF (WIT_ENG_CFG n) 29 2 = 2 →
    exec (.witnessWindowExpiry n) s = .next (finish (
      logEvent 0x22 (leBytes 2 n) (setEng n 5 (runOver n (if s.computeOff then s else s.inc WIT_OVERDUE 1)))))) ∧
  (∀ n s t, Running s → n < 64 → bit s.wit.gnt n = false → s.wit.taken = none →
    t = ({ s with wit := { s.wit with gnt := setFld s.wit.gnt n 1 1 } } : State) →
    t.testReq n = true → t.witBusy = false →
    exec (.testGntRise n) s = .next (finish (askLeave 4 (t.pwrClass WIT_PWR) (t.pwrAmt WIT_PWR) (.witness n)
      { t with wit := { t.wit with taken := some n, takenAt := t.dat.edges } }))) ∧
  (∀ n m s r u t, Running s → n < 64 → bit s.wit.gnt n = false → s.wit.taken = some m → n < m → s.wit.takenAt = s.dat.edges →
    s.wit.run = none → ({ s with wit := { s.wit with taken := none } } : State).testReq n = true →
    r = releaseLeave (.witness m) s → u = ({ r with wit := { r.wit with taken := none } } : State) →
    t = ({ u with wit := { u.wit with gnt := setFld u.wit.gnt n 1 1 } } : State) →
    bit u.wit.gnt n = false → t.testReq n = true → t.witBusy = false →
    exec (.testGntRise n) s = .next (finish (askLeave 4 (t.pwrClass WIT_PWR) (t.pwrAmt WIT_PWR) (.witness n)
      { t with wit := { t.wit with taken := some n, takenAt := t.dat.edges } }))) ∧
  (∀ n s t, Running s → n < 64 → s.testReq n = true → (s.wit.taken = some n ∨ ∃ r, s.wit.run = some r ∧ r.eng = n) →
    t = ({ s with wit := { s.wit with gnt := setFld s.wit.gnt n 1 0 } } : State) →
    exec (.testGntFall n) s = .next (finish (runAbort n true t))) ∧
  (∀ n s, Running s →
    exec (.witnessLeaveRetry n) s = .next { s with wit := { s.wit with retry := s.wit.retry.filter (· != n) } }) ∧
  (∀ n s g t, Running s → s.wit.staging[n]? = some g → g.frags.length ≠ g.nFrag →
    t = ({ s with wit := { s.wit with staging := s.wit.staging.filter (fun x => !(x.cls == g.cls && x.version == g.version)) } } : State).each
      ((s.wit.staging.filter (fun x => x.cls == g.cls && x.version == g.version)).flatMap (·.bufs)) (fun b u => brtRelease b.1 b.2 u) →
    exec (.witnessStagingTimeout n) s = .next (finish (if t.computeOff then t else (t.inc WIT_PUSH_DROP 1).evt WIT_EVT 3)))

/-- Runs of engine tests and self-tests (R395 to R397, R400): a run injects its record as the store holds it; the right output moves
it on or ends it as a pass; a wrong one, or none in time, fails the record; the self-tests run while the unit is idle. -/
def Obligations.TestRunsComplete : Prop :=
  (∀ n s r t b, Running s → s.wit.run = some r → r.eng = n → r.sent = false → runPack r s = (some b, t) →
    exec (.witnessRunStart n) s = .next (finish (({ t with wit := { t.wit with run := some { r with sent := true } } } : State).emit
      (.inject n r.record (slice b (packRec b (packHead b) r.record).inOff (packRec b (packHead b) r.record).inLen))))) ∧
  (∀ n i bytes s r t b p, Running s → s.wit.run = some r → r.eng = n → r.record = i → r.sent = true →
    runPack r s = (some b, t) → p = packRec b (packHead b) i →
    exec (.witnessRecordReturn n i bytes) s = .next (finish (
      if crc64 bytes ≠ p.digest ∨ bytes.length ≠ p.outLen then recordFails r p.digest (crc64 bytes) t
      else if r.ending = true then runAbort n true t
      else if i + 1 < (packHead b).nRec then injectRecord { r with record := i + 1, sent := false } t
      else runPasses r t))) ∧
  (∀ n i bytes s, Running s → (∀ r, s.wit.run = some r → r.eng ≠ n ∨ r.record ≠ i ∨ r.sent = false) →
    exec (.witnessRecordReturn n i bytes) s = .next (if s.computeOff then s else s.inc WIT_RET_STRAY 1)) ∧
  (∀ n bytes s r t b, Running s → s.wit.run = some r → r.eng = n → r.sent = true → runPack r s = (some b, t) →
    exec (.witnessReturnTimeout n bytes) s = .next (finish
      (recordFails r (packRec b (packHead b) r.record).digest (crc64 bytes) t))) ∧
  (∀ s, Running s → s.getB WIT_CTL 1 = true →
    exec .selfTestDue s = .next { s with wit := { s.wit with selfDue := true } }) ∧
  (∀ cb tb s t, Running s → s.wit.selfDue = true → s.selfIdle = true →
    t = ({ s with wit := { s.wit with selfRun := some { cadBad := cb, talBad := tb } } } : State) →
    exec (.selfTestRun cb tb) s = .next (finish (
      if t.selfRoom = true then askLeave 1 (t.pwrClass CAD_PWR) (t.pwrAmt CAD_PWR) (.cadPass 1) t
      else selfTally { cadBad := cb, talBad := tb } 4 (t.inc WIT_SELF_SKIP 1))))

/-- Reference time (R62, R66, R68, R72, R74): a leaf takes a valid time word as the servo's measurement, unless REF is not 0 or the word
is the second copy of a whole ring, and an inserted one forwards it; what the word says of the ring is shown in either case (R90, R91);
a row that is no time word is counted; the tray build's own word returns; misses and the end of HOLDOVER change the servo's state.
The model's choices: that an inserted leaf with another REF still forwards the word is log 103, and which TSTATE values make the
tray's time bad log 32 (FREE_RUN and ACQUIRE, as R66 names them). -/
def Obligations.ReferenceEventsComplete : Prop :=
  (∀ sd blocks bs rx tx s f t u origin flags, Running s → s.isTray = false → rowPayload 0xA blocks = some bs → rowOk bs = true →
    decTime (leAt bs 0 12) = some origin → flags = leAt bs 20 1 →
    f = ((s.setF DAT_STATE 16 5 (fld flags 0 5 + 1)).putB DAT_STATE 7 (bit flags 5)).setF DAT_CLOSURE 0 16 (leAt bs 18 2) →
    t = wordNote sd (bit flags 5) f → s.chMode 0 ≠ 0 →
    t.inserted 0 = false ∨ t.unseeded 0 sd = false → t.datRef = 0 → (bit flags 5 && bit flags 6) = false →
    u = t.putB DAT_STATE 6 (sd == .east) →
    ∀ w v, w = (if leAt bs 21 1 % 8 ≤ 1 then { u with todo := u.todo ++ [.timeBad] } else u) →
    v = measure (timeDiff (clockAdd origin ((toInt 48 (leAt bs 12 6) + (t.wordDelay sd : Nat) +
        ((fld flags 0 5 + 1 : Nat) : Int) * (if bit flags 5 = true ∧ t.getB DAT_CTL 4 = true then toInt 16 (leAt bs 18 2) else 0)) * 65536))
      (w.rxStamp rx) / 65536) w →
    exec (.timeWordReceive sd blocks rx tx) s = .next (finish (if v.inserted 0 = true then wordForward sd bs rx tx v else v))) ∧
  (∀ sd blocks bs rx tx s f t origin flags, Running s → s.isTray = false → rowPayload 0xA blocks = some bs → rowOk bs = true →
    decTime (leAt bs 0 12) = some origin → flags = leAt bs 20 1 →
    f = ((s.setF DAT_STATE 16 5 (fld flags 0 5 + 1)).putB DAT_STATE 7 (bit flags 5)).setF DAT_CLOSURE 0 16 (leAt bs 18 2) →
    t = wordNote sd (bit flags 5) f → s.chMode 0 ≠ 0 →
    t.inserted 0 = false ∨ t.unseeded 0 sd = false → t.datRef ≠ 0 ∨ (bit flags 5 && bit flags 6) = true →
    exec (.timeWordReceive sd blocks rx tx) s = .next (finish (if t.inserted 0 = true then wordForward sd bs rx tx t else t))) ∧
  (∀ sd blocks rx tx s, Running s → s.isTray = false →
    (∀ bs, rowPayload 0xA blocks = some bs → rowOk bs = false ∨ decTime (leAt bs 0 12) = none) →
    exec (.timeWordReceive sd blocks rx tx) s = .next (s.inc DAT_TW_ERR 1)) ∧
  (∀ ch blocks bs origin rx s, Running s → s.isTray = true → ch < 2 → s.inserted ch = true → rowPayload 0xA blocks = some bs →
    rowOk bs = true → decTime (leAt bs 0 12) = some origin →
    exec (.timeWordReturn ch blocks rx) s = .next (finish (hopCheck ch (wordReturn ch origin bs rx s)))) ∧
  (∀ s, Running s → s.gmHeld = false →
    (s.datState = 2 → exec .refTimeout s = .next (finish (setDatState 3 (putServo s.dat.integ 0 s)))) ∧
    (s.datState = 1 → exec .refTimeout s = .next (finish (setDatState 0 (putServo s.dat.integ 0 s))))) ∧
  (∀ s, Running s → s.datState = 3 →
    exec .holdoverExpiry s = .next (finish (faultEdge 1 (setDatState 0 (s.evt DAT_EVT 2)))))

/-- Pins of time (R76, R80, R83, R85, R91, R533): edges of beats and PPS are stamped 2.4 ns before their capture edge; a pulse rises
at its programmed edge; an armed slot fires once; DIE_STOP falls when nothing requests it; no acknowledge in time is fault 11. -/
def Obligations.TimePinEventsComplete : Prop :=
  (∀ n edge s, Running s → n < 8 →
    exec (.beatEdge n edge) s = .next (finish (wakEvents [.beat n] (beatStamped n edge s)))) ∧
  (∀ edge s t, Running s → s.isTray = true → s.dat.role.role = 2 → s.datRef = 2 →
    t = clockAdd edge (-((24 * 2 ^ 32 / 10 : Nat) : Int)) / 65536 * 65536 →
    exec (.ppsEdge edge) s = .next (finish (measure (timeDiff ((t + secU / 2) / secU * secU % clockMod) t / 65536)
      (({ s with dat := { s.dat with ppsMiss := 0 } } : State).putB DAT_STATE 5 true)))) ∧
  (∀ s t, Running s → t = ({ s with dat := { s.dat with ppsMiss := s.dat.ppsMiss + 1 } } : State).evt DAT_EVT 7 →
    exec .ppsMiss s = .next (finish (if 1 ≤ s.dat.ppsMiss then t.putB DAT_STATE 5 false else t))) ∧
  (∀ n s k t, Running s → k = (Tbl.get? s.dat.pulseNext n).getD 0 → (k = 0 ∨ s.rd (DAT_PLS_PER n) ≠ 0) →
    t = ({ s with dat := { s.dat with pulseNext := Tbl.set s.dat.pulseNext n (k + 1) } } : State) →
    exec (.pulseEdge n) s = .next (finish
      (if s.pulseLive n = true then
        ({ t with dat := { t.dat with pulseOut := Tbl.set t.dat.pulseOut n (t.dat.edges + s.getF (DAT_PLS_CTL n) 0 16) } } : State).emit
          (.pulse n true)
      else t))) ∧
  (∀ m s, Running s → m < 4 → s.getB (DAT_STOP_CTL m) 0 = true → s.getB (DAT_STOP_CTL m) 1 = false →
    exec (.stopSlotFire m) s = .next (finish (dieStopUpdate ((s.putB (DAT_STOP_CTL m) 1 true).evt DAT_EVT 8)))) ∧
  (∀ s, Running s → s.dat.dieStop = true → s.stopWanted = false → s.dat.dieRise + 1250 ≤ s.dat.edges →
    exec .dieStopRelease s = .next { s with dat := { s.dat with dieStop := false },
                                            flt := { s.flt with lines := clrBit s.flt.lines 11 } }) ∧
  (∀ s, Running s →
    exec (.dieStopAck true) s = .next { s with dat := { s.dat with dieAck := true },
                                               flt := { s.flt with lines := clrBit s.flt.lines 11 } } ∧
    exec (.dieStopAck false) s = .next { s with dat := { s.dat with dieAck := false } }) ∧
  (∀ s, Running s → s.dat.dieStop = true → s.dat.dieAck = false →
    exec .stopNoack s = .next (finish (faultLine 11 true s)))

/-- The 1588 port of a tray build (R75, R76, R503): a message of its domain with a right checksum is taken, another's frame is
forwarded; a master sends Sync and Announce to each child, a slave its Delay_Req. The model's choices: the message bodies of IEEE 1588, that
an Announce goes with each Sync and whose clock it names are log 46, the order of address bytes log 47, the path of a frame that is
forwarded log 49, the exchange of a TIME_PROBE log 52, and how a master is named by its address log 107. -/
def Obligations.PtpEventsComplete : Prop :=
  (∀ st bs stamp s off m, Running s → s.isTray = true → s.streamOn st = true →
    (leAt bs 0 6 = s.rd LND_MAC ∨ leAt bs 0 6 = ptpMac) → ptpOffset bs = some off → ptpOf (bs.drop off) = some m →
    ptpSumOk bs off = true → m.domain = s.dat.role.domain →
    exec (.ptpReceive st bs stamp) s = .next (finish
      (ptpMessage st (off == 14) (leAt bs 22 16) (bs.drop off) m (s.lndRxStamp stamp) s))) ∧
  (∀ st bs stamp s, Running s → s.isTray = true → s.streamOn st = true → leAt bs 0 6 ≠ s.rd LND_MAC → leAt bs 0 6 ≠ ptpMac →
    exec (.ptpReceive st bs stamp) s = .next (finish (forwardFrame st bs (s.lndRxStamp stamp) s))) ∧
  (∀ s, Running s → s.isTray = true → s.dat.role.role ≠ 0 →
    exec .ptpSyncSend s = .next (finish (modPtp (fun p => { p with seqSync := (p.seqSync + 1) % 65536 })
      (s.each (if s.dat.role.layer2 = true then [0] else s.dat.role.children) syncTo)))) ∧
  (∀ tx s t, Running s → s.isTray = true → s.dat.role.role = 1 →
    t = queueTime 0 (ptpFrame s s.dat.role.layer2 0 ptpDelayReq s.dat.role.master
      (ptpBytes s 0 ptpDelayReq s.dat.ptp.seqDreq 0 0x7F (zeros 10))) s →
    exec (.delayReqSend tx) s = .next (finish (modPtp (fun p => { p with
      seqDreq := (p.seqDreq + 1) % 65536,
      ex := { p.ex with dreqSeq := some s.dat.ptp.seqDreq, t3 := some (s.lndTxStamp tx) } }) t)))

/-- A strobe (R82, R169, R256): it counts the lanes of its edge, takes a cut, ends the epoch in progress, applies the rulings due and
begins the next epoch in every context that the instance holds of the parcel. -/
def Obligations.StrobeCompletes : Prop :=
  ∀ parcel lanes s cs n c k t cut v, Running s →
    cs = ((List.range 5).filterMap (fun l => s.ctxAt parcel l)).filter (fun e =>
      e.2.phase == .armed || e.2.phase == .live || e.2.phase == .releasing) →
    cs.head? = some (n, c) → k = c.next → k ≤ epochLimit →
    (cut, t) = (if s.powerState = 2 then (0, countLanes lanes s) else takeCut (countLanes lanes s)) →
    v = ((t.each cs (fun e x => epochEnd e.1 cut x)).each ((t.each cs (fun e x => epochEnd e.1 cut x)).dueRulings parcel k) epochRuling) →
    exec (.epochStrobe parcel lanes) s = .next (finish (
      let q := v.seqFor parcel c.t0
      let w := (if k = 0 then seqTake q v else v).each cs (fun e x => epochBegin e.1 cut q x)
      pruneBeats (oldestStart w) (pruneCuts (evalReady w))))

/-- Containers and cells (R93 to R97, R101 to R107, R110, R111): a granted container takes the lowest class that is permitted and
ready, or is counted where it is occupied; an inserted leaf relays, but neither what is damaged nor what is its own; a cell for this
station is taken in, the number of one that passes is checked, a damaged one is counted. What is sent stands on the lanes in use in the
line code of R96, each lane scrambled (the order of the 64 bits and the first memory of a scrambler are the model's choice, log 125). -/
def Obligations.ContainerEventsComplete : Prop :=
  (∀ cyc aligned s t, Running s → t = s.each s.chainList (chainCycle cyc aligned) →
    exec (.timetableCycleStart cyc aligned) s = .next (finish (if t.isTray = true then lndSwapDue cyc (bulkRetry 2 cyc t) else t))) ∧
  (∀ ch d cyc i full s e j, Running s → ch ∈ s.chainList → i ≠ 0 → mayOriginate s ch d cyc = true → inGuard s ch cyc i = false →
    (i % 4 = 3 → fencedWay s ch d = false) → grantOf s ch d cyc i = some (e, j) →
    (full = true → exec (.containerStart ch d cyc i full) s = .next (s.inc (CHN_GRANT_BUSY ch) 1)) ∧
    (full = false → ∀ ok, ok = (fun k => bit e.classes (k - 1) && (k != 1 || decide ((s.chain ch).alarmSent < s.getF CHN_CTL 8 4)) &&
        (decide (e.alarmN ≤ j) || k == 1) && classReady s ch d k) →
      ∀ k, k ∈ [1, 2, 3, 4, 5] → ok k = true → (∀ m, 1 ≤ m → m < k → ok m = false) →
      exec (.containerStart ch d cyc i full) s = .next (finish (originate ch d cyc i k s)))) ∧
  (∀ d cyc i cell s sd c, Running s → s.isTray = false → s.inserted 0 = true → sd = otherSide (sideIn false d) →
    c = cell.filter (fun bs => cellHcrcOk bs && fld (leAt bs 0 14) 20 20 != s.station) →
    (i = 0 → ∀ o, o = Out.row 0 sd cyc 0 0 (alignRow cyc) → exec (.containerRelay 0 d cyc i cell) s =
      .next (finish (putLine 0 sd (o.onLanes (s.txUsable 0 sd)) (s.emit o)))) ∧
    (i ≠ 0 → (i % 4 = 3 → s.fencedTx 0 sd = 0) → ∀ o t, o = Out.relay 0 d cyc i (s.laneFor 0 sd) c →
      t = putLine 0 sd (o.onLanes (s.txUsable 0 sd)) (s.emit o) →
      exec (.containerRelay 0 d cyc i cell) s = .next (finish (if c.isSome = true then laneSent 0 sd t else t))) ∧
    (i % 4 = 3 → s.fencedTx 0 sd ≠ 0 →
      exec (.containerRelay 0 d cyc i cell) s = .next (if c.isSome = true then s.inc (CHN_FENCE_DROP 0) 1 else s))) ∧
  (∀ ch d bs s c, Running s → ch ∈ s.chainList → 128 ≤ bs.length → cellHcrcOk bs = true → parseCell bs = some c →
    (s.isTray = true → s.inserted ch = true → c.src ≠ s.station →
      (cellTypeKnown c.type = true → c.dst = s.station → exec (.cellReceive ch d bs) s = .next (finish (cellTake ch (.chain ch) c s))) ∧
      (cellTypeKnown c.type = false ∨ c.dst ≠ s.station →
        exec (.cellReceive ch d bs) s = .next (finish ((cellPassed ch c s).inc (CHN_LOST ch) 1)))) ∧
    (s.isTray = false → c.src ≠ s.station →
      (s.leafTakes c = true → exec (.cellReceive ch d bs) s = .next (finish (cellTake ch (.chain ch) c s))) ∧
      (s.leafTakes c = false → exec (.cellReceive ch d bs) s = .next (finish
        (if c.src = stTrayStation s.station then cellPassed ch c s else s)))) ∧
    (s.isTray = false → c.src = s.station → exec (.cellReceive ch d bs) s = .next (s.inc (CHN_LOST ch) 1))) ∧
  (∀ ch d bs s, Running s → ch ∈ s.chainList →
    (bs.length < 128 → exec (.cellReceive ch d bs) s = .next (s.inc (CHN_TRUNC ch) 1)) ∧
    (128 ≤ bs.length → cellHcrcOk bs = false →
      exec (.cellReceive ch d bs) s = .next ((s.inc (CHN_HCRC_ERR ch) 1).evt (CHN_EVT ch) 0))) ∧
  (∀ ch src bs s, Running s → ch ∈ s.chainList → s.getB CHN_CTL 2 = true →
    exec (.bulkReqReceive ch src bs) s = .next (finish (bulkResend ch bs s))) ∧
  (∀ ch d n s c, Running s → ch ∈ s.chainList → c = s.chain ch →
    exec (.bulkRetentionExpiry ch d n) s = .next (finish (s.setChain ch { c with kept := c.kept.filter (fun k => k.seq != n) })))

/-- Links (R70, R71, R96 to R100, R116, R118, R122, R127, R557): delays are asked for, answered and sampled; a receiving direction goes
from DOWN to LOCKING to UP and back, silently inside a splice window; a lane request waits for the next cycle; the mode of the ring
follows the time words. A row whose condition is not met, one of a chain that is not served, and each of them in reset, leaves the
block as it is. The model's choices: what is cleared of a fenced or down link when its side comes UP (`clearLink`, log 105), which sides a
splice window covers (log 38), that a link-delay message which fails its check or asks for nothing counts in DAT_TW_ERR (log 126), that a
lane lost with its sync headers had 16 invalid ones (log 44), and that WHOLE is clear until 128 returns (log 39). -/
def Obligations.LinkEventsComplete : Prop :=
  (∀ ch sd tx s c n t, Running s → ch ∈ s.chainList → c = s.chain ch → n = (c.ldSeq + 1) % 65536 →
    t = s.setChain ch (setLd { c with ldSeq := n } sd (some { seq := n, t1 := s.txStamp tx })) →
    (s.inserted ch = true → exec (.linkDelayRequest ch sd tx) s = .next (finish (t.setChain ch
      { t.chain ch with rows := (t.chain ch).rows ++ [.request sd (ldBytes 1 n s.station 0)] }))) ∧
    (s.inserted ch = false → exec (.linkDelayRequest ch sd tx) s = .next s)) ∧
  (∀ ch sd blocks bs rx tx s, Running s → ch ∈ s.chainList → rowPayload 0xB blocks = some bs → rowOk bs = true → leAt bs 0 1 = 1 →
    (s.inserted ch = true → exec (.linkDelayMessageReceive ch sd blocks rx tx) s = .next (finish (s.setChain ch
      { s.chain ch with rows := (s.chain ch).rows ++ [.response sd
        (ldBytes 2 (leAt bs 1 2) s.station (ofInt 48 (timeDiff (s.txStamp tx) (s.rxStamp rx) / 65536)))] }))) ∧
    (s.inserted ch = false → exec (.linkDelayMessageReceive ch sd blocks rx tx) s = .next s)) ∧
  (∀ ch sd blocks bs rx tx s r, Running s → ch ∈ s.chainList → rowPayload 0xB blocks = some bs → rowOk bs = true → leAt bs 0 1 = 2 →
    ldOf (s.chain ch) sd = some r → r.seq = leAt bs 1 2 →
    exec (.linkDelayMessageReceive ch sd blocks rx tx) s = .next (finish (ldSample ch sd
      ((timeDiff (s.rxStamp rx) r.t1 / 65536 - toInt 48 (leAt bs 6 6)) / 2 + s.asym sd) (s.setChain ch (setLd (s.chain ch) sd none))))) ∧
  (∀ ch sd blocks rx tx s, Running s → ch ∈ s.chainList →
    (∀ bs, rowPayload 0xB blocks = some bs → rowOk bs = true →
      leAt bs 0 1 ≠ 1 ∧ (leAt bs 0 1 = 2 → ∀ r, ldOf (s.chain ch) sd = some r → r.seq ≠ leAt bs 1 2)) →
    exec (.linkDelayMessageReceive ch sd blocks rx tx) s = .next (s.inc DAT_TW_ERR 1)) ∧
  (∀ ch sd s, Running s → ch ∈ s.chainList →
    exec (.linkDelayTimeout ch sd) s = .next (finish (s.setChain ch (setLd (s.chain ch) sd none)))) ∧
  (∀ ch sd blocks s, Running s → ch ∈ s.chainList →
    (∀ p, rowPayload 0xD blocks = some p → exec (.laneRequestReceive ch sd blocks) s = .next (finish (s.setChain ch
      { s.chain ch with txNext := (s.chain ch).txNext ++ [(sd, leAt p 0 1 % 16, bit (leAt p 0 1) 4)] }))) ∧
    (rowPayload 0xD blocks = none → exec (.laneRequestReceive ch sd blocks) s = .next s)) ∧
  (∀ ch sd lanes s t, Running s → ch ∈ s.chainList → t = setLocked ch sd (s.locked ch sd ||| lanes) s →
    exec (.blockLockGain ch sd lanes) s = .next (finish
      (if t.rxState ch sd = 0 ∧ 3 ≤ popCount 4 (t.locked ch sd &&& (t.fencedRx ch sd ^^^ 15)) then setRx ch sd 1 t else t))) ∧
  (∀ ch sd s b, Running s → ch ∈ s.chainList →
    b = (if windowCovers s ch sd = true then rateNote 4 (setRx ch sd 0 s) else (rateNote 4 (setRx ch sd 0 s)).evt (CHN_EVT ch) 7) →
    (s.rxState ch sd = 1 → 3 ≤ popCount 4 (s.locked ch sd &&& (s.fencedRx ch sd ^^^ 15)) →
      ∀ t u, t = (setRx ch sd 2 s).putB (CHN_STATUS ch) (unseedBit sd) true →
      u = t.setChain ch { t.chain ch with seedDue := (t.chain ch).seedDue.filter (· != sd) ++ [sd] } →
      exec (.alignmentLock ch sd) s = .next (finish (fenceLanes ch sd ((u.locked ch sd ^^^ 15) &&& (u.fencedRx ch sd ^^^ 15))
        (clearLink ch (linkOf 0 sd) 2 u)))) ∧
    (s.rxState ch sd = 1 → popCount 4 (s.locked ch sd &&& (s.fencedRx ch sd ^^^ 15)) < 3 →
      exec (.alignmentLock ch sd) s = .next (finish b)) ∧
    (s.rxState ch sd = 1 → exec (.lockingTimeout ch sd) s = .next (finish b)) ∧
    (s.rxState ch sd ≠ 1 → exec (.alignmentLock ch sd) s = .next s ∧ exec (.lockingTimeout ch sd) s = .next s)) ∧
  (∀ ch sd lane s m n t u, Running s → ch ∈ s.chainList → m = 2 ^ (lane % 4) →
    t = s.setChain ch { s.chain ch with badHeads := ((s.chain ch).badHeads + 16) % 2 ^ 32 } →
    u = setLocked ch sd (t.locked ch sd &&& (m ^^^ 15)) t → n = popCount 4 (u.locked ch sd &&& (u.fencedRx ch sd ^^^ 15)) →
    exec (.blockLockLoss ch sd lane) s = .next (finish (
      if u.rxState ch sd = 2 then
        (if n < 3 then goDown ch sd u
        else if bit (u.fencedRx ch sd) (lane % 4) = true then u else fenceLanes ch sd m u)
      else if u.rxState ch sd = 1 ∧ n < 3 then
        (if windowCovers u ch sd = true then rateNote 4 (setRx ch sd 0 u) else (rateNote 4 (setRx ch sd 0 u)).evt (CHN_EVT ch) 7)
      else u))) ∧
  (∀ ch sd s t, Running s → ch ∈ s.chainList → t = rateNote 4 (setRx ch sd 0 s) →
    (s.rxState ch sd = 2 → windowCovers s ch sd = true → exec (.alignmentLoss ch sd) s = .next (finish t)) ∧
    (s.rxState ch sd = 2 → windowCovers s ch sd = false → exec (.alignmentLoss ch sd) s = .next (finish
      (linkAlarm ch sd ((t.fencedRx ch sd ||| (t.locked ch sd ^^^ 15)) % 16) 2
        (faultEdge (if ch = 0 then 2 else 38) (t.evt (CHN_EVT ch) 7))))) ∧
    (s.rxState ch sd ≠ 2 → exec (.alignmentLoss ch sd) s = .next s)) ∧
  (∀ ch s k, Running s → s.isTray = true → ch < 2 → s.inserted ch = true → k = s.rd (TMT_CYC ch) + 1 →
    (2 ≤ (s.chain ch).failed → exec (.chainCut ch) s = .next (finish
      (if ch = 0 then (setModeAt ch k 2 s).putB DAT_STATE 7 false else setModeAt ch k 2 s))) ∧
    (128 ≤ (s.chain ch).returns → exec (.chainWhole ch) s = .next (finish
      (if ch = 0 then (setModeAt ch k 1 s).putB DAT_STATE 7 true else setModeAt ch k 1 s)))) ∧
  (∀ ch s, Running s → ch ∈ s.chainList →
    (s.isTray = false ∨ s.inserted ch = false ∨ (s.chain ch).failed < 2 → exec (.chainCut ch) s = .next s) ∧
    (s.isTray = false ∨ s.inserted ch = false ∨ (s.chain ch).returns < 128 → exec (.chainWhole ch) s = .next s)) ∧
  (∀ s, Running s → (s.isTray = false → exec .headless s = .next (finish (setModeAt 0 (s.rd (TMT_CYC 0)) 0 s))) ∧
    (s.isTray = true → exec .headless s = .next s)) ∧
  (∀ i ch sd lane lanes tx rx blocks s, i ∈ [Instr.linkDelayRequest ch sd tx, .linkDelayMessageReceive ch sd blocks rx tx,
      .linkDelayTimeout ch sd, .laneRequestReceive ch sd blocks, .blockLockGain ch sd lanes, .alignmentLock ch sd,
      .lockingTimeout ch sd, .blockLockLoss ch sd lane, .alignmentLoss ch sd, .chainCut ch, .chainWhole ch] →
    (Running s → ch ∉ s.chainList → exec i s = .next s) ∧ (s.pins.por = true → exec i s = .next s ∧ exec .headless s = .next s))

/-- Splices, lists and the roster (R113, R121 to R128, R557): an announcement is noted with its T_s, shown where it is the leaf's own and
its conditions hold, and seen otherwise; a list is stored under its version and an inserted leaf acknowledges it by a REPLY; a splice takes
place and its window closes, rolls go out and are answered, link alarms and link states are noted. The model's choices: the bytes of the
REPLY and of lists longer than a cell are log 35, the leaf's request that arrives as SPLICE_REQUEST_RECEIVE log 36, the links a leaf
remembers log 37, the sides a window covers and the T_s the tray build shows log 38, the arrivals of container 0 as operands of
SPLICE_ANN_RECEIVE log 40, that CHN_SPL_CTL of a leaf shows its own splice alone log 127, and what an announcement does to a leaf that is armed or inserted log 150. -/
def Obligations.SpliceEventsComplete : Prop :=
  (∀ bs pE pW s cyc a t u, Running s → s.isTray = false → cyc = cycNear (s.rd (TMT_CYC 0)) (leAt bs 3 3) →
    a = { station := leAt bs 0 3 % 2 ^ 20, out := bit (leAt bs 0 3) 23, cyc := cyc, ver := leAt bs 6 2,
          time := cycleTime cyc + 73728 * 2 ^ 32 / 10 + (pE + pW) / 2, left := 0, done := false, windowOpen := false, near := false } →
    t = (if (s.chain 0).splices.any (fun x => x.station == a.station && x.cyc == a.cyc) = true then s
      else s.setChain 0 { s.chain 0 with splices := (s.chain 0).splices ++ [a] }) →
    u = (t.wrTime (CHN_SPL_SUB 0) (CHN_SPL_SEC 0) a.time).wr (CHN_SPL_CTL 0) (a.station + b2n a.out * 2 ^ 30 + 2 ^ 31) →
    (a.station ≠ s.station → exec (.spliceAnnReceive bs pE pW) s = .next (finish t)) ∧
    (a.station = s.station → a.out = true → s.inserted 0 = true → exec (.spliceAnnReceive bs pE pW) s = .next (finish
      (u.each (u.pil.jobs.filter (fun j => j.opcode == 0xC3 && j.phase == .waiting)) (fun j v => finishJob j.id stOk [] v)))) ∧
    (a.station = s.station →
      ∀ fit, fit = (s.getB CHN_STATION 31 && !s.inserted 0 && s.getB CHN_CTL 0 && s.datState == 2 && s.pins.straps.fordListen &&
        Tbl.get? (s.chain 0).opVer 0 == some a.ver && Tbl.get? (s.chain 0).opVer 1 == some a.ver) →
      (a.out = false → fit = true → exec (.spliceAnnReceive bs pE pW) s = .next (finish u)) ∧
      ((if a.out = true then s.inserted 0 = false else fit = false) → s.getB (CHN_SPL_CTL 0) 31 = true ∨ s.inserted 0 = true →
        exec (.spliceAnnReceive bs pE pW) s = .next (finish t)) ∧
      ((if a.out = true then s.inserted 0 = false else fit = false) → s.getB (CHN_SPL_CTL 0) 31 = false → s.inserted 0 = false →
        exec (.spliceAnnReceive bs pE pW) s = .next (finish (t.evt (CHN_EVT 0) 3))))) ∧
  (∀ ch bs s v es dir t u, Running s → ch ∈ s.chainList → v = leAt bs 0 2 → es = tmtEntries 6 bs → dir = leAt bs 2 1 % 2 →
    t = s.each (List.range 64) (fun n x => x.wr (TMT_ENT ch (dir + 2 * (leAt bs 2 1 / 2 % 2)) n) ((Tbl.get? es n).getD 0 % 2 ^ 48)) →
    u = (if leAt bs 2 1 / 2 % 2 = 1 then (t.setF (TMT_VER ch) 16 16 v).putB (TMT_CTL ch) 0 true
      else (t.setF (TMT_VER ch) 0 16 v).setChain ch
        { (t.setF (TMT_VER ch) 0 16 v).chain ch with opVer := Tbl.set ((t.setF (TMT_VER ch) 0 16 v).chain ch).opVer dir v }) →
    (u.isTray = false → u.inserted ch = true → exec (.tmtListReceive ch bs) s = .next (finish
      (sendTyped 0 9 (stTrayStation u.station) 0 (bs.take 3) u))) ∧
    (u.isTray = true ∨ u.inserted ch = false → exec (.tmtListReceive ch bs) s = .next (finish u))) ∧
  (∀ ch src s, Running s → s.isTray = true → ch < 2 → spliceBad s ch src true (s.rd (TMT_CYC ch) + 64) = false →
    exec (.spliceRequestReceive ch src) s = .next (finish (announce ch src true (s.rd (TMT_CYC ch) + 64) s))) ∧
  (∀ ch near s a, Running s → ch ∈ s.chainList → a ∈ (s.chain ch).splices → a.done = false →
    (∀ b ∈ (s.chain ch).splices, b.done = false → b ≠ a → a.cyc < b.cyc) → a.out = true →
    ∀ t, t = (if s.isTray = true then (spliceJobs ch a.station true (setRoster ch (stPos a.station) false s)).evt (CHN_EVT ch) 5
      else if a.station ≠ s.station ∨ s.getB (CHN_SPL_CTL 0) 31 = false ∨ s.getB (CHN_SPL_CTL 0) 30 = false then s
      else
        let u := ((s.putB (CHN_SPL_CTL 0) 31 false).putB (CHN_STATUS 0) 13 false).putB (CHN_STATUS 0) 12 false
        (listenLock 0 (u.setChain 0 { u.chain 0 with stopOrig := false })).evt (CHN_EVT 0) 5) →
    exec (.spliceTime ch near) s = .next (finish (if s.isTray = true then showSplice ch (openWindow ch near a t)
      else openWindow ch near a t))) ∧
  (∀ ch near s a, Running s → ch ∈ s.chainList → a ∈ (s.chain ch).splices → a.done = false →
    (∀ b ∈ (s.chain ch).splices, b.done = false → b ≠ a → a.cyc < b.cyc) → a.out = false →
    ∀ t, t = (if s.isTray = true then s.setChain ch { s.chain ch with inAt := Tbl.set (s.chain ch).inAt (stPos a.station) s.now }
      else if a.station ≠ s.station ∨ s.getB (CHN_SPL_CTL 0) 31 = false ∨ s.getB (CHN_SPL_CTL 0) 30 = true then s
      else if s.maySpliceIn a = false then (s.putB (CHN_SPL_CTL 0) 31 false).evt (CHN_EVT 0) 3
      else
        let u := ((s.putB (CHN_SPL_CTL 0) 31 false).putB (CHN_STATUS 0) 13 true).putB (CHN_STATUS 0) 12 true
        (listenLock 0 (u.setChain 0 { u.chain 0 with stopOrig := false })).evt (CHN_EVT 0) 4) →
    exec (.spliceTime ch near) s = .next (finish (if s.isTray = true then showSplice ch (openWindow ch near a t)
      else openWindow ch near a t))) ∧
  (∀ ch s c, Running s → ch ∈ s.chainList → c = s.chain ch →
    exec (.spliceWindowClose ch) s = .next (finish
      ((s.setChain ch { c with splices := c.splices.map (fun a => { a with windowOpen := false }) }).each
        ([Side.west, Side.east].filter (fun sd => windowCovers s ch sd && s.rxState ch sd != 2)) (fun sd t => downEffects ch sd t)))) ∧
  (∀ ch s c, Running s → s.isTray = true → ch < 2 → s.inserted ch = true → c = s.chain ch →
    exec (.rollSend ch) s = .next (finish (sendAll ch 0xE 0 (leBytes 2 ((c.roll + 1) % 65536)) (s.setChain ch { c with
      roll := (c.roll + 1) % 65536,
      unanswered := (setBits 17 (s.rd (CHN_ROSTER ch))).foldl (fun t p => Tbl.set t p ((Tbl.get? t p).getD 0 + 1)) c.unanswered })))) ∧
  (∀ bs s, Running s → s.isTray = false → s.inserted 0 = true →
    exec (.rollReceive bs) s = .next (finish (sendUp 0xF 0 (bs.take 2 ++ leBytes 1 s.datState) s))) ∧
  (∀ ch src bs s t u, Running s → s.isTray = true → ch < 2 → t = setRoster ch (stPos src) true s →
    u = t.setChain ch { t.chain ch with unanswered := Tbl.erase (t.chain ch).unanswered (stPos src) } →
    exec (.rollAckReceive ch src bs) s = .next (finish (spliceJobs ch src false
      (if s.getB (CHN_ROSTER ch) (stPos src) = false ∧ ∃ a ∈ (u.chain ch).splices, a.done = true ∧ a.out = false ∧ a.station = src
       then u.evt (CHN_EVT ch) 4 else u)))) ∧
  (∀ ch pos s, Running s → s.isTray = true → ch < 2 → 2 ≤ (Tbl.get? (s.chain ch).unanswered pos).getD 0 →
    exec (.rollAckTimeout ch pos) s = .next (finish (setRoster ch pos false s))) ∧
  (∀ ch src bs s, Running s → s.isTray = true → ch < 2 →
    exec (.linkAlarmReceive ch src bs) s = .next (finish (alarmIn 2 src 0 0 s.now 0
      (noteLink ch (stPos src) (if leAt bs 0 1 % 2 = 1 then .east else .west) (leAt bs 2 1) s)))) ∧
  (∀ bs s, Running s → s.isTray = false →
    exec (.linkStateReceive bs) s = .next (s.setChain 0
      { s.chain 0 with links := (List.range 4).map (fun i => leAt bs (3 * i) 3 % 2 ^ 17) }))

/-- Pods and gauges (R131 to R145, R157, R180): a capture that waited is taken at its edge; a snapshot is delivered, or is late and
stale; a gauge answers or goes stale; a pod rises with its counters at zero, or falls; a series cell is discarded. -/
def Obligations.PodEventsComplete : Prop :=
  (∀ p ls s t x c id, Running s → t = countLanes ls s → x = t.pod p → t.podOn p = true → x.banks < 2 →
    x.caps.find? (·.waiting) = some c → c.cut = some id →
    exec (.snapshotDeferredCapture p ls) s = .next (finish (((t.setPod p { x with
      caps := x.caps.takeWhile (fun y => !y.waiting) ++
        { c with waiting := false, vals := x.counts } :: (x.caps.dropWhile (fun y => !y.waiting)).drop 1,
      lastCut := id }).inc TAP_DEFERRED 1).evt TAP_EVT 1))) ∧
  (∀ p s x c id, Running s → x = s.pod p → x.caps.find? (fun c => !c.waiting) = some c → c.cut = some id →
    exec (.snapshotDelivered p) s = .next (finish (evalReady (giveSnap id p { stale := c.stale, deferred := c.deferred, vals := c.vals }
      (s.setPod p { x with caps := x.caps.takeWhile (·.waiting) ++ (x.caps.dropWhile (·.waiting)).drop 1 }))))) ∧
  (∀ p s x c id, Running s → x = s.pod p → x.caps.find? (fun c => c.cut.isSome && !c.stale) = some c → c.cut = some id →
    exec (.snapshotTimeout p) s = .next (finish (evalReady (giveSnap id p { stale := true, deferred := c.deferred, vals := [] }
      (((s.setPod p { x with caps := x.caps.map (fun y => if y.cut == c.cut then { y with stale := true } else y) }).inc
        TAP_SNAP_TMO 1).evt TAP_EVT 2))))) ∧
  (∀ parcel s c i, Running s → c = s.chain 0 → c.txq.findIdx? (fun m => m.type == 4 && m.parcel == parcel) = some i →
    exec (.seriesDiscard parcel) s = .next (finish
      (((s.setChain 0 { c with txq := c.txq.take i ++ c.txq.drop (i + 1) }).inc PRB_SERIES_DROP 1).evt PRB_EVT 4))) ∧
  (∀ data s c, Running s → s.tap.cuts.find? (fun c => !c.waiting.isEmpty) = some c →
    exec (.gaugeAnswer data) s = .next (finish (evalReady ((modCut c.id (fun x => { x with
      waiting := x.waiting.drop 1, gauges := Tbl.set x.gauges (c.waiting.headD 0) (some data.toNat) }) s).wr
        (GAU_VAL (c.waiting.headD 0)) data.toNat)))) ∧
  (∀ s c, Running s → s.tap.cuts.find? (fun c => !c.waiting.isEmpty) = some c →
    exec .gaugeTimeout s = .next (finish (evalReady ((modCut c.id (fun x => { x with
      waiting := x.waiting.drop 1, gauges := Tbl.set x.gauges (c.waiting.headD 0) none }) s).inc GAU_STALE 1)))) ∧
  (∀ p s, Running s → s.isTray = false → p < 64 → s.podOn p = false →
    exec (.tapOnRise p) s = .next (finish (mapIdentity p
      (({ s with pins := { s.pins with tapOn := setBit s.pins.tapOn p } } : State).setPod p { s.pod p with counts := [] })))) ∧
  (∀ p s x t, Running s → s.podOn p = true → x = s.pod p →
    t = ({ s with pins := { s.pins with tapOn := clrBit s.pins.tapOn p } } : State).setPod p
      { x with caps := [], counts := [], falls := x.falls ++ [s.tap.nextCut - 1] } →
    (∀ c ∈ x.caps, c.cut.isSome = true) →
    exec (.tapOnFall p) s = .next (finish (evalReady (t.each x.caps (fun c u => match c.cut with
      | some id => giveSnap id p { stale := true, deferred := c.deferred, vals := [] } u
      | none => u)))))

/-- Closures and the gate (R168, R174 to R207): a well-formed closure, ASLEEP or resolve from a child goes to the context that takes it,
a malformed one is counted; Tally's next item is done; a deadline pulls or expires; a gate with nothing outstanding closes: the window of
D_l that is over gives its new D_l, the gate and its time are noted, a timeout adds MARGIN, and once no work of the epoch is left its rows or
sections are taken up and the oldest epoch that is ready is published or sent. The model's choices: that a later level-1 closure waits for
an earlier RESOLVE is log 60, when Tally's items are done log 62, when a closed gate finishes log 63, and the window in which an early
closure's arrival counts log 140. -/
def Obligations.GateEventsComplete : Prop :=
  (∀ src parcel ep deg bs s h n c, Running s → closureBad ep bs = false → h = closureHeadOf bs → h.kind ≠ 1 →
    s.takerOf src parcel h.level = some (n, c) → s.tallyUp = true →
    exec (.closureReceive src parcel ep deg bs) s = .next (finish (takeMsg n h.k src (includeClosure n c h.k src bs) s))) ∧
  (∀ src parcel ep deg bs s h n c, Running s → closureBad ep bs = false → h = closureHeadOf bs → h.kind = 1 →
    s.takerOf src parcel h.level = some (n, c) → s.tallyUp = true →
    exec (.resolveReceive src parcel ep deg bs) s = .next (finish (resolveIn n h.k src (bit h.flags 5) s))) ∧
  (∀ src parcel ep deg bs s, Running s → closureBad ep bs = true →
    exec (.closureReceive src parcel ep deg bs) s = .next (finish (epochErr s))) ∧
  (∀ src parcel ep deg bs s n c k, Running s → bs.length = 8 → k = leAt bs 0 5 → k % 2 ^ 24 = ep % 2 ^ 24 →
    s.takerOf src parcel 0 = some (n, c) → s.tallyUp = true →
    exec (.asleepReceive src parcel ep deg bs) s = .next (finish (takeMsg n k src (fun t =>
      satCheck ((modKid n k src (fun x => { x with phase := .asleep }) t).modEpoch n k (fun e =>
        { e with degraded := e.degraded || bit (leAt bs 5 1) 0 }))) s))) ∧
  (∀ s i rest t c, Running s → s.par.queue = i :: rest → s.tallyUp = true → s.wit.selfRun = none →
    t = tallyWork i (memReadBack 1 i.ctx (memWritten 1 i.ctx (startWork (setQueue rest s)))) → t.ctx? i.ctx = some c →
    exec .tallyItemComplete s = .next (finish (if c.level = 0 then advanceAll i.ctx t else tryFinish i.ctx i.k t))) ∧
  (∀ parcel level s n c e, Running s → s.ctxAt parcel level = some (n, c) → c.openGate = some e → s.tallyUp = true → level ≠ 0 →
    (s.getB EPO_CTL 0 = true → exec (.closeDeadlineExpiry parcel level) s = .next (finish
      (s.each (e.kids.filter (fun x => x.phase == .outstanding || x.pending))
        (fun x t => if x.station = s.station then pullOwn n c e.k t else pullFrom n c e.k x.station t)))) ∧
    (s.getB EPO_CTL 0 = false → exec (.closeDeadlineExpiry parcel level) s = .next (finish (expire n e.k s)))) ∧
  (∀ parcel level s n c e, Running s → s.ctxAt parcel level = some (n, c) → c.openGate = some e → s.getB EPO_CTL 0 = true →
    exec (.strictStall parcel level) s = .next (s.evt EPO_EVT 5)) ∧
  (∀ parcel level s n c y e x d w t u z, Running s → s.ctxAt parcel level = some (n, c) → s.ctx? n = some y →
    c.openGate = some e → s.epoch? n e.k = some x → level ≠ 0 → s.tallyUp = true → e.outstanding = 0 → e.awaitsResolve = false →
    d = (if y.samples = [] then y.dl
      else min (max (q99Of y.samples + s.rd (EPO_DL_MARGIN y.level)) (s.rd (EPO_DL_FLOOR y.level))) (s.rd (EPO_DL_CEIL y.level))) →
    w = (if y.window < 128 then s else s.modCtx n (fun v => { v with
      window := 0, samples := [], marginDue := false, q99 := if y.samples = [] then v.q99 else q99Of y.samples,
      dl := if y.marginDue = true then min (d + s.rd (EPO_DL_MARGIN y.level)) (s.rd (EPO_DL_CEIL y.level)) else d })) →
    t = w.modEpoch n e.k (fun v => { v with gate := true, tClose := s.now }) →
    (∀ b, t.ctx? n = some b → u = t.modCtx n (fun v => { v with
      window := v.window + 1, marginDue := v.marginDue || (decide (0 < x.timeouts) && decide (127 ≤ b.window)), stalled := false,
      dl := if (decide (0 < x.timeouts) && !decide (127 ≤ b.window)) = true
        then min (b.dl + t.rd (EPO_DL_MARGIN b.level)) (t.rd (EPO_DL_CEIL b.level)) else b.dl })) →
    z = satCheck (if y.level = 1 then trnBegin n e.k u else u) →
    ∀ cz ez r, z.ctx? n = some cz → z.epoch? n e.k = some ez →
    r = (if cz.level = 1 then cadBegin n e.k (z.modEpoch n e.k (fun v => { v with fin := true }))
      else ((z.modEpoch n e.k (fun v => { v with fin := true })).modEpoch n e.k (fun v => { v with trnBytes := (epochSections ez).1 })).inc
        TRN_SEC_MISMATCH (epochSections ez).2) →
    ((cz.level = 0 ∨ ez.gate = false ∨ ez.fin = true ∨ ez.own = .waiting ∨ z.hasWork n e.k = true ∨ z.tallyUp = false) →
      exec (.gateClose parcel level) s = .next (finish z)) ∧
    (¬(cz.level = 0 ∨ ez.gate = false ∨ ez.fin = true ∨ ez.own = .waiting ∨ z.hasWork n e.k = true ∨ z.tallyUp = false) →
      ∀ cp ep, r.ctx? n = some cp → cp.oldestOpen = some ep →
      (ep.ready cp = false ∨ (cp.pub = false ∧ cp.level = 1) → exec (.gateClose parcel level) s = .next (finish r)) ∧
      (ep.ready cp = true → cp.pub = true →
        exec (.gateClose parcel level) s = .next (finish (advance cp.epochs.length n (publish n cp ep r)))) ∧
      (ep.ready cp = true → cp.pub = false → cp.level ≠ 1 → cp.level ≠ 0 →
        exec (.gateClose parcel level) s = .next (finish (advance cp.epochs.length n (sendClosure n cp ep false r)))))) ∧
  (∀ parcel level s n c y d, Running s → s.ctxAt parcel level = some (n, c) → s.ctx? n = some y →
    d = (if y.samples = [] then y.dl
      else min (max (q99Of y.samples + s.rd (EPO_DL_MARGIN y.level)) (s.rd (EPO_DL_FLOOR y.level))) (s.rd (EPO_DL_CEIL y.level))) →
    (y.window < 128 → exec (.deadlineWindowEnd parcel level) s = .next s) ∧
    (128 ≤ y.window → exec (.deadlineWindowEnd parcel level) s = .next (finish (s.modCtx n (fun v => { v with
      window := 0, samples := [], marginDue := false, q99 := if y.samples = [] then v.q99 else q99Of y.samples,
      dl := if y.marginDue = true then min (d + s.rd (EPO_DL_MARGIN y.level)) (s.rd (EPO_DL_CEIL y.level)) else d }))))) ∧
  (∀ parcel s n c e, Running s → s.ctxAt parcel 1 = some (n, c) →
    c.epochs.find? (fun e => e.endCut.isSome && !e.sentPending) = some e → c.pub = false → e.ready c = true →
    (e.trnCheck = .pending → e.trnVotes = []) → (∀ x ∈ c.epochs, x.sentPending = true → e.k ≤ x.k) →
    exec (.trayClosureSend parcel) s = .next (finish (sendClosure n c e (e.trnCheck == .pending) s)))

/-- Cadastre and Transit at work (R222 to R231, R278 to R282, R300 to R321): a pass starts on the oldest row that waits, or asks for
leave, and rows of SCORE_ROW that waited run before it; tiles are computed and checked; a pass completes; a row that has waited too long is abandoned. -/
def Obligations.PassEventsComplete : Prop :=
  (∀ s u j js i, Running s → u = scoreRowsRun s → (u.cadUp = true → u.reloadDue = []) → u.passHeld = false → u.cadJobs = j :: js →
    u.platSlot (u.jobPlat j) = some i →
    (u.platResident i = true ∨ u.hasLeave (.cadPass 0) = true → exec .cadastrePassStart s = .next (finish (passBegin j i u))) ∧
    (u.platResident i = false → u.hasLeave (.cadPass 0) = false → u.asksLeave (.cadPass 0) = false →
      exec .cadastrePassStart s = .next (finish (askLeave 1 (u.pwrClass CAD_PWR) (u.pwrAmt CAD_PWR) (.cadPass 0) u)))) ∧
  (∀ s p t, Running s → s.cad.pass = some p → t = passRun p { s with cad := { s.cad with pass := none } } →
    exec .cadastrePassComplete s = .next (finish (scoreRowsRun
      ((if t.hasLeave (.cadPass 0) = true then releaseLeave (.cadPass 0) t else t).inc CAD_PASSES 1)))) ∧
  (∀ parcel ep s n c e t, Running s → s.ctxAt parcel s.ownLevel = some (n, c) →
    c.epochs.find? (fun e => e.k % 2 ^ 24 == ep % 2 ^ 24 && e.cad == .pending) = some e → s.cad.pass = none →
    s.getB EPO_CTL 0 = false → t = advanceAll n ((cadAbandon n e.k s).evt CAD_EVT 2) →
    exec (.scoreTimeout parcel ep) s = .next (finish (if t.cadJobs = [] then releaseLeave (.cadPass 0) t else t))) ∧
  (∀ s j js i e, Running s → s.trnUp = true → s.trn.pass = none → s.plm.goal = none → s.trnRunning = false → s.trnReloadDue = [] →
    s.trnFenced = false → s.trnJobs = j :: js → s.epoch? j.ctx j.k = some e → s.subSlotOf e.sub = some i →
    (s.hasLeave (.trnPass 0) = true → exec .transitPassStart s = .next (finish (trnPassBegin j i s))) ∧
    (s.hasLeave (.trnPass 0) = false → s.asksLeave (.trnPass 0) = false →
      exec .transitPassStart s = .next (finish (askLeave 2 (s.pwrClass TRN_PWR) (s.pwrAmt TRN_PWR) (.trnPass 0) s)))) ∧
  (∀ s p q t, Running s → s.trn.pass = some p → p.done < p.tiles.length → q = { p with done := p.done + 1 } →
    t = (memReadBack 6 p.slot { s with trn := { s.trn with pass := some q } }).inc TRN_TILES 1 →
    exec .transitTileComplete s = .next (finish (if p.done + 1 = p.tiles.length then trnFormed q t else t))) ∧
  (∀ cols unloc s p tl bad vec n q t, Running s → s.trn.pass = some p → p.tiles[p.checked]? = some tl → p.checked < p.done →
    passTileChecks p (s.rd TRN_ABFT_TOL) tl = (bad, vec) →
    n = (bad ++ cols.map (· % 128)).eraseDups.length + vec + b2n (unloc && vec == 0) →
    q = { p with checked := p.checked + 1, failed := p.failed || n != 0 } →
    t = tileFails tl.array (groupsOf p.fence p.fenceArr tl.array (bad ++ cols.map (· % 128)).eraseDups) n
      { s with trn := { s.trn with pass := some q } } →
    exec (.transitCheckComplete cols unloc) s = .next (finish (if p.checked + 1 = p.tiles.length then trnPassEnd q t else t))) ∧
  (∀ parcel ep s n c j t, Running s → s.ctxAt parcel 1 = some (n, c) →
    s.trnJobs.find? (fun j => j.ctx == n && j.k % 2 ^ 24 == ep % 2 ^ 24) = some j → s.getB EPO_CTL 0 = false → t = trnGiveUp [j] s →
    exec (.transitRunTimeout parcel ep) s = .next (finish
      (if t.trnJobs = [] ∧ t.trn.pass = none then releaseLeave (.trnPass 0) (trnWaited (t.asksLeave (.trnPass 0)) t) else t)))

/-- Envelopes (R418 to R423): a command for this station that passes the six steps is launched; a tray build relays one for a leaf of
its chains; one that fails a step is discarded and counted; an awaited reply is taken, a leaf's reply goes back where its command came
from; an entry ends; a job is answered. The model's choices: an envelope of malformed length is an AUTH_FAIL, envelopes before boot are
ignored, a reply to a command of this station is matched before relaying, and only an entry held after ACCEPTED ends by time (log 87);
which station a reply's cells name (log 100); when a job's final reply comes (logs 10 and 89). -/
def Obligations.EnvelopeEventsComplete : Prop :=
  (∀ via bs s e k t time i u, Running s → s.pil.booted = true → envelopeOf bs = some e → e.reply = false → s.stationValid = true →
    e.station = s.station → s.keySlot e.keyId = some k → computeTag (s.key k) e.body s = (e.tag, t) → e.time = some time →
    t.getB DAT_STATE 4 = true → (timeDiff time t.now).natAbs ≤ t.replayWin → t.replaySlot e.keyId e.origin time = some (some i) →
    t.rd PIL_REMOTE < 8 →
    u = ({ t with pil := { t.pil with replay := Tbl.set t.pil.replay i ⟨e.keyId, e.origin, time⟩ } } : State) →
    exec (.envelopeReceive via bs) s = .next (finish (runOpcode (wordsOpcode e.words)
      (cmdOf (.remote e.keyId e.origin via) (u.getF (PIL_KEY_ID k) 28 2) e.words.length e.words) u))) ∧
  (∀ via bs s, Running s → s.pil.booted = true → envelopeOf bs = none →
    exec (.envelopeReceive via bs) s = .next (finish (authFail s))) ∧
  (∀ via bs s e, Running s → s.pil.booted = true → envelopeOf bs = some e → e.reply = false → s.stationValid = true →
    e.station = s.station →
    (s.keySlot e.keyId = none → exec (.envelopeReceive via bs) s = .next (finish (authFail s))) ∧
    (∀ k tag t, s.keySlot e.keyId = some k → computeTag (s.key k) e.body s = (tag, t) →
      (tag ≠ e.tag → exec (.envelopeReceive via bs) s = .next (finish (authFail t))) ∧
      (tag = e.tag → (∀ time, e.time = some time → t.getB DAT_STATE 4 = false ∨ t.replayWin < (timeDiff time t.now).natAbs ∨
          t.replaySlot e.keyId e.origin time = none) →
        exec (.envelopeReceive via bs) s = .next (finish (replayDrop t))) ∧
      (∀ time x, tag = e.tag → e.time = some time → t.getB DAT_STATE 4 = true → (timeDiff time t.now).natAbs ≤ t.replayWin →
        t.replaySlot e.keyId e.origin time = some x → (x = none ∨ 8 ≤ t.rd PIL_REMOTE) →
        exec (.envelopeReceive via bs) s = .next (finish
          (replyRemote e.keyId e.origin via (replyHead stNoSpace false (wordsOpcode e.words) (fld (wAt e.words 1) 0 16) 0) t))))) ∧
  (∀ via bs s e i, Running s → s.isTray = true → s.pil.booted = true → envelopeOf bs = some e → e.reply = false →
    (s.stationValid = true → e.station ≠ s.station) → stTray e.station = stTray s.station → stNames e.station = true →
    stPos e.station ≠ 0 → Tbl.lowestFree s.pil.relay 64 = some i →
    exec (.envelopeRelay via bs) s = .next (finish (sendEnvelope (.chain (stChain e.station)) false e.station bs
      (putRelay (Tbl.set s.pil.relay i ⟨e.station, e.origin, fld (wAt e.words 1) 0 16, via, false⟩) s)))) ∧
  (∀ via bs s e x k t, Running s → s.pil.booted = true → envelopeOf bs = some e → e.reply = true → s.issuedFor e.origin (fld (wAt e.words 1) 0 16) (fld (wAt e.words 1) 16 8) e.station = some x →
    s.keySlot e.keyId = some k → computeTag (s.key k) e.body s = (e.tag, t) → fld (wAt e.words 0) 0 8 ≠ stAccepted →
    exec (.replyEnvelopeReceive via bs) s = .next (finish (issuedAnswered x e.words
      { t with pil := { t.pil with issued := t.pil.issued.filter (fun y => y.tag != x.tag) } }))) ∧
  (∀ via bs s e i x, Running s → s.pil.booted = true → envelopeOf bs = some e → e.reply = true → s.issuedFor e.origin (fld (wAt e.words 1) 0 16) (fld (wAt e.words 1) 16 8) e.station = none →
    s.relayFor e = some (i, x) →
    exec (.replyEnvelopeReceive via bs) s = .next (finish (sendEnvelope x.source true (stOrigin e.origin) bs
      (putRelay (if fld (wAt e.words 0) 0 8 = stAccepted then Tbl.set s.pil.relay i { x with held := true } else Tbl.erase s.pil.relay i) s)))) ∧
  (∀ i s x t, Running s → Tbl.get? s.pil.relay i = some x → x.held = true → t = ({ s with pil := { s.pil with relay := Tbl.erase s.pil.relay i } } : State) →
    exec (.relayEntryTimeout i) s = .next (finish (t.wr PIL_RELAY (Tbl.erase s.pil.relay i).length))) ∧
  (∀ n s j st res, Running s → s.job? n = some j → j.phase = .done st res →
    exec (.commandFinalReply n) s = .next (finish (deliverFinal j st res s)))

/-- Rulings and reservations (R138, R240 to R261): a ruling is taken in and forwarded, its acknowledgements gathered, its silent children
asked again; it takes effect when due; parts, claim questions and their answers reach their node as remote commands and replies do, key,
tag, time and the table of R419 checked; a reservation lapses and a staged definition expires. The model's choices: the layout of the
words that the tags cover is log 134, the rest of parts and claims logs 70 and 71, Pilot held by a part log 132, rulings log 72. -/
def Obligations.RulingEventsComplete : Prop :=
  (∀ src parcel bs s e r, Running s → rulingOf parcel bs = (e, r) →
    exec (.rulingReceive src parcel bs) s = .next (finish (rulingArrive e.isSome (.station src) r s))) ∧
  (∀ a s x, Running s → s.seen? a.issuer a.no = some x → (∃ w ∈ x.waits, w.1 = a.src) →
    exec (.rulingAckReceive a) s = .next (finish (ackWhenDone a.issuer a.no (modSeen a.issuer a.no (fun y =>
      { y with waits := y.waits.filter (fun w => w.1 != a.src), applied := y.applied + a.applied,
               refused := y.refused + a.refused, unreached := y.unreached + a.unreached,
               lowest := lowerOf y.lowest a.lowest }) s)))) ∧
  (∀ issuer no child s x w, Running s → s.seen? issuer no = some x → x.waits.find? (fun w => w.1 == child) = some w →
    (w.2 < 3 → exec (.rulingResendTimeout issuer no child) s = .next (finish (rulingTo x.ruling child (modSeen issuer no (fun y =>
      { y with waits := y.waits.map (fun v => if v.1 = child then (v.1, v.2 + 1) else v) }) s)))) ∧
    (3 ≤ w.2 → exec (.rulingResendTimeout issuer no child) s = .next (finish (ackWhenDone issuer no (modSeen issuer no (fun y =>
      { y with waits := y.waits.filter (fun v => v.1 != child), unreached := y.unreached + 1 }) s))))) ∧
  (∀ issuer no s r, Running s → s.par.pend.find? (fun r => r.issuer == issuer && r.no == no) = some r → s.rulingDue r = true →
    (r.atEpoch = true → exec (.rulingEffect issuer no) s = .next (finish (epochRuling r s))) ∧
    (r.atEpoch = false → exec (.rulingEffect issuer no) s = .next (finish
      (s.each ((s.par.pend.filter (fun x => !x.atEpoch && (decide (timeDiff x.effect r.effect < 0) ||
        (x.effect == r.effect && x.before r)))).foldr insertTimed [] ++ [r]) (timedRuling witPush))))) ∧
  (∀ p s k time t i u, Running s → s.pil.booted = true → s.keySlot p.env.keyId = some k → p.env.time = some time →
    computeTag (s.key k) (envBody s.station false p.env.keyId p.env.origin time (partWords p)) s = (p.env.mac, t) →
    t.getB DAT_STATE 4 = true → (timeDiff time t.now).natAbs ≤ t.replayWin →
    t.replaySlot p.env.keyId p.env.origin time = some (some i) → t.rd PIL_REMOTE < 8 →
    u = ((({ t with pil := { t.pil with replay := Tbl.set t.pil.replay i ⟨p.env.keyId, p.env.origin, time⟩ } } : State).inc
      PIL_REMOTE 1).inc PIL_CMDS 1) →
    (u.getF (PIL_KEY_ID k) 28 2 < 2 → exec (.reservationPartReceive p) s = .next (finish (remoteDone
      (replyRemote p.env.keyId p.env.origin p.via (replyHead stNoAuth false 0x11 p.tag 0) (u.inc PIL_REFUSED 1))))) ∧
    (2 ≤ u.getF (PIL_KEY_ID k) 28 2 →
      (PilotFree u → exec (.reservationPartReceive p) s = .next (finish (partTake p u))) ∧
      (u.pilotHeld = true ∨ u.pil.launchQ ≠ [] → exec (.reservationPartReceive p) s = .next (finish
        { u with pil := { u.pil with launchQ := u.pil.launchQ ++ [.part p] } })))) ∧
  (∀ e g via parcel level trays s k time t i u, Running s → s.pil.booted = true → s.keySlot e.keyId = some k → e.time = some time →
    computeTag (s.key k) (envBody s.station false e.keyId e.origin time (askWords g parcel level trays)) s = (e.mac, t) →
    t.getB DAT_STATE 4 = true → (timeDiff time t.now).natAbs ≤ t.replayWin →
    t.replaySlot e.keyId e.origin time = some (some i) → t.rd PIL_REMOTE < 8 →
    u = ((({ t with pil := { t.pil with replay := Tbl.set t.pil.replay i ⟨e.keyId, e.origin, time⟩ } } : State).inc
      PIL_REMOTE 1).inc PIL_CMDS 1) → 2 ≤ u.getF (PIL_KEY_ID k) 28 2 →
    (PilotFree u → exec (.claimExchange (.ask e g via parcel level trays)) s = .next (finish (claimAsk e g via parcel level trays u))) ∧
    (u.pilotHeld = true ∨ u.pil.launchQ ≠ [] → exec (.claimExchange (.ask e g via parcel level trays)) s = .next (finish
      { u with pil := { u.pil with launchQ := u.pil.launchQ ++ [.ask e g via parcel level trays] } }))) ∧
  (∀ p s, Running s → s.pil.booted = true → s.keySlot p.env.keyId = none →
    exec (.reservationPartReceive p) s = .next (finish (authFail s))) ∧
  (∀ e g st parcel trays gone s x k t u c, Running s → s.issuedFor e.origin g 0x11 st = some x → s.keySlot e.keyId = some k →
    u = ({ t with pil := { t.pil with issued := t.pil.issued.filter (fun y => y.tag != x.tag) } } : State) →
    u.par.claims.find? (fun c => c.parcel == parcel && x.purpose == .claim parcel st && c.waits.any (fun w => w.1 == st)) = some c →
    (computeTag (s.key k) (envBody st true e.keyId e.origin (e.time.getD 0) (claimWords g stOk trays)) s = (e.mac, t) →
      exec (.claimExchange (.answer e g st parcel trays)) s = .next (finish (claimDone 4 parcel c.level
        (putClaim { c with waits := c.waits.filter (fun w => w.1 != st), answers := Tbl.set c.answers st trays } u)))) ∧
    (computeTag (s.key k) (envBody st true e.keyId e.origin (e.time.getD 0) (claimWords g stTimeout [gone])) s = (e.mac, t) →
      exec (.claimExchange (.failed e g st parcel gone)) s = .next (finish (claimDone 4 parcel c.level
        (putClaim { c with waits := c.waits.filter (fun w => w.1 != st), lost := c.lost ++ [gone],
                           answers := Tbl.set c.answers st [] } u))))) ∧
  (∀ e g st parcel trays gone s, Running s → s.issuedFor e.origin g 0x11 st = none →
    exec (.claimExchange (.answer e g st parcel trays)) s = .next (finish (authFail s)) ∧
    exec (.claimExchange (.failed e g st parcel gone)) s = .next (finish (authFail s))) ∧
  (∀ parcel level s n c silent v, Running s → s.claim? parcel level = none → s.ctxAt parcel level = some (n, c) →
    silent = c.parts.filter (fun p => !p.own && p.answer.isNone) →
    v = s.each (silent.filter (fun p => decide (p.resends < 3))) (fun p t =>
      let (tag, u) := issueTag 0x11 p.station (.reserve parcel p.station) t
      sendPart c p.station tag u) →
    exec (.reservationResendTimeout parcel level) s = .next (finish (settleResv 4 n
      ((if silent.any (fun p => decide (3 ≤ p.resends)) = true then v.evt PAR_EVT 1 else v).modCtx n (fun x =>
        { x with parts := x.parts.map (fun p =>
          if p.own ∨ p.answer.isSome = true then p
          else if p.resends < 3 then { p with resends := p.resends + 1 }
          else { p with answer := some (p.station, stTimeout, 0) }) })))) ) ∧
  (∀ parcel s n c, Running s → s.ctxPub parcel = some (n, c) → c.phase = .reserved → c.resvOk = true →
    exec (.reservationLapse parcel) s = .next (finish (((freeParcel n false s).inc PAR_LAPSED 1).evt PAR_EVT 6))) ∧
  (∀ parcel s, Running s →
    exec (.stagedDefinitionExpiry parcel) s = .next
      { s with par := { s.par with staged := s.par.staged.filter (fun d => d.parcel != parcel) } })

/-- What reaches and leaves a tray build (R347, R348, R380, R484 to R511): alarms, series records and excerpts are taken and written to
their rings; a frame is forwarded, or its bundle taken; a stream sends what is ready; a Berths cycle serves the first of the waiting
requests in R485's order and frees what it names. The model's choices: a ring's write above THR asks for leave and waits (logs 10 and 129),
the phase of a frame's stamp is free (log 130), the path of a forwarded frame, of bundles and of bad frames logs 49, 50 and 52, the record
that an alarm writes log 82, and requests that the block makes itself are served at once (log 139). -/
def Obligations.TrayEventsComplete : Prop :=
  (∀ src bs s, Running s → s.isTray = true →
    exec (.alarmReceive src bs) s = .next (finish (alarmIn (leAt bs 0 1) src (leAt bs 2 2 % 4096) (leAt bs 1 1 % 32)
      ((decTime (leAt bs 4 12)).getD 0) (leAt bs 16 4) s))) ∧
  (∀ k s e t, Running s → Tbl.get? s.vrd.hold k = some e →
    t = ({ s with vrd := { s.vrd with hold := Tbl.erase s.vrd.hold k } } : State) →
    exec (.alarmHoldEnd k) s = .next (finish (if 0 < e.count then
      putAlarm (alarmVerdict e.kind e.station e.unit e.rule e.count e.tEvent e.value true) t else t))) ∧
  (∀ src parcel bs s rec t, Running s → s.isTray = true → rec = seriesRecord src parcel bs →
    (s.rd STW_SR_WR + 2 ^ 64 - s.rd STW_SR_RD) % 2 ^ 64 + rec.length ≤ s.getF STW_SR_SIZE 0 28 * 4096 →
    s.ownWaits (.series rec) rec.length = false →
    t = (storeRing (s.rd STW_SR_BASE) (s.getF STW_SR_SIZE 0 28 * 4096) (s.rd STW_SR_WR) rec s).inc STW_SR_WR rec.length →
    exec (.seriesReceive src parcel bs) s = .next (finish (if s.getB STW_SR_CTL 0 = true then
      sendLanding ⟨0, s.rdIp STW_SR_COLL⟩ ⟨4, 4, 0, leAt rec 4 2, 0, false, false, false, withCrc rec, 0⟩ t else t))) ∧
  (∀ src parcel bs s rec, Running s → s.isTray = true → rec = seriesRecord src parcel bs → s.ownWaits (.series rec) rec.length = true →
    exec (.seriesReceive src parcel bs) s = .next (finish (ownAsk (.series rec) rec.length s))) ∧
  (∀ src parcel bs s, Running s → s.isTray = true → s.ownWaits (.series (seriesRecord src parcel bs)) (seriesRecord src parcel bs).length = false →
    s.getF STW_SR_SIZE 0 28 * 4096 < (s.rd STW_SR_WR + 2 ^ 64 - s.rd STW_SR_RD) % 2 ^ 64 + (seriesRecord src parcel bs).length →
    exec (.seriesReceive src parcel bs) s = .next (s.inc STW_SR_DROP 1)) ∧
  (∀ src bs s k session off body r w, Running s → s.isTray = true → k = leAt bs 0 1 → k = 1 ∨ k = 2 →
    session = (if k = 1 then leAt bs 2 2 else 0xFFFF) → off = (if k = 1 then leAt bs 4 8 else leAt bs 4 4) →
    body = (if k = 1 then bs.drop 16 else bs.drop 12) →
    r = leBytes 4 src ++ leBytes 2 session ++ zeros 2 ++ leBytes 8 off ++ leBytes 4 body.length ++ zeros 4 ++ body →
    w = r ++ zeros ((8 - r.length % 8) % 8) →
    (s.ownWaits (.excerpt w) w.length = true → exec (.bulkExcerptReceive src bs) s = .next (finish (ownAsk (.excerpt w) w.length s))) ∧
    (s.ownWaits (.excerpt w) w.length = false →
      ((s.rd WAK_XR_WR + 2 ^ 64 - s.rd WAK_XR_RD) % 2 ^ 64 + w.length ≤ s.getF WAK_XR_SIZE 0 28 * 4096 →
        exec (.bulkExcerptReceive src bs) s = .next (finish ((storeRing (s.rd WAK_XR_BASE) (s.getF WAK_XR_SIZE 0 28 * 4096)
          (s.rd WAK_XR_WR) w s).inc WAK_XR_WR w.length))) ∧
      (s.getF WAK_XR_SIZE 0 28 * 4096 < (s.rd WAK_XR_WR + 2 ^ 64 - s.rd WAK_XR_RD) % 2 ^ 64 + w.length →
        exec (.bulkExcerptReceive src bs) s = .next (finish (s.inc WAK_XR_DROP 1))))) ∧
  (∀ st bs age s x t, Running s → s.isTray = true → s.streamOn st = true → s.rxEdge age = (x, t) →
    (leAt bs 0 6 ≠ s.rd LND_MAC → exec (.frameReceive st bs age false) s = .next (finish (forwardFrame st bs x t))) ∧
    (leAt bs 0 6 = s.rd LND_MAC → ∀ off, ptpOffset bs = some off →
      exec (.frameReceive st bs age false) s = .next (finish (ptpIn st off bs x t)))) ∧
  (∀ st bs age s, Running s → s.isTray = true → s.streamOn st = true → leAt bs 0 6 = s.rd LND_MAC → ptpOffset bs = none →
    (bundleOk s bs = true → exec (.frameReceive st bs age false) s = .next (finish (bundleIn landingCellIn st bs s))) ∧
    (bundleOk s bs = false → exec (.frameReceive st bs age false) s = .next (finish ((s.inc LND_RX_BAD 1).evt LND_EVT 0)))) ∧
  (∀ st bs age s, Running s → s.isTray = true → s.streamOn st = true →
    exec (.frameReceive st bs age true) s = .next (finish ((s.inc LND_RX_BAD 1).evt LND_EVT 0))) ∧
  (∀ st s t, Running s → s.isTray = true → s.streamOn st = true → t = lndIdle st (lndSwapDue (cycleOf s.now) s) →
    (∀ e, t.lnd.time.find? (fun e => e.1 == st) = some e →
      exec (.frameTransmit st) s = .next (finish (timeLeaves st e.2 { t with lnd := { t.lnd with time := t.lnd.time.erase e } }))) ∧
    (t.lnd.time.find? (fun e => e.1 == st) = none → ∀ e, t.lnd.forward.find? (fun e => e.1 == st) = some e →
      exec (.frameTransmit st) s = .next (finish (forwardLeaves st e.2.1 e.2.2
        { t with lnd := { t.lnd with forward := t.lnd.forward.erase e } }))) ∧
    (t.lnd.time.find? (fun e => e.1 == st) = none → t.lnd.forward.find? (fun e => e.1 == st) = none → ∀ f, t.lndNext st = some f →
      exec (.frameTransmit st) s = .next (finish (lndSend f t)))) ∧
  (∀ first more freed s w, Running s → w = s.brtWait ++ (first :: more).filter (fun r => r.size != 0) →
    (w = [] → exec (.berthAllocate first more freed) s = .next (finish
      (s.each freed (fun x u => memReadBack 0 (brtKey x.1 x.2) (brtRelease x.1 x.2 u))))) ∧
    (∀ pre r post b t, w = pre ++ r :: post → (∀ x ∈ pre, brtRank r.kind < brtRank x.kind) → (∀ x ∈ post, brtRank r.kind ≤ brtRank x.kind) →
      brtRequest (brtUrgent r.kind) r.size { s with brtWait := w.erase r } = (b, t) →
      exec (.berthAllocate first more freed) s = .next (finish
        ((brtWritten (b.getD []) t).each freed (fun x u => memReadBack 0 (brtKey x.1 x.2) (brtRelease x.1 x.2 u))))))

/-- A step runs the command in front of the queue, on the state that holds the rest. -/
def Obligations.StepRunsTheFrontCommand : Prop :=
  ∀ c cs s, s.pending = c :: cs → step s = exec c { s with pending := cs }

/-- On an empty queue a step is one edge of DAT_CLK (R58): Wake's machine and merger meet the events of the cycle (R364, R366), the clock
moves by DAT_INC and the adjustment, modulo its range, and a pulse that has been high for its WIDTH falls (R80); with no timer, no
session, no packet and nothing that waits for room or leave at Wake nothing else happens; in reset nothing moves. That an empty queue means an edge is the model's choice
(log 6). -/
def Obligations.EmptyQueueIsOneEdge : Prop :=
  ∀ s, s.pending = [] →
    (s.pins.por = false → ∀ u, u = wakTick s → step s = .next (finish { u with
      dat := { u.dat with
        clock := (((u.dat.clock : Int) + ((u.rd DAT_INC : Nat) + toInt 32 (u.rd DAT_FADJ))) % ((2 ^ 48 * 1000000000 * 2 ^ 32 : Nat) : Int)).toNat,
        edges := u.dat.edges + 1, pulseOut := u.dat.pulseOut.filter (fun e => !decide (e.2 ≤ u.dat.edges + 1)) },
      out := u.out ++ (u.dat.pulseOut.filter (fun e => decide (e.2 ≤ u.dat.edges + 1))).map (fun e => .pulse e.1 false) })) ∧
    (Running s → s.wak.timers = [] → s.capture = 0 → s.wak.queue = [] → s.wak.flushing = false → s.wak.stall = none → s.wak.askAt = none →
      (s.drainWants = false ∨ s.dstRoom = true) → step s = .next { s with
      dat := { s.dat with
        clock := (((s.dat.clock : Int) + ((s.rd DAT_INC : Nat) + toInt 32 (s.rd DAT_FADJ))) % ((2 ^ 48 * 1000000000 * 2 ^ 32 : Nat) : Int)).toNat,
        edges := s.dat.edges + 1, pulseOut := s.dat.pulseOut.filter (fun e => !decide (e.2 ≤ s.dat.edges + 1)) },
      out := s.out ++ (s.dat.pulseOut.filter (fun e => decide (e.2 ≤ s.dat.edges + 1))).map (fun e => .pulse e.1 false) }) ∧
    (s.pins.por = true → step s = .next s)

/-- No step faults and no step is refused: every command has a meaning in every state (R9 and R409 give what is refused its answer). That the
model stops nowhere, an access or command refused being answered as the spec says, is its choice (log 13). -/
def Obligations.EveryStepAnswersNext : Prop :=
  ∀ s, ∃ t, step s = .next t

/-- What every step keeps: the build (R1), the order of the queue, the canonical form of registers and memories; what has been driven on
the ports is only added to, and the count of free values never goes back. -/
def Obligations.StepKeepsTheInvariant : Prop :=
  ∀ s t, step s = .next t →
    t.build = s.build ∧ t.pending = s.pending.tail ∧ (Canonical s → Canonical t) ∧ s.out <+: t.out ∧ s.free ≤ t.free

/-- Nothing is left over at the end of a step: Quiet is an invariant of the steps. That what one unit tells another is done at the end of
the same step, at most 4,096 of it, is the model's choice (log 11). -/
def Obligations.StepsEndQuiet : Prop :=
  ∀ s t, Quiet s → step s = .next t → Quiet t

/-- Right after reset: the state is sound, no command waits, Pilot has not booted and refuses every aperture write (R405, R545), Datum runs
free and is not valid (R64), and the registers hold the values of their tables. The model's choices: that State.reset is the tray build with
its resets just released is logs 2 and 3, its pins and straps log 4, registers and queues without a stated value log 15, the memories log 16. -/
def Obligations.ResetState : Prop :=
  Canonical State.reset ∧ Quiet State.reset ∧ State.reset.pending = [] ∧ Running State.reset ∧ State.reset.pil.booted = false ∧
    State.reset.datState = 0 ∧ State.reset.datValid = false ∧ (∀ ch, ch < 2 → State.reset.fordHold ch = false) ∧
    State.reset.rd DAT_INC = 0xCCCCCCCD ∧ State.reset.rd CAP_UNITS = 0x0007FFEF ∧ State.reset.rd CAP_CLK_A = 0x064004E2 ∧
    State.reset.rd CAP_CLK_B = 0x0320C350 ∧ State.reset.rd CAP_POWER = 0x3C0118B4 ∧ State.reset.rd CDC_BOND_CAP = 0x01122240 ∧
    State.reset.getF FLT_CTL 16 16 = 0x03E8 ∧ State.reset.getF EPO_VRD_CTL 16 16 = 0x03E8 ∧
    (∀ n, n < 8 → State.reset.getB (PIL_KEY_ID n) 31 = false) ∧ (∀ k, k < 4 → State.reset.irq k = false)

/-- While ZY_PORST_N is asserted the whole block is held in reset (R515, R516): only the reset inputs change anything. -/
def Obligations.ResetHoldsTheBlock : Prop :=
  ∀ c s, s.pins.por = true → isResetPin c = false → exec c s = .next s

/-- A row that is a Pilot command is its opcode's command as an aperture or an envelope launches it (R425). -/
def Obligations.OpcodesNameTheirRows : Prop :=
  ∀ i code c s, commandOf i = some (code, c) → exec i s = evNext (runOpcode code c) s

/-- The opcodes, classes and builds of the commands (R425 and the command tables of the chapters); RULING_ISSUE needs OPERATE for BAR and
TRIGGER. No other opcode names a command. -/
def Obligations.OpcodeTable : Prop :=
  ∀ c k, k = (if c.f 2 0 8 = 1 ∨ c.f 2 0 8 = 2 then 1 else 2) →
    ((List.range 256).filterMap (fun code => (pilotOp code c).map (fun o => (o.1.code, o.1.cls, o.1.on)))) =
      [(0x00, 0, .both), (0x01, 0, .both), (0x02, 0, .both), (0x03, 2, .both), (0x04, 3, .both), (0x05, 2, .both),
       (0x10, 2, .both), (0x11, 2, .both), (0x12, 2, .both), (0x13, 2, .both), (0x14, 2, .both)] ++
      [(0x15, 2, .both), (0x16, 2, .both), (0x17, 0, .both), (0x18, 0, .both), (0x19, 2, .trayOnly), (0x1A, 2, .both),
       (0x1B, 1, .trayOnly), (0x1C, 1, .both), (0x1D, 1, .both), (0x1E, 2, .both), (0x1F, 2, .trayOnly)] ++
      [(0x20, 2, .both), (0x21, 2, .leafOnly), (0x22, 1, .leafOnly), (0x23, 2, .both), (0x24, 2, .both), (0x30, 2, .both),
       (0x31, 2, .both), (0x32, 3, .both), (0x33, 2, .both), (0x34, 0, .both), (0x35, 1, .both)] ++
      [(0x40, 2, .trayOnly), (0x41, 2, .trayOnly), (0x42, 2, .trayOnly), (0x43, 2, .trayOnly), (0x44, 2, .trayOnly),
       (0x45, 0, .trayOnly), (0x50, 2, .both), (0x51, 1, .both), (0x52, 1, .both), (0x53, 1, .both), (0x54, 3, .both)] ++
      [(0x55, 1, .leafOnly), (0x60, 2, .both), (0x61, 2, .both), (0x62, 2, .both), (0x63, 3, .both), (0x64, 1, .both),
       (0x65, 1, .both), (0x66, 2, .both), (0x70, 1, .both), (0x71, 2, .both), (0x72, 3, .both)] ++
      [(0x73, 2, .both), (0x74, 2, .trayOnly), (0x75, 0, .trayOnly), (0x80, k, .both), (0x81, 2, .both), (0x82, 2, .both),
       (0x90, 2, .both), (0x91, 1, .both), (0x92, 2, .both), (0x93, 3, .both), (0xA0, 3, .both)] ++
      [(0xA1, 3, .both), (0xA2, 1, .both), (0xA3, 1, .leafOnly), (0xA4, 2, .both), (0xA5, 1, .both), (0xB0, 1, .both),
       (0xB1, 2, .both), (0xB2, 2, .trayOnly), (0xB3, 2, .trayOnly), (0xB4, 2, .trayOnly), (0xB5, 2, .trayOnly)] ++
      [(0xC0, 2, .both), (0xC1, 2, .both), (0xC2, 2, .trayOnly), (0xC3, 1, .leafOnly), (0xC4, 2, .trayOnly),
       (0xC5, 2, .trayOnly), (0xC6, 2, .both), (0xF0, 2, .both), (0xF1, 3, .both), (0xF2, 2, .both)]

/-- Checks 1 to 5 in their order, and what a command that fails one leaves behind (R409): its reply, the counts PIL_CMDS and PIL_REFUSED,
and nothing of its own. A command that passes them, with its unit powered, goes to its own checks. -/
def Obligations.ChecksInOrder : Prop :=
  (∀ code c s, Reaches c s → pilotOp code c = none →
    evNext (runOpcode code c) s = .next (finish (sendReply false true c code 0x10 [] ((opened c s).inc PIL_REFUSED 1)))) ∧
  (∀ i code c s o own u st, commandOf i = some (code, c) → Reaches c s → pilotOp code c = some (o, own) → u = opened c s →
    (((o.on = .leafOnly ∧ s.build = .tray) ∨ (o.on = .trayOnly ∧ s.build = .leaf)) ∧ st = 0x10 ∨
     ¬((o.on = .leafOnly ∧ s.build = .tray) ∨ (o.on = .trayOnly ∧ s.build = .leaf)) ∧
      (c.authority < o.cls ∧ st = 0x13 ∨
       o.cls ≤ c.authority ∧
        ((c.length < 2 ∨ 1024 < c.length ∨ c.written ≠ c.length ∨ o.lenOk c.params c.length = false) ∧ st = 0x11 ∨
         2 ≤ c.length ∧ c.length ≤ 1024 ∧ c.written = c.length ∧ o.lenOk c.params c.length = true ∧
          ((c.rsv0 ≠ 0 ∨ c.rsv1 ≠ 0) ∧ st = 0x12 ∨
           c.rsv0 = 0 ∧ c.rsv1 = 0 ∧ c.strictOnly = true ∧ u.getB EPO_CTL 0 = false ∧ st = 0x12)))) →
    exec i s = .next (finish (sendReply false true c code st [] (u.inc PIL_REFUSED 1)))) ∧
  (∀ i code c s o own u, commandOf i = some (code, c) → pilotOp code c = some (o, own) → Runs o c s u →
    exec i s = .next (finish (settle o c (own c u))))

/-- A command for a unit of the compute tier (R43, R537): fenced off, it is refused with FENCED; powered off, it waits for the wake it asks
for where it may, and is refused with BUSY_POWER where it may not, with nothing started. -/
def Obligations.PowerOfTheUnit : Prop :=
  ∀ i code c s o own u, commandOf i = some (code, c) → Reaches c s → pilotOp code c = some (o, own) → u = opened c s →
    headerFault o c u = none → o.compute = true →
    (u.getB PLM_POWER 2 = true → exec i s = .next (finish (sendReply false true c code 0x31 [] u))) ∧
    (u.getB PLM_POWER 2 = false → u.computeOff = true →
      (c.asyncOk = true → u.rd PIL_ASYNC < 16 → exec i s = .next (finish (requestWake
        (startJob { o with async := true } c .waitPower .plain u)))) ∧
      (c.asyncOk = false ∨ 16 ≤ u.rd PIL_ASYNC → exec i s = .next (finish (sendReply false true c code 0x20 [] u))))

/-- Where replies go (R405, R408, R412 to R414): a reply to an aperture stands in it and sets its bit of PIL_EVT, unless ZY_HRST_N is asserted;
a started command that holds a slot has its final reply in the done queue; a refused write to a BUSY aperture is counted; a command
launched while another holds Pilot is counted and waits behind those that wait already (R411). The model's choices: which waiting commands
hold Pilot is log 132, that a Pilot row stands for its words of an aperture log 9, and what ZY_HRST_N does to replies due log 89. -/
def Obligations.RepliesReachTheirSender : Prop :=
  (∀ o c st res t a, Quiet t → c.src = .aperture a → a < 5 → t.pins.hrst = false →
    concluded o c st res t = (t.setAperture a ⟨.replied, 0, false, [],
      [w32 (st + (res.length + 2) * 2 ^ 16), w32 (c.tag % 2 ^ 16 + o.code * 2 ^ 16)] ++ res⟩).evt PIL_EVT a) ∧
  (∀ o c st res t a, Quiet t → c.src = .aperture a → t.pins.hrst = true → concluded o c st res t = t) ∧
  (∀ j st res t a, j.async = true → j.cmd.src = .aperture a → a < 5 → t.pins.hrst = false →
    deliverFinal j st res t = doneEntry a (replyWords st true j.cmd j.opcode (res.take 12)) (pilotFree (dropJob j.id t))) ∧
  (∀ i code c s o own, commandOf i = some (code, c) → pilotOp code c = some (o, own) → s.pins.por = false → s.pil.booted = true →
    (∀ a, c.src = .aperture a → s.pins.hrst = false ∧ a < 5 ∧ (a = 4 → c.level = 3) ∧ (s.aperture a).st ≠ .busy) →
    (s.pilotHeld = true ∨ s.pil.launchQ ≠ []) → ∀ u, u = opened c s →
    exec i s = .next (finish { u with pil := { u.pil with launchQ := s.pil.launchQ ++ [.cmd code c] } })) ∧
  (∀ i code c s a, commandOf i = some (code, c) → Running s → c.src = .aperture a → a < 5 → s.pins.hrst = false → (a = 4 → c.level = 3) →
    (s.pil.booted = false ∨ (s.aperture a).st = .busy) →
    exec i s = .next ((s.inc PIL_BUSY_WR c.written).evt PIL_EVT 6)) ∧
  (∀ i code c s, commandOf i = some (code, c) → Running s → c.src = .aperture 4 → s.pins.hrst = false → c.level ≠ 3 →
    exec i s = .next (s.evt CAP_ACC_ERR 0))

/-- The interrupt outputs follow the event bits that the spec names, in every state (R384, R415, R461), ZY_IRQ[1] EPO_VRD_EVT bit 0 (the second sentence of R349's third point). -/
def Obligations.InterruptOutputs : Prop :=
  ∀ s : State, (s.irq 0 = true ↔ ∃ i, i < 6 ∧ s.getB PIL_EVT i = true) ∧ (s.irq 1 = true ↔ s.getB EPO_VRD_EVT 0 = true) ∧
    (s.irq 2 = true ↔ ∃ i, i < 5 ∧ s.getB FLT_EVT i = true) ∧
    (s.irq 3 = true ↔ s.getB WAK_EVT 0 = true ∨ s.getB WAK_EVT 1 = true ∨ s.getB WAK_EVT 2 = true ∨ s.getB WAK_EVT 5 = true)

/-- The servo's adjustment is the sum of its two terms, clamped to 1,717,987 units of 2⁻³² ns either way, and DAT_EVT.CLAMP is set each time
the clamp acts (R59, R61). -/
def Obligations.ServoIsClamped : Prop :=
  (∀ i p s, toInt 32 ((putServo i p s).rd DAT_FADJ) = max (-1717987) (min 1717987 (max (-1717987) (min 1717987 i) + p))) ∧
  (∀ i p s, (1717987 < i ∨ i < -1717987 ∨ 1717987 < max (-1717987) (min 1717987 i) + p ∨ max (-1717987) (min 1717987 i) + p < -1717987) →
    (putServo i p s).getB DAT_EVT 4 = true) ∧
  (∀ o s, s.datState = 2 → s.getB DAT_CTL 0 = true → s.gmHeld = false →
    -1717987 ≤ toInt 32 ((measure o s).rd DAT_FADJ) ∧ toInt 32 ((measure o s).rd DAT_FADJ) ≤ 1717987)

/-- A cell's 128 bytes read back as the cell, with a correct HCRC (R102); a time's 96 bits read back as the time (R56). That the CRC is
reflected, begins at all ones and is inverted is the model's choice (log 33). -/
def Obligations.CellsAndTimesRoundTrip : Prop :=
  (∀ c : Cell, c.type < 2 ^ 5 → 1 ≤ c.cls → c.cls ≤ 5 → c.src < 2 ^ 20 → c.dst < 2 ^ 20 → c.parcel < 2 ^ 12 → c.epoch < 2 ^ 24 →
    c.seq < 2 ^ 16 → 1 ≤ c.data.length → c.data.length ≤ 112 →
    c.bytes.length = 128 ∧ cellHcrcOk c.bytes = true ∧ parseCell c.bytes = some c) ∧
  (∀ t, t < 2 ^ 48 * 1000000000 * 2 ^ 32 → t % 2 ^ 16 = 0 → decTime (leAt (timeBytes t) 0 12) = some t)

/-- A store that succeeds puts its bytes at its address in the build's memory and changes no other byte of it, and what is stored reads
back; one that fails changes the bytes of those of its requests whose port is trained, to what was to be stored, and no other, and none where
it is out of reach or on a leaf (R540, R541; that each request of a transfer stands for itself is log 141). No load changes memory. -/
def Obligations.StoresWriteTheirBytes : Prop :=
  (∀ a bs s t, storeBytes a bs s = (true, t) →
    (∀ j, j < a ∨ a + bs.length ≤ j → memByte t.mem j = memByte s.mem j) ∧ memRead t.mem a bs.length = bs) ∧
  (∀ a bs s t, storeBytes a bs s = (false, t) →
    (∀ j, (∀ p ∈ s.requests a bs.length, s.reqUp p = true → j < p.1 ∨ p.1 + p.2 ≤ j) → memByte t.mem j = memByte s.mem j) ∧
    (s.memReach a bs.length = false ∨ s.isTray = false → t.hostMem = s.hostMem ∧ t.holdMem = s.holdMem) ∧
    (s.memReach a bs.length = true → s.isTray = true → ∀ j p, p ∈ s.requests a bs.length → s.reqUp p = true →
      p.1 ≤ j → j < p.1 + p.2 → memByte t.mem j = bs.getD (j - a) 0)) ∧
  (∀ a bs r s t, storeBytes a bs s = (r, t) → (s.isTray = true → t.hostMem = s.hostMem) ∧ (s.isTray = false → t.holdMem = s.holdMem)) ∧
  (∀ a n s r t, loadBytes a n s = (r, t) → t.hostMem = s.hostMem ∧ t.holdMem = s.holdMem)

/-- An escalation (R445): the source is ESCALATED, the block is in DEGRADED, FLT_EVT.ESCALATE is set, FLT_ESCALATIONS counts it, and the
outputs are driven for a fault of class F or with action PIN (R450). -/
def Obligations.EscalationTakesEffect : Prop :=
  ∀ n s t, n < 64 → t = escalate n s →
    t.fltState n = 2 ∧ t.getB FLT_STATE 0 = true ∧ t.getB FLT_EVT 1 = true ∧
    t.rd FLT_ESCALATIONS = (s.rd FLT_ESCALATIONS + 1) % 2 ^ 32 ∧ Todo.stopped ∈ t.todo ∧
    (s.fltClass n = 2 ∨ s.fltAction n = 1 → t.errDriven = true)
end

