-- ==== Sys2Proof/Laws/Bits.lean ====
section
/-! SUPPORT. Laws of fields: what a field reads after it, or another one, has been replaced. -/

namespace Sys2Proof.Laws

open Sys2Proof.Machine

/-- A word as its part above a field, the field, and its part below. -/
theorem split_fld (v lo len : Nat) : v = (v / 2 ^ (lo + len) * 2 ^ len + fld v lo len) * 2 ^ lo + v % 2 ^ lo := by
  have h1 : v = 2 ^ lo * (v / 2 ^ lo) + v % 2 ^ lo := (Nat.div_add_mod v (2 ^ lo)).symm
  have h2 : v / 2 ^ lo = 2 ^ len * (v / 2 ^ lo / 2 ^ len) + fld v lo len := (Nat.div_add_mod _ _).symm
  have h3 : v / 2 ^ lo / 2 ^ len = v / 2 ^ (lo + len) := by rw [Nat.div_div_eq_div_mul, Nat.pow_add]
  rw [h3] at h2
  rw [Nat.mul_comm (v / 2 ^ (lo + len)), ← h2, Nat.mul_comm]
  exact h1

/-- The same word with the field replaced. -/
theorem setFld_eq (v lo len x : Nat) :
    setFld v lo len x = (v / 2 ^ (lo + len) * 2 ^ len + x % 2 ^ len) * 2 ^ lo + v % 2 ^ lo := by
  have h := split_fld v lo len
  have h2 : v - fld v lo len * 2 ^ lo = v / 2 ^ (lo + len) * 2 ^ len * 2 ^ lo + v % 2 ^ lo := by
    rw [Nat.add_mul] at h
    omega
  unfold setFld
  rw [h2, Nat.add_mul]
  omega

/-- A field reads as what was put there, cut to its width. -/
@[simp] theorem fld_setFld_same (v lo len x : Nat) : fld (setFld v lo len x) lo len = x % 2 ^ len := by
  rw [setFld_eq]
  unfold fld
  have hp : 0 < 2 ^ lo := Nat.two_pow_pos lo
  rw [Nat.mul_comm _ (2 ^ lo), Nat.mul_add_div hp, Nat.div_eq_of_lt (Nat.mod_lt _ hp), Nat.add_zero,
    Nat.mul_comm _ (2 ^ len), Nat.mul_add_mod, Nat.mod_mod]

/-- A field that lies below is as before. -/
theorem fld_setFld_below (v lo len x lo2 len2 : Nat) (h : lo2 + len2 ≤ lo) : fld (setFld v lo len x) lo2 len2 = fld v lo2 len2 := by
  have hm : setFld v lo len x % 2 ^ (lo2 + len2) = v % 2 ^ (lo2 + len2) := by
    rw [setFld_eq]
    have hd : 2 ^ lo = 2 ^ (lo2 + len2) * 2 ^ (lo - (lo2 + len2)) := by rw [← Nat.pow_add]; congr 1; omega
    have h1 : ∀ q, (q * 2 ^ lo + v % 2 ^ lo) % 2 ^ (lo2 + len2) = v % 2 ^ lo % 2 ^ (lo2 + len2) := fun q => by
      rw [hd, Nat.mul_left_comm, Nat.mul_add_mod]
    rw [h1, hd, Nat.mod_mul_right_mod]
  have hf : ∀ w, fld w lo2 len2 = w % 2 ^ (lo2 + len2) / 2 ^ lo2 := fun w => by
    unfold fld
    rw [Nat.pow_add, Nat.mod_mul_right_div_self]
  rw [hf, hf, hm]

/-- A field that lies above is as before. -/
theorem fld_setFld_above (v lo len x lo2 len2 : Nat) (h : lo + len ≤ lo2) : fld (setFld v lo len x) lo2 len2 = fld v lo2 len2 := by
  have hd : setFld v lo len x / 2 ^ (lo + len) = v / 2 ^ (lo + len) := by
    rw [setFld_eq, Nat.pow_add, ← Nat.div_div_eq_div_mul, ← Nat.div_div_eq_div_mul]
    have hp : 0 < 2 ^ lo := Nat.two_pow_pos lo
    have hq : 0 < 2 ^ len := Nat.two_pow_pos len
    rw [Nat.mul_comm _ (2 ^ lo), Nat.mul_add_div hp, Nat.div_eq_of_lt (Nat.mod_lt _ hp), Nat.add_zero,
      Nat.mul_comm _ (2 ^ len), Nat.mul_add_div hq, Nat.div_eq_of_lt (Nat.mod_lt _ hq), Nat.add_zero]
  have hs : 2 ^ lo2 = 2 ^ (lo + len) * 2 ^ (lo2 - (lo + len)) := by rw [← Nat.pow_add]; congr 1; omega
  unfold fld
  rw [hs, ← Nat.div_div_eq_div_mul, hd, Nat.div_div_eq_div_mul]

/-- A field within the low `w` bits does not see the bits above. -/
theorem fld_mod (v lo len w : Nat) (h : lo + len ≤ w) : fld (v % 2 ^ w) lo len = fld v lo len := by
  have hf : ∀ u, fld u lo len = u % 2 ^ (lo + len) / 2 ^ lo := fun u => by
    unfold fld
    rw [Nat.pow_add, Nat.mod_mul_right_div_self]
  rw [hf, hf, Nat.mod_mod_of_dvd _ (Nat.pow_dvd_pow 2 h)]

theorem bit_eq_fld (v i : Nat) : bit v i = (fld v i 1 == 1) := rfl

/-- A bit that is set reads as set. -/
@[simp] theorem bit_setBit (v i : Nat) : bit (setBit v i) i = true := by
  simp [bit_eq_fld, setBit]

/-- A bit outside the field is as before. -/
theorem bit_setFld_other (v lo len x i : Nat) (h : i < lo ∨ lo + len ≤ i) : bit (setFld v lo len x) i = bit v i := by
  rw [bit_eq_fld, bit_eq_fld]
  rcases h with h | h
  · rw [fld_setFld_below _ _ _ _ _ _ (by omega)]
  · rw [fld_setFld_above _ _ _ _ _ _ (by omega)]

/-- A field of a word of `w` bits stays within `w` bits. -/
theorem setFld_lt (v lo len x w : Nat) (hv : v < 2 ^ w) (h : lo + len ≤ w) : setFld v lo len x < 2 ^ w := by
  rw [setFld_eq]
  have hp : 0 < 2 ^ lo := Nat.two_pow_pos lo
  have hs : 2 ^ w = 2 ^ (lo + len) * 2 ^ (w - (lo + len)) := by rw [← Nat.pow_add]; congr 1; omega
  have hq : v / 2 ^ (lo + len) < 2 ^ (w - (lo + len)) := by
    rw [Nat.div_lt_iff_lt_mul (Nat.two_pow_pos _), Nat.mul_comm, ← hs]; exact hv
  have h1 : v / 2 ^ (lo + len) * 2 ^ len + x % 2 ^ len < 2 ^ (w - (lo + len)) * 2 ^ len := by
    have := Nat.mod_lt x (Nat.two_pow_pos len)
    calc _ < v / 2 ^ (lo + len) * 2 ^ len + 2 ^ len := Nat.add_lt_add_left this _
      _ = (v / 2 ^ (lo + len) + 1) * 2 ^ len := by rw [Nat.succ_mul]
      _ ≤ _ := Nat.mul_le_mul_right _ hq
  have h2 : 2 ^ (w - (lo + len)) * 2 ^ len * 2 ^ lo = 2 ^ w := by rw [← Nat.pow_add, ← Nat.pow_add]; congr 1; omega
  have := Nat.mod_lt v hp
  calc _ < (v / 2 ^ (lo + len) * 2 ^ len + x % 2 ^ len) * 2 ^ lo + 2 ^ lo := Nat.add_lt_add_left this _
    _ = (v / 2 ^ (lo + len) * 2 ^ len + x % 2 ^ len + 1) * 2 ^ lo := by rw [Nat.succ_mul (_ + _)]
    _ ≤ _ := by rw [← h2]; exact Nat.mul_le_mul_right _ h1

end Sys2Proof.Laws
end

