-- ==== Sys2Proof/Laws/Ctxs.lean ====
section
/-! SUPPORT. Laws of the table of role contexts: an update is read back, and two updates of one context are one. -/

namespace Sys2Proof.Laws

open Sys2Proof.Machine

theorem modCtx_twice (s : State) (n : Nat) (f g : Ctx → Ctx) :
    (s.modCtx n f).modCtx n g = s.modCtx n (fun x => g (f x)) := by
  unfold State.modCtx Tbl.modify
  simp only [List.map_map]
  congr 2
  apply List.map_congr_left
  rintro ⟨a, b⟩ -
  simp only [Function.comp]
  split <;> simp_all

theorem modCtx_get (s : State) (n : Nat) (f : Ctx → Ctx) : (s.modCtx n f).ctx? n = (s.ctx? n).map f := by
  show Tbl.get? (s.par.ctxs.map (fun e => if e.1 = n then (e.1, f e.2) else e)) n = (Tbl.get? s.par.ctxs n).map f
  induction s.par.ctxs with
  | nil => rfl
  | cons x xs ih =>
    obtain ⟨a, b⟩ := x
    by_cases h : a = n
    · simp [h, Tbl.get?]
    · simp only [List.map_cons, if_neg h, Tbl.get?]; exact ih

end Sys2Proof.Laws
end

