-- ==== Sys2Proof/Laws/Tbl.lean ====
section
/-! SUPPORT. Laws of sparse tables: what is read after a write, and that every operation keeps the canonical form. -/

namespace Sys2Proof.Laws

open Sys2Proof.Machine

variable {α : Type}

theorem get?_erase_same (t : Tbl α) (k : Nat) : Tbl.get? (Tbl.erase t k) k = none := by
  induction t with
  | nil => rfl
  | cons e t ih =>
    obtain ⟨i, v⟩ := e
    by_cases h : i = k
    · simpa [Tbl.erase, h] using ih
    · simpa [Tbl.erase, Tbl.get?, h] using ih

theorem get?_erase_other (t : Tbl α) {k j : Nat} (hj : j ≠ k) : Tbl.get? (Tbl.erase t k) j = Tbl.get? t j := by
  induction t with
  | nil => rfl
  | cons e t ih =>
    obtain ⟨i, v⟩ := e
    by_cases h : i = k
    · have hij : i ≠ j := fun h' => hj (h' ▸ h)
      have : Tbl.erase ((i, v) :: t) k = Tbl.erase t k := by simp [Tbl.erase, h]
      rw [this, ih, Tbl.get?, if_neg hij]
    · have : Tbl.erase ((i, v) :: t) k = (i, v) :: Tbl.erase t k := by simp [Tbl.erase, h]
      rw [this, Tbl.get?, Tbl.get?, ih]

theorem get?_place_same (t : Tbl α) (k : Nat) (v : α) (h : Tbl.get? t k = none) : Tbl.get? (Tbl.place t k v) k = some v := by
  induction t with
  | nil => simp [Tbl.place, Tbl.get?]
  | cons e t ih =>
    obtain ⟨i, u⟩ := e
    have hik : i ≠ k := by
      intro hik
      simp [Tbl.get?, hik] at h
    have ht : Tbl.get? t k = none := by simpa [Tbl.get?, hik] using h
    by_cases hlt : k < i
    · simp [Tbl.place, hlt, Tbl.get?]
    · simp [Tbl.place, hlt, Tbl.get?, hik, ih ht]

theorem get?_place_other (t : Tbl α) {k j : Nat} (v : α) (hj : j ≠ k) : Tbl.get? (Tbl.place t k v) j = Tbl.get? t j := by
  induction t with
  | nil => simp [Tbl.place, Tbl.get?, hj.symm]
  | cons e t ih =>
    obtain ⟨i, u⟩ := e
    by_cases hlt : k < i
    · simp [Tbl.place, hlt, Tbl.get?, hj.symm]
    · simp [Tbl.place, hlt, Tbl.get?, ih]

theorem get?_set_same (t : Tbl α) (k : Nat) (v : α) : Tbl.get? (Tbl.set t k v) k = some v :=
  get?_place_same _ _ _ (get?_erase_same t k)

theorem get?_set_other (t : Tbl α) {k j : Nat} (v : α) (hj : j ≠ k) : Tbl.get? (Tbl.set t k v) j = Tbl.get? t j := by
  rw [Tbl.set, get?_place_other _ _ hj, get?_erase_other _ hj]

variable [DecidableEq α]

/-- A key reads as the value put there, the default standing for an entry that is not listed. -/
theorem getD_put_same (d : α) (t : Tbl α) (k : Nat) (v : α) : (Tbl.get? (Tbl.put d t k v) k).getD d = v := by
  by_cases h : v = d
  · simp [Tbl.put, h, get?_erase_same]
  · simp [Tbl.put, h, get?_set_same]

/-- Every other key reads as before. -/
theorem get?_put_other (d : α) (t : Tbl α) {k j : Nat} (v : α) (hj : j ≠ k) : Tbl.get? (Tbl.put d t k v) j = Tbl.get? t j := by
  by_cases h : v = d
  · simp [Tbl.put, h, get?_erase_other _ hj]
  · simp [Tbl.put, h, get?_set_other _ _ hj]

omit [DecidableEq α] in
/-- The canonical form says that keys rise. -/
theorem wf_cons (i : Nat) (u : α) (t : Tbl α) :
    Tbl.wf ((i, u) :: t) = true ↔ (∀ e ∈ t, i < e.1) ∧ Tbl.wf t = true := by
  simp [Tbl.wf]

omit [DecidableEq α] in
theorem wf_erase (t : Tbl α) (k : Nat) (h : Tbl.wf t = true) : Tbl.wf (Tbl.erase t k) = true := by
  induction t with
  | nil => rfl
  | cons e t ih =>
    obtain ⟨i, v⟩ := e
    obtain ⟨hlt, hw⟩ := (wf_cons i v t).1 h
    by_cases hk : i = k
    · simpa [Tbl.erase, hk] using ih hw
    · have : Tbl.erase ((i, v) :: t) k = (i, v) :: Tbl.erase t k := by simp [Tbl.erase, hk]
      rw [this, wf_cons]
      exact ⟨fun e he => hlt e (List.mem_filter.1 he).1, ih hw⟩

omit [DecidableEq α] in
theorem mem_place (t : Tbl α) (k : Nat) (v : α) (e : Nat × α) (h : e ∈ Tbl.place t k v) : e = (k, v) ∨ e ∈ t := by
  induction t with
  | nil => simpa [Tbl.place] using h
  | cons x t ih =>
    obtain ⟨i, u⟩ := x
    by_cases hlt : k < i
    · simpa [Tbl.place, hlt] using h
    · have h2 : e = (i, u) ∨ e ∈ Tbl.place t k v := by simpa [Tbl.place, hlt] using h
      rcases h2 with h2 | h2
      · exact Or.inr (by simp [h2])
      · rcases ih h2 with h3 | h3
        · exact Or.inl h3
        · exact Or.inr (by simp [h3])

omit [DecidableEq α] in
theorem wf_place (t : Tbl α) (k : Nat) (v : α) (h : Tbl.wf t = true) (hk : ∀ e ∈ t, e.1 ≠ k) :
    Tbl.wf (Tbl.place t k v) = true := by
  induction t with
  | nil => simp [Tbl.place, Tbl.wf]
  | cons x t ih =>
    obtain ⟨i, u⟩ := x
    obtain ⟨hlt, hw⟩ := (wf_cons i u t).1 h
    have hik : i ≠ k := hk (i, u) (by simp)
    by_cases hki : k < i
    · have : Tbl.place ((i, u) :: t) k v = (k, v) :: (i, u) :: t := by simp [Tbl.place, hki]
      rw [this, wf_cons]
      refine ⟨fun e he => ?_, h⟩
      rcases List.mem_cons.1 he with h1 | h1
      · simp [h1, hki]
      · exact Nat.lt_trans hki (hlt e h1)
    · have : Tbl.place ((i, u) :: t) k v = (i, u) :: Tbl.place t k v := by simp [Tbl.place, hki]
      rw [this, wf_cons]
      refine ⟨fun e he => ?_, ih hw (fun e he => hk e (by simp [he]))⟩
      rcases mem_place t k v e he with h1 | h1
      · subst h1
        exact Nat.lt_of_le_of_ne (Nat.le_of_not_lt hki) hik
      · exact hlt e h1

omit [DecidableEq α] in
theorem wf_set (t : Tbl α) (k : Nat) (v : α) (h : Tbl.wf t = true) : Tbl.wf (Tbl.set t k v) = true := by
  refine wf_place _ k v (wf_erase t k h) (fun e he => ?_)
  simpa using (List.mem_filter.1 he).2

/-- Putting an entry keeps the canonical form. -/
theorem wf_put (d : α) (t : Tbl α) (k : Nat) (v : α) (h : Tbl.wf t = true) : Tbl.wf (Tbl.put d t k v) = true := by
  by_cases hv : v = d
  · simpa [Tbl.put, hv] using wf_erase t k h
  · simpa [Tbl.put, hv] using wf_set t k v h

end Sys2Proof.Laws
end

