-- ==== Sys2Proof/Laws/Mem.lean ====
section
/-! SUPPORT. Laws of the memory in the surroundings: read after write, and the canonical form. -/

namespace Sys2Proof.Laws

open Sys2Proof.Machine

@[simp] theorem memByte_memPut_same (m : List Host.Cell) (a : Nat) (b : Byte) : memByte (memPut m a b) a = b :=
  getD_put_same memBlank m a b

theorem memByte_memPut_other (m : List Host.Cell) {a j : Nat} (b : Byte) (h : j ≠ a) :
    memByte (memPut m a b) j = memByte m j := by
  simp [memByte, memPut, get?_put_other memBlank m b h]

/-- Bytes outside a string that is written read as before. -/
theorem memByte_memWrite_other (m : List Host.Cell) (a j : Nat) (bs : List Byte) (h : j < a ∨ a + bs.length ≤ j) :
    memByte (memWrite m a bs) j = memByte m j := by
  induction bs generalizing m a with
  | nil => rfl
  | cons b bs ih =>
    have hl : (b :: bs).length = bs.length + 1 := rfl
    rw [memWrite, ih (memPut m a b) (a + 1) (by omega), memByte_memPut_other m b (by omega)]

/-- Bytes that are written read back. -/
theorem memRead_memWrite (m : List Host.Cell) (a : Nat) (bs : List Byte) : memRead (memWrite m a bs) a bs.length = bs := by
  induction bs generalizing m a with
  | nil => rfl
  | cons b bs ih =>
    show memByte (memWrite (memPut m a b) (a + 1) bs) a :: memRead (memWrite (memPut m a b) (a + 1) bs) (a + 1) bs.length = b :: bs
    rw [ih, memByte_memWrite_other _ _ _ _ (by omega), memByte_memPut_same]

/-- What is put as the build's memory is the build's memory. -/
theorem mem_setMem (s : State) (m : List Host.Cell) : (s.setMem m).mem = m := by
  unfold State.setMem State.mem
  have e : ∀ x y, ({ s with hostMem := x, holdMem := y } : State).isTray = s.isTray := fun _ _ => rfl
  cases h : s.isTray
  · simp only [Bool.false_eq_true, if_false]
    rw [if_neg]
    rw [e, h]
    simp
  · simp only [if_true]
    rw [if_pos]
    rw [e, h]

theorem wf_memPut (m : List Host.Cell) (a : Nat) (b : Byte) (h : memWf m = true) : memWf (memPut m a b) = true := by
  have h1 : Tbl.wf m = true ∧ ∀ e ∈ m, (!(e.2 == memBlank)) = true := by
    simpa [memWf] using h
  have h2 : ∀ e ∈ memPut m a b, (!(e.2 == memBlank)) = true := by
    intro e he
    by_cases hb : b = memBlank
    · rw [memPut, Tbl.put, if_pos hb] at he
      exact h1.2 e (List.mem_filter.1 he).1
    · rw [memPut, Tbl.put, if_neg hb] at he
      rcases mem_place _ a b e he with h3 | h3
      · subst h3
        simpa using hb
      · exact h1.2 e (List.mem_filter.1 h3).1
  rw [memWf, Bool.and_eq_true]
  exact ⟨wf_put memBlank m a b h1.1, List.all_eq_true.2 h2⟩

/-- Writing a byte string keeps the canonical form. -/
theorem wf_memWrite (m : List Host.Cell) (a : Nat) (bs : List Byte) (h : memWf m = true) :
    memWf (memWrite m a bs) = true := by
  induction bs generalizing m a with
  | nil => exact h
  | cons b bs ih => exact ih (memPut m a b) (a + 1) (wf_memPut m a b h)

end Sys2Proof.Laws
end

