-- ==== Sys2Proof/Laws/Keep.lean ====
section
/-! SUPPORT. What every operation of the block keeps. `Kept s t` says of a state `t` that an operation has made from `s`:
the build is the same (R1), the commands that wait are the same, the register file and both memories are still in
canonical form where they were, the count of free values drawn has not gone back, and what the block has driven on its
ports has only been added to. -/

namespace Sys2Proof.Laws

open Sys2Proof.Machine

/-- What an operation keeps. -/
def Kept (s t : State) : Prop :=
  t.build = s.build ∧ t.pending = s.pending ∧ (Tbl.wf s.regs = true → Tbl.wf t.regs = true) ∧
    (memWf s.hostMem = true → memWf t.hostMem = true) ∧ (memWf s.holdMem = true → memWf t.holdMem = true) ∧
    s.free ≤ t.free ∧ s.out <+: t.out

theorem Kept.refl (s : State) : Kept s s :=
  ⟨rfl, rfl, id, id, id, Nat.le_refl _, List.prefix_refl _⟩

theorem Kept.trans {a b c : State} (h : Kept a b) (g : Kept b c) : Kept a c :=
  ⟨g.1.trans h.1, g.2.1.trans h.2.1, g.2.2.1 ∘ h.2.2.1, g.2.2.2.1 ∘ h.2.2.2.1, g.2.2.2.2.1 ∘ h.2.2.2.2.1,
    Nat.le_trans h.2.2.2.2.2.1 g.2.2.2.2.2.1, h.2.2.2.2.2.2.trans g.2.2.2.2.2.2⟩

/-- An update of any other fields keeps all this. -/
theorem kept_mk {a s : State} (h : Kept a s) (pil : PilotSt) (adm : AdmitSt) (dat : DatumSt) (chains : Tbl ChainSt) (log : LogSt) (plm : PlumbSt) (flt : FaultSt) (brt : Tbl Nat) (brtWait : List BrtReq) (lnd : LndSt) (vrd : VrdSt) (wak : WakSt) (tap : TapSt) (par : ParSt) (cad : CadSt) (trn : TrnSt) (wit : WitSt) (todo : List Todo) (pins : Pins) (otpBond : Tbl Nat) :
    Kept a { s with pil := pil, adm := adm, dat := dat, chains := chains, log := log, plm := plm, flt := flt, brt := brt, brtWait := brtWait, lnd := lnd, vrd := vrd, wak := wak, tap := tap, par := par, cad := cad, trn := trn, wit := wit, todo := todo, pins := pins, otpBond := otpBond } := h

theorem kept_ite {p : Prop} [Decidable p] {a s t : State} (hs : Kept a s) (ht : Kept a t) : Kept a (if p then s else t) := by
  split <;> assumption

theorem kept_ite2 {α : Type} {p : Prop} [Decidable p] {a : State} {s t : α × State} (hs : Kept a s.2) (ht : Kept a t.2) :
    Kept a (if p then s else t).2 := by
  split <;> assumption

theorem kept_foldl {α : Type} {a s : State} {xs : List α} {f : State → α → State} (h : Kept a s)
    (hf : ∀ t x, Kept t (f t x)) : Kept a (xs.foldl f s) := by
  induction xs generalizing s with
  | nil => exact h
  | cons x l ih => exact ih (h.trans (hf s x))

theorem kept_foldl2 {α β : Type} {a : State} {s : β × State} {xs : List α} {f : β × State → α → β × State} (h : Kept a s.2)
    (hf : ∀ t x, Kept t.2 (f t x).2) : Kept a (xs.foldl f s).2 := by
  induction xs generalizing s with
  | nil => exact h
  | cons x l ih => exact ih (h.trans (hf s x))

theorem kept_each {α : Type} {a s : State} {xs : List α} {f : α → State → State} (h : Kept a s)
    (hf : ∀ x t, Kept t (f x t)) : Kept a (s.each xs f) := kept_foldl h (fun t x => hf x t)

theorem wf_filter {α : Type} (p : Nat × α → Bool) (t : Tbl α) (h : Tbl.wf t = true) : Tbl.wf (t.filter p) = true := by
  induction t with
  | nil => rfl
  | cons e t ih =>
    obtain ⟨i, v⟩ := e
    have h1 := (wf_cons i v t).1 h
    rw [List.filter_cons]
    split
    · exact (wf_cons i v _).2 ⟨fun e he => h1.1 e (List.mem_filter.1 he).1, ih h1.2⟩
    · exact ih h1.2

/-- Registers may be put back to their reset values. -/
theorem kept_regsFilter {a s : State} (h : Kept a s) (p : Nat × DWord → Bool) :
    Kept a { s with regs := s.regs.filter p } :=
  h.trans ⟨rfl, rfl, wf_filter p _, id, id, Nat.le_refl _, List.prefix_refl _⟩

theorem keep_State_wr {a s : State} (h : Kept a s) (l : Loc) (v : Nat) : Kept a (s.wr l v) :=
  h.trans ⟨rfl, rfl, wf_put _ s.regs _ _, id, id, Nat.le_refl _, List.prefix_refl _⟩

theorem keep_State_emit {a s : State} (h : Kept a s) (o : Out) : Kept a (s.emit o) :=
  h.trans ⟨rfl, rfl, id, id, id, Nat.le_refl _, List.prefix_append _ _⟩

theorem keep_State_draw {a s : State} (h : Kept a s) : Kept a s.draw.2 :=
  h.trans ⟨rfl, rfl, id, id, id, Nat.le_succ _, List.prefix_refl _⟩

end Sys2Proof.Laws
end

