-- ==== Sys2Proof/Laws/KeepPilot.lean ====
section
/-! SUPPORT. What every operation keeps (`Kept`), one lemma for each: the shared operations, chains, the Logbook, faults and Pilot. -/

namespace Sys2Proof.Laws

open Sys2Proof.Machine

set_option linter.all false

/-! ### Ops.lean -/

theorem keep_State_setF {a0 s : State} (h0 : Kept a0 s) (l : Loc) (lo len x : Nat) : Kept a0 (State.setF s l lo len x) := by simp (maxDischargeDepth := 40) only [State.setF, h0, implies_true, Kept.refl, kept_mk, kept_regsFilter, keep_State_wr]

theorem keep_State_evt {a0 s : State} (h0 : Kept a0 s) (l : Loc) (i : Nat) : Kept a0 (State.evt s l i) := by simp (maxDischargeDepth := 40) only [State.evt, h0, implies_true, Kept.refl, kept_mk, kept_regsFilter, keep_State_setF]

theorem keep_State_putB {a0 s : State} (h0 : Kept a0 s) (l : Loc) (i : Nat) (b : Bool) : Kept a0 (State.putB s l i b) := by simp (maxDischargeDepth := 40) only [State.putB, h0, implies_true, Kept.refl, kept_mk, kept_regsFilter, keep_State_setF]

theorem keep_State_inc {a0 s : State} (h0 : Kept a0 s) (l : Loc) (n : Nat) : Kept a0 (State.inc s l n) := by simp (maxDischargeDepth := 40) only [State.inc, h0, implies_true, Kept.refl, kept_mk, kept_regsFilter, keep_State_wr]

theorem keep_State_maxR {a0 s : State} (h0 : Kept a0 s) (l : Loc) (n : Nat) : Kept a0 (State.maxR s l n) := by
  unfold State.maxR; split <;> simp (maxDischargeDepth := 40) only [h0, implies_true, Kept.refl, kept_mk, kept_regsFilter, keep_State_wr]

theorem keep_State_wrTime {a0 s : State} (h0 : Kept a0 s) (sub sec : Loc) (t : Nat) : Kept a0 (State.wrTime s sub sec t) := by simp (maxDischargeDepth := 40) only [State.wrTime, h0, implies_true, Kept.refl, kept_mk, kept_regsFilter, keep_State_wr]

theorem keep_State_setChain {a0 s : State} (h0 : Kept a0 s) (ch : Nat) (c : ChainSt) : Kept a0 (State.setChain s ch c) := by simp (maxDischargeDepth := 40) only [State.setChain, h0, implies_true, Kept.refl, kept_mk, kept_regsFilter]

theorem keep_State_each {a0 s : State} (h0 : Kept a0 s) {α : Type} (xs : List α) (f : α → State → State) (hf : ∀ x0 x1, Kept x1 (f x0 x1)) : Kept a0 (State.each s xs f) := kept_each h0 hf

/-! ### RegFind.lean -/

theorem keep_resetRegs {a0 s : State} (h0 : Kept a0 s) (d : Dom) (kept : List Nat) : Kept a0 (resetRegs d kept s) := by simp (maxDischargeDepth := 40) only [resetRegs, h0, implies_true, Kept.refl, kept_mk, kept_regsFilter]

/-! ### ChainMsg.lean -/

theorem keep_chInc {a0 s : State} (h0 : Kept a0 s) (r : Nat → Loc) (ch n : Nat) : Kept a0 (chInc r ch n s) := by
  unfold chInc; split <;> simp (maxDischargeDepth := 40) only [h0, implies_true, Kept.refl, kept_mk, kept_regsFilter, keep_State_inc]

theorem keep_sendMsg {a0 s : State} (h0 : Kept a0 s) (ch : Nat) (m : TxMsg) : Kept a0 (sendMsg ch m s) := by
  have hk := h0
  unfold sendMsg
  repeat' (first
    | (simp (maxDischargeDepth := 40) only [h0, hk, implies_true, Kept.refl, kept_mk, kept_regsFilter, keep_State_setChain, keep_chInc]; done)
    | (split <;> (try (rename_i heq; have hq := congrArg (fun r => Kept a0 (Prod.snd r)) heq; clear heq; simp (maxDischargeDepth := 40) only [h0, hk, implies_true, Kept.refl, kept_mk, kept_regsFilter, keep_State_setChain, keep_chInc] at hq; first | replace hk := of_eq_true hq.symm | replace hk := hq)))
    | (refine kept_each ?_ ?_)
    | (refine kept_foldl ?_ ?_)
    | (refine kept_foldl2 ?_ ?_)
    | (intro _)
    | (dsimp only))

theorem keep_sendTyped {a0 s : State} (h0 : Kept a0 s) (ch type dst parcel : Nat) (body : List Byte) : Kept a0 (sendTyped ch type dst parcel body s) := by simp (maxDischargeDepth := 40) only [sendTyped, h0, implies_true, Kept.refl, kept_mk, kept_regsFilter, keep_sendMsg]

theorem keep_sendTo {a0 s : State} (h0 : Kept a0 s) (type st parcel : Nat) (body : List Byte) : Kept a0 (sendTo type st parcel body s) := by simp (maxDischargeDepth := 40) only [sendTo, h0, implies_true, Kept.refl, kept_mk, kept_regsFilter, keep_sendTyped]

theorem keep_sendAll {a0 s : State} (h0 : Kept a0 s) (ch type parcel : Nat) (body : List Byte) : Kept a0 (sendAll ch type parcel body s) := by simp (maxDischargeDepth := 40) only [sendAll, h0, implies_true, Kept.refl, kept_mk, kept_regsFilter, keep_sendTyped]

theorem keep_sendUp {a0 s : State} (h0 : Kept a0 s) (type parcel : Nat) (body : List Byte) : Kept a0 (sendUp type parcel body s) := by simp (maxDischargeDepth := 40) only [sendUp, h0, implies_true, Kept.refl, kept_mk, kept_regsFilter, keep_sendTyped]

theorem keep_seqNote {a0 s : State} (h0 : Kept a0 s) (ch : Nat) (c : Cell) : Kept a0 (seqNote ch c s).2 := by
  have hk := h0
  unfold seqNote
  repeat' (first
    | (simp (maxDischargeDepth := 40) only [h0, hk, implies_true, Kept.refl, kept_mk, kept_regsFilter, keep_State_evt, keep_State_inc, keep_State_setChain, keep_chInc]; done)
    | (split <;> (try (rename_i heq; have hq := congrArg (fun r => Kept a0 (Prod.snd r)) heq; clear heq; simp (maxDischargeDepth := 40) only [h0, hk, implies_true, Kept.refl, kept_mk, kept_regsFilter, keep_State_evt, keep_State_inc, keep_State_setChain, keep_chInc] at hq; first | replace hk := of_eq_true hq.symm | replace hk := hq)))
    | (refine kept_each ?_ ?_)
    | (refine kept_foldl ?_ ?_)
    | (refine kept_foldl2 ?_ ?_)
    | (intro _)
    | (dsimp only))

theorem keep_assemble {a0 s : State} (h0 : Kept a0 s) (ch : Nat) (c : Cell) (lostBefore : Bool) : Kept a0 (assemble ch c lostBefore s).2 := by
  have hk := h0
  unfold assemble
  repeat' (first
    | (simp (maxDischargeDepth := 40) only [h0, hk, implies_true, Kept.refl, kept_mk, kept_regsFilter, keep_State_setChain, keep_chInc]; done)
    | (split <;> (try (rename_i heq; have hq := congrArg (fun r => Kept a0 (Prod.snd r)) heq; clear heq; simp (maxDischargeDepth := 40) only [h0, hk, implies_true, Kept.refl, kept_mk, kept_regsFilter, keep_State_setChain, keep_chInc] at hq; first | replace hk := of_eq_true hq.symm | replace hk := hq)))
    | (refine kept_each ?_ ?_)
    | (refine kept_foldl ?_ ?_)
    | (refine kept_foldl2 ?_ ?_)
    | (intro _)
    | (dsimp only))

theorem keep_bulkTake {a0 s : State} (h0 : Kept a0 s) (ch src : Nat) : Kept a0 (bulkTake ch src s).2 := by
  have hk := h0
  unfold bulkTake
  repeat' (first
    | (simp (maxDischargeDepth := 40) only [h0, hk, implies_true, Kept.refl, kept_mk, kept_regsFilter, keep_State_setChain, keep_chInc]; done)
    | (split <;> (try (rename_i heq; have hq := congrArg (fun r => Kept a0 (Prod.snd r)) heq; clear heq; simp (maxDischargeDepth := 40) only [h0, hk, implies_true, Kept.refl, kept_mk, kept_regsFilter, keep_State_setChain, keep_chInc] at hq; first | replace hk := of_eq_true hq.symm | replace hk := hq)))
    | (refine kept_each ?_ ?_)
    | (refine kept_foldl ?_ ?_)
    | (refine kept_foldl2 ?_ ?_)
    | (intro _)
    | (dsimp only))

theorem keep_sendBulkReq {a0 s : State} (h0 : Kept a0 s) (ch dst first count : Nat) : Kept a0 (sendBulkReq ch dst first count s) := by simp (maxDischargeDepth := 40) only [sendBulkReq, h0, implies_true, Kept.refl, kept_mk, kept_regsFilter, keep_State_each, keep_sendTyped]

theorem keep_askGap {a0 s : State} (h0 : Kept a0 s) (ch cyc : Nat) (g : BulkGap) : Kept a0 (askGap ch cyc g s) := by
  unfold askGap; split <;> simp (maxDischargeDepth := 40) only [h0, implies_true, Kept.refl, kept_mk, kept_regsFilter, keep_State_setChain, keep_sendBulkReq]

theorem keep_dropGap {a0 s : State} (h0 : Kept a0 s) (ch : Nat) (g : BulkGap) : Kept a0 (dropGap ch g s) := by simp (maxDischargeDepth := 40) only [dropGap, h0, implies_true, Kept.refl, kept_mk, kept_regsFilter, keep_State_setChain, keep_chInc]

theorem keep_bulkRetry {a0 s : State} (h0 : Kept a0 s) (ch cyc : Nat) : Kept a0 (bulkRetry ch cyc s) := by
  have hk := h0
  unfold bulkRetry
  repeat' (first
    | (simp (maxDischargeDepth := 40) only [h0, hk, implies_true, Kept.refl, kept_mk, kept_regsFilter, keep_State_each, keep_askGap, keep_dropGap]; done)
    | (split <;> (try (rename_i heq; have hq := congrArg (fun r => Kept a0 (Prod.snd r)) heq; clear heq; simp (maxDischargeDepth := 40) only [h0, hk, implies_true, Kept.refl, kept_mk, kept_regsFilter, keep_State_each, keep_askGap, keep_dropGap] at hq; first | replace hk := of_eq_true hq.symm | replace hk := hq)))
    | (refine kept_each ?_ ?_)
    | (refine kept_foldl ?_ ?_)
    | (refine kept_foldl2 ?_ ?_)
    | (intro _)
    | (dsimp only))

theorem keep_bulkCell {a0 s : State} (h0 : Kept a0 s) (ch cyc : Nat) (c : Cell) (chk : SeqCheck) : Kept a0 (bulkCell ch cyc c chk s).2 := by
  unfold bulkCell; split <;> simp (maxDischargeDepth := 40) only [h0, implies_true, Kept.refl, kept_mk, kept_regsFilter, keep_State_setChain, keep_askGap, keep_bulkTake]

theorem keep_bulkResent {a0 s : State} (h0 : Kept a0 s) (ch : Nat) (c : Cell) : Kept a0 (bulkResent ch c s).2 := by
  have hk := h0
  unfold bulkResent
  repeat' (first
    | (simp (maxDischargeDepth := 40) only [h0, hk, implies_true, Kept.refl, kept_mk, kept_regsFilter, keep_State_setChain, keep_bulkTake]; done)
    | (split <;> (try (rename_i heq; have hq := congrArg (fun r => Kept a0 (Prod.snd r)) heq; clear heq; simp (maxDischargeDepth := 40) only [h0, hk, implies_true, Kept.refl, kept_mk, kept_regsFilter, keep_State_setChain, keep_bulkTake] at hq; first | replace hk := of_eq_true hq.symm | replace hk := hq)))
    | (refine kept_each ?_ ?_)
    | (refine kept_foldl ?_ ?_)
    | (refine kept_foldl2 ?_ ?_)
    | (intro _)
    | (dsimp only))

/-! ### Logbook.lean -/

theorem keep_logEvent {a0 s : State} (h0 : Kept a0 s) (kind : Nat) (data : List Byte) : Kept a0 (logEvent kind data s) := by
  have hk := h0
  unfold logEvent
  repeat' (first
    | (simp (maxDischargeDepth := 40) only [h0, hk, implies_true, Kept.refl, kept_mk, kept_regsFilter, keep_State_evt, keep_State_inc]; done)
    | (split <;> (try (rename_i heq; have hq := congrArg (fun r => Kept a0 (Prod.snd r)) heq; clear heq; simp (maxDischargeDepth := 40) only [h0, hk, implies_true, Kept.refl, kept_mk, kept_regsFilter, keep_State_evt, keep_State_inc] at hq; first | replace hk := of_eq_true hq.symm | replace hk := hq)))
    | (refine kept_each ?_ ?_)
    | (refine kept_foldl ?_ ?_)
    | (refine kept_foldl2 ?_ ?_)
    | (intro _)
    | (dsimp only))

theorem keep_rateNote {a0 s : State} (h0 : Kept a0 s) (source : Nat) : Kept a0 (rateNote source s) := by simp (maxDischargeDepth := 40) only [rateNote, h0, implies_true, Kept.refl, kept_mk, kept_regsFilter]

theorem keep_putUnit {a0 s : State} (h0 : Kept a0 s) (u : Nat) (bs : List Byte) : Kept a0 (putUnit u bs s) := by simp (maxDischargeDepth := 40) only [putUnit, h0, implies_true, Kept.refl, kept_mk, kept_regsFilter]

theorem keep_writeUnit {a0 s : State} (h0 : Kept a0 s) (u sect part index : Nat) (body : List Byte) : Kept a0 (writeUnit u sect part index body s) := by simp (maxDischargeDepth := 40) only [writeUnit, h0, implies_true, Kept.refl, kept_mk, kept_regsFilter, keep_putUnit]

theorem keep_logCut {a0 s : State} (h0 : Kept a0 s)  : Kept a0 (logCut s) := by
  have hk := h0
  unfold logCut
  repeat' (first
    | (simp (maxDischargeDepth := 40) only [h0, hk, implies_true, Kept.refl, kept_mk, kept_regsFilter, keep_State_draw, keep_State_each, keep_putUnit]; done)
    | (split <;> (try (rename_i heq; have hq := congrArg (fun r => Kept a0 (Prod.snd r)) heq; clear heq; simp (maxDischargeDepth := 40) only [h0, hk, implies_true, Kept.refl, kept_mk, kept_regsFilter, keep_State_draw, keep_State_each, keep_putUnit] at hq; first | replace hk := of_eq_true hq.symm | replace hk := hq)))
    | (refine kept_each ?_ ?_)
    | (refine kept_foldl ?_ ?_)
    | (refine kept_foldl2 ?_ ?_)
    | (intro _)
    | (dsimp only))

theorem keep_writeIdentity {a0 s : State} (h0 : Kept a0 s)  : Kept a0 (writeIdentity s) := by simp (maxDischargeDepth := 40) only [writeIdentity, h0, implies_true, Kept.refl, kept_mk, kept_regsFilter, keep_writeUnit]

theorem keep_writeEvent {a0 s : State} (h0 : Kept a0 s) (e : LogEvent) : Kept a0 (writeEvent e s) := by
  have hk := h0
  unfold writeEvent
  repeat' (first
    | (simp (maxDischargeDepth := 40) only [h0, hk, implies_true, Kept.refl, kept_mk, kept_regsFilter, keep_State_evt, keep_State_inc, keep_State_putB, keep_State_setF, keep_writeIdentity, keep_writeUnit]; done)
    | (split <;> (try (rename_i heq; have hq := congrArg (fun r => Kept a0 (Prod.snd r)) heq; clear heq; simp (maxDischargeDepth := 40) only [h0, hk, implies_true, Kept.refl, kept_mk, kept_regsFilter, keep_State_evt, keep_State_inc, keep_State_putB, keep_State_setF, keep_writeIdentity, keep_writeUnit] at hq; first | replace hk := of_eq_true hq.symm | replace hk := hq)))
    | (refine kept_each ?_ ?_)
    | (refine kept_foldl ?_ ?_)
    | (refine kept_foldl2 ?_ ?_)
    | (intro _)
    | (dsimp only))

theorem keep_logEventWrite {a0 s : State} (h0 : Kept a0 s)  : Kept a0 (logEventWrite s) := by
  unfold logEventWrite; split <;> simp (maxDischargeDepth := 40) only [h0, implies_true, Kept.refl, kept_mk, kept_regsFilter, keep_writeEvent]

theorem keep_writeHist {a0 s : State} (h0 : Kept a0 s) (h : Nat) (x : LogHist) : Kept a0 (writeHist h x s) := by simp (maxDischargeDepth := 40) only [writeHist, h0, implies_true, Kept.refl, kept_mk, kept_regsFilter, keep_State_each, keep_writeUnit]

theorem keep_writeExt {a0 s : State} (h0 : Kept a0 s) (c : Nat) (x : LogExt) : Kept a0 (writeExt c x s) := by simp (maxDischargeDepth := 40) only [writeExt, h0, implies_true, Kept.refl, kept_mk, kept_regsFilter, keep_writeUnit]

theorem keep_writeAccum {a0 s : State} (h0 : Kept a0 s)  : Kept a0 (writeAccum s) := by simp (maxDischargeDepth := 40) only [writeAccum, h0, implies_true, Kept.refl, kept_mk, kept_regsFilter, keep_State_each, keep_writeExt, keep_writeHist]

theorem keep_extNote {a0 s : State} (h0 : Kept a0 s) (c v : Nat) : Kept a0 (extNote c v s) := by simp (maxDischargeDepth := 40) only [extNote, h0, implies_true, Kept.refl, kept_mk, kept_regsFilter]

theorem keep_lifeTick {a0 s : State} (h0 : Kept a0 s)  : Kept a0 (lifeTick s) := by simp (maxDischargeDepth := 40) only [lifeTick, h0, implies_true, Kept.refl, kept_mk, kept_regsFilter, keep_State_wr, keep_writeAccum, keep_writeIdentity]

theorem keep_loadIdentity {a0 s : State} (h0 : Kept a0 s)  : Kept a0 (loadIdentity s) := by
  have hk := h0
  unfold loadIdentity
  repeat' (first
    | (simp (maxDischargeDepth := 40) only [h0, hk, implies_true, Kept.refl, kept_mk, kept_regsFilter, keep_State_putB, keep_State_setF, keep_State_wr]; done)
    | (split <;> (try (rename_i heq; have hq := congrArg (fun r => Kept a0 (Prod.snd r)) heq; clear heq; simp (maxDischargeDepth := 40) only [h0, hk, implies_true, Kept.refl, kept_mk, kept_regsFilter, keep_State_putB, keep_State_setF, keep_State_wr] at hq; first | replace hk := of_eq_true hq.symm | replace hk := hq)))
    | (refine kept_each ?_ ?_)
    | (refine kept_foldl ?_ ?_)
    | (refine kept_foldl2 ?_ ?_)
    | (intro _)
    | (dsimp only))

theorem keep_logPowerOn {a0 s : State} (h0 : Kept a0 s)  : Kept a0 (logPowerOn s) := by simp (maxDischargeDepth := 40) only [logPowerOn, h0, implies_true, Kept.refl, kept_mk, kept_regsFilter, keep_State_each, keep_State_evt, keep_State_inc, keep_State_wr, keep_loadIdentity, keep_logEvent, keep_putUnit, keep_writeIdentity]

theorem keep_logClear {a0 s : State} (h0 : Kept a0 s) (mask : Nat) : Kept a0 (logClear mask s) := by
  have hk := h0
  unfold logClear
  repeat' (first
    | (simp (maxDischargeDepth := 40) only [h0, hk, implies_true, Kept.refl, kept_mk, kept_regsFilter, keep_State_each, keep_State_putB, keep_State_setF, keep_logEvent, keep_writeEvent, keep_writeExt, keep_writeHist, keep_writeIdentity]; done)
    | (split <;> (try (rename_i heq; have hq := congrArg (fun r => Kept a0 (Prod.snd r)) heq; clear heq; simp (maxDischargeDepth := 40) only [h0, hk, implies_true, Kept.refl, kept_mk, kept_regsFilter, keep_State_each, keep_State_putB, keep_State_setF, keep_logEvent, keep_writeEvent, keep_writeExt, keep_writeHist, keep_writeIdentity] at hq; first | replace hk := of_eq_true hq.symm | replace hk := hq)))
    | (refine kept_each ?_ ?_)
    | (refine kept_foldl ?_ ?_)
    | (refine kept_foldl2 ?_ ?_)
    | (intro _)
    | (dsimp only))

theorem keep_histSet {a0 s : State} (h0 : Kept a0 s) (h w lo : Nat) : Kept a0 (histSet h w lo s) := by simp (maxDischargeDepth := 40) only [histSet, h0, implies_true, Kept.refl, kept_mk, kept_regsFilter, keep_writeHist]

theorem keep_logSend {a0 s : State} (h0 : Kept a0 s) (first n : Nat) : Kept a0 (logSend first n s) := by simp (maxDischargeDepth := 40) only [logSend, h0, implies_true, Kept.refl, kept_mk, kept_regsFilter, keep_State_each, keep_sendUp]

/-! ### Faults.lean -/

theorem keep_State_later {a0 s : State} (h0 : Kept a0 s) (t : Todo) : Kept a0 (State.later t s) := by simp (maxDischargeDepth := 40) only [State.later, h0, implies_true, Kept.refl, kept_mk, kept_regsFilter]

theorem keep_dieStopUpdate {a0 s : State} (h0 : Kept a0 s)  : Kept a0 (dieStopUpdate s) := by
  unfold dieStopUpdate; split <;> simp (maxDischargeDepth := 40) only [h0, implies_true, Kept.refl, kept_mk, kept_regsFilter, keep_State_later]

theorem keep_lineFall {a0 s : State} (h0 : Kept a0 s) (n : Nat) : Kept a0 (lineFall n s) := by simp (maxDischargeDepth := 40) only [lineFall, h0, implies_true, Kept.refl, kept_mk, kept_regsFilter]

theorem keep_dieStopRelease {a0 s : State} (h0 : Kept a0 s)  : Kept a0 (dieStopRelease s) := by
  unfold dieStopRelease; split <;> simp (maxDischargeDepth := 40) only [h0, implies_true, Kept.refl, kept_mk, kept_regsFilter, keep_lineFall]

theorem keep_dieStopAck {a0 s : State} (h0 : Kept a0 s) (level : Bool) : Kept a0 (dieStopAck level s) := by
  unfold dieStopAck; split <;> simp (maxDischargeDepth := 40) only [h0, implies_true, Kept.refl, kept_mk, kept_regsFilter, keep_lineFall]

theorem keep_fltApply {a0 s : State} (h0 : Kept a0 s)  : Kept a0 (fltApply s) := by simp (maxDischargeDepth := 40) only [fltApply, h0, implies_true, Kept.refl, kept_mk, kept_regsFilter, keep_State_putB, keep_State_setF, keep_dieStopUpdate]

theorem keep_setFltState {a0 s : State} (h0 : Kept a0 s) (n st : Nat) : Kept a0 (setFltState n st s) := by simp (maxDischargeDepth := 40) only [setFltState, h0, implies_true, Kept.refl, kept_mk, kept_regsFilter, keep_State_setF]

theorem keep_putStatus {a0 s : State} (h0 : Kept a0 s) (n : Nat) (b : Bool) : Kept a0 (putStatus n b s) := by
  unfold putStatus; split <;> simp (maxDischargeDepth := 40) only [h0, implies_true, Kept.refl, kept_mk, kept_regsFilter, keep_State_putB]

theorem keep_quietRestart {a0 s : State} (h0 : Kept a0 s)  : Kept a0 (quietRestart s) := by simp (maxDischargeDepth := 40) only [quietRestart, h0, implies_true, Kept.refl, kept_mk, kept_regsFilter]

theorem keep_escalate {a0 s : State} (h0 : Kept a0 s) (n : Nat) : Kept a0 (escalate n s) := by
  have hk := h0
  unfold escalate
  repeat' (first
    | (simp (maxDischargeDepth := 40) only [h0, hk, implies_true, Kept.refl, kept_mk, kept_regsFilter, keep_State_evt, keep_State_inc, keep_State_later, keep_State_putB, keep_fltApply, keep_logEvent, keep_quietRestart, keep_rateNote, keep_setFltState]; done)
    | (split <;> (try (rename_i heq; have hq := congrArg (fun r => Kept a0 (Prod.snd r)) heq; clear heq; simp (maxDischargeDepth := 40) only [h0, hk, implies_true, Kept.refl, kept_mk, kept_regsFilter, keep_State_evt, keep_State_inc, keep_State_later, keep_State_putB, keep_fltApply, keep_logEvent, keep_quietRestart, keep_rateNote, keep_setFltState] at hq; first | replace hk := of_eq_true hq.symm | replace hk := hq)))
    | (refine kept_each ?_ ?_)
    | (refine kept_foldl ?_ ?_)
    | (refine kept_foldl2 ?_ ?_)
    | (intro _)
    | (dsimp only))

theorem keep_latchFault {a0 s : State} (h0 : Kept a0 s) (n : Nat) : Kept a0 (latchFault n s) := by simp (maxDischargeDepth := 40) only [latchFault, h0, implies_true, Kept.refl, kept_mk, kept_regsFilter, keep_State_evt, keep_State_inc, keep_putStatus, keep_quietRestart, keep_rateNote]

theorem keep_faultEdge {a0 s : State} (h0 : Kept a0 s) (n : Nat) : Kept a0 (faultEdge n s) := by
  have hk := h0
  unfold faultEdge
  repeat' (first
    | (simp (maxDischargeDepth := 40) only [h0, hk, implies_true, Kept.refl, kept_mk, kept_regsFilter, keep_State_inc, keep_escalate, keep_latchFault, keep_quietRestart, keep_rateNote, keep_setFltState]; done)
    | (split <;> (try (rename_i heq; have hq := congrArg (fun r => Kept a0 (Prod.snd r)) heq; clear heq; simp (maxDischargeDepth := 40) only [h0, hk, implies_true, Kept.refl, kept_mk, kept_regsFilter, keep_State_inc, keep_escalate, keep_latchFault, keep_quietRestart, keep_rateNote, keep_setFltState] at hq; first | replace hk := of_eq_true hq.symm | replace hk := hq)))
    | (refine kept_each ?_ ?_)
    | (refine kept_foldl ?_ ?_)
    | (refine kept_foldl2 ?_ ?_)
    | (intro _)
    | (dsimp only))

theorem keep_crossingDone {a0 s : State} (h0 : Kept a0 s) (n : Nat) : Kept a0 (crossingDone n s) := by simp (maxDischargeDepth := 40) only [crossingDone, h0, implies_true, Kept.refl, kept_mk, kept_regsFilter]

theorem keep_faultLine {a0 s : State} (h0 : Kept a0 s) (n : Nat) (held : Bool) : Kept a0 (faultLine n held s) := by
  have hk := h0
  unfold faultLine
  repeat' (first
    | (simp (maxDischargeDepth := 40) only [h0, hk, implies_true, Kept.refl, kept_mk, kept_regsFilter, keep_crossingDone, keep_faultEdge]; done)
    | (split <;> (try (rename_i heq; have hq := congrArg (fun r => Kept a0 (Prod.snd r)) heq; clear heq; simp (maxDischargeDepth := 40) only [h0, hk, implies_true, Kept.refl, kept_mk, kept_regsFilter, keep_crossingDone, keep_faultEdge] at hq; first | replace hk := of_eq_true hq.symm | replace hk := hq)))
    | (refine kept_each ?_ ?_)
    | (refine kept_foldl ?_ ?_)
    | (refine kept_foldl2 ?_ ?_)
    | (intro _)
    | (dsimp only))

theorem keep_pairInvalid {a0 s : State} (h0 : Kept a0 s) (n : Nat) (lasting : Bool) : Kept a0 (pairInvalid n lasting s) := by
  have hk := h0
  unfold pairInvalid
  repeat' (first
    | (simp (maxDischargeDepth := 40) only [h0, hk, implies_true, Kept.refl, kept_mk, kept_regsFilter, keep_State_evt, keep_State_inc, keep_State_putB, keep_State_wr, keep_escalate, keep_fltApply, keep_latchFault, keep_logEvent, keep_quietRestart]; done)
    | (split <;> (try (rename_i heq; have hq := congrArg (fun r => Kept a0 (Prod.snd r)) heq; clear heq; simp (maxDischargeDepth := 40) only [h0, hk, implies_true, Kept.refl, kept_mk, kept_regsFilter, keep_State_evt, keep_State_inc, keep_State_putB, keep_State_wr, keep_escalate, keep_fltApply, keep_latchFault, keep_logEvent, keep_quietRestart] at hq; first | replace hk := of_eq_true hq.symm | replace hk := hq)))
    | (refine kept_each ?_ ?_)
    | (refine kept_foldl ?_ ?_)
    | (refine kept_foldl2 ?_ ?_)
    | (intro _)
    | (dsimp only))

theorem keep_graceExpiry {a0 s : State} (h0 : Kept a0 s) (n : Nat) : Kept a0 (graceExpiry n s) := by
  unfold graceExpiry; split <;> simp (maxDischargeDepth := 40) only [h0, implies_true, Kept.refl, kept_mk, kept_regsFilter, keep_escalate]

theorem keep_withdraw {a0 s : State} (h0 : Kept a0 s) (n : Nat) : Kept a0 (withdraw n s) := by
  unfold withdraw; split <;> simp (maxDischargeDepth := 40) only [h0, implies_true, Kept.refl, kept_mk, kept_regsFilter, keep_State_putB, keep_State_wr, keep_fltApply, keep_putStatus, keep_setFltState]

theorem keep_quietExpiry {a0 s : State} (h0 : Kept a0 s)  : Kept a0 (quietExpiry s) := by
  unfold quietExpiry; split <;> simp (maxDischargeDepth := 40) only [h0, implies_true, Kept.refl, kept_mk, kept_regsFilter, keep_State_each, keep_State_evt, keep_State_inc, keep_State_putB, keep_logEvent, keep_withdraw]

theorem keep_cdcTimed {a0 s : State} (h0 : Kept a0 s) (x : Nat) : Kept a0 (cdcTimed x s) := by
  have hk := h0
  unfold cdcTimed
  repeat' (first
    | (simp (maxDischargeDepth := 40) only [h0, hk, implies_true, Kept.refl, kept_mk, kept_regsFilter, keep_State_each, keep_State_evt, keep_State_inc, keep_State_wr, keep_faultEdge]; done)
    | (split <;> (try (rename_i heq; have hq := congrArg (fun r => Kept a0 (Prod.snd r)) heq; clear heq; simp (maxDischargeDepth := 40) only [h0, hk, implies_true, Kept.refl, kept_mk, kept_regsFilter, keep_State_each, keep_State_evt, keep_State_inc, keep_State_wr, keep_faultEdge] at hq; first | replace hk := of_eq_true hq.symm | replace hk := hq)))
    | (refine kept_each ?_ ?_)
    | (refine kept_foldl ?_ ?_)
    | (refine kept_foldl2 ?_ ?_)
    | (intro _)
    | (dsimp only))

theorem keep_cdcTimeout {a0 s : State} (h0 : Kept a0 s) (x : Nat) : Kept a0 (cdcTimeout x s) := by
  unfold cdcTimeout; split <;> simp (maxDischargeDepth := 40) only [h0, implies_true, Kept.refl, kept_mk, kept_regsFilter, keep_State_emit, keep_cdcTimed]

theorem keep_memGone {a0 s : State} (h0 : Kept a0 s) (target key : Nat) : Kept a0 (memGone target key s) := by simp (maxDischargeDepth := 40) only [memGone, h0, implies_true, Kept.refl, kept_mk, kept_regsFilter]

theorem keep_memWritten {a0 s : State} (h0 : Kept a0 s) (target key : Nat) : Kept a0 (memWritten target key s) := by
  unfold memWritten
  split
  · exact h0
  · rename_i i _
    have hk : Kept a0 (if i.any then (1#64, s) else s.draw).2 := kept_ite2 h0 (keep_State_draw h0)
    generalize (if i.any then (1#64, s) else s.draw) = r at *
    obtain ⟨v, s1⟩ := r
    dsimp only at hk ⊢
    split
    · exact keep_State_evt (kept_mk hk ..) _ _
    · exact hk

theorem keep_memReadBack {a0 s : State} (h0 : Kept a0 s) (target key : Nat) : Kept a0 (memReadBack target key s) := by
  unfold memReadBack; split <;> simp (maxDischargeDepth := 40) only [h0, implies_true, Kept.refl, kept_mk, kept_regsFilter, keep_faultEdge]

theorem keep_fltPut {a0 s : State} (h0 : Kept a0 s) (off v : Nat) : Kept a0 (fltPut off v s) := by
  unfold fltPut; split <;> simp (maxDischargeDepth := 40) only [h0, implies_true, Kept.refl, kept_mk, kept_regsFilter, keep_State_setF, keep_State_wr]

theorem keep_fltClear {a0 s : State} (h0 : Kept a0 s) (authority mask : Nat) : Kept a0 (fltClear authority mask s).2.2 := by
  have hk := h0
  unfold fltClear
  repeat' (first
    | (simp (maxDischargeDepth := 40) only [h0, hk, implies_true, Kept.refl, kept_mk, kept_regsFilter, keep_State_each, keep_State_putB, keep_withdraw]; done)
    | (split <;> (try (rename_i heq; have hq := congrArg (fun r => Kept a0 (Prod.snd r)) heq; clear heq; simp (maxDischargeDepth := 40) only [h0, hk, implies_true, Kept.refl, kept_mk, kept_regsFilter, keep_State_each, keep_State_putB, keep_withdraw] at hq; first | replace hk := of_eq_true hq.symm | replace hk := hq)))
    | (refine kept_each ?_ ?_)
    | (refine kept_foldl ?_ ?_)
    | (refine kept_foldl2 ?_ ?_)
    | (intro _)
    | (dsimp only))

theorem keep_inject {a0 s : State} (h0 : Kept a0 s) (target bits : Nat) (any : Bool) (slot addr dur : Nat) : Kept a0 (inject target bits any slot addr dur s) := by
  have hk := h0
  unfold inject
  repeat' (first
    | (simp (maxDischargeDepth := 40) only [h0, hk, implies_true, Kept.refl, kept_mk, kept_regsFilter, keep_State_draw, keep_State_evt, keep_State_inc, keep_logEvent]; done)
    | (split <;> (try (rename_i heq; have hq := congrArg (fun r => Kept a0 (Prod.snd r)) heq; clear heq; simp (maxDischargeDepth := 40) only [h0, hk, implies_true, Kept.refl, kept_mk, kept_regsFilter, keep_State_draw, keep_State_evt, keep_State_inc, keep_logEvent] at hq; first | replace hk := of_eq_true hq.symm | replace hk := hq)))
    | (refine kept_each ?_ ?_)
    | (refine kept_foldl ?_ ?_)
    | (refine kept_foldl2 ?_ ?_)
    | (intro _)
    | (dsimp only))

/-! ### Contexts.lean -/

theorem keep_State_setCtx {a0 s : State} (h0 : Kept a0 s) (n : Nat) (c : Ctx) : Kept a0 (State.setCtx s n c) := by simp (maxDischargeDepth := 40) only [State.setCtx, h0, implies_true, Kept.refl, kept_mk, kept_regsFilter]

theorem keep_State_modCtx {a0 s : State} (h0 : Kept a0 s) (n : Nat) (f : Ctx → Ctx) : Kept a0 (State.modCtx s n f) := by simp (maxDischargeDepth := 40) only [State.modCtx, h0, implies_true, Kept.refl, kept_mk, kept_regsFilter]

theorem keep_State_modEpoch {a0 s : State} (h0 : Kept a0 s) (n k : Nat) (f : Epoch → Epoch) : Kept a0 (State.modEpoch s n k f) := by simp (maxDischargeDepth := 40) only [State.modEpoch, h0, implies_true, Kept.refl, kept_mk, kept_regsFilter, keep_State_modCtx]

theorem keep_enterVote {a0 s : State} (h0 : Kept a0 s) (n k key count : Nat) : Kept a0 (enterVote n k key count s) := by
  have hk := h0
  unfold enterVote
  repeat' (first
    | (simp (maxDischargeDepth := 40) only [h0, hk, implies_true, Kept.refl, kept_mk, kept_regsFilter, keep_State_evt, keep_State_inc, keep_State_modEpoch]; done)
    | (split <;> (try (rename_i heq; have hq := congrArg (fun r => Kept a0 (Prod.snd r)) heq; clear heq; simp (maxDischargeDepth := 40) only [h0, hk, implies_true, Kept.refl, kept_mk, kept_regsFilter, keep_State_evt, keep_State_inc, keep_State_modEpoch] at hq; first | replace hk := of_eq_true hq.symm | replace hk := hq)))
    | (refine kept_each ?_ ?_)
    | (refine kept_foldl ?_ ?_)
    | (refine kept_foldl2 ?_ ?_)
    | (intro _)
    | (dsimp only))

theorem keep_raiseVoteOf {a0 s : State} (h0 : Kept a0 s) (residual : Bool) (n k kind suspect count : Nat) : Kept a0 (raiseVoteOf residual n k kind suspect count s).2 := by
  have hk := h0
  unfold raiseVoteOf
  repeat' (first
    | (simp (maxDischargeDepth := 40) only [h0, hk, implies_true, Kept.refl, kept_mk, kept_regsFilter, keep_State_evt, keep_State_inc, keep_State_modEpoch, keep_enterVote]; done)
    | (split <;> (try (rename_i heq; have hq := congrArg (fun r => Kept a0 (Prod.snd r)) heq; clear heq; simp (maxDischargeDepth := 40) only [h0, hk, implies_true, Kept.refl, kept_mk, kept_regsFilter, keep_State_evt, keep_State_inc, keep_State_modEpoch, keep_enterVote] at hq; first | replace hk := of_eq_true hq.symm | replace hk := hq)))
    | (refine kept_each ?_ ?_)
    | (refine kept_foldl ?_ ?_)
    | (refine kept_foldl2 ?_ ?_)
    | (intro _)
    | (dsimp only))

theorem keep_raiseVote {a0 s : State} (h0 : Kept a0 s) (n k kind suspect count : Nat) : Kept a0 (raiseVote n k kind suspect count s).2 := by simp (maxDischargeDepth := 40) only [raiseVote, h0, implies_true, Kept.refl, kept_mk, kept_regsFilter, keep_raiseVoteOf]

theorem keep_ownVoteAll {a0 s : State} (h0 : Kept a0 s) (kind unit count : Nat) : Kept a0 (ownVoteAll kind unit count s) := by
  have hk := h0
  unfold ownVoteAll
  repeat' (first
    | (simp (maxDischargeDepth := 40) only [h0, hk, implies_true, Kept.refl, kept_mk, kept_regsFilter, keep_State_each, keep_raiseVote]; done)
    | (split <;> (try (rename_i heq; have hq := congrArg (fun r => Kept a0 (Prod.snd r)) heq; clear heq; simp (maxDischargeDepth := 40) only [h0, hk, implies_true, Kept.refl, kept_mk, kept_regsFilter, keep_State_each, keep_raiseVote] at hq; first | replace hk := of_eq_true hq.symm | replace hk := hq)))
    | (refine kept_each ?_ ?_)
    | (refine kept_foldl ?_ ?_)
    | (refine kept_foldl2 ?_ ?_)
    | (intro _)
    | (dsimp only))

theorem keep_markCurrent {a0 s : State} (h0 : Kept a0 s) (f : Epoch → Epoch) : Kept a0 (markCurrent f s) := by simp (maxDischargeDepth := 40) only [markCurrent, h0, implies_true, Kept.refl, kept_mk, kept_regsFilter]

/-! ### Berths.lean -/

theorem keep_brtApply {a0 s : State} (h0 : Kept a0 s) (p : Nat) : Kept a0 (brtApply p s) := by
  have hk := h0
  unfold brtApply
  repeat' (first
    | (simp (maxDischargeDepth := 40) only [h0, hk, implies_true, Kept.refl, kept_mk, kept_regsFilter, keep_State_wr]; done)
    | (split <;> (try (rename_i heq; have hq := congrArg (fun r => Kept a0 (Prod.snd r)) heq; clear heq; simp (maxDischargeDepth := 40) only [h0, hk, implies_true, Kept.refl, kept_mk, kept_regsFilter, keep_State_wr] at hq; first | replace hk := of_eq_true hq.symm | replace hk := hq)))
    | (refine kept_each ?_ ?_)
    | (refine kept_foldl ?_ ?_)
    | (refine kept_foldl2 ?_ ?_)
    | (intro _)
    | (dsimp only))

theorem keep_brtTake {a0 s : State} (h0 : Kept a0 s) (p size : Nat) : Kept a0 (brtTake p size s).2 := by
  unfold brtTake; split <;> simp (maxDischargeDepth := 40) only [h0, implies_true, Kept.refl, kept_mk, kept_regsFilter, keep_brtApply]

theorem keep_brtServe {a0 s : State} (h0 : Kept a0 s) (urgent : Bool) (size : Nat) : Kept a0 (brtServe urgent size s).2 := by
  have hk := h0
  unfold brtServe
  repeat' (first
    | (simp (maxDischargeDepth := 40) only [h0, hk, implies_true, Kept.refl, kept_mk, kept_regsFilter, keep_State_evt, keep_State_inc, keep_brtTake]; done)
    | (split <;> (try (rename_i heq; have hq := congrArg (fun r => Kept a0 (Prod.snd r)) heq; clear heq; simp (maxDischargeDepth := 40) only [h0, hk, implies_true, Kept.refl, kept_mk, kept_regsFilter, keep_State_evt, keep_State_inc, keep_brtTake] at hq; first | replace hk := of_eq_true hq.symm | replace hk := hq)))
    | (refine kept_each ?_ ?_)
    | (refine kept_foldl ?_ ?_)
    | (refine kept_foldl2 ?_ ?_)
    | (intro _)
    | (dsimp only))

theorem keep_brtRelease {a0 s : State} (h0 : Kept a0 s) (p n : Nat) : Kept a0 (brtRelease p n s) := by simp (maxDischargeDepth := 40) only [brtRelease, h0, implies_true, Kept.refl, kept_mk, kept_regsFilter, keep_brtApply]

theorem keep_brtServeAll {a0 y2 : State} (h0 : Kept a0 y2) (urgent : Bool) (y0 : List Nat) (y1 : List (Nat × Nat)) : Kept a0 (brtServeAll urgent y0 y1 y2).2.2 := by
  induction y0 generalizing y1 y2 with
  | nil => exact h0
  | cons z zs ih =>
    unfold brtServeAll
    have h := keep_brtServe h0 urgent z
    revert h
    generalize brtServe urgent z y2 = r
    obtain ⟨o, s1⟩ := r
    intro h
    cases o with
    | none => exact h
    | some b => exact ih h _

theorem keep_brtRequest {a0 s : State} (h0 : Kept a0 s) (urgent : Bool) (size : Nat) : Kept a0 (brtRequest urgent size s).2 := by
  unfold brtRequest
  split
  · exact h0
  · have h := keep_brtServeAll h0 urgent (brtParts size) []
    revert h
    generalize brtServeAll urgent (brtParts size) [] s = r
    obtain ⟨g, b, s1⟩ := r
    intro h
    cases b
    · exact h
    · exact kept_each h (fun x t => keep_brtRelease (Kept.refl t) _ _)

theorem keep_brtWritten {a0 s : State} (h0 : Kept a0 s) (bufs : List (Nat × Nat)) : Kept a0 (brtWritten bufs s) := by simp (maxDischargeDepth := 40) only [brtWritten, h0, implies_true, Kept.refl, kept_mk, kept_regsFilter, keep_State_each, keep_memGone, keep_memWritten]

theorem keep_brtCycle {a0 s : State} (h0 : Kept a0 s) (reqs : List BrtReq) (freed : List (Nat × Nat)) : Kept a0 (brtCycle reqs freed s) := by
  have hk := h0
  unfold brtCycle
  repeat' (first
    | (simp (maxDischargeDepth := 40) only [h0, hk, implies_true, Kept.refl, kept_mk, kept_regsFilter, keep_State_each, keep_brtRelease, keep_brtRequest, keep_brtWritten, keep_memReadBack]; done)
    | (split <;> (try (rename_i heq; have hq := congrArg (fun r => Kept a0 (Prod.snd r)) heq; clear heq; simp (maxDischargeDepth := 40) only [h0, hk, implies_true, Kept.refl, kept_mk, kept_regsFilter, keep_State_each, keep_brtRelease, keep_brtRequest, keep_brtWritten, keep_memReadBack] at hq; first | replace hk := of_eq_true hq.symm | replace hk := hq)))
    | (refine kept_each ?_ ?_)
    | (refine kept_foldl ?_ ?_)
    | (refine kept_foldl2 ?_ ?_)
    | (intro _)
    | (dsimp only))

/-! ### LandingCore.lean -/

theorem keep_wrIp {a0 s : State} (h0 : Kept a0 s) (l : Nat → Loc) (v : Nat) : Kept a0 (wrIp l v s) := by simp (maxDischargeDepth := 40) only [wrIp, h0, implies_true, Kept.refl, kept_mk, kept_regsFilter, keep_State_each, keep_State_wr]

theorem keep_putBucket {a0 s : State} (h0 : Kept a0 s) (k milli : Nat) : Kept a0 (putBucket k milli s) := by simp (maxDischargeDepth := 40) only [putBucket, h0, implies_true, Kept.refl, kept_mk, kept_regsFilter]

theorem keep_takeTokens {a0 s : State} (h0 : Kept a0 s) (k n : Nat) : Kept a0 (takeTokens k n s) := by simp (maxDischargeDepth := 40) only [takeTokens, h0, implies_true, Kept.refl, kept_mk, kept_regsFilter, keep_putBucket]

theorem keep_joinFlow {a0 s : State} (h0 : Kept a0 s) (stream cls ip kind : Nat) (items : List (List Byte)) : Kept a0 (joinFlow stream cls ip kind items s) := by simp (maxDischargeDepth := 40) only [joinFlow, h0, implies_true, Kept.refl, kept_mk, kept_regsFilter]

theorem keep_sendLanding {a0 s : State} (h0 : Kept a0 s) (a : LndAddr) (m : TxMsg) : Kept a0 (sendLanding a m s) := by simp (maxDischargeDepth := 40) only [sendLanding, h0, implies_true, Kept.refl, kept_mk, kept_regsFilter, keep_State_each, keep_joinFlow]

theorem keep_sendTray {a0 s : State} (h0 : Kept a0 s) (type st parcel epoch : Nat) (degraded : Bool) (body : List Byte) : Kept a0 (sendTray type st parcel epoch degraded body s) := by
  unfold sendTray; split <;> simp (maxDischargeDepth := 40) only [h0, implies_true, Kept.refl, kept_mk, kept_regsFilter, keep_sendLanding]

theorem keep_sendSink {a0 s : State} (h0 : Kept a0 s) (rec : List Byte) : Kept a0 (sendSink rec s) := by simp (maxDischargeDepth := 40) only [sendSink, h0, implies_true, Kept.refl, kept_mk, kept_regsFilter, keep_joinFlow]

theorem keep_flushLanding {a0 s : State} (h0 : Kept a0 s)  : Kept a0 (flushLanding s) := by
  have hk := h0
  unfold flushLanding
  repeat' (first
    | (simp (maxDischargeDepth := 40) only [h0, hk, implies_true, Kept.refl, kept_mk, kept_regsFilter, keep_State_each, keep_State_setChain, keep_sendLanding]; done)
    | (split <;> (try (rename_i heq; have hq := congrArg (fun r => Kept a0 (Prod.snd r)) heq; clear heq; simp (maxDischargeDepth := 40) only [h0, hk, implies_true, Kept.refl, kept_mk, kept_regsFilter, keep_State_each, keep_State_setChain, keep_sendLanding] at hq; first | replace hk := of_eq_true hq.symm | replace hk := hq)))
    | (refine kept_each ?_ ?_)
    | (refine kept_foldl ?_ ?_)
    | (refine kept_foldl2 ?_ ?_)
    | (intro _)
    | (dsimp only))

/-! ### DatumCore.lean -/

theorem keep_pulseFall {a0 s : State} (h0 : Kept a0 s) (low : Nat → Nat → Bool) : Kept a0 (pulseFall low s) := h0.trans ⟨rfl, rfl, id, id, id, Nat.le_refl _, List.prefix_append _ _⟩

theorem keep_clockEdge {a0 s : State} (h0 : Kept a0 s)  : Kept a0 (clockEdge s) := by simp (maxDischargeDepth := 40) only [clockEdge, h0, implies_true, Kept.refl, kept_mk, kept_regsFilter, keep_pulseFall]

theorem keep_timeMark {a0 s : State} (h0 : Kept a0 s)  : Kept a0 (timeMark s) := by
  unfold timeMark; split <;> simp (maxDischargeDepth := 40) only [h0, implies_true, Kept.refl, kept_mk, kept_regsFilter, keep_State_later]

theorem keep_pulseHold {a0 s : State} (h0 : Kept a0 s)  : Kept a0 (pulseHold s) := by simp (maxDischargeDepth := 40) only [pulseHold, h0, implies_true, Kept.refl, kept_mk, kept_regsFilter, keep_pulseFall]

theorem keep_pulseEdge {a0 s : State} (h0 : Kept a0 s) (n : Nat) : Kept a0 (pulseEdge n s) := by
  have hk := h0
  unfold pulseEdge
  repeat' (first
    | (simp (maxDischargeDepth := 40) only [h0, hk, implies_true, Kept.refl, kept_mk, kept_regsFilter, keep_State_emit]; done)
    | (split <;> (try (rename_i heq; have hq := congrArg (fun r => Kept a0 (Prod.snd r)) heq; clear heq; simp (maxDischargeDepth := 40) only [h0, hk, implies_true, Kept.refl, kept_mk, kept_regsFilter, keep_State_emit] at hq; first | replace hk := of_eq_true hq.symm | replace hk := hq)))
    | (refine kept_each ?_ ?_)
    | (refine kept_foldl ?_ ?_)
    | (refine kept_foldl2 ?_ ?_)
    | (intro _)
    | (dsimp only))

theorem keep_setDatState {a0 s : State} (h0 : Kept a0 s) (n : Nat) : Kept a0 (setDatState n s) := by
  have hk := h0
  unfold setDatState
  repeat' (first
    | (simp (maxDischargeDepth := 40) only [h0, hk, implies_true, Kept.refl, kept_mk, kept_regsFilter, keep_State_evt, keep_State_setF, keep_pulseHold, keep_timeMark]; done)
    | (split <;> (try (rename_i heq; have hq := congrArg (fun r => Kept a0 (Prod.snd r)) heq; clear heq; simp (maxDischargeDepth := 40) only [h0, hk, implies_true, Kept.refl, kept_mk, kept_regsFilter, keep_State_evt, keep_State_setF, keep_pulseHold, keep_timeMark] at hq; first | replace hk := of_eq_true hq.symm | replace hk := hq)))
    | (refine kept_each ?_ ?_)
    | (refine kept_foldl ?_ ?_)
    | (refine kept_foldl2 ?_ ?_)
    | (intro _)
    | (dsimp only))

theorem keep_putServo {a0 s : State} (h0 : Kept a0 s) (i p : Int) : Kept a0 (putServo i p s) := by
  have hk := h0
  unfold putServo
  repeat' (first
    | (simp (maxDischargeDepth := 40) only [h0, hk, implies_true, Kept.refl, kept_mk, kept_regsFilter, keep_State_evt, keep_State_wr]; done)
    | (split <;> (try (rename_i heq; have hq := congrArg (fun r => Kept a0 (Prod.snd r)) heq; clear heq; simp (maxDischargeDepth := 40) only [h0, hk, implies_true, Kept.refl, kept_mk, kept_regsFilter, keep_State_evt, keep_State_wr] at hq; first | replace hk := of_eq_true hq.symm | replace hk := hq)))
    | (refine kept_each ?_ ?_)
    | (refine kept_foldl ?_ ?_)
    | (refine kept_foldl2 ?_ ?_)
    | (intro _)
    | (dsimp only))

theorem keep_dropProp {a0 s : State} (h0 : Kept a0 s)  : Kept a0 (dropProp s) := by simp (maxDischargeDepth := 40) only [dropProp, h0, implies_true, Kept.refl, kept_mk, kept_regsFilter, keep_putServo]

theorem keep_servoStep {a0 s : State} (h0 : Kept a0 s) (o : Int) : Kept a0 (servoStep o s) := by simp (maxDischargeDepth := 40) only [servoStep, h0, implies_true, Kept.refl, kept_mk, kept_regsFilter, keep_putServo]

theorem keep_clockJump {a0 s : State} (h0 : Kept a0 s) (o : Int) : Kept a0 (clockJump o s) := by simp (maxDischargeDepth := 40) only [clockJump, h0, implies_true, Kept.refl, kept_mk, kept_regsFilter, keep_State_evt, keep_State_inc, keep_State_later, keep_rateNote]

theorem keep_measureAcquire {a0 s : State} (h0 : Kept a0 s) (o : Int) : Kept a0 (measureAcquire o s) := by
  have hk := h0
  unfold measureAcquire
  repeat' (first
    | (simp (maxDischargeDepth := 40) only [h0, hk, implies_true, Kept.refl, kept_mk, kept_regsFilter, keep_State_putB, keep_clockJump, keep_dropProp, keep_faultEdge, keep_putServo, keep_servoStep, keep_setDatState, keep_timeMark]; done)
    | (split <;> (try (rename_i heq; have hq := congrArg (fun r => Kept a0 (Prod.snd r)) heq; clear heq; simp (maxDischargeDepth := 40) only [h0, hk, implies_true, Kept.refl, kept_mk, kept_regsFilter, keep_State_putB, keep_clockJump, keep_dropProp, keep_faultEdge, keep_putServo, keep_servoStep, keep_setDatState, keep_timeMark] at hq; first | replace hk := of_eq_true hq.symm | replace hk := hq)))
    | (refine kept_each ?_ ?_)
    | (refine kept_foldl ?_ ?_)
    | (refine kept_foldl2 ?_ ?_)
    | (intro _)
    | (dsimp only))

theorem keep_measure {a0 s : State} (h0 : Kept a0 s) (o : Int) : Kept a0 (Machine.measure o s) := by
  have hk := h0
  unfold Machine.measure
  repeat' (first
    | (simp (maxDischargeDepth := 40) only [h0, hk, implies_true, Kept.refl, kept_mk, kept_regsFilter, keep_State_evt, keep_State_wr, keep_measureAcquire, keep_rateNote, keep_servoStep, keep_setDatState]; done)
    | (split <;> (try (rename_i heq; have hq := congrArg (fun r => Kept a0 (Prod.snd r)) heq; clear heq; simp (maxDischargeDepth := 40) only [h0, hk, implies_true, Kept.refl, kept_mk, kept_regsFilter, keep_State_evt, keep_State_wr, keep_measureAcquire, keep_rateNote, keep_servoStep, keep_setDatState] at hq; first | replace hk := of_eq_true hq.symm | replace hk := hq)))
    | (refine kept_each ?_ ?_)
    | (refine kept_foldl ?_ ?_)
    | (refine kept_foldl2 ?_ ?_)
    | (intro _)
    | (dsimp only))

theorem keep_refTimeout {a0 s : State} (h0 : Kept a0 s)  : Kept a0 (refTimeout s) := by
  have hk := h0
  unfold refTimeout
  repeat' (first
    | (simp (maxDischargeDepth := 40) only [h0, hk, implies_true, Kept.refl, kept_mk, kept_regsFilter, keep_dropProp, keep_setDatState]; done)
    | (split <;> (try (rename_i heq; have hq := congrArg (fun r => Kept a0 (Prod.snd r)) heq; clear heq; simp (maxDischargeDepth := 40) only [h0, hk, implies_true, Kept.refl, kept_mk, kept_regsFilter, keep_dropProp, keep_setDatState] at hq; first | replace hk := of_eq_true hq.symm | replace hk := hq)))
    | (refine kept_each ?_ ?_)
    | (refine kept_foldl ?_ ?_)
    | (refine kept_foldl2 ?_ ?_)
    | (intro _)
    | (dsimp only))

theorem keep_holdoverExpiry {a0 s : State} (h0 : Kept a0 s)  : Kept a0 (holdoverExpiry s) := by
  unfold holdoverExpiry; split <;> simp (maxDischargeDepth := 40) only [h0, implies_true, Kept.refl, kept_mk, kept_regsFilter, keep_State_evt, keep_faultEdge, keep_setDatState]

theorem keep_refChanged {a0 s : State} (h0 : Kept a0 s)  : Kept a0 (refChanged s) := by
  have hk := h0
  unfold refChanged
  repeat' (first
    | (simp (maxDischargeDepth := 40) only [h0, hk, implies_true, Kept.refl, kept_mk, kept_regsFilter, keep_State_evt, keep_dropProp, keep_setDatState]; done)
    | (split <;> (try (rename_i heq; have hq := congrArg (fun r => Kept a0 (Prod.snd r)) heq; clear heq; simp (maxDischargeDepth := 40) only [h0, hk, implies_true, Kept.refl, kept_mk, kept_regsFilter, keep_State_evt, keep_dropProp, keep_setDatState] at hq; first | replace hk := of_eq_true hq.symm | replace hk := hq)))
    | (refine kept_each ?_ ?_)
    | (refine kept_foldl ?_ ?_)
    | (refine kept_foldl2 ?_ ?_)
    | (intro _)
    | (dsimp only))

theorem keep_becomeGm {a0 s : State} (h0 : Kept a0 s)  : Kept a0 (becomeGm s) := by simp (maxDischargeDepth := 40) only [becomeGm, h0, implies_true, Kept.refl, kept_mk, kept_regsFilter, keep_State_putB, keep_setDatState]

theorem keep_roleSettled {a0 s : State} (h0 : Kept a0 s) (gmBefore refOrEnChanged : Bool) : Kept a0 (roleSettled gmBefore refOrEnChanged s) := by
  have hk := h0
  unfold roleSettled
  repeat' (first
    | (simp (maxDischargeDepth := 40) only [h0, hk, implies_true, Kept.refl, kept_mk, kept_regsFilter, keep_becomeGm, keep_refChanged]; done)
    | (split <;> (try (rename_i heq; have hq := congrArg (fun r => Kept a0 (Prod.snd r)) heq; clear heq; simp (maxDischargeDepth := 40) only [h0, hk, implies_true, Kept.refl, kept_mk, kept_regsFilter, keep_becomeGm, keep_refChanged] at hq; first | replace hk := of_eq_true hq.symm | replace hk := hq)))
    | (refine kept_each ?_ ?_)
    | (refine kept_foldl ?_ ?_)
    | (refine kept_foldl2 ?_ ?_)
    | (intro _)
    | (dsimp only))

theorem keep_stopFire {a0 s : State} (h0 : Kept a0 s) (m : Nat) : Kept a0 (stopFire m s) := by
  unfold stopFire; split <;> simp (maxDischargeDepth := 40) only [h0, implies_true, Kept.refl, kept_mk, kept_regsFilter, keep_State_evt, keep_State_putB, keep_dieStopUpdate]

/-! ### LineCode.lean -/

theorem keep_setLocked {a0 s : State} (h0 : Kept a0 s) (ch : Nat) (sd : Side) (m : Nat) : Kept a0 (setLocked ch sd m s) := by simp (maxDischargeDepth := 40) only [setLocked, h0, implies_true, Kept.refl, kept_mk, kept_regsFilter, keep_State_setChain]

theorem keep_badHeaders {a0 s : State} (h0 : Kept a0 s) (ch n : Nat) : Kept a0 (badHeaders ch n s) := by simp (maxDischargeDepth := 40) only [badHeaders, h0, implies_true, Kept.refl, kept_mk, kept_regsFilter, keep_State_setChain]

theorem keep_putLine {a0 s : State} (h0 : Kept a0 s) (ch : Nat) (sd : Side) (bs : List (Nat × Block)) : Kept a0 (putLine ch sd bs s) := by simp (maxDischargeDepth := 40) only [putLine, h0, implies_true, Kept.refl, kept_mk, kept_regsFilter, keep_State_setChain]

theorem keep_State_drive {a0 s : State} (h0 : Kept a0 s) (ch : Nat) (sd : Side) (o : Out) : Kept a0 (State.drive s ch sd o) := by simp (maxDischargeDepth := 40) only [State.drive, h0, implies_true, Kept.refl, kept_mk, kept_regsFilter, keep_State_emit, keep_putLine]

theorem keep_laneSent {a0 s : State} (h0 : Kept a0 s) (ch : Nat) (sd : Side) : Kept a0 (laneSent ch sd s) := by
  unfold laneSent; split <;> simp (maxDischargeDepth := 40) only [h0, implies_true, Kept.refl, kept_mk, kept_regsFilter, keep_State_setChain]

/-! ### ChainLink.lean -/

theorem keep_setMode {a0 s : State} (h0 : Kept a0 s) (ch m : Nat) : Kept a0 (setMode ch m s) := by
  unfold setMode; split <;> simp (maxDischargeDepth := 40) only [h0, implies_true, Kept.refl, kept_mk, kept_regsFilter, keep_State_evt, keep_State_setF]

theorem keep_setModeAt {a0 s : State} (h0 : Kept a0 s) (ch cyc m : Nat) : Kept a0 (setModeAt ch cyc m s) := by
  unfold setModeAt; split <;> simp (maxDischargeDepth := 40) only [h0, implies_true, Kept.refl, kept_mk, kept_regsFilter, keep_State_setChain, keep_setMode]

theorem keep_listenLock {a0 s : State} (h0 : Kept a0 s) (ch : Nat) : Kept a0 (listenLock ch s) := by simp (maxDischargeDepth := 40) only [listenLock, h0, implies_true, Kept.refl, kept_mk, kept_regsFilter, keep_State_putB]

theorem keep_setRx {a0 s : State} (h0 : Kept a0 s) (ch : Nat) (sd : Side) (n : Nat) : Kept a0 (setRx ch sd n s) := by simp (maxDischargeDepth := 40) only [setRx, h0, implies_true, Kept.refl, kept_mk, kept_regsFilter, keep_State_setF, keep_listenLock]

theorem keep_noteLink {a0 s : State} (h0 : Kept a0 s) (ch pos : Nat) (sd : Side) (kind : Nat) : Kept a0 (noteLink ch pos sd kind s) := by simp (maxDischargeDepth := 40) only [noteLink, h0, implies_true, Kept.refl, kept_mk, kept_regsFilter, keep_State_setChain, keep_sendAll]

theorem keep_clearLink {a0 s : State} (h0 : Kept a0 s) (ch : Nat) (jd : Nat × Dir) (kind : Nat) : Kept a0 (clearLink ch jd kind s) := by
  have hk := h0
  unfold clearLink
  repeat' (first
    | (simp (maxDischargeDepth := 40) only [h0, hk, implies_true, Kept.refl, kept_mk, kept_regsFilter, keep_State_setChain, keep_sendAll]; done)
    | (split <;> (try (rename_i heq; have hq := congrArg (fun r => Kept a0 (Prod.snd r)) heq; clear heq; simp (maxDischargeDepth := 40) only [h0, hk, implies_true, Kept.refl, kept_mk, kept_regsFilter, keep_State_setChain, keep_sendAll] at hq; first | replace hk := of_eq_true hq.symm | replace hk := hq)))
    | (refine kept_each ?_ ?_)
    | (refine kept_foldl ?_ ?_)
    | (refine kept_foldl2 ?_ ?_)
    | (intro _)
    | (dsimp only))

theorem keep_linkAlarm {a0 s : State} (h0 : Kept a0 s) (ch : Nat) (sd : Side) (mask kind : Nat) : Kept a0 (linkAlarm ch sd mask kind s) := by
  have hk := h0
  unfold linkAlarm
  repeat' (first
    | (simp (maxDischargeDepth := 40) only [h0, hk, implies_true, Kept.refl, kept_mk, kept_regsFilter, keep_noteLink, keep_sendUp]; done)
    | (split <;> (try (rename_i heq; have hq := congrArg (fun r => Kept a0 (Prod.snd r)) heq; clear heq; simp (maxDischargeDepth := 40) only [h0, hk, implies_true, Kept.refl, kept_mk, kept_regsFilter, keep_noteLink, keep_sendUp] at hq; first | replace hk := of_eq_true hq.symm | replace hk := hq)))
    | (refine kept_each ?_ ?_)
    | (refine kept_foldl ?_ ?_)
    | (refine kept_foldl2 ?_ ?_)
    | (intro _)
    | (dsimp only))

theorem keep_queueRow {a0 s : State} (h0 : Kept a0 s) (ch : Nat) (r : RowDue) : Kept a0 (queueRow ch r s) := by
  unfold queueRow; split <;> simp (maxDischargeDepth := 40) only [h0, implies_true, Kept.refl, kept_mk, kept_regsFilter, keep_State_setChain]

theorem keep_fenceLanes {a0 s : State} (h0 : Kept a0 s) (ch : Nat) (sd : Side) (mask : Nat) : Kept a0 (fenceLanes ch sd mask s) := by
  unfold fenceLanes; split <;> simp (maxDischargeDepth := 40) only [h0, implies_true, Kept.refl, kept_mk, kept_regsFilter, keep_State_evt, keep_State_setF, keep_faultEdge, keep_linkAlarm, keep_queueRow, keep_rateNote]

theorem keep_downEffects {a0 s : State} (h0 : Kept a0 s) (ch : Nat) (sd : Side) : Kept a0 (downEffects ch sd s) := by simp (maxDischargeDepth := 40) only [downEffects, h0, implies_true, Kept.refl, kept_mk, kept_regsFilter, keep_State_evt, keep_faultEdge, keep_linkAlarm]

theorem keep_goDown {a0 s : State} (h0 : Kept a0 s) (ch : Nat) (sd : Side) : Kept a0 (goDown ch sd s) := by
  unfold goDown; split <;> simp (maxDischargeDepth := 40) only [h0, implies_true, Kept.refl, kept_mk, kept_regsFilter, keep_downEffects, keep_rateNote, keep_setRx]

theorem keep_backDown {a0 s : State} (h0 : Kept a0 s) (ch : Nat) (sd : Side) : Kept a0 (backDown ch sd s) := by
  unfold backDown; split <;> simp (maxDischargeDepth := 40) only [h0, implies_true, Kept.refl, kept_mk, kept_regsFilter, keep_State_evt, keep_rateNote, keep_setRx]

theorem keep_blockLockGain {a0 s : State} (h0 : Kept a0 s) (ch : Nat) (sd : Side) (lanes : Nat) : Kept a0 (blockLockGain ch sd lanes s) := by
  have hk := h0
  unfold blockLockGain
  repeat' (first
    | (simp (maxDischargeDepth := 40) only [h0, hk, implies_true, Kept.refl, kept_mk, kept_regsFilter, keep_setLocked, keep_setRx]; done)
    | (split <;> (try (rename_i heq; have hq := congrArg (fun r => Kept a0 (Prod.snd r)) heq; clear heq; simp (maxDischargeDepth := 40) only [h0, hk, implies_true, Kept.refl, kept_mk, kept_regsFilter, keep_setLocked, keep_setRx] at hq; first | replace hk := of_eq_true hq.symm | replace hk := hq)))
    | (refine kept_each ?_ ?_)
    | (refine kept_foldl ?_ ?_)
    | (refine kept_foldl2 ?_ ?_)
    | (intro _)
    | (dsimp only))

theorem keep_alignmentLock {a0 s : State} (h0 : Kept a0 s) (ch : Nat) (sd : Side) : Kept a0 (alignmentLock ch sd s) := by
  have hk := h0
  unfold alignmentLock
  repeat' (first
    | (simp (maxDischargeDepth := 40) only [h0, hk, implies_true, Kept.refl, kept_mk, kept_regsFilter, keep_State_putB, keep_State_setChain, keep_backDown, keep_clearLink, keep_fenceLanes, keep_setRx]; done)
    | (split <;> (try (rename_i heq; have hq := congrArg (fun r => Kept a0 (Prod.snd r)) heq; clear heq; simp (maxDischargeDepth := 40) only [h0, hk, implies_true, Kept.refl, kept_mk, kept_regsFilter, keep_State_putB, keep_State_setChain, keep_backDown, keep_clearLink, keep_fenceLanes, keep_setRx] at hq; first | replace hk := of_eq_true hq.symm | replace hk := hq)))
    | (refine kept_each ?_ ?_)
    | (refine kept_foldl ?_ ?_)
    | (refine kept_foldl2 ?_ ?_)
    | (intro _)
    | (dsimp only))

theorem keep_lockingTimeout {a0 s : State} (h0 : Kept a0 s) (ch : Nat) (sd : Side) : Kept a0 (lockingTimeout ch sd s) := by
  unfold lockingTimeout; split <;> simp (maxDischargeDepth := 40) only [h0, implies_true, Kept.refl, kept_mk, kept_regsFilter, keep_backDown]

theorem keep_blockLockLoss {a0 s0 : State} (h0 : Kept a0 s0) (ch : Nat) (sd : Side) (lane : Nat) : Kept a0 (blockLockLoss ch sd lane s0) := by
  have hk := h0
  unfold blockLockLoss
  repeat' (first
    | (simp (maxDischargeDepth := 40) only [h0, hk, implies_true, Kept.refl, kept_mk, kept_regsFilter, keep_backDown, keep_badHeaders, keep_fenceLanes, keep_goDown, keep_setLocked]; done)
    | (split <;> (try (rename_i heq; have hq := congrArg (fun r => Kept a0 (Prod.snd r)) heq; clear heq; simp (maxDischargeDepth := 40) only [h0, hk, implies_true, Kept.refl, kept_mk, kept_regsFilter, keep_backDown, keep_badHeaders, keep_fenceLanes, keep_goDown, keep_setLocked] at hq; first | replace hk := of_eq_true hq.symm | replace hk := hq)))
    | (refine kept_each ?_ ?_)
    | (refine kept_foldl ?_ ?_)
    | (refine kept_foldl2 ?_ ?_)
    | (intro _)
    | (dsimp only))

theorem keep_alignmentLoss {a0 s : State} (h0 : Kept a0 s) (ch : Nat) (sd : Side) : Kept a0 (alignmentLoss ch sd s) := by
  unfold alignmentLoss; split <;> simp (maxDischargeDepth := 40) only [h0, implies_true, Kept.refl, kept_mk, kept_regsFilter, keep_goDown]

theorem keep_laneRequest {a0 s : State} (h0 : Kept a0 s) (ch : Nat) (sd : Side) (blocks : List Block) : Kept a0 (laneRequest ch sd blocks s) := by
  unfold laneRequest; split <;> simp (maxDischargeDepth := 40) only [h0, implies_true, Kept.refl, kept_mk, kept_regsFilter, keep_State_setChain]

theorem keep_txLanes {a0 s : State} (h0 : Kept a0 s) (ch : Nat) (x : Side × Nat × Bool) : Kept a0 (txLanes ch x s) := by
  have hk := h0
  unfold txLanes
  repeat' (first
    | (simp (maxDischargeDepth := 40) only [h0, hk, implies_true, Kept.refl, kept_mk, kept_regsFilter, keep_State_setChain, keep_State_setF, keep_clearLink]; done)
    | (split <;> (try (rename_i heq; have hq := congrArg (fun r => Kept a0 (Prod.snd r)) heq; clear heq; simp (maxDischargeDepth := 40) only [h0, hk, implies_true, Kept.refl, kept_mk, kept_regsFilter, keep_State_setChain, keep_State_setF, keep_clearLink] at hq; first | replace hk := of_eq_true hq.symm | replace hk := hq)))
    | (refine kept_each ?_ ?_)
    | (refine kept_foldl ?_ ?_)
    | (refine kept_foldl2 ?_ ?_)
    | (intro _)
    | (dsimp only))

theorem keep_setLinkDelay {a0 s : State} (h0 : Kept a0 s) (ch : Nat) (sd : Side) (d : Nat) : Kept a0 (setLinkDelay ch sd d s) := by
  have hk := h0
  unfold setLinkDelay
  repeat' (first
    | (simp (maxDischargeDepth := 40) only [h0, hk, implies_true, Kept.refl, kept_mk, kept_regsFilter, keep_State_wr]; done)
    | (split <;> (try (rename_i heq; have hq := congrArg (fun r => Kept a0 (Prod.snd r)) heq; clear heq; simp (maxDischargeDepth := 40) only [h0, hk, implies_true, Kept.refl, kept_mk, kept_regsFilter, keep_State_wr] at hq; first | replace hk := of_eq_true hq.symm | replace hk := hq)))
    | (refine kept_each ?_ ?_)
    | (refine kept_foldl ?_ ?_)
    | (refine kept_foldl2 ?_ ?_)
    | (intro _)
    | (dsimp only))

theorem keep_ldRequest {a0 s : State} (h0 : Kept a0 s) (ch : Nat) (sd : Side) (tx : Nat) : Kept a0 (ldRequest ch sd tx s) := by
  unfold ldRequest; split <;> simp (maxDischargeDepth := 40) only [h0, implies_true, Kept.refl, kept_mk, kept_regsFilter, keep_State_setChain, keep_queueRow]

theorem keep_ldSample {a0 s : State} (h0 : Kept a0 s) (ch : Nat) (sd : Side) (sample : Int) : Kept a0 (ldSample ch sd sample s) := by simp (maxDischargeDepth := 40) only [ldSample, h0, implies_true, Kept.refl, kept_mk, kept_regsFilter, keep_State_putB, keep_setLinkDelay]

theorem keep_ldMessage {a0 s : State} (h0 : Kept a0 s) (ch : Nat) (sd : Side) (bs : List Byte) (rx tx : Nat) : Kept a0 (ldMessage ch sd bs rx tx s) := by
  have hk := h0
  unfold ldMessage
  repeat' (first
    | (simp (maxDischargeDepth := 40) only [h0, hk, implies_true, Kept.refl, kept_mk, kept_regsFilter, keep_State_inc, keep_State_setChain, keep_ldSample, keep_queueRow]; done)
    | (split <;> (try (rename_i heq; have hq := congrArg (fun r => Kept a0 (Prod.snd r)) heq; clear heq; simp (maxDischargeDepth := 40) only [h0, hk, implies_true, Kept.refl, kept_mk, kept_regsFilter, keep_State_inc, keep_State_setChain, keep_ldSample, keep_queueRow] at hq; first | replace hk := of_eq_true hq.symm | replace hk := hq)))
    | (refine kept_each ?_ ?_)
    | (refine kept_foldl ?_ ?_)
    | (refine kept_foldl2 ?_ ?_)
    | (intro _)
    | (dsimp only))

theorem keep_ldReceive {a0 s : State} (h0 : Kept a0 s) (ch : Nat) (sd : Side) (blocks : List Block) (rx tx : Nat) : Kept a0 (ldReceive ch sd blocks rx tx s) := by
  unfold ldReceive; split <;> simp (maxDischargeDepth := 40) only [h0, implies_true, Kept.refl, kept_mk, kept_regsFilter, keep_State_inc, keep_ldMessage]

theorem keep_cellOut {a0 s : State} (h0 : Kept a0 s) (ch : Nat) (d : Dir) (cyc i : Nat) (bs : List Byte) : Kept a0 (cellOut ch d cyc i bs s) := by simp (maxDischargeDepth := 40) only [cellOut, h0, implies_true, Kept.refl, kept_mk, kept_regsFilter, keep_State_drive, keep_laneSent]

theorem keep_originate {a0 s : State} (h0 : Kept a0 s) (ch : Nat) (d : Dir) (cyc i cls : Nat) : Kept a0 (originate ch d cyc i cls s) := by
  have hk := h0
  unfold originate
  repeat' (first
    | (simp (maxDischargeDepth := 40) only [h0, hk, implies_true, Kept.refl, kept_mk, kept_regsFilter, keep_State_setChain, keep_cellOut]; done)
    | (split <;> (try (rename_i heq; have hq := congrArg (fun r => Kept a0 (Prod.snd r)) heq; clear heq; simp (maxDischargeDepth := 40) only [h0, hk, implies_true, Kept.refl, kept_mk, kept_regsFilter, keep_State_setChain, keep_cellOut] at hq; first | replace hk := of_eq_true hq.symm | replace hk := hq)))
    | (refine kept_each ?_ ?_)
    | (refine kept_foldl ?_ ?_)
    | (refine kept_foldl2 ?_ ?_)
    | (intro _)
    | (dsimp only))

theorem keep_containerStart {a0 s : State} (h0 : Kept a0 s) (ch : Nat) (d : Dir) (cyc i : Nat) (full : Bool) : Kept a0 (containerStart ch d cyc i full s) := by
  have hk := h0
  unfold containerStart
  repeat' (first
    | (simp (maxDischargeDepth := 40) only [h0, hk, implies_true, Kept.refl, kept_mk, kept_regsFilter, keep_State_inc, keep_originate]; done)
    | (split <;> (try (rename_i heq; have hq := congrArg (fun r => Kept a0 (Prod.snd r)) heq; clear heq; simp (maxDischargeDepth := 40) only [h0, hk, implies_true, Kept.refl, kept_mk, kept_regsFilter, keep_State_inc, keep_originate] at hq; first | replace hk := of_eq_true hq.symm | replace hk := hq)))
    | (refine kept_each ?_ ?_)
    | (refine kept_foldl ?_ ?_)
    | (refine kept_foldl2 ?_ ?_)
    | (intro _)
    | (dsimp only))

theorem keep_containerRelay {a0 s : State} (h0 : Kept a0 s) (ch : Nat) (d : Dir) (cyc i : Nat) (cell : Option (List Byte)) : Kept a0 (containerRelay ch d cyc i cell s) := by
  have hk := h0
  unfold containerRelay
  repeat' (first
    | (simp (maxDischargeDepth := 40) only [h0, hk, implies_true, Kept.refl, kept_mk, kept_regsFilter, keep_State_drive, keep_State_inc, keep_laneSent]; done)
    | (split <;> (try (rename_i heq; have hq := congrArg (fun r => Kept a0 (Prod.snd r)) heq; clear heq; simp (maxDischargeDepth := 40) only [h0, hk, implies_true, Kept.refl, kept_mk, kept_regsFilter, keep_State_drive, keep_State_inc, keep_laneSent] at hq; first | replace hk := of_eq_true hq.symm | replace hk := hq)))
    | (refine kept_each ?_ ?_)
    | (refine kept_foldl ?_ ?_)
    | (refine kept_foldl2 ?_ ?_)
    | (intro _)
    | (dsimp only))

theorem keep_bulkResend {a0 s : State} (h0 : Kept a0 s) (ch : Nat) (payload : List Byte) : Kept a0 (bulkResend ch payload s) := by
  have hk := h0
  unfold bulkResend
  repeat' (first
    | (simp (maxDischargeDepth := 40) only [h0, hk, implies_true, Kept.refl, kept_mk, kept_regsFilter, keep_State_each, keep_State_inc, keep_State_setChain]; done)
    | (split <;> (try (rename_i heq; have hq := congrArg (fun r => Kept a0 (Prod.snd r)) heq; clear heq; simp (maxDischargeDepth := 40) only [h0, hk, implies_true, Kept.refl, kept_mk, kept_regsFilter, keep_State_each, keep_State_inc, keep_State_setChain] at hq; first | replace hk := of_eq_true hq.symm | replace hk := hq)))
    | (refine kept_each ?_ ?_)
    | (refine kept_foldl ?_ ?_)
    | (refine kept_foldl2 ?_ ?_)
    | (intro _)
    | (dsimp only))

theorem keep_bulkExpire {a0 s : State} (h0 : Kept a0 s) (ch seq : Nat) : Kept a0 (bulkExpire ch seq s) := by simp (maxDischargeDepth := 40) only [bulkExpire, h0, implies_true, Kept.refl, kept_mk, kept_regsFilter, keep_State_setChain]

theorem keep_spoilTime {a0 s : State} (h0 : Kept a0 s) (bs : List Byte) : Kept a0 (spoilTime bs s).2 := by
  unfold spoilTime; split <;> simp (maxDischargeDepth := 40) only [h0, implies_true, Kept.refl, kept_mk, kept_regsFilter, keep_State_evt]

theorem keep_sendTimeWord {a0 s : State} (h0 : Kept a0 s) (ch cyc : Nat) (sd : Side) : Kept a0 (sendTimeWord ch cyc sd s) := by simp (maxDischargeDepth := 40) only [sendTimeWord, h0, implies_true, Kept.refl, kept_mk, kept_regsFilter, keep_State_drive, keep_spoilTime]

theorem keep_cycleRows {a0 s : State} (h0 : Kept a0 s) (ch cyc : Nat) : Kept a0 (cycleRows ch cyc s) := by
  unfold cycleRows; split <;> simp (maxDischargeDepth := 40) only [h0, implies_true, Kept.refl, kept_mk, kept_regsFilter, keep_State_drive, keep_sendTimeWord]

theorem keep_delayRows {a0 s : State} (h0 : Kept a0 s) (ch cyc : Nat) (sd : Side) : Kept a0 (delayRows ch cyc sd s) := by
  have hk := h0
  unfold delayRows
  repeat' (first
    | (simp (maxDischargeDepth := 40) only [h0, hk, implies_true, Kept.refl, kept_mk, kept_regsFilter, keep_State_drive, keep_State_each, keep_State_setChain]; done)
    | (split <;> (try (rename_i heq; have hq := congrArg (fun r => Kept a0 (Prod.snd r)) heq; clear heq; simp (maxDischargeDepth := 40) only [h0, hk, implies_true, Kept.refl, kept_mk, kept_regsFilter, keep_State_drive, keep_State_each, keep_State_setChain] at hq; first | replace hk := of_eq_true hq.symm | replace hk := hq)))
    | (refine kept_each ?_ ?_)
    | (refine kept_foldl ?_ ?_)
    | (refine kept_foldl2 ?_ ?_)
    | (intro _)
    | (dsimp only))

theorem keep_seedRows {a0 s : State} (h0 : Kept a0 s) (ch : Nat) : Kept a0 (seedRows ch s) := by
  have hk := h0
  unfold seedRows
  repeat' (first
    | (simp (maxDischargeDepth := 40) only [h0, hk, implies_true, Kept.refl, kept_mk, kept_regsFilter, keep_State_each, keep_State_setChain, keep_ldRequest]; done)
    | (split <;> (try (rename_i heq; have hq := congrArg (fun r => Kept a0 (Prod.snd r)) heq; clear heq; simp (maxDischargeDepth := 40) only [h0, hk, implies_true, Kept.refl, kept_mk, kept_regsFilter, keep_State_each, keep_State_setChain, keep_ldRequest] at hq; first | replace hk := of_eq_true hq.symm | replace hk := hq)))
    | (refine kept_each ?_ ?_)
    | (refine kept_foldl ?_ ?_)
    | (refine kept_foldl2 ?_ ?_)
    | (intro _)
    | (dsimp only))

theorem keep_wordReturn {a0 s : State} (h0 : Kept a0 s) (ch origin : Nat) (bs : List Byte) (rx : Nat) : Kept a0 (wordReturn ch origin bs rx s) := by
  have hk := h0
  unfold wordReturn
  repeat' (first
    | (simp (maxDischargeDepth := 40) only [h0, hk, implies_true, Kept.refl, kept_mk, kept_regsFilter, keep_State_evt, keep_State_putB, keep_State_setChain, keep_State_setF, keep_State_wr]; done)
    | (split <;> (try (rename_i heq; have hq := congrArg (fun r => Kept a0 (Prod.snd r)) heq; clear heq; simp (maxDischargeDepth := 40) only [h0, hk, implies_true, Kept.refl, kept_mk, kept_regsFilter, keep_State_evt, keep_State_putB, keep_State_setChain, keep_State_setF, keep_State_wr] at hq; first | replace hk := of_eq_true hq.symm | replace hk := hq)))
    | (refine kept_each ?_ ?_)
    | (refine kept_foldl ?_ ?_)
    | (refine kept_foldl2 ?_ ?_)
    | (intro _)
    | (dsimp only))

theorem keep_chainCut {a0 s : State} (h0 : Kept a0 s) (ch cyc : Nat) : Kept a0 (chainCut ch cyc s) := by
  have hk := h0
  unfold chainCut
  repeat' (first
    | (simp (maxDischargeDepth := 40) only [h0, hk, implies_true, Kept.refl, kept_mk, kept_regsFilter, keep_State_putB, keep_setModeAt]; done)
    | (split <;> (try (rename_i heq; have hq := congrArg (fun r => Kept a0 (Prod.snd r)) heq; clear heq; simp (maxDischargeDepth := 40) only [h0, hk, implies_true, Kept.refl, kept_mk, kept_regsFilter, keep_State_putB, keep_setModeAt] at hq; first | replace hk := of_eq_true hq.symm | replace hk := hq)))
    | (refine kept_each ?_ ?_)
    | (refine kept_foldl ?_ ?_)
    | (refine kept_foldl2 ?_ ?_)
    | (intro _)
    | (dsimp only))

theorem keep_chainWhole {a0 s : State} (h0 : Kept a0 s) (ch cyc : Nat) : Kept a0 (chainWhole ch cyc s) := by
  have hk := h0
  unfold chainWhole
  repeat' (first
    | (simp (maxDischargeDepth := 40) only [h0, hk, implies_true, Kept.refl, kept_mk, kept_regsFilter, keep_State_putB, keep_setModeAt]; done)
    | (split <;> (try (rename_i heq; have hq := congrArg (fun r => Kept a0 (Prod.snd r)) heq; clear heq; simp (maxDischargeDepth := 40) only [h0, hk, implies_true, Kept.refl, kept_mk, kept_regsFilter, keep_State_putB, keep_setModeAt] at hq; first | replace hk := of_eq_true hq.symm | replace hk := hq)))
    | (refine kept_each ?_ ?_)
    | (refine kept_foldl ?_ ?_)
    | (refine kept_foldl2 ?_ ?_)
    | (intro _)
    | (dsimp only))

theorem keep_judgeCycle {a0 s : State} (h0 : Kept a0 s) (ch cyc : Nat) (aligned : Bool) : Kept a0 (judgeCycle ch cyc aligned s) := by
  unfold judgeCycle; split <;> simp (maxDischargeDepth := 40) only [h0, implies_true, Kept.refl, kept_mk, kept_regsFilter, keep_State_setChain, keep_chainCut, keep_chainWhole]

theorem keep_headless {a0 s : State} (h0 : Kept a0 s)  : Kept a0 (headless s) := by
  unfold headless; split <;> simp (maxDischargeDepth := 40) only [h0, implies_true, Kept.refl, kept_mk, kept_regsFilter, keep_setModeAt]

theorem keep_swapLists {a0 s : State} (h0 : Kept a0 s) (ch cyc : Nat) : Kept a0 (swapLists ch cyc s) := by simp (maxDischargeDepth := 40) only [swapLists, h0, implies_true, Kept.refl, kept_mk, kept_regsFilter, keep_State_each, keep_State_evt, keep_State_putB, keep_State_setChain, keep_State_setF, keep_State_wr]

theorem keep_swapDue {a0 s : State} (h0 : Kept a0 s) (ch cyc : Nat) : Kept a0 (swapDue ch cyc s) := by
  unfold swapDue; split <;> simp (maxDischargeDepth := 40) only [h0, implies_true, Kept.refl, kept_mk, kept_regsFilter, keep_swapLists]

theorem keep_trayFord {a0 s : State} (h0 : Kept a0 s) (ch cyc : Nat) : Kept a0 (trayFord ch cyc s) := by
  have hk := h0
  unfold trayFord
  repeat' (first
    | (simp (maxDischargeDepth := 40) only [h0, hk, implies_true, Kept.refl, kept_mk, kept_regsFilter, keep_State_putB, keep_State_setChain, keep_listenLock, keep_setModeAt]; done)
    | (split <;> (try (rename_i heq; have hq := congrArg (fun r => Kept a0 (Prod.snd r)) heq; clear heq; simp (maxDischargeDepth := 40) only [h0, hk, implies_true, Kept.refl, kept_mk, kept_regsFilter, keep_State_putB, keep_State_setChain, keep_listenLock, keep_setModeAt] at hq; first | replace hk := of_eq_true hq.symm | replace hk := hq)))
    | (refine kept_each ?_ ?_)
    | (refine kept_foldl ?_ ?_)
    | (refine kept_foldl2 ?_ ?_)
    | (intro _)
    | (dsimp only))

theorem keep_spliceOutStart {a0 s : State} (h0 : Kept a0 s) (ch cyc : Nat) : Kept a0 (spliceOutStart ch cyc s) := by
  have hk := h0
  unfold spliceOutStart
  repeat' (first
    | (simp (maxDischargeDepth := 40) only [h0, hk, implies_true, Kept.refl, kept_mk, kept_regsFilter, keep_State_inc, keep_State_setChain]; done)
    | (split <;> (try (rename_i heq; have hq := congrArg (fun r => Kept a0 (Prod.snd r)) heq; clear heq; simp (maxDischargeDepth := 40) only [h0, hk, implies_true, Kept.refl, kept_mk, kept_regsFilter, keep_State_inc, keep_State_setChain] at hq; first | replace hk := of_eq_true hq.symm | replace hk := hq)))
    | (refine kept_each ?_ ?_)
    | (refine kept_foldl ?_ ?_)
    | (refine kept_foldl2 ?_ ?_)
    | (intro _)
    | (dsimp only))

theorem keep_cycleStart {a0 s : State} (h0 : Kept a0 s) (ch cyc : Nat) (aligned : Bool) : Kept a0 (cycleStart ch cyc aligned s) := by
  have hk := h0
  unfold cycleStart
  repeat' (first
    | (simp (maxDischargeDepth := 40) only [h0, hk, implies_true, Kept.refl, kept_mk, kept_regsFilter, keep_State_each, keep_State_setChain, keep_State_wr, keep_cycleRows, keep_delayRows, keep_judgeCycle, keep_seedRows, keep_spliceOutStart, keep_swapDue, keep_trayFord, keep_txLanes]; done)
    | (split <;> (try (rename_i heq; have hq := congrArg (fun r => Kept a0 (Prod.snd r)) heq; clear heq; simp (maxDischargeDepth := 40) only [h0, hk, implies_true, Kept.refl, kept_mk, kept_regsFilter, keep_State_each, keep_State_setChain, keep_State_wr, keep_cycleRows, keep_delayRows, keep_judgeCycle, keep_seedRows, keep_spliceOutStart, keep_swapDue, keep_trayFord, keep_txLanes] at hq; first | replace hk := of_eq_true hq.symm | replace hk := hq)))
    | (refine kept_each ?_ ?_)
    | (refine kept_foldl ?_ ?_)
    | (refine kept_foldl2 ?_ ?_)
    | (intro _)
    | (dsimp only))

/-! ### VerdictQueue.lean -/

theorem keep_writeVerdict {a0 s : State} (h0 : Kept a0 s) (head : List Byte) : Kept a0 (writeVerdict head s) := by
  have hk := h0
  unfold writeVerdict
  repeat' (first
    | (simp (maxDischargeDepth := 40) only [h0, hk, implies_true, Kept.refl, kept_mk, kept_regsFilter, keep_State_evt, keep_State_inc, keep_State_wr]; done)
    | (split <;> (try (rename_i heq; have hq := congrArg (fun r => Kept a0 (Prod.snd r)) heq; clear heq; simp (maxDischargeDepth := 40) only [h0, hk, implies_true, Kept.refl, kept_mk, kept_regsFilter, keep_State_evt, keep_State_inc, keep_State_wr] at hq; first | replace hk := of_eq_true hq.symm | replace hk := hq)))
    | (refine kept_each ?_ ?_)
    | (refine kept_foldl ?_ ?_)
    | (refine kept_foldl2 ?_ ?_)
    | (intro _)
    | (dsimp only))

theorem keep_putAlarm {a0 s : State} (h0 : Kept a0 s) (v : Verdict) : Kept a0 (putAlarm v s) := by
  unfold putAlarm; split <;> simp (maxDischargeDepth := 40) only [h0, implies_true, Kept.refl, kept_mk, kept_regsFilter, keep_sendSink, keep_writeVerdict]

theorem keep_alarmIn {a0 s : State} (h0 : Kept a0 s) (kind station unit rule tEvent value : Nat) : Kept a0 (alarmIn kind station unit rule tEvent value s) := by
  have hk := h0
  unfold alarmIn
  repeat' (first
    | (simp (maxDischargeDepth := 40) only [h0, hk, implies_true, Kept.refl, kept_mk, kept_regsFilter, keep_State_evt, keep_State_inc, keep_putAlarm]; done)
    | (split <;> (try (rename_i heq; have hq := congrArg (fun r => Kept a0 (Prod.snd r)) heq; clear heq; simp (maxDischargeDepth := 40) only [h0, hk, implies_true, Kept.refl, kept_mk, kept_regsFilter, keep_State_evt, keep_State_inc, keep_putAlarm] at hq; first | replace hk := of_eq_true hq.symm | replace hk := hq)))
    | (refine kept_each ?_ ?_)
    | (refine kept_foldl ?_ ?_)
    | (refine kept_foldl2 ?_ ?_)
    | (intro _)
    | (dsimp only))

theorem keep_alarmReceive {a0 s : State} (h0 : Kept a0 s) (src : Nat) (bs : List Byte) : Kept a0 (alarmReceive src bs s) := by
  unfold alarmReceive; split <;> simp (maxDischargeDepth := 40) only [h0, implies_true, Kept.refl, kept_mk, kept_regsFilter, keep_alarmIn]

theorem keep_raiseAlarm {a0 s : State} (h0 : Kept a0 s) (kind rule unit value : Nat) : Kept a0 (raiseAlarm kind rule unit value s) := by
  unfold raiseAlarm; split <;> simp (maxDischargeDepth := 40) only [h0, implies_true, Kept.refl, kept_mk, kept_regsFilter, keep_alarmIn, keep_sendUp]

theorem keep_alarmHoldEnd {a0 s : State} (h0 : Kept a0 s) (k : Nat) : Kept a0 (alarmHoldEnd k s) := by
  have hk := h0
  unfold alarmHoldEnd
  repeat' (first
    | (simp (maxDischargeDepth := 40) only [h0, hk, implies_true, Kept.refl, kept_mk, kept_regsFilter, keep_putAlarm]; done)
    | (split <;> (try (rename_i heq; have hq := congrArg (fun r => Kept a0 (Prod.snd r)) heq; clear heq; simp (maxDischargeDepth := 40) only [h0, hk, implies_true, Kept.refl, kept_mk, kept_regsFilter, keep_putAlarm] at hq; first | replace hk := of_eq_true hq.symm | replace hk := hq)))
    | (refine kept_each ?_ ?_)
    | (refine kept_foldl ?_ ?_)
    | (refine kept_foldl2 ?_ ?_)
    | (intro _)
    | (dsimp only))

theorem keep_sinkVerdict {a0 s : State} (h0 : Kept a0 s) (rec : List Byte) : Kept a0 (sinkVerdict rec s) := by
  unfold sinkVerdict; split <;> simp (maxDischargeDepth := 40) only [h0, implies_true, Kept.refl, kept_mk, kept_regsFilter, keep_writeVerdict]

/-! ### Plumb.lean -/

theorem keep_beginTransition {a0 s : State} (h0 : Kept a0 s) (t : Nat) : Kept a0 (beginTransition t s) := by
  have hk := h0
  unfold beginTransition
  repeat' (first
    | (simp (maxDischargeDepth := 40) only [h0, hk, implies_true, Kept.refl, kept_mk, kept_regsFilter, keep_State_later, keep_State_putB]; done)
    | (split <;> (try (rename_i heq; have hq := congrArg (fun r => Kept a0 (Prod.snd r)) heq; clear heq; simp (maxDischargeDepth := 40) only [h0, hk, implies_true, Kept.refl, kept_mk, kept_regsFilter, keep_State_later, keep_State_putB] at hq; first | replace hk := of_eq_true hq.symm | replace hk := hq)))
    | (refine kept_each ?_ ?_)
    | (refine kept_foldl ?_ ?_)
    | (refine kept_foldl2 ?_ ?_)
    | (intro _)
    | (dsimp only))

theorem keep_powerRequest {a0 s : State} (h0 : Kept a0 s) (t : Nat) : Kept a0 (powerRequest t s) := by
  have hk := h0
  unfold powerRequest
  repeat' (first
    | (simp (maxDischargeDepth := 40) only [h0, hk, implies_true, Kept.refl, kept_mk, kept_regsFilter, keep_State_setF, keep_beginTransition]; done)
    | (split <;> (try (rename_i heq; have hq := congrArg (fun r => Kept a0 (Prod.snd r)) heq; clear heq; simp (maxDischargeDepth := 40) only [h0, hk, implies_true, Kept.refl, kept_mk, kept_regsFilter, keep_State_setF, keep_beginTransition] at hq; first | replace hk := of_eq_true hq.symm | replace hk := hq)))
    | (refine kept_each ?_ ?_)
    | (refine kept_foldl ?_ ?_)
    | (refine kept_foldl2 ?_ ?_)
    | (intro _)
    | (dsimp only))

theorem keep_requestWake {a0 s : State} (h0 : Kept a0 s)  : Kept a0 (requestWake s) := by
  unfold requestWake; split <;> simp (maxDischargeDepth := 40) only [h0, implies_true, Kept.refl, kept_mk, kept_regsFilter, keep_powerRequest]

theorem keep_sampleTick {a0 s : State} (h0 : Kept a0 s) (c : Nat) : Kept a0 (sampleTick c s) := by
  unfold sampleTick; split <;> simp (maxDischargeDepth := 40) only [h0, implies_true, Kept.refl, kept_mk, kept_regsFilter, keep_State_emit]

theorem keep_sampleAnswer {a0 s : State} (h0 : Kept a0 s) (c data : Nat) : Kept a0 (sampleAnswer c data s) := by
  unfold sampleAnswer; split <;> simp (maxDischargeDepth := 40) only [h0, implies_true, Kept.refl, kept_mk, kept_regsFilter, keep_State_wr]

theorem keep_sampleTimeout {a0 s : State} (h0 : Kept a0 s) (c : Nat) : Kept a0 (sampleTimeout c s) := by simp (maxDischargeDepth := 40) only [sampleTimeout, h0, implies_true, Kept.refl, kept_mk, kept_regsFilter]

theorem keep_plumbTrim {a0 s : State} (h0 : Kept a0 s) (cycles : Nat) : Kept a0 (plumbTrim cycles s) := by
  unfold plumbTrim; split <;> simp (maxDischargeDepth := 40) only [h0, implies_true, Kept.refl, kept_mk, kept_regsFilter]

theorem keep_ruleAlarm {a0 s : State} (h0 : Kept a0 s) (r : Nat) : Kept a0 (ruleAlarm r s) := by simp (maxDischargeDepth := 40) only [ruleAlarm, h0, implies_true, Kept.refl, kept_mk, kept_regsFilter, keep_raiseAlarm]

theorem keep_ruleFire {a0 s : State} (h0 : Kept a0 s) (r : Nat) : Kept a0 (ruleFire r s) := by
  have hk := h0
  unfold ruleFire
  repeat' (first
    | (simp (maxDischargeDepth := 40) only [h0, hk, implies_true, Kept.refl, kept_mk, kept_regsFilter, keep_State_evt, keep_State_inc, keep_State_setF, keep_dieStopUpdate, keep_faultEdge, keep_logEvent, keep_requestWake, keep_ruleAlarm]; done)
    | (split <;> (try (rename_i heq; have hq := congrArg (fun r => Kept a0 (Prod.snd r)) heq; clear heq; simp (maxDischargeDepth := 40) only [h0, hk, implies_true, Kept.refl, kept_mk, kept_regsFilter, keep_State_evt, keep_State_inc, keep_State_setF, keep_dieStopUpdate, keep_faultEdge, keep_logEvent, keep_requestWake, keep_ruleAlarm] at hq; first | replace hk := of_eq_true hq.symm | replace hk := hq)))
    | (refine kept_each ?_ ?_)
    | (refine kept_foldl ?_ ?_)
    | (refine kept_foldl2 ?_ ?_)
    | (intro _)
    | (dsimp only))

theorem keep_ruleStep {a0 s : State} (h0 : Kept a0 s) (r : Nat) : Kept a0 (ruleStep r s) := by
  unfold ruleStep
  split
  · exact h0
  · dsimp only
    have h1 : Kept a0 ((s.ruleConds r).foldl (fun t i => t.putB (PLM_RULE_STATE r) (16 + i) (s.condLatch r i)) s) :=
      kept_foldl h0 (fun t i => keep_State_putB (Kept.refl t) _ _ _)
    generalize (s.ruleConds r).foldl (fun t i => t.putB (PLM_RULE_STATE r) (16 + i) (s.condLatch r i)) s = s1 at *
    have h2 : ∀ l a b c, Kept a0 (s1.setF l a b c) := fun l a b c => keep_State_setF h1 l a b c
    have h3 : ∀ l a b c l' a' b' c', Kept a0 ((s1.setF l a b c).setF l' a' b' c') := fun l a b c l' a' b' c' => keep_State_setF (h2 l a b c) _ _ _ _
    split
    · split
      · exact kept_ite (keep_ruleAlarm h1 r) (kept_mk h1 ..)
      · exact kept_ite (keep_ruleFire h1 r) (h3 ..)
    · exact h3 ..

theorem keep_plmPut {a0 s : State} (h0 : Kept a0 s) (off v : Nat) : Kept a0 (plmPut off v s) := by
  have hk := h0
  unfold plmPut
  repeat' (first
    | (simp (maxDischargeDepth := 40) only [h0, hk, implies_true, Kept.refl, kept_mk, kept_regsFilter, keep_State_setF, keep_State_wr]; done)
    | (split <;> (try (rename_i heq; have hq := congrArg (fun r => Kept a0 (Prod.snd r)) heq; clear heq; simp (maxDischargeDepth := 40) only [h0, hk, implies_true, Kept.refl, kept_mk, kept_regsFilter, keep_State_setF, keep_State_wr] at hq; first | replace hk := of_eq_true hq.symm | replace hk := hq)))
    | (refine kept_each ?_ ?_)
    | (refine kept_foldl ?_ ?_)
    | (refine kept_foldl2 ?_ ?_)
    | (intro _)
    | (dsimp only))

theorem keep_plmApply {a0 s : State} (h0 : Kept a0 s)  : Kept a0 (plmApply s) := by simp (maxDischargeDepth := 40) only [plmApply, h0, implies_true, Kept.refl, kept_mk, kept_regsFilter, keep_State_each, keep_plmPut]

theorem keep_ruleTick {a0 s0 : State} (h0 : Kept a0 s0)  : Kept a0 (ruleTick s0) := by simp (maxDischargeDepth := 40) only [ruleTick, h0, implies_true, Kept.refl, kept_mk, kept_regsFilter, keep_State_each, keep_extNote, keep_plmApply, keep_ruleStep]

theorem keep_ruleFireDue {a0 s : State} (h0 : Kept a0 s) (r : Nat) : Kept a0 (ruleFireDue r s) := by
  have hk := h0
  unfold ruleFireDue
  repeat' (first
    | (simp (maxDischargeDepth := 40) only [h0, hk, implies_true, Kept.refl, kept_mk, kept_regsFilter, keep_ruleFire]; done)
    | (split <;> (try (rename_i heq; have hq := congrArg (fun r => Kept a0 (Prod.snd r)) heq; clear heq; simp (maxDischargeDepth := 40) only [h0, hk, implies_true, Kept.refl, kept_mk, kept_regsFilter, keep_ruleFire] at hq; first | replace hk := of_eq_true hq.symm | replace hk := hq)))
    | (refine kept_each ?_ ?_)
    | (refine kept_foldl ?_ ?_)
    | (refine kept_foldl2 ?_ ?_)
    | (intro _)
    | (dsimp only))

theorem keep_ruleGapAlarm {a0 s : State} (h0 : Kept a0 s) (r : Nat) : Kept a0 (ruleGapAlarm r s) := by
  unfold ruleGapAlarm; split <;> simp (maxDischargeDepth := 40) only [h0, implies_true, Kept.refl, kept_mk, kept_regsFilter, keep_ruleAlarm]

/-! ### PilotCore.lean -/

theorem keep_computeTag {a0 s : State} (h0 : Kept a0 s) (key body : List Byte) : Kept a0 (computeTag key body s).2 := by
  unfold computeTag; split <;> simp (maxDischargeDepth := 40) only [h0, implies_true, Kept.refl, kept_mk, kept_regsFilter, keep_State_evt]

theorem keep_envSeal {a0 s : State} (h0 : Kept a0 s) (key body : List Byte) : Kept a0 (envSeal key body s).2 := by simp (maxDischargeDepth := 40) only [envSeal, h0, implies_true, Kept.refl, kept_mk, kept_regsFilter, keep_computeTag]

theorem keep_sendEnvelope {a0 s : State} (h0 : Kept a0 s) (via : Via) (reply : Bool) (station : Nat) (bs : List Byte) : Kept a0 (sendEnvelope via reply station bs s) := by
  unfold sendEnvelope; split <;> simp (maxDischargeDepth := 40) only [h0, implies_true, Kept.refl, kept_mk, kept_regsFilter, keep_sendMsg]

theorem keep_State_setAperture {a0 s : State} (h0 : Kept a0 s) (a : Nat) (x : Aperture) : Kept a0 (State.setAperture s a x) := by simp (maxDischargeDepth := 40) only [State.setAperture, h0, implies_true, Kept.refl, kept_mk, kept_regsFilter]

theorem keep_replyAperture {a0 s : State} (h0 : Kept a0 s) (a : Nat) (ws : List Word) : Kept a0 (replyAperture a ws s) := by
  unfold replyAperture; split <;> simp (maxDischargeDepth := 40) only [h0, implies_true, Kept.refl, kept_mk, kept_regsFilter, keep_State_evt, keep_State_setAperture]

theorem keep_replyRemote {a0 s : State} (h0 : Kept a0 s) (keyId origin : Nat) (via : Via) (ws : List Word) : Kept a0 (replyRemote keyId origin via ws s) := by
  unfold replyRemote; split <;> simp (maxDischargeDepth := 40) only [h0, implies_true, Kept.refl, kept_mk, kept_regsFilter, keep_envSeal, keep_sendEnvelope]

theorem keep_remoteDone {a0 s : State} (h0 : Kept a0 s)  : Kept a0 (remoteDone s) := by simp (maxDischargeDepth := 40) only [remoteDone, h0, implies_true, Kept.refl, kept_mk, kept_regsFilter, keep_State_wr]

theorem keep_pilotFree {a0 s : State} (h0 : Kept a0 s)  : Kept a0 (pilotFree s) := by
  unfold pilotFree; split <;> simp (maxDischargeDepth := 40) only [h0, implies_true, Kept.refl, kept_mk, kept_regsFilter, keep_State_later]

theorem keep_sendReply {a0 s : State} (h0 : Kept a0 s) (final single : Bool) (c : Cmd) (opcode status : Nat) (results : List Word) : Kept a0 (sendReply final single c opcode status results s) := by
  have hk := h0
  unfold sendReply
  repeat' (first
    | (simp (maxDischargeDepth := 40) only [h0, hk, implies_true, Kept.refl, kept_mk, kept_regsFilter, keep_remoteDone, keep_replyAperture, keep_replyRemote]; done)
    | (split <;> (try (rename_i heq; have hq := congrArg (fun r => Kept a0 (Prod.snd r)) heq; clear heq; simp (maxDischargeDepth := 40) only [h0, hk, implies_true, Kept.refl, kept_mk, kept_regsFilter, keep_remoteDone, keep_replyAperture, keep_replyRemote] at hq; first | replace hk := of_eq_true hq.symm | replace hk := hq)))
    | (refine kept_each ?_ ?_)
    | (refine kept_foldl ?_ ?_)
    | (refine kept_foldl2 ?_ ?_)
    | (intro _)
    | (dsimp only))

theorem keep_doneEntry {a0 s : State} (h0 : Kept a0 s) (a : Nat) (ws : List Word) : Kept a0 (doneEntry a ws s) := by simp (maxDischargeDepth := 40) only [doneEntry, h0, implies_true, Kept.refl, kept_mk, kept_regsFilter, keep_State_each, keep_State_evt, keep_State_wr]

theorem keep_freeSlot {a0 s : State} (h0 : Kept a0 s)  : Kept a0 (freeSlot s) := by simp (maxDischargeDepth := 40) only [freeSlot, h0, implies_true, Kept.refl, kept_mk, kept_regsFilter, keep_State_wr]

theorem keep_modJob {a0 s : State} (h0 : Kept a0 s) (id : Nat) (f : Job → Job) : Kept a0 (modJob id f s) := by simp (maxDischargeDepth := 40) only [modJob, h0, implies_true, Kept.refl, kept_mk, kept_regsFilter]

theorem keep_dropJob {a0 s : State} (h0 : Kept a0 s) (id : Nat) : Kept a0 (dropJob id s) := by simp (maxDischargeDepth := 40) only [dropJob, h0, implies_true, Kept.refl, kept_mk, kept_regsFilter]

theorem keep_finishJob {a0 s : State} (h0 : Kept a0 s) (id status : Nat) (results : List Word) : Kept a0 (finishJob id status results s) := by simp (maxDischargeDepth := 40) only [finishJob, h0, implies_true, Kept.refl, kept_mk, kept_regsFilter, keep_modJob]

theorem keep_deliverFinal {a0 s : State} (h0 : Kept a0 s) (j : Job) (status : Nat) (results : List Word) : Kept a0 (deliverFinal j status results s) := by
  have hk := h0
  unfold deliverFinal
  repeat' (first
    | (simp (maxDischargeDepth := 40) only [h0, hk, implies_true, Kept.refl, kept_mk, kept_regsFilter, keep_doneEntry, keep_dropJob, keep_freeSlot, keep_pilotFree, keep_sendReply]; done)
    | (split <;> (try (rename_i heq; have hq := congrArg (fun r => Kept a0 (Prod.snd r)) heq; clear heq; simp (maxDischargeDepth := 40) only [h0, hk, implies_true, Kept.refl, kept_mk, kept_regsFilter, keep_doneEntry, keep_dropJob, keep_freeSlot, keep_pilotFree, keep_sendReply] at hq; first | replace hk := of_eq_true hq.symm | replace hk := hq)))
    | (refine kept_each ?_ ?_)
    | (refine kept_foldl ?_ ?_)
    | (refine kept_foldl2 ?_ ?_)
    | (intro _)
    | (dsimp only))

theorem keep_startJob {a0 s : State} (h0 : Kept a0 s) (o : OpInfo) (c : Cmd) (phase : JobPhase) (data : JobData) : Kept a0 (startJob o c phase data s) := by
  have hk := h0
  unfold startJob
  repeat' (first
    | (simp (maxDischargeDepth := 40) only [h0, hk, implies_true, Kept.refl, kept_mk, kept_regsFilter, keep_State_inc, keep_sendReply]; done)
    | (split <;> (try (rename_i heq; have hq := congrArg (fun r => Kept a0 (Prod.snd r)) heq; clear heq; simp (maxDischargeDepth := 40) only [h0, hk, implies_true, Kept.refl, kept_mk, kept_regsFilter, keep_State_inc, keep_sendReply] at hq; first | replace hk := of_eq_true hq.symm | replace hk := hq)))
    | (refine kept_each ?_ ?_)
    | (refine kept_foldl ?_ ?_)
    | (refine kept_foldl2 ?_ ?_)
    | (intro _)
    | (dsimp only))

theorem keep_launchOr {a0 s : State} (h0 : Kept a0 s) (x : Launch) (run : State → State) (hrun : ∀ x0, Kept x0 (run x0)) : Kept a0 (launchOr x run s) := by
  unfold launchOr; split <;> simp (maxDischargeDepth := 40) only [h0, hrun, fun (b : State) x0 (h : Kept b x0) => Kept.trans h (hrun x0), implies_true, Kept.refl, kept_mk, kept_regsFilter]

theorem keep_settle {a0 : State} (o : OpInfo) (c : Cmd) (r : Ans × State) (h0 : Kept a0 r.2) : Kept a0 (settle o c r) := by
  unfold settle
  split
  · split <;> simp only [keep_sendReply, keep_State_inc, h0]
  · simp only [keep_startJob, h0]

theorem keep_started {a0 s0 : State} (h0 : Kept a0 s0) (o : OpInfo) (own : Cmd → State → Ans × State) (c : Cmd) (hown : ∀ x0 x1, Kept x1 (own x0 x1).2) : Kept a0 (started o own c s0) := by
  have hk := h0
  unfold started
  repeat' (first
    | (simp (maxDischargeDepth := 40) only [h0, hown, fun (b : State) x0 x1 (h : Kept b x1) => Kept.trans h (hown x0 x1), hk, implies_true, Kept.refl, kept_mk, kept_regsFilter, keep_State_inc, keep_requestWake, keep_sendReply, keep_settle, keep_startJob]; done)
    | (split <;> (try (rename_i heq; have hq := congrArg (fun r => Kept a0 (Prod.snd r)) heq; clear heq; simp (maxDischargeDepth := 40) only [h0, hown, fun (b : State) x0 x1 (h : Kept b x1) => Kept.trans h (hown x0 x1), hk, implies_true, Kept.refl, kept_mk, kept_regsFilter, keep_State_inc, keep_requestWake, keep_sendReply, keep_settle, keep_startJob] at hq; first | replace hk := of_eq_true hq.symm | replace hk := hq)))
    | (refine kept_each ?_ ?_)
    | (refine kept_foldl ?_ ?_)
    | (refine kept_foldl2 ?_ ?_)
    | (intro _)
    | (dsimp only))

theorem keep_launched {a0 s : State} (h0 : Kept a0 s) (o : OpInfo) (own : Cmd → State → Ans × State) (c : Cmd) (hown : ∀ x0 x1, Kept x1 (own x0 x1).2) : Kept a0 (launched o own c s) := by simp (maxDischargeDepth := 40) only [launched, h0, hown, fun (b : State) x0 x1 (h : Kept b x1) => Kept.trans h (hown x0 x1), implies_true, Kept.refl, kept_mk, kept_regsFilter, keep_State_inc, keep_launchOr, keep_started]

theorem keep_runCmd {a0 s : State} (h0 : Kept a0 s) (o : OpInfo) (own : Cmd → State → Ans × State) (c : Cmd) (hown : ∀ x0 x1, Kept x1 (own x0 x1).2) : Kept a0 (runCmd o own c s) := by
  have hk := h0
  unfold runCmd
  repeat' (first
    | (simp (maxDischargeDepth := 40) only [h0, hown, fun (b : State) x0 x1 (h : Kept b x1) => Kept.trans h (hown x0 x1), hk, implies_true, Kept.refl, kept_mk, kept_regsFilter, keep_State_evt, keep_State_inc, keep_State_setAperture, keep_launched]; done)
    | (split <;> (try (rename_i heq; have hq := congrArg (fun r => Kept a0 (Prod.snd r)) heq; clear heq; simp (maxDischargeDepth := 40) only [h0, hown, fun (b : State) x0 x1 (h : Kept b x1) => Kept.trans h (hown x0 x1), hk, implies_true, Kept.refl, kept_mk, kept_regsFilter, keep_State_evt, keep_State_inc, keep_State_setAperture, keep_launched] at hq; first | replace hk := of_eq_true hq.symm | replace hk := hq)))
    | (refine kept_each ?_ ?_)
    | (refine kept_foldl ?_ ?_)
    | (refine kept_foldl2 ?_ ?_)
    | (intro _)
    | (dsimp only))

theorem keep_authFail {a0 s : State} (h0 : Kept a0 s)  : Kept a0 (authFail s) := by simp (maxDischargeDepth := 40) only [authFail, h0, implies_true, Kept.refl, kept_mk, kept_regsFilter, keep_State_evt, keep_State_inc]

theorem keep_replayDrop {a0 s : State} (h0 : Kept a0 s)  : Kept a0 (replayDrop s) := by simp (maxDischargeDepth := 40) only [replayDrop, h0, implies_true, Kept.refl, kept_mk, kept_regsFilter, keep_State_evt, keep_State_inc]

theorem keep_envAdmit {a0 s : State} (h0 : Kept a0 s) (e : EnvSeal) (body : List Byte) (full : State → State) (launch : Nat → State → State) (hfull : ∀ x0, Kept x0 (full x0)) (hlaunch : ∀ x0 x1, Kept x1 (launch x0 x1)) : Kept a0 (envAdmit e body full launch s) := by
  have hk := h0
  unfold envAdmit
  repeat' (first
    | (simp (maxDischargeDepth := 40) only [h0, hfull, hlaunch, fun (b : State) x0 (h : Kept b x0) => Kept.trans h (hfull x0), fun (b : State) x0 x1 (h : Kept b x1) => Kept.trans h (hlaunch x0 x1), hk, implies_true, Kept.refl, kept_mk, kept_regsFilter, keep_authFail, keep_computeTag, keep_replayDrop]; done)
    | (split <;> (try (rename_i heq; have hq := congrArg (fun r => Kept a0 (Prod.snd r)) heq; clear heq; simp (maxDischargeDepth := 40) only [h0, hfull, hlaunch, fun (b : State) x0 (h : Kept b x0) => Kept.trans h (hfull x0), fun (b : State) x0 x1 (h : Kept b x1) => Kept.trans h (hlaunch x0 x1), hk, implies_true, Kept.refl, kept_mk, kept_regsFilter, keep_authFail, keep_computeTag, keep_replayDrop] at hq; first | replace hk := of_eq_true hq.symm | replace hk := hq)))
    | (refine kept_each ?_ ?_)
    | (refine kept_foldl ?_ ?_)
    | (refine kept_foldl2 ?_ ?_)
    | (intro _)
    | (dsimp only))

theorem keep_nodeSeal {a0 s : State} (h0 : Kept a0 s) (body : Nat → Nat → Nat → List Byte) : Kept a0 (nodeSeal body s).2 := by simp (maxDischargeDepth := 40) only [nodeSeal, h0, implies_true, Kept.refl, kept_mk, kept_regsFilter, keep_computeTag]

theorem keep_replySeal {a0 s : State} (h0 : Kept a0 s) (keyId origin : Nat) (ws : List Word) : Kept a0 (replySeal keyId origin ws s).2 := by simp (maxDischargeDepth := 40) only [replySeal, h0, implies_true, Kept.refl, kept_mk, kept_regsFilter, keep_computeTag]

theorem keep_replyCheck {a0 s : State} (h0 : Kept a0 s) (keyId : Nat) (body mac : List Byte) (f : State → State) (hf : ∀ x0, Kept x0 (f x0)) : Kept a0 (replyCheck keyId body mac f s) := by
  have hk := h0
  unfold replyCheck
  repeat' (first
    | (simp (maxDischargeDepth := 40) only [h0, hf, fun (b : State) x0 (h : Kept b x0) => Kept.trans h (hf x0), hk, implies_true, Kept.refl, kept_mk, kept_regsFilter, keep_authFail, keep_computeTag]; done)
    | (split <;> (try (rename_i heq; have hq := congrArg (fun r => Kept a0 (Prod.snd r)) heq; clear heq; simp (maxDischargeDepth := 40) only [h0, hf, fun (b : State) x0 (h : Kept b x0) => Kept.trans h (hf x0), hk, implies_true, Kept.refl, kept_mk, kept_regsFilter, keep_authFail, keep_computeTag] at hq; first | replace hk := of_eq_true hq.symm | replace hk := hq)))
    | (refine kept_each ?_ ?_)
    | (refine kept_foldl ?_ ?_)
    | (refine kept_foldl2 ?_ ?_)
    | (intro _)
    | (dsimp only))

theorem keep_issuedDone {a0 s : State} (h0 : Kept a0 s) (x : Issued) : Kept a0 (issuedDone x s) := by simp (maxDischargeDepth := 40) only [issuedDone, h0, implies_true, Kept.refl, kept_mk, kept_regsFilter]

theorem keep_whenUp {a0 s : State} (h0 : Kept a0 s) (f : State → State) (hf : ∀ x0, Kept x0 (f x0)) : Kept a0 (whenUp f s) := by
  unfold whenUp; split <;> simp (maxDischargeDepth := 40) only [h0, hf, fun (b : State) x0 (h : Kept b x0) => Kept.trans h (hf x0), implies_true, Kept.refl, kept_mk, kept_regsFilter]

theorem keep_ans {a0 s : State} (h0 : Kept a0 s) (status : Nat) : Kept a0 (ans status s).2 := by simp (maxDischargeDepth := 40) only [ans, h0, implies_true, Kept.refl, kept_mk, kept_regsFilter]

theorem keep_ansWith {a0 s : State} (h0 : Kept a0 s) (results : List Word) : Kept a0 (ansWith results s).2 := by simp (maxDischargeDepth := 40) only [ansWith, h0, implies_true, Kept.refl, kept_mk, kept_regsFilter]

end Sys2Proof.Laws
end

