-- ==== Sys2Proof/Laws/KeepPorts.lean ====
section
/-! SUPPORT. What every operation keeps (`Kept`), one lemma for each: splices, Datum, Landing, PTP, memory ports, leave, Stow, rulings, taps and probes. -/

namespace Sys2Proof.Laws

open Sys2Proof.Machine

set_option linter.all false

/-! ### Splice.lean -/

theorem keep_putList {a0 s : State} (h0 : Kept a0 s) (ch L : Nat) (es : List (Nat × Nat)) : Kept a0 (putList ch L es s) := by simp (maxDischargeDepth := 40) only [putList, h0, implies_true, Kept.refl, kept_mk, kept_regsFilter, keep_State_each, keep_State_wr]

theorem keep_tmtListReceive {a0 s : State} (h0 : Kept a0 s) (ch : Nat) (bs : List Byte) : Kept a0 (tmtListReceive ch bs s) := by
  have hk := h0
  unfold tmtListReceive
  repeat' (first
    | (simp (maxDischargeDepth := 40) only [h0, hk, implies_true, Kept.refl, kept_mk, kept_regsFilter, keep_State_putB, keep_State_setChain, keep_State_setF, keep_putList, keep_sendUp]; done)
    | (split <;> (try (rename_i heq; have hq := congrArg (fun r => Kept a0 (Prod.snd r)) heq; clear heq; simp (maxDischargeDepth := 40) only [h0, hk, implies_true, Kept.refl, kept_mk, kept_regsFilter, keep_State_putB, keep_State_setChain, keep_State_setF, keep_putList, keep_sendUp] at hq; first | replace hk := of_eq_true hq.symm | replace hk := hq)))
    | (refine kept_each ?_ ?_)
    | (refine kept_foldl ?_ ?_)
    | (refine kept_foldl2 ?_ ?_)
    | (intro _)
    | (dsimp only))

theorem keep_tmtLoadCheck {a0 s : State} (h0 : Kept a0 s) (ch dir : Nat) : Kept a0 (tmtLoadCheck ch dir s) := by
  unfold tmtLoadCheck; split <;> simp (maxDischargeDepth := 40) only [h0, implies_true, Kept.refl, kept_mk, kept_regsFilter, keep_State_each, keep_finishJob]

theorem keep_tmtAck {a0 s : State} (h0 : Kept a0 s) (ch src : Nat) (bs : List Byte) : Kept a0 (tmtAck ch src bs s) := by
  unfold tmtAck; split <;> simp (maxDischargeDepth := 40) only [h0, implies_true, Kept.refl, kept_mk, kept_regsFilter, keep_State_setChain, keep_tmtLoadCheck]

theorem keep_sendOpLists {a0 s : State} (h0 : Kept a0 s) (ch : Nat) : Kept a0 (sendOpLists ch s) := by simp (maxDischargeDepth := 40) only [sendOpLists, h0, implies_true, Kept.refl, kept_mk, kept_regsFilter, keep_State_each, keep_sendAll]

theorem keep_announceNow {a0 s : State} (h0 : Kept a0 s) (ch : Nat) (a : SpliceAnn) : Kept a0 (announceNow ch a s) := by simp (maxDischargeDepth := 40) only [announceNow, h0, implies_true, Kept.refl, kept_mk, kept_regsFilter, keep_sendAll, keep_sendOpLists]

theorem keep_showSplice {a0 s : State} (h0 : Kept a0 s) (ch : Nat) : Kept a0 (showSplice ch s) := by
  unfold showSplice; split <;> simp (maxDischargeDepth := 40) only [h0, implies_true, Kept.refl, kept_mk, kept_regsFilter, keep_State_putB, keep_State_wr, keep_State_wrTime]

theorem keep_announce {a0 s : State} (h0 : Kept a0 s) (ch station : Nat) (out : Bool) (cyc : Nat) : Kept a0 (announce ch station out cyc s) := by simp (maxDischargeDepth := 40) only [announce, h0, implies_true, Kept.refl, kept_mk, kept_regsFilter, keep_State_draw, keep_State_setChain, keep_announceNow, keep_showSplice]

theorem keep_announceDue {a0 s : State} (h0 : Kept a0 s) (ch : Nat) : Kept a0 (announceDue ch s) := by simp (maxDischargeDepth := 40) only [announceDue, h0, implies_true, Kept.refl, kept_mk, kept_regsFilter, keep_State_each, keep_State_setChain, keep_announceNow]

theorem keep_spliceAnn {a0 s : State} (h0 : Kept a0 s) (bs : List Byte) (pE pW : Nat) : Kept a0 (spliceAnn bs pE pW s) := by
  have hk := h0
  unfold spliceAnn
  repeat' (first
    | (simp (maxDischargeDepth := 40) only [h0, hk, implies_true, Kept.refl, kept_mk, kept_regsFilter, keep_State_each, keep_State_evt, keep_State_setChain, keep_State_wr, keep_State_wrTime, keep_finishJob]; done)
    | (split <;> (try (rename_i heq; have hq := congrArg (fun r => Kept a0 (Prod.snd r)) heq; clear heq; simp (maxDischargeDepth := 40) only [h0, hk, implies_true, Kept.refl, kept_mk, kept_regsFilter, keep_State_each, keep_State_evt, keep_State_setChain, keep_State_wr, keep_State_wrTime, keep_finishJob] at hq; first | replace hk := of_eq_true hq.symm | replace hk := hq)))
    | (refine kept_each ?_ ?_)
    | (refine kept_foldl ?_ ?_)
    | (refine kept_foldl2 ?_ ?_)
    | (intro _)
    | (dsimp only))

theorem keep_openWindow {a0 s : State} (h0 : Kept a0 s) (ch : Nat) (near : Bool) (a : SpliceAnn) : Kept a0 (openWindow ch near a s) := by simp (maxDischargeDepth := 40) only [openWindow, h0, implies_true, Kept.refl, kept_mk, kept_regsFilter, keep_State_setChain]

theorem keep_leafSplice {a0 s : State} (h0 : Kept a0 s) (a : SpliceAnn) : Kept a0 (leafSplice a s) := by
  have hk := h0
  unfold leafSplice
  repeat' (first
    | (simp (maxDischargeDepth := 40) only [h0, hk, implies_true, Kept.refl, kept_mk, kept_regsFilter, keep_State_evt, keep_State_putB, keep_State_setChain, keep_listenLock]; done)
    | (split <;> (try (rename_i heq; have hq := congrArg (fun r => Kept a0 (Prod.snd r)) heq; clear heq; simp (maxDischargeDepth := 40) only [h0, hk, implies_true, Kept.refl, kept_mk, kept_regsFilter, keep_State_evt, keep_State_putB, keep_State_setChain, keep_listenLock] at hq; first | replace hk := of_eq_true hq.symm | replace hk := hq)))
    | (refine kept_each ?_ ?_)
    | (refine kept_foldl ?_ ?_)
    | (refine kept_foldl2 ?_ ?_)
    | (intro _)
    | (dsimp only))

theorem keep_setRoster {a0 s : State} (h0 : Kept a0 s) (ch pos : Nat) (on : Bool) : Kept a0 (setRoster ch pos on s) := by
  unfold setRoster; split <;> simp (maxDischargeDepth := 40) only [h0, implies_true, Kept.refl, kept_mk, kept_regsFilter, keep_State_evt, keep_State_putB, keep_State_setChain]

theorem keep_spliceJobs {a0 s : State} (h0 : Kept a0 s) (ch station : Nat) (out : Bool) : Kept a0 (spliceJobs ch station out s) := by
  have hk := h0
  unfold spliceJobs
  repeat' (first
    | (simp (maxDischargeDepth := 40) only [h0, hk, implies_true, Kept.refl, kept_mk, kept_regsFilter, keep_State_each, keep_finishJob]; done)
    | (split <;> (try (rename_i heq; have hq := congrArg (fun r => Kept a0 (Prod.snd r)) heq; clear heq; simp (maxDischargeDepth := 40) only [h0, hk, implies_true, Kept.refl, kept_mk, kept_regsFilter, keep_State_each, keep_finishJob] at hq; first | replace hk := of_eq_true hq.symm | replace hk := hq)))
    | (refine kept_each ?_ ?_)
    | (refine kept_foldl ?_ ?_)
    | (refine kept_foldl2 ?_ ?_)
    | (intro _)
    | (dsimp only))

theorem keep_traySplice {a0 s : State} (h0 : Kept a0 s) (ch : Nat) (a : SpliceAnn) : Kept a0 (traySplice ch a s) := by
  unfold traySplice; split <;> simp (maxDischargeDepth := 40) only [h0, implies_true, Kept.refl, kept_mk, kept_regsFilter, keep_State_evt, keep_State_setChain, keep_setRoster, keep_spliceJobs]

theorem keep_spliceTime {a0 s : State} (h0 : Kept a0 s) (ch : Nat) (near : Bool) : Kept a0 (spliceTime ch near s) := by
  have hk := h0
  unfold spliceTime
  repeat' (first
    | (simp (maxDischargeDepth := 40) only [h0, hk, implies_true, Kept.refl, kept_mk, kept_regsFilter, keep_leafSplice, keep_openWindow, keep_showSplice, keep_traySplice]; done)
    | (split <;> (try (rename_i heq; have hq := congrArg (fun r => Kept a0 (Prod.snd r)) heq; clear heq; simp (maxDischargeDepth := 40) only [h0, hk, implies_true, Kept.refl, kept_mk, kept_regsFilter, keep_leafSplice, keep_openWindow, keep_showSplice, keep_traySplice] at hq; first | replace hk := of_eq_true hq.symm | replace hk := hq)))
    | (refine kept_each ?_ ?_)
    | (refine kept_foldl ?_ ?_)
    | (refine kept_foldl2 ?_ ?_)
    | (intro _)
    | (dsimp only))

theorem keep_windowClose {a0 s : State} (h0 : Kept a0 s) (ch : Nat) : Kept a0 (windowClose ch s) := by simp (maxDischargeDepth := 40) only [windowClose, h0, implies_true, Kept.refl, kept_mk, kept_regsFilter, keep_State_each, keep_State_setChain, keep_downEffects]

theorem keep_spliceRequest {a0 s : State} (h0 : Kept a0 s) (ch src : Nat) : Kept a0 (spliceRequest ch src s) := by
  have hk := h0
  unfold spliceRequest
  repeat' (first
    | (simp (maxDischargeDepth := 40) only [h0, hk, implies_true, Kept.refl, kept_mk, kept_regsFilter, keep_announce]; done)
    | (split <;> (try (rename_i heq; have hq := congrArg (fun r => Kept a0 (Prod.snd r)) heq; clear heq; simp (maxDischargeDepth := 40) only [h0, hk, implies_true, Kept.refl, kept_mk, kept_regsFilter, keep_announce] at hq; first | replace hk := of_eq_true hq.symm | replace hk := hq)))
    | (refine kept_each ?_ ?_)
    | (refine kept_foldl ?_ ?_)
    | (refine kept_foldl2 ?_ ?_)
    | (intro _)
    | (dsimp only))

theorem keep_rollSend {a0 s : State} (h0 : Kept a0 s) (ch : Nat) : Kept a0 (rollSend ch s) := by
  unfold rollSend; split <;> simp (maxDischargeDepth := 40) only [h0, implies_true, Kept.refl, kept_mk, kept_regsFilter, keep_State_setChain, keep_sendAll]

theorem keep_rollReceive {a0 s : State} (h0 : Kept a0 s) (bs : List Byte) : Kept a0 (rollReceive bs s) := by
  unfold rollReceive; split <;> simp (maxDischargeDepth := 40) only [h0, implies_true, Kept.refl, kept_mk, kept_regsFilter, keep_sendUp]

theorem keep_rollAck {a0 s : State} (h0 : Kept a0 s) (ch src : Nat) : Kept a0 (rollAck ch src s) := by
  unfold rollAck
  repeat' (first | split | (simp (maxDischargeDepth := 40) only [h0, implies_true, Kept.refl, kept_mk, kept_regsFilter, keep_State_evt, keep_State_setChain, keep_setRoster, keep_spliceJobs]; done) | dsimp only)

theorem keep_rollTimeout {a0 s : State} (h0 : Kept a0 s) (ch pos : Nat) : Kept a0 (rollTimeout ch pos s) := by
  unfold rollTimeout; split <;> simp (maxDischargeDepth := 40) only [h0, implies_true, Kept.refl, kept_mk, kept_regsFilter, keep_setRoster]

theorem keep_hopCheck {a0 s : State} (h0 : Kept a0 s) (ch : Nat) : Kept a0 (hopCheck ch s) := by
  unfold hopCheck; split <;> simp (maxDischargeDepth := 40) only [h0, implies_true, Kept.refl, kept_mk, kept_regsFilter, keep_State_setChain]

theorem keep_rollExtra {a0 s : State} (h0 : Kept a0 s) (ch : Nat) : Kept a0 (rollExtra ch s) := by
  unfold rollExtra; split <;> simp (maxDischargeDepth := 40) only [h0, implies_true, Kept.refl, kept_mk, kept_regsFilter, keep_State_setChain, keep_rollSend]

theorem keep_linkAlarmReceive {a0 s : State} (h0 : Kept a0 s) (ch src : Nat) (bs : List Byte) : Kept a0 (linkAlarmReceive ch src bs s) := by
  unfold linkAlarmReceive; split <;> simp (maxDischargeDepth := 40) only [h0, implies_true, Kept.refl, kept_mk, kept_regsFilter, keep_noteLink]

theorem keep_linkStateReceive {a0 s : State} (h0 : Kept a0 s) (bs : List Byte) : Kept a0 (linkStateReceive bs s) := by
  unfold linkStateReceive; split <;> simp (maxDischargeDepth := 40) only [h0, implies_true, Kept.refl, kept_mk, kept_regsFilter, keep_State_setChain]

theorem keep_chainSet {a0 s : State} (h0 : Kept a0 s) (c : Cmd) : Kept a0 (chainSet c s).2 := by
  have hk := h0
  unfold chainSet
  repeat' (first
    | (simp (maxDischargeDepth := 40) only [h0, hk, implies_true, Kept.refl, kept_mk, kept_regsFilter, keep_State_each, keep_State_wr, keep_ans]; done)
    | (split <;> (try (rename_i heq; have hq := congrArg (fun r => Kept a0 (Prod.snd r)) heq; clear heq; simp (maxDischargeDepth := 40) only [h0, hk, implies_true, Kept.refl, kept_mk, kept_regsFilter, keep_State_each, keep_State_wr, keep_ans] at hq; first | replace hk := of_eq_true hq.symm | replace hk := hq)))
    | (refine kept_each ?_ ?_)
    | (refine kept_foldl ?_ ?_)
    | (refine kept_foldl2 ?_ ?_)
    | (intro _)
    | (dsimp only))

theorem keep_spliceCmd {a0 s : State} (h0 : Kept a0 s) (c : Cmd) : Kept a0 (spliceCmd c s).2 := by
  have hk := h0
  unfold spliceCmd
  repeat' (first
    | (simp (maxDischargeDepth := 40) only [h0, hk, implies_true, Kept.refl, kept_mk, kept_regsFilter, keep_announce, keep_ans]; done)
    | (split <;> (try (rename_i heq; have hq := congrArg (fun r => Kept a0 (Prod.snd r)) heq; clear heq; simp (maxDischargeDepth := 40) only [h0, hk, implies_true, Kept.refl, kept_mk, kept_regsFilter, keep_announce, keep_ans] at hq; first | replace hk := of_eq_true hq.symm | replace hk := hq)))
    | (refine kept_each ?_ ?_)
    | (refine kept_foldl ?_ ?_)
    | (refine kept_foldl2 ?_ ?_)
    | (intro _)
    | (dsimp only))

theorem keep_spliceReqCmd {a0 s : State} (h0 : Kept a0 s) (_c : Cmd) : Kept a0 (spliceReqCmd _c s).2 := by
  unfold spliceReqCmd; split <;> simp (maxDischargeDepth := 40) only [h0, implies_true, Kept.refl, kept_mk, kept_regsFilter, keep_State_emit, keep_ans]

theorem keep_tmtLoadCmd {a0 s : State} (h0 : Kept a0 s) (c : Cmd) : Kept a0 (tmtLoadCmd c s).2 := by
  have hk := h0
  unfold tmtLoadCmd
  repeat' (first
    | (simp (maxDischargeDepth := 40) only [h0, hk, implies_true, Kept.refl, kept_mk, kept_regsFilter, keep_State_putB, keep_State_setChain, keep_State_setF, keep_ans, keep_putList, keep_sendAll]; done)
    | (split <;> (try (rename_i heq; have hq := congrArg (fun r => Kept a0 (Prod.snd r)) heq; clear heq; simp (maxDischargeDepth := 40) only [h0, hk, implies_true, Kept.refl, kept_mk, kept_regsFilter, keep_State_putB, keep_State_setChain, keep_State_setF, keep_ans, keep_putList, keep_sendAll] at hq; first | replace hk := of_eq_true hq.symm | replace hk := hq)))
    | (refine kept_each ?_ ?_)
    | (refine kept_foldl ?_ ?_)
    | (refine kept_foldl2 ?_ ?_)
    | (intro _)
    | (dsimp only))

theorem keep_laneUnfence {a0 s : State} (h0 : Kept a0 s) (c : Cmd) : Kept a0 (laneUnfence c s).2 := by
  have hk := h0
  unfold laneUnfence
  repeat' (first
    | (simp (maxDischargeDepth := 40) only [h0, hk, implies_true, Kept.refl, kept_mk, kept_regsFilter, keep_State_setF, keep_ans, keep_clearLink, keep_queueRow]; done)
    | (split <;> (try (rename_i heq; have hq := congrArg (fun r => Kept a0 (Prod.snd r)) heq; clear heq; simp (maxDischargeDepth := 40) only [h0, hk, implies_true, Kept.refl, kept_mk, kept_regsFilter, keep_State_setF, keep_ans, keep_clearLink, keep_queueRow] at hq; first | replace hk := of_eq_true hq.symm | replace hk := hq)))
    | (refine kept_each ?_ ?_)
    | (refine kept_foldl ?_ ?_)
    | (refine kept_foldl2 ?_ ?_)
    | (intro _)
    | (dsimp only))

/-! ### Datum.lean -/

theorem keep_wordNote {a0 s : State} (h0 : Kept a0 s) (sd : Side) (whole : Bool) : Kept a0 (wordNote sd whole s) := by simp (maxDischargeDepth := 40) only [wordNote, h0, implies_true, Kept.refl, kept_mk, kept_regsFilter, keep_State_setChain, keep_setModeAt]

theorem keep_wordRow {a0 s : State} (h0 : Kept a0 s) (sd : Side) (blocks : List Block) : Kept a0 (wordRow sd blocks s) := by simp (maxDischargeDepth := 40) only [wordRow, h0, implies_true, Kept.refl, kept_mk, kept_regsFilter, keep_State_drive]

theorem keep_wordForward {a0 s : State} (h0 : Kept a0 s) (sd : Side) (bs : List Byte) (rx tx : Nat) : Kept a0 (wordForward sd bs rx tx s) := by simp (maxDischargeDepth := 40) only [wordForward, h0, implies_true, Kept.refl, kept_mk, kept_regsFilter, keep_wordRow]

theorem keep_wordTake {a0 s : State} (h0 : Kept a0 s) (sd : Side) (origin : Nat) (bs : List Byte) (rx : Nat) : Kept a0 (wordTake sd origin bs rx s) := by
  unfold wordTake; split <;> simp (maxDischargeDepth := 40) only [h0, implies_true, Kept.refl, kept_mk, kept_regsFilter, keep_State_later, keep_State_putB, keep_measure]

theorem keep_wordFields {a0 s : State} (h0 : Kept a0 s) (bs : List Byte) : Kept a0 (wordFields bs s) := by simp (maxDischargeDepth := 40) only [wordFields, h0, implies_true, Kept.refl, kept_mk, kept_regsFilter, keep_State_putB, keep_State_setF]

theorem keep_timeWordReceive {a0 s : State} (h0 : Kept a0 s) (sd : Side) (blocks : List Block) (rx tx : Nat) : Kept a0 (timeWordReceive sd blocks rx tx s) := by
  have hk := h0
  unfold timeWordReceive
  repeat' (first
    | (simp (maxDischargeDepth := 40) only [h0, hk, implies_true, Kept.refl, kept_mk, kept_regsFilter, keep_State_inc, keep_wordFields, keep_wordForward, keep_wordNote, keep_wordRow, keep_wordTake]; done)
    | (split <;> (try (rename_i heq; have hq := congrArg (fun r => Kept a0 (Prod.snd r)) heq; clear heq; simp (maxDischargeDepth := 40) only [h0, hk, implies_true, Kept.refl, kept_mk, kept_regsFilter, keep_State_inc, keep_wordFields, keep_wordForward, keep_wordNote, keep_wordRow, keep_wordTake] at hq; first | replace hk := of_eq_true hq.symm | replace hk := hq)))
    | (refine kept_each ?_ ?_)
    | (refine kept_foldl ?_ ?_)
    | (refine kept_foldl2 ?_ ?_)
    | (intro _)
    | (dsimp only))

theorem keep_ppsEdge {a0 s : State} (h0 : Kept a0 s) (edge : Nat) : Kept a0 (ppsEdge edge s) := by
  have hk := h0
  unfold ppsEdge
  repeat' (first
    | (simp (maxDischargeDepth := 40) only [h0, hk, implies_true, Kept.refl, kept_mk, kept_regsFilter, keep_State_putB, keep_measure]; done)
    | (split <;> (try (rename_i heq; have hq := congrArg (fun r => Kept a0 (Prod.snd r)) heq; clear heq; simp (maxDischargeDepth := 40) only [h0, hk, implies_true, Kept.refl, kept_mk, kept_regsFilter, keep_State_putB, keep_measure] at hq; first | replace hk := of_eq_true hq.symm | replace hk := hq)))
    | (refine kept_each ?_ ?_)
    | (refine kept_foldl ?_ ?_)
    | (refine kept_foldl2 ?_ ?_)
    | (intro _)
    | (dsimp only))

theorem keep_ppsMiss {a0 s : State} (h0 : Kept a0 s)  : Kept a0 (ppsMiss s) := by
  have hk := h0
  unfold ppsMiss
  repeat' (first
    | (simp (maxDischargeDepth := 40) only [h0, hk, implies_true, Kept.refl, kept_mk, kept_regsFilter, keep_State_evt, keep_State_putB]; done)
    | (split <;> (try (rename_i heq; have hq := congrArg (fun r => Kept a0 (Prod.snd r)) heq; clear heq; simp (maxDischargeDepth := 40) only [h0, hk, implies_true, Kept.refl, kept_mk, kept_regsFilter, keep_State_evt, keep_State_putB] at hq; first | replace hk := of_eq_true hq.symm | replace hk := hq)))
    | (refine kept_each ?_ ?_)
    | (refine kept_foldl ?_ ?_)
    | (refine kept_foldl2 ?_ ?_)
    | (intro _)
    | (dsimp only))

theorem keep_servoPut {a0 s : State} (h0 : Kept a0 s) (off v : Nat) : Kept a0 (servoPut off v s) := by
  have hk := h0
  unfold servoPut
  repeat' (first
    | (simp (maxDischargeDepth := 40) only [h0, hk, implies_true, Kept.refl, kept_mk, kept_regsFilter, keep_State_setF, keep_State_wr]; done)
    | (split <;> (try (rename_i heq; have hq := congrArg (fun r => Kept a0 (Prod.snd r)) heq; clear heq; simp (maxDischargeDepth := 40) only [h0, hk, implies_true, Kept.refl, kept_mk, kept_regsFilter, keep_State_setF, keep_State_wr] at hq; first | replace hk := of_eq_true hq.symm | replace hk := hq)))
    | (refine kept_each ?_ ?_)
    | (refine kept_foldl ?_ ?_)
    | (refine kept_foldl2 ?_ ?_)
    | (intro _)
    | (dsimp only))

theorem keep_servoSet {a0 s : State} (h0 : Kept a0 s) (c : Cmd) : Kept a0 (servoSet c s).2 := by
  have hk := h0
  unfold servoSet
  repeat' (first
    | (simp (maxDischargeDepth := 40) only [h0, hk, implies_true, Kept.refl, kept_mk, kept_regsFilter, keep_State_each, keep_ans, keep_roleSettled, keep_servoPut]; done)
    | (split <;> (try (rename_i heq; have hq := congrArg (fun r => Kept a0 (Prod.snd r)) heq; clear heq; simp (maxDischargeDepth := 40) only [h0, hk, implies_true, Kept.refl, kept_mk, kept_regsFilter, keep_State_each, keep_ans, keep_roleSettled, keep_servoPut] at hq; first | replace hk := of_eq_true hq.symm | replace hk := hq)))
    | (refine kept_each ?_ ?_)
    | (refine kept_foldl ?_ ?_)
    | (refine kept_foldl2 ?_ ?_)
    | (intro _)
    | (dsimp only))

theorem keep_timeRoleCmd {a0 s : State} (h0 : Kept a0 s) (c : Cmd) : Kept a0 (timeRoleCmd c s).2 := by
  have hk := h0
  unfold timeRoleCmd
  repeat' (first
    | (simp (maxDischargeDepth := 40) only [h0, hk, implies_true, Kept.refl, kept_mk, kept_regsFilter, keep_ans, keep_roleSettled]; done)
    | (split <;> (try (rename_i heq; have hq := congrArg (fun r => Kept a0 (Prod.snd r)) heq; clear heq; simp (maxDischargeDepth := 40) only [h0, hk, implies_true, Kept.refl, kept_mk, kept_regsFilter, keep_ans, keep_roleSettled] at hq; first | replace hk := of_eq_true hq.symm | replace hk := hq)))
    | (refine kept_each ?_ ?_)
    | (refine kept_foldl ?_ ?_)
    | (refine kept_foldl2 ?_ ?_)
    | (intro _)
    | (dsimp only))

theorem keep_putClock {a0 s : State} (h0 : Kept a0 s) (t : Nat) : Kept a0 (putClock t s) := by simp (maxDischargeDepth := 40) only [putClock, h0, implies_true, Kept.refl, kept_mk, kept_regsFilter]

theorem keep_timeSetCmd {a0 s : State} (h0 : Kept a0 s) (held : Bool) (c : Cmd) : Kept a0 (timeSetCmd held c s).2 := by
  have hk := h0
  unfold timeSetCmd
  repeat' (first
    | (simp (maxDischargeDepth := 40) only [h0, hk, implies_true, Kept.refl, kept_mk, kept_regsFilter, keep_State_evt, keep_State_inc, keep_State_later, keep_State_putB, keep_ans, keep_putClock, keep_rateNote]; done)
    | (split <;> (try (rename_i heq; have hq := congrArg (fun r => Kept a0 (Prod.snd r)) heq; clear heq; simp (maxDischargeDepth := 40) only [h0, hk, implies_true, Kept.refl, kept_mk, kept_regsFilter, keep_State_evt, keep_State_inc, keep_State_later, keep_State_putB, keep_ans, keep_putClock, keep_rateNote] at hq; first | replace hk := of_eq_true hq.symm | replace hk := hq)))
    | (refine kept_each ?_ ?_)
    | (refine kept_foldl ?_ ?_)
    | (refine kept_foldl2 ?_ ?_)
    | (intro _)
    | (dsimp only))

theorem keep_putPulseNext {a0 s : State} (h0 : Kept a0 s) (n k : Nat) : Kept a0 (putPulseNext n k s) := by simp (maxDischargeDepth := 40) only [putPulseNext, h0, implies_true, Kept.refl, kept_mk, kept_regsFilter]

theorem keep_pulseSet {a0 s : State} (h0 : Kept a0 s) (c : Cmd) : Kept a0 (pulseSet c s).2 := by
  have hk := h0
  unfold pulseSet
  repeat' (first
    | (simp (maxDischargeDepth := 40) only [h0, hk, implies_true, Kept.refl, kept_mk, kept_regsFilter, keep_State_evt, keep_State_wr, keep_State_wrTime, keep_ans, keep_pulseHold, keep_putPulseNext]; done)
    | (split <;> (try (rename_i heq; have hq := congrArg (fun r => Kept a0 (Prod.snd r)) heq; clear heq; simp (maxDischargeDepth := 40) only [h0, hk, implies_true, Kept.refl, kept_mk, kept_regsFilter, keep_State_evt, keep_State_wr, keep_State_wrTime, keep_ans, keep_pulseHold, keep_putPulseNext] at hq; first | replace hk := of_eq_true hq.symm | replace hk := hq)))
    | (refine kept_each ?_ ?_)
    | (refine kept_foldl ?_ ?_)
    | (refine kept_foldl2 ?_ ?_)
    | (intro _)
    | (dsimp only))

/-! ### Landing.lean -/

theorem keep_bundleFrame {a0 s : State} (h0 : Kept a0 s) (f : LndFrame) : Kept a0 (bundleFrame f s).2 := by simp (maxDischargeDepth := 40) only [bundleFrame, h0, implies_true, Kept.refl, kept_mk, kept_regsFilter]

theorem keep_lndSwap {a0 s : State} (h0 : Kept a0 s) (stream : Nat) : Kept a0 (lndSwap stream s) := by
  have hk := h0
  unfold lndSwap
  repeat' (first
    | (simp (maxDischargeDepth := 40) only [h0, hk, implies_true, Kept.refl, kept_mk, kept_regsFilter, keep_State_each, keep_State_evt, keep_State_putB, keep_State_setF, keep_State_wr]; done)
    | (split <;> (try (rename_i heq; have hq := congrArg (fun r => Kept a0 (Prod.snd r)) heq; clear heq; simp (maxDischargeDepth := 40) only [h0, hk, implies_true, Kept.refl, kept_mk, kept_regsFilter, keep_State_each, keep_State_evt, keep_State_putB, keep_State_setF, keep_State_wr] at hq; first | replace hk := of_eq_true hq.symm | replace hk := hq)))
    | (refine kept_each ?_ ?_)
    | (refine kept_foldl ?_ ?_)
    | (refine kept_foldl2 ?_ ?_)
    | (intro _)
    | (dsimp only))

theorem keep_lndSwapDue {a0 s : State} (h0 : Kept a0 s) (cyc : Nat) : Kept a0 (lndSwapDue cyc s) := by simp (maxDischargeDepth := 40) only [lndSwapDue, h0, implies_true, Kept.refl, kept_mk, kept_regsFilter, keep_State_each, keep_lndSwap]

theorem keep_lndIdle {a0 s : State} (h0 : Kept a0 s) (stream : Nat) : Kept a0 (lndIdle stream s) := by
  have hk := h0
  unfold lndIdle
  repeat' (first
    | (simp (maxDischargeDepth := 40) only [h0, hk, implies_true, Kept.refl, kept_mk, kept_regsFilter, keep_State_each]; done)
    | (split <;> (try (rename_i heq; have hq := congrArg (fun r => Kept a0 (Prod.snd r)) heq; clear heq; simp (maxDischargeDepth := 40) only [h0, hk, implies_true, Kept.refl, kept_mk, kept_regsFilter, keep_State_each] at hq; first | replace hk := of_eq_true hq.symm | replace hk := hq)))
    | (refine kept_each ?_ ?_)
    | (refine kept_foldl ?_ ?_)
    | (refine kept_foldl2 ?_ ?_)
    | (intro _)
    | (dsimp only))

theorem keep_lndSend {a0 s : State} (h0 : Kept a0 s) (f : LndFrame) : Kept a0 (lndSend f s) := by
  unfold lndSend; split <;> simp (maxDischargeDepth := 40) only [h0, implies_true, Kept.refl, kept_mk, kept_regsFilter, keep_State_emit, keep_State_inc, keep_bundleFrame, keep_takeTokens]

theorem keep_lndPut {a0 s : State} (h0 : Kept a0 s) (p : Nat × Nat) : Kept a0 (lndPut p s) := by
  have hk := h0
  unfold lndPut
  repeat' (first
    | (simp (maxDischargeDepth := 40) only [h0, hk, implies_true, Kept.refl, kept_mk, kept_regsFilter, keep_State_setF, keep_putBucket]; done)
    | (split <;> (try (rename_i heq; have hq := congrArg (fun r => Kept a0 (Prod.snd r)) heq; clear heq; simp (maxDischargeDepth := 40) only [h0, hk, implies_true, Kept.refl, kept_mk, kept_regsFilter, keep_State_setF, keep_putBucket] at hq; first | replace hk := of_eq_true hq.symm | replace hk := hq)))
    | (refine kept_each ?_ ?_)
    | (refine kept_foldl ?_ ?_)
    | (refine kept_foldl2 ?_ ?_)
    | (intro _)
    | (dsimp only))

theorem keep_lndSetCmd {a0 s : State} (h0 : Kept a0 s) (c : Cmd) : Kept a0 (lndSetCmd c s).2 := by
  have hk := h0
  unfold lndSetCmd
  repeat' (first
    | (simp (maxDischargeDepth := 40) only [h0, hk, implies_true, Kept.refl, kept_mk, kept_regsFilter, keep_State_each, keep_ans, keep_lndPut]; done)
    | (split <;> (try (rename_i heq; have hq := congrArg (fun r => Kept a0 (Prod.snd r)) heq; clear heq; simp (maxDischargeDepth := 40) only [h0, hk, implies_true, Kept.refl, kept_mk, kept_regsFilter, keep_State_each, keep_ans, keep_lndPut] at hq; first | replace hk := of_eq_true hq.symm | replace hk := hq)))
    | (refine kept_each ?_ ?_)
    | (refine kept_foldl ?_ ?_)
    | (refine kept_foldl2 ?_ ?_)
    | (intro _)
    | (dsimp only))

theorem keep_berthSetCmd {a0 s : State} (h0 : Kept a0 s) (c : Cmd) : Kept a0 (berthSetCmd c s).2 := by
  unfold berthSetCmd; split <;> simp (maxDischargeDepth := 40) only [h0, implies_true, Kept.refl, kept_mk, kept_regsFilter, keep_State_wr, keep_ans]

theorem keep_putKids {a0 s : State} (h0 : Kept a0 s) (l : Nat) (kids : List (Nat × Nat × Nat)) : Kept a0 (putKids l kids s) := by
  have hk := h0
  unfold putKids
  repeat' (first
    | (simp (maxDischargeDepth := 40) only [h0, hk, implies_true, Kept.refl, kept_mk, kept_regsFilter, keep_State_each, keep_State_wr]; done)
    | (split <;> (try (rename_i heq; have hq := congrArg (fun r => Kept a0 (Prod.snd r)) heq; clear heq; simp (maxDischargeDepth := 40) only [h0, hk, implies_true, Kept.refl, kept_mk, kept_regsFilter, keep_State_each, keep_State_wr] at hq; first | replace hk := of_eq_true hq.symm | replace hk := hq)))
    | (refine kept_each ?_ ?_)
    | (refine kept_foldl ?_ ?_)
    | (refine kept_foldl2 ?_ ?_)
    | (intro _)
    | (dsimp only))

theorem keep_treeSetCmd {a0 s : State} (h0 : Kept a0 s) (c : Cmd) : Kept a0 (treeSetCmd c s).2 := by
  have hk := h0
  unfold treeSetCmd
  repeat' (first
    | (simp (maxDischargeDepth := 40) only [h0, hk, implies_true, Kept.refl, kept_mk, kept_regsFilter, keep_State_wr, keep_ans, keep_putKids, keep_wrIp]; done)
    | (split <;> (try (rename_i heq; have hq := congrArg (fun r => Kept a0 (Prod.snd r)) heq; clear heq; simp (maxDischargeDepth := 40) only [h0, hk, implies_true, Kept.refl, kept_mk, kept_regsFilter, keep_State_wr, keep_ans, keep_putKids, keep_wrIp] at hq; first | replace hk := of_eq_true hq.symm | replace hk := hq)))
    | (refine kept_each ?_ ?_)
    | (refine kept_foldl ?_ ?_)
    | (refine kept_foldl2 ?_ ?_)
    | (intro _)
    | (dsimp only))

theorem keep_lndGateLoadCmd {a0 s : State} (h0 : Kept a0 s) (c : Cmd) : Kept a0 (lndGateLoadCmd c s).2 := by
  have hk := h0
  unfold lndGateLoadCmd
  repeat' (first
    | (simp (maxDischargeDepth := 40) only [h0, hk, implies_true, Kept.refl, kept_mk, kept_regsFilter, keep_State_each, keep_State_setF, keep_State_wr, keep_ans]; done)
    | (split <;> (try (rename_i heq; have hq := congrArg (fun r => Kept a0 (Prod.snd r)) heq; clear heq; simp (maxDischargeDepth := 40) only [h0, hk, implies_true, Kept.refl, kept_mk, kept_regsFilter, keep_State_each, keep_State_setF, keep_State_wr, keep_ans] at hq; first | replace hk := of_eq_true hq.symm | replace hk := hq)))
    | (refine kept_each ?_ ?_)
    | (refine kept_foldl ?_ ?_)
    | (refine kept_foldl2 ?_ ?_)
    | (intro _)
    | (dsimp only))

theorem keep_lndGateSwapCmd {a0 s : State} (h0 : Kept a0 s) (c : Cmd) : Kept a0 (lndGateSwapCmd c s).2 := by
  unfold lndGateSwapCmd
  refine kept_ite2 h0 (kept_ite2 h0 ?_)
  exact keep_State_wr (kept_each h0 (fun x t => kept_mk (Kept.refl t) ..)) _ _

theorem keep_rxBad {a0 s : State} (h0 : Kept a0 s)  : Kept a0 (rxBad s) := by simp (maxDischargeDepth := 40) only [rxBad, h0, implies_true, Kept.refl, kept_mk, kept_regsFilter, keep_State_evt, keep_State_inc]

theorem keep_forwardFrame {a0 s : State} (h0 : Kept a0 s) (stream : Nat) (bs : List Byte) (rx : Nat) : Kept a0 (forwardFrame stream bs rx s) := by
  have hk := h0
  unfold forwardFrame
  repeat' (first
    | (simp (maxDischargeDepth := 40) only [h0, hk, implies_true, Kept.refl, kept_mk, kept_regsFilter, keep_State_evt, keep_State_inc]; done)
    | (split <;> (try (rename_i heq; have hq := congrArg (fun r => Kept a0 (Prod.snd r)) heq; clear heq; simp (maxDischargeDepth := 40) only [h0, hk, implies_true, Kept.refl, kept_mk, kept_regsFilter, keep_State_evt, keep_State_inc] at hq; first | replace hk := of_eq_true hq.symm | replace hk := hq)))
    | (refine kept_each ?_ ?_)
    | (refine kept_foldl ?_ ?_)
    | (refine kept_foldl2 ?_ ?_)
    | (intro _)
    | (dsimp only))

theorem keep_bundleIn {a0 s : State} (h0 : Kept a0 s) (cellIn : LndAddr → List Byte → State → State) (stream : Nat) (bs : List Byte) (hcellIn : ∀ x0 x1 x2, Kept x2 (cellIn x0 x1 x2)) : Kept a0 (bundleIn cellIn stream bs s) := by
  have hk := h0
  unfold bundleIn
  repeat' (first
    | (simp (maxDischargeDepth := 40) only [h0, hcellIn, fun (b : State) x0 x1 x2 (h : Kept b x2) => Kept.trans h (hcellIn x0 x1 x2), hk, implies_true, Kept.refl, kept_mk, kept_regsFilter, keep_State_each, keep_State_evt, keep_State_inc, keep_sinkVerdict, keep_takeTokens]; done)
    | (split <;> (try (rename_i heq; have hq := congrArg (fun r => Kept a0 (Prod.snd r)) heq; clear heq; simp (maxDischargeDepth := 40) only [h0, hcellIn, fun (b : State) x0 x1 x2 (h : Kept b x2) => Kept.trans h (hcellIn x0 x1 x2), hk, implies_true, Kept.refl, kept_mk, kept_regsFilter, keep_State_each, keep_State_evt, keep_State_inc, keep_sinkVerdict, keep_takeTokens] at hq; first | replace hk := of_eq_true hq.symm | replace hk := hq)))
    | (refine kept_each ?_ ?_)
    | (refine kept_foldl ?_ ?_)
    | (refine kept_foldl2 ?_ ?_)
    | (intro _)
    | (dsimp only))

theorem keep_landingDown {a0 s : State} (h0 : Kept a0 s) (stream : Nat) : Kept a0 (landingDown stream s) := by
  unfold landingDown; split <;> simp (maxDischargeDepth := 40) only [h0, implies_true, Kept.refl, kept_mk, kept_regsFilter, keep_faultLine]

/-! ### Ptp.lean -/

theorem keep_State_lndEdge {a0 s : State} (h0 : Kept a0 s)  : Kept a0 (State.lndEdge s).2 := by simp (maxDischargeDepth := 40) only [State.lndEdge, h0, implies_true, Kept.refl, kept_mk, kept_regsFilter, keep_State_draw]

theorem keep_queueTime {a0 s : State} (h0 : Kept a0 s) (stream : Nat) (bs : List Byte) : Kept a0 (queueTime stream bs s) := by simp (maxDischargeDepth := 40) only [queueTime, h0, implies_true, Kept.refl, kept_mk, kept_regsFilter]

theorem keep_modPtp {a0 s : State} (h0 : Kept a0 s) (f : PtpSt → PtpSt) : Kept a0 (modPtp f s) := by simp (maxDischargeDepth := 40) only [modPtp, h0, implies_true, Kept.refl, kept_mk, kept_regsFilter]

theorem keep_ptpDrop {a0 s : State} (h0 : Kept a0 s)  : Kept a0 (ptpDrop s) := by simp (maxDischargeDepth := 40) only [ptpDrop, h0, implies_true, Kept.refl, kept_mk, kept_regsFilter, keep_modPtp]

theorem keep_syncTo {a0 s : State} (h0 : Kept a0 s) (ip : Nat) : Kept a0 (syncTo ip s) := by simp (maxDischargeDepth := 40) only [syncTo, h0, implies_true, Kept.refl, kept_mk, kept_regsFilter, keep_queueTime]

theorem keep_ptpSyncSend {a0 s : State} (h0 : Kept a0 s)  : Kept a0 (ptpSyncSend s) := by
  unfold ptpSyncSend; split <;> simp (maxDischargeDepth := 40) only [h0, implies_true, Kept.refl, kept_mk, kept_regsFilter, keep_State_each, keep_modPtp, keep_syncTo]

theorem keep_delayReqTo {a0 s : State} (h0 : Kept a0 s) (layer2 : Bool) (ip : Nat) : Kept a0 (delayReqTo layer2 ip s).2 := by simp (maxDischargeDepth := 40) only [delayReqTo, h0, implies_true, Kept.refl, kept_mk, kept_regsFilter, keep_modPtp, keep_queueTime]

theorem keep_delayReqSend {a0 s : State} (h0 : Kept a0 s) (tx : Nat) : Kept a0 (delayReqSend tx s) := by
  unfold delayReqSend; split <;> simp (maxDischargeDepth := 40) only [h0, implies_true, Kept.refl, kept_mk, kept_regsFilter, keep_delayReqTo, keep_modPtp]

theorem keep_timeLeaves {a0 s : State} (h0 : Kept a0 s) (stream : Nat) (bs : List Byte) : Kept a0 (timeLeaves stream bs s) := by
  have hk := h0
  unfold timeLeaves
  repeat' (first
    | (simp (maxDischargeDepth := 40) only [h0, hk, implies_true, Kept.refl, kept_mk, kept_regsFilter, keep_State_emit, keep_State_inc, keep_State_lndEdge, keep_modPtp]; done)
    | (split <;> (try (rename_i heq; have hq := congrArg (fun r => Kept a0 (Prod.snd r)) heq; clear heq; simp (maxDischargeDepth := 40) only [h0, hk, implies_true, Kept.refl, kept_mk, kept_regsFilter, keep_State_emit, keep_State_inc, keep_State_lndEdge, keep_modPtp] at hq; first | replace hk := of_eq_true hq.symm | replace hk := hq)))
    | (refine kept_each ?_ ?_)
    | (refine kept_foldl ?_ ?_)
    | (refine kept_foldl2 ?_ ?_)
    | (intro _)
    | (dsimp only))

theorem keep_slaveMeasures {a0 s : State} (h0 : Kept a0 s) (diff sum : Int) : Kept a0 (slaveMeasures diff sum s) := by
  have hk := h0
  unfold slaveMeasures
  repeat' (first
    | (simp (maxDischargeDepth := 40) only [h0, hk, implies_true, Kept.refl, kept_mk, kept_regsFilter, keep_State_wr, keep_measure, keep_modPtp]; done)
    | (split <;> (try (rename_i heq; have hq := congrArg (fun r => Kept a0 (Prod.snd r)) heq; clear heq; simp (maxDischargeDepth := 40) only [h0, hk, implies_true, Kept.refl, kept_mk, kept_regsFilter, keep_State_wr, keep_measure, keep_modPtp] at hq; first | replace hk := of_eq_true hq.symm | replace hk := hq)))
    | (refine kept_each ?_ ?_)
    | (refine kept_foldl ?_ ?_)
    | (refine kept_foldl2 ?_ ?_)
    | (intro _)
    | (dsimp only))

theorem keep_probeFound {a0 s : State} (h0 : Kept a0 s) (r : ProbeRun) (diff sum : Int) : Kept a0 (probeFound r diff sum s) := by
  unfold probeFound; split <;> simp (maxDischargeDepth := 40) only [h0, implies_true, Kept.refl, kept_mk, kept_regsFilter, keep_delayReqTo, keep_finishJob, keep_modPtp]

theorem keep_delayResp {a0 s : State} (h0 : Kept a0 s) (stream : Nat) (layer2 : Bool) (ip : Nat) (m : PtpMsg) (rx : Nat) : Kept a0 (delayResp stream layer2 ip m rx s) := by simp (maxDischargeDepth := 40) only [delayResp, h0, implies_true, Kept.refl, kept_mk, kept_regsFilter, keep_queueTime]

theorem keep_managementIn {a0 s : State} (h0 : Kept a0 s) (stream : Nat) (layer2 : Bool) (ip : Nat) (msg : List Byte) (m : PtpMsg) : Kept a0 (managementIn stream layer2 ip msg m s) := by
  have hk := h0
  unfold managementIn
  repeat' (first
    | (simp (maxDischargeDepth := 40) only [h0, hk, implies_true, Kept.refl, kept_mk, kept_regsFilter, keep_State_draw, keep_ptpDrop, keep_queueTime]; done)
    | (split <;> (try (rename_i heq; have hq := congrArg (fun r => Kept a0 (Prod.snd r)) heq; clear heq; simp (maxDischargeDepth := 40) only [h0, hk, implies_true, Kept.refl, kept_mk, kept_regsFilter, keep_State_draw, keep_ptpDrop, keep_queueTime] at hq; first | replace hk := of_eq_true hq.symm | replace hk := hq)))
    | (refine kept_each ?_ ?_)
    | (refine kept_foldl ?_ ?_)
    | (refine kept_foldl2 ?_ ?_)
    | (intro _)
    | (dsimp only))

theorem keep_ptpMessage {a0 s : State} (h0 : Kept a0 s) (stream : Nat) (layer2 : Bool) (ip : Nat) (msg : List Byte) (m : PtpMsg) (rx : Nat) : Kept a0 (ptpMessage stream layer2 ip msg m rx s) := by
  unfold ptpMessage
  dsimp only
  split
  · exact keep_modPtp h0 _
  · split
    · exact keep_modPtp h0 _
    · split
      · exact keep_delayResp h0 _ _ _ _ _
      · split
        · split
          · exact h0
          · have h1 : Kept a0 (s.each (s.dat.ptp.runs.filter (fun r => !layer2 && r.peer == ip)) (fun r t =>
                match r.ex.found m with
                | some (d, u) => probeFound r d u t
                | none => t)) :=
              kept_each h0 (fun r t => by
                split
                · exact keep_probeFound (Kept.refl t) _ _ _
                · exact Kept.refl t)
            split
            · exact keep_slaveMeasures h1 _ _
            · exact h1
        · split
          · exact kept_ite (keep_ptpDrop h0) h0
          · split
            · exact keep_managementIn h0 _ _ _ _ _
            · exact keep_ptpDrop h0

theorem keep_ptpIn {a0 s : State} (h0 : Kept a0 s) (stream off : Nat) (bs : List Byte) (rx : Nat) : Kept a0 (ptpIn stream off bs rx s) := by
  have hk := h0
  unfold ptpIn
  repeat' (first
    | (simp (maxDischargeDepth := 40) only [h0, hk, implies_true, Kept.refl, kept_mk, kept_regsFilter, keep_ptpDrop, keep_ptpMessage]; done)
    | (split <;> (try (rename_i heq; have hq := congrArg (fun r => Kept a0 (Prod.snd r)) heq; clear heq; simp (maxDischargeDepth := 40) only [h0, hk, implies_true, Kept.refl, kept_mk, kept_regsFilter, keep_ptpDrop, keep_ptpMessage] at hq; first | replace hk := of_eq_true hq.symm | replace hk := hq)))
    | (refine kept_each ?_ ?_)
    | (refine kept_foldl ?_ ?_)
    | (refine kept_foldl2 ?_ ?_)
    | (intro _)
    | (dsimp only))

theorem keep_ptpReceive {a0 s : State} (h0 : Kept a0 s) (stream : Nat) (bs : List Byte) (stamp : Nat) : Kept a0 (ptpReceive stream bs stamp s) := by
  have hk := h0
  unfold ptpReceive
  repeat' (first
    | (simp (maxDischargeDepth := 40) only [h0, hk, implies_true, Kept.refl, kept_mk, kept_regsFilter, keep_forwardFrame, keep_ptpIn, keep_rxBad]; done)
    | (split <;> (try (rename_i heq; have hq := congrArg (fun r => Kept a0 (Prod.snd r)) heq; clear heq; simp (maxDischargeDepth := 40) only [h0, hk, implies_true, Kept.refl, kept_mk, kept_regsFilter, keep_forwardFrame, keep_ptpIn, keep_rxBad] at hq; first | replace hk := of_eq_true hq.symm | replace hk := hq)))
    | (refine kept_each ?_ ?_)
    | (refine kept_foldl ?_ ?_)
    | (refine kept_foldl2 ?_ ?_)
    | (intro _)
    | (dsimp only))

theorem keep_forwardLeaves {a0 s : State} (h0 : Kept a0 s) (stream rx : Nat) (bs : List Byte) : Kept a0 (forwardLeaves stream rx bs s) := by
  have hk := h0
  unfold forwardLeaves
  repeat' (first
    | (simp (maxDischargeDepth := 40) only [h0, hk, implies_true, Kept.refl, kept_mk, kept_regsFilter, keep_State_emit, keep_State_inc, keep_State_lndEdge]; done)
    | (split <;> (try (rename_i heq; have hq := congrArg (fun r => Kept a0 (Prod.snd r)) heq; clear heq; simp (maxDischargeDepth := 40) only [h0, hk, implies_true, Kept.refl, kept_mk, kept_regsFilter, keep_State_emit, keep_State_inc, keep_State_lndEdge] at hq; first | replace hk := of_eq_true hq.symm | replace hk := hq)))
    | (refine kept_each ?_ ?_)
    | (refine kept_foldl ?_ ?_)
    | (refine kept_foldl2 ?_ ?_)
    | (intro _)
    | (dsimp only))

theorem keep_frameTransmit {a0 s : State} (h0 : Kept a0 s) (stream : Nat) : Kept a0 (frameTransmit stream s) := by
  unfold frameTransmit
  repeat' (first | split | (simp (maxDischargeDepth := 40) only [h0, implies_true, Kept.refl, kept_mk, kept_regsFilter, keep_forwardLeaves, keep_lndIdle, keep_lndSend, keep_lndSwapDue, keep_timeLeaves]; done) | dsimp only)

theorem keep_State_rxEdge {a0 s : State} (h0 : Kept a0 s) (age : Nat) : Kept a0 (State.rxEdge s age).2 := by simp (maxDischargeDepth := 40) only [State.rxEdge, h0, implies_true, Kept.refl, kept_mk, kept_regsFilter, keep_State_lndEdge]

theorem keep_frameReceive {a0 s : State} (h0 : Kept a0 s) (cellIn : LndAddr → List Byte → State → State) (stream : Nat) (bs : List Byte) (age : Nat) (err : Bool) (hcellIn : ∀ x0 x1 x2, Kept x2 (cellIn x0 x1 x2)) : Kept a0 (frameReceive cellIn stream bs age err s) := by
  have hk := h0
  unfold frameReceive
  repeat' (first
    | (simp (maxDischargeDepth := 40) only [h0, hcellIn, fun (b : State) x0 x1 x2 (h : Kept b x2) => Kept.trans h (hcellIn x0 x1 x2), hk, implies_true, Kept.refl, kept_mk, kept_regsFilter, keep_State_rxEdge, keep_bundleIn, keep_forwardFrame, keep_ptpIn, keep_rxBad]; done)
    | (split <;> (try (rename_i heq; have hq := congrArg (fun r => Kept a0 (Prod.snd r)) heq; clear heq; simp (maxDischargeDepth := 40) only [h0, hcellIn, fun (b : State) x0 x1 x2 (h : Kept b x2) => Kept.trans h (hcellIn x0 x1 x2), hk, implies_true, Kept.refl, kept_mk, kept_regsFilter, keep_State_rxEdge, keep_bundleIn, keep_forwardFrame, keep_ptpIn, keep_rxBad] at hq; first | replace hk := of_eq_true hq.symm | replace hk := hq)))
    | (refine kept_each ?_ ?_)
    | (refine kept_foldl ?_ ?_)
    | (refine kept_foldl2 ?_ ?_)
    | (intro _)
    | (dsimp only))

theorem keep_timeProbeCmd {a0 s : State} (h0 : Kept a0 s) (c : Cmd) : Kept a0 (timeProbeCmd c s).2 := by
  have hk := h0
  unfold timeProbeCmd
  repeat' (first
    | (simp (maxDischargeDepth := 40) only [h0, hk, implies_true, Kept.refl, kept_mk, kept_regsFilter, keep_ans, keep_ansWith, keep_delayReqTo, keep_modPtp]; done)
    | (split <;> (try (rename_i heq; have hq := congrArg (fun r => Kept a0 (Prod.snd r)) heq; clear heq; simp (maxDischargeDepth := 40) only [h0, hk, implies_true, Kept.refl, kept_mk, kept_regsFilter, keep_ans, keep_ansWith, keep_delayReqTo, keep_modPtp] at hq; first | replace hk := of_eq_true hq.symm | replace hk := hq)))
    | (refine kept_each ?_ ?_)
    | (refine kept_foldl ?_ ?_)
    | (refine kept_foldl2 ?_ ?_)
    | (intro _)
    | (dsimp only))

theorem keep_timeProbeDone {a0 s : State} (h0 : Kept a0 s) (id : Nat) : Kept a0 (timeProbeDone id s) := by simp (maxDischargeDepth := 40) only [timeProbeDone, h0, implies_true, Kept.refl, kept_mk, kept_regsFilter, keep_finishJob, keep_modPtp]

/-! ### MemPort.lean -/

theorem keep_accessFails {a0 s : State} (h0 : Kept a0 s)  : Kept a0 (accessFails s) := by
  unfold accessFails; split <;> simp (maxDischargeDepth := 40) only [h0, implies_true, Kept.refl, kept_mk, kept_regsFilter, keep_State_evt, keep_State_inc]

theorem keep_portErrorMet {a0 s : State} (h0 : Kept a0 s) (a n : Nat) : Kept a0 (portErrorMet a n s) := by simp (maxDischargeDepth := 40) only [portErrorMet, h0, implies_true, Kept.refl, kept_mk, kept_regsFilter]

theorem keep_portAsk {a0 s : State} (h0 : Kept a0 s) (write : Bool) (a : Nat) (bs : List Byte) (ps : List (Nat × Nat)) : Kept a0 (portAsk write a bs ps s) := by simp (maxDischargeDepth := 40) only [portAsk, h0, implies_true, Kept.refl, kept_mk, kept_regsFilter, keep_State_each, keep_State_emit]

theorem keep_requestsFail {a0 s : State} (h0 : Kept a0 s) (ps : List (Nat × Nat)) : Kept a0 (requestsFail ps s) := by simp (maxDischargeDepth := 40) only [requestsFail, h0, implies_true, Kept.refl, kept_mk, kept_regsFilter, keep_State_each, keep_accessFails]

theorem keep_loadBytes {a0 s : State} (h0 : Kept a0 s) (a n : Nat) : Kept a0 (loadBytes a n s).2 := by
  have hk := h0
  unfold loadBytes
  repeat' (first
    | (simp (maxDischargeDepth := 40) only [h0, hk, implies_true, Kept.refl, kept_mk, kept_regsFilter, keep_State_inc, keep_accessFails, keep_portAsk, keep_portErrorMet, keep_requestsFail]; done)
    | (split <;> (try (rename_i heq; have hq := congrArg (fun r => Kept a0 (Prod.snd r)) heq; clear heq; simp (maxDischargeDepth := 40) only [h0, hk, implies_true, Kept.refl, kept_mk, kept_regsFilter, keep_State_inc, keep_accessFails, keep_portAsk, keep_portErrorMet, keep_requestsFail] at hq; first | replace hk := of_eq_true hq.symm | replace hk := hq)))
    | (refine kept_each ?_ ?_)
    | (refine kept_foldl ?_ ?_)
    | (refine kept_foldl2 ?_ ?_)
    | (intro _)
    | (dsimp only))

theorem keep_State_setMem {a0 s : State} (h0 : Kept a0 s) (m : List Host.Cell) (hm : memWf s.mem = true → memWf m = true) :
    Kept a0 (s.setMem m) := by
  unfold State.mem at hm
  unfold State.setMem
  split
  · next h => rw [if_pos h] at hm; exact h0.trans ⟨rfl, rfl, id, id, hm, Nat.le_refl _, List.prefix_refl _⟩
  · next h => rw [if_neg h] at hm; exact h0.trans ⟨rfl, rfl, id, hm, id, Nat.le_refl _, List.prefix_refl _⟩

theorem storePieces_wf (a : Nat) (bs : List Byte) (ps : List (Nat × Nat)) (m : List Host.Cell) (h : memWf m = true) :
    memWf (storePieces a bs m ps) = true := by
  induction ps generalizing m with
  | nil => exact h
  | cons p ps ih => exact ih _ (wf_memWrite m p.1 _ h)

theorem portAsk_mem (w : Bool) (a : Nat) (bs : List Byte) (ps : List (Nat × Nat)) (s : State) : (portAsk w a bs ps s).mem = s.mem := by
  induction ps generalizing s with
  | nil => rfl
  | cons p ps ih => exact ih _

theorem keep_storeBytes {a0 s : State} (h0 : Kept a0 s) (a : Nat) (bs : List Byte) : Kept a0 (storeBytes a bs s).2 := by
  unfold storeBytes
  split
  · exact keep_accessFails h0
  · dsimp only
    have h1 : Kept a0 (portAsk true a bs ((s.requests a bs.length).filter s.reqUp) s) := keep_portAsk h0 ..
    have hm := portAsk_mem true a bs ((s.requests a bs.length).filter s.reqUp) s
    generalize portAsk true a bs ((s.requests a bs.length).filter s.reqUp) s = s1 at *
    rw [← hm]
    have h2 : Kept a0 (s1.setMem (memWrite s1.mem a bs)) := keep_State_setMem h1 _ (wf_memWrite s1.mem a bs)
    have h3 : ∀ ps, Kept a0 (s1.setMem (storePieces a bs s1.mem ps)) := fun ps =>
      keep_State_setMem h1 _ (storePieces_wf a bs ps s1.mem)
    refine kept_ite2 (keep_portErrorMet h1 _ _) (kept_ite2 (kept_ite (keep_State_inc h2 _ _) h2) ?_)
    exact keep_requestsFail (keep_State_inc (h3 _) _ _) _

theorem keep_keptErrorMet {a0 s : State} (h0 : Kept a0 s)  : Kept a0 (keptErrorMet s) := by
  unfold keptErrorMet; split <;> simp (maxDischargeDepth := 40) only [h0, implies_true, Kept.refl, kept_mk, kept_regsFilter, keep_accessFails]

theorem keep_keptReads {a0 s : State} (h0 : Kept a0 s)  : Kept a0 (keptReads s).2 := by
  have hk := h0
  unfold keptReads
  repeat' (first
    | (simp (maxDischargeDepth := 40) only [h0, hk, implies_true, Kept.refl, kept_mk, kept_regsFilter, keep_State_draw, keep_keptErrorMet]; done)
    | (split <;> (try (rename_i heq; have hq := congrArg (fun r => Kept a0 (Prod.snd r)) heq; clear heq; simp (maxDischargeDepth := 40) only [h0, hk, implies_true, Kept.refl, kept_mk, kept_regsFilter, keep_State_draw, keep_keptErrorMet] at hq; first | replace hk := of_eq_true hq.symm | replace hk := hq)))
    | (refine kept_each ?_ ?_)
    | (refine kept_foldl ?_ ?_)
    | (refine kept_foldl2 ?_ ?_)
    | (intro _)
    | (dsimp only))

theorem keep_holdReadError {a0 s : State} (h0 : Kept a0 s) (port : Nat) : Kept a0 (holdReadError port s) := by
  unfold holdReadError; split <;> simp (maxDischargeDepth := 40) only [h0, implies_true, Kept.refl, kept_mk, kept_regsFilter, keep_accessFails, keep_faultLine]

theorem keep_hostMasterError {a0 s : State} (h0 : Kept a0 s)  : Kept a0 (hostMasterError s) := by
  unfold hostMasterError; split <;> simp (maxDischargeDepth := 40) only [h0, implies_true, Kept.refl, kept_mk, kept_regsFilter, keep_faultLine]

theorem keep_holdTrainingLoss {a0 s : State} (h0 : Kept a0 s) (port : Nat) : Kept a0 (holdTrainingLoss port s) := by
  unfold holdTrainingLoss; split <;> simp (maxDischargeDepth := 40) only [h0, implies_true, Kept.refl, kept_mk, kept_regsFilter, keep_State_evt, keep_faultLine]

theorem keep_storeRing {a0 s : State} (h0 : Kept a0 s) (base size pos : Nat) (bs : List Byte) : Kept a0 (storeRing base size pos bs s) := by
  have hk := h0
  unfold storeRing
  repeat' (first
    | (simp (maxDischargeDepth := 40) only [h0, hk, implies_true, Kept.refl, kept_mk, kept_regsFilter, keep_storeBytes]; done)
    | (split <;> (try (rename_i heq; have hq := congrArg (fun r => Kept a0 (Prod.snd r)) heq; clear heq; simp (maxDischargeDepth := 40) only [h0, hk, implies_true, Kept.refl, kept_mk, kept_regsFilter, keep_storeBytes] at hq; first | replace hk := of_eq_true hq.symm | replace hk := hq)))
    | (refine kept_each ?_ ?_)
    | (refine kept_foldl ?_ ?_)
    | (refine kept_foldl2 ?_ ?_)
    | (intro _)
    | (dsimp only))

/-! ### Admission.lean -/

theorem keep_admApply {a0 s0 : State} (h0 : Kept a0 s0)  : Kept a0 (admApply s0) := by
  have hk := h0
  unfold admApply
  repeat' (first
    | (simp (maxDischargeDepth := 40) only [h0, hk, implies_true, Kept.refl, kept_mk, kept_regsFilter, keep_State_wr]; done)
    | (split <;> (try (rename_i heq; have hq := congrArg (fun r => Kept a0 (Prod.snd r)) heq; clear heq; simp (maxDischargeDepth := 40) only [h0, hk, implies_true, Kept.refl, kept_mk, kept_regsFilter, keep_State_wr] at hq; first | replace hk := of_eq_true hq.symm | replace hk := hq)))
    | (refine kept_each ?_ ?_)
    | (refine kept_foldl ?_ ?_)
    | (refine kept_foldl2 ?_ ?_)
    | (intro _)
    | (dsimp only))

theorem keep_refuseLeave {a0 s : State} (h0 : Kept a0 s) (p : LeaveFor) (waited : Bool) : Kept a0 (refuseLeave p waited s) := by simp (maxDischargeDepth := 40) only [refuseLeave, h0, implies_true, Kept.refl, kept_mk, kept_regsFilter, keep_State_evt, keep_State_inc, keep_State_later]

theorem keep_admPresent {a0 s : State} (h0 : Kept a0 s)  : Kept a0 (admPresent s) := by simp (maxDischargeDepth := 40) only [admPresent, h0, implies_true, Kept.refl, kept_mk, kept_regsFilter, keep_State_each, keep_State_evt, keep_admApply, keep_refuseLeave]

theorem keep_askLeave {a0 s : State} (h0 : Kept a0 s) (unit cls amt : Nat) (p : LeaveFor) : Kept a0 (askLeave unit cls amt p s) := by simp (maxDischargeDepth := 40) only [askLeave, h0, implies_true, Kept.refl, kept_mk, kept_regsFilter, keep_State_inc, keep_admPresent]

theorem keep_leaveGrant {a0 s : State} (h0 : Kept a0 s)  : Kept a0 (leaveGrant s) := by
  unfold leaveGrant; split <;> simp (maxDischargeDepth := 40) only [h0, implies_true, Kept.refl, kept_mk, kept_regsFilter, keep_State_later, keep_State_maxR, keep_admPresent]

theorem keep_leaveExpiry {a0 s : State} (h0 : Kept a0 s)  : Kept a0 (leaveExpiry s) := by
  unfold leaveExpiry; split <;> simp (maxDischargeDepth := 40) only [h0, implies_true, Kept.refl, kept_mk, kept_regsFilter, keep_State_each, keep_admPresent, keep_refuseLeave]

theorem keep_releaseLeave {a0 s : State} (h0 : Kept a0 s) (p : LeaveFor) : Kept a0 (releaseLeave p s) := by simp (maxDischargeDepth := 40) only [releaseLeave, h0, implies_true, Kept.refl, kept_mk, kept_regsFilter, keep_admPresent]

theorem keep_ownAsk {a0 s : State} (h0 : Kept a0 s) (m : OwnMove) (n : Nat) : Kept a0 (ownAsk m n s) := by
  have hk := h0
  unfold ownAsk
  repeat' (first
    | (simp (maxDischargeDepth := 40) only [h0, hk, implies_true, Kept.refl, kept_mk, kept_regsFilter, keep_askLeave]; done)
    | (split <;> (try (rename_i heq; have hq := congrArg (fun r => Kept a0 (Prod.snd r)) heq; clear heq; simp (maxDischargeDepth := 40) only [h0, hk, implies_true, Kept.refl, kept_mk, kept_regsFilter, keep_askLeave] at hq; first | replace hk := of_eq_true hq.symm | replace hk := hq)))
    | (refine kept_each ?_ ?_)
    | (refine kept_foldl ?_ ?_)
    | (refine kept_foldl2 ?_ ?_)
    | (intro _)
    | (dsimp only))

theorem keep_ownTake {a0 s : State} (h0 : Kept a0 s) (id : Nat) : Kept a0 (ownTake id s).2 := by
  unfold ownTake; split <;> simp (maxDischargeDepth := 40) only [h0, implies_true, Kept.refl, kept_mk, kept_regsFilter]

/-! ### Stow.lean -/

theorem keep_stowWrite {a0 y3 : State} (h0 : Kept a0 y3) (y0 : List StowBlock) (y1 : Nat) (y2 : Nat) : Kept a0 (stowWrite y0 y1 y2 y3).2.2.2.2 := by
  induction y0 generalizing y1 y2 y3 with
  | nil => exact h0
  | cons b bs ih =>
    unfold stowWrite
    split
    · exact h0
    · dsimp only
      refine ih ?_ _ _
      refine keep_State_inc ?_ _ _
      have h1 := keep_memReadBack (keep_memWritten (keep_storeBytes h0 y1 b.bytes) 5 0) 5 0
      split
      · refine keep_faultEdge (keep_State_evt (keep_State_inc ?_ _ _) _ _) _
        exact kept_ite (keep_State_evt (keep_State_inc h1 _ _) _ _) h1
      · exact kept_ite (keep_State_evt (keep_State_inc h1 _ _) _ _) h1

theorem keep_stowRun {a0 s : State} (h0 : Kept a0 s) (c : Cmd) : Kept a0 (stowRun c s).2.2 := by
  unfold stowRun
  have h := keep_loadBytes h0 (c.w64 2) (c.w 4)
  revert h
  generalize loadBytes (c.w64 2) (c.w 4) s = r
  obtain ⟨o, s1⟩ := r
  intro h
  cases o with
  | none => exact h
  | some bs =>
    dsimp only
    generalize (if c.f 8 0 1 = 0 then 0 else 1) = f
    generalize stowBlocks f (stowCodes c) (bs.length + 1) bs = blocks
    have h2 := keep_stowWrite h blocks (c.w64 5) (c.w 7)
    revert h2
    generalize stowWrite blocks (c.w64 5) (c.w 7) s1 = r
    obtain ⟨n, k, r, ok, s2⟩ := r
    intro h2
    cases ok
    · exact keep_State_evt (keep_State_inc (keep_storeBytes h2 _ _) _ _) _ _
    · dsimp only
      split
      · exact h2
      · exact keep_State_evt (keep_State_inc h2 _ _) _ _

theorem keep_holdWait {a0 s : State} (h0 : Kept a0 s)  : Kept a0 (holdWait s).2 := by simp (maxDischargeDepth := 40) only [holdWait, h0, implies_true, Kept.refl, kept_mk, kept_regsFilter, keep_askLeave]

theorem keep_finished {a0 s : State} (h0 : Kept a0 s) (c : Cmd) (status : Nat) (results : List Word) : Kept a0 (finished c status results s).2 := by
  have hk := h0
  unfold finished
  repeat' (first
    | (simp (maxDischargeDepth := 40) only [h0, hk, implies_true, Kept.refl, kept_mk, kept_regsFilter, keep_State_inc]; done)
    | (split <;> (try (rename_i heq; have hq := congrArg (fun r => Kept a0 (Prod.snd r)) heq; clear heq; simp (maxDischargeDepth := 40) only [h0, hk, implies_true, Kept.refl, kept_mk, kept_regsFilter, keep_State_inc] at hq; first | replace hk := of_eq_true hq.symm | replace hk := hq)))
    | (refine kept_each ?_ ?_)
    | (refine kept_foldl ?_ ?_)
    | (refine kept_foldl2 ?_ ?_)
    | (intro _)
    | (dsimp only))

theorem keep_stowJob {a0 s : State} (h0 : Kept a0 s) (c : Cmd) : Kept a0 (stowJob c s).2 := by
  have hk := h0
  unfold stowJob
  repeat' (first
    | (simp (maxDischargeDepth := 40) only [h0, hk, implies_true, Kept.refl, kept_mk, kept_regsFilter, keep_ans, keep_askLeave, keep_finished, keep_holdWait, keep_stowRun]; done)
    | (split <;> (try (rename_i heq; have hq := congrArg (fun r => Kept a0 (Prod.snd r)) heq; clear heq; simp (maxDischargeDepth := 40) only [h0, hk, implies_true, Kept.refl, kept_mk, kept_regsFilter, keep_ans, keep_askLeave, keep_finished, keep_holdWait, keep_stowRun] at hq; first | replace hk := of_eq_true hq.symm | replace hk := hq)))
    | (refine kept_each ?_ ?_)
    | (refine kept_foldl ?_ ?_)
    | (refine kept_foldl2 ?_ ?_)
    | (intro _)
    | (dsimp only))

theorem keep_stowNext {a0 s : State} (h0 : Kept a0 s)  : Kept a0 (stowNext s) := by
  have hk := h0
  unfold stowNext
  repeat' (first
    | (simp (maxDischargeDepth := 40) only [h0, hk, implies_true, Kept.refl, kept_mk, kept_regsFilter, keep_State_each, keep_askLeave, keep_finishJob, keep_modJob, keep_stowRun]; done)
    | (split <;> (try (rename_i heq; have hq := congrArg (fun r => Kept a0 (Prod.snd r)) heq; clear heq; simp (maxDischargeDepth := 40) only [h0, hk, implies_true, Kept.refl, kept_mk, kept_regsFilter, keep_State_each, keep_askLeave, keep_finishJob, keep_modJob, keep_stowRun] at hq; first | replace hk := of_eq_true hq.symm | replace hk := hq)))
    | (refine kept_each ?_ ?_)
    | (refine kept_foldl ?_ ?_)
    | (refine kept_foldl2 ?_ ?_)
    | (intro _)
    | (dsimp only))

theorem keep_stowGranted {a0 s : State} (h0 : Kept a0 s) (id : Nat) : Kept a0 (stowGranted id s) := by
  have hk := h0
  unfold stowGranted
  repeat' (first
    | (simp (maxDischargeDepth := 40) only [h0, hk, implies_true, Kept.refl, kept_mk, kept_regsFilter, keep_finishJob, keep_modJob, keep_releaseLeave, keep_stowNext, keep_stowRun]; done)
    | (split <;> (try (rename_i heq; have hq := congrArg (fun r => Kept a0 (Prod.snd r)) heq; clear heq; simp (maxDischargeDepth := 40) only [h0, hk, implies_true, Kept.refl, kept_mk, kept_regsFilter, keep_finishJob, keep_modJob, keep_releaseLeave, keep_stowNext, keep_stowRun] at hq; first | replace hk := of_eq_true hq.symm | replace hk := hq)))
    | (refine kept_each ?_ ?_)
    | (refine kept_foldl ?_ ?_)
    | (refine kept_foldl2 ?_ ?_)
    | (intro _)
    | (dsimp only))

theorem keep_stowRefused {a0 s : State} (h0 : Kept a0 s) (id : Nat) : Kept a0 (stowRefused id s) := by simp (maxDischargeDepth := 40) only [stowRefused, h0, implies_true, Kept.refl, kept_mk, kept_regsFilter, keep_finishJob, keep_stowNext]

theorem keep_stowQuiesce {a0 s : State} (h0 : Kept a0 s)  : Kept a0 (stowQuiesce s) := by simp (maxDischargeDepth := 40) only [stowQuiesce, h0, implies_true, Kept.refl, kept_mk, kept_regsFilter, keep_State_each, keep_finishJob, keep_releaseLeave]

theorem keep_seriesPut {a0 s : State} (h0 : Kept a0 s) (rec_ : List Byte) : Kept a0 (seriesPut rec_ s) := by
  have hk := h0
  unfold seriesPut
  repeat' (first
    | (simp (maxDischargeDepth := 40) only [h0, hk, implies_true, Kept.refl, kept_mk, kept_regsFilter, keep_State_inc, keep_sendLanding, keep_storeRing]; done)
    | (split <;> (try (rename_i heq; have hq := congrArg (fun r => Kept a0 (Prod.snd r)) heq; clear heq; simp (maxDischargeDepth := 40) only [h0, hk, implies_true, Kept.refl, kept_mk, kept_regsFilter, keep_State_inc, keep_sendLanding, keep_storeRing] at hq; first | replace hk := of_eq_true hq.symm | replace hk := hq)))
    | (refine kept_each ?_ ?_)
    | (refine kept_foldl ?_ ?_)
    | (refine kept_foldl2 ?_ ?_)
    | (intro _)
    | (dsimp only))

theorem keep_seriesWrite {a0 s : State} (h0 : Kept a0 s) (station parcel : Nat) (body : List Byte) : Kept a0 (seriesWrite station parcel body s) := by
  have hk := h0
  unfold seriesWrite
  repeat' (first
    | (simp (maxDischargeDepth := 40) only [h0, hk, implies_true, Kept.refl, kept_mk, kept_regsFilter, keep_ownAsk, keep_seriesPut]; done)
    | (split <;> (try (rename_i heq; have hq := congrArg (fun r => Kept a0 (Prod.snd r)) heq; clear heq; simp (maxDischargeDepth := 40) only [h0, hk, implies_true, Kept.refl, kept_mk, kept_regsFilter, keep_ownAsk, keep_seriesPut] at hq; first | replace hk := of_eq_true hq.symm | replace hk := hq)))
    | (refine kept_each ?_ ?_)
    | (refine kept_foldl ?_ ?_)
    | (refine kept_foldl2 ?_ ?_)
    | (intro _)
    | (dsimp only))

/-! ### RulingCore.lean -/

theorem keep_armStopSlot {a0 s : State} (h0 : Kept a0 s) (m t : Nat) : Kept a0 (armStopSlot m t s) := by simp (maxDischargeDepth := 40) only [armStopSlot, h0, implies_true, Kept.refl, kept_mk, kept_regsFilter, keep_State_wr, keep_State_wrTime]

theorem keep_dropPend {a0 s : State} (h0 : Kept a0 s) (f : Ruling → Bool) : Kept a0 (dropPend f s) := by simp (maxDischargeDepth := 40) only [dropPend, h0, implies_true, Kept.refl, kept_mk, kept_regsFilter]

theorem keep_countRefusal {a0 s : State} (h0 : Kept a0 s) (st : Nat) : Kept a0 (countRefusal st s) := by
  unfold countRefusal; split <;> simp (maxDischargeDepth := 40) only [h0, implies_true, Kept.refl, kept_mk, kept_regsFilter, keep_State_evt, keep_State_inc]

theorem keep_applyRelease {a0 s : State} (h0 : Kept a0 s) (r : Ruling) : Kept a0 (applyRelease r s) := by simp (maxDischargeDepth := 40) only [applyRelease, h0, implies_true, Kept.refl, kept_mk, kept_regsFilter, keep_State_each, keep_State_modCtx]

theorem keep_applyCommit {a0 s : State} (h0 : Kept a0 s) (r : Ruling) : Kept a0 (applyCommit r s) := by simp (maxDischargeDepth := 40) only [applyCommit, h0, implies_true, Kept.refl, kept_mk, kept_regsFilter, keep_State_each, keep_State_inc, keep_State_modCtx, keep_applyRelease, keep_countRefusal, keep_dropPend]

theorem keep_rulingAccept {a0 s : State} (h0 : Kept a0 s) (r : Ruling) : Kept a0 (rulingAccept r s) := by
  have hk := h0
  unfold rulingAccept
  repeat' (first
    | (simp (maxDischargeDepth := 40) only [h0, hk, implies_true, Kept.refl, kept_mk, kept_regsFilter, keep_State_inc, keep_State_putB, keep_State_wr, keep_applyCommit, keep_applyRelease, keep_armStopSlot]; done)
    | (split <;> (try (rename_i heq; have hq := congrArg (fun r => Kept a0 (Prod.snd r)) heq; clear heq; simp (maxDischargeDepth := 40) only [h0, hk, implies_true, Kept.refl, kept_mk, kept_regsFilter, keep_State_inc, keep_State_putB, keep_State_wr, keep_applyCommit, keep_applyRelease, keep_armStopSlot] at hq; first | replace hk := of_eq_true hq.symm | replace hk := hq)))
    | (refine kept_each ?_ ?_)
    | (refine kept_foldl ?_ ?_)
    | (refine kept_foldl2 ?_ ?_)
    | (intro _)
    | (dsimp only))

theorem keep_rulingTo {a0 s : State} (h0 : Kept a0 s) (r : Ruling) (st : Nat) : Kept a0 (rulingTo r st s) := by
  unfold rulingTo; split <;> simp (maxDischargeDepth := 40) only [h0, implies_true, Kept.refl, kept_mk, kept_regsFilter, keep_sendTo, keep_sendTray]

theorem keep_rulingForward {a0 s : State} (h0 : Kept a0 s) (r : Ruling) : Kept a0 (rulingForward r s) := by simp (maxDischargeDepth := 40) only [rulingForward, h0, implies_true, Kept.refl, kept_mk, kept_regsFilter, keep_State_each, keep_rulingTo, keep_sendTyped]

theorem keep_sendAck {a0 s : State} (h0 : Kept a0 s) (x : RulingSeen) : Kept a0 (sendAck x s) := by
  unfold sendAck; split <;> simp (maxDischargeDepth := 40) only [h0, implies_true, Kept.refl, kept_mk, kept_regsFilter, keep_State_emit, keep_finishJob]

theorem keep_modSeen {a0 s : State} (h0 : Kept a0 s) (issuer no : Nat) (f : RulingSeen → RulingSeen) : Kept a0 (modSeen issuer no f s) := by simp (maxDischargeDepth := 40) only [modSeen, h0, implies_true, Kept.refl, kept_mk, kept_regsFilter]

theorem keep_ackWhenDone {a0 s : State} (h0 : Kept a0 s) (issuer no : Nat) : Kept a0 (ackWhenDone issuer no s) := by
  have hk := h0
  unfold ackWhenDone
  repeat' (first
    | (simp (maxDischargeDepth := 40) only [h0, hk, implies_true, Kept.refl, kept_mk, kept_regsFilter, keep_modSeen, keep_sendAck]; done)
    | (split <;> (try (rename_i heq; have hq := congrArg (fun r => Kept a0 (Prod.snd r)) heq; clear heq; simp (maxDischargeDepth := 40) only [h0, hk, implies_true, Kept.refl, kept_mk, kept_regsFilter, keep_modSeen, keep_sendAck] at hq; first | replace hk := of_eq_true hq.symm | replace hk := hq)))
    | (refine kept_each ?_ ?_)
    | (refine kept_foldl ?_ ?_)
    | (refine kept_foldl2 ?_ ?_)
    | (intro _)
    | (dsimp only))

theorem keep_rulingArrive {a0 s : State} (h0 : Kept a0 s) (ok : Bool) (ackTo : AckTo) (r : Ruling) : Kept a0 (rulingArrive ok ackTo r s) := by
  have hk := h0
  unfold rulingArrive
  repeat' (first
    | (simp (maxDischargeDepth := 40) only [h0, hk, implies_true, Kept.refl, kept_mk, kept_regsFilter, keep_State_inc, keep_ackWhenDone, keep_countRefusal, keep_rulingAccept, keep_rulingForward, keep_sendAck]; done)
    | (split <;> (try (rename_i heq; have hq := congrArg (fun r => Kept a0 (Prod.snd r)) heq; clear heq; simp (maxDischargeDepth := 40) only [h0, hk, implies_true, Kept.refl, kept_mk, kept_regsFilter, keep_State_inc, keep_ackWhenDone, keep_countRefusal, keep_rulingAccept, keep_rulingForward, keep_sendAck] at hq; first | replace hk := of_eq_true hq.symm | replace hk := hq)))
    | (refine kept_each ?_ ?_)
    | (refine kept_foldl ?_ ?_)
    | (refine kept_foldl2 ?_ ?_)
    | (intro _)
    | (dsimp only))

theorem keep_rulingAckIn {a0 s : State} (h0 : Kept a0 s) (a : RulingAck) : Kept a0 (rulingAckIn a s) := by
  have hk := h0
  unfold rulingAckIn
  repeat' (first
    | (simp (maxDischargeDepth := 40) only [h0, hk, implies_true, Kept.refl, kept_mk, kept_regsFilter, keep_ackWhenDone, keep_modSeen]; done)
    | (split <;> (try (rename_i heq; have hq := congrArg (fun r => Kept a0 (Prod.snd r)) heq; clear heq; simp (maxDischargeDepth := 40) only [h0, hk, implies_true, Kept.refl, kept_mk, kept_regsFilter, keep_ackWhenDone, keep_modSeen] at hq; first | replace hk := of_eq_true hq.symm | replace hk := hq)))
    | (refine kept_each ?_ ?_)
    | (refine kept_foldl ?_ ?_)
    | (refine kept_foldl2 ?_ ?_)
    | (intro _)
    | (dsimp only))

theorem keep_rulingResend {a0 s : State} (h0 : Kept a0 s) (issuer no child : Nat) : Kept a0 (rulingResend issuer no child s) := by
  have hk := h0
  unfold rulingResend
  repeat' (first
    | (simp (maxDischargeDepth := 40) only [h0, hk, implies_true, Kept.refl, kept_mk, kept_regsFilter, keep_ackWhenDone, keep_modSeen, keep_rulingTo]; done)
    | (split <;> (try (rename_i heq; have hq := congrArg (fun r => Kept a0 (Prod.snd r)) heq; clear heq; simp (maxDischargeDepth := 40) only [h0, hk, implies_true, Kept.refl, kept_mk, kept_regsFilter, keep_ackWhenDone, keep_modSeen, keep_rulingTo] at hq; first | replace hk := of_eq_true hq.symm | replace hk := hq)))
    | (refine kept_each ?_ ?_)
    | (refine kept_foldl ?_ ?_)
    | (refine kept_foldl2 ?_ ?_)
    | (intro _)
    | (dsimp only))

theorem keep_issueRuling {a0 s : State} (h0 : Kept a0 s) (ackTo : AckTo) (r : Ruling) : Kept a0 (issueRuling ackTo r s) := by simp (maxDischargeDepth := 40) only [issueRuling, h0, implies_true, Kept.refl, kept_mk, kept_regsFilter, keep_State_wr, keep_rulingArrive]

/-! ### Derive.lean -/

theorem keep_afterRecord {a0 s : State} (h0 : Kept a0 s) (n : Nat) (v : RecView) (vs : List Verdict) : Kept a0 (afterRecord n v vs s) := by
  have hk := h0
  unfold afterRecord
  repeat' (first
    | (simp (maxDischargeDepth := 40) only [h0, hk, implies_true, Kept.refl, kept_mk, kept_regsFilter, keep_State_evt, keep_State_inc, keep_State_modCtx, keep_issueRuling]; done)
    | (split <;> (try (rename_i heq; have hq := congrArg (fun r => Kept a0 (Prod.snd r)) heq; clear heq; simp (maxDischargeDepth := 40) only [h0, hk, implies_true, Kept.refl, kept_mk, kept_regsFilter, keep_State_evt, keep_State_inc, keep_State_modCtx, keep_issueRuling] at hq; first | replace hk := of_eq_true hq.symm | replace hk := hq)))
    | (refine kept_each ?_ ?_)
    | (refine kept_foldl ?_ ?_)
    | (refine kept_foldl2 ?_ ?_)
    | (intro _)
    | (dsimp only))

/-! ### Taps.lean -/

theorem keep_State_setPod {a0 s : State} (h0 : Kept a0 s) (p : Nat) (x : PodSt) : Kept a0 (State.setPod s p x) := by simp (maxDischargeDepth := 40) only [State.setPod, h0, implies_true, Kept.refl, kept_mk, kept_regsFilter]

theorem keep_countLanes {a0 s : State} (h0 : Kept a0 s) (ls : List TapLane) : Kept a0 (countLanes ls s) := by
  have hk := h0
  unfold countLanes
  repeat' (first
    | (simp (maxDischargeDepth := 40) only [h0, hk, implies_true, Kept.refl, kept_mk, kept_regsFilter, keep_State_each, keep_State_setPod]; done)
    | (split <;> (try (rename_i heq; have hq := congrArg (fun r => Kept a0 (Prod.snd r)) heq; clear heq; simp (maxDischargeDepth := 40) only [h0, hk, implies_true, Kept.refl, kept_mk, kept_regsFilter, keep_State_each, keep_State_setPod] at hq; first | replace hk := of_eq_true hq.symm | replace hk := hq)))
    | (refine kept_each ?_ ?_)
    | (refine kept_foldl ?_ ?_)
    | (refine kept_foldl2 ?_ ?_)
    | (intro _)
    | (dsimp only))

theorem keep_podClock {a0 s : State} (h0 : Kept a0 s) (off : Nat) (running : Bool) : Kept a0 (podClock off running s) := by
  unfold podClock; split <;> simp (maxDischargeDepth := 40) only [h0, implies_true, Kept.refl, kept_mk, kept_regsFilter]

theorem keep_mapIdentity {a0 s : State} (h0 : Kept a0 s) (p : Nat) : Kept a0 (mapIdentity p s) := by simp (maxDischargeDepth := 40) only [mapIdentity, h0, implies_true, Kept.refl, kept_mk, kept_regsFilter]

theorem keep_modCut {a0 s : State} (h0 : Kept a0 s) (id : Nat) (f : Cut → Cut) : Kept a0 (modCut id f s) := by simp (maxDischargeDepth := 40) only [modCut, h0, implies_true, Kept.refl, kept_mk, kept_regsFilter]

theorem keep_giveSnap {a0 s : State} (h0 : Kept a0 s) (id p : Nat) (x : PodSnap) : Kept a0 (giveSnap id p x s) := by simp (maxDischargeDepth := 40) only [giveSnap, h0, implies_true, Kept.refl, kept_mk, kept_regsFilter, keep_modCut]

theorem keep_podCapture {a0 s : State} (h0 : Kept a0 s) (id p : Nat) : Kept a0 (podCapture id p s) := by simp (maxDischargeDepth := 40) only [podCapture, h0, implies_true, Kept.refl, kept_mk, kept_regsFilter, keep_State_setPod]

theorem keep_takeCut {a0 s : State} (h0 : Kept a0 s)  : Kept a0 (takeCut s).2 := by
  unfold takeCut; split <;> simp (maxDischargeDepth := 40) only [h0, implies_true, Kept.refl, kept_mk, kept_regsFilter, keep_State_each, keep_State_emit, keep_podCapture]

theorem keep_podClear {a0 s : State} (h0 : Kept a0 s) (p first count : Nat) : Kept a0 (podClear p first count s) := by simp (maxDischargeDepth := 40) only [podClear, h0, implies_true, Kept.refl, kept_mk, kept_regsFilter, keep_State_setPod]

theorem keep_podClearAsk {a0 s : State} (h0 : Kept a0 s) (job first count p : Nat) : Kept a0 (podClearAsk job first count p s) := by
  have hk := h0
  unfold podClearAsk
  repeat' (first
    | (simp (maxDischargeDepth := 40) only [h0, hk, implies_true, Kept.refl, kept_mk, kept_regsFilter, keep_State_setPod, keep_podClear]; done)
    | (split <;> (try (rename_i heq; have hq := congrArg (fun r => Kept a0 (Prod.snd r)) heq; clear heq; simp (maxDischargeDepth := 40) only [h0, hk, implies_true, Kept.refl, kept_mk, kept_regsFilter, keep_State_setPod, keep_podClear] at hq; first | replace hk := of_eq_true hq.symm | replace hk := hq)))
    | (refine kept_each ?_ ?_)
    | (refine kept_foldl ?_ ?_)
    | (refine kept_foldl2 ?_ ?_)
    | (intro _)
    | (dsimp only))

theorem keep_clearSettled {a0 s : State} (h0 : Kept a0 s) (job : Nat) : Kept a0 (clearSettled job s) := by
  unfold clearSettled; split <;> simp (maxDischargeDepth := 40) only [h0, implies_true, Kept.refl, kept_mk, kept_regsFilter, keep_finishJob]

theorem keep_deferredCapture {a0 s : State} (h0 : Kept a0 s) (p : Nat) (ls : List TapLane) : Kept a0 (deferredCapture p ls s) := by
  have hk := h0
  unfold deferredCapture
  repeat' (first
    | (simp (maxDischargeDepth := 40) only [h0, hk, implies_true, Kept.refl, kept_mk, kept_regsFilter, keep_State_evt, keep_State_inc, keep_State_setPod, keep_clearSettled, keep_countLanes, keep_podClear]; done)
    | (split <;> (try (rename_i heq; have hq := congrArg (fun r => Kept a0 (Prod.snd r)) heq; clear heq; simp (maxDischargeDepth := 40) only [h0, hk, implies_true, Kept.refl, kept_mk, kept_regsFilter, keep_State_evt, keep_State_inc, keep_State_setPod, keep_clearSettled, keep_countLanes, keep_podClear] at hq; first | replace hk := of_eq_true hq.symm | replace hk := hq)))
    | (refine kept_each ?_ ?_)
    | (refine kept_foldl ?_ ?_)
    | (refine kept_foldl2 ?_ ?_)
    | (intro _)
    | (dsimp only))

theorem keep_snapshotCrossed {a0 s : State} (h0 : Kept a0 s) (p : Nat) : Kept a0 (snapshotCrossed p s) := by
  have hk := h0
  unfold snapshotCrossed
  repeat' (first
    | (simp (maxDischargeDepth := 40) only [h0, hk, implies_true, Kept.refl, kept_mk, kept_regsFilter, keep_State_setPod, keep_giveSnap]; done)
    | (split <;> (try (rename_i heq; have hq := congrArg (fun r => Kept a0 (Prod.snd r)) heq; clear heq; simp (maxDischargeDepth := 40) only [h0, hk, implies_true, Kept.refl, kept_mk, kept_regsFilter, keep_State_setPod, keep_giveSnap] at hq; first | replace hk := of_eq_true hq.symm | replace hk := hq)))
    | (refine kept_each ?_ ?_)
    | (refine kept_foldl ?_ ?_)
    | (refine kept_foldl2 ?_ ?_)
    | (intro _)
    | (dsimp only))

theorem keep_snapshotLate {a0 s : State} (h0 : Kept a0 s) (p : Nat) : Kept a0 (snapshotLate p s) := by
  have hk := h0
  unfold snapshotLate
  repeat' (first
    | (simp (maxDischargeDepth := 40) only [h0, hk, implies_true, Kept.refl, kept_mk, kept_regsFilter, keep_State_evt, keep_State_inc, keep_State_setPod, keep_giveSnap]; done)
    | (split <;> (try (rename_i heq; have hq := congrArg (fun r => Kept a0 (Prod.snd r)) heq; clear heq; simp (maxDischargeDepth := 40) only [h0, hk, implies_true, Kept.refl, kept_mk, kept_regsFilter, keep_State_evt, keep_State_inc, keep_State_setPod, keep_giveSnap] at hq; first | replace hk := of_eq_true hq.symm | replace hk := hq)))
    | (refine kept_each ?_ ?_)
    | (refine kept_foldl ?_ ?_)
    | (refine kept_foldl2 ?_ ?_)
    | (intro _)
    | (dsimp only))

theorem keep_podRise {a0 s : State} (h0 : Kept a0 s) (p : Nat) : Kept a0 (podRise p s) := by
  unfold podRise; split <;> simp (maxDischargeDepth := 40) only [h0, implies_true, Kept.refl, kept_mk, kept_regsFilter, keep_State_setPod, keep_mapIdentity]

theorem keep_podFall {a0 s : State} (h0 : Kept a0 s) (p : Nat) : Kept a0 (podFall p s) := by
  have hk := h0
  unfold podFall
  repeat' (first
    | (simp (maxDischargeDepth := 40) only [h0, hk, implies_true, Kept.refl, kept_mk, kept_regsFilter, keep_State_each, keep_State_setPod, keep_clearSettled, keep_giveSnap]; done)
    | (split <;> (try (rename_i heq; have hq := congrArg (fun r => Kept a0 (Prod.snd r)) heq; clear heq; simp (maxDischargeDepth := 40) only [h0, hk, implies_true, Kept.refl, kept_mk, kept_regsFilter, keep_State_each, keep_State_setPod, keep_clearSettled, keep_giveSnap] at hq; first | replace hk := of_eq_true hq.symm | replace hk := hq)))
    | (refine kept_each ?_ ?_)
    | (refine kept_foldl ?_ ?_)
    | (refine kept_foldl2 ?_ ?_)
    | (intro _)
    | (dsimp only))

theorem keep_pruneCuts {a0 s : State} (h0 : Kept a0 s)  : Kept a0 (pruneCuts s) := by simp (maxDischargeDepth := 40) only [pruneCuts, h0, implies_true, Kept.refl, kept_mk, kept_regsFilter]

theorem keep_gaugeSettle {a0 s : State} (h0 : Kept a0 s) (v : Option Nat) : Kept a0 (gaugeSettle v s) := by
  have hk := h0
  unfold gaugeSettle
  repeat' (first
    | (simp (maxDischargeDepth := 40) only [h0, hk, implies_true, Kept.refl, kept_mk, kept_regsFilter, keep_State_inc, keep_State_wr, keep_modCut]; done)
    | (split <;> (try (rename_i heq; have hq := congrArg (fun r => Kept a0 (Prod.snd r)) heq; clear heq; simp (maxDischargeDepth := 40) only [h0, hk, implies_true, Kept.refl, kept_mk, kept_regsFilter, keep_State_inc, keep_State_wr, keep_modCut] at hq; first | replace hk := of_eq_true hq.symm | replace hk := hq)))
    | (refine kept_each ?_ ?_)
    | (refine kept_foldl ?_ ?_)
    | (refine kept_foldl2 ?_ ?_)
    | (intro _)
    | (dsimp only))

theorem keep_beatTake {a0 s : State} (h0 : Kept a0 s) (n : Nat) : Kept a0 (beatTake n s) := by
  have hk := h0
  unfold beatTake
  repeat' (first
    | (simp (maxDischargeDepth := 40) only [h0, hk, implies_true, Kept.refl, kept_mk, kept_regsFilter, keep_State_each, keep_State_wr]; done)
    | (split <;> (try (rename_i heq; have hq := congrArg (fun r => Kept a0 (Prod.snd r)) heq; clear heq; simp (maxDischargeDepth := 40) only [h0, hk, implies_true, Kept.refl, kept_mk, kept_regsFilter, keep_State_each, keep_State_wr] at hq; first | replace hk := of_eq_true hq.symm | replace hk := hq)))
    | (refine kept_each ?_ ?_)
    | (refine kept_foldl ?_ ?_)
    | (refine kept_foldl2 ?_ ?_)
    | (intro _)
    | (dsimp only))

theorem keep_beatStamped {a0 s : State} (h0 : Kept a0 s) (n edge : Nat) : Kept a0 (beatStamped n edge s) := by
  have hk := h0
  unfold beatStamped
  repeat' (first
    | (simp (maxDischargeDepth := 40) only [h0, hk, implies_true, Kept.refl, kept_mk, kept_regsFilter, keep_State_inc, keep_State_wrTime, keep_beatTake]; done)
    | (split <;> (try (rename_i heq; have hq := congrArg (fun r => Kept a0 (Prod.snd r)) heq; clear heq; simp (maxDischargeDepth := 40) only [h0, hk, implies_true, Kept.refl, kept_mk, kept_regsFilter, keep_State_inc, keep_State_wrTime, keep_beatTake] at hq; first | replace hk := of_eq_true hq.symm | replace hk := hq)))
    | (refine kept_each ?_ ?_)
    | (refine kept_foldl ?_ ?_)
    | (refine kept_foldl2 ?_ ?_)
    | (intro _)
    | (dsimp only))

theorem keep_beatForget {a0 s : State} (h0 : Kept a0 s) (n : Nat) : Kept a0 (beatForget n s) := by simp (maxDischargeDepth := 40) only [beatForget, h0, implies_true, Kept.refl, kept_mk, kept_regsFilter]

theorem keep_pruneBeats {a0 s : State} (h0 : Kept a0 s) (low : Nat) : Kept a0 (pruneBeats low s) := by simp (maxDischargeDepth := 40) only [pruneBeats, h0, implies_true, Kept.refl, kept_mk, kept_regsFilter]

/-! ### Probes.lean -/

theorem keep_trackerUpdate {a0 s : State} (h0 : Kept a0 s) (t y : Nat) : Kept a0 (trackerUpdate t y s).2 := by
  have hk := h0
  unfold trackerUpdate
  repeat' (first
    | (simp (maxDischargeDepth := 40) only [h0, hk, implies_true, Kept.refl, kept_mk, kept_regsFilter, keep_State_wr]; done)
    | (split <;> (try (rename_i heq; have hq := congrArg (fun r => Kept a0 (Prod.snd r)) heq; clear heq; simp (maxDischargeDepth := 40) only [h0, hk, implies_true, Kept.refl, kept_mk, kept_regsFilter, keep_State_wr] at hq; first | replace hk := of_eq_true hq.symm | replace hk := hq)))
    | (refine kept_each ?_ ?_)
    | (refine kept_foldl ?_ ?_)
    | (refine kept_foldl2 ?_ ?_)
    | (intro _)
    | (dsimp only))

theorem keep_trackerStart {a0 s : State} (h0 : Kept a0 s) (t : Nat) : Kept a0 (trackerStart t s) := by simp (maxDischargeDepth := 40) only [trackerStart, h0, implies_true, Kept.refl, kept_mk, kept_regsFilter, keep_State_wr]

theorem keep_trackerVote {a0 s : State} (h0 : Kept a0 s) (n k unit : Nat) : Kept a0 (trackerVote n k unit s) := by
  have hk := h0
  unfold trackerVote
  repeat' (first
    | (simp (maxDischargeDepth := 40) only [h0, hk, implies_true, Kept.refl, kept_mk, kept_regsFilter, keep_State_evt, keep_State_inc, keep_raiseVote]; done)
    | (split <;> (try (rename_i heq; have hq := congrArg (fun r => Kept a0 (Prod.snd r)) heq; clear heq; simp (maxDischargeDepth := 40) only [h0, hk, implies_true, Kept.refl, kept_mk, kept_regsFilter, keep_State_evt, keep_State_inc, keep_raiseVote] at hq; first | replace hk := of_eq_true hq.symm | replace hk := hq)))
    | (refine kept_each ?_ ?_)
    | (refine kept_foldl ?_ ?_)
    | (refine kept_foldl2 ?_ ?_)
    | (intro _)
    | (dsimp only))

theorem keep_feedTrackers {a0 s : State} (h0 : Kept a0 s) (n k parcel : Nat) (vs : List ProbeVal) : Kept a0 (feedTrackers n k parcel vs s) := by
  unfold feedTrackers
  refine kept_each h0 (fun e t => ?_)
  have h := keep_trackerUpdate (Kept.refl t) e.1 e.2.raw
  revert h
  generalize trackerUpdate e.1 e.2.raw t = r
  obtain ⟨hit, t1⟩ := r
  intro h
  exact kept_ite (keep_trackerVote h _ _ _) h

theorem keep_noteSat {a0 s : State} (h0 : Kept a0 s) (n : Nat) (m : Bool) : Kept a0 (noteSat n m s) := by
  have hk := h0
  unfold noteSat
  repeat' (first
    | (simp (maxDischargeDepth := 40) only [h0, hk, implies_true, Kept.refl, kept_mk, kept_regsFilter, keep_State_evt, keep_State_inc]; done)
    | (split <;> (try (rename_i heq; have hq := congrArg (fun r => Kept a0 (Prod.snd r)) heq; clear heq; simp (maxDischargeDepth := 40) only [h0, hk, implies_true, Kept.refl, kept_mk, kept_regsFilter, keep_State_evt, keep_State_inc] at hq; first | replace hk := of_eq_true hq.symm | replace hk := hq)))
    | (refine kept_each ?_ ?_)
    | (refine kept_foldl ?_ ?_)
    | (refine kept_foldl2 ?_ ?_)
    | (intro _)
    | (dsimp only))

theorem keep_sketchEnter {a0 s : State} (h0 : Kept a0 s) (n k : Nat) (p : ProbeEnt) (r : ProbeRead) (sat : Bool) (raws : List Nat) : Kept a0 (sketchEnter n k p r sat raws s) := by
  have hk := h0
  unfold sketchEnter
  repeat' (first
    | (simp (maxDischargeDepth := 40) only [h0, hk, implies_true, Kept.refl, kept_mk, kept_regsFilter, keep_State_modEpoch, keep_noteSat]; done)
    | (split <;> (try (rename_i heq; have hq := congrArg (fun r => Kept a0 (Prod.snd r)) heq; clear heq; simp (maxDischargeDepth := 40) only [h0, hk, implies_true, Kept.refl, kept_mk, kept_regsFilter, keep_State_modEpoch, keep_noteSat] at hq; first | replace hk := of_eq_true hq.symm | replace hk := hq)))
    | (refine kept_each ?_ ?_)
    | (refine kept_foldl ?_ ?_)
    | (refine kept_foldl2 ?_ ?_)
    | (intro _)
    | (dsimp only))

theorem keep_probeEval {a0 s : State} (h0 : Kept a0 s) (n k : Nat) (c : Ctx) (a b : Cut) (p : ProbeEnt) : Kept a0 (probeEval n k c a b p s) := by
  have hk := h0
  unfold probeEval
  repeat' (first
    | (simp (maxDischargeDepth := 40) only [h0, hk, implies_true, Kept.refl, kept_mk, kept_regsFilter, keep_State_evt, keep_State_inc, keep_State_modEpoch, keep_sketchEnter]; done)
    | (split <;> (try (rename_i heq; have hq := congrArg (fun r => Kept a0 (Prod.snd r)) heq; clear heq; simp (maxDischargeDepth := 40) only [h0, hk, implies_true, Kept.refl, kept_mk, kept_regsFilter, keep_State_evt, keep_State_inc, keep_State_modEpoch, keep_sketchEnter] at hq; first | replace hk := of_eq_true hq.symm | replace hk := hq)))
    | (refine kept_each ?_ ?_)
    | (refine kept_foldl ?_ ?_)
    | (refine kept_foldl2 ?_ ?_)
    | (intro _)
    | (dsimp only))

theorem keep_stragglerCheck {a0 s : State} (h0 : Kept a0 s) (n : Nat) (c : Ctx) (e : Epoch) : Kept a0 (stragglerCheck n c e s) := by simp (maxDischargeDepth := 40) only [stragglerCheck, h0, implies_true, Kept.refl, kept_mk, kept_regsFilter, keep_State_each, keep_raiseVote]

theorem keep_seriesBlock {a0 s : State} (h0 : Kept a0 s) (bs : List Byte) : Kept a0 (seriesBlock bs s).2 := by
  have hk := h0
  unfold seriesBlock
  repeat' (first
    | (simp (maxDischargeDepth := 40) only [h0, hk, implies_true, Kept.refl, kept_mk, kept_regsFilter, keep_State_evt, keep_State_inc, keep_faultEdge, keep_memReadBack, keep_memWritten]; done)
    | (split <;> (try (rename_i heq; have hq := congrArg (fun r => Kept a0 (Prod.snd r)) heq; clear heq; simp (maxDischargeDepth := 40) only [h0, hk, implies_true, Kept.refl, kept_mk, kept_regsFilter, keep_State_evt, keep_State_inc, keep_faultEdge, keep_memReadBack, keep_memWritten] at hq; first | replace hk := of_eq_true hq.symm | replace hk := hq)))
    | (refine kept_each ?_ ?_)
    | (refine kept_foldl ?_ ?_)
    | (refine kept_foldl2 ?_ ?_)
    | (intro _)
    | (dsimp only))

theorem keep_seriesSend {a0 s : State} (h0 : Kept a0 s) (k : Nat) (c : Ctx) (vs : List ProbeVal) : Kept a0 (seriesSend k c vs s) := by
  have hk := h0
  unfold seriesSend
  repeat' (first
    | (simp (maxDischargeDepth := 40) only [h0, hk, implies_true, Kept.refl, kept_mk, kept_regsFilter, keep_sendUp, keep_seriesBlock, keep_seriesWrite]; done)
    | (split <;> (try (rename_i heq; have hq := congrArg (fun r => Kept a0 (Prod.snd r)) heq; clear heq; simp (maxDischargeDepth := 40) only [h0, hk, implies_true, Kept.refl, kept_mk, kept_regsFilter, keep_sendUp, keep_seriesBlock, keep_seriesWrite] at hq; first | replace hk := of_eq_true hq.symm | replace hk := hq)))
    | (refine kept_each ?_ ?_)
    | (refine kept_foldl ?_ ?_)
    | (refine kept_foldl2 ?_ ?_)
    | (intro _)
    | (dsimp only))

theorem keep_seriesDiscard {a0 s : State} (h0 : Kept a0 s) (parcel : Nat) : Kept a0 (seriesDiscard parcel s) := by
  have hk := h0
  unfold seriesDiscard
  repeat' (first
    | (simp (maxDischargeDepth := 40) only [h0, hk, implies_true, Kept.refl, kept_mk, kept_regsFilter, keep_State_evt, keep_State_inc, keep_State_setChain]; done)
    | (split <;> (try (rename_i heq; have hq := congrArg (fun r => Kept a0 (Prod.snd r)) heq; clear heq; simp (maxDischargeDepth := 40) only [h0, hk, implies_true, Kept.refl, kept_mk, kept_regsFilter, keep_State_evt, keep_State_inc, keep_State_setChain] at hq; first | replace hk := of_eq_true hq.symm | replace hk := hq)))
    | (refine kept_each ?_ ?_)
    | (refine kept_foldl ?_ ?_)
    | (refine kept_foldl2 ?_ ?_)
    | (intro _)
    | (dsimp only))

theorem keep_evalEpoch {a0 s : State} (h0 : Kept a0 s) (n k : Nat) (a b : Cut) : Kept a0 (evalEpoch n k a b s) := by
  have hk := h0
  unfold evalEpoch
  repeat' (first
    | (simp (maxDischargeDepth := 40) only [h0, hk, implies_true, Kept.refl, kept_mk, kept_regsFilter, keep_State_each, keep_State_modEpoch, keep_State_putB, keep_feedTrackers, keep_probeEval, keep_seriesSend, keep_stragglerCheck]; done)
    | (split <;> (try (rename_i heq; have hq := congrArg (fun r => Kept a0 (Prod.snd r)) heq; clear heq; simp (maxDischargeDepth := 40) only [h0, hk, implies_true, Kept.refl, kept_mk, kept_regsFilter, keep_State_each, keep_State_modEpoch, keep_State_putB, keep_feedTrackers, keep_probeEval, keep_seriesSend, keep_stragglerCheck] at hq; first | replace hk := of_eq_true hq.symm | replace hk := hq)))
    | (refine kept_each ?_ ?_)
    | (refine kept_foldl ?_ ?_)
    | (refine kept_foldl2 ?_ ?_)
    | (intro _)
    | (dsimp only))

/-! ### Closures.lean -/

theorem keep_sendParent {a0 s : State} (h0 : Kept a0 s) (type : Nat) (c : Ctx) (ep : Nat) (degraded : Bool) (bs : List Byte) : Kept a0 (sendParent type c ep degraded bs s) := by
  have hk := h0
  unfold sendParent
  repeat' (first
    | (simp (maxDischargeDepth := 40) only [h0, hk, implies_true, Kept.refl, kept_mk, kept_regsFilter, keep_State_later, keep_sendMsg, keep_sendTray]; done)
    | (split <;> (try (rename_i heq; have hq := congrArg (fun r => Kept a0 (Prod.snd r)) heq; clear heq; simp (maxDischargeDepth := 40) only [h0, hk, implies_true, Kept.refl, kept_mk, kept_regsFilter, keep_State_later, keep_sendMsg, keep_sendTray] at hq; first | replace hk := of_eq_true hq.symm | replace hk := hq)))
    | (refine kept_each ?_ ?_)
    | (refine kept_foldl ?_ ?_)
    | (refine kept_foldl2 ?_ ?_)
    | (intro _)
    | (dsimp only))

theorem keep_modKeep {a0 s : State} (h0 : Kept a0 s) (n : Nat) (f : Keep → Keep) : Kept a0 (modKeep n f s) := by simp (maxDischargeDepth := 40) only [modKeep, h0, implies_true, Kept.refl, kept_mk, kept_regsFilter]

theorem keep_berthFree {a0 s : State} (h0 : Kept a0 s) (f : KeptBuf → Bool) : Kept a0 (berthFree f s) := by simp (maxDischargeDepth := 40) only [berthFree, h0, implies_true, Kept.refl, kept_mk, kept_regsFilter, keep_State_each, keep_brtRelease]

theorem keep_evictKept {a0 s : State} (h0 : Kept a0 s) (x : KeptBuf) : Kept a0 (evictKept x s) := by simp (maxDischargeDepth := 40) only [evictKept, h0, implies_true, Kept.refl, kept_mk, kept_regsFilter, keep_State_evt, keep_State_inc, keep_berthFree, keep_modKeep]

theorem keep_berthItem {a0 y5 : State} (h0 : Kept a0 y5) (y0 : Nat) (y1 : Nat) (y2 : Nat) (y3 : Bool) (y4 : Nat) : Kept a0 (berthItem y0 y1 y2 y3 y4 y5).2 := by
  induction y0 generalizing y1 y2 y3 y4 y5 with
  | zero => exact h0
  | succ f ih =>
    unfold berthItem
    have h := keep_brtRequest h0 y3 y4
    revert h
    generalize brtRequest y3 y4 y5 = r
    obtain ⟨o, s1⟩ := r
    intro h
    cases o with
    | some b => exact kept_mk h ..
    | none =>
      dsimp only
      split
      · exact h
      · exact ih (keep_evictKept h _) ..

theorem keep_keepPut {a0 s : State} (h0 : Kept a0 s) (n : Nat) (k : Nat) (bs trn : List Byte) : Kept a0 (keepPut n k bs trn s) := by simp (maxDischargeDepth := 40) only [keepPut, h0, implies_true, Kept.refl, kept_mk, kept_regsFilter, keep_modKeep]

theorem keep_keepItem {a0 s : State} (h0 : Kept a0 s) (n : Nat) (c : Ctx) (k : Nat) (bs trn : List Byte) : Kept a0 (keepItem n c k bs trn s) := by
  have hk := h0
  unfold keepItem
  repeat' (first
    | (simp (maxDischargeDepth := 40) only [h0, hk, implies_true, Kept.refl, kept_mk, kept_regsFilter, keep_berthFree, keep_berthItem, keep_keepPut, keep_modKeep, keep_ownAsk]; done)
    | (split <;> (try (rename_i heq; have hq := congrArg (fun r => Kept a0 (Prod.snd r)) heq; clear heq; simp (maxDischargeDepth := 40) only [h0, hk, implies_true, Kept.refl, kept_mk, kept_regsFilter, keep_berthFree, keep_berthItem, keep_keepPut, keep_modKeep, keep_ownAsk] at hq; first | replace hk := of_eq_true hq.symm | replace hk := hq)))
    | (refine kept_each ?_ ?_)
    | (refine kept_foldl ?_ ?_)
    | (refine kept_foldl2 ?_ ?_)
    | (intro _)
    | (dsimp only))

theorem keep_issueCommand {a0 s : State} (h0 : Kept a0 s) (opcode parcel st : Nat) (params : List Word) (purpose : IssueFor) : Kept a0 (issueCommand opcode parcel st params purpose s).2 := by
  have hk := h0
  unfold issueCommand
  repeat' (first
    | (simp (maxDischargeDepth := 40) only [h0, hk, implies_true, Kept.refl, kept_mk, kept_regsFilter, keep_nodeSeal, keep_sendEnvelope]; done)
    | (split <;> (try (rename_i heq; have hq := congrArg (fun r => Kept a0 (Prod.snd r)) heq; clear heq; simp (maxDischargeDepth := 40) only [h0, hk, implies_true, Kept.refl, kept_mk, kept_regsFilter, keep_nodeSeal, keep_sendEnvelope] at hq; first | replace hk := of_eq_true hq.symm | replace hk := hq)))
    | (refine kept_each ?_ ?_)
    | (refine kept_foldl ?_ ?_)
    | (refine kept_foldl2 ?_ ?_)
    | (intro _)
    | (dsimp only))

end Sys2Proof.Laws
end

