-- ==== Sys2Proof/Laws/KeepEpochs.lean ====
section
/-! SUPPORT. What every operation keeps (`Kept`), one lemma for each: Tally, epochs, reservations, strobes, Wake and the epoch commands. -/

namespace Sys2Proof.Laws

open Sys2Proof.Machine

set_option linter.all false

/-! ### Tally.lean -/

theorem keep_startWork {a0 s : State} (h0 : Kept a0 s)  : Kept a0 (startWork s) := by simp (maxDischargeDepth := 40) only [startWork, h0, implies_true, Kept.refl, kept_mk, kept_regsFilter]

theorem keep_holdWork {a0 s : State} (h0 : Kept a0 s)  : Kept a0 (holdWork s) := by simp (maxDischargeDepth := 40) only [holdWork, h0, implies_true, Kept.refl, kept_mk, kept_regsFilter]

theorem keep_setQueue {a0 s : State} (h0 : Kept a0 s) (q : List TallyItem) : Kept a0 (setQueue q s) := by
  unfold setQueue; split <;> simp (maxDischargeDepth := 40) only [h0, implies_true, Kept.refl, kept_mk, kept_regsFilter, keep_State_maxR, keep_startWork]

theorem keep_foldVictim {a0 s : State} (h0 : Kept a0 s) (n k : Nat) : Kept a0 (foldVictim n k s) := by
  unfold foldVictim; split <;> simp (maxDischargeDepth := 40) only [h0, implies_true, Kept.refl, kept_mk, kept_regsFilter, keep_State_evt, keep_State_inc, keep_setQueue]

theorem keep_foldVictims {a0 y1 : State} (h0 : Kept a0 y1) (y0 : Nat) : Kept a0 (foldVictims y0 y1) := by
  induction y0 generalizing y1 with
  | zero => unfold foldVictims; simp (maxDischargeDepth := 40) only [h0, implies_true, Kept.refl, kept_mk, kept_regsFilter, keep_foldVictim]
  | succ n ih => unfold foldVictims; repeat' (first | (simp (maxDischargeDepth := 40) only [h0, ih, implies_true, Kept.refl, kept_mk, kept_regsFilter, keep_foldVictim]; done) | split | (dsimp only))

theorem keep_satDelay {a0 s : State} (h0 : Kept a0 s)  : Kept a0 (satDelay s) := by
  have hk := h0
  unfold satDelay
  repeat' (first
    | (simp (maxDischargeDepth := 40) only [h0, hk, implies_true, Kept.refl, kept_mk, kept_regsFilter, keep_State_each, keep_State_evt, keep_State_inc, keep_State_modEpoch]; done)
    | (split <;> (try (rename_i heq; have hq := congrArg (fun r => Kept a0 (Prod.snd r)) heq; clear heq; simp (maxDischargeDepth := 40) only [h0, hk, implies_true, Kept.refl, kept_mk, kept_regsFilter, keep_State_each, keep_State_evt, keep_State_inc, keep_State_modEpoch] at hq; first | replace hk := of_eq_true hq.symm | replace hk := hq)))
    | (refine kept_each ?_ ?_)
    | (refine kept_foldl ?_ ?_)
    | (refine kept_foldl2 ?_ ?_)
    | (intro _)
    | (dsimp only))

theorem keep_satCheck {a0 s : State} (h0 : Kept a0 s)  : Kept a0 (satCheck s) := by
  unfold satCheck; split <;> simp (maxDischargeDepth := 40) only [h0, implies_true, Kept.refl, kept_mk, kept_regsFilter, keep_foldVictims, keep_satDelay]

theorem keep_tallyPut {a0 s : State} (h0 : Kept a0 s) (i : TallyItem) : Kept a0 (tallyPut i s) := by
  unfold tallyPut; split <;> simp (maxDischargeDepth := 40) only [h0, implies_true, Kept.refl, kept_mk, kept_regsFilter, keep_satCheck, keep_setQueue]

theorem keep_mergeSketch {a0 s : State} (h0 : Kept a0 s) (n k : Nat) (bs : List Byte) : Kept a0 (mergeSketch n k bs s) := by
  have hk := h0
  unfold mergeSketch
  repeat' (first
    | (simp (maxDischargeDepth := 40) only [h0, hk, implies_true, Kept.refl, kept_mk, kept_regsFilter, keep_State_evt, keep_State_inc, keep_State_modEpoch, keep_noteSat]; done)
    | (split <;> (try (rename_i heq; have hq := congrArg (fun r => Kept a0 (Prod.snd r)) heq; clear heq; simp (maxDischargeDepth := 40) only [h0, hk, implies_true, Kept.refl, kept_mk, kept_regsFilter, keep_State_evt, keep_State_inc, keep_State_modEpoch, keep_noteSat] at hq; first | replace hk := of_eq_true hq.symm | replace hk := hq)))
    | (refine kept_each ?_ ?_)
    | (refine kept_foldl ?_ ?_)
    | (refine kept_foldl2 ?_ ?_)
    | (intro _)
    | (dsimp only))

theorem keep_mergeVotes {a0 s : State} (h0 : Kept a0 s) (n k : Nat) (bs : List Byte) : Kept a0 (mergeVotes n k bs s) := by simp (maxDischargeDepth := 40) only [mergeVotes, h0, implies_true, Kept.refl, kept_mk, kept_regsFilter, keep_State_each, keep_State_modEpoch, keep_enterVote]

theorem keep_mergeSection {a0 s : State} (h0 : Kept a0 s) (n k : Nat) (bs : List Byte) : Kept a0 (mergeSection n k bs s) := by
  have hk := h0
  unfold mergeSection
  repeat' (first
    | (simp (maxDischargeDepth := 40) only [h0, hk, implies_true, Kept.refl, kept_mk, kept_regsFilter, keep_State_each, keep_mergeSketch, keep_mergeVotes]; done)
    | (split <;> (try (rename_i heq; have hq := congrArg (fun r => Kept a0 (Prod.snd r)) heq; clear heq; simp (maxDischargeDepth := 40) only [h0, hk, implies_true, Kept.refl, kept_mk, kept_regsFilter, keep_State_each, keep_mergeSketch, keep_mergeVotes] at hq; first | replace hk := of_eq_true hq.symm | replace hk := hq)))
    | (refine kept_each ?_ ?_)
    | (refine kept_foldl ?_ ?_)
    | (refine kept_foldl2 ?_ ?_)
    | (intro _)
    | (dsimp only))

theorem keep_foldEpoch {a0 s : State} (h0 : Kept a0 s) (n k : Nat) : Kept a0 (foldEpoch n k s) := by
  unfold foldEpoch; split <;> simp (maxDischargeDepth := 40) only [h0, implies_true, Kept.refl, kept_mk, kept_regsFilter, keep_State_modEpoch, keep_noteSat]

theorem keep_tallyWork {a0 s : State} (h0 : Kept a0 s) (i : TallyItem) : Kept a0 (tallyWork i s) := by
  have hk := h0
  unfold tallyWork
  repeat' (first
    | (simp (maxDischargeDepth := 40) only [h0, hk, implies_true, Kept.refl, kept_mk, kept_regsFilter, keep_State_modEpoch, keep_foldEpoch, keep_mergeSection]; done)
    | (split <;> (try (rename_i heq; have hq := congrArg (fun r => Kept a0 (Prod.snd r)) heq; clear heq; simp (maxDischargeDepth := 40) only [h0, hk, implies_true, Kept.refl, kept_mk, kept_regsFilter, keep_State_modEpoch, keep_foldEpoch, keep_mergeSection] at hq; first | replace hk := of_eq_true hq.symm | replace hk := hq)))
    | (refine kept_each ?_ ?_)
    | (refine kept_foldl ?_ ?_)
    | (refine kept_foldl2 ?_ ?_)
    | (intro _)
    | (dsimp only))

theorem keep_dropItems {a0 s : State} (h0 : Kept a0 s) (f : TallyItem → Bool) : Kept a0 (dropItems f s) := by simp (maxDischargeDepth := 40) only [dropItems, h0, implies_true, Kept.refl, kept_mk, kept_regsFilter, keep_setQueue]

theorem keep_queueMerge {a0 s : State} (h0 : Kept a0 s) (n k arr : Nat) (bs : List Byte) : Kept a0 (queueMerge n k arr bs s) := by simp (maxDischargeDepth := 40) only [queueMerge, h0, implies_true, Kept.refl, kept_mk, kept_regsFilter, keep_tallyPut]

theorem keep_buildPut {a0 s : State} (h0 : Kept a0 s) (n k : Nat) : Kept a0 (buildPut n k s) := by
  have hk := h0
  unfold buildPut
  repeat' (first
    | (simp (maxDischargeDepth := 40) only [h0, hk, implies_true, Kept.refl, kept_mk, kept_regsFilter, keep_tallyPut]; done)
    | (split <;> (try (rename_i heq; have hq := congrArg (fun r => Kept a0 (Prod.snd r)) heq; clear heq; simp (maxDischargeDepth := 40) only [h0, hk, implies_true, Kept.refl, kept_mk, kept_regsFilter, keep_tallyPut] at hq; first | replace hk := of_eq_true hq.symm | replace hk := hq)))
    | (refine kept_each ?_ ?_)
    | (refine kept_foldl ?_ ?_)
    | (refine kept_foldl2 ?_ ?_)
    | (intro _)
    | (dsimp only))

theorem keep_unhold {a0 s : State} (h0 : Kept a0 s) (n : Nat) : Kept a0 (unhold n s) := by
  unfold unhold; split <;> simp (maxDischargeDepth := 40) only [h0, implies_true, Kept.refl, kept_mk, kept_regsFilter, keep_State_each, keep_State_modEpoch, keep_queueMerge]

/-! ### Epochs.lean -/

theorem keep_freeCtx {a0 s : State} (h0 : Kept a0 s) (n : Nat) (force : Bool) : Kept a0 (freeCtx n force s) := by
  have hk := h0
  unfold freeCtx
  repeat' (first
    | (simp (maxDischargeDepth := 40) only [h0, hk, implies_true, Kept.refl, kept_mk, kept_regsFilter, keep_State_evt, keep_State_later, keep_dropItems, keep_pilotFree, keep_remoteDone]; done)
    | (split <;> (try (rename_i heq; have hq := congrArg (fun r => Kept a0 (Prod.snd r)) heq; clear heq; simp (maxDischargeDepth := 40) only [h0, hk, implies_true, Kept.refl, kept_mk, kept_regsFilter, keep_State_evt, keep_State_later, keep_dropItems, keep_pilotFree, keep_remoteDone] at hq; first | replace hk := of_eq_true hq.symm | replace hk := hq)))
    | (refine kept_each ?_ ?_)
    | (refine kept_foldl ?_ ?_)
    | (refine kept_foldl2 ?_ ?_)
    | (intro _)
    | (dsimp only))

theorem keep_freeRole {a0 y3 : State} (h0 : Kept a0 y3) (y0 : Nat) (y1 : Nat) (y2 : Bool) : Kept a0 (freeRole y0 y1 y2 y3) := by
  induction y0 generalizing y1 y3 with
  | zero => exact h0
  | succ f ih =>
    unfold freeRole
    split
    · exact h0
    · rename_i c _
      have h1 : Kept a0 (y3.each (c.kids.filter (fun x => x.station != y3.station)) (fun x u =>
        (issueCommand 0x14 c.parcel x.station [w32 (b2n y2)] (.free c.parcel x.station) u).2)) :=
        kept_each h0 (fun x u => keep_issueCommand (Kept.refl u) _ _ _ _ _)
      have h2 := keep_freeCtx h1 y1 y2
      dsimp only
      refine kept_ite h2 ?_
      split
      · exact h2
      · exact kept_ite h2 (ih h2 _)

theorem keep_freeParcel {a0 s : State} (h0 : Kept a0 s) (n : Nat) (force : Bool) : Kept a0 (freeParcel n force s) := by
  have hk := h0
  unfold freeParcel
  repeat' (first
    | (simp (maxDischargeDepth := 40) only [h0, hk, implies_true, Kept.refl, kept_mk, kept_regsFilter, keep_State_each, keep_countRefusal, keep_dropPend, keep_freeRole]; done)
    | (split <;> (try (rename_i heq; have hq := congrArg (fun r => Kept a0 (Prod.snd r)) heq; clear heq; simp (maxDischargeDepth := 40) only [h0, hk, implies_true, Kept.refl, kept_mk, kept_regsFilter, keep_State_each, keep_countRefusal, keep_dropPend, keep_freeRole] at hq; first | replace hk := of_eq_true hq.symm | replace hk := hq)))
    | (refine kept_each ?_ ?_)
    | (refine kept_foldl ?_ ?_)
    | (refine kept_foldl2 ?_ ?_)
    | (intro _)
    | (dsimp only))

theorem keep_drainFree {a0 s : State} (h0 : Kept a0 s) (n : Nat) : Kept a0 (drainFree n s) := by
  have hk := h0
  unfold drainFree
  repeat' (first
    | (simp (maxDischargeDepth := 40) only [h0, hk, implies_true, Kept.refl, kept_mk, kept_regsFilter, keep_freeParcel]; done)
    | (split <;> (try (rename_i heq; have hq := congrArg (fun r => Kept a0 (Prod.snd r)) heq; clear heq; simp (maxDischargeDepth := 40) only [h0, hk, implies_true, Kept.refl, kept_mk, kept_regsFilter, keep_freeParcel] at hq; first | replace hk := of_eq_true hq.symm | replace hk := hq)))
    | (refine kept_each ?_ ?_)
    | (refine kept_foldl ?_ ?_)
    | (refine kept_foldl2 ?_ ?_)
    | (intro _)
    | (dsimp only))

theorem keep_epochDone {a0 s : State} (h0 : Kept a0 s) (n k : Nat) : Kept a0 (epochDone n k s) := by simp (maxDischargeDepth := 40) only [epochDone, h0, implies_true, Kept.refl, kept_mk, kept_regsFilter, keep_State_modCtx, keep_unhold]

theorem keep_noteWithheld {a0 s : State} (h0 : Kept a0 s) (n k : Nat) : Kept a0 (noteWithheld n k s) := by
  unfold noteWithheld; split <;> simp (maxDischargeDepth := 40) only [h0, implies_true, Kept.refl, kept_mk, kept_regsFilter, keep_State_modCtx]

theorem keep_noteApprox {a0 s : State} (h0 : Kept a0 s) (e : Epoch) : Kept a0 (noteApprox e s) := by
  unfold noteApprox; split <;> simp (maxDischargeDepth := 40) only [h0, implies_true, Kept.refl, kept_mk, kept_regsFilter, keep_State_evt, keep_State_inc]

theorem keep_sendClosure {a0 s : State} (h0 : Kept a0 s) (n : Nat) (c : Ctx) (e0 : Epoch) (pend : Bool) : Kept a0 (sendClosure n c e0 pend s) := by
  have hk := h0
  unfold sendClosure
  repeat' (first
    | (simp (maxDischargeDepth := 40) only [h0, hk, implies_true, Kept.refl, kept_mk, kept_regsFilter, keep_State_modCtx, keep_State_modEpoch, keep_drainFree, keep_epochDone, keep_keepItem, keep_noteApprox, keep_noteWithheld, keep_sendParent, keep_unhold]; done)
    | (split <;> (try (rename_i heq; have hq := congrArg (fun r => Kept a0 (Prod.snd r)) heq; clear heq; simp (maxDischargeDepth := 40) only [h0, hk, implies_true, Kept.refl, kept_mk, kept_regsFilter, keep_State_modCtx, keep_State_modEpoch, keep_drainFree, keep_epochDone, keep_keepItem, keep_noteApprox, keep_noteWithheld, keep_sendParent, keep_unhold] at hq; first | replace hk := of_eq_true hq.symm | replace hk := hq)))
    | (refine kept_each ?_ ?_)
    | (refine kept_foldl ?_ ?_)
    | (refine kept_foldl2 ?_ ?_)
    | (intro _)
    | (dsimp only))

theorem keep_sendAsleep {a0 s : State} (h0 : Kept a0 s) (n : Nat) (c : Ctx) (e0 : Epoch) : Kept a0 (sendAsleep n c e0 s) := by simp (maxDischargeDepth := 40) only [sendAsleep, h0, implies_true, Kept.refl, kept_mk, kept_regsFilter, keep_epochDone, keep_keepItem, keep_noteWithheld, keep_sendParent]

theorem keep_publish {a0 s : State} (h0 : Kept a0 s) (n : Nat) (c0 : Ctx) (e : Epoch) : Kept a0 (publish n c0 e s) := by
  have hk := h0
  unfold publish
  repeat' (first
    | (simp (maxDischargeDepth := 40) only [h0, hk, implies_true, Kept.refl, kept_mk, kept_regsFilter, keep_State_each, keep_State_evt, keep_State_inc, keep_State_setCtx, keep_afterRecord, keep_drainFree, keep_epochDone, keep_keepItem, keep_noteApprox, keep_writeVerdict]; done)
    | (split <;> (try (rename_i heq; have hq := congrArg (fun r => Kept a0 (Prod.snd r)) heq; clear heq; simp (maxDischargeDepth := 40) only [h0, hk, implies_true, Kept.refl, kept_mk, kept_regsFilter, keep_State_each, keep_State_evt, keep_State_inc, keep_State_setCtx, keep_afterRecord, keep_drainFree, keep_epochDone, keep_keepItem, keep_noteApprox, keep_writeVerdict] at hq; first | replace hk := of_eq_true hq.symm | replace hk := hq)))
    | (refine kept_each ?_ ?_)
    | (refine kept_foldl ?_ ?_)
    | (refine kept_foldl2 ?_ ?_)
    | (intro _)
    | (dsimp only))

theorem keep_advance {a0 y2 : State} (h0 : Kept a0 y2) (y0 : Nat) (y1 : Nat) : Kept a0 (advance y0 y1 y2) := by
  induction y0 generalizing y1 y2 with
  | zero => unfold advance; simp (maxDischargeDepth := 40) only [h0, implies_true, Kept.refl, kept_mk, kept_regsFilter, keep_publish, keep_sendAsleep, keep_sendClosure]
  | succ n ih => unfold advance; repeat' (first | (simp (maxDischargeDepth := 40) only [h0, ih, implies_true, Kept.refl, kept_mk, kept_regsFilter, keep_publish, keep_sendAsleep, keep_sendClosure]; done) | split | (dsimp only))

theorem keep_advanceAll {a0 s : State} (h0 : Kept a0 s) (n : Nat) : Kept a0 (advanceAll n s) := by simp (maxDischargeDepth := 40) only [advanceAll, h0, implies_true, Kept.refl, kept_mk, kept_regsFilter, keep_advance]

theorem keep_keepScores {a0 s : State} (h0 : Kept a0 s) (n k : Nat) (x : ScoreSet) : Kept a0 (keepScores n k x s) := by simp (maxDischargeDepth := 40) only [keepScores, h0, implies_true, Kept.refl, kept_mk, kept_regsFilter, keep_modKeep]

theorem keep_cadAbandon {a0 s : State} (h0 : Kept a0 s) (n k : Nat) : Kept a0 (cadAbandon n k s) := by
  unfold cadAbandon; split <;> simp (maxDischargeDepth := 40) only [h0, implies_true, Kept.refl, kept_mk, kept_regsFilter, keep_State_inc, keep_State_modEpoch, keep_buildPut, keep_keepScores]

theorem keep_cadBegin {a0 s : State} (h0 : Kept a0 s) (n k : Nat) : Kept a0 (cadBegin n k s) := by
  have hk := h0
  unfold cadBegin
  repeat' (first
    | (simp (maxDischargeDepth := 40) only [h0, hk, implies_true, Kept.refl, kept_mk, kept_regsFilter, keep_State_modEpoch, keep_cadAbandon, keep_keepScores]; done)
    | (split <;> (try (rename_i heq; have hq := congrArg (fun r => Kept a0 (Prod.snd r)) heq; clear heq; simp (maxDischargeDepth := 40) only [h0, hk, implies_true, Kept.refl, kept_mk, kept_regsFilter, keep_State_modEpoch, keep_cadAbandon, keep_keepScores] at hq; first | replace hk := of_eq_true hq.symm | replace hk := hq)))
    | (refine kept_each ?_ ?_)
    | (refine kept_foldl ?_ ?_)
    | (refine kept_foldl2 ?_ ?_)
    | (intro _)
    | (dsimp only))

theorem keep_trnAbandon {a0 s : State} (h0 : Kept a0 s) (n k : Nat) : Kept a0 (trnAbandon n k s) := by simp (maxDischargeDepth := 40) only [trnAbandon, h0, implies_true, Kept.refl, kept_mk, kept_regsFilter, keep_State_evt, keep_State_inc, keep_State_modEpoch]

theorem keep_trnBegin {a0 s : State} (h0 : Kept a0 s) (n k : Nat) : Kept a0 (trnBegin n k s) := by
  have hk := h0
  unfold trnBegin
  repeat' (first
    | (simp (maxDischargeDepth := 40) only [h0, hk, implies_true, Kept.refl, kept_mk, kept_regsFilter, keep_State_modEpoch, keep_trnAbandon]; done)
    | (split <;> (try (rename_i heq; have hq := congrArg (fun r => Kept a0 (Prod.snd r)) heq; clear heq; simp (maxDischargeDepth := 40) only [h0, hk, implies_true, Kept.refl, kept_mk, kept_regsFilter, keep_State_modEpoch, keep_trnAbandon] at hq; first | replace hk := of_eq_true hq.symm | replace hk := hq)))
    | (refine kept_each ?_ ?_)
    | (refine kept_foldl ?_ ?_)
    | (refine kept_foldl2 ?_ ?_)
    | (intro _)
    | (dsimp only))

theorem keep_tryFinish {a0 s : State} (h0 : Kept a0 s) (n k : Nat) : Kept a0 (tryFinish n k s) := by
  have hk := h0
  unfold tryFinish
  repeat' (first
    | (simp (maxDischargeDepth := 40) only [h0, hk, implies_true, Kept.refl, kept_mk, kept_regsFilter, keep_State_inc, keep_State_modEpoch, keep_advanceAll, keep_cadBegin]; done)
    | (split <;> (try (rename_i heq; have hq := congrArg (fun r => Kept a0 (Prod.snd r)) heq; clear heq; simp (maxDischargeDepth := 40) only [h0, hk, implies_true, Kept.refl, kept_mk, kept_regsFilter, keep_State_inc, keep_State_modEpoch, keep_advanceAll, keep_cadBegin] at hq; first | replace hk := of_eq_true hq.symm | replace hk := hq)))
    | (refine kept_each ?_ ?_)
    | (refine kept_foldl ?_ ?_)
    | (refine kept_foldl2 ?_ ?_)
    | (intro _)
    | (dsimp only))

theorem keep_itemComplete {a0 s : State} (h0 : Kept a0 s)  : Kept a0 (itemComplete s) := by
  have hk := h0
  unfold itemComplete
  repeat' (first
    | (simp (maxDischargeDepth := 40) only [h0, hk, implies_true, Kept.refl, kept_mk, kept_regsFilter, keep_advanceAll, keep_memReadBack, keep_memWritten, keep_setQueue, keep_startWork, keep_tallyWork, keep_tryFinish]; done)
    | (split <;> (try (rename_i heq; have hq := congrArg (fun r => Kept a0 (Prod.snd r)) heq; clear heq; simp (maxDischargeDepth := 40) only [h0, hk, implies_true, Kept.refl, kept_mk, kept_regsFilter, keep_advanceAll, keep_memReadBack, keep_memWritten, keep_setQueue, keep_startWork, keep_tallyWork, keep_tryFinish] at hq; first | replace hk := of_eq_true hq.symm | replace hk := hq)))
    | (refine kept_each ?_ ?_)
    | (refine kept_foldl ?_ ?_)
    | (refine kept_foldl2 ?_ ?_)
    | (intro _)
    | (dsimp only))

theorem keep_windowEnd {a0 s : State} (h0 : Kept a0 s) (n : Nat) : Kept a0 (windowEnd n s) := by
  have hk := h0
  unfold windowEnd
  repeat' (first
    | (simp (maxDischargeDepth := 40) only [h0, hk, implies_true, Kept.refl, kept_mk, kept_regsFilter, keep_State_modCtx]; done)
    | (split <;> (try (rename_i heq; have hq := congrArg (fun r => Kept a0 (Prod.snd r)) heq; clear heq; simp (maxDischargeDepth := 40) only [h0, hk, implies_true, Kept.refl, kept_mk, kept_regsFilter, keep_State_modCtx] at hq; first | replace hk := of_eq_true hq.symm | replace hk := hq)))
    | (refine kept_each ?_ ?_)
    | (refine kept_foldl ?_ ?_)
    | (refine kept_foldl2 ?_ ?_)
    | (intro _)
    | (dsimp only))

theorem keep_windowNote {a0 s : State} (h0 : Kept a0 s) (n : Nat) (timedOut : Bool) : Kept a0 (windowNote n timedOut s) := by
  unfold windowNote; split <;> simp (maxDischargeDepth := 40) only [h0, implies_true, Kept.refl, kept_mk, kept_regsFilter, keep_State_modCtx]

theorem keep_expire {a0 s : State} (h0 : Kept a0 s) (n k : Nat) : Kept a0 (expire n k s) := by
  have hk := h0
  unfold expire
  repeat' (first
    | (simp (maxDischargeDepth := 40) only [h0, hk, implies_true, Kept.refl, kept_mk, kept_regsFilter, keep_State_evt, keep_State_inc, keep_State_modCtx, keep_State_modEpoch]; done)
    | (split <;> (try (rename_i heq; have hq := congrArg (fun r => Kept a0 (Prod.snd r)) heq; clear heq; simp (maxDischargeDepth := 40) only [h0, hk, implies_true, Kept.refl, kept_mk, kept_regsFilter, keep_State_evt, keep_State_inc, keep_State_modCtx, keep_State_modEpoch] at hq; first | replace hk := of_eq_true hq.symm | replace hk := hq)))
    | (refine kept_each ?_ ?_)
    | (refine kept_foldl ?_ ?_)
    | (refine kept_foldl2 ?_ ?_)
    | (intro _)
    | (dsimp only))

theorem keep_pullFrom {a0 s : State} (h0 : Kept a0 s) (n : Nat) (c : Ctx) (k st : Nat) : Kept a0 (pullFrom n c k st s) := by
  unfold pullFrom; split <;> simp (maxDischargeDepth := 40) only [h0, implies_true, Kept.refl, kept_mk, kept_regsFilter, keep_State_inc, keep_State_modCtx, keep_issueCommand]

theorem keep_resendNow {a0 s : State} (h0 : Kept a0 s) (n : Nat) (c : Ctx) (k : Nat) : Kept a0 (resendNow n c k s) := by
  have hk := h0
  unfold resendNow
  repeat' (first
    | (simp (maxDischargeDepth := 40) only [h0, hk, implies_true, Kept.refl, kept_mk, kept_regsFilter, keep_sendParent]; done)
    | (split <;> (try (rename_i heq; have hq := congrArg (fun r => Kept a0 (Prod.snd r)) heq; clear heq; simp (maxDischargeDepth := 40) only [h0, hk, implies_true, Kept.refl, kept_mk, kept_regsFilter, keep_sendParent] at hq; first | replace hk := of_eq_true hq.symm | replace hk := hq)))
    | (refine kept_each ?_ ?_)
    | (refine kept_foldl ?_ ?_)
    | (refine kept_foldl2 ?_ ?_)
    | (intro _)
    | (dsimp only))

theorem keep_resendOne {a0 s : State} (h0 : Kept a0 s) (n : Nat) (c : Ctx) (k : Nat) : Kept a0 (resendOne n c k s).2 := by
  have hk := h0
  unfold resendOne
  repeat' (first
    | (simp (maxDischargeDepth := 40) only [h0, hk, implies_true, Kept.refl, kept_mk, kept_regsFilter, keep_ownAsk, keep_resendNow]; done)
    | (split <;> (try (rename_i heq; have hq := congrArg (fun r => Kept a0 (Prod.snd r)) heq; clear heq; simp (maxDischargeDepth := 40) only [h0, hk, implies_true, Kept.refl, kept_mk, kept_regsFilter, keep_ownAsk, keep_resendNow] at hq; first | replace hk := of_eq_true hq.symm | replace hk := hq)))
    | (refine kept_each ?_ ?_)
    | (refine kept_foldl ?_ ?_)
    | (refine kept_foldl2 ?_ ?_)
    | (intro _)
    | (dsimp only))

theorem keep_pullOwn {a0 s : State} (h0 : Kept a0 s) (n : Nat) (c : Ctx) (k : Nat) : Kept a0 (pullOwn n c k s) := by
  have hk := h0
  unfold pullOwn
  repeat' (first
    | (simp (maxDischargeDepth := 40) only [h0, hk, implies_true, Kept.refl, kept_mk, kept_regsFilter, keep_State_inc, keep_State_modCtx, keep_resendOne]; done)
    | (split <;> (try (rename_i heq; have hq := congrArg (fun r => Kept a0 (Prod.snd r)) heq; clear heq; simp (maxDischargeDepth := 40) only [h0, hk, implies_true, Kept.refl, kept_mk, kept_regsFilter, keep_State_inc, keep_State_modCtx, keep_resendOne] at hq; first | replace hk := of_eq_true hq.symm | replace hk := hq)))
    | (refine kept_each ?_ ?_)
    | (refine kept_foldl ?_ ?_)
    | (refine kept_foldl2 ?_ ?_)
    | (intro _)
    | (dsimp only))

theorem keep_deadlineExpiry {a0 s : State} (h0 : Kept a0 s) (parcel level : Nat) : Kept a0 (deadlineExpiry parcel level s) := by
  have hk := h0
  unfold deadlineExpiry
  repeat' (first
    | (simp (maxDischargeDepth := 40) only [h0, hk, implies_true, Kept.refl, kept_mk, kept_regsFilter, keep_State_each, keep_expire, keep_pullFrom, keep_pullOwn]; done)
    | (split <;> (try (rename_i heq; have hq := congrArg (fun r => Kept a0 (Prod.snd r)) heq; clear heq; simp (maxDischargeDepth := 40) only [h0, hk, implies_true, Kept.refl, kept_mk, kept_regsFilter, keep_State_each, keep_expire, keep_pullFrom, keep_pullOwn] at hq; first | replace hk := of_eq_true hq.symm | replace hk := hq)))
    | (refine kept_each ?_ ?_)
    | (refine kept_foldl ?_ ?_)
    | (refine kept_foldl2 ?_ ?_)
    | (intro _)
    | (dsimp only))

theorem keep_strictStall {a0 s : State} (h0 : Kept a0 s) (parcel level : Nat) : Kept a0 (strictStall parcel level s) := by
  have hk := h0
  unfold strictStall
  repeat' (first
    | (simp (maxDischargeDepth := 40) only [h0, hk, implies_true, Kept.refl, kept_mk, kept_regsFilter, keep_State_evt]; done)
    | (split <;> (try (rename_i heq; have hq := congrArg (fun r => Kept a0 (Prod.snd r)) heq; clear heq; simp (maxDischargeDepth := 40) only [h0, hk, implies_true, Kept.refl, kept_mk, kept_regsFilter, keep_State_evt] at hq; first | replace hk := of_eq_true hq.symm | replace hk := hq)))
    | (refine kept_each ?_ ?_)
    | (refine kept_foldl ?_ ?_)
    | (refine kept_foldl2 ?_ ?_)
    | (intro _)
    | (dsimp only))

theorem keep_gateClose {a0 s : State} (h0 : Kept a0 s) (n k : Nat) : Kept a0 (gateClose n k s) := by
  have hk := h0
  unfold gateClose
  repeat' (first
    | (simp (maxDischargeDepth := 40) only [h0, hk, implies_true, Kept.refl, kept_mk, kept_regsFilter, keep_State_modCtx, keep_State_modEpoch, keep_satCheck, keep_trnBegin, keep_tryFinish, keep_windowEnd, keep_windowNote]; done)
    | (split <;> (try (rename_i heq; have hq := congrArg (fun r => Kept a0 (Prod.snd r)) heq; clear heq; simp (maxDischargeDepth := 40) only [h0, hk, implies_true, Kept.refl, kept_mk, kept_regsFilter, keep_State_modCtx, keep_State_modEpoch, keep_satCheck, keep_trnBegin, keep_tryFinish, keep_windowEnd, keep_windowNote] at hq; first | replace hk := of_eq_true hq.symm | replace hk := hq)))
    | (refine kept_each ?_ ?_)
    | (refine kept_foldl ?_ ?_)
    | (refine kept_foldl2 ?_ ?_)
    | (intro _)
    | (dsimp only))

theorem keep_gateCloseDue {a0 s : State} (h0 : Kept a0 s) (parcel level : Nat) : Kept a0 (gateCloseDue parcel level s) := by
  have hk := h0
  unfold gateCloseDue
  repeat' (first
    | (simp (maxDischargeDepth := 40) only [h0, hk, implies_true, Kept.refl, kept_mk, kept_regsFilter, keep_gateClose]; done)
    | (split <;> (try (rename_i heq; have hq := congrArg (fun r => Kept a0 (Prod.snd r)) heq; clear heq; simp (maxDischargeDepth := 40) only [h0, hk, implies_true, Kept.refl, kept_mk, kept_regsFilter, keep_gateClose] at hq; first | replace hk := of_eq_true hq.symm | replace hk := hq)))
    | (refine kept_each ?_ ?_)
    | (refine kept_foldl ?_ ?_)
    | (refine kept_foldl2 ?_ ?_)
    | (intro _)
    | (dsimp only))

theorem keep_overrun {a0 s : State} (h0 : Kept a0 s) (n k : Nat) : Kept a0 (overrun n k s).2 := by
  have hk := h0
  unfold overrun
  repeat' (first
    | (simp (maxDischargeDepth := 40) only [h0, hk, implies_true, Kept.refl, kept_mk, kept_regsFilter, keep_State_each, keep_State_evt, keep_State_inc, keep_expire, keep_gateClose]; done)
    | (split <;> (try (rename_i heq; have hq := congrArg (fun r => Kept a0 (Prod.snd r)) heq; clear heq; simp (maxDischargeDepth := 40) only [h0, hk, implies_true, Kept.refl, kept_mk, kept_regsFilter, keep_State_each, keep_State_evt, keep_State_inc, keep_expire, keep_gateClose] at hq; first | replace hk := of_eq_true hq.symm | replace hk := hq)))
    | (refine kept_each ?_ ?_)
    | (refine kept_foldl ?_ ?_)
    | (refine kept_foldl2 ?_ ?_)
    | (intro _)
    | (dsimp only))

theorem keep_epochErr {a0 s : State} (h0 : Kept a0 s)  : Kept a0 (epochErr s) := by simp (maxDischargeDepth := 40) only [epochErr, h0, implies_true, Kept.refl, kept_mk, kept_regsFilter, keep_State_evt, keep_State_inc]

theorem keep_lateMsg {a0 s : State} (h0 : Kept a0 s)  : Kept a0 (lateMsg s) := by simp (maxDischargeDepth := 40) only [lateMsg, h0, implies_true, Kept.refl, kept_mk, kept_regsFilter, keep_State_evt, keep_State_inc]

theorem keep_modKid {a0 s : State} (h0 : Kept a0 s) (n k st : Nat) (f : KidEpoch → KidEpoch) : Kept a0 (modKid n k st f s) := by simp (maxDischargeDepth := 40) only [modKid, h0, implies_true, Kept.refl, kept_mk, kept_regsFilter, keep_State_modEpoch]

theorem keep_includeClosure {a0 s : State} (h0 : Kept a0 s) (n : Nat) (c : Ctx) (k src : Nat) (bs : List Byte) : Kept a0 (includeClosure n c k src bs s) := by
  have hk := h0
  unfold includeClosure
  repeat' (first
    | (simp (maxDischargeDepth := 40) only [h0, hk, implies_true, Kept.refl, kept_mk, kept_regsFilter, keep_State_inc, keep_State_modCtx, keep_State_modEpoch, keep_modKid, keep_queueMerge, keep_satCheck]; done)
    | (split <;> (try (rename_i heq; have hq := congrArg (fun r => Kept a0 (Prod.snd r)) heq; clear heq; simp (maxDischargeDepth := 40) only [h0, hk, implies_true, Kept.refl, kept_mk, kept_regsFilter, keep_State_inc, keep_State_modCtx, keep_State_modEpoch, keep_modKid, keep_queueMerge, keep_satCheck] at hq; first | replace hk := of_eq_true hq.symm | replace hk := hq)))
    | (refine kept_each ?_ ?_)
    | (refine kept_foldl ?_ ?_)
    | (refine kept_foldl2 ?_ ?_)
    | (intro _)
    | (dsimp only))

theorem keep_takeMsg {a0 s : State} (h0 : Kept a0 s) (n k src : Nat) (f : State → State) (hf : ∀ x0, Kept x0 (f x0)) : Kept a0 (takeMsg n k src f s) := by
  have hk := h0
  unfold takeMsg
  repeat' (first
    | (simp (maxDischargeDepth := 40) only [h0, hf, fun (b : State) x0 (h : Kept b x0) => Kept.trans h (hf x0), hk, implies_true, Kept.refl, kept_mk, kept_regsFilter, keep_epochErr, keep_lateMsg, keep_overrun]; done)
    | (split <;> (try (rename_i heq; have hq := congrArg (fun r => Kept a0 (Prod.snd r)) heq; clear heq; simp (maxDischargeDepth := 40) only [h0, hf, fun (b : State) x0 (h : Kept b x0) => Kept.trans h (hf x0), hk, implies_true, Kept.refl, kept_mk, kept_regsFilter, keep_epochErr, keep_lateMsg, keep_overrun] at hq; first | replace hk := of_eq_true hq.symm | replace hk := hq)))
    | (refine kept_each ?_ ?_)
    | (refine kept_foldl ?_ ?_)
    | (refine kept_foldl2 ?_ ?_)
    | (intro _)
    | (dsimp only))

theorem keep_resolveIn {a0 s : State} (h0 : Kept a0 s) (n k src : Nat) (void : Bool) : Kept a0 (resolveIn n k src void s) := by
  have hk := h0
  unfold resolveIn
  repeat' (first
    | (simp (maxDischargeDepth := 40) only [h0, hk, implies_true, Kept.refl, kept_mk, kept_regsFilter, keep_State_evt, keep_State_inc, keep_State_modEpoch, keep_modKid]; done)
    | (split <;> (try (rename_i heq; have hq := congrArg (fun r => Kept a0 (Prod.snd r)) heq; clear heq; simp (maxDischargeDepth := 40) only [h0, hk, implies_true, Kept.refl, kept_mk, kept_regsFilter, keep_State_evt, keep_State_inc, keep_State_modEpoch, keep_modKid] at hq; first | replace hk := of_eq_true hq.symm | replace hk := hq)))
    | (refine kept_each ?_ ?_)
    | (refine kept_foldl ?_ ?_)
    | (refine kept_foldl2 ?_ ?_)
    | (intro _)
    | (dsimp only))

theorem keep_closureIn {a0 s : State} (h0 : Kept a0 s) (src parcel ep : Nat) (bs : List Byte) : Kept a0 (closureIn src parcel ep bs s) := by
  have hk := h0
  unfold closureIn
  repeat' (first
    | (simp (maxDischargeDepth := 40) only [h0, hk, implies_true, Kept.refl, kept_mk, kept_regsFilter, keep_epochErr, keep_includeClosure, keep_resolveIn, keep_takeMsg]; done)
    | (split <;> (try (rename_i heq; have hq := congrArg (fun r => Kept a0 (Prod.snd r)) heq; clear heq; simp (maxDischargeDepth := 40) only [h0, hk, implies_true, Kept.refl, kept_mk, kept_regsFilter, keep_epochErr, keep_includeClosure, keep_resolveIn, keep_takeMsg] at hq; first | replace hk := of_eq_true hq.symm | replace hk := hq)))
    | (refine kept_each ?_ ?_)
    | (refine kept_foldl ?_ ?_)
    | (refine kept_foldl2 ?_ ?_)
    | (intro _)
    | (dsimp only))

theorem keep_asleepIn {a0 s : State} (h0 : Kept a0 s) (src parcel ep : Nat) (bs : List Byte) : Kept a0 (asleepIn src parcel ep bs s) := by
  have hk := h0
  unfold asleepIn
  repeat' (first
    | (simp (maxDischargeDepth := 40) only [h0, hk, implies_true, Kept.refl, kept_mk, kept_regsFilter, keep_State_modEpoch, keep_epochErr, keep_modKid, keep_satCheck, keep_takeMsg]; done)
    | (split <;> (try (rename_i heq; have hq := congrArg (fun r => Kept a0 (Prod.snd r)) heq; clear heq; simp (maxDischargeDepth := 40) only [h0, hk, implies_true, Kept.refl, kept_mk, kept_regsFilter, keep_State_modEpoch, keep_epochErr, keep_modKid, keep_satCheck, keep_takeMsg] at hq; first | replace hk := of_eq_true hq.symm | replace hk := hq)))
    | (refine kept_each ?_ ?_)
    | (refine kept_foldl ?_ ?_)
    | (refine kept_foldl2 ?_ ?_)
    | (intro _)
    | (dsimp only))

theorem keep_ownRoleIn {a0 s : State} (h0 : Kept a0 s) (type parcel ep : Nat) (bs : List Byte) : Kept a0 (ownRoleIn type parcel ep bs s) := by
  unfold ownRoleIn; split <;> simp (maxDischargeDepth := 40) only [h0, implies_true, Kept.refl, kept_mk, kept_regsFilter, keep_closureIn]

theorem keep_traySend {a0 s : State} (h0 : Kept a0 s) (parcel : Nat) : Kept a0 (traySend parcel s) := by
  have hk := h0
  unfold traySend
  repeat' (first
    | (simp (maxDischargeDepth := 40) only [h0, hk, implies_true, Kept.refl, kept_mk, kept_regsFilter, keep_sendClosure]; done)
    | (split <;> (try (rename_i heq; have hq := congrArg (fun r => Kept a0 (Prod.snd r)) heq; clear heq; simp (maxDischargeDepth := 40) only [h0, hk, implies_true, Kept.refl, kept_mk, kept_regsFilter, keep_sendClosure] at hq; first | replace hk := of_eq_true hq.symm | replace hk := hq)))
    | (refine kept_each ?_ ?_)
    | (refine kept_foldl ?_ ?_)
    | (refine kept_foldl2 ?_ ?_)
    | (intro _)
    | (dsimp only))

theorem keep_sendResolve {a0 s : State} (h0 : Kept a0 s) (n : Nat) (c : Ctx) (e : Epoch) : Kept a0 (sendResolve n c e s) := by simp (maxDischargeDepth := 40) only [sendResolve, h0, implies_true, Kept.refl, kept_mk, kept_regsFilter, keep_drainFree, keep_epochDone, keep_modKeep, keep_sendParent]

theorem keep_declareAbsent {a0 s : State} (h0 : Kept a0 s) (n st first count : Nat) : Kept a0 (declareAbsent n st first count s).2 := by
  unfold declareAbsent; split <;> simp (maxDischargeDepth := 40) only [h0, implies_true, Kept.refl, kept_mk, kept_regsFilter, keep_State_setCtx]

theorem keep_headlessExit {a0 s : State} (h0 : Kept a0 s)  : Kept a0 (headlessExit s) := by
  have hk := h0
  unfold headlessExit
  repeat' (first
    | (simp (maxDischargeDepth := 40) only [h0, hk, implies_true, Kept.refl, kept_mk, kept_regsFilter, keep_State_each, keep_State_modCtx, keep_sendParent]; done)
    | (split <;> (try (rename_i heq; have hq := congrArg (fun r => Kept a0 (Prod.snd r)) heq; clear heq; simp (maxDischargeDepth := 40) only [h0, hk, implies_true, Kept.refl, kept_mk, kept_regsFilter, keep_State_each, keep_State_modCtx, keep_sendParent] at hq; first | replace hk := of_eq_true hq.symm | replace hk := hq)))
    | (refine kept_each ?_ ?_)
    | (refine kept_foldl ?_ ?_)
    | (refine kept_foldl2 ?_ ?_)
    | (intro _)
    | (dsimp only))

theorem keep_pullAbsent {a0 s : State} (h0 : Kept a0 s) (parcel st : Nat) : Kept a0 (pullAbsent parcel st s) := by
  have hk := h0
  unfold pullAbsent
  repeat' (first
    | (simp (maxDischargeDepth := 40) only [h0, hk, implies_true, Kept.refl, kept_mk, kept_regsFilter, keep_State_each, keep_State_modCtx]; done)
    | (split <;> (try (rename_i heq; have hq := congrArg (fun r => Kept a0 (Prod.snd r)) heq; clear heq; simp (maxDischargeDepth := 40) only [h0, hk, implies_true, Kept.refl, kept_mk, kept_regsFilter, keep_State_each, keep_State_modCtx] at hq; first | replace hk := of_eq_true hq.symm | replace hk := hq)))
    | (refine kept_each ?_ ?_)
    | (refine kept_foldl ?_ ?_)
    | (refine kept_foldl2 ?_ ?_)
    | (intro _)
    | (dsimp only))

/-! ### Reserve.lean -/

theorem keep_unstage {a0 s : State} (h0 : Kept a0 s) (parcel : Nat) : Kept a0 (unstage parcel s) := by simp (maxDischargeDepth := 40) only [unstage, h0, implies_true, Kept.refl, kept_mk, kept_regsFilter]

theorem keep_parcelDefine {a0 s : State} (h0 : Kept a0 s) (c : Cmd) : Kept a0 (parcelDefine c s).2 := by
  have hk := h0
  unfold parcelDefine
  repeat' (first
    | (simp (maxDischargeDepth := 40) only [h0, hk, implies_true, Kept.refl, kept_mk, kept_regsFilter, keep_ans, keep_unstage]; done)
    | (split <;> (try (rename_i heq; have hq := congrArg (fun r => Kept a0 (Prod.snd r)) heq; clear heq; simp (maxDischargeDepth := 40) only [h0, hk, implies_true, Kept.refl, kept_mk, kept_regsFilter, keep_ans, keep_unstage] at hq; first | replace hk := of_eq_true hq.symm | replace hk := hq)))
    | (refine kept_each ?_ ?_)
    | (refine kept_foldl ?_ ?_)
    | (refine kept_foldl2 ?_ ?_)
    | (intro _)
    | (dsimp only))

theorem keep_resvRefused {a0 s : State} (h0 : Kept a0 s) (why : Option Loc) : Kept a0 (resvRefused why s) := by
  unfold resvRefused; split <;> simp (maxDischargeDepth := 40) only [h0, implies_true, Kept.refl, kept_mk, kept_regsFilter, keep_State_evt, keep_State_inc]

theorem keep_allocCtx {a0 s : State} (h0 : Kept a0 s) (n : Nat) (c : Ctx) : Kept a0 (allocCtx n c s) := by
  unfold allocCtx; split <;> simp (maxDischargeDepth := 40) only [h0, implies_true, Kept.refl, kept_mk, kept_regsFilter, keep_State_evt, keep_State_setCtx, keep_State_wr, keep_berthFree]

theorem keep_sendPart {a0 s : State} (h0 : Kept a0 s) (c : Ctx) (st tag : Nat) : Kept a0 (sendPart c st tag s) := by simp (maxDischargeDepth := 40) only [sendPart, h0, implies_true, Kept.refl, kept_mk, kept_regsFilter, keep_State_emit, keep_nodeSeal]

theorem keep_issueTag {a0 s : State} (h0 : Kept a0 s) (opcode st : Nat) (p : IssueFor) : Kept a0 (issueTag opcode st p s).2 := by simp (maxDischargeDepth := 40) only [issueTag, h0, implies_true, Kept.refl, kept_mk, kept_regsFilter]

theorem keep_sendParts {a0 s : State} (h0 : Kept a0 s) (n : Nat) (c : Ctx) : Kept a0 (sendParts n c s) := by
  unfold sendParts
  refine kept_each h0 (fun k t => ?_)
  dsimp only
  split
  · exact keep_State_later (keep_State_modCtx (Kept.refl t) _ _) _
  · split
    · exact keep_State_evt (keep_State_modCtx (Kept.refl t) _ _) _ _
    · exact keep_sendPart (keep_State_modCtx (keep_issueTag (Kept.refl t) _ _ _) _ _) _ _ _

theorem keep_remoteAnswer {a0 s : State} (h0 : Kept a0 s) (keyId origin tag : Nat) (via : Via) (a : Nat × Nat × Nat) : Kept a0 (remoteAnswer keyId origin tag via a s) := by simp (maxDischargeDepth := 40) only [remoteAnswer, h0, implies_true, Kept.refl, kept_mk, kept_regsFilter, keep_pilotFree, keep_remoteDone, keep_replyRemote]

theorem keep_settleResv {a0 y2 : State} (h0 : Kept a0 y2) (y0 : Nat) (y1 : Nat) : Kept a0 (settleResv y0 y1 y2) := by
  induction y0 generalizing y1 y2 with
  | zero => unfold settleResv; simp (maxDischargeDepth := 40) only [h0, implies_true, Kept.refl, kept_mk, kept_regsFilter, keep_State_modCtx, keep_finishJob, keep_freeParcel, keep_remoteAnswer, keep_unstage]
  | succ n ih => unfold settleResv; repeat' (first | (simp (maxDischargeDepth := 40) only [h0, ih, implies_true, Kept.refl, kept_mk, kept_regsFilter, keep_State_modCtx, keep_finishJob, keep_freeParcel, keep_remoteAnswer, keep_unstage]; done) | split | (dsimp only))

theorem keep_failAsker {a0 s : State} (h0 : Kept a0 s) (asker : Asker) (parcel st status : Nat) : Kept a0 (failAsker asker parcel st status s) := by
  unfold failAsker; split <;> simp (maxDischargeDepth := 40) only [h0, implies_true, Kept.refl, kept_mk, kept_regsFilter, keep_State_modCtx, keep_finishJob, keep_remoteAnswer, keep_settleResv, keep_unstage]

theorem keep_refuseAsker {a0 s : State} (h0 : Kept a0 s) (asker : Asker) (parcel status : Nat) : Kept a0 (refuseAsker asker parcel status s) := by simp (maxDischargeDepth := 40) only [refuseAsker, h0, implies_true, Kept.refl, kept_mk, kept_regsFilter, keep_failAsker]

theorem keep_claimRefused {a0 s : State} (h0 : Kept a0 s) (asker : Asker) (parcel : Nat) : Kept a0 (claimRefused asker parcel s) := by
  unfold claimRefused; split <;> simp (maxDischargeDepth := 40) only [h0, implies_true, Kept.refl, kept_mk, kept_regsFilter, keep_finishJob, keep_refuseAsker]

theorem keep_reserveNode {a0 s : State} (h0 : Kept a0 s) (level : Nat) (pub : Bool) (asker : Asker) (parent : Nat) (p : ResvPart) (claimed : Tbl (List Nat)) : Kept a0 (reserveNode level pub asker parent p claimed s) := by
  have hk := h0
  unfold reserveNode
  repeat' (first
    | (simp (maxDischargeDepth := 40) only [h0, hk, implies_true, Kept.refl, kept_mk, kept_regsFilter, keep_allocCtx, keep_refuseAsker, keep_resvRefused, keep_sendParts, keep_settleResv]; done)
    | (split <;> (try (rename_i heq; have hq := congrArg (fun r => Kept a0 (Prod.snd r)) heq; clear heq; simp (maxDischargeDepth := 40) only [h0, hk, implies_true, Kept.refl, kept_mk, kept_regsFilter, keep_allocCtx, keep_refuseAsker, keep_resvRefused, keep_sendParts, keep_settleResv] at hq; first | replace hk := of_eq_true hq.symm | replace hk := hq)))
    | (refine kept_each ?_ ?_)
    | (refine kept_foldl ?_ ?_)
    | (refine kept_foldl2 ?_ ?_)
    | (intro _)
    | (dsimp only))

theorem keep_putClaim {a0 s : State} (h0 : Kept a0 s) (c : ClaimSt) : Kept a0 (putClaim c s) := by simp (maxDischargeDepth := 40) only [putClaim, h0, implies_true, Kept.refl, kept_mk, kept_regsFilter]

theorem keep_dropClaim {a0 s : State} (h0 : Kept a0 s) (parcel level : Nat) : Kept a0 (dropClaim parcel level s) := by simp (maxDischargeDepth := 40) only [dropClaim, h0, implies_true, Kept.refl, kept_mk, kept_regsFilter]

theorem keep_sendAsk {a0 s : State} (h0 : Kept a0 s) (parcel level st : Nat) (trays : List Nat) : Kept a0 (sendAsk parcel level st trays s) := by simp (maxDischargeDepth := 40) only [sendAsk, h0, implies_true, Kept.refl, kept_mk, kept_regsFilter, keep_State_emit, keep_issueTag, keep_nodeSeal]

theorem keep_claimBegin {a0 s : State} (h0 : Kept a0 s) (c : ClaimSt) : Kept a0 (claimBegin c s) := by
  have hk := h0
  unfold claimBegin
  repeat' (first
    | (simp (maxDischargeDepth := 40) only [h0, hk, implies_true, Kept.refl, kept_mk, kept_regsFilter, keep_State_each, keep_State_later, keep_putClaim, keep_sendAsk]; done)
    | (split <;> (try (rename_i heq; have hq := congrArg (fun r => Kept a0 (Prod.snd r)) heq; clear heq; simp (maxDischargeDepth := 40) only [h0, hk, implies_true, Kept.refl, kept_mk, kept_regsFilter, keep_State_each, keep_State_later, keep_putClaim, keep_sendAsk] at hq; first | replace hk := of_eq_true hq.symm | replace hk := hq)))
    | (refine kept_each ?_ ?_)
    | (refine kept_foldl ?_ ?_)
    | (refine kept_foldl2 ?_ ?_)
    | (intro _)
    | (dsimp only))

theorem keep_claimReply {a0 s : State} (h0 : Kept a0 s) (keyId origin tag parcel : Nat) (trays : List Nat) : Kept a0 (claimReply keyId origin tag parcel trays s) := by simp (maxDischargeDepth := 40) only [claimReply, h0, implies_true, Kept.refl, kept_mk, kept_regsFilter, keep_State_emit, keep_pilotFree, keep_remoteDone, keep_replySeal]

theorem keep_claimLost {a0 s : State} (h0 : Kept a0 s) (keyId origin tag parcel gone : Nat) : Kept a0 (claimLost keyId origin tag parcel gone s) := by simp (maxDischargeDepth := 40) only [claimLost, h0, implies_true, Kept.refl, kept_mk, kept_regsFilter, keep_State_emit, keep_pilotFree, keep_remoteDone, keep_replySeal]

theorem keep_claimDone {a0 y3 : State} (h0 : Kept a0 y3) (y0 : Nat) (y1 : Nat) (y2 : Nat) : Kept a0 (claimDone y0 y1 y2 y3) := by
  induction y0 generalizing y1 y2 y3 with
  | zero => unfold claimDone; simp (maxDischargeDepth := 40) only [h0, implies_true, Kept.refl, kept_mk, kept_regsFilter, keep_State_evt, keep_claimBegin, keep_claimLost, keep_claimRefused, keep_claimReply, keep_dropClaim, keep_failAsker, keep_putClaim, keep_reserveNode]
  | succ n ih => unfold claimDone; repeat' (first | (simp (maxDischargeDepth := 40) only [h0, ih, implies_true, Kept.refl, kept_mk, kept_regsFilter, keep_State_evt, keep_claimBegin, keep_claimLost, keep_claimRefused, keep_claimReply, keep_dropClaim, keep_failAsker, keep_putClaim, keep_reserveNode]; done) | split | (dsimp only))

theorem keep_claimStart {a0 s : State} (h0 : Kept a0 s) (c : ClaimSt) : Kept a0 (claimStart c s) := by simp (maxDischargeDepth := 40) only [claimStart, h0, implies_true, Kept.refl, kept_mk, kept_regsFilter, keep_claimBegin, keep_claimDone]

theorem keep_claimIn {a0 s : State} (h0 : Kept a0 s) (e : EnvSeal) (tag st parcel : Nat) (ws : List Word) (f : ClaimSt → ClaimSt) : Kept a0 (claimIn e tag st parcel ws f s) := by
  unfold claimIn
  split
  · simp only [keep_authFail, h0]
  · refine keep_replyCheck h0 _ _ _ _ (fun t => ?_)
    dsimp only
    have h1 := fun x => keep_issuedDone (Kept.refl t) x
    split
    · exact h1 _
    · exact keep_claimDone (keep_putClaim (h1 _) _) _ _ _

theorem keep_claimAnswerIn {a0 s : State} (h0 : Kept a0 s) (e : EnvSeal) (tag st parcel : Nat) (trays : List Nat) : Kept a0 (claimAnswerIn e tag st parcel trays s) := by simp (maxDischargeDepth := 40) only [claimAnswerIn, h0, implies_true, Kept.refl, kept_mk, kept_regsFilter, keep_claimIn]

theorem keep_claimFailedIn {a0 s : State} (h0 : Kept a0 s) (e : EnvSeal) (tag st parcel gone : Nat) : Kept a0 (claimFailedIn e tag st parcel gone s) := by simp (maxDischargeDepth := 40) only [claimFailedIn, h0, implies_true, Kept.refl, kept_mk, kept_regsFilter, keep_claimIn]

theorem keep_nodeCommand {a0 s : State} (h0 : Kept a0 s) (e : EnvSeal) (tag : Nat) (via : Via) (ws : List Word) (x : Launch) (f : State → State) (hf : ∀ x0, Kept x0 (f x0)) : Kept a0 (nodeCommand e tag via ws x f s) := by
  unfold nodeCommand
  split
  · exact h0
  · refine keep_envAdmit h0 _ _ _ _ (fun t => keep_replyRemote (Kept.refl t) _ _ _ _) (fun k t => ?_)
    dsimp only
    have h1 : Kept t ((t.inc PIL_REMOTE 1).inc PIL_CMDS 1) := keep_State_inc (keep_State_inc (Kept.refl t) _ _) _ _
    exact kept_ite (keep_remoteDone (keep_replyRemote (keep_State_inc h1 _ _) _ _ _ _)) (keep_launchOr h1 _ _ hf)

theorem keep_askRefused {a0 s : State} (h0 : Kept a0 s) (e : EnvSeal) (tag : Nat) (via : Via) (status : Nat) : Kept a0 (askRefused e tag via status s) := by simp (maxDischargeDepth := 40) only [askRefused, h0, implies_true, Kept.refl, kept_mk, kept_regsFilter, keep_State_inc, keep_pilotFree, keep_remoteDone, keep_replyRemote]

theorem keep_claimAsk {a0 s : State} (h0 : Kept a0 s) (e : EnvSeal) (tag : Nat) (via : Via) (parcel level : Nat) (trays : List Nat) : Kept a0 (claimAsk e tag via parcel level trays s) := by
  have hk := h0
  unfold claimAsk
  repeat' (first
    | (simp (maxDischargeDepth := 40) only [h0, hk, implies_true, Kept.refl, kept_mk, kept_regsFilter, keep_askRefused, keep_claimReply, keep_claimStart]; done)
    | (split <;> (try (rename_i heq; have hq := congrArg (fun r => Kept a0 (Prod.snd r)) heq; clear heq; simp (maxDischargeDepth := 40) only [h0, hk, implies_true, Kept.refl, kept_mk, kept_regsFilter, keep_askRefused, keep_claimReply, keep_claimStart] at hq; first | replace hk := of_eq_true hq.symm | replace hk := hq)))
    | (refine kept_each ?_ ?_)
    | (refine kept_foldl ?_ ?_)
    | (refine kept_foldl2 ?_ ?_)
    | (intro _)
    | (dsimp only))

theorem keep_claimAskIn {a0 s : State} (h0 : Kept a0 s) (e : EnvSeal) (tag : Nat) (via : Via) (parcel level : Nat) (trays : List Nat) : Kept a0 (claimAskIn e tag via parcel level trays s) := by simp (maxDischargeDepth := 40) only [claimAskIn, h0, implies_true, Kept.refl, kept_mk, kept_regsFilter, keep_claimAsk, keep_nodeCommand]

theorem keep_ownClaim {a0 s : State} (h0 : Kept a0 s) (parcel level : Nat) (trays : List Nat) : Kept a0 (ownClaim parcel level trays s) := by simp (maxDischargeDepth := 40) only [ownClaim, h0, implies_true, Kept.refl, kept_mk, kept_regsFilter, keep_claimStart]

theorem keep_partIn {a0 s : State} (h0 : Kept a0 s) (asker : Asker) (parent : Nat) (p : ResvPart) : Kept a0 (partIn asker parent p s) := by
  have hk := h0
  unfold partIn
  repeat' (first
    | (simp (maxDischargeDepth := 40) only [h0, hk, implies_true, Kept.refl, kept_mk, kept_regsFilter, keep_claimStart, keep_refuseAsker, keep_reserveNode, keep_resvRefused]; done)
    | (split <;> (try (rename_i heq; have hq := congrArg (fun r => Kept a0 (Prod.snd r)) heq; clear heq; simp (maxDischargeDepth := 40) only [h0, hk, implies_true, Kept.refl, kept_mk, kept_regsFilter, keep_claimStart, keep_refuseAsker, keep_reserveNode, keep_resvRefused] at hq; first | replace hk := of_eq_true hq.symm | replace hk := hq)))
    | (refine kept_each ?_ ?_)
    | (refine kept_foldl ?_ ?_)
    | (refine kept_foldl2 ?_ ?_)
    | (intro _)
    | (dsimp only))

theorem keep_partTake {a0 s : State} (h0 : Kept a0 s) (p : ResvPart) : Kept a0 (partTake p s) := by
  have hk := h0
  unfold partTake
  repeat' (first
    | (simp (maxDischargeDepth := 40) only [h0, hk, implies_true, Kept.refl, kept_mk, kept_regsFilter, keep_State_modCtx, keep_partIn, keep_refuseAsker, keep_resvRefused, keep_settleResv]; done)
    | (split <;> (try (rename_i heq; have hq := congrArg (fun r => Kept a0 (Prod.snd r)) heq; clear heq; simp (maxDischargeDepth := 40) only [h0, hk, implies_true, Kept.refl, kept_mk, kept_regsFilter, keep_State_modCtx, keep_partIn, keep_refuseAsker, keep_resvRefused, keep_settleResv] at hq; first | replace hk := of_eq_true hq.symm | replace hk := hq)))
    | (refine kept_each ?_ ?_)
    | (refine kept_foldl ?_ ?_)
    | (refine kept_foldl2 ?_ ?_)
    | (intro _)
    | (dsimp only))

theorem keep_partReceive {a0 s : State} (h0 : Kept a0 s) (p : ResvPart) : Kept a0 (partReceive p s) := by simp (maxDischargeDepth := 40) only [partReceive, h0, implies_true, Kept.refl, kept_mk, kept_regsFilter, keep_nodeCommand, keep_partTake]

theorem keep_ownPart {a0 s : State} (h0 : Kept a0 s) (ctx : Nat) (p : ResvPart) : Kept a0 (ownPart ctx p s) := by simp (maxDischargeDepth := 40) only [ownPart, h0, implies_true, Kept.refl, kept_mk, kept_regsFilter, keep_partIn]

theorem keep_partAnswer {a0 s : State} (h0 : Kept a0 s) (parcel st : Nat) (a : Nat × Nat × Nat) : Kept a0 (partAnswer parcel st a s) := by
  unfold partAnswer; split <;> simp (maxDischargeDepth := 40) only [h0, implies_true, Kept.refl, kept_mk, kept_regsFilter, keep_State_modCtx, keep_settleResv]

theorem keep_resvResend {a0 s : State} (h0 : Kept a0 s) (parcel level : Nat) : Kept a0 (resvResend parcel level s) := by
  have hk := h0
  unfold resvResend
  repeat' (first
    | (simp (maxDischargeDepth := 40) only [h0, hk, implies_true, Kept.refl, kept_mk, kept_regsFilter, keep_State_each, keep_State_evt, keep_State_modCtx, keep_claimDone, keep_issueTag, keep_putClaim, keep_sendAsk, keep_sendPart, keep_settleResv]; done)
    | (split <;> (try (rename_i heq; have hq := congrArg (fun r => Kept a0 (Prod.snd r)) heq; clear heq; simp (maxDischargeDepth := 40) only [h0, hk, implies_true, Kept.refl, kept_mk, kept_regsFilter, keep_State_each, keep_State_evt, keep_State_modCtx, keep_claimDone, keep_issueTag, keep_putClaim, keep_sendAsk, keep_sendPart, keep_settleResv] at hq; first | replace hk := of_eq_true hq.symm | replace hk := hq)))
    | (refine kept_each ?_ ?_)
    | (refine kept_foldl ?_ ?_)
    | (refine kept_foldl2 ?_ ?_)
    | (intro _)
    | (dsimp only))

theorem keep_reserveBegin {a0 s : State} (h0 : Kept a0 s) (id parcel period prio : Nat) : Kept a0 (reserveBegin id parcel period prio s) := by
  have hk := h0
  unfold reserveBegin
  repeat' (first
    | (simp (maxDischargeDepth := 40) only [h0, hk, implies_true, Kept.refl, kept_mk, kept_regsFilter, keep_claimRefused, keep_claimStart, keep_reserveNode]; done)
    | (split <;> (try (rename_i heq; have hq := congrArg (fun r => Kept a0 (Prod.snd r)) heq; clear heq; simp (maxDischargeDepth := 40) only [h0, hk, implies_true, Kept.refl, kept_mk, kept_regsFilter, keep_claimRefused, keep_claimStart, keep_reserveNode] at hq; first | replace hk := of_eq_true hq.symm | replace hk := hq)))
    | (refine kept_each ?_ ?_)
    | (refine kept_foldl ?_ ?_)
    | (refine kept_foldl2 ?_ ?_)
    | (intro _)
    | (dsimp only))

theorem keep_parcelReserve {a0 s : State} (h0 : Kept a0 s) (c : Cmd) : Kept a0 (parcelReserve c s).2 := by
  have hk := h0
  unfold parcelReserve
  repeat' (first
    | (simp (maxDischargeDepth := 40) only [h0, hk, implies_true, Kept.refl, kept_mk, kept_regsFilter, keep_State_later, keep_ans]; done)
    | (split <;> (try (rename_i heq; have hq := congrArg (fun r => Kept a0 (Prod.snd r)) heq; clear heq; simp (maxDischargeDepth := 40) only [h0, hk, implies_true, Kept.refl, kept_mk, kept_regsFilter, keep_State_later, keep_ans] at hq; first | replace hk := of_eq_true hq.symm | replace hk := hq)))
    | (refine kept_each ?_ ?_)
    | (refine kept_foldl ?_ ?_)
    | (refine kept_foldl2 ?_ ?_)
    | (intro _)
    | (dsimp only))

theorem keep_resvLapse {a0 s : State} (h0 : Kept a0 s) (parcel : Nat) : Kept a0 (resvLapse parcel s) := by
  have hk := h0
  unfold resvLapse
  repeat' (first
    | (simp (maxDischargeDepth := 40) only [h0, hk, implies_true, Kept.refl, kept_mk, kept_regsFilter, keep_State_evt, keep_State_inc, keep_freeParcel]; done)
    | (split <;> (try (rename_i heq; have hq := congrArg (fun r => Kept a0 (Prod.snd r)) heq; clear heq; simp (maxDischargeDepth := 40) only [h0, hk, implies_true, Kept.refl, kept_mk, kept_regsFilter, keep_State_evt, keep_State_inc, keep_freeParcel] at hq; first | replace hk := of_eq_true hq.symm | replace hk := hq)))
    | (refine kept_each ?_ ?_)
    | (refine kept_foldl ?_ ?_)
    | (refine kept_foldl2 ?_ ?_)
    | (intro _)
    | (dsimp only))

/-! ### Strobe.lean -/

theorem keep_barEffect {a0 s : State} (h0 : Kept a0 s) (r : Ruling) : Kept a0 (barEffect r s) := by simp (maxDischargeDepth := 40) only [barEffect, h0, implies_true, Kept.refl, kept_mk, kept_regsFilter, keep_State_each, keep_State_modCtx]

theorem keep_platEffect {a0 s : State} (h0 : Kept a0 s) (r : Ruling) : Kept a0 (platEffect r s) := by
  have hk := h0
  unfold platEffect
  repeat' (first
    | (simp (maxDischargeDepth := 40) only [h0, hk, implies_true, Kept.refl, kept_mk, kept_regsFilter, keep_State_evt, keep_State_modCtx]; done)
    | (split <;> (try (rename_i heq; have hq := congrArg (fun r => Kept a0 (Prod.snd r)) heq; clear heq; simp (maxDischargeDepth := 40) only [h0, hk, implies_true, Kept.refl, kept_mk, kept_regsFilter, keep_State_evt, keep_State_modCtx] at hq; first | replace hk := of_eq_true hq.symm | replace hk := hq)))
    | (refine kept_each ?_ ?_)
    | (refine kept_foldl ?_ ?_)
    | (refine kept_foldl2 ?_ ?_)
    | (intro _)
    | (dsimp only))

theorem keep_subEffect {a0 s : State} (h0 : Kept a0 s) (r : Ruling) : Kept a0 (subEffect r s) := by simp (maxDischargeDepth := 40) only [subEffect, h0, implies_true, Kept.refl, kept_mk, kept_regsFilter, keep_State_each, keep_State_evt, keep_State_modCtx]

theorem keep_epochRuling {a0 s : State} (h0 : Kept a0 s) (r : Ruling) : Kept a0 (epochRuling r s) := by
  have hk := h0
  unfold epochRuling
  repeat' (first
    | (simp (maxDischargeDepth := 40) only [h0, hk, implies_true, Kept.refl, kept_mk, kept_regsFilter, keep_State_inc, keep_barEffect, keep_dropPend, keep_platEffect, keep_subEffect]; done)
    | (split <;> (try (rename_i heq; have hq := congrArg (fun r => Kept a0 (Prod.snd r)) heq; clear heq; simp (maxDischargeDepth := 40) only [h0, hk, implies_true, Kept.refl, kept_mk, kept_regsFilter, keep_State_inc, keep_barEffect, keep_dropPend, keep_platEffect, keep_subEffect] at hq; first | replace hk := of_eq_true hq.symm | replace hk := hq)))
    | (refine kept_each ?_ ?_)
    | (refine kept_foldl ?_ ?_)
    | (refine kept_foldl2 ?_ ?_)
    | (intro _)
    | (dsimp only))

theorem keep_epochEnd {a0 s : State} (h0 : Kept a0 s) (n cut : Nat) : Kept a0 (epochEnd n cut s) := by
  have hk := h0
  unfold epochEnd
  repeat' (first
    | (simp (maxDischargeDepth := 40) only [h0, hk, implies_true, Kept.refl, kept_mk, kept_regsFilter, keep_State_modEpoch, keep_advanceAll]; done)
    | (split <;> (try (rename_i heq; have hq := congrArg (fun r => Kept a0 (Prod.snd r)) heq; clear heq; simp (maxDischargeDepth := 40) only [h0, hk, implies_true, Kept.refl, kept_mk, kept_regsFilter, keep_State_modEpoch, keep_advanceAll] at hq; first | replace hk := of_eq_true hq.symm | replace hk := hq)))
    | (refine kept_each ?_ ?_)
    | (refine kept_foldl ?_ ?_)
    | (refine kept_foldl2 ?_ ?_)
    | (intro _)
    | (dsimp only))

theorem keep_epochBegin {a0 s : State} (h0 : Kept a0 s) (n cut seq : Nat) : Kept a0 (epochBegin n cut seq s) := by
  have hk := h0
  unfold epochBegin
  repeat' (first
    | (simp (maxDischargeDepth := 40) only [h0, hk, implies_true, Kept.refl, kept_mk, kept_regsFilter, keep_State_evt, keep_State_modCtx, keep_drainFree]; done)
    | (split <;> (try (rename_i heq; have hq := congrArg (fun r => Kept a0 (Prod.snd r)) heq; clear heq; simp (maxDischargeDepth := 40) only [h0, hk, implies_true, Kept.refl, kept_mk, kept_regsFilter, keep_State_evt, keep_State_modCtx, keep_drainFree] at hq; first | replace hk := of_eq_true hq.symm | replace hk := hq)))
    | (refine kept_each ?_ ?_)
    | (refine kept_foldl ?_ ?_)
    | (refine kept_foldl2 ?_ ?_)
    | (intro _)
    | (dsimp only))

theorem keep_ownEval {a0 s : State} (h0 : Kept a0 s) (n : Nat) (e : Epoch) : Kept a0 (ownEval n e s) := by
  have hk := h0
  unfold ownEval
  repeat' (first
    | (simp (maxDischargeDepth := 40) only [h0, hk, implies_true, Kept.refl, kept_mk, kept_regsFilter, keep_State_modEpoch, keep_advanceAll, keep_buildPut, keep_cadBegin, keep_evalEpoch, keep_tryFinish]; done)
    | (split <;> (try (rename_i heq; have hq := congrArg (fun r => Kept a0 (Prod.snd r)) heq; clear heq; simp (maxDischargeDepth := 40) only [h0, hk, implies_true, Kept.refl, kept_mk, kept_regsFilter, keep_State_modEpoch, keep_advanceAll, keep_buildPut, keep_cadBegin, keep_evalEpoch, keep_tryFinish] at hq; first | replace hk := of_eq_true hq.symm | replace hk := hq)))
    | (refine kept_each ?_ ?_)
    | (refine kept_foldl ?_ ?_)
    | (refine kept_foldl2 ?_ ?_)
    | (intro _)
    | (dsimp only))

theorem keep_rowProbes {a0 s : State} (h0 : Kept a0 s) (n k : Nat) : Kept a0 (rowProbes n k s) := by
  have hk := h0
  unfold rowProbes
  repeat' (first
    | (simp (maxDischargeDepth := 40) only [h0, hk, implies_true, Kept.refl, kept_mk, kept_regsFilter, keep_State_modEpoch]; done)
    | (split <;> (try (rename_i heq; have hq := congrArg (fun r => Kept a0 (Prod.snd r)) heq; clear heq; simp (maxDischargeDepth := 40) only [h0, hk, implies_true, Kept.refl, kept_mk, kept_regsFilter, keep_State_modEpoch] at hq; first | replace hk := of_eq_true hq.symm | replace hk := hq)))
    | (refine kept_each ?_ ?_)
    | (refine kept_foldl ?_ ?_)
    | (refine kept_foldl2 ?_ ?_)
    | (intro _)
    | (dsimp only))

theorem keep_evalReady {a0 s : State} (h0 : Kept a0 s)  : Kept a0 (evalReady s) := by
  have hk := h0
  unfold evalReady
  repeat' (first
    | (simp (maxDischargeDepth := 40) only [h0, hk, implies_true, Kept.refl, kept_mk, kept_regsFilter, keep_State_each, keep_ownEval, keep_rowProbes]; done)
    | (split <;> (try (rename_i heq; have hq := congrArg (fun r => Kept a0 (Prod.snd r)) heq; clear heq; simp (maxDischargeDepth := 40) only [h0, hk, implies_true, Kept.refl, kept_mk, kept_regsFilter, keep_State_each, keep_ownEval, keep_rowProbes] at hq; first | replace hk := of_eq_true hq.symm | replace hk := hq)))
    | (refine kept_each ?_ ?_)
    | (refine kept_foldl ?_ ?_)
    | (refine kept_foldl2 ?_ ?_)
    | (intro _)
    | (dsimp only))

theorem keep_seqTake {a0 s : State} (h0 : Kept a0 s) (q : Nat) : Kept a0 (seqTake q s) := by simp (maxDischargeDepth := 40) only [seqTake, h0, implies_true, Kept.refl, kept_mk, kept_regsFilter]

theorem keep_strobe {a0 s : State} (h0 : Kept a0 s) (parcel : Nat) (lanes : List TapLane) : Kept a0 (strobe parcel lanes s) := by
  have hk := h0
  unfold strobe
  repeat' (first
    | (simp (maxDischargeDepth := 40) only [h0, hk, implies_true, Kept.refl, kept_mk, kept_regsFilter, keep_State_each, keep_countLanes, keep_epochBegin, keep_epochEnd, keep_epochRuling, keep_evalReady, keep_pruneBeats, keep_pruneCuts, keep_seqTake, keep_takeCut]; done)
    | (split <;> (try (rename_i heq; have hq := congrArg (fun r => Kept a0 (Prod.snd r)) heq; clear heq; simp (maxDischargeDepth := 40) only [h0, hk, implies_true, Kept.refl, kept_mk, kept_regsFilter, keep_State_each, keep_countLanes, keep_epochBegin, keep_epochEnd, keep_epochRuling, keep_evalReady, keep_pruneBeats, keep_pruneCuts, keep_seqTake, keep_takeCut] at hq; first | replace hk := of_eq_true hq.symm | replace hk := hq)))
    | (refine kept_each ?_ ?_)
    | (refine kept_foldl ?_ ?_)
    | (refine kept_foldl2 ?_ ?_)
    | (intro _)
    | (dsimp only))

/-! ### Wake.lean -/

theorem keep_State_modWak {a0 s : State} (h0 : Kept a0 s) (f : WakSt → WakSt) : Kept a0 (State.modWak s f) := by simp (maxDischargeDepth := 40) only [State.modWak, h0, implies_true, Kept.refl, kept_mk, kept_regsFilter]

theorem keep_wakFill {a0 s : State} (h0 : Kept a0 s)  : Kept a0 (wakFill s) := by simp (maxDischargeDepth := 40) only [wakFill, h0, implies_true, Kept.refl, kept_mk, kept_regsFilter, keep_State_wr]

theorem keep_wakShedding {a0 s : State} (h0 : Kept a0 s)  : Kept a0 (wakShedding s) := by simp (maxDischargeDepth := 40) only [wakShedding, h0, implies_true, Kept.refl, kept_mk, kept_regsFilter, keep_State_modWak]

theorem keep_wakPlace {a0 s : State} (h0 : Kept a0 s) (post sync : Bool) (type stamp : Nat) (bs : List Byte) : Kept a0 (wakPlace post sync type stamp bs s).2 := by
  have hk := h0
  unfold wakPlace
  repeat' (first
    | (simp (maxDischargeDepth := 40) only [h0, hk, implies_true, Kept.refl, kept_mk, kept_regsFilter, keep_State_inc, keep_State_modWak, keep_memReadBack, keep_memWritten, keep_wakFill, keep_wakShedding]; done)
    | (split <;> (try (rename_i heq; have hq := congrArg (fun r => Kept a0 (Prod.snd r)) heq; clear heq; simp (maxDischargeDepth := 40) only [h0, hk, implies_true, Kept.refl, kept_mk, kept_regsFilter, keep_State_inc, keep_State_modWak, keep_memReadBack, keep_memWritten, keep_wakFill, keep_wakShedding] at hq; first | replace hk := of_eq_true hq.symm | replace hk := hq)))
    | (refine kept_each ?_ ?_)
    | (refine kept_foldl ?_ ?_)
    | (refine kept_foldl2 ?_ ?_)
    | (intro _)
    | (dsimp only))

theorem keep_noteLoss {a0 s : State} (h0 : Kept a0 s) (reason nAcc nOther : Nat) : Kept a0 (noteLoss reason nAcc nOther s) := by simp (maxDischargeDepth := 40) only [noteLoss, h0, implies_true, Kept.refl, kept_mk, kept_regsFilter, keep_State_modWak]

theorem keep_wakLossOut {a0 s : State} (h0 : Kept a0 s) (post : Bool) (stamp : Nat) : Kept a0 (wakLossOut post stamp s).2 := by
  have hk := h0
  unfold wakLossOut
  repeat' (first
    | (simp (maxDischargeDepth := 40) only [h0, hk, implies_true, Kept.refl, kept_mk, kept_regsFilter, keep_State_evt, keep_State_inc, keep_State_modWak, keep_wakPlace]; done)
    | (split <;> (try (rename_i heq; have hq := congrArg (fun r => Kept a0 (Prod.snd r)) heq; clear heq; simp (maxDischargeDepth := 40) only [h0, hk, implies_true, Kept.refl, kept_mk, kept_regsFilter, keep_State_evt, keep_State_inc, keep_State_modWak, keep_wakPlace] at hq; first | replace hk := of_eq_true hq.symm | replace hk := hq)))
    | (refine kept_each ?_ ?_)
    | (refine kept_foldl ?_ ?_)
    | (refine kept_foldl2 ?_ ?_)
    | (intro _)
    | (dsimp only))

theorem keep_wakOut {a0 s : State} (h0 : Kept a0 s) (post : Bool) (type low stamp : Nat) (body : List Byte) : Kept a0 (wakOut post type low stamp body s) := by
  have hk := h0
  unfold wakOut
  repeat' (first
    | (simp (maxDischargeDepth := 40) only [h0, hk, implies_true, Kept.refl, kept_mk, kept_regsFilter, keep_State_inc, keep_noteLoss, keep_wakPlace]; done)
    | (split <;> (try (rename_i heq; have hq := congrArg (fun r => Kept a0 (Prod.snd r)) heq; clear heq; simp (maxDischargeDepth := 40) only [h0, hk, implies_true, Kept.refl, kept_mk, kept_regsFilter, keep_State_inc, keep_noteLoss, keep_wakPlace] at hq; first | replace hk := of_eq_true hq.symm | replace hk := hq)))
    | (refine kept_each ?_ ?_)
    | (refine kept_foldl ?_ ?_)
    | (refine kept_foldl2 ?_ ?_)
    | (intro _)
    | (dsimp only))

theorem keep_wakSyncOut {a0 s : State} (h0 : Kept a0 s) (post : Bool) (reason time info stamp : Nat) : Kept a0 (wakSyncOut post reason time info stamp s) := by
  have hk := h0
  unfold wakSyncOut
  repeat' (first
    | (simp (maxDischargeDepth := 40) only [h0, hk, implies_true, Kept.refl, kept_mk, kept_regsFilter, keep_State_inc, keep_State_modWak, keep_noteLoss, keep_wakPlace]; done)
    | (split <;> (try (rename_i heq; have hq := congrArg (fun r => Kept a0 (Prod.snd r)) heq; clear heq; simp (maxDischargeDepth := 40) only [h0, hk, implies_true, Kept.refl, kept_mk, kept_regsFilter, keep_State_inc, keep_State_modWak, keep_noteLoss, keep_wakPlace] at hq; first | replace hk := of_eq_true hq.symm | replace hk := hq)))
    | (refine kept_each ?_ ?_)
    | (refine kept_foldl ?_ ?_)
    | (refine kept_foldl2 ?_ ?_)
    | (intro _)
    | (dsimp only))

theorem keep_wakEnqueue {a0 s : State} (h0 : Kept a0 s) (rank : Nat) (post : Bool) (body : WakBody) : Kept a0 (wakEnqueue rank post body s) := by simp (maxDischargeDepth := 40) only [wakEnqueue, h0, implies_true, Kept.refl, kept_mk, kept_regsFilter, keep_State_modWak]

theorem keep_wakPut {a0 s : State} (h0 : Kept a0 s) (post : Bool) (type low : Nat) (body : List Byte) : Kept a0 (wakPut post type low body s) := by simp (maxDischargeDepth := 40) only [wakPut, h0, implies_true, Kept.refl, kept_mk, kept_regsFilter, keep_wakEnqueue]

theorem keep_wakWrite {a0 s : State} (h0 : Kept a0 s) (type low : Nat) (body : List Byte) : Kept a0 (wakWrite type low body s) := by
  unfold wakWrite; split <;> simp (maxDischargeDepth := 40) only [h0, implies_true, Kept.refl, kept_mk, kept_regsFilter, keep_wakPut]

theorem keep_wakSyncTo {a0 s : State} (h0 : Kept a0 s) (post : Bool) (reason : Nat) : Kept a0 (wakSyncTo post reason s) := by simp (maxDischargeDepth := 40) only [wakSyncTo, h0, implies_true, Kept.refl, kept_mk, kept_regsFilter, keep_wakEnqueue]

theorem keep_wakSync {a0 s : State} (h0 : Kept a0 s) (reason : Nat) : Kept a0 (wakSync reason s) := by
  unfold wakSync; split <;> simp (maxDischargeDepth := 40) only [h0, implies_true, Kept.refl, kept_mk, kept_regsFilter, keep_wakSyncTo]

theorem keep_wakSyncDue {a0 s : State} (h0 : Kept a0 s)  : Kept a0 (wakSyncDue s) := by
  unfold wakSyncDue; split <;> simp (maxDischargeDepth := 40) only [h0, implies_true, Kept.refl, kept_mk, kept_regsFilter, keep_wakSync]

theorem keep_wakLeave {a0 s : State} (h0 : Kept a0 s)  : Kept a0 (wakLeave s) := by
  have hk := h0
  unfold wakLeave
  repeat' (first
    | (simp (maxDischargeDepth := 40) only [h0, hk, implies_true, Kept.refl, kept_mk, kept_regsFilter, keep_State_putB, keep_askLeave, keep_releaseLeave]; done)
    | (split <;> (try (rename_i heq; have hq := congrArg (fun r => Kept a0 (Prod.snd r)) heq; clear heq; simp (maxDischargeDepth := 40) only [h0, hk, implies_true, Kept.refl, kept_mk, kept_regsFilter, keep_State_putB, keep_askLeave, keep_releaseLeave] at hq; first | replace hk := of_eq_true hq.symm | replace hk := hq)))
    | (refine kept_each ?_ ?_)
    | (refine kept_foldl ?_ ?_)
    | (refine kept_foldl2 ?_ ?_)
    | (intro _)
    | (dsimp only))

theorem keep_wakGranted {a0 s : State} (h0 : Kept a0 s)  : Kept a0 (wakGranted s) := by simp (maxDischargeDepth := 40) only [wakGranted, h0, implies_true, Kept.refl, kept_mk, kept_regsFilter, keep_State_putB, keep_wakLeave]

theorem keep_wakRefused {a0 s : State} (h0 : Kept a0 s) (waited : Bool) : Kept a0 (wakRefused waited s) := by
  unfold wakRefused; split <;> simp (maxDischargeDepth := 40) only [h0, implies_true, Kept.refl, kept_mk, kept_regsFilter, keep_State_evt, keep_State_modWak, keep_wakLeave]

theorem keep_wakAskAgain {a0 s : State} (h0 : Kept a0 s)  : Kept a0 (wakAskAgain s) := by
  unfold wakAskAgain; split <;> simp (maxDischargeDepth := 40) only [h0, implies_true, Kept.refl, kept_mk, kept_regsFilter, keep_State_modWak, keep_wakLeave]

theorem keep_drainOne {a0 s : State} (h0 : Kept a0 s)  : Kept a0 (drainOne s) := by
  have hk := h0
  unfold drainOne
  repeat' (first
    | (simp (maxDischargeDepth := 40) only [h0, hk, implies_true, Kept.refl, kept_mk, kept_regsFilter, keep_State_evt, keep_State_inc, keep_State_modWak, keep_storeRing, keep_wakFill, keep_wakShedding]; done)
    | (split <;> (try (rename_i heq; have hq := congrArg (fun r => Kept a0 (Prod.snd r)) heq; clear heq; simp (maxDischargeDepth := 40) only [h0, hk, implies_true, Kept.refl, kept_mk, kept_regsFilter, keep_State_evt, keep_State_inc, keep_State_modWak, keep_storeRing, keep_wakFill, keep_wakShedding] at hq; first | replace hk := of_eq_true hq.symm | replace hk := hq)))
    | (refine kept_each ?_ ?_)
    | (refine kept_foldl ?_ ?_)
    | (refine kept_foldl2 ?_ ?_)
    | (intro _)
    | (dsimp only))

theorem keep_sessionEnd {a0 s : State} (h0 : Kept a0 s)  : Kept a0 (sessionEnd s) := by simp (maxDischargeDepth := 40) only [sessionEnd, h0, implies_true, Kept.refl, kept_mk, kept_regsFilter, keep_State_each, keep_State_evt, keep_State_modWak, keep_State_putB, keep_finishJob, keep_wakLeave]

theorem keep_drainUnit {a0 s : State} (h0 : Kept a0 s)  : Kept a0 (drainUnit s) := by
  have hk := h0
  unfold drainUnit
  repeat' (first
    | (simp (maxDischargeDepth := 40) only [h0, hk, implies_true, Kept.refl, kept_mk, kept_regsFilter, keep_drainOne, keep_sessionEnd, keep_wakLeave]; done)
    | (split <;> (try (rename_i heq; have hq := congrArg (fun r => Kept a0 (Prod.snd r)) heq; clear heq; simp (maxDischargeDepth := 40) only [h0, hk, implies_true, Kept.refl, kept_mk, kept_regsFilter, keep_drainOne, keep_sessionEnd, keep_wakLeave] at hq; first | replace hk := of_eq_true hq.symm | replace hk := hq)))
    | (refine kept_each ?_ ?_)
    | (refine kept_foldl ?_ ?_)
    | (refine kept_foldl2 ?_ ?_)
    | (intro _)
    | (dsimp only))

theorem keep_wakStall {a0 s : State} (h0 : Kept a0 s)  : Kept a0 (wakStall s) := by
  have hk := h0
  unfold wakStall
  repeat' (first
    | (simp (maxDischargeDepth := 40) only [h0, hk, implies_true, Kept.refl, kept_mk, kept_regsFilter, keep_State_inc, keep_State_modWak]; done)
    | (split <;> (try (rename_i heq; have hq := congrArg (fun r => Kept a0 (Prod.snd r)) heq; clear heq; simp (maxDischargeDepth := 40) only [h0, hk, implies_true, Kept.refl, kept_mk, kept_regsFilter, keep_State_inc, keep_State_modWak] at hq; first | replace hk := of_eq_true hq.symm | replace hk := hq)))
    | (refine kept_each ?_ ?_)
    | (refine kept_foldl ?_ ?_)
    | (refine kept_foldl2 ?_ ?_)
    | (intro _)
    | (dsimp only))

theorem keep_drainUnits {a0 y1 : State} (h0 : Kept a0 y1) (y0 : Nat) : Kept a0 (drainUnits y0 y1) := by
  induction y0 generalizing y1 with
  | zero => unfold drainUnits; simp (maxDischargeDepth := 40) only [h0, implies_true, Kept.refl, kept_mk, kept_regsFilter, keep_drainOne]
  | succ n ih => unfold drainUnits; repeat' (first | (simp (maxDischargeDepth := 40) only [h0, ih, implies_true, Kept.refl, kept_mk, kept_regsFilter, keep_drainOne]; done) | split | (dsimp only))

theorem keep_drainAll {a0 s : State} (h0 : Kept a0 s)  : Kept a0 (drainAll s) := by simp (maxDischargeDepth := 40) only [drainAll, h0, implies_true, Kept.refl, kept_mk, kept_regsFilter, keep_drainUnits, keep_wakLeave]

theorem keep_setCapture {a0 s : State} (h0 : Kept a0 s) (m : Nat) : Kept a0 (setCapture m s) := by simp (maxDischargeDepth := 40) only [setCapture, h0, implies_true, Kept.refl, kept_mk, kept_regsFilter, keep_State_setF]

theorem keep_captureStart {a0 s : State} (h0 : Kept a0 s) (source : Nat) : Kept a0 (captureStart source s) := by
  unfold captureStart; split <;> simp (maxDischargeDepth := 40) only [h0, implies_true, Kept.refl, kept_mk, kept_regsFilter, keep_setCapture, keep_wakEnqueue]

theorem keep_captureStop {a0 s : State} (h0 : Kept a0 s) (source : Nat) : Kept a0 (captureStop source s) := by
  have hk := h0
  unfold captureStop
  repeat' (first
    | (simp (maxDischargeDepth := 40) only [h0, hk, implies_true, Kept.refl, kept_mk, kept_regsFilter, keep_setCapture, keep_wakPut, keep_wakSyncTo]; done)
    | (split <;> (try (rename_i heq; have hq := congrArg (fun r => Kept a0 (Prod.snd r)) heq; clear heq; simp (maxDischargeDepth := 40) only [h0, hk, implies_true, Kept.refl, kept_mk, kept_regsFilter, keep_setCapture, keep_wakPut, keep_wakSyncTo] at hq; first | replace hk := of_eq_true hq.symm | replace hk := hq)))
    | (refine kept_each ?_ ?_)
    | (refine kept_foldl ?_ ?_)
    | (refine kept_foldl2 ?_ ?_)
    | (intro _)
    | (dsimp only))

theorem keep_wakCount {a0 s : State} (h0 : Kept a0 s) (c : Nat) (evs : List WakEv) : Kept a0 (wakCount c evs s).2 := by
  have hk := h0
  unfold wakCount
  repeat' (first
    | (simp (maxDischargeDepth := 40) only [h0, hk, implies_true, Kept.refl, kept_mk, kept_regsFilter, keep_State_wr]; done)
    | (split <;> (try (rename_i heq; have hq := congrArg (fun r => Kept a0 (Prod.snd r)) heq; clear heq; simp (maxDischargeDepth := 40) only [h0, hk, implies_true, Kept.refl, kept_mk, kept_regsFilter, keep_State_wr] at hq; first | replace hk := of_eq_true hq.symm | replace hk := hq)))
    | (refine kept_each ?_ ?_)
    | (refine kept_foldl ?_ ?_)
    | (refine kept_foldl2 ?_ ?_)
    | (intro _)
    | (dsimp only))

theorem keep_wakCounters {a0 s : State} (h0 : Kept a0 s) (evs : List WakEv) : Kept a0 (wakCounters evs s).2 := by
  have hk := h0
  unfold wakCounters
  repeat' (first
    | (simp (maxDischargeDepth := 40) only [h0, hk, implies_true, Kept.refl, kept_mk, kept_regsFilter, keep_wakCount]; done)
    | (split <;> (try (rename_i heq; have hq := congrArg (fun r => Kept a0 (Prod.snd r)) heq; clear heq; simp (maxDischargeDepth := 40) only [h0, hk, implies_true, Kept.refl, kept_mk, kept_regsFilter, keep_wakCount] at hq; first | replace hk := of_eq_true hq.symm | replace hk := hq)))
    | (refine kept_each ?_ ?_)
    | (refine kept_foldl ?_ ?_)
    | (refine kept_foldl2 ?_ ?_)
    | (intro _)
    | (dsimp only))

theorem keep_armStop {a0 s : State} (h0 : Kept a0 s)  : Kept a0 (armStop s) := by
  unfold armStop; split <;> simp (maxDischargeDepth := 40) only [h0, implies_true, Kept.refl, kept_mk, kept_regsFilter, keep_State_evt, keep_State_inc, keep_State_putB, keep_State_wrTime]

theorem keep_enterState {a0 s : State} (h0 : Kept a0 s) (n : Nat) : Kept a0 (enterState n s) := by simp (maxDischargeDepth := 40) only [enterState, h0, implies_true, Kept.refl, kept_mk, kept_regsFilter, keep_State_modWak, keep_State_setF]

theorem keep_wakFire {a0 s : State} (h0 : Kept a0 s) (i : Nat) : Kept a0 (wakFire i s) := by
  have hk := h0
  unfold wakFire
  repeat' (first
    | (simp (maxDischargeDepth := 40) only [h0, hk, implies_true, Kept.refl, kept_mk, kept_regsFilter, keep_State_evt, keep_State_putB, keep_armStop, keep_captureStart, keep_captureStop, keep_enterState, keep_wakLeave, keep_wakWrite]; done)
    | (split <;> (try (rename_i heq; have hq := congrArg (fun r => Kept a0 (Prod.snd r)) heq; clear heq; simp (maxDischargeDepth := 40) only [h0, hk, implies_true, Kept.refl, kept_mk, kept_regsFilter, keep_State_evt, keep_State_putB, keep_armStop, keep_captureStart, keep_captureStop, keep_enterState, keep_wakLeave, keep_wakWrite] at hq; first | replace hk := of_eq_true hq.symm | replace hk := hq)))
    | (refine kept_each ?_ ?_)
    | (refine kept_foldl ?_ ?_)
    | (refine kept_foldl2 ?_ ?_)
    | (intro _)
    | (dsimp only))

theorem keep_wakMachine {a0 s : State} (h0 : Kept a0 s)  : Kept a0 (wakMachine s) := by
  have hk := h0
  unfold wakMachine
  repeat' (first
    | (simp (maxDischargeDepth := 40) only [h0, hk, implies_true, Kept.refl, kept_mk, kept_regsFilter, keep_State_modWak, keep_wakCounters, keep_wakFire]; done)
    | (split <;> (try (rename_i heq; have hq := congrArg (fun r => Kept a0 (Prod.snd r)) heq; clear heq; simp (maxDischargeDepth := 40) only [h0, hk, implies_true, Kept.refl, kept_mk, kept_regsFilter, keep_State_modWak, keep_wakCounters, keep_wakFire] at hq; first | replace hk := of_eq_true hq.symm | replace hk := hq)))
    | (refine kept_each ?_ ?_)
    | (refine kept_foldl ?_ ?_)
    | (refine kept_foldl2 ?_ ?_)
    | (intro _)
    | (dsimp only))

theorem keep_wakEvents {a0 s : State} (h0 : Kept a0 s) (es : List WakEv) : Kept a0 (wakEvents es s) := by
  unfold wakEvents; split <;> simp (maxDischargeDepth := 40) only [h0, implies_true, Kept.refl, kept_mk, kept_regsFilter, keep_State_modWak]

theorem keep_wakHold {a0 s : State} (h0 : Kept a0 s) (time : Nat) (e : WakEv) : Kept a0 (wakHold time e s) := by
  unfold wakHold; split <;> simp (maxDischargeDepth := 40) only [h0, implies_true, Kept.refl, kept_mk, kept_regsFilter, keep_State_modWak]

theorem keep_timerExpiry {a0 s : State} (h0 : Kept a0 s) (t : Nat) : Kept a0 (timerExpiry t s) := by
  have hk := h0
  unfold timerExpiry
  repeat' (first
    | (simp (maxDischargeDepth := 40) only [h0, hk, implies_true, Kept.refl, kept_mk, kept_regsFilter, keep_State_modWak, keep_wakEvents, keep_wakHold]; done)
    | (split <;> (try (rename_i heq; have hq := congrArg (fun r => Kept a0 (Prod.snd r)) heq; clear heq; simp (maxDischargeDepth := 40) only [h0, hk, implies_true, Kept.refl, kept_mk, kept_regsFilter, keep_State_modWak, keep_wakEvents, keep_wakHold] at hq; first | replace hk := of_eq_true hq.symm | replace hk := hq)))
    | (refine kept_each ?_ ?_)
    | (refine kept_foldl ?_ ?_)
    | (refine kept_foldl2 ?_ ?_)
    | (intro _)
    | (dsimp only))

theorem keep_timersDue {a0 s : State} (h0 : Kept a0 s)  : Kept a0 (timersDue s) := by simp (maxDischargeDepth := 40) only [timersDue, h0, implies_true, Kept.refl, kept_mk, kept_regsFilter, keep_State_each, keep_timerExpiry]

theorem keep_counterLimit {a0 s : State} (h0 : Kept a0 s) (c : Nat) : Kept a0 (counterLimit c s) := by
  unfold counterLimit; split <;> simp (maxDischargeDepth := 40) only [h0, implies_true, Kept.refl, kept_mk, kept_regsFilter, keep_State_wr, keep_wakEvents]

theorem keep_accessOut {a0 s : State} (h0 : Kept a0 s) (post : Bool) (n stamp : Nat) (r : TapRecord) : Kept a0 (accessOut post n stamp r s) := by
  have hk := h0
  unfold accessOut
  repeat' (first
    | (simp (maxDischargeDepth := 40) only [h0, hk, implies_true, Kept.refl, kept_mk, kept_regsFilter, keep_State_evt, keep_State_inc, keep_State_modWak, keep_noteLoss, keep_wakPlace, keep_wakShedding]; done)
    | (split <;> (try (rename_i heq; have hq := congrArg (fun r => Kept a0 (Prod.snd r)) heq; clear heq; simp (maxDischargeDepth := 40) only [h0, hk, implies_true, Kept.refl, kept_mk, kept_regsFilter, keep_State_evt, keep_State_inc, keep_State_modWak, keep_noteLoss, keep_wakPlace, keep_wakShedding] at hq; first | replace hk := of_eq_true hq.symm | replace hk := hq)))
    | (refine kept_each ?_ ?_)
    | (refine kept_foldl ?_ ?_)
    | (refine kept_foldl2 ?_ ?_)
    | (intro _)
    | (dsimp only))

theorem keep_tapStore {a0 s : State} (h0 : Kept a0 s) (n : Nat) (body : WakBody) : Kept a0 (tapStore n body s) := by
  have hk := h0
  unfold tapStore
  repeat' (first
    | (simp (maxDischargeDepth := 40) only [h0, hk, implies_true, Kept.refl, kept_mk, kept_regsFilter, keep_State_evt, keep_State_inc, keep_noteLoss, keep_wakEnqueue]; done)
    | (split <;> (try (rename_i heq; have hq := congrArg (fun r => Kept a0 (Prod.snd r)) heq; clear heq; simp (maxDischargeDepth := 40) only [h0, hk, implies_true, Kept.refl, kept_mk, kept_regsFilter, keep_State_evt, keep_State_inc, keep_noteLoss, keep_wakEnqueue] at hq; first | replace hk := of_eq_true hq.symm | replace hk := hq)))
    | (refine kept_each ?_ ?_)
    | (refine kept_foldl ?_ ?_)
    | (refine kept_foldl2 ?_ ?_)
    | (intro _)
    | (dsimp only))

theorem keep_tapAccess {a0 s : State} (h0 : Kept a0 s) (n auth : Nat) (r : TapRecord) : Kept a0 (tapAccess n auth r s) := by
  have hk := h0
  unfold tapAccess
  repeat' (first
    | (simp (maxDischargeDepth := 40) only [h0, hk, implies_true, Kept.refl, kept_mk, kept_regsFilter, keep_State_inc, keep_tapStore, keep_wakEvents]; done)
    | (split <;> (try (rename_i heq; have hq := congrArg (fun r => Kept a0 (Prod.snd r)) heq; clear heq; simp (maxDischargeDepth := 40) only [h0, hk, implies_true, Kept.refl, kept_mk, kept_regsFilter, keep_State_inc, keep_tapStore, keep_wakEvents] at hq; first | replace hk := of_eq_true hq.symm | replace hk := hq)))
    | (refine kept_each ?_ ?_)
    | (refine kept_foldl ?_ ?_)
    | (refine kept_foldl2 ?_ ?_)
    | (intro _)
    | (dsimp only))

theorem keep_tapRecord {a0 s : State} (h0 : Kept a0 s) (n auth : Nat) (r : TapRecord) : Kept a0 (tapRecord n auth r s) := by
  have hk := h0
  unfold tapRecord
  repeat' (first
    | (simp (maxDischargeDepth := 40) only [h0, hk, implies_true, Kept.refl, kept_mk, kept_regsFilter, keep_State_inc, keep_tapAccess, keep_tapStore]; done)
    | (split <;> (try (rename_i heq; have hq := congrArg (fun r => Kept a0 (Prod.snd r)) heq; clear heq; simp (maxDischargeDepth := 40) only [h0, hk, implies_true, Kept.refl, kept_mk, kept_regsFilter, keep_State_inc, keep_tapAccess, keep_tapStore] at hq; first | replace hk := of_eq_true hq.symm | replace hk := hq)))
    | (refine kept_each ?_ ?_)
    | (refine kept_foldl ?_ ?_)
    | (refine kept_foldl2 ?_ ?_)
    | (intro _)
    | (dsimp only))

theorem keep_wakItemOut {a0 s : State} (h0 : Kept a0 s) (x : WakItem) : Kept a0 (wakItemOut x s) := by
  unfold wakItemOut; split <;> simp (maxDischargeDepth := 40) only [h0, implies_true, Kept.refl, kept_mk, kept_regsFilter, keep_State_modWak, keep_accessOut, keep_wakOut, keep_wakSyncOut]

theorem keep_wakItemLost {a0 s : State} (h0 : Kept a0 s) (x : WakItem) : Kept a0 (wakItemLost x s) := by
  have hk := h0
  unfold wakItemLost
  repeat' (first
    | (simp (maxDischargeDepth := 40) only [h0, hk, implies_true, Kept.refl, kept_mk, kept_regsFilter, keep_State_inc, keep_State_modWak, keep_noteLoss]; done)
    | (split <;> (try (rename_i heq; have hq := congrArg (fun r => Kept a0 (Prod.snd r)) heq; clear heq; simp (maxDischargeDepth := 40) only [h0, hk, implies_true, Kept.refl, kept_mk, kept_regsFilter, keep_State_inc, keep_State_modWak, keep_noteLoss] at hq; first | replace hk := of_eq_true hq.symm | replace hk := hq)))
    | (refine kept_each ?_ ?_)
    | (refine kept_foldl ?_ ?_)
    | (refine kept_foldl2 ?_ ?_)
    | (intro _)
    | (dsimp only))

theorem keep_wakLossAll {a0 y1 : State} (h0 : Kept a0 y1) (post : Bool) (stamp : Nat) (y0 : Nat) : Kept a0 (wakLossAll post stamp y0 y1) := by
  induction y0 generalizing y1 with
  | zero => unfold wakLossAll; simp (maxDischargeDepth := 40) only [h0, implies_true, Kept.refl, kept_mk, kept_regsFilter, keep_wakLossOut]
  | succ n ih => unfold wakLossAll; repeat' (first | (simp (maxDischargeDepth := 40) only [h0, ih, implies_true, Kept.refl, kept_mk, kept_regsFilter, keep_wakLossOut]; done) | split | (dsimp only))

theorem keep_wakMerge {a0 s : State} (h0 : Kept a0 s)  : Kept a0 (wakMerge s) := by
  unfold wakMerge
  split
  · exact h0
  · rename_i x xs _
    dsimp only
    generalize hc : (x.afterLoss && !s.wak.loss.isEmpty && s.wakFits x) = c
    have h : Kept a0 (if c = true then wakLossOut x.post x.stamp s else (false, s)).2 := kept_ite2 (keep_wakLossOut h0 _ _) h0
    revert h
    generalize (if c = true then wakLossOut x.post x.stamp s else (false, s)) = r
    obtain ⟨done, s1⟩ := r
    intro h
    dsimp only at h ⊢
    have h2 := keep_State_modWak h (fun w => { w with queue := xs })
    exact kept_ite h (kept_ite (keep_wakItemLost h2 _) (keep_wakItemOut h2 _))

theorem keep_wakMergeAll {a0 y1 : State} (h0 : Kept a0 y1) (y0 : Nat) : Kept a0 (wakMergeAll y0 y1) := by
  induction y0 generalizing y1 with
  | zero => unfold wakMergeAll; simp (maxDischargeDepth := 40) only [h0, implies_true, Kept.refl, kept_mk, kept_regsFilter, keep_wakMerge]
  | succ n ih => unfold wakMergeAll; repeat' (first | (simp (maxDischargeDepth := 40) only [h0, ih, implies_true, Kept.refl, kept_mk, kept_regsFilter, keep_wakMerge]; done) | split | (dsimp only))

theorem keep_wakRegions {a0 s : State} (h0 : Kept a0 s)  : Kept a0 (wakRegions s) := by simp (maxDischargeDepth := 40) only [wakRegions, h0, implies_true, Kept.refl, kept_mk, kept_regsFilter, keep_State_modWak]

theorem keep_wakTick {a0 s0 : State} (h0 : Kept a0 s0)  : Kept a0 (wakTick s0) := by
  have hk := h0
  unfold wakTick
  repeat' (first
    | (simp (maxDischargeDepth := 40) only [h0, hk, implies_true, Kept.refl, kept_mk, kept_regsFilter, keep_sessionEnd, keep_timersDue, keep_wakAskAgain, keep_wakMachine, keep_wakMerge, keep_wakRegions, keep_wakStall, keep_wakSyncDue]; done)
    | (split <;> (try (rename_i heq; have hq := congrArg (fun r => Kept a0 (Prod.snd r)) heq; clear heq; simp (maxDischargeDepth := 40) only [h0, hk, implies_true, Kept.refl, kept_mk, kept_regsFilter, keep_sessionEnd, keep_timersDue, keep_wakAskAgain, keep_wakMachine, keep_wakMerge, keep_wakRegions, keep_wakStall, keep_wakSyncDue] at hq; first | replace hk := of_eq_true hq.symm | replace hk := hq)))
    | (refine kept_each ?_ ?_)
    | (refine kept_foldl ?_ ?_)
    | (refine kept_foldl2 ?_ ?_)
    | (intro _)
    | (dsimp only))

theorem keep_wakTrigger {a0 s : State} (h0 : Kept a0 s) (code : Nat) : Kept a0 (wakTrigger code s) := by
  unfold wakTrigger; split <;> simp (maxDischargeDepth := 40) only [h0, implies_true, Kept.refl, kept_mk, kept_regsFilter, keep_wakEvents, keep_wakHold, keep_wakWrite]

theorem keep_wakLateTrigger {a0 s : State} (h0 : Kept a0 s) (time code : Nat) : Kept a0 (wakLateTrigger time code s) := by simp (maxDischargeDepth := 40) only [wakLateTrigger, h0, implies_true, Kept.refl, kept_mk, kept_regsFilter, keep_wakHold, keep_wakWrite]

theorem keep_wakMark {a0 s : State} (h0 : Kept a0 s) (code : Nat) (time : List Byte) : Kept a0 (wakMark code time s) := by
  unfold wakMark; split <;> simp (maxDischargeDepth := 40) only [h0, implies_true, Kept.refl, kept_mk, kept_regsFilter, keep_wakWrite]

theorem keep_flushBegin {a0 s : State} (h0 : Kept a0 s)  : Kept a0 (flushBegin s) := by simp (maxDischargeDepth := 40) only [flushBegin, h0, implies_true, Kept.refl, kept_mk, kept_regsFilter, keep_State_modWak]

theorem keep_wakPowerDown {a0 s : State} (h0 : Kept a0 s) (sleep : Bool) : Kept a0 (wakPowerDown sleep s) := by
  have hk := h0
  unfold wakPowerDown
  repeat' (first
    | (simp (maxDischargeDepth := 40) only [h0, hk, implies_true, Kept.refl, kept_mk, kept_regsFilter, keep_State_modWak, keep_drainAll, keep_flushBegin, keep_wakMachine, keep_wakMergeAll, keep_wakRegions, keep_wakWrite]; done)
    | (split <;> (try (rename_i heq; have hq := congrArg (fun r => Kept a0 (Prod.snd r)) heq; clear heq; simp (maxDischargeDepth := 40) only [h0, hk, implies_true, Kept.refl, kept_mk, kept_regsFilter, keep_State_modWak, keep_drainAll, keep_flushBegin, keep_wakMachine, keep_wakMergeAll, keep_wakRegions, keep_wakWrite] at hq; first | replace hk := of_eq_true hq.symm | replace hk := hq)))
    | (refine kept_each ?_ ?_)
    | (refine kept_foldl ?_ ?_)
    | (refine kept_foldl2 ?_ ?_)
    | (intro _)
    | (dsimp only))

theorem keep_wakDozeSleep {a0 s : State} (h0 : Kept a0 s)  : Kept a0 (wakDozeSleep s) := by
  have hk := h0
  unfold wakDozeSleep
  repeat' (first
    | (simp (maxDischargeDepth := 40) only [h0, hk, implies_true, Kept.refl, kept_mk, kept_regsFilter, keep_drainAll, keep_flushBegin]; done)
    | (split <;> (try (rename_i heq; have hq := congrArg (fun r => Kept a0 (Prod.snd r)) heq; clear heq; simp (maxDischargeDepth := 40) only [h0, hk, implies_true, Kept.refl, kept_mk, kept_regsFilter, keep_drainAll, keep_flushBegin] at hq; first | replace hk := of_eq_true hq.symm | replace hk := hq)))
    | (refine kept_each ?_ ?_)
    | (refine kept_foldl ?_ ?_)
    | (refine kept_foldl2 ?_ ?_)
    | (intro _)
    | (dsimp only))

theorem keep_flushEnd {a0 s : State} (h0 : Kept a0 s)  : Kept a0 (flushEnd s) := by simp (maxDischargeDepth := 40) only [flushEnd, h0, implies_true, Kept.refl, kept_mk, kept_regsFilter, keep_State_modWak]

theorem keep_wakLose {a0 s : State} (h0 : Kept a0 s)  : Kept a0 (wakLose s) := by
  have hk := h0
  unfold wakLose
  repeat' (first
    | (simp (maxDischargeDepth := 40) only [h0, hk, implies_true, Kept.refl, kept_mk, kept_regsFilter, keep_State_inc, keep_State_modWak, keep_noteLoss, keep_wakFill]; done)
    | (split <;> (try (rename_i heq; have hq := congrArg (fun r => Kept a0 (Prod.snd r)) heq; clear heq; simp (maxDischargeDepth := 40) only [h0, hk, implies_true, Kept.refl, kept_mk, kept_regsFilter, keep_State_inc, keep_State_modWak, keep_noteLoss, keep_wakFill] at hq; first | replace hk := of_eq_true hq.symm | replace hk := hq)))
    | (refine kept_each ?_ ?_)
    | (refine kept_foldl ?_ ?_)
    | (refine kept_foldl2 ?_ ?_)
    | (intro _)
    | (dsimp only))

theorem keep_wakPowerUp {a0 s : State} (h0 : Kept a0 s)  : Kept a0 (wakPowerUp s) := by
  have hk := h0
  unfold wakPowerUp
  repeat' (first
    | (simp (maxDischargeDepth := 40) only [h0, hk, implies_true, Kept.refl, kept_mk, kept_regsFilter, keep_State_modWak, keep_wakSync, keep_wakWrite]; done)
    | (split <;> (try (rename_i heq; have hq := congrArg (fun r => Kept a0 (Prod.snd r)) heq; clear heq; simp (maxDischargeDepth := 40) only [h0, hk, implies_true, Kept.refl, kept_mk, kept_regsFilter, keep_State_modWak, keep_wakSync, keep_wakWrite] at hq; first | replace hk := of_eq_true hq.symm | replace hk := hq)))
    | (refine kept_each ?_ ?_)
    | (refine kept_foldl ?_ ?_)
    | (refine kept_foldl2 ?_ ?_)
    | (intro _)
    | (dsimp only))

theorem keep_wakDisarm {a0 s : State} (h0 : Kept a0 s)  : Kept a0 (wakDisarm s) := by
  have hk := h0
  unfold wakDisarm
  repeat' (first
    | (simp (maxDischargeDepth := 40) only [h0, hk, implies_true, Kept.refl, kept_mk, kept_regsFilter, keep_State_modWak, keep_setCapture, keep_wakPut]; done)
    | (split <;> (try (rename_i heq; have hq := congrArg (fun r => Kept a0 (Prod.snd r)) heq; clear heq; simp (maxDischargeDepth := 40) only [h0, hk, implies_true, Kept.refl, kept_mk, kept_regsFilter, keep_State_modWak, keep_setCapture, keep_wakPut] at hq; first | replace hk := of_eq_true hq.symm | replace hk := hq)))
    | (refine kept_each ?_ ?_)
    | (refine kept_foldl ?_ ?_)
    | (refine kept_foldl2 ?_ ?_)
    | (intro _)
    | (dsimp only))

theorem keep_wakQuiesce {a0 s : State} (h0 : Kept a0 s)  : Kept a0 (wakQuiesce s) := by
  have hk := h0
  unfold wakQuiesce
  repeat' (first
    | (simp (maxDischargeDepth := 40) only [h0, hk, implies_true, Kept.refl, kept_mk, kept_regsFilter, keep_State_modWak, keep_sessionEnd, keep_setCapture, keep_wakLose]; done)
    | (split <;> (try (rename_i heq; have hq := congrArg (fun r => Kept a0 (Prod.snd r)) heq; clear heq; simp (maxDischargeDepth := 40) only [h0, hk, implies_true, Kept.refl, kept_mk, kept_regsFilter, keep_State_modWak, keep_sessionEnd, keep_setCapture, keep_wakLose] at hq; first | replace hk := of_eq_true hq.symm | replace hk := hq)))
    | (refine kept_each ?_ ?_)
    | (refine kept_foldl ?_ ?_)
    | (refine kept_foldl2 ?_ ?_)
    | (intro _)
    | (dsimp only))

theorem keep_putHalf {a0 s : State} (h0 : Kept a0 s) (l : Loc) (hi : Bool) (v : Nat) : Kept a0 (putHalf l hi v s) := by simp (maxDischargeDepth := 40) only [putHalf, h0, implies_true, Kept.refl, kept_mk, kept_regsFilter, keep_State_setF]

theorem keep_wakPut1 {a0 s : State} (h0 : Kept a0 s) (off v : Nat) : Kept a0 (wakPut1 off v s) := by
  unfold wakPut1
  repeat' (first | (refine kept_ite ?_ ?_) | (dsimp only; refine kept_ite ?_ ?_))
  all_goals simp only [keep_State_wr, keep_putHalf, h0]

theorem keep_wakArm {a0 s : State} (h0 : Kept a0 s) (postNow : Bool) : Kept a0 (wakArm postNow s).2 := by
  unfold wakArm; split <;> simp (maxDischargeDepth := 40) only [h0, implies_true, Kept.refl, kept_mk, kept_regsFilter, keep_State_each, keep_State_modWak, keep_State_wr, keep_enterState, keep_setCapture, keep_wakPut, keep_wakSyncTo]

theorem keep_ringBytes {a0 s : State} (h0 : Kept a0 s) (first n : Nat) : Kept a0 (ringBytes first n s).2 := by
  have hk := h0
  unfold ringBytes
  repeat' (first
    | (simp (maxDischargeDepth := 40) only [h0, hk, implies_true, Kept.refl, kept_mk, kept_regsFilter, keep_loadBytes]; done)
    | (split <;> (try (rename_i heq; have hq := congrArg (fun r => Kept a0 (Prod.snd r)) heq; clear heq; simp (maxDischargeDepth := 40) only [h0, hk, implies_true, Kept.refl, kept_mk, kept_regsFilter, keep_loadBytes] at hq; first | replace hk := of_eq_true hq.symm | replace hk := hq)))
    | (refine kept_each ?_ ?_)
    | (refine kept_foldl ?_ ?_)
    | (refine kept_foldl2 ?_ ?_)
    | (intro _)
    | (dsimp only))

theorem keep_wakSend {a0 s : State} (h0 : Kept a0 s) (first count : Nat) : Kept a0 (wakSend first count s).2 := by
  unfold wakSend
  refine kept_foldl2 h0 (fun r ch => ?_)
  have h := keep_ringBytes (Kept.refl r.2) ch.1 ch.2
  revert h
  generalize ringBytes ch.1 ch.2 r.2 = q
  obtain ⟨o, t⟩ := q
  intro h
  cases o with
  | none => exact h
  | some bs => exact keep_sendUp h _ _ _

theorem keep_excerptPut {a0 s : State} (h0 : Kept a0 s) (r : List Byte) : Kept a0 (excerptPut r s) := by
  have hk := h0
  unfold excerptPut
  repeat' (first
    | (simp (maxDischargeDepth := 40) only [h0, hk, implies_true, Kept.refl, kept_mk, kept_regsFilter, keep_State_inc, keep_storeRing]; done)
    | (split <;> (try (rename_i heq; have hq := congrArg (fun r => Kept a0 (Prod.snd r)) heq; clear heq; simp (maxDischargeDepth := 40) only [h0, hk, implies_true, Kept.refl, kept_mk, kept_regsFilter, keep_State_inc, keep_storeRing] at hq; first | replace hk := of_eq_true hq.symm | replace hk := hq)))
    | (refine kept_each ?_ ?_)
    | (refine kept_foldl ?_ ?_)
    | (refine kept_foldl2 ?_ ?_)
    | (intro _)
    | (dsimp only))

theorem keep_excerptReceive {a0 s : State} (h0 : Kept a0 s) (src : Nat) (bs : List Byte) : Kept a0 (excerptReceive src bs s) := by
  have hk := h0
  unfold excerptReceive
  repeat' (first
    | (simp (maxDischargeDepth := 40) only [h0, hk, implies_true, Kept.refl, kept_mk, kept_regsFilter, keep_excerptPut, keep_ownAsk]; done)
    | (split <;> (try (rename_i heq; have hq := congrArg (fun r => Kept a0 (Prod.snd r)) heq; clear heq; simp (maxDischargeDepth := 40) only [h0, hk, implies_true, Kept.refl, kept_mk, kept_regsFilter, keep_excerptPut, keep_ownAsk] at hq; first | replace hk := of_eq_true hq.symm | replace hk := hq)))
    | (refine kept_each ?_ ?_)
    | (refine kept_foldl ?_ ?_)
    | (refine kept_foldl2 ?_ ?_)
    | (intro _)
    | (dsimp only))

/-! ### Parcels.lean -/

theorem keep_rulingCmd {a0 s : State} (h0 : Kept a0 s) (c : Cmd) (r : Ruling) : Kept a0 (rulingCmd c r s).2 := by
  have hk := h0
  unfold rulingCmd
  repeat' (first
    | (simp (maxDischargeDepth := 40) only [h0, hk, implies_true, Kept.refl, kept_mk, kept_regsFilter, keep_finished, keep_issueRuling]; done)
    | (split <;> (try (rename_i heq; have hq := congrArg (fun r => Kept a0 (Prod.snd r)) heq; clear heq; simp (maxDischargeDepth := 40) only [h0, hk, implies_true, Kept.refl, kept_mk, kept_regsFilter, keep_finished, keep_issueRuling] at hq; first | replace hk := of_eq_true hq.symm | replace hk := hq)))
    | (refine kept_each ?_ ?_)
    | (refine kept_foldl ?_ ?_)
    | (refine kept_foldl2 ?_ ?_)
    | (intro _)
    | (dsimp only))

theorem keep_parcelCommit {a0 s : State} (h0 : Kept a0 s) (c : Cmd) : Kept a0 (parcelCommit c s).2 := by
  unfold parcelCommit
  split
  · exact h0
  · refine kept_ite2 h0 ?_
    split
    · exact h0
    · exact h0
    · refine kept_ite2 h0 (kept_ite2 ?_ (keep_rulingCmd h0 _ _))
      exact keep_refuseAsker (keep_freeParcel h0 _ _) _ _ _

theorem keep_parcelRelease {a0 s : State} (h0 : Kept a0 s) (c : Cmd) : Kept a0 (parcelRelease c s).2 := by
  unfold parcelRelease
  split
  · exact h0
  · exact h0
  · refine kept_ite2 h0 (kept_ite2 ?_ (kept_ite2 h0 (keep_rulingCmd h0 _ _)))
    exact keep_finished (keep_refuseAsker (keep_freeParcel h0 _ _) _ _ _) _ _ _

theorem keep_parcelFree {a0 s : State} (h0 : Kept a0 s) (c : Cmd) : Kept a0 (parcelFree c s).2 := by
  have hk := h0
  unfold parcelFree
  repeat' (first
    | (simp (maxDischargeDepth := 40) only [h0, hk, implies_true, Kept.refl, kept_mk, kept_regsFilter, keep_ans, keep_freeParcel]; done)
    | (split <;> (try (rename_i heq; have hq := congrArg (fun r => Kept a0 (Prod.snd r)) heq; clear heq; simp (maxDischargeDepth := 40) only [h0, hk, implies_true, Kept.refl, kept_mk, kept_regsFilter, keep_ans, keep_freeParcel] at hq; first | replace hk := of_eq_true hq.symm | replace hk := hq)))
    | (refine kept_each ?_ ?_)
    | (refine kept_foldl ?_ ?_)
    | (refine kept_foldl2 ?_ ?_)
    | (intro _)
    | (dsimp only))

theorem keep_parcelCfg {a0 s : State} (h0 : Kept a0 s) (c : Cmd) : Kept a0 (parcelCfg c s).2 := by
  have hk := h0
  unfold parcelCfg
  repeat' (first
    | (simp (maxDischargeDepth := 40) only [h0, hk, implies_true, Kept.refl, kept_mk, kept_regsFilter, keep_State_wr, keep_ans]; done)
    | (split <;> (try (rename_i heq; have hq := congrArg (fun r => Kept a0 (Prod.snd r)) heq; clear heq; simp (maxDischargeDepth := 40) only [h0, hk, implies_true, Kept.refl, kept_mk, kept_regsFilter, keep_State_wr, keep_ans] at hq; first | replace hk := of_eq_true hq.symm | replace hk := hq)))
    | (refine kept_each ?_ ?_)
    | (refine kept_foldl ?_ ?_)
    | (refine kept_foldl2 ?_ ?_)
    | (intro _)
    | (dsimp only))

theorem keep_noteExtBars {a0 s : State} (h0 : Kept a0 s) (r : Ruling) : Kept a0 (noteExtBars r s) := by
  unfold noteExtBars; split <;> simp (maxDischargeDepth := 40) only [h0, implies_true, Kept.refl, kept_mk, kept_regsFilter, keep_State_modCtx]

theorem keep_rulingIssue {a0 s : State} (h0 : Kept a0 s) (c : Cmd) : Kept a0 (rulingIssue c s).2 := by
  have hk := h0
  unfold rulingIssue
  repeat' (first
    | (simp (maxDischargeDepth := 40) only [h0, hk, implies_true, Kept.refl, kept_mk, kept_regsFilter, keep_ans, keep_noteExtBars, keep_rulingCmd]; done)
    | (split <;> (try (rename_i heq; have hq := congrArg (fun r => Kept a0 (Prod.snd r)) heq; clear heq; simp (maxDischargeDepth := 40) only [h0, hk, implies_true, Kept.refl, kept_mk, kept_regsFilter, keep_ans, keep_noteExtBars, keep_rulingCmd] at hq; first | replace hk := of_eq_true hq.symm | replace hk := hq)))
    | (refine kept_each ?_ ?_)
    | (refine kept_foldl ?_ ?_)
    | (refine kept_foldl2 ?_ ?_)
    | (intro _)
    | (dsimp only))

theorem keep_stopAt {a0 s : State} (h0 : Kept a0 s) (c : Cmd) : Kept a0 (stopAt c s).2 := by
  have hk := h0
  unfold stopAt
  repeat' (first
    | (simp (maxDischargeDepth := 40) only [h0, hk, implies_true, Kept.refl, kept_mk, kept_regsFilter, keep_ans, keep_ansWith, keep_armStopSlot]; done)
    | (split <;> (try (rename_i heq; have hq := congrArg (fun r => Kept a0 (Prod.snd r)) heq; clear heq; simp (maxDischargeDepth := 40) only [h0, hk, implies_true, Kept.refl, kept_mk, kept_regsFilter, keep_ans, keep_ansWith, keep_armStopSlot] at hq; first | replace hk := of_eq_true hq.symm | replace hk := hq)))
    | (refine kept_each ?_ ?_)
    | (refine kept_foldl ?_ ?_)
    | (refine kept_foldl2 ?_ ?_)
    | (intro _)
    | (dsimp only))

theorem keep_stopDisarm {a0 s : State} (h0 : Kept a0 s) (c : Cmd) : Kept a0 (stopDisarm c s).2 := by simp (maxDischargeDepth := 40) only [stopDisarm, h0, implies_true, Kept.refl, kept_mk, kept_regsFilter, keep_State_each, keep_State_wr, keep_ansWith]

theorem keep_tmtSwapCmd {a0 s : State} (h0 : Kept a0 s) (c : Cmd) : Kept a0 (tmtSwapCmd c s).2 := by
  have hk := h0
  unfold tmtSwapCmd
  repeat' (first
    | (simp (maxDischargeDepth := 40) only [h0, hk, implies_true, Kept.refl, kept_mk, kept_regsFilter, keep_ans, keep_issueRuling]; done)
    | (split <;> (try (rename_i heq; have hq := congrArg (fun r => Kept a0 (Prod.snd r)) heq; clear heq; simp (maxDischargeDepth := 40) only [h0, hk, implies_true, Kept.refl, kept_mk, kept_regsFilter, keep_ans, keep_issueRuling] at hq; first | replace hk := of_eq_true hq.symm | replace hk := hq)))
    | (refine kept_each ?_ ?_)
    | (refine kept_foldl ?_ ?_)
    | (refine kept_foldl2 ?_ ?_)
    | (intro _)
    | (dsimp only))

theorem keep_swapJobs {a0 s : State} (h0 : Kept a0 s) (ch cyc : Nat) : Kept a0 (swapJobs ch cyc s) := by
  have hk := h0
  unfold swapJobs
  repeat' (first
    | (simp (maxDischargeDepth := 40) only [h0, hk, implies_true, Kept.refl, kept_mk, kept_regsFilter, keep_State_each, keep_finishJob]; done)
    | (split <;> (try (rename_i heq; have hq := congrArg (fun r => Kept a0 (Prod.snd r)) heq; clear heq; simp (maxDischargeDepth := 40) only [h0, hk, implies_true, Kept.refl, kept_mk, kept_regsFilter, keep_State_each, keep_finishJob] at hq; first | replace hk := of_eq_true hq.symm | replace hk := hq)))
    | (refine kept_each ?_ ?_)
    | (refine kept_foldl ?_ ?_)
    | (refine kept_foldl2 ?_ ?_)
    | (intro _)
    | (dsimp only))

theorem keep_timedRuling {a0 s : State} (h0 : Kept a0 s) (push : List Byte → State → State) (r : Ruling) (hpush : ∀ x0 x1, Kept x1 (push x0 x1)) : Kept a0 (timedRuling push r s) := by
  have hk := h0
  unfold timedRuling
  repeat' (first
    | (simp (maxDischargeDepth := 40) only [h0, hpush, fun (b : State) x0 x1 (h : Kept b x1) => Kept.trans h (hpush x0 x1), hk, implies_true, Kept.refl, kept_mk, kept_regsFilter, keep_State_inc, keep_dropPend, keep_wakTrigger]; done)
    | (split <;> (try (rename_i heq; have hq := congrArg (fun r => Kept a0 (Prod.snd r)) heq; clear heq; simp (maxDischargeDepth := 40) only [h0, hpush, fun (b : State) x0 x1 (h : Kept b x1) => Kept.trans h (hpush x0 x1), hk, implies_true, Kept.refl, kept_mk, kept_regsFilter, keep_State_inc, keep_dropPend, keep_wakTrigger] at hq; first | replace hk := of_eq_true hq.symm | replace hk := hq)))
    | (refine kept_each ?_ ?_)
    | (refine kept_foldl ?_ ?_)
    | (refine kept_foldl2 ?_ ?_)
    | (intro _)
    | (dsimp only))

theorem keep_rulingEffect {a0 s : State} (h0 : Kept a0 s) (push : List Byte → State → State) (issuer no : Nat) (hpush : ∀ x0 x1, Kept x1 (push x0 x1)) : Kept a0 (rulingEffect push issuer no s) := by
  have hk := h0
  unfold rulingEffect
  repeat' (first
    | (simp (maxDischargeDepth := 40) only [h0, hpush, fun (b : State) x0 x1 (h : Kept b x1) => Kept.trans h (hpush x0 x1), hk, implies_true, Kept.refl, kept_mk, kept_regsFilter, keep_State_each, keep_epochRuling, keep_timedRuling]; done)
    | (split <;> (try (rename_i heq; have hq := congrArg (fun r => Kept a0 (Prod.snd r)) heq; clear heq; simp (maxDischargeDepth := 40) only [h0, hpush, fun (b : State) x0 x1 (h : Kept b x1) => Kept.trans h (hpush x0 x1), hk, implies_true, Kept.refl, kept_mk, kept_regsFilter, keep_State_each, keep_epochRuling, keep_timedRuling] at hq; first | replace hk := of_eq_true hq.symm | replace hk := hq)))
    | (refine kept_each ?_ ?_)
    | (refine kept_foldl ?_ ?_)
    | (refine kept_foldl2 ?_ ?_)
    | (intro _)
    | (dsimp only))

theorem keep_lateRuling {a0 s : State} (h0 : Kept a0 s) (push : List Byte → State → State) (r : Ruling) (hpush : ∀ x0 x1, Kept x1 (push x0 x1)) : Kept a0 (lateRuling push r s) := by
  have hk := h0
  unfold lateRuling
  repeat' (first
    | (simp (maxDischargeDepth := 40) only [h0, hpush, fun (b : State) x0 x1 (h : Kept b x1) => Kept.trans h (hpush x0 x1), hk, implies_true, Kept.refl, kept_mk, kept_regsFilter, keep_State_inc, keep_dropPend, keep_timedRuling, keep_wakLateTrigger]; done)
    | (split <;> (try (rename_i heq; have hq := congrArg (fun r => Kept a0 (Prod.snd r)) heq; clear heq; simp (maxDischargeDepth := 40) only [h0, hpush, fun (b : State) x0 x1 (h : Kept b x1) => Kept.trans h (hpush x0 x1), hk, implies_true, Kept.refl, kept_mk, kept_regsFilter, keep_State_inc, keep_dropPend, keep_timedRuling, keep_wakLateTrigger] at hq; first | replace hk := of_eq_true hq.symm | replace hk := hq)))
    | (refine kept_each ?_ ?_)
    | (refine kept_foldl ?_ ?_)
    | (refine kept_foldl2 ?_ ?_)
    | (intro _)
    | (dsimp only))

theorem keep_deferredRulings {a0 s : State} (h0 : Kept a0 s) (push : List Byte → State → State) (hpush : ∀ x0 x1, Kept x1 (push x0 x1)) : Kept a0 (deferredRulings push s) := by
  have hk := h0
  unfold deferredRulings
  repeat' (first
    | (simp (maxDischargeDepth := 40) only [h0, hpush, fun (b : State) x0 x1 (h : Kept b x1) => Kept.trans h (hpush x0 x1), hk, implies_true, Kept.refl, kept_mk, kept_regsFilter, keep_State_each, keep_epochRuling, keep_lateRuling]; done)
    | (split <;> (try (rename_i heq; have hq := congrArg (fun r => Kept a0 (Prod.snd r)) heq; clear heq; simp (maxDischargeDepth := 40) only [h0, hpush, fun (b : State) x0 x1 (h : Kept b x1) => Kept.trans h (hpush x0 x1), hk, implies_true, Kept.refl, kept_mk, kept_regsFilter, keep_State_each, keep_epochRuling, keep_lateRuling] at hq; first | replace hk := of_eq_true hq.symm | replace hk := hq)))
    | (refine kept_each ?_ ?_)
    | (refine kept_foldl ?_ ?_)
    | (refine kept_foldl2 ?_ ?_)
    | (intro _)
    | (dsimp only))

/-! ### EpochCmds.lean -/

theorem keep_epochRead {a0 s : State} (h0 : Kept a0 s) (c : Cmd) : Kept a0 (epochRead c s).2 := by
  unfold epochRead
  dsimp only
  have hk : ∀ st : Nat, Kept a0 (if st = 0 then keptReads s else (true, s)).2 := fun st => kept_ite2 (keep_keptReads h0) h0
  refine kept_ite2 (keep_holdWait h0) (kept_ite2 h0 (hk _))

theorem keep_deadlineSet {a0 s : State} (h0 : Kept a0 s) (c : Cmd) : Kept a0 (deadlineSet c s).2 := by
  have hk := h0
  unfold deadlineSet
  repeat' (first
    | (simp (maxDischargeDepth := 40) only [h0, hk, implies_true, Kept.refl, kept_mk, kept_regsFilter, keep_State_each, keep_State_modCtx, keep_State_wr, keep_ans]; done)
    | (split <;> (try (rename_i heq; have hq := congrArg (fun r => Kept a0 (Prod.snd r)) heq; clear heq; simp (maxDischargeDepth := 40) only [h0, hk, implies_true, Kept.refl, kept_mk, kept_regsFilter, keep_State_each, keep_State_modCtx, keep_State_wr, keep_ans] at hq; first | replace hk := of_eq_true hq.symm | replace hk := hq)))
    | (refine kept_each ?_ ?_)
    | (refine kept_foldl ?_ ?_)
    | (refine kept_foldl2 ?_ ?_)
    | (intro _)
    | (dsimp only))

theorem keep_strictSet {a0 s : State} (h0 : Kept a0 s) (c : Cmd) : Kept a0 (strictSet c s).2 := by
  unfold strictSet; split <;> simp (maxDischargeDepth := 40) only [h0, implies_true, Kept.refl, kept_mk, kept_regsFilter, keep_State_wr, keep_ans]

theorem keep_absentDeclare {a0 s : State} (h0 : Kept a0 s) (c : Cmd) : Kept a0 (absentDeclare c s).2 := by
  have hk := h0
  unfold absentDeclare
  repeat' (first
    | (simp (maxDischargeDepth := 40) only [h0, hk, implies_true, Kept.refl, kept_mk, kept_regsFilter, keep_ans, keep_ansWith, keep_declareAbsent]; done)
    | (split <;> (try (rename_i heq; have hq := congrArg (fun r => Kept a0 (Prod.snd r)) heq; clear heq; simp (maxDischargeDepth := 40) only [h0, hk, implies_true, Kept.refl, kept_mk, kept_regsFilter, keep_ans, keep_ansWith, keep_declareAbsent] at hq; first | replace hk := of_eq_true hq.symm | replace hk := hq)))
    | (refine kept_each ?_ ?_)
    | (refine kept_foldl ?_ ?_)
    | (refine kept_foldl2 ?_ ?_)
    | (intro _)
    | (dsimp only))

theorem keep_closurePull {a0 s : State} (h0 : Kept a0 s) (c : Cmd) : Kept a0 (closurePull c s).2 := by
  have hk := h0
  unfold closurePull
  repeat' (first
    | (simp (maxDischargeDepth := 40) only [h0, hk, implies_true, Kept.refl, kept_mk, kept_regsFilter, keep_ans, keep_ansWith, keep_resendOne]; done)
    | (split <;> (try (rename_i heq; have hq := congrArg (fun r => Kept a0 (Prod.snd r)) heq; clear heq; simp (maxDischargeDepth := 40) only [h0, hk, implies_true, Kept.refl, kept_mk, kept_regsFilter, keep_ans, keep_ansWith, keep_resendOne] at hq; first | replace hk := of_eq_true hq.symm | replace hk := hq)))
    | (refine kept_each ?_ ?_)
    | (refine kept_foldl ?_ ?_)
    | (refine kept_foldl2 ?_ ?_)
    | (intro _)
    | (dsimp only))

theorem keep_voteRaise {a0 s : State} (h0 : Kept a0 s) (c : Cmd) : Kept a0 (voteRaise c s).2 := by
  have hk := h0
  unfold voteRaise
  repeat' (first
    | (simp (maxDischargeDepth := 40) only [h0, hk, implies_true, Kept.refl, kept_mk, kept_regsFilter, keep_State_each, keep_ans, keep_raiseVote]; done)
    | (split <;> (try (rename_i heq; have hq := congrArg (fun r => Kept a0 (Prod.snd r)) heq; clear heq; simp (maxDischargeDepth := 40) only [h0, hk, implies_true, Kept.refl, kept_mk, kept_regsFilter, keep_State_each, keep_ans, keep_raiseVote] at hq; first | replace hk := of_eq_true hq.symm | replace hk := hq)))
    | (refine kept_each ?_ ?_)
    | (refine kept_foldl ?_ ?_)
    | (refine kept_foldl2 ?_ ?_)
    | (intro _)
    | (dsimp only))

theorem keep_tallySet {a0 s : State} (h0 : Kept a0 s) (c : Cmd) : Kept a0 (tallySet c s).2 := by
  unfold tallySet; split <;> simp (maxDischargeDepth := 40) only [h0, implies_true, Kept.refl, kept_mk, kept_regsFilter, keep_State_wr, keep_ans]

theorem keep_verdictSet {a0 s : State} (h0 : Kept a0 s) (c : Cmd) : Kept a0 (verdictSet c s).2 := by
  have hk := h0
  unfold verdictSet
  repeat' (first
    | (simp (maxDischargeDepth := 40) only [h0, hk, implies_true, Kept.refl, kept_mk, kept_regsFilter, keep_State_wr, keep_ans]; done)
    | (split <;> (try (rename_i heq; have hq := congrArg (fun r => Kept a0 (Prod.snd r)) heq; clear heq; simp (maxDischargeDepth := 40) only [h0, hk, implies_true, Kept.refl, kept_mk, kept_regsFilter, keep_State_wr, keep_ans] at hq; first | replace hk := of_eq_true hq.symm | replace hk := hq)))
    | (refine kept_each ?_ ?_)
    | (refine kept_foldl ?_ ?_)
    | (refine kept_foldl2 ?_ ?_)
    | (intro _)
    | (dsimp only))

theorem keep_verdictReadCmd {a0 s : State} (h0 : Kept a0 s) (c : Cmd) : Kept a0 (verdictReadCmd c s).2 := by
  unfold verdictReadCmd; split <;> simp (maxDischargeDepth := 40) only [h0, implies_true, Kept.refl, kept_mk, kept_regsFilter, keep_ans, keep_ansWith]

theorem keep_verdictSink {a0 s : State} (h0 : Kept a0 s) (c : Cmd) : Kept a0 (verdictSink c s).2 := by
  unfold verdictSink; split <;> simp (maxDischargeDepth := 40) only [h0, implies_true, Kept.refl, kept_mk, kept_regsFilter, keep_State_wr, keep_ans]

/-! ### ProbeCmds.lean -/

theorem keep_putDesc {a0 s : State} (h0 : Kept a0 s) (p : Nat) (d : Desc) : Kept a0 (putDesc p d s) := by simp (maxDischargeDepth := 40) only [putDesc, h0, implies_true, Kept.refl, kept_mk, kept_regsFilter, keep_State_wr]

theorem keep_probeSet {a0 s : State} (h0 : Kept a0 s) (c : Cmd) : Kept a0 (probeSet c s).2 := by
  have hk := h0
  unfold probeSet
  repeat' (first
    | (simp (maxDischargeDepth := 40) only [h0, hk, implies_true, Kept.refl, kept_mk, kept_regsFilter, keep_State_each, keep_ans, keep_putDesc]; done)
    | (split <;> (try (rename_i heq; have hq := congrArg (fun r => Kept a0 (Prod.snd r)) heq; clear heq; simp (maxDischargeDepth := 40) only [h0, hk, implies_true, Kept.refl, kept_mk, kept_regsFilter, keep_State_each, keep_ans, keep_putDesc] at hq; first | replace hk := of_eq_true hq.symm | replace hk := hq)))
    | (refine kept_each ?_ ?_)
    | (refine kept_foldl ?_ ?_)
    | (refine kept_foldl2 ?_ ?_)
    | (intro _)
    | (dsimp only))

theorem keep_tapMap {a0 s : State} (h0 : Kept a0 s) (c : Cmd) : Kept a0 (tapMap c s).2 := by
  have hk := h0
  unfold tapMap
  repeat' (first
    | (simp (maxDischargeDepth := 40) only [h0, hk, implies_true, Kept.refl, kept_mk, kept_regsFilter, keep_State_each, keep_State_setF, keep_ans]; done)
    | (split <;> (try (rename_i heq; have hq := congrArg (fun r => Kept a0 (Prod.snd r)) heq; clear heq; simp (maxDischargeDepth := 40) only [h0, hk, implies_true, Kept.refl, kept_mk, kept_regsFilter, keep_State_each, keep_State_setF, keep_ans] at hq; first | replace hk := of_eq_true hq.symm | replace hk := hq)))
    | (refine kept_each ?_ ?_)
    | (refine kept_foldl ?_ ?_)
    | (refine kept_foldl2 ?_ ?_)
    | (intro _)
    | (dsimp only))

theorem keep_tapClear {a0 s : State} (h0 : Kept a0 s) (c : Cmd) : Kept a0 (tapClear c s).2 := by
  have hk := h0
  unfold tapClear
  repeat' (first
    | (simp (maxDischargeDepth := 40) only [h0, hk, implies_true, Kept.refl, kept_mk, kept_regsFilter, keep_State_each, keep_ans, keep_podClearAsk]; done)
    | (split <;> (try (rename_i heq; have hq := congrArg (fun r => Kept a0 (Prod.snd r)) heq; clear heq; simp (maxDischargeDepth := 40) only [h0, hk, implies_true, Kept.refl, kept_mk, kept_regsFilter, keep_State_each, keep_ans, keep_podClearAsk] at hq; first | replace hk := of_eq_true hq.symm | replace hk := hq)))
    | (refine kept_each ?_ ?_)
    | (refine kept_foldl ?_ ?_)
    | (refine kept_foldl2 ?_ ?_)
    | (intro _)
    | (dsimp only))

theorem keep_trkSet {a0 s : State} (h0 : Kept a0 s) (c : Cmd) : Kept a0 (trkSet c s).2 := by
  have hk := h0
  unfold trkSet
  repeat' (first
    | (simp (maxDischargeDepth := 40) only [h0, hk, implies_true, Kept.refl, kept_mk, kept_regsFilter, keep_State_each, keep_State_wr, keep_ans, keep_trackerStart]; done)
    | (split <;> (try (rename_i heq; have hq := congrArg (fun r => Kept a0 (Prod.snd r)) heq; clear heq; simp (maxDischargeDepth := 40) only [h0, hk, implies_true, Kept.refl, kept_mk, kept_regsFilter, keep_State_each, keep_State_wr, keep_ans, keep_trackerStart] at hq; first | replace hk := of_eq_true hq.symm | replace hk := hq)))
    | (refine kept_each ?_ ?_)
    | (refine kept_foldl ?_ ?_)
    | (refine kept_foldl2 ?_ ?_)
    | (intro _)
    | (dsimp only))

theorem keep_inputSet {a0 s : State} (h0 : Kept a0 s) (c : Cmd) : Kept a0 (inputSet c s).2 := by
  have hk := h0
  unfold inputSet
  repeat' (first
    | (simp (maxDischargeDepth := 40) only [h0, hk, implies_true, Kept.refl, kept_mk, kept_regsFilter, keep_State_each, keep_State_wr, keep_ans, keep_beatForget]; done)
    | (split <;> (try (rename_i heq; have hq := congrArg (fun r => Kept a0 (Prod.snd r)) heq; clear heq; simp (maxDischargeDepth := 40) only [h0, hk, implies_true, Kept.refl, kept_mk, kept_regsFilter, keep_State_each, keep_State_wr, keep_ans, keep_beatForget] at hq; first | replace hk := of_eq_true hq.symm | replace hk := hq)))
    | (refine kept_each ?_ ?_)
    | (refine kept_foldl ?_ ?_)
    | (refine kept_foldl2 ?_ ?_)
    | (intro _)
    | (dsimp only))

end Sys2Proof.Laws
end

