-- ==== Sys2Proof/Laws/KeepUnits.lean ====
section
/-! SUPPORT. What every operation keeps (`Kept`), one lemma for each: Cadastre, Transit, Witness and the commands of the units. -/

namespace Sys2Proof.Laws

open Sys2Proof.Machine

set_option linter.all false

/-! ### Cadastre.lean -/

theorem keep_platDrop {a0 s : State} (h0 : Kept a0 s) (i : Nat) : Kept a0 (platDrop i s) := by simp (maxDischargeDepth := 40) only [platDrop, h0, implies_true, Kept.refl, kept_mk, kept_regsFilter, keep_State_wr]

theorem keep_platImage {a0 s : State} (h0 : Kept a0 s) (i : Nat) : Kept a0 (platImage i s).2 := by simp (maxDischargeDepth := 40) only [platImage, h0, implies_true, Kept.refl, kept_mk, kept_regsFilter, keep_loadBytes]

theorem keep_platPlace {a0 s : State} (h0 : Kept a0 s) (i st addr : Nat) (resident : Bool) (b : List Byte) : Kept a0 (platPlace i st addr resident b s) := by simp (maxDischargeDepth := 40) only [platPlace, h0, implies_true, Kept.refl, kept_mk, kept_regsFilter, keep_State_wr]

theorem keep_plotsWritten {a0 s : State} (h0 : Kept a0 s) (slot : Nat) (x : PlotSet) : Kept a0 (plotsWritten slot x s).2 := by
  have hk := h0
  unfold plotsWritten
  repeat' (first
    | (simp (maxDischargeDepth := 40) only [h0, hk, implies_true, Kept.refl, kept_mk, kept_regsFilter, keep_State_draw, keep_memWritten]; done)
    | (split <;> (try (rename_i heq; have hq := congrArg (fun r => Kept a0 (Prod.snd r)) heq; clear heq; simp (maxDischargeDepth := 40) only [h0, hk, implies_true, Kept.refl, kept_mk, kept_regsFilter, keep_State_draw, keep_memWritten] at hq; first | replace hk := of_eq_true hq.symm | replace hk := hq)))
    | (refine kept_each ?_ ?_)
    | (refine kept_foldl ?_ ?_)
    | (refine kept_foldl2 ?_ ?_)
    | (intro _)
    | (dsimp only))

theorem keep_platWrite {a0 s : State} (h0 : Kept a0 s) (i : Nat) (b : List Byte) : Kept a0 (platWrite i b s) := by simp (maxDischargeDepth := 40) only [platWrite, h0, implies_true, Kept.refl, kept_mk, kept_regsFilter, keep_memGone, keep_plotsWritten]

theorem keep_pageSets {a0 s : State} (h0 : Kept a0 s) (b : List Byte) : Kept a0 (pageSets b s).2 := by
  have hk := h0
  unfold pageSets
  repeat' (first
    | (simp (maxDischargeDepth := 40) only [h0, hk, implies_true, Kept.refl, kept_mk, kept_regsFilter, keep_State_inc, keep_plotsWritten]; done)
    | (split <;> (try (rename_i heq; have hq := congrArg (fun r => Kept a0 (Prod.snd r)) heq; clear heq; simp (maxDischargeDepth := 40) only [h0, hk, implies_true, Kept.refl, kept_mk, kept_regsFilter, keep_State_inc, keep_plotsWritten] at hq; first | replace hk := of_eq_true hq.symm | replace hk := hq)))
    | (refine kept_each ?_ ?_)
    | (refine kept_foldl ?_ ?_)
    | (refine kept_foldl2 ?_ ?_)
    | (intro _)
    | (dsimp only))

theorem keep_platSets {a0 s : State} (h0 : Kept a0 s) (i : Nat) (b : List Byte) : Kept a0 (platSets i b s).2 := by
  unfold platSets; split <;> simp (maxDischargeDepth := 40) only [h0, implies_true, Kept.refl, kept_mk, kept_regsFilter, keep_pageSets]

theorem keep_searchErr {a0 s : State} (h0 : Kept a0 s)  : Kept a0 (searchErr s) := by simp (maxDischargeDepth := 40) only [searchErr, h0, implies_true, Kept.refl, kept_mk, kept_regsFilter, keep_State_evt, keep_State_inc, keep_faultEdge, keep_rateNote]

theorem keep_spoiltMet {a0 s : State} (h0 : Kept a0 s)  : Kept a0 (spoiltMet s) := by
  unfold spoiltMet; split <;> simp (maxDischargeDepth := 40) only [h0, implies_true, Kept.refl, kept_mk, kept_regsFilter, keep_inject]

theorem keep_scoreOf {a0 s : State} (h0 : Kept a0 s) (slot : Nat) (b : List Byte) (sets : List PlotSet) (feats : List Nat) : Kept a0 (scoreOf slot b sets feats s).2 := by
  have hk := h0
  unfold scoreOf
  repeat' (first
    | (simp (maxDischargeDepth := 40) only [h0, hk, implies_true, Kept.refl, kept_mk, kept_regsFilter, keep_memReadBack, keep_searchErr, keep_spoiltMet]; done)
    | (split <;> (try (rename_i heq; have hq := congrArg (fun r => Kept a0 (Prod.snd r)) heq; clear heq; simp (maxDischargeDepth := 40) only [h0, hk, implies_true, Kept.refl, kept_mk, kept_regsFilter, keep_memReadBack, keep_searchErr, keep_spoiltMet] at hq; first | replace hk := of_eq_true hq.symm | replace hk := hq)))
    | (refine kept_each ?_ ?_)
    | (refine kept_foldl ?_ ?_)
    | (refine kept_foldl2 ?_ ?_)
    | (intro _)
    | (dsimp only))

theorem keep_rowVotes {a0 s : State} (h0 : Kept a0 s) (b : List Byte) (n k st : Nat) (zs : List Nat) : Kept a0 (rowVotes b n k st zs s).2 := by
  have hk := h0
  unfold rowVotes
  repeat' (first
    | (simp (maxDischargeDepth := 40) only [h0, hk, implies_true, Kept.refl, kept_mk, kept_regsFilter, keep_State_inc, keep_State_later, keep_raiseVote]; done)
    | (split <;> (try (rename_i heq; have hq := congrArg (fun r => Kept a0 (Prod.snd r)) heq; clear heq; simp (maxDischargeDepth := 40) only [h0, hk, implies_true, Kept.refl, kept_mk, kept_regsFilter, keep_State_inc, keep_State_later, keep_raiseVote] at hq; first | replace hk := of_eq_true hq.symm | replace hk := hq)))
    | (refine kept_each ?_ ?_)
    | (refine kept_foldl ?_ ?_)
    | (refine kept_foldl2 ?_ ?_)
    | (intro _)
    | (dsimp only))

theorem keep_passRow {a0 s : State} (h0 : Kept a0 s) (slot : Nat) (b : List Byte) (sets : List PlotSet) (r : Nat × Nat × Nat) : Kept a0 (passRow slot b sets r s) := by
  have hk := h0
  unfold passRow
  repeat' (first
    | (simp (maxDischargeDepth := 40) only [h0, hk, implies_true, Kept.refl, kept_mk, kept_regsFilter, keep_State_inc, keep_State_modEpoch, keep_rowVotes, keep_scoreOf]; done)
    | (split <;> (try (rename_i heq; have hq := congrArg (fun r => Kept a0 (Prod.snd r)) heq; clear heq; simp (maxDischargeDepth := 40) only [h0, hk, implies_true, Kept.refl, kept_mk, kept_regsFilter, keep_State_inc, keep_State_modEpoch, keep_rowVotes, keep_scoreOf] at hq; first | replace hk := of_eq_true hq.symm | replace hk := hq)))
    | (refine kept_each ?_ ?_)
    | (refine kept_foldl ?_ ?_)
    | (refine kept_foldl2 ?_ ?_)
    | (intro _)
    | (dsimp only))

theorem keep_jobDone {a0 s : State} (h0 : Kept a0 s) (n k nOut : Nat) : Kept a0 (jobDone n k nOut s) := by
  have hk := h0
  unfold jobDone
  repeat' (first
    | (simp (maxDischargeDepth := 40) only [h0, hk, implies_true, Kept.refl, kept_mk, kept_regsFilter, keep_State_modEpoch, keep_advanceAll, keep_buildPut, keep_keepScores]; done)
    | (split <;> (try (rename_i heq; have hq := congrArg (fun r => Kept a0 (Prod.snd r)) heq; clear heq; simp (maxDischargeDepth := 40) only [h0, hk, implies_true, Kept.refl, kept_mk, kept_regsFilter, keep_State_modEpoch, keep_advanceAll, keep_buildPut, keep_keepScores] at hq; first | replace hk := of_eq_true hq.symm | replace hk := hq)))
    | (refine kept_each ?_ ?_)
    | (refine kept_foldl ?_ ?_)
    | (refine kept_foldl2 ?_ ?_)
    | (intro _)
    | (dsimp only))

theorem keep_reloadAsk {a0 s : State} (h0 : Kept a0 s)  : Kept a0 (reloadAsk s) := by
  have hk := h0
  unfold reloadAsk
  repeat' (first
    | (simp (maxDischargeDepth := 40) only [h0, hk, implies_true, Kept.refl, kept_mk, kept_regsFilter, keep_askLeave]; done)
    | (split <;> (try (rename_i heq; have hq := congrArg (fun r => Kept a0 (Prod.snd r)) heq; clear heq; simp (maxDischargeDepth := 40) only [h0, hk, implies_true, Kept.refl, kept_mk, kept_regsFilter, keep_askLeave] at hq; first | replace hk := of_eq_true hq.symm | replace hk := hq)))
    | (refine kept_each ?_ ?_)
    | (refine kept_foldl ?_ ?_)
    | (refine kept_foldl2 ?_ ?_)
    | (intro _)
    | (dsimp only))

theorem keep_abandonPlat {a0 s : State} (h0 : Kept a0 s) (v : Nat) : Kept a0 (abandonPlat v s) := by simp (maxDischargeDepth := 40) only [abandonPlat, h0, implies_true, Kept.refl, kept_mk, kept_regsFilter, keep_State_each, keep_advanceAll, keep_cadAbandon]

theorem keep_scoreRowRun {a0 s : State} (h0 : Kept a0 s) (c : Cmd) (slot : Nat) (b : List Byte) (sets : List PlotSet) : Kept a0 (scoreRowRun c slot b sets s).2 := by
  have hk := h0
  unfold scoreRowRun
  repeat' (first
    | (simp (maxDischargeDepth := 40) only [h0, hk, implies_true, Kept.refl, kept_mk, kept_regsFilter, keep_State_inc, keep_scoreOf]; done)
    | (split <;> (try (rename_i heq; have hq := congrArg (fun r => Kept a0 (Prod.snd r)) heq; clear heq; simp (maxDischargeDepth := 40) only [h0, hk, implies_true, Kept.refl, kept_mk, kept_regsFilter, keep_State_inc, keep_scoreOf] at hq; first | replace hk := of_eq_true hq.symm | replace hk := hq)))
    | (refine kept_each ?_ ?_)
    | (refine kept_foldl ?_ ?_)
    | (refine kept_foldl2 ?_ ?_)
    | (intro _)
    | (dsimp only))

theorem keep_scoreRow {a0 s : State} (h0 : Kept a0 s) (c : Cmd) : Kept a0 (scoreRow c s).2 := by
  have hk := h0
  unfold scoreRow
  repeat' (first
    | (simp (maxDischargeDepth := 40) only [h0, hk, implies_true, Kept.refl, kept_mk, kept_regsFilter, keep_ans, keep_ansWith, keep_askLeave, keep_scoreRowRun]; done)
    | (split <;> (try (rename_i heq; have hq := congrArg (fun r => Kept a0 (Prod.snd r)) heq; clear heq; simp (maxDischargeDepth := 40) only [h0, hk, implies_true, Kept.refl, kept_mk, kept_regsFilter, keep_ans, keep_ansWith, keep_askLeave, keep_scoreRowRun] at hq; first | replace hk := of_eq_true hq.symm | replace hk := hq)))
    | (refine kept_each ?_ ?_)
    | (refine kept_foldl ?_ ?_)
    | (refine kept_foldl2 ?_ ?_)
    | (intro _)
    | (dsimp only))

theorem keep_scoreRowsRun {a0 s : State} (h0 : Kept a0 s)  : Kept a0 (scoreRowsRun s) := by
  have hk := h0
  unfold scoreRowsRun
  repeat' (first
    | (simp (maxDischargeDepth := 40) only [h0, hk, implies_true, Kept.refl, kept_mk, kept_regsFilter, keep_State_each, keep_finishJob, keep_modJob, keep_scoreRow]; done)
    | (split <;> (try (rename_i heq; have hq := congrArg (fun r => Kept a0 (Prod.snd r)) heq; clear heq; simp (maxDischargeDepth := 40) only [h0, hk, implies_true, Kept.refl, kept_mk, kept_regsFilter, keep_State_each, keep_finishJob, keep_modJob, keep_scoreRow] at hq; first | replace hk := of_eq_true hq.symm | replace hk := hq)))
    | (refine kept_each ?_ ?_)
    | (refine kept_foldl ?_ ?_)
    | (refine kept_foldl2 ?_ ?_)
    | (intro _)
    | (dsimp only))

theorem keep_reloadGranted {a0 s : State} (h0 : Kept a0 s) (i : Nat) : Kept a0 (reloadGranted i s) := by
  have hk := h0
  unfold reloadGranted
  repeat' (first
    | (simp (maxDischargeDepth := 40) only [h0, hk, implies_true, Kept.refl, kept_mk, kept_regsFilter, keep_State_evt, keep_abandonPlat, keep_platDrop, keep_platImage, keep_platWrite, keep_releaseLeave, keep_reloadAsk, keep_scoreRowsRun]; done)
    | (split <;> (try (rename_i heq; have hq := congrArg (fun r => Kept a0 (Prod.snd r)) heq; clear heq; simp (maxDischargeDepth := 40) only [h0, hk, implies_true, Kept.refl, kept_mk, kept_regsFilter, keep_State_evt, keep_abandonPlat, keep_platDrop, keep_platImage, keep_platWrite, keep_releaseLeave, keep_reloadAsk, keep_scoreRowsRun] at hq; first | replace hk := of_eq_true hq.symm | replace hk := hq)))
    | (refine kept_each ?_ ?_)
    | (refine kept_foldl ?_ ?_)
    | (refine kept_foldl2 ?_ ?_)
    | (intro _)
    | (dsimp only))

theorem keep_passBegin {a0 s : State} (h0 : Kept a0 s) (j : CadJob) (slot : Nat) : Kept a0 (passBegin j slot s) := by simp (maxDischargeDepth := 40) only [passBegin, h0, implies_true, Kept.refl, kept_mk, kept_regsFilter]

theorem keep_cadStart {a0 s0 : State} (h0 : Kept a0 s0)  : Kept a0 (cadStart s0) := by
  have hk := h0
  unfold cadStart
  repeat' (first
    | (simp (maxDischargeDepth := 40) only [h0, hk, implies_true, Kept.refl, kept_mk, kept_regsFilter, keep_advanceAll, keep_askLeave, keep_cadAbandon, keep_passBegin, keep_reloadAsk, keep_scoreRowsRun]; done)
    | (split <;> (try (rename_i heq; have hq := congrArg (fun r => Kept a0 (Prod.snd r)) heq; clear heq; simp (maxDischargeDepth := 40) only [h0, hk, implies_true, Kept.refl, kept_mk, kept_regsFilter, keep_advanceAll, keep_askLeave, keep_cadAbandon, keep_passBegin, keep_reloadAsk, keep_scoreRowsRun] at hq; first | replace hk := of_eq_true hq.symm | replace hk := hq)))
    | (refine kept_each ?_ ?_)
    | (refine kept_foldl ?_ ?_)
    | (refine kept_foldl2 ?_ ?_)
    | (intro _)
    | (dsimp only))

theorem keep_passGranted {a0 s : State} (h0 : Kept a0 s)  : Kept a0 (passGranted s) := by
  unfold passGranted
  exact kept_ite (keep_cadStart h0) (keep_releaseLeave h0 _)

theorem keep_passCycles {a0 s : State} (h0 : Kept a0 s) (b : List Byte) (resident : Bool) (rows : Nat) : Kept a0 (passCycles b resident rows s).2 := by
  have hk := h0
  unfold passCycles
  repeat' (first
    | (simp (maxDischargeDepth := 40) only [h0, hk, implies_true, Kept.refl, kept_mk, kept_regsFilter, keep_State_draw]; done)
    | (split <;> (try (rename_i heq; have hq := congrArg (fun r => Kept a0 (Prod.snd r)) heq; clear heq; simp (maxDischargeDepth := 40) only [h0, hk, implies_true, Kept.refl, kept_mk, kept_regsFilter, keep_State_draw] at hq; first | replace hk := of_eq_true hq.symm | replace hk := hq)))
    | (refine kept_each ?_ ?_)
    | (refine kept_foldl ?_ ?_)
    | (refine kept_foldl2 ?_ ?_)
    | (intro _)
    | (dsimp only))

theorem keep_passRun {a0 s : State} (h0 : Kept a0 s) (p : CadPass) : Kept a0 (passRun p s) := by
  have hk := h0
  unfold passRun
  repeat' (first
    | (simp (maxDischargeDepth := 40) only [h0, hk, implies_true, Kept.refl, kept_mk, kept_regsFilter, keep_State_each, keep_State_maxR, keep_advanceAll, keep_cadAbandon, keep_jobDone, keep_passCycles, keep_passRow, keep_platImage, keep_platSets]; done)
    | (split <;> (try (rename_i heq; have hq := congrArg (fun r => Kept a0 (Prod.snd r)) heq; clear heq; simp (maxDischargeDepth := 40) only [h0, hk, implies_true, Kept.refl, kept_mk, kept_regsFilter, keep_State_each, keep_State_maxR, keep_advanceAll, keep_cadAbandon, keep_jobDone, keep_passCycles, keep_passRow, keep_platImage, keep_platSets] at hq; first | replace hk := of_eq_true hq.symm | replace hk := hq)))
    | (refine kept_each ?_ ?_)
    | (refine kept_foldl ?_ ?_)
    | (refine kept_foldl2 ?_ ?_)
    | (intro _)
    | (dsimp only))

theorem keep_cadComplete {a0 s : State} (h0 : Kept a0 s)  : Kept a0 (cadComplete s) := by
  have hk := h0
  unfold cadComplete
  repeat' (first
    | (simp (maxDischargeDepth := 40) only [h0, hk, implies_true, Kept.refl, kept_mk, kept_regsFilter, keep_State_inc, keep_passRun, keep_releaseLeave, keep_scoreRowsRun]; done)
    | (split <;> (try (rename_i heq; have hq := congrArg (fun r => Kept a0 (Prod.snd r)) heq; clear heq; simp (maxDischargeDepth := 40) only [h0, hk, implies_true, Kept.refl, kept_mk, kept_regsFilter, keep_State_inc, keep_passRun, keep_releaseLeave, keep_scoreRowsRun] at hq; first | replace hk := of_eq_true hq.symm | replace hk := hq)))
    | (refine kept_each ?_ ?_)
    | (refine kept_foldl ?_ ?_)
    | (refine kept_foldl2 ?_ ?_)
    | (intro _)
    | (dsimp only))

theorem keep_scoreTimeout {a0 s : State} (h0 : Kept a0 s) (parcel ep : Nat) : Kept a0 (scoreTimeout parcel ep s) := by
  have hk := h0
  unfold scoreTimeout
  repeat' (first
    | (simp (maxDischargeDepth := 40) only [h0, hk, implies_true, Kept.refl, kept_mk, kept_regsFilter, keep_State_evt, keep_advanceAll, keep_cadAbandon, keep_releaseLeave]; done)
    | (split <;> (try (rename_i heq; have hq := congrArg (fun r => Kept a0 (Prod.snd r)) heq; clear heq; simp (maxDischargeDepth := 40) only [h0, hk, implies_true, Kept.refl, kept_mk, kept_regsFilter, keep_State_evt, keep_advanceAll, keep_cadAbandon, keep_releaseLeave] at hq; first | replace hk := of_eq_true hq.symm | replace hk := hq)))
    | (refine kept_each ?_ ?_)
    | (refine kept_foldl ?_ ?_)
    | (refine kept_foldl2 ?_ ?_)
    | (intro _)
    | (dsimp only))

theorem keep_cadLose {a0 s : State} (h0 : Kept a0 s)  : Kept a0 (cadLose s) := by simp (maxDischargeDepth := 40) only [cadLose, h0, implies_true, Kept.refl, kept_mk, kept_regsFilter, keep_State_each, keep_cadAbandon, keep_releaseLeave]

theorem keep_cadFence {a0 s : State} (h0 : Kept a0 s)  : Kept a0 (cadFence s) := by simp (maxDischargeDepth := 40) only [cadFence, h0, implies_true, Kept.refl, kept_mk, kept_regsFilter, keep_State_each, keep_advanceAll, keep_cadAbandon, keep_releaseLeave]

theorem keep_loadRefused {a0 s : State} (h0 : Kept a0 s) (c : Cmd) (st : Nat) (res : List Word) : Kept a0 (loadRefused c st res s).2 := by simp (maxDischargeDepth := 40) only [loadRefused, h0, implies_true, Kept.refl, kept_mk, kept_regsFilter, keep_State_evt, keep_finished]

theorem keep_platLoad {a0 s : State} (h0 : Kept a0 s) (c : Cmd) : Kept a0 (platLoad c s).2 := by
  have hk := h0
  unfold platLoad
  repeat' (first
    | (simp (maxDischargeDepth := 40) only [h0, hk, implies_true, Kept.refl, kept_mk, kept_regsFilter, keep_State_evt, keep_askLeave, keep_finished, keep_holdWait, keep_loadBytes, keep_loadRefused, keep_platPlace]; done)
    | (split <;> (try (rename_i heq; have hq := congrArg (fun r => Kept a0 (Prod.snd r)) heq; clear heq; simp (maxDischargeDepth := 40) only [h0, hk, implies_true, Kept.refl, kept_mk, kept_regsFilter, keep_State_evt, keep_askLeave, keep_finished, keep_holdWait, keep_loadBytes, keep_loadRefused, keep_platPlace] at hq; first | replace hk := of_eq_true hq.symm | replace hk := hq)))
    | (refine kept_each ?_ ?_)
    | (refine kept_foldl ?_ ?_)
    | (refine kept_foldl2 ?_ ?_)
    | (intro _)
    | (dsimp only))

theorem keep_cadLoadGranted {a0 s : State} (h0 : Kept a0 s) (id : Nat) : Kept a0 (cadLoadGranted id s) := by
  have hk := h0
  unfold cadLoadGranted
  repeat' (first
    | (simp (maxDischargeDepth := 40) only [h0, hk, implies_true, Kept.refl, kept_mk, kept_regsFilter, keep_State_evt, keep_finishJob, keep_platDrop, keep_platImage, keep_platPlace, keep_platSets, keep_platWrite, keep_releaseLeave, keep_scoreRowRun]; done)
    | (split <;> (try (rename_i heq; have hq := congrArg (fun r => Kept a0 (Prod.snd r)) heq; clear heq; simp (maxDischargeDepth := 40) only [h0, hk, implies_true, Kept.refl, kept_mk, kept_regsFilter, keep_State_evt, keep_finishJob, keep_platDrop, keep_platImage, keep_platPlace, keep_platSets, keep_platWrite, keep_releaseLeave, keep_scoreRowRun] at hq; first | replace hk := of_eq_true hq.symm | replace hk := hq)))
    | (refine kept_each ?_ ?_)
    | (refine kept_foldl ?_ ?_)
    | (refine kept_foldl2 ?_ ?_)
    | (intro _)
    | (dsimp only))

theorem keep_cadLoadRefused {a0 s : State} (h0 : Kept a0 s) (id : Nat) : Kept a0 (cadLoadRefused id s) := by
  have hk := h0
  unfold cadLoadRefused
  repeat' (first
    | (simp (maxDischargeDepth := 40) only [h0, hk, implies_true, Kept.refl, kept_mk, kept_regsFilter, keep_State_evt, keep_finishJob, keep_platDrop]; done)
    | (split <;> (try (rename_i heq; have hq := congrArg (fun r => Kept a0 (Prod.snd r)) heq; clear heq; simp (maxDischargeDepth := 40) only [h0, hk, implies_true, Kept.refl, kept_mk, kept_regsFilter, keep_State_evt, keep_finishJob, keep_platDrop] at hq; first | replace hk := of_eq_true hq.symm | replace hk := hq)))
    | (refine kept_each ?_ ?_)
    | (refine kept_foldl ?_ ?_)
    | (refine kept_foldl2 ?_ ?_)
    | (intro _)
    | (dsimp only))

theorem keep_cadWaited {a0 s : State} (h0 : Kept a0 s) (waited : Bool) : Kept a0 (cadWaited waited s) := by
  unfold cadWaited; split <;> simp (maxDischargeDepth := 40) only [h0, implies_true, Kept.refl, kept_mk, kept_regsFilter, keep_State_evt]

theorem keep_platUnload {a0 s : State} (h0 : Kept a0 s) (c : Cmd) : Kept a0 (platUnload c s).2 := by
  have hk := h0
  unfold platUnload
  repeat' (first
    | (simp (maxDischargeDepth := 40) only [h0, hk, implies_true, Kept.refl, kept_mk, kept_regsFilter, keep_ans, keep_platDrop]; done)
    | (split <;> (try (rename_i heq; have hq := congrArg (fun r => Kept a0 (Prod.snd r)) heq; clear heq; simp (maxDischargeDepth := 40) only [h0, hk, implies_true, Kept.refl, kept_mk, kept_regsFilter, keep_ans, keep_platDrop] at hq; first | replace hk := of_eq_true hq.symm | replace hk := hq)))
    | (refine kept_each ?_ ?_)
    | (refine kept_foldl ?_ ?_)
    | (refine kept_foldl2 ?_ ?_)
    | (intro _)
    | (dsimp only))

theorem keep_platKeyCmd {a0 s : State} (h0 : Kept a0 s) (c : Cmd) : Kept a0 (platKeyCmd c s).2 := by
  have hk := h0
  unfold platKeyCmd
  repeat' (first
    | (simp (maxDischargeDepth := 40) only [h0, hk, implies_true, Kept.refl, kept_mk, kept_regsFilter, keep_State_wr, keep_ans]; done)
    | (split <;> (try (rename_i heq; have hq := congrArg (fun r => Kept a0 (Prod.snd r)) heq; clear heq; simp (maxDischargeDepth := 40) only [h0, hk, implies_true, Kept.refl, kept_mk, kept_regsFilter, keep_State_wr, keep_ans] at hq; first | replace hk := of_eq_true hq.symm | replace hk := hq)))
    | (refine kept_each ?_ ?_)
    | (refine kept_foldl ?_ ?_)
    | (refine kept_foldl2 ?_ ?_)
    | (intro _)
    | (dsimp only))

theorem keep_cadSet {a0 s : State} (h0 : Kept a0 s) (c : Cmd) : Kept a0 (cadSet c s).2 := by
  have hk := h0
  unfold cadSet
  repeat' (first
    | (simp (maxDischargeDepth := 40) only [h0, hk, implies_true, Kept.refl, kept_mk, kept_regsFilter, keep_State_wr, keep_ans]; done)
    | (split <;> (try (rename_i heq; have hq := congrArg (fun r => Kept a0 (Prod.snd r)) heq; clear heq; simp (maxDischargeDepth := 40) only [h0, hk, implies_true, Kept.refl, kept_mk, kept_regsFilter, keep_State_wr, keep_ans] at hq; first | replace hk := of_eq_true hq.symm | replace hk := hq)))
    | (refine kept_each ?_ ?_)
    | (refine kept_foldl ?_ ?_)
    | (refine kept_foldl2 ?_ ?_)
    | (intro _)
    | (dsimp only))

theorem keep_scoreRead {a0 s : State} (h0 : Kept a0 s) (c : Cmd) : Kept a0 (scoreRead c s).2 := by
  have hk := h0
  unfold scoreRead
  repeat' (first
    | (simp (maxDischargeDepth := 40) only [h0, hk, implies_true, Kept.refl, kept_mk, kept_regsFilter, keep_ans, keep_ansWith]; done)
    | (split <;> (try (rename_i heq; have hq := congrArg (fun r => Kept a0 (Prod.snd r)) heq; clear heq; simp (maxDischargeDepth := 40) only [h0, hk, implies_true, Kept.refl, kept_mk, kept_regsFilter, keep_ans, keep_ansWith] at hq; first | replace hk := of_eq_true hq.symm | replace hk := hq)))
    | (refine kept_each ?_ ?_)
    | (refine kept_foldl ?_ ?_)
    | (refine kept_foldl2 ?_ ?_)
    | (intro _)
    | (dsimp only))

/-! ### Transit.lean -/

theorem keep_scratchNote {a0 s : State} (h0 : Kept a0 s)  : Kept a0 (scratchNote s) := by simp (maxDischargeDepth := 40) only [scratchNote, h0, implies_true, Kept.refl, kept_mk, kept_regsFilter, keep_State_wr]

theorem keep_subDrop {a0 s : State} (h0 : Kept a0 s) (i : Nat) : Kept a0 (subDrop i s) := by simp (maxDischargeDepth := 40) only [subDrop, h0, implies_true, Kept.refl, kept_mk, kept_regsFilter, keep_State_wr, keep_scratchNote]

theorem keep_subPlace {a0 s : State} (h0 : Kept a0 s) (i st addr : Nat) (resident : Bool) (learnAt : Option Nat) (b : List Byte) : Kept a0 (subPlace i st addr resident learnAt b s) := by simp (maxDischargeDepth := 40) only [subPlace, h0, implies_true, Kept.refl, kept_mk, kept_regsFilter, keep_State_wr, keep_scratchNote]

theorem keep_subWrite {a0 s : State} (h0 : Kept a0 s) (i : Nat) (b : List Byte) : Kept a0 (subWrite i b s) := by simp (maxDischargeDepth := 40) only [subWrite, h0, implies_true, Kept.refl, kept_mk, kept_regsFilter, keep_memGone, keep_memWritten, keep_scratchNote]

theorem keep_subFetch {a0 s : State} (h0 : Kept a0 s) (i : Nat) : Kept a0 (subFetch i s).2 := by simp (maxDischargeDepth := 40) only [subFetch, h0, implies_true, Kept.refl, kept_mk, kept_regsFilter, keep_loadBytes]

theorem keep_trnReloadAsk {a0 s : State} (h0 : Kept a0 s)  : Kept a0 (trnReloadAsk s) := by
  have hk := h0
  unfold trnReloadAsk
  repeat' (first
    | (simp (maxDischargeDepth := 40) only [h0, hk, implies_true, Kept.refl, kept_mk, kept_regsFilter, keep_askLeave]; done)
    | (split <;> (try (rename_i heq; have hq := congrArg (fun r => Kept a0 (Prod.snd r)) heq; clear heq; simp (maxDischargeDepth := 40) only [h0, hk, implies_true, Kept.refl, kept_mk, kept_regsFilter, keep_askLeave] at hq; first | replace hk := of_eq_true hq.symm | replace hk := hq)))
    | (refine kept_each ?_ ?_)
    | (refine kept_foldl ?_ ?_)
    | (refine kept_foldl2 ?_ ?_)
    | (intro _)
    | (dsimp only))

theorem keep_trnRunAsk {a0 s : State} (h0 : Kept a0 s)  : Kept a0 (trnRunAsk s) := by
  have hk := h0
  unfold trnRunAsk
  repeat' (first
    | (simp (maxDischargeDepth := 40) only [h0, hk, implies_true, Kept.refl, kept_mk, kept_regsFilter, keep_State_each, keep_askLeave, keep_finishJob, keep_releaseLeave]; done)
    | (split <;> (try (rename_i heq; have hq := congrArg (fun r => Kept a0 (Prod.snd r)) heq; clear heq; simp (maxDischargeDepth := 40) only [h0, hk, implies_true, Kept.refl, kept_mk, kept_regsFilter, keep_State_each, keep_askLeave, keep_finishJob, keep_releaseLeave] at hq; first | replace hk := of_eq_true hq.symm | replace hk := hq)))
    | (refine kept_each ?_ ?_)
    | (refine kept_foldl ?_ ?_)
    | (refine kept_foldl2 ?_ ?_)
    | (intro _)
    | (dsimp only))

theorem keep_trnGiveUp {a0 s : State} (h0 : Kept a0 s) (js : List CadJob) : Kept a0 (trnGiveUp js s) := by simp (maxDischargeDepth := 40) only [trnGiveUp, h0, implies_true, Kept.refl, kept_mk, kept_regsFilter, keep_State_each, keep_advanceAll, keep_trnAbandon, keep_trnRunAsk]

theorem keep_trnWaited {a0 s : State} (h0 : Kept a0 s) (waited : Bool) : Kept a0 (trnWaited waited s) := by
  unfold trnWaited; split <;> simp (maxDischargeDepth := 40) only [h0, implies_true, Kept.refl, kept_mk, kept_regsFilter, keep_State_evt]

theorem keep_trnUnask {a0 s : State} (h0 : Kept a0 s)  : Kept a0 (trnUnask s) := by simp (maxDischargeDepth := 40) only [trnUnask, h0, implies_true, Kept.refl, kept_mk, kept_regsFilter, keep_releaseLeave, keep_trnWaited]

theorem keep_trnFence {a0 s : State} (h0 : Kept a0 s)  : Kept a0 (trnFence s) := by
  have hk := h0
  unfold trnFence
  repeat' (first
    | (simp (maxDischargeDepth := 40) only [h0, hk, implies_true, Kept.refl, kept_mk, kept_regsFilter, keep_trnGiveUp, keep_trnUnask]; done)
    | (split <;> (try (rename_i heq; have hq := congrArg (fun r => Kept a0 (Prod.snd r)) heq; clear heq; simp (maxDischargeDepth := 40) only [h0, hk, implies_true, Kept.refl, kept_mk, kept_regsFilter, keep_trnGiveUp, keep_trnUnask] at hq; first | replace hk := of_eq_true hq.symm | replace hk := hq)))
    | (refine kept_each ?_ ?_)
    | (refine kept_foldl ?_ ?_)
    | (refine kept_foldl2 ?_ ?_)
    | (intro _)
    | (dsimp only))

theorem keep_trnFormed {a0 s : State} (h0 : Kept a0 s) (p : TrnPass) : Kept a0 (trnFormed p s) := by simp (maxDischargeDepth := 40) only [trnFormed, h0, implies_true, Kept.refl, kept_mk, kept_regsFilter, keep_State_inc, keep_State_modEpoch, keep_advanceAll]

theorem keep_trnLearn {a0 s : State} (h0 : Kept a0 s) (p : TrnPass) : Kept a0 (trnLearn p s) := by
  have hk := h0
  unfold trnLearn
  repeat' (first
    | (simp (maxDischargeDepth := 40) only [h0, hk, implies_true, Kept.refl, kept_mk, kept_regsFilter, keep_State_evt, keep_State_inc, keep_loadBytes, keep_memWritten, keep_storeBytes]; done)
    | (split <;> (try (rename_i heq; have hq := congrArg (fun r => Kept a0 (Prod.snd r)) heq; clear heq; simp (maxDischargeDepth := 40) only [h0, hk, implies_true, Kept.refl, kept_mk, kept_regsFilter, keep_State_evt, keep_State_inc, keep_loadBytes, keep_memWritten, keep_storeBytes] at hq; first | replace hk := of_eq_true hq.symm | replace hk := hq)))
    | (refine kept_each ?_ ?_)
    | (refine kept_foldl ?_ ?_)
    | (refine kept_foldl2 ?_ ?_)
    | (intro _)
    | (dsimp only))

theorem keep_trnServe {a0 s : State} (h0 : Kept a0 s) (i n k : Nat) : Kept a0 (trnServe i n k s) := by
  have hk := h0
  unfold trnServe
  repeat' (first
    | (simp (maxDischargeDepth := 40) only [h0, hk, implies_true, Kept.refl, kept_mk, kept_regsFilter]; done)
    | (split <;> (try (rename_i heq; have hq := congrArg (fun r => Kept a0 (Prod.snd r)) heq; clear heq; simp (maxDischargeDepth := 40) only [h0, hk, implies_true, Kept.refl, kept_mk, kept_regsFilter] at hq; first | replace hk := of_eq_true hq.symm | replace hk := hq)))
    | (refine kept_each ?_ ?_)
    | (refine kept_foldl ?_ ?_)
    | (refine kept_foldl2 ?_ ?_)
    | (intro _)
    | (dsimp only))

theorem keep_fenceNote {a0 s : State} (h0 : Kept a0 s) (a : Nat) (whole : Bool) : Kept a0 (fenceNote a whole s) := by simp (maxDischargeDepth := 40) only [fenceNote, h0, implies_true, Kept.refl, kept_mk, kept_regsFilter, keep_State_evt, keep_faultEdge, keep_logEvent]

theorem keep_fenceArray {a0 s : State} (h0 : Kept a0 s) (a : Nat) : Kept a0 (fenceArray a s) := by
  unfold fenceArray; split <;> simp (maxDischargeDepth := 40) only [h0, implies_true, Kept.refl, kept_mk, kept_regsFilter, keep_State_putB, keep_fenceNote]

theorem keep_fenceGroup {a0 s : State} (h0 : Kept a0 s) (a g : Nat) : Kept a0 (fenceGroup a g s) := by
  have hk := h0
  unfold fenceGroup
  repeat' (first
    | (simp (maxDischargeDepth := 40) only [h0, hk, implies_true, Kept.refl, kept_mk, kept_regsFilter, keep_State_putB, keep_fenceArray, keep_fenceNote]; done)
    | (split <;> (try (rename_i heq; have hq := congrArg (fun r => Kept a0 (Prod.snd r)) heq; clear heq; simp (maxDischargeDepth := 40) only [h0, hk, implies_true, Kept.refl, kept_mk, kept_regsFilter, keep_State_putB, keep_fenceArray, keep_fenceNote] at hq; first | replace hk := of_eq_true hq.symm | replace hk := hq)))
    | (refine kept_each ?_ ?_)
    | (refine kept_foldl ?_ ?_)
    | (refine kept_foldl2 ?_ ?_)
    | (intro _)
    | (dsimp only))

theorem keep_fenceCount {a0 s : State} (h0 : Kept a0 s) (a g : Nat) : Kept a0 (fenceCount a g s) := by
  have hk := h0
  unfold fenceCount
  repeat' (first
    | (simp (maxDischargeDepth := 40) only [h0, hk, implies_true, Kept.refl, kept_mk, kept_regsFilter, keep_fenceArray, keep_fenceGroup]; done)
    | (split <;> (try (rename_i heq; have hq := congrArg (fun r => Kept a0 (Prod.snd r)) heq; clear heq; simp (maxDischargeDepth := 40) only [h0, hk, implies_true, Kept.refl, kept_mk, kept_regsFilter, keep_fenceArray, keep_fenceGroup] at hq; first | replace hk := of_eq_true hq.symm | replace hk := hq)))
    | (refine kept_each ?_ ?_)
    | (refine kept_foldl ?_ ?_)
    | (refine kept_foldl2 ?_ ?_)
    | (intro _)
    | (dsimp only))

theorem keep_tileFails {a0 s : State} (h0 : Kept a0 s) (a : Nat) (groups : List Nat) (n : Nat) : Kept a0 (tileFails a groups n s) := by
  have hk := h0
  unfold tileFails
  repeat' (first
    | (simp (maxDischargeDepth := 40) only [h0, hk, implies_true, Kept.refl, kept_mk, kept_regsFilter, keep_State_each, keep_State_evt, keep_State_inc, keep_faultEdge, keep_fenceCount, keep_rateNote, keep_trnFence]; done)
    | (split <;> (try (rename_i heq; have hq := congrArg (fun r => Kept a0 (Prod.snd r)) heq; clear heq; simp (maxDischargeDepth := 40) only [h0, hk, implies_true, Kept.refl, kept_mk, kept_regsFilter, keep_State_each, keep_State_evt, keep_State_inc, keep_faultEdge, keep_fenceCount, keep_rateNote, keep_trnFence] at hq; first | replace hk := of_eq_true hq.symm | replace hk := hq)))
    | (refine kept_each ?_ ?_)
    | (refine kept_foldl ?_ ?_)
    | (refine kept_foldl2 ?_ ?_)
    | (intro _)
    | (dsimp only))

theorem keep_trnVoid {a0 s : State} (h0 : Kept a0 s) (n k : Nat) : Kept a0 (trnVoid n k s) := by simp (maxDischargeDepth := 40) only [trnVoid, h0, implies_true, Kept.refl, kept_mk, kept_regsFilter, keep_State_evt, keep_State_inc, keep_State_modEpoch]

theorem keep_trnVotesIn {a0 s : State} (h0 : Kept a0 s) (n k : Nat) : Kept a0 (trnVotesIn n k s) := by
  unfold trnVotesIn
  refine kept_each h0 (fun v t => ?_)
  have h := keep_raiseVoteOf (Kept.refl t) true n k 2 v 1
  revert h
  generalize raiseVoteOf true n k 2 v 1 t = r
  obtain ⟨ok, u⟩ := r
  intro h
  exact kept_ite (keep_State_inc h _ _) h

theorem keep_trnHandOn {a0 s : State} (h0 : Kept a0 s) (n k : Nat) : Kept a0 (trnHandOn n k s) := by
  have hk := h0
  unfold trnHandOn
  repeat' (first
    | (simp (maxDischargeDepth := 40) only [h0, hk, implies_true, Kept.refl, kept_mk, kept_regsFilter, keep_State_modEpoch, keep_advanceAll, keep_sendResolve]; done)
    | (split <;> (try (rename_i heq; have hq := congrArg (fun r => Kept a0 (Prod.snd r)) heq; clear heq; simp (maxDischargeDepth := 40) only [h0, hk, implies_true, Kept.refl, kept_mk, kept_regsFilter, keep_State_modEpoch, keep_advanceAll, keep_sendResolve] at hq; first | replace hk := of_eq_true hq.symm | replace hk := hq)))
    | (refine kept_each ?_ ?_)
    | (refine kept_foldl ?_ ?_)
    | (refine kept_foldl2 ?_ ?_)
    | (intro _)
    | (dsimp only))

theorem keep_trnPassEnd {a0 s : State} (h0 : Kept a0 s) (p : TrnPass) : Kept a0 (trnPassEnd p s) := by
  unfold trnPassEnd; split <;> simp (maxDischargeDepth := 40) only [h0, implies_true, Kept.refl, kept_mk, kept_regsFilter, keep_State_inc, keep_State_maxR, keep_releaseLeave, keep_trnHandOn, keep_trnLearn, keep_trnRunAsk, keep_trnVoid, keep_trnVotesIn]

theorem keep_trnPassBegin {a0 s : State} (h0 : Kept a0 s) (j : CadJob) (i : Nat) : Kept a0 (trnPassBegin j i s) := by
  have hk := h0
  unfold trnPassBegin
  repeat' (first
    | (simp (maxDischargeDepth := 40) only [h0, hk, implies_true, Kept.refl, kept_mk, kept_regsFilter, keep_releaseLeave, keep_subFetch, keep_trnFormed, keep_trnGiveUp, keep_trnPassEnd, keep_trnServe]; done)
    | (split <;> (try (rename_i heq; have hq := congrArg (fun r => Kept a0 (Prod.snd r)) heq; clear heq; simp (maxDischargeDepth := 40) only [h0, hk, implies_true, Kept.refl, kept_mk, kept_regsFilter, keep_releaseLeave, keep_subFetch, keep_trnFormed, keep_trnGiveUp, keep_trnPassEnd, keep_trnServe] at hq; first | replace hk := of_eq_true hq.symm | replace hk := hq)))
    | (refine kept_each ?_ ?_)
    | (refine kept_foldl ?_ ?_)
    | (refine kept_foldl2 ?_ ?_)
    | (intro _)
    | (dsimp only))

theorem keep_trnStart {a0 s : State} (h0 : Kept a0 s)  : Kept a0 (trnStart s) := by
  have hk := h0
  unfold trnStart
  repeat' (first
    | (simp (maxDischargeDepth := 40) only [h0, hk, implies_true, Kept.refl, kept_mk, kept_regsFilter, keep_askLeave, keep_trnFence, keep_trnGiveUp, keep_trnPassBegin, keep_trnReloadAsk]; done)
    | (split <;> (try (rename_i heq; have hq := congrArg (fun r => Kept a0 (Prod.snd r)) heq; clear heq; simp (maxDischargeDepth := 40) only [h0, hk, implies_true, Kept.refl, kept_mk, kept_regsFilter, keep_askLeave, keep_trnFence, keep_trnGiveUp, keep_trnPassBegin, keep_trnReloadAsk] at hq; first | replace hk := of_eq_true hq.symm | replace hk := hq)))
    | (refine kept_each ?_ ?_)
    | (refine kept_foldl ?_ ?_)
    | (refine kept_foldl2 ?_ ?_)
    | (intro _)
    | (dsimp only))

theorem keep_trnPassGranted {a0 s : State} (h0 : Kept a0 s)  : Kept a0 (trnPassGranted s) := by
  have hk := h0
  unfold trnPassGranted
  repeat' (first
    | (simp (maxDischargeDepth := 40) only [h0, hk, implies_true, Kept.refl, kept_mk, kept_regsFilter, keep_releaseLeave, keep_trnStart]; done)
    | (split <;> (try (rename_i heq; have hq := congrArg (fun r => Kept a0 (Prod.snd r)) heq; clear heq; simp (maxDischargeDepth := 40) only [h0, hk, implies_true, Kept.refl, kept_mk, kept_regsFilter, keep_releaseLeave, keep_trnStart] at hq; first | replace hk := of_eq_true hq.symm | replace hk := hq)))
    | (refine kept_each ?_ ?_)
    | (refine kept_foldl ?_ ?_)
    | (refine kept_foldl2 ?_ ?_)
    | (intro _)
    | (dsimp only))

theorem keep_trnTile {a0 s : State} (h0 : Kept a0 s)  : Kept a0 (trnTile s) := by
  have hk := h0
  unfold trnTile
  repeat' (first
    | (simp (maxDischargeDepth := 40) only [h0, hk, implies_true, Kept.refl, kept_mk, kept_regsFilter, keep_State_inc, keep_memReadBack, keep_trnFormed]; done)
    | (split <;> (try (rename_i heq; have hq := congrArg (fun r => Kept a0 (Prod.snd r)) heq; clear heq; simp (maxDischargeDepth := 40) only [h0, hk, implies_true, Kept.refl, kept_mk, kept_regsFilter, keep_State_inc, keep_memReadBack, keep_trnFormed] at hq; first | replace hk := of_eq_true hq.symm | replace hk := hq)))
    | (refine kept_each ?_ ?_)
    | (refine kept_foldl ?_ ?_)
    | (refine kept_foldl2 ?_ ?_)
    | (intro _)
    | (dsimp only))

theorem keep_trnCheckDone {a0 s : State} (h0 : Kept a0 s) (cols : List Nat) (unlocated : Bool) : Kept a0 (trnCheckDone cols unlocated s) := by
  have hk := h0
  unfold trnCheckDone
  repeat' (first
    | (simp (maxDischargeDepth := 40) only [h0, hk, implies_true, Kept.refl, kept_mk, kept_regsFilter, keep_tileFails, keep_trnPassEnd]; done)
    | (split <;> (try (rename_i heq; have hq := congrArg (fun r => Kept a0 (Prod.snd r)) heq; clear heq; simp (maxDischargeDepth := 40) only [h0, hk, implies_true, Kept.refl, kept_mk, kept_regsFilter, keep_tileFails, keep_trnPassEnd] at hq; first | replace hk := of_eq_true hq.symm | replace hk := hq)))
    | (refine kept_each ?_ ?_)
    | (refine kept_foldl ?_ ?_)
    | (refine kept_foldl2 ?_ ?_)
    | (intro _)
    | (dsimp only))

theorem keep_trnRunTimeout {a0 s : State} (h0 : Kept a0 s) (parcel ep : Nat) : Kept a0 (trnRunTimeout parcel ep s) := by
  have hk := h0
  unfold trnRunTimeout
  repeat' (first
    | (simp (maxDischargeDepth := 40) only [h0, hk, implies_true, Kept.refl, kept_mk, kept_regsFilter, keep_trnGiveUp, keep_trnUnask]; done)
    | (split <;> (try (rename_i heq; have hq := congrArg (fun r => Kept a0 (Prod.snd r)) heq; clear heq; simp (maxDischargeDepth := 40) only [h0, hk, implies_true, Kept.refl, kept_mk, kept_regsFilter, keep_trnGiveUp, keep_trnUnask] at hq; first | replace hk := of_eq_true hq.symm | replace hk := hq)))
    | (refine kept_each ?_ ?_)
    | (refine kept_foldl ?_ ?_)
    | (refine kept_foldl2 ?_ ?_)
    | (intro _)
    | (dsimp only))

theorem keep_trnLose {a0 s : State} (h0 : Kept a0 s)  : Kept a0 (trnLose s) := by
  have hk := h0
  unfold trnLose
  repeat' (first
    | (simp (maxDischargeDepth := 40) only [h0, hk, implies_true, Kept.refl, kept_mk, kept_regsFilter, keep_releaseLeave, keep_trnAbandon, keep_trnHandOn, keep_trnVoid]; done)
    | (split <;> (try (rename_i heq; have hq := congrArg (fun r => Kept a0 (Prod.snd r)) heq; clear heq; simp (maxDischargeDepth := 40) only [h0, hk, implies_true, Kept.refl, kept_mk, kept_regsFilter, keep_releaseLeave, keep_trnAbandon, keep_trnHandOn, keep_trnVoid] at hq; first | replace hk := of_eq_true hq.symm | replace hk := hq)))
    | (refine kept_each ?_ ?_)
    | (refine kept_foldl ?_ ?_)
    | (refine kept_foldl2 ?_ ?_)
    | (intro _)
    | (dsimp only))

theorem keep_trnReload {a0 s : State} (h0 : Kept a0 s) (i : Nat) : Kept a0 (trnReload i s).2 := by
  have hk := h0
  unfold trnReload
  repeat' (first
    | (simp (maxDischargeDepth := 40) only [h0, hk, implies_true, Kept.refl, kept_mk, kept_regsFilter, keep_loadBytes, keep_subFetch]; done)
    | (split <;> (try (rename_i heq; have hq := congrArg (fun r => Kept a0 (Prod.snd r)) heq; clear heq; simp (maxDischargeDepth := 40) only [h0, hk, implies_true, Kept.refl, kept_mk, kept_regsFilter, keep_loadBytes, keep_subFetch] at hq; first | replace hk := of_eq_true hq.symm | replace hk := hq)))
    | (refine kept_each ?_ ?_)
    | (refine kept_foldl ?_ ?_)
    | (refine kept_foldl2 ?_ ?_)
    | (intro _)
    | (dsimp only))

theorem keep_trnReloadGranted {a0 s : State} (h0 : Kept a0 s) (i : Nat) : Kept a0 (trnReloadGranted i s) := by
  have hk := h0
  unfold trnReloadGranted
  repeat' (first
    | (simp (maxDischargeDepth := 40) only [h0, hk, implies_true, Kept.refl, kept_mk, kept_regsFilter, keep_State_evt, keep_releaseLeave, keep_subDrop, keep_subWrite, keep_trnGiveUp, keep_trnReload, keep_trnReloadAsk]; done)
    | (split <;> (try (rename_i heq; have hq := congrArg (fun r => Kept a0 (Prod.snd r)) heq; clear heq; simp (maxDischargeDepth := 40) only [h0, hk, implies_true, Kept.refl, kept_mk, kept_regsFilter, keep_State_evt, keep_releaseLeave, keep_subDrop, keep_subWrite, keep_trnGiveUp, keep_trnReload, keep_trnReloadAsk] at hq; first | replace hk := of_eq_true hq.symm | replace hk := hq)))
    | (refine kept_each ?_ ?_)
    | (refine kept_foldl ?_ ?_)
    | (refine kept_foldl2 ?_ ?_)
    | (intro _)
    | (dsimp only))

theorem keep_subRefused {a0 s : State} (h0 : Kept a0 s) (c : Cmd) (st : Nat) (res : List Word) : Kept a0 (subRefused c st res s).2 := by simp (maxDischargeDepth := 40) only [subRefused, h0, implies_true, Kept.refl, kept_mk, kept_regsFilter, keep_State_evt, keep_finished]

theorem keep_subLoad {a0 s : State} (h0 : Kept a0 s) (c : Cmd) : Kept a0 (subLoad c s).2 := by
  have hk := h0
  unfold subLoad
  repeat' (first
    | (simp (maxDischargeDepth := 40) only [h0, hk, implies_true, Kept.refl, kept_mk, kept_regsFilter, keep_State_evt, keep_askLeave, keep_finished, keep_holdWait, keep_loadBytes, keep_subPlace, keep_subRefused]; done)
    | (split <;> (try (rename_i heq; have hq := congrArg (fun r => Kept a0 (Prod.snd r)) heq; clear heq; simp (maxDischargeDepth := 40) only [h0, hk, implies_true, Kept.refl, kept_mk, kept_regsFilter, keep_State_evt, keep_askLeave, keep_finished, keep_holdWait, keep_loadBytes, keep_subPlace, keep_subRefused] at hq; first | replace hk := of_eq_true hq.symm | replace hk := hq)))
    | (refine kept_each ?_ ?_)
    | (refine kept_foldl ?_ ?_)
    | (refine kept_foldl2 ?_ ?_)
    | (intro _)
    | (dsimp only))

theorem keep_subLoadCopy {a0 s : State} (h0 : Kept a0 s) (id i : Nat) (b : List Byte) (j : Job) : Kept a0 (subLoadCopy id i b j s) := by
  have hk := h0
  unfold subLoadCopy
  repeat' (first
    | (simp (maxDischargeDepth := 40) only [h0, hk, implies_true, Kept.refl, kept_mk, kept_regsFilter, keep_State_evt, keep_finishJob, keep_storeBytes, keep_subDrop, keep_subPlace, keep_subWrite]; done)
    | (split <;> (try (rename_i heq; have hq := congrArg (fun r => Kept a0 (Prod.snd r)) heq; clear heq; simp (maxDischargeDepth := 40) only [h0, hk, implies_true, Kept.refl, kept_mk, kept_regsFilter, keep_State_evt, keep_finishJob, keep_storeBytes, keep_subDrop, keep_subPlace, keep_subWrite] at hq; first | replace hk := of_eq_true hq.symm | replace hk := hq)))
    | (refine kept_each ?_ ?_)
    | (refine kept_foldl ?_ ?_)
    | (refine kept_foldl2 ?_ ?_)
    | (intro _)
    | (dsimp only))

theorem keep_trnLoadGranted {a0 s : State} (h0 : Kept a0 s) (id : Nat) : Kept a0 (trnLoadGranted id s) := by
  have hk := h0
  unfold trnLoadGranted
  repeat' (first
    | (simp (maxDischargeDepth := 40) only [h0, hk, implies_true, Kept.refl, kept_mk, kept_regsFilter, keep_State_evt, keep_finishJob, keep_modJob, keep_releaseLeave, keep_subDrop, keep_subLoadCopy]; done)
    | (split <;> (try (rename_i heq; have hq := congrArg (fun r => Kept a0 (Prod.snd r)) heq; clear heq; simp (maxDischargeDepth := 40) only [h0, hk, implies_true, Kept.refl, kept_mk, kept_regsFilter, keep_State_evt, keep_finishJob, keep_modJob, keep_releaseLeave, keep_subDrop, keep_subLoadCopy] at hq; first | replace hk := of_eq_true hq.symm | replace hk := hq)))
    | (refine kept_each ?_ ?_)
    | (refine kept_foldl ?_ ?_)
    | (refine kept_foldl2 ?_ ?_)
    | (intro _)
    | (dsimp only))

theorem keep_trnLoadRefused {a0 s : State} (h0 : Kept a0 s) (id : Nat) : Kept a0 (trnLoadRefused id s) := by
  have hk := h0
  unfold trnLoadRefused
  repeat' (first
    | (simp (maxDischargeDepth := 40) only [h0, hk, implies_true, Kept.refl, kept_mk, kept_regsFilter, keep_State_evt, keep_finishJob, keep_subDrop]; done)
    | (split <;> (try (rename_i heq; have hq := congrArg (fun r => Kept a0 (Prod.snd r)) heq; clear heq; simp (maxDischargeDepth := 40) only [h0, hk, implies_true, Kept.refl, kept_mk, kept_regsFilter, keep_State_evt, keep_finishJob, keep_subDrop] at hq; first | replace hk := of_eq_true hq.symm | replace hk := hq)))
    | (refine kept_each ?_ ?_)
    | (refine kept_foldl ?_ ?_)
    | (refine kept_foldl2 ?_ ?_)
    | (intro _)
    | (dsimp only))

theorem keep_subUnload {a0 s : State} (h0 : Kept a0 s) (c : Cmd) : Kept a0 (subUnload c s).2 := by
  have hk := h0
  unfold subUnload
  repeat' (first
    | (simp (maxDischargeDepth := 40) only [h0, hk, implies_true, Kept.refl, kept_mk, kept_regsFilter, keep_ans, keep_subDrop]; done)
    | (split <;> (try (rename_i heq; have hq := congrArg (fun r => Kept a0 (Prod.snd r)) heq; clear heq; simp (maxDischargeDepth := 40) only [h0, hk, implies_true, Kept.refl, kept_mk, kept_regsFilter, keep_ans, keep_subDrop] at hq; first | replace hk := of_eq_true hq.symm | replace hk := hq)))
    | (refine kept_each ?_ ?_)
    | (refine kept_foldl ?_ ?_)
    | (refine kept_foldl2 ?_ ?_)
    | (intro _)
    | (dsimp only))

theorem keep_trnRun {a0 s : State} (h0 : Kept a0 s) (c : Cmd) : Kept a0 (trnRun c s).2 := by
  have hk := h0
  unfold trnRun
  repeat' (first
    | (simp (maxDischargeDepth := 40) only [h0, hk, implies_true, Kept.refl, kept_mk, kept_regsFilter, keep_ans, keep_ansWith, keep_askLeave]; done)
    | (split <;> (try (rename_i heq; have hq := congrArg (fun r => Kept a0 (Prod.snd r)) heq; clear heq; simp (maxDischargeDepth := 40) only [h0, hk, implies_true, Kept.refl, kept_mk, kept_regsFilter, keep_ans, keep_ansWith, keep_askLeave] at hq; first | replace hk := of_eq_true hq.symm | replace hk := hq)))
    | (refine kept_each ?_ ?_)
    | (refine kept_foldl ?_ ?_)
    | (refine kept_foldl2 ?_ ?_)
    | (intro _)
    | (dsimp only))

theorem keep_runChecks {a0 s : State} (h0 : Kept a0 s) (t : TrnStage) (xs : List (List Nat)) : Kept a0 (runChecks t xs s).2 := by
  have hk := h0
  unfold runChecks
  repeat' (first
    | (simp (maxDischargeDepth := 40) only [h0, hk, implies_true, Kept.refl, kept_mk, kept_regsFilter, keep_State_inc, keep_tileFails]; done)
    | (split <;> (try (rename_i heq; have hq := congrArg (fun r => Kept a0 (Prod.snd r)) heq; clear heq; simp (maxDischargeDepth := 40) only [h0, hk, implies_true, Kept.refl, kept_mk, kept_regsFilter, keep_State_inc, keep_tileFails] at hq; first | replace hk := of_eq_true hq.symm | replace hk := hq)))
    | (refine kept_each ?_ ?_)
    | (refine kept_foldl ?_ ?_)
    | (refine kept_foldl2 ?_ ?_)
    | (intro _)
    | (dsimp only))

theorem keep_trnRunDone {a0 s : State} (h0 : Kept a0 s) (id : Nat) : Kept a0 (trnRunDone id s) := by
  have hk := h0
  unfold trnRunDone
  repeat' (first
    | (simp (maxDischargeDepth := 40) only [h0, hk, implies_true, Kept.refl, kept_mk, kept_regsFilter, keep_finishJob, keep_loadBytes, keep_releaseLeave, keep_runChecks, keep_storeBytes]; done)
    | (split <;> (try (rename_i heq; have hq := congrArg (fun r => Kept a0 (Prod.snd r)) heq; clear heq; simp (maxDischargeDepth := 40) only [h0, hk, implies_true, Kept.refl, kept_mk, kept_regsFilter, keep_finishJob, keep_loadBytes, keep_releaseLeave, keep_runChecks, keep_storeBytes] at hq; first | replace hk := of_eq_true hq.symm | replace hk := hq)))
    | (refine kept_each ?_ ?_)
    | (refine kept_foldl ?_ ?_)
    | (refine kept_foldl2 ?_ ?_)
    | (intro _)
    | (dsimp only))

theorem keep_trnSet {a0 s : State} (h0 : Kept a0 s) (c : Cmd) : Kept a0 (trnSet c s).2 := by
  have hk := h0
  unfold trnSet
  repeat' (first
    | (simp (maxDischargeDepth := 40) only [h0, hk, implies_true, Kept.refl, kept_mk, kept_regsFilter, keep_State_wr, keep_ans]; done)
    | (split <;> (try (rename_i heq; have hq := congrArg (fun r => Kept a0 (Prod.snd r)) heq; clear heq; simp (maxDischargeDepth := 40) only [h0, hk, implies_true, Kept.refl, kept_mk, kept_regsFilter, keep_State_wr, keep_ans] at hq; first | replace hk := of_eq_true hq.symm | replace hk := hq)))
    | (refine kept_each ?_ ?_)
    | (refine kept_foldl ?_ ?_)
    | (refine kept_foldl2 ?_ ?_)
    | (intro _)
    | (dsimp only))

theorem keep_trnUnfence {a0 s : State} (h0 : Kept a0 s) (c : Cmd) : Kept a0 (trnUnfence c s).2 := by simp (maxDischargeDepth := 40) only [trnUnfence, h0, implies_true, Kept.refl, kept_mk, kept_regsFilter, keep_State_wr, keep_ans]

theorem keep_State_trnKept {a0 s : State} (h0 : Kept a0 s)  : Kept a0 (State.trnKept s) := by simp (maxDischargeDepth := 40) only [State.trnKept, h0, implies_true, Kept.refl, kept_mk, kept_regsFilter]

theorem keep_trnRead {a0 s : State} (h0 : Kept a0 s) (c : Cmd) : Kept a0 (trnRead c s).2 := by
  unfold trnRead
  dsimp only
  have hk : ∀ st : Nat, Kept a0 (if st = 0 then keptReads s else (true, s)).2 := fun st => kept_ite2 (keep_keptReads h0) h0
  refine kept_ite2 (keep_holdWait h0) (kept_ite2 h0 (hk _))

/-! ### Witness.lean -/

theorem keep_packEmpty {a0 s : State} (h0 : Kept a0 s) (i : Nat) : Kept a0 (packEmpty i s) := by simp (maxDischargeDepth := 40) only [packEmpty, h0, implies_true, Kept.refl, kept_mk, kept_regsFilter, keep_State_wr]

theorem keep_packWrite {a0 s : State} (h0 : Kept a0 s) (i : Nat) (b : List Byte) : Kept a0 (packWrite i b s).2 := by
  have hk := h0
  unfold packWrite
  repeat' (first
    | (simp (maxDischargeDepth := 40) only [h0, hk, implies_true, Kept.refl, kept_mk, kept_regsFilter, keep_State_wr, keep_packEmpty, keep_storeBytes]; done)
    | (split <;> (try (rename_i heq; have hq := congrArg (fun r => Kept a0 (Prod.snd r)) heq; clear heq; simp (maxDischargeDepth := 40) only [h0, hk, implies_true, Kept.refl, kept_mk, kept_regsFilter, keep_State_wr, keep_packEmpty, keep_storeBytes] at hq; first | replace hk := of_eq_true hq.symm | replace hk := hq)))
    | (refine kept_each ?_ ?_)
    | (refine kept_foldl ?_ ?_)
    | (refine kept_foldl2 ?_ ?_)
    | (intro _)
    | (dsimp only))

theorem keep_witTier {a0 s : State} (h0 : Kept a0 s) (f : State → State) (hf : ∀ x0, Kept x0 (f x0)) : Kept a0 (witTier f s) := by
  unfold witTier; split <;> simp (maxDischargeDepth := 40) only [h0, hf, fun (b : State) x0 (h : Kept b x0) => Kept.trans h (hf x0), implies_true, Kept.refl, kept_mk, kept_regsFilter]

theorem keep_pushDrop {a0 s : State} (h0 : Kept a0 s)  : Kept a0 (pushDrop s) := by simp (maxDischargeDepth := 40) only [pushDrop, h0, implies_true, Kept.refl, kept_mk, kept_regsFilter, keep_State_evt, keep_State_inc, keep_witTier]

theorem keep_packBad {a0 s : State} (h0 : Kept a0 s) (code : Nat) : Kept a0 (packBad code s) := by simp (maxDischargeDepth := 40) only [packBad, h0, implies_true, Kept.refl, kept_mk, kept_regsFilter, keep_State_evt, keep_State_inc, keep_State_setF, keep_witTier]

theorem keep_unstagePack {a0 s : State} (h0 : Kept a0 s) (cls version : Nat) : Kept a0 (unstagePack cls version s) := by simp (maxDischargeDepth := 40) only [unstagePack, h0, implies_true, Kept.refl, kept_mk, kept_regsFilter, keep_State_each, keep_brtRelease]

theorem keep_stagePlace {a0 s : State} (h0 : Kept a0 s) (leave : Bool) (g : WitStage) : Kept a0 (stagePlace leave g s) := by
  have hk := h0
  unfold stagePlace
  repeat' (first
    | (simp (maxDischargeDepth := 40) only [h0, hk, implies_true, Kept.refl, kept_mk, kept_regsFilter, keep_ownAsk, keep_packBad, keep_packWrite, keep_pushDrop, keep_unstagePack]; done)
    | (split <;> (try (rename_i heq; have hq := congrArg (fun r => Kept a0 (Prod.snd r)) heq; clear heq; simp (maxDischargeDepth := 40) only [h0, hk, implies_true, Kept.refl, kept_mk, kept_regsFilter, keep_ownAsk, keep_packBad, keep_packWrite, keep_pushDrop, keep_unstagePack] at hq; first | replace hk := of_eq_true hq.symm | replace hk := hq)))
    | (refine kept_each ?_ ?_)
    | (refine kept_foldl ?_ ?_)
    | (refine kept_foldl2 ?_ ?_)
    | (intro _)
    | (dsimp only))

theorem keep_stageCopy {a0 s : State} (h0 : Kept a0 s) (g : WitStage) (frag : Nat) (bs : List Byte) : Kept a0 (stageCopy g frag bs s) := by
  have hk := h0
  unfold stageCopy
  repeat' (first
    | (simp (maxDischargeDepth := 40) only [h0, hk, implies_true, Kept.refl, kept_mk, kept_regsFilter, keep_brtRequest, keep_pushDrop, keep_stagePlace, keep_unstagePack]; done)
    | (split <;> (try (rename_i heq; have hq := congrArg (fun r => Kept a0 (Prod.snd r)) heq; clear heq; simp (maxDischargeDepth := 40) only [h0, hk, implies_true, Kept.refl, kept_mk, kept_regsFilter, keep_brtRequest, keep_pushDrop, keep_stagePlace, keep_unstagePack] at hq; first | replace hk := of_eq_true hq.symm | replace hk := hq)))
    | (refine kept_each ?_ ?_)
    | (refine kept_foldl ?_ ?_)
    | (refine kept_foldl2 ?_ ?_)
    | (intro _)
    | (dsimp only))

theorem keep_stageFragment {a0 s : State} (h0 : Kept a0 s) (cls version n len frag : Nat) (bs : List Byte) : Kept a0 (stageFragment cls version n len frag bs s) := by
  have hk := h0
  unfold stageFragment
  repeat' (first
    | (simp (maxDischargeDepth := 40) only [h0, hk, implies_true, Kept.refl, kept_mk, kept_regsFilter, keep_pushDrop, keep_stageCopy, keep_unstagePack]; done)
    | (split <;> (try (rename_i heq; have hq := congrArg (fun r => Kept a0 (Prod.snd r)) heq; clear heq; simp (maxDischargeDepth := 40) only [h0, hk, implies_true, Kept.refl, kept_mk, kept_regsFilter, keep_pushDrop, keep_stageCopy, keep_unstagePack] at hq; first | replace hk := of_eq_true hq.symm | replace hk := hq)))
    | (refine kept_each ?_ ?_)
    | (refine kept_foldl ?_ ?_)
    | (refine kept_foldl2 ?_ ?_)
    | (intro _)
    | (dsimp only))

theorem keep_witPush {a0 s : State} (h0 : Kept a0 s) (b : List Byte) : Kept a0 (witPush b s) := by
  have hk := h0
  unfold witPush
  repeat' (first
    | (simp (maxDischargeDepth := 40) only [h0, hk, implies_true, Kept.refl, kept_mk, kept_regsFilter, keep_packEmpty, keep_stageFragment]; done)
    | (split <;> (try (rename_i heq; have hq := congrArg (fun r => Kept a0 (Prod.snd r)) heq; clear heq; simp (maxDischargeDepth := 40) only [h0, hk, implies_true, Kept.refl, kept_mk, kept_regsFilter, keep_packEmpty, keep_stageFragment] at hq; first | replace hk := of_eq_true hq.symm | replace hk := hq)))
    | (refine kept_each ?_ ?_)
    | (refine kept_foldl ?_ ?_)
    | (refine kept_foldl2 ?_ ?_)
    | (intro _)
    | (dsimp only))

theorem keep_stagingTimeout {a0 s : State} (h0 : Kept a0 s) (n : Nat) : Kept a0 (stagingTimeout n s) := by
  have hk := h0
  unfold stagingTimeout
  repeat' (first
    | (simp (maxDischargeDepth := 40) only [h0, hk, implies_true, Kept.refl, kept_mk, kept_regsFilter, keep_pushDrop, keep_unstagePack]; done)
    | (split <;> (try (rename_i heq; have hq := congrArg (fun r => Kept a0 (Prod.snd r)) heq; clear heq; simp (maxDischargeDepth := 40) only [h0, hk, implies_true, Kept.refl, kept_mk, kept_regsFilter, keep_pushDrop, keep_unstagePack] at hq; first | replace hk := of_eq_true hq.symm | replace hk := hq)))
    | (refine kept_each ?_ ?_)
    | (refine kept_foldl ?_ ?_)
    | (refine kept_foldl2 ?_ ?_)
    | (intro _)
    | (dsimp only))

theorem keep_witLevels {a0 s : State} (h0 : Kept a0 s)  : Kept a0 (witLevels s) := by simp (maxDischargeDepth := 40) only [witLevels, h0, implies_true, Kept.refl, kept_mk, kept_regsFilter, keep_State_wr]

theorem keep_setEng {a0 s : State} (h0 : Kept a0 s) (n st : Nat) : Kept a0 (setEng n st s) := by simp (maxDischargeDepth := 40) only [setEng, h0, implies_true, Kept.refl, kept_mk, kept_regsFilter, keep_State_setF, keep_witLevels]

theorem keep_setDue {a0 s : State} (h0 : Kept a0 s) (n : Nat) : Kept a0 (setDue n s) := by simp (maxDischargeDepth := 40) only [setDue, h0, implies_true, Kept.refl, kept_mk, kept_regsFilter, keep_State_wr]

theorem keep_setPreempt {a0 s : State} (h0 : Kept a0 s) (n : Nat) (v : Bool) : Kept a0 (setPreempt n v s) := by simp (maxDischargeDepth := 40) only [setPreempt, h0, implies_true, Kept.refl, kept_mk, kept_regsFilter]

theorem keep_placeWaiting {a0 s : State} (h0 : Kept a0 s)  : Kept a0 (placeWaiting s) := by simp (maxDischargeDepth := 40) only [placeWaiting, h0, implies_true, Kept.refl, kept_mk, kept_regsFilter, keep_State_each, keep_stagePlace]

theorem keep_runOver {a0 s : State} (h0 : Kept a0 s) (n : Nat) : Kept a0 (runOver n s) := by simp (maxDischargeDepth := 40) only [runOver, h0, implies_true, Kept.refl, kept_mk, kept_regsFilter, keep_placeWaiting, keep_releaseLeave, keep_setPreempt]

theorem keep_witPolicy {a0 s : State} (h0 : Kept a0 s) (n : Nat) : Kept a0 (witPolicy n s) := by
  have hk := h0
  unfold witPolicy
  repeat' (first
    | (simp (maxDischargeDepth := 40) only [h0, hk, implies_true, Kept.refl, kept_mk, kept_regsFilter, keep_State_evt, keep_State_inc, keep_logEvent, keep_runOver, keep_setEng, keep_setPreempt, keep_witTier]; done)
    | (split <;> (try (rename_i heq; have hq := congrArg (fun r => Kept a0 (Prod.snd r)) heq; clear heq; simp (maxDischargeDepth := 40) only [h0, hk, implies_true, Kept.refl, kept_mk, kept_regsFilter, keep_State_evt, keep_State_inc, keep_logEvent, keep_runOver, keep_setEng, keep_setPreempt, keep_witTier] at hq; first | replace hk := of_eq_true hq.symm | replace hk := hq)))
    | (refine kept_each ?_ ?_)
    | (refine kept_foldl ?_ ?_)
    | (refine kept_foldl2 ?_ ?_)
    | (intro _)
    | (dsimp only))

theorem keep_witDue {a0 s : State} (h0 : Kept a0 s) (n : Nat) : Kept a0 (witDue n s) := by
  have hk := h0
  unfold witDue
  repeat' (first
    | (simp (maxDischargeDepth := 40) only [h0, hk, implies_true, Kept.refl, kept_mk, kept_regsFilter, keep_State_inc, keep_setDue, keep_setEng, keep_witTier]; done)
    | (split <;> (try (rename_i heq; have hq := congrArg (fun r => Kept a0 (Prod.snd r)) heq; clear heq; simp (maxDischargeDepth := 40) only [h0, hk, implies_true, Kept.refl, kept_mk, kept_regsFilter, keep_State_inc, keep_setDue, keep_setEng, keep_witTier] at hq; first | replace hk := of_eq_true hq.symm | replace hk := hq)))
    | (refine kept_each ?_ ?_)
    | (refine kept_foldl ?_ ?_)
    | (refine kept_foldl2 ?_ ?_)
    | (intro _)
    | (dsimp only))

theorem keep_witWindow {a0 s : State} (h0 : Kept a0 s) (n : Nat) : Kept a0 (witWindow n s) := by
  unfold witWindow; split <;> simp (maxDischargeDepth := 40) only [h0, implies_true, Kept.refl, kept_mk, kept_regsFilter, keep_witPolicy]

theorem keep_takenOver {a0 s : State} (h0 : Kept a0 s) (n : Nat) : Kept a0 (takenOver n s) := by simp (maxDischargeDepth := 40) only [takenOver, h0, implies_true, Kept.refl, kept_mk, kept_regsFilter, keep_placeWaiting, keep_releaseLeave]

theorem keep_runAbort {a0 s : State} (h0 : Kept a0 s) (n : Nat) (count : Bool) : Kept a0 (runAbort n count s) := by
  unfold runAbort
  repeat' (first | split | (simp (maxDischargeDepth := 40) only [h0, implies_true, Kept.refl, kept_mk, kept_regsFilter, keep_State_inc, keep_runOver, keep_setEng, keep_takenOver, keep_witPolicy]; done) | dsimp only)

theorem keep_gntYields {a0 s : State} (h0 : Kept a0 s) (n : Nat) : Kept a0 (gntYields n s) := by
  have hk := h0
  unfold gntYields
  repeat' (first
    | (simp (maxDischargeDepth := 40) only [h0, hk, implies_true, Kept.refl, kept_mk, kept_regsFilter, keep_releaseLeave]; done)
    | (split <;> (try (rename_i heq; have hq := congrArg (fun r => Kept a0 (Prod.snd r)) heq; clear heq; simp (maxDischargeDepth := 40) only [h0, hk, implies_true, Kept.refl, kept_mk, kept_regsFilter, keep_releaseLeave] at hq; first | replace hk := of_eq_true hq.symm | replace hk := hq)))
    | (refine kept_each ?_ ?_)
    | (refine kept_foldl ?_ ?_)
    | (refine kept_foldl2 ?_ ?_)
    | (intro _)
    | (dsimp only))

theorem keep_testGntRise {a0 s0 : State} (h0 : Kept a0 s0) (n : Nat) : Kept a0 (testGntRise n s0) := by
  have hk := h0
  unfold testGntRise
  repeat' (first
    | (simp (maxDischargeDepth := 40) only [h0, hk, implies_true, Kept.refl, kept_mk, kept_regsFilter, keep_askLeave, keep_gntYields]; done)
    | (split <;> (try (rename_i heq; have hq := congrArg (fun r => Kept a0 (Prod.snd r)) heq; clear heq; simp (maxDischargeDepth := 40) only [h0, hk, implies_true, Kept.refl, kept_mk, kept_regsFilter, keep_askLeave, keep_gntYields] at hq; first | replace hk := of_eq_true hq.symm | replace hk := hq)))
    | (refine kept_each ?_ ?_)
    | (refine kept_foldl ?_ ?_)
    | (refine kept_foldl2 ?_ ?_)
    | (intro _)
    | (dsimp only))

theorem keep_testGntFall {a0 s : State} (h0 : Kept a0 s) (n : Nat) : Kept a0 (testGntFall n s) := by
  unfold testGntFall
  repeat' (first | split | (simp (maxDischargeDepth := 40) only [h0, implies_true, Kept.refl, kept_mk, kept_regsFilter, keep_runAbort]; done) | dsimp only)

theorem keep_witRetry {a0 s : State} (h0 : Kept a0 s) (n : Nat) : Kept a0 (witRetry n s) := by simp (maxDischargeDepth := 40) only [witRetry, h0, implies_true, Kept.refl, kept_mk, kept_regsFilter]

theorem keep_witGranted {a0 s : State} (h0 : Kept a0 s) (n : Nat) : Kept a0 (witGranted n s) := by
  have hk := h0
  unfold witGranted
  repeat' (first
    | (simp (maxDischargeDepth := 40) only [h0, hk, implies_true, Kept.refl, kept_mk, kept_regsFilter, keep_State_inc, keep_releaseLeave, keep_runOver, keep_setDue, keep_setEng]; done)
    | (split <;> (try (rename_i heq; have hq := congrArg (fun r => Kept a0 (Prod.snd r)) heq; clear heq; simp (maxDischargeDepth := 40) only [h0, hk, implies_true, Kept.refl, kept_mk, kept_regsFilter, keep_State_inc, keep_releaseLeave, keep_runOver, keep_setDue, keep_setEng] at hq; first | replace hk := of_eq_true hq.symm | replace hk := hq)))
    | (refine kept_each ?_ ?_)
    | (refine kept_foldl ?_ ?_)
    | (refine kept_foldl2 ?_ ?_)
    | (intro _)
    | (dsimp only))

theorem keep_witRefused {a0 s : State} (h0 : Kept a0 s) (n : Nat) : Kept a0 (witRefused n s) := by
  unfold witRefused; split <;> simp (maxDischargeDepth := 40) only [h0, implies_true, Kept.refl, kept_mk, kept_regsFilter, keep_State_inc, keep_witTier]

theorem keep_runPack {a0 s : State} (h0 : Kept a0 s) (r : WitRun) : Kept a0 (runPack r s).2 := by simp (maxDischargeDepth := 40) only [runPack, h0, implies_true, Kept.refl, kept_mk, kept_regsFilter, keep_loadBytes]

theorem keep_injectRecord {a0 s : State} (h0 : Kept a0 s) (r : WitRun) : Kept a0 (injectRecord r s) := by
  have hk := h0
  unfold injectRecord
  repeat' (first
    | (simp (maxDischargeDepth := 40) only [h0, hk, implies_true, Kept.refl, kept_mk, kept_regsFilter, keep_State_emit, keep_runAbort, keep_runPack]; done)
    | (split <;> (try (rename_i heq; have hq := congrArg (fun r => Kept a0 (Prod.snd r)) heq; clear heq; simp (maxDischargeDepth := 40) only [h0, hk, implies_true, Kept.refl, kept_mk, kept_regsFilter, keep_State_emit, keep_runAbort, keep_runPack] at hq; first | replace hk := of_eq_true hq.symm | replace hk := hq)))
    | (refine kept_each ?_ ?_)
    | (refine kept_foldl ?_ ?_)
    | (refine kept_foldl2 ?_ ?_)
    | (intro _)
    | (dsimp only))

theorem keep_witRunStart {a0 s : State} (h0 : Kept a0 s) (n : Nat) : Kept a0 (witRunStart n s) := by
  have hk := h0
  unfold witRunStart
  repeat' (first
    | (simp (maxDischargeDepth := 40) only [h0, hk, implies_true, Kept.refl, kept_mk, kept_regsFilter, keep_injectRecord]; done)
    | (split <;> (try (rename_i heq; have hq := congrArg (fun r => Kept a0 (Prod.snd r)) heq; clear heq; simp (maxDischargeDepth := 40) only [h0, hk, implies_true, Kept.refl, kept_mk, kept_regsFilter, keep_injectRecord] at hq; first | replace hk := of_eq_true hq.symm | replace hk := hq)))
    | (refine kept_each ?_ ?_)
    | (refine kept_foldl ?_ ?_)
    | (refine kept_foldl2 ?_ ?_)
    | (intro _)
    | (dsimp only))

theorem keep_recordFails {a0 s : State} (h0 : Kept a0 s) (r : WitRun) (digest got : Nat) : Kept a0 (recordFails r digest got s) := by simp (maxDischargeDepth := 40) only [recordFails, h0, implies_true, Kept.refl, kept_mk, kept_regsFilter, keep_State_evt, keep_State_inc, keep_State_setF, keep_State_wr, keep_logEvent, keep_ownVoteAll, keep_rateNote, keep_runOver, keep_setEng]

theorem keep_runPasses {a0 s : State} (h0 : Kept a0 s) (r : WitRun) : Kept a0 (runPasses r s) := by simp (maxDischargeDepth := 40) only [runPasses, h0, implies_true, Kept.refl, kept_mk, kept_regsFilter, keep_State_inc, keep_State_setF, keep_runOver, keep_setDue, keep_setEng]

theorem keep_recordReturn {a0 s : State} (h0 : Kept a0 s) (eng record : Nat) (bytes : List Byte) : Kept a0 (recordReturn eng record bytes s) := by
  have hk := h0
  unfold recordReturn
  repeat' (first
    | (simp (maxDischargeDepth := 40) only [h0, hk, implies_true, Kept.refl, kept_mk, kept_regsFilter, keep_State_inc, keep_injectRecord, keep_recordFails, keep_runAbort, keep_runPack, keep_runPasses, keep_witTier]; done)
    | (split <;> (try (rename_i heq; have hq := congrArg (fun r => Kept a0 (Prod.snd r)) heq; clear heq; simp (maxDischargeDepth := 40) only [h0, hk, implies_true, Kept.refl, kept_mk, kept_regsFilter, keep_State_inc, keep_injectRecord, keep_recordFails, keep_runAbort, keep_runPack, keep_runPasses, keep_witTier] at hq; first | replace hk := of_eq_true hq.symm | replace hk := hq)))
    | (refine kept_each ?_ ?_)
    | (refine kept_foldl ?_ ?_)
    | (refine kept_foldl2 ?_ ?_)
    | (intro _)
    | (dsimp only))

theorem keep_returnTimeout {a0 s : State} (h0 : Kept a0 s) (eng : Nat) (bytes : List Byte) : Kept a0 (returnTimeout eng bytes s) := by
  have hk := h0
  unfold returnTimeout
  repeat' (first
    | (simp (maxDischargeDepth := 40) only [h0, hk, implies_true, Kept.refl, kept_mk, kept_regsFilter, keep_recordFails, keep_runAbort, keep_runPack]; done)
    | (split <;> (try (rename_i heq; have hq := congrArg (fun r => Kept a0 (Prod.snd r)) heq; clear heq; simp (maxDischargeDepth := 40) only [h0, hk, implies_true, Kept.refl, kept_mk, kept_regsFilter, keep_recordFails, keep_runAbort, keep_runPack] at hq; first | replace hk := of_eq_true hq.symm | replace hk := hq)))
    | (refine kept_each ?_ ?_)
    | (refine kept_foldl ?_ ?_)
    | (refine kept_foldl2 ?_ ?_)
    | (intro _)
    | (dsimp only))

theorem keep_witDieStop {a0 s : State} (h0 : Kept a0 s)  : Kept a0 (witDieStop s) := by
  have hk := h0
  unfold witDieStop
  repeat' (first
    | (simp (maxDischargeDepth := 40) only [h0, hk, implies_true, Kept.refl, kept_mk, kept_regsFilter, keep_runAbort]; done)
    | (split <;> (try (rename_i heq; have hq := congrArg (fun r => Kept a0 (Prod.snd r)) heq; clear heq; simp (maxDischargeDepth := 40) only [h0, hk, implies_true, Kept.refl, kept_mk, kept_regsFilter, keep_runAbort] at hq; first | replace hk := of_eq_true hq.symm | replace hk := hq)))
    | (refine kept_each ?_ ?_)
    | (refine kept_foldl ?_ ?_)
    | (refine kept_foldl2 ?_ ?_)
    | (intro _)
    | (dsimp only))

theorem keep_witPowerEntry {a0 s : State} (h0 : Kept a0 s)  : Kept a0 (witPowerEntry s) := by
  unfold witPowerEntry
  repeat' (first | split | (simp (maxDischargeDepth := 40) only [h0, implies_true, Kept.refl, kept_mk, kept_regsFilter, keep_runAbort, keep_witDieStop]; done) | dsimp only)

theorem keep_engineReport {a0 s : State} (h0 : Kept a0 s) (c : Cmd) : Kept a0 (engineReport c s).2 := by
  unfold engineReport
  refine kept_ite2 h0 ?_
  dsimp only [ans]
  refine kept_each (kept_each h0 (fun n t => ?_)) (fun n t => ?_)
  · exact keep_setEng (keep_runOver (Kept.refl t) _) _ _
  · exact keep_setEng (keep_setDue (Kept.refl t) _) _ _

theorem keep_testNow {a0 s : State} (h0 : Kept a0 s) (c : Cmd) : Kept a0 (testNow c s).2 := by simp (maxDischargeDepth := 40) only [testNow, h0, implies_true, Kept.refl, kept_mk, kept_regsFilter, keep_State_each, keep_State_wr, keep_ansWith]

theorem keep_witPut {a0 s : State} (h0 : Kept a0 s) (off v : Nat) : Kept a0 (witPut off v s) := by
  have hk := h0
  unfold witPut
  repeat' (first
    | (simp (maxDischargeDepth := 40) only [h0, hk, implies_true, Kept.refl, kept_mk, kept_regsFilter, keep_State_setF, keep_State_wr]; done)
    | (split <;> (try (rename_i heq; have hq := congrArg (fun r => Kept a0 (Prod.snd r)) heq; clear heq; simp (maxDischargeDepth := 40) only [h0, hk, implies_true, Kept.refl, kept_mk, kept_regsFilter, keep_State_setF, keep_State_wr] at hq; first | replace hk := of_eq_true hq.symm | replace hk := hq)))
    | (refine kept_each ?_ ?_)
    | (refine kept_foldl ?_ ?_)
    | (refine kept_foldl2 ?_ ?_)
    | (intro _)
    | (dsimp only))

theorem keep_engSettle {a0 s : State} (h0 : Kept a0 s) (n : Nat) (wrote : Bool) : Kept a0 (engSettle n wrote s) := by
  have hk := h0
  unfold engSettle
  repeat' (first
    | (simp (maxDischargeDepth := 40) only [h0, hk, implies_true, Kept.refl, kept_mk, kept_regsFilter, keep_State_inc, keep_runOver, keep_setDue, keep_setEng]; done)
    | (split <;> (try (rename_i heq; have hq := congrArg (fun r => Kept a0 (Prod.snd r)) heq; clear heq; simp (maxDischargeDepth := 40) only [h0, hk, implies_true, Kept.refl, kept_mk, kept_regsFilter, keep_State_inc, keep_runOver, keep_setDue, keep_setEng] at hq; first | replace hk := of_eq_true hq.symm | replace hk := hq)))
    | (refine kept_each ?_ ?_)
    | (refine kept_foldl ?_ ?_)
    | (refine kept_foldl2 ?_ ?_)
    | (intro _)
    | (dsimp only))

theorem keep_witSet {a0 s : State} (h0 : Kept a0 s) (c : Cmd) : Kept a0 (witSet c s).2 := by
  have hk := h0
  unfold witSet
  repeat' (first
    | (simp (maxDischargeDepth := 40) only [h0, hk, implies_true, Kept.refl, kept_mk, kept_regsFilter, keep_State_each, keep_ans, keep_engSettle, keep_witPut]; done)
    | (split <;> (try (rename_i heq; have hq := congrArg (fun r => Kept a0 (Prod.snd r)) heq; clear heq; simp (maxDischargeDepth := 40) only [h0, hk, implies_true, Kept.refl, kept_mk, kept_regsFilter, keep_State_each, keep_ans, keep_engSettle, keep_witPut] at hq; first | replace hk := of_eq_true hq.symm | replace hk := hq)))
    | (refine kept_each ?_ ?_)
    | (refine kept_foldl ?_ ?_)
    | (refine kept_foldl2 ?_ ?_)
    | (intro _)
    | (dsimp only))

theorem keep_packLoad {a0 s : State} (h0 : Kept a0 s) (c : Cmd) : Kept a0 (packLoad c s).2 := by
  have hk := h0
  unfold packLoad
  repeat' (first
    | (simp (maxDischargeDepth := 40) only [h0, hk, implies_true, Kept.refl, kept_mk, kept_regsFilter, keep_finished, keep_holdWait, keep_loadBytes, keep_packBad, keep_packWrite, keep_pushDrop]; done)
    | (split <;> (try (rename_i heq; have hq := congrArg (fun r => Kept a0 (Prod.snd r)) heq; clear heq; simp (maxDischargeDepth := 40) only [h0, hk, implies_true, Kept.refl, kept_mk, kept_regsFilter, keep_finished, keep_holdWait, keep_loadBytes, keep_packBad, keep_packWrite, keep_pushDrop] at hq; first | replace hk := of_eq_true hq.symm | replace hk := hq)))
    | (refine kept_each ?_ ?_)
    | (refine kept_foldl ?_ ?_)
    | (refine kept_foldl2 ?_ ?_)
    | (intro _)
    | (dsimp only))

theorem keep_packDrop {a0 s : State} (h0 : Kept a0 s) (c : Cmd) : Kept a0 (packDrop c s).2 := by
  have hk := h0
  unfold packDrop
  repeat' (first
    | (simp (maxDischargeDepth := 40) only [h0, hk, implies_true, Kept.refl, kept_mk, kept_regsFilter, keep_ans, keep_packEmpty]; done)
    | (split <;> (try (rename_i heq; have hq := congrArg (fun r => Kept a0 (Prod.snd r)) heq; clear heq; simp (maxDischargeDepth := 40) only [h0, hk, implies_true, Kept.refl, kept_mk, kept_regsFilter, keep_ans, keep_packEmpty] at hq; first | replace hk := of_eq_true hq.symm | replace hk := hq)))
    | (refine kept_each ?_ ?_)
    | (refine kept_foldl ?_ ?_)
    | (refine kept_foldl2 ?_ ?_)
    | (intro _)
    | (dsimp only))

theorem keep_witKeyCmd {a0 s : State} (h0 : Kept a0 s) (c : Cmd) : Kept a0 (witKeyCmd c s).2 := by
  have hk := h0
  unfold witKeyCmd
  repeat' (first
    | (simp (maxDischargeDepth := 40) only [h0, hk, implies_true, Kept.refl, kept_mk, kept_regsFilter, keep_State_wr, keep_ans]; done)
    | (split <;> (try (rename_i heq; have hq := congrArg (fun r => Kept a0 (Prod.snd r)) heq; clear heq; simp (maxDischargeDepth := 40) only [h0, hk, implies_true, Kept.refl, kept_mk, kept_regsFilter, keep_State_wr, keep_ans] at hq; first | replace hk := of_eq_true hq.symm | replace hk := hq)))
    | (refine kept_each ?_ ?_)
    | (refine kept_foldl ?_ ?_)
    | (refine kept_foldl2 ?_ ?_)
    | (intro _)
    | (dsimp only))

theorem keep_selfDue {a0 s : State} (h0 : Kept a0 s)  : Kept a0 (selfDue s) := by
  unfold selfDue; split <;> simp (maxDischargeDepth := 40) only [h0, implies_true, Kept.refl, kept_mk, kept_regsFilter]

theorem keep_selfFails {a0 s : State} (h0 : Kept a0 s) (unit which : Nat) : Kept a0 (selfFails unit which s) := by simp (maxDischargeDepth := 40) only [selfFails, h0, implies_true, Kept.refl, kept_mk, kept_regsFilter, keep_State_evt, keep_State_inc, keep_faultEdge, keep_logEvent, keep_ownVoteAll]

theorem keep_selfTally {a0 s : State} (h0 : Kept a0 s) (r : WitSelf) (res : Nat) : Kept a0 (selfTally r res s) := by
  have hk := h0
  unfold selfTally
  repeat' (first
    | (simp (maxDischargeDepth := 40) only [h0, hk, implies_true, Kept.refl, kept_mk, kept_regsFilter, keep_State_each, keep_State_inc, keep_cadStart, keep_finishJob, keep_memReadBack, keep_memWritten, keep_selfDue, keep_selfFails, keep_startWork]; done)
    | (split <;> (try (rename_i heq; have hq := congrArg (fun r => Kept a0 (Prod.snd r)) heq; clear heq; simp (maxDischargeDepth := 40) only [h0, hk, implies_true, Kept.refl, kept_mk, kept_regsFilter, keep_State_each, keep_State_inc, keep_cadStart, keep_finishJob, keep_memReadBack, keep_memWritten, keep_selfDue, keep_selfFails, keep_startWork] at hq; first | replace hk := of_eq_true hq.symm | replace hk := hq)))
    | (refine kept_each ?_ ?_)
    | (refine kept_foldl ?_ ?_)
    | (refine kept_foldl2 ?_ ?_)
    | (intro _)
    | (dsimp only))

theorem keep_selfRun {a0 s : State} (h0 : Kept a0 s) (cadBad talBad : Bool) : Kept a0 (selfRun cadBad talBad s) := by
  have hk := h0
  unfold selfRun
  repeat' (first
    | (simp (maxDischargeDepth := 40) only [h0, hk, implies_true, Kept.refl, kept_mk, kept_regsFilter, keep_State_inc, keep_askLeave, keep_selfTally]; done)
    | (split <;> (try (rename_i heq; have hq := congrArg (fun r => Kept a0 (Prod.snd r)) heq; clear heq; simp (maxDischargeDepth := 40) only [h0, hk, implies_true, Kept.refl, kept_mk, kept_regsFilter, keep_State_inc, keep_askLeave, keep_selfTally] at hq; first | replace hk := of_eq_true hq.symm | replace hk := hq)))
    | (refine kept_each ?_ ?_)
    | (refine kept_foldl ?_ ?_)
    | (refine kept_foldl2 ?_ ?_)
    | (intro _)
    | (dsimp only))

theorem keep_selfAgain {a0 s : State} (h0 : Kept a0 s)  : Kept a0 (selfAgain s) := by
  have hk := h0
  unfold selfAgain
  repeat' (first
    | (simp (maxDischargeDepth := 40) only [h0, hk, implies_true, Kept.refl, kept_mk, kept_regsFilter, keep_cadStart, keep_selfRun, keep_startWork]; done)
    | (split <;> (try (rename_i heq; have hq := congrArg (fun r => Kept a0 (Prod.snd r)) heq; clear heq; simp (maxDischargeDepth := 40) only [h0, hk, implies_true, Kept.refl, kept_mk, kept_regsFilter, keep_cadStart, keep_selfRun, keep_startWork] at hq; first | replace hk := of_eq_true hq.symm | replace hk := hq)))
    | (refine kept_each ?_ ?_)
    | (refine kept_foldl ?_ ?_)
    | (refine kept_foldl2 ?_ ?_)
    | (intro _)
    | (dsimp only))

theorem keep_selfGranted {a0 s : State} (h0 : Kept a0 s)  : Kept a0 (selfGranted s) := by
  have hk := h0
  unfold selfGranted
  repeat' (first
    | (simp (maxDischargeDepth := 40) only [h0, hk, implies_true, Kept.refl, kept_mk, kept_regsFilter, keep_State_draw, keep_memReadBack, keep_memWritten, keep_releaseLeave, keep_searchErr, keep_selfAgain, keep_selfFails, keep_selfTally, keep_spoiltMet]; done)
    | (split <;> (try (rename_i heq; have hq := congrArg (fun r => Kept a0 (Prod.snd r)) heq; clear heq; simp (maxDischargeDepth := 40) only [h0, hk, implies_true, Kept.refl, kept_mk, kept_regsFilter, keep_State_draw, keep_memReadBack, keep_memWritten, keep_releaseLeave, keep_searchErr, keep_selfAgain, keep_selfFails, keep_selfTally, keep_spoiltMet] at hq; first | replace hk := of_eq_true hq.symm | replace hk := hq)))
    | (refine kept_each ?_ ?_)
    | (refine kept_foldl ?_ ?_)
    | (refine kept_foldl2 ?_ ?_)
    | (intro _)
    | (dsimp only))

theorem keep_selfRefused {a0 s : State} (h0 : Kept a0 s)  : Kept a0 (selfRefused s) := by
  unfold selfRefused; split <;> simp (maxDischargeDepth := 40) only [h0, implies_true, Kept.refl, kept_mk, kept_regsFilter, keep_State_inc, keep_selfTally]

theorem keep_selfNow {a0 s : State} (h0 : Kept a0 s) (_c : Cmd) : Kept a0 (selfNow _c s).2 := by simp (maxDischargeDepth := 40) only [selfNow, h0, implies_true, Kept.refl, kept_mk, kept_regsFilter, keep_selfDue]

theorem keep_witLose {a0 s : State} (h0 : Kept a0 s)  : Kept a0 (witLose s) := by
  unfold witLose; split <;> simp (maxDischargeDepth := 40) only [h0, implies_true, Kept.refl, kept_mk, kept_regsFilter, keep_releaseLeave, keep_runAbort, keep_selfRun]

/-! ### PilotCmds.lean -/

theorem keep_nopCmd {a0 s : State} (h0 : Kept a0 s) (_c : Cmd) : Kept a0 (nopCmd _c s).2 := by simp (maxDischargeDepth := 40) only [nopCmd, h0, implies_true, Kept.refl, kept_mk, kept_regsFilter, keep_ans]

theorem keep_echoCmd {a0 s : State} (h0 : Kept a0 s) (c : Cmd) : Kept a0 (echoCmd c s).2 := by simp (maxDischargeDepth := 40) only [echoCmd, h0, implies_true, Kept.refl, kept_mk, kept_regsFilter, keep_ansWith]

theorem keep_identCmd {a0 s : State} (h0 : Kept a0 s) (_c : Cmd) : Kept a0 (identCmd _c s).2 := by simp (maxDischargeDepth := 40) only [identCmd, h0, implies_true, Kept.refl, kept_mk, kept_regsFilter, keep_ansWith]

theorem keep_pwrSet {a0 s : State} (h0 : Kept a0 s) (c : Cmd) : Kept a0 (pwrSet c s).2 := by
  have hk := h0
  unfold pwrSet
  repeat' (first
    | (simp (maxDischargeDepth := 40) only [h0, hk, implies_true, Kept.refl, kept_mk, kept_regsFilter, keep_State_wr, keep_ans]; done)
    | (split <;> (try (rename_i heq; have hq := congrArg (fun r => Kept a0 (Prod.snd r)) heq; clear heq; simp (maxDischargeDepth := 40) only [h0, hk, implies_true, Kept.refl, kept_mk, kept_regsFilter, keep_State_wr, keep_ans] at hq; first | replace hk := of_eq_true hq.symm | replace hk := hq)))
    | (refine kept_each ?_ ?_)
    | (refine kept_foldl ?_ ?_)
    | (refine kept_foldl2 ?_ ?_)
    | (intro _)
    | (dsimp only))

theorem keep_dropReplay {a0 s : State} (h0 : Kept a0 s) (keyId : Nat) : Kept a0 (dropReplay keyId s) := by simp (maxDischargeDepth := 40) only [dropReplay, h0, implies_true, Kept.refl, kept_mk, kept_regsFilter]

theorem keep_dropSlotReplay {a0 s : State} (h0 : Kept a0 s) (slot : Nat) : Kept a0 (dropSlotReplay slot s) := by
  unfold dropSlotReplay; split <;> simp (maxDischargeDepth := 40) only [h0, implies_true, Kept.refl, kept_mk, kept_regsFilter, keep_dropReplay]

theorem keep_keySet {a0 s : State} (h0 : Kept a0 s) (c : Cmd) : Kept a0 (keySet c s).2 := by
  have hk := h0
  unfold keySet
  repeat' (first
    | (simp (maxDischargeDepth := 40) only [h0, hk, implies_true, Kept.refl, kept_mk, kept_regsFilter, keep_State_wr, keep_ans, keep_dropSlotReplay]; done)
    | (split <;> (try (rename_i heq; have hq := congrArg (fun r => Kept a0 (Prod.snd r)) heq; clear heq; simp (maxDischargeDepth := 40) only [h0, hk, implies_true, Kept.refl, kept_mk, kept_regsFilter, keep_State_wr, keep_ans, keep_dropSlotReplay] at hq; first | replace hk := of_eq_true hq.symm | replace hk := hq)))
    | (refine kept_each ?_ ?_)
    | (refine kept_foldl ?_ ?_)
    | (refine kept_foldl2 ?_ ?_)
    | (intro _)
    | (dsimp only))

theorem keep_pilSet {a0 s : State} (h0 : Kept a0 s) (c : Cmd) : Kept a0 (pilSet c s).2 := by
  have hk := h0
  unfold pilSet
  repeat' (first
    | (simp (maxDischargeDepth := 40) only [h0, hk, implies_true, Kept.refl, kept_mk, kept_regsFilter, keep_State_wr, keep_ans]; done)
    | (split <;> (try (rename_i heq; have hq := congrArg (fun r => Kept a0 (Prod.snd r)) heq; clear heq; simp (maxDischargeDepth := 40) only [h0, hk, implies_true, Kept.refl, kept_mk, kept_regsFilter, keep_State_wr, keep_ans] at hq; first | replace hk := of_eq_true hq.symm | replace hk := hq)))
    | (refine kept_each ?_ ?_)
    | (refine kept_foldl ?_ ?_)
    | (refine kept_foldl2 ?_ ?_)
    | (intro _)
    | (dsimp only))

theorem keep_patchClear {a0 s : State} (h0 : Kept a0 s)  : Kept a0 (patchClear s) := by simp (maxDischargeDepth := 40) only [patchClear, h0, implies_true, Kept.refl, kept_mk, kept_regsFilter, keep_State_setF]

theorem keep_fwPatch {a0 s : State} (h0 : Kept a0 s) (c : Cmd) : Kept a0 (fwPatch c s).2 := by
  have hk := h0
  unfold fwPatch
  repeat' (first
    | (simp (maxDischargeDepth := 40) only [h0, hk, implies_true, Kept.refl, kept_mk, kept_regsFilter, keep_State_evt, keep_State_setF, keep_ans, keep_finished, keep_holdWait, keep_loadBytes, keep_logEvent, keep_patchClear]; done)
    | (split <;> (try (rename_i heq; have hq := congrArg (fun r => Kept a0 (Prod.snd r)) heq; clear heq; simp (maxDischargeDepth := 40) only [h0, hk, implies_true, Kept.refl, kept_mk, kept_regsFilter, keep_State_evt, keep_State_setF, keep_ans, keep_finished, keep_holdWait, keep_loadBytes, keep_logEvent, keep_patchClear] at hq; first | replace hk := of_eq_true hq.symm | replace hk := hq)))
    | (refine kept_each ?_ ?_)
    | (refine kept_foldl ?_ ?_)
    | (refine kept_foldl2 ?_ ?_)
    | (intro _)
    | (dsimp only))

theorem keep_fwKeyCmd {a0 s : State} (h0 : Kept a0 s) (c : Cmd) : Kept a0 (fwKeyCmd c s).2 := by
  have hk := h0
  unfold fwKeyCmd
  repeat' (first
    | (simp (maxDischargeDepth := 40) only [h0, hk, implies_true, Kept.refl, kept_mk, kept_regsFilter, keep_State_wr, keep_ans]; done)
    | (split <;> (try (rename_i heq; have hq := congrArg (fun r => Kept a0 (Prod.snd r)) heq; clear heq; simp (maxDischargeDepth := 40) only [h0, hk, implies_true, Kept.refl, kept_mk, kept_regsFilter, keep_State_wr, keep_ans] at hq; first | replace hk := of_eq_true hq.symm | replace hk := hq)))
    | (refine kept_each ?_ ?_)
    | (refine kept_foldl ?_ ?_)
    | (refine kept_foldl2 ?_ ?_)
    | (intro _)
    | (dsimp only))

theorem keep_fwRevert {a0 s : State} (h0 : Kept a0 s) (c : Cmd) : Kept a0 (fwRevert c s).2 := by
  unfold fwRevert; split <;> simp (maxDischargeDepth := 40) only [h0, implies_true, Kept.refl, kept_mk, kept_regsFilter, keep_ans, keep_patchClear]

/-! ### UnitCmds.lean -/

theorem keep_wakeCfg {a0 s : State} (h0 : Kept a0 s) (c : Cmd) : Kept a0 (wakeCfg c s).2 := by
  have hk := h0
  unfold wakeCfg
  repeat' (first
    | (simp (maxDischargeDepth := 40) only [h0, hk, implies_true, Kept.refl, kept_mk, kept_regsFilter, keep_State_each, keep_ans, keep_wakPut1]; done)
    | (split <;> (try (rename_i heq; have hq := congrArg (fun r => Kept a0 (Prod.snd r)) heq; clear heq; simp (maxDischargeDepth := 40) only [h0, hk, implies_true, Kept.refl, kept_mk, kept_regsFilter, keep_State_each, keep_ans, keep_wakPut1] at hq; first | replace hk := of_eq_true hq.symm | replace hk := hq)))
    | (refine kept_each ?_ ?_)
    | (refine kept_foldl ?_ ?_)
    | (refine kept_foldl2 ?_ ?_)
    | (intro _)
    | (dsimp only))

theorem keep_wakeArm {a0 s : State} (h0 : Kept a0 s) (c : Cmd) : Kept a0 (wakeArm c s).2 := by
  have hk := h0
  unfold wakeArm
  repeat' (first
    | (simp (maxDischargeDepth := 40) only [h0, hk, implies_true, Kept.refl, kept_mk, kept_regsFilter, keep_ans, keep_ansWith, keep_wakArm]; done)
    | (split <;> (try (rename_i heq; have hq := congrArg (fun r => Kept a0 (Prod.snd r)) heq; clear heq; simp (maxDischargeDepth := 40) only [h0, hk, implies_true, Kept.refl, kept_mk, kept_regsFilter, keep_ans, keep_ansWith, keep_wakArm] at hq; first | replace hk := of_eq_true hq.symm | replace hk := hq)))
    | (refine kept_each ?_ ?_)
    | (refine kept_foldl ?_ ?_)
    | (refine kept_foldl2 ?_ ?_)
    | (intro _)
    | (dsimp only))

theorem keep_wakeDisarm {a0 s : State} (h0 : Kept a0 s) (_c : Cmd) : Kept a0 (wakeDisarm _c s).2 := by
  have hk := h0
  unfold wakeDisarm
  repeat' (first
    | (simp (maxDischargeDepth := 40) only [h0, hk, implies_true, Kept.refl, kept_mk, kept_regsFilter, keep_ansWith, keep_wakDisarm]; done)
    | (split <;> (try (rename_i heq; have hq := congrArg (fun r => Kept a0 (Prod.snd r)) heq; clear heq; simp (maxDischargeDepth := 40) only [h0, hk, implies_true, Kept.refl, kept_mk, kept_regsFilter, keep_ansWith, keep_wakDisarm] at hq; first | replace hk := of_eq_true hq.symm | replace hk := hq)))
    | (refine kept_each ?_ ?_)
    | (refine kept_foldl ?_ ?_)
    | (refine kept_foldl2 ?_ ?_)
    | (intro _)
    | (dsimp only))

theorem keep_wakeDisarmDone {a0 s : State} (h0 : Kept a0 s) (id : Nat) : Kept a0 (wakeDisarmDone id s) := by
  unfold wakeDisarmDone; split <;> simp (maxDischargeDepth := 40) only [h0, implies_true, Kept.refl, kept_mk, kept_regsFilter, keep_finishJob]

theorem keep_wakeTrig {a0 s : State} (h0 : Kept a0 s) (c : Cmd) : Kept a0 (wakeTrig c s).2 := by
  unfold wakeTrig; split <;> simp (maxDischargeDepth := 40) only [h0, implies_true, Kept.refl, kept_mk, kept_regsFilter, keep_ans, keep_wakEvents, keep_wakWrite]

theorem keep_wakeSecure {a0 s : State} (h0 : Kept a0 s) (c : Cmd) : Kept a0 (wakeSecure c s).2 := by
  have hk := h0
  unfold wakeSecure
  repeat' (first
    | (simp (maxDischargeDepth := 40) only [h0, hk, implies_true, Kept.refl, kept_mk, kept_regsFilter, keep_State_wr, keep_ans]; done)
    | (split <;> (try (rename_i heq; have hq := congrArg (fun r => Kept a0 (Prod.snd r)) heq; clear heq; simp (maxDischargeDepth := 40) only [h0, hk, implies_true, Kept.refl, kept_mk, kept_regsFilter, keep_State_wr, keep_ans] at hq; first | replace hk := of_eq_true hq.symm | replace hk := hq)))
    | (refine kept_each ?_ ?_)
    | (refine kept_foldl ?_ ?_)
    | (refine kept_foldl2 ?_ ?_)
    | (intro _)
    | (dsimp only))

theorem keep_bulkJob {a0 s : State} (h0 : Kept a0 s) (c : Cmd) (k : Nat) : Kept a0 (bulkJob c k s).2 := by
  unfold bulkJob; split <;> simp (maxDischargeDepth := 40) only [h0, implies_true, Kept.refl, kept_mk, kept_regsFilter, keep_finished]

theorem keep_bulkJobDone {a0 s : State} (h0 : Kept a0 s) (id : Nat) : Kept a0 (bulkJobDone id s) := by
  have hk := h0
  unfold bulkJobDone
  repeat' (first
    | (simp (maxDischargeDepth := 40) only [h0, hk, implies_true, Kept.refl, kept_mk, kept_regsFilter, keep_finishJob]; done)
    | (split <;> (try (rename_i heq; have hq := congrArg (fun r => Kept a0 (Prod.snd r)) heq; clear heq; simp (maxDischargeDepth := 40) only [h0, hk, implies_true, Kept.refl, kept_mk, kept_regsFilter, keep_finishJob] at hq; first | replace hk := of_eq_true hq.symm | replace hk := hq)))
    | (refine kept_each ?_ ?_)
    | (refine kept_foldl ?_ ?_)
    | (refine kept_foldl2 ?_ ?_)
    | (intro _)
    | (dsimp only))

theorem keep_wakeSend {a0 s : State} (h0 : Kept a0 s) (c : Cmd) : Kept a0 (wakeSend c s).2 := by
  have hk := h0
  unfold wakeSend
  repeat' (first
    | (simp (maxDischargeDepth := 40) only [h0, hk, implies_true, Kept.refl, kept_mk, kept_regsFilter, keep_ans, keep_bulkJob, keep_wakSend]; done)
    | (split <;> (try (rename_i heq; have hq := congrArg (fun r => Kept a0 (Prod.snd r)) heq; clear heq; simp (maxDischargeDepth := 40) only [h0, hk, implies_true, Kept.refl, kept_mk, kept_regsFilter, keep_ans, keep_bulkJob, keep_wakSend] at hq; first | replace hk := of_eq_true hq.symm | replace hk := hq)))
    | (refine kept_each ?_ ?_)
    | (refine kept_foldl ?_ ?_)
    | (refine kept_foldl2 ?_ ?_)
    | (intro _)
    | (dsimp only))

theorem keep_fltSet {a0 s : State} (h0 : Kept a0 s) (c : Cmd) : Kept a0 (fltSet c s).2 := by
  have hk := h0
  unfold fltSet
  repeat' (first
    | (simp (maxDischargeDepth := 40) only [h0, hk, implies_true, Kept.refl, kept_mk, kept_regsFilter, keep_State_each, keep_ans, keep_fltPut]; done)
    | (split <;> (try (rename_i heq; have hq := congrArg (fun r => Kept a0 (Prod.snd r)) heq; clear heq; simp (maxDischargeDepth := 40) only [h0, hk, implies_true, Kept.refl, kept_mk, kept_regsFilter, keep_State_each, keep_ans, keep_fltPut] at hq; first | replace hk := of_eq_true hq.symm | replace hk := hq)))
    | (refine kept_each ?_ ?_)
    | (refine kept_foldl ?_ ?_)
    | (refine kept_foldl2 ?_ ?_)
    | (intro _)
    | (dsimp only))

theorem keep_fltClearCmd {a0 s : State} (h0 : Kept a0 s) (c : Cmd) : Kept a0 (fltClearCmd c s).2 := by simp (maxDischargeDepth := 40) only [fltClearCmd, h0, implies_true, Kept.refl, kept_mk, kept_regsFilter, keep_ansWith, keep_fltClear]

theorem keep_fltInject {a0 s : State} (h0 : Kept a0 s) (c : Cmd) : Kept a0 (fltInject c s).2 := by
  have hk := h0
  unfold fltInject
  repeat' (first
    | (simp (maxDischargeDepth := 40) only [h0, hk, implies_true, Kept.refl, kept_mk, kept_regsFilter, keep_ans, keep_inject]; done)
    | (split <;> (try (rename_i heq; have hq := congrArg (fun r => Kept a0 (Prod.snd r)) heq; clear heq; simp (maxDischargeDepth := 40) only [h0, hk, implies_true, Kept.refl, kept_mk, kept_regsFilter, keep_ans, keep_inject] at hq; first | replace hk := of_eq_true hq.symm | replace hk := hq)))
    | (refine kept_each ?_ ?_)
    | (refine kept_foldl ?_ ?_)
    | (refine kept_foldl2 ?_ ?_)
    | (intro _)
    | (dsimp only))

theorem keep_fltDebug {a0 s : State} (h0 : Kept a0 s) (c : Cmd) : Kept a0 (fltDebug c s).2 := by simp (maxDischargeDepth := 40) only [fltDebug, h0, implies_true, Kept.refl, kept_mk, kept_regsFilter, keep_State_putB, keep_ans]

theorem keep_logClearCmd {a0 s : State} (h0 : Kept a0 s) (c : Cmd) : Kept a0 (logClearCmd c s).2 := by
  unfold logClearCmd; split <;> simp (maxDischargeDepth := 40) only [h0, implies_true, Kept.refl, kept_mk, kept_regsFilter, keep_ans, keep_logClear]

theorem keep_logHistSet {a0 s : State} (h0 : Kept a0 s) (c : Cmd) : Kept a0 (logHistSet c s).2 := by
  have hk := h0
  unfold logHistSet
  repeat' (first
    | (simp (maxDischargeDepth := 40) only [h0, hk, implies_true, Kept.refl, kept_mk, kept_regsFilter, keep_State_each, keep_ans, keep_histSet]; done)
    | (split <;> (try (rename_i heq; have hq := congrArg (fun r => Kept a0 (Prod.snd r)) heq; clear heq; simp (maxDischargeDepth := 40) only [h0, hk, implies_true, Kept.refl, kept_mk, kept_regsFilter, keep_State_each, keep_ans, keep_histSet] at hq; first | replace hk := of_eq_true hq.symm | replace hk := hq)))
    | (refine kept_each ?_ ?_)
    | (refine kept_foldl ?_ ?_)
    | (refine kept_foldl2 ?_ ?_)
    | (intro _)
    | (dsimp only))

theorem keep_logFlush {a0 s : State} (h0 : Kept a0 s) (_c : Cmd) : Kept a0 (logFlush _c s).2 := by simp (maxDischargeDepth := 40) only [logFlush, h0, implies_true, Kept.refl, kept_mk, kept_regsFilter, keep_ans, keep_writeAccum]

theorem keep_logSendCmd {a0 s : State} (h0 : Kept a0 s) (c : Cmd) : Kept a0 (logSendCmd c s).2 := by
  have hk := h0
  unfold logSendCmd
  repeat' (first
    | (simp (maxDischargeDepth := 40) only [h0, hk, implies_true, Kept.refl, kept_mk, kept_regsFilter, keep_ans, keep_bulkJob, keep_logSend]; done)
    | (split <;> (try (rename_i heq; have hq := congrArg (fun r => Kept a0 (Prod.snd r)) heq; clear heq; simp (maxDischargeDepth := 40) only [h0, hk, implies_true, Kept.refl, kept_mk, kept_regsFilter, keep_ans, keep_bulkJob, keep_logSend] at hq; first | replace hk := of_eq_true hq.symm | replace hk := hq)))
    | (refine kept_each ?_ ?_)
    | (refine kept_foldl ?_ ?_)
    | (refine kept_foldl2 ?_ ?_)
    | (intro _)
    | (dsimp only))

theorem keep_plmSet {a0 s : State} (h0 : Kept a0 s) (c : Cmd) : Kept a0 (plmSet c s).2 := by
  have hk := h0
  unfold plmSet
  repeat' (first
    | (simp (maxDischargeDepth := 40) only [h0, hk, implies_true, Kept.refl, kept_mk, kept_regsFilter, keep_ans]; done)
    | (split <;> (try (rename_i heq; have hq := congrArg (fun r => Kept a0 (Prod.snd r)) heq; clear heq; simp (maxDischargeDepth := 40) only [h0, hk, implies_true, Kept.refl, kept_mk, kept_regsFilter, keep_ans] at hq; first | replace hk := of_eq_true hq.symm | replace hk := hq)))
    | (refine kept_each ?_ ?_)
    | (refine kept_foldl ?_ ?_)
    | (refine kept_foldl2 ?_ ?_)
    | (intro _)
    | (dsimp only))

theorem keep_powerSet {a0 s : State} (h0 : Kept a0 s) (c : Cmd) : Kept a0 (powerSet c s).2 := by
  have hk := h0
  unfold powerSet
  repeat' (first
    | (simp (maxDischargeDepth := 40) only [h0, hk, implies_true, Kept.refl, kept_mk, kept_regsFilter, keep_ans, keep_finished, keep_powerRequest]; done)
    | (split <;> (try (rename_i heq; have hq := congrArg (fun r => Kept a0 (Prod.snd r)) heq; clear heq; simp (maxDischargeDepth := 40) only [h0, hk, implies_true, Kept.refl, kept_mk, kept_regsFilter, keep_ans, keep_finished, keep_powerRequest] at hq; first | replace hk := of_eq_true hq.symm | replace hk := hq)))
    | (refine kept_each ?_ ?_)
    | (refine kept_foldl ?_ ?_)
    | (refine kept_foldl2 ?_ ?_)
    | (intro _)
    | (dsimp only))

theorem keep_powerSetDone {a0 s : State} (h0 : Kept a0 s) (id : Nat) : Kept a0 (powerSetDone id s) := by
  unfold powerSetDone; split <;> simp (maxDischargeDepth := 40) only [h0, implies_true, Kept.refl, kept_mk, kept_regsFilter, keep_finishJob]

end Sys2Proof.Laws
end

