-- ==== Sys2Proof/Laws/KeepStep.lean ====
section
/-! SUPPORT. What every operation keeps (`Kept`), one lemma for each: the opcodes, power, and the end of every step. -/

namespace Sys2Proof.Laws

open Sys2Proof.Machine

set_option linter.all false

/-! ### PilotOps.lean -/

theorem keep_stationSet {a0 s : State} (h0 : Kept a0 s) (c : Cmd) : Kept a0 (stationSet c s).2 := by
  have hk := h0
  unfold stationSet
  repeat' (first
    | (simp (maxDischargeDepth := 40) only [h0, hk, implies_true, Kept.refl, kept_mk, kept_regsFilter, keep_State_wr, keep_ans]; done)
    | (split <;> (try (rename_i heq; have hq := congrArg (fun r => Kept a0 (Prod.snd r)) heq; clear heq; simp (maxDischargeDepth := 40) only [h0, hk, implies_true, Kept.refl, kept_mk, kept_regsFilter, keep_State_wr, keep_ans] at hq; first | replace hk := of_eq_true hq.symm | replace hk := hq)))
    | (refine kept_each ?_ ?_)
    | (refine kept_foldl ?_ ?_)
    | (refine kept_foldl2 ?_ ?_)
    | (intro _)
    | (dsimp only))

theorem keep_markCmd {a0 s : State} (h0 : Kept a0 s) (c : Cmd) : Kept a0 (markCmd c s).2 := by
  have hk := h0
  unfold markCmd
  repeat' (first
    | (simp (maxDischargeDepth := 40) only [h0, hk, implies_true, Kept.refl, kept_mk, kept_regsFilter, keep_ansWith, keep_logEvent, keep_wakMark]; done)
    | (split <;> (try (rename_i heq; have hq := congrArg (fun r => Kept a0 (Prod.snd r)) heq; clear heq; simp (maxDischargeDepth := 40) only [h0, hk, implies_true, Kept.refl, kept_mk, kept_regsFilter, keep_ansWith, keep_logEvent, keep_wakMark] at hq; first | replace hk := of_eq_true hq.symm | replace hk := hq)))
    | (refine kept_each ?_ ?_)
    | (refine kept_foldl ?_ ?_)
    | (refine kept_foldl2 ?_ ?_)
    | (intro _)
    | (dsimp only))

theorem keep_timeSet {a0 s : State} (h0 : Kept a0 s) (c : Cmd) : Kept a0 (timeSet c s).2 := by simp (maxDischargeDepth := 40) only [timeSet, h0, implies_true, Kept.refl, kept_mk, kept_regsFilter, keep_timeSetCmd]

theorem keep_op_ite {p : Prop} [Decidable p] {o1 o : OpInfo} {f own : Cmd → State → Ans × State}
    {rest : Option (OpInfo × (Cmd → State → Ans × State))} (h : (if p then some (o1, f) else rest) = some (o, own))
    (h1 : ∀ c t, Kept t (f c t).2) (h2 : rest = some (o, own) → ∀ c t, Kept t (own c t).2) : ∀ c t, Kept t (own c t).2 := by
  split at h
  · simp only [Option.some.injEq, Prod.mk.injEq] at h; rw [← h.2]; exact h1
  · exact h2 h

theorem keep_pilotOp (code : Nat) (c : Cmd) (o : OpInfo) (own : Cmd → State → Ans × State) (h : pilotOp code c = some (o, own)) :
    ∀ (c : Cmd) (t : State), Kept t (own c t).2 := by
  unfold pilotOp at h
  refine keep_op_ite h (fun c t => keep_nopCmd (Kept.refl t) c) (fun h => ?_)
  refine keep_op_ite h (fun c t => keep_echoCmd (Kept.refl t) c) (fun h => ?_)
  refine keep_op_ite h (fun c t => keep_identCmd (Kept.refl t) c) (fun h => ?_)
  refine keep_op_ite h (fun c t => keep_pwrSet (Kept.refl t) c) (fun h => ?_)
  refine keep_op_ite h (fun c t => keep_keySet (Kept.refl t) c) (fun h => ?_)
  refine keep_op_ite h (fun c t => keep_pilSet (Kept.refl t) c) (fun h => ?_)
  refine keep_op_ite h (fun c t => keep_parcelDefine (Kept.refl t) c) (fun h => ?_)
  refine keep_op_ite h (fun c t => keep_parcelReserve (Kept.refl t) c) (fun h => ?_)
  refine keep_op_ite h (fun c t => keep_parcelCommit (Kept.refl t) c) (fun h => ?_)
  refine keep_op_ite h (fun c t => keep_parcelRelease (Kept.refl t) c) (fun h => ?_)
  refine keep_op_ite h (fun c t => keep_parcelFree (Kept.refl t) c) (fun h => ?_)
  refine keep_op_ite h (fun c t => keep_parcelCfg (Kept.refl t) c) (fun h => ?_)
  refine keep_op_ite h (fun c t => keep_verdictSet (Kept.refl t) c) (fun h => ?_)
  refine keep_op_ite h (fun c t => keep_verdictReadCmd (Kept.refl t) c) (fun h => ?_)
  refine keep_op_ite h (fun c t => keep_epochRead (Kept.refl t) c) (fun h => ?_)
  refine keep_op_ite h (fun c t => keep_deadlineSet (Kept.refl t) c) (fun h => ?_)
  refine keep_op_ite h (fun c t => keep_strictSet (Kept.refl t) c) (fun h => ?_)
  refine keep_op_ite h (fun c t => keep_absentDeclare (Kept.refl t) c) (fun h => ?_)
  refine keep_op_ite h (fun c t => keep_closurePull (Kept.refl t) c) (fun h => ?_)
  refine keep_op_ite h (fun c t => keep_voteRaise (Kept.refl t) c) (fun h => ?_)
  refine keep_op_ite h (fun c t => keep_tallySet (Kept.refl t) c) (fun h => ?_)
  refine keep_op_ite h (fun c t => keep_verdictSink (Kept.refl t) c) (fun h => ?_)
  refine keep_op_ite h (fun c t => keep_probeSet (Kept.refl t) c) (fun h => ?_)
  refine keep_op_ite h (fun c t => keep_tapMap (Kept.refl t) c) (fun h => ?_)
  refine keep_op_ite h (fun c t => keep_tapClear (Kept.refl t) c) (fun h => ?_)
  refine keep_op_ite h (fun c t => keep_trkSet (Kept.refl t) c) (fun h => ?_)
  refine keep_op_ite h (fun c t => keep_inputSet (Kept.refl t) c) (fun h => ?_)
  refine keep_op_ite h (fun c t => keep_platLoad (Kept.refl t) c) (fun h => ?_)
  refine keep_op_ite h (fun c t => keep_platUnload (Kept.refl t) c) (fun h => ?_)
  refine keep_op_ite h (fun c t => keep_platKeyCmd (Kept.refl t) c) (fun h => ?_)
  refine keep_op_ite h (fun c t => keep_cadSet (Kept.refl t) c) (fun h => ?_)
  refine keep_op_ite h (fun c t => keep_scoreRead (Kept.refl t) c) (fun h => ?_)
  refine keep_op_ite h (fun c t => keep_scoreRow (Kept.refl t) c) (fun h => ?_)
  refine keep_op_ite h (fun c t => keep_subLoad (Kept.refl t) c) (fun h => ?_)
  refine keep_op_ite h (fun c t => keep_subUnload (Kept.refl t) c) (fun h => ?_)
  refine keep_op_ite h (fun c t => keep_trnRun (Kept.refl t) c) (fun h => ?_)
  refine keep_op_ite h (fun c t => keep_trnSet (Kept.refl t) c) (fun h => ?_)
  refine keep_op_ite h (fun c t => keep_trnUnfence (Kept.refl t) c) (fun h => ?_)
  refine keep_op_ite h (fun c t => keep_trnRead (Kept.refl t) c) (fun h => ?_)
  refine keep_op_ite h (fun c t => keep_wakeCfg (Kept.refl t) c) (fun h => ?_)
  refine keep_op_ite h (fun c t => keep_wakeArm (Kept.refl t) c) (fun h => ?_)
  refine keep_op_ite h (fun c t => keep_wakeDisarm (Kept.refl t) c) (fun h => ?_)
  refine keep_op_ite h (fun c t => keep_wakeTrig (Kept.refl t) c) (fun h => ?_)
  refine keep_op_ite h (fun c t => keep_wakeSecure (Kept.refl t) c) (fun h => ?_)
  refine keep_op_ite h (fun c t => keep_wakeSend (Kept.refl t) c) (fun h => ?_)
  refine keep_op_ite h (fun c t => keep_witSet (Kept.refl t) c) (fun h => ?_)
  refine keep_op_ite h (fun c t => keep_packLoad (Kept.refl t) c) (fun h => ?_)
  refine keep_op_ite h (fun c t => keep_packDrop (Kept.refl t) c) (fun h => ?_)
  refine keep_op_ite h (fun c t => keep_witKeyCmd (Kept.refl t) c) (fun h => ?_)
  refine keep_op_ite h (fun c t => keep_engineReport (Kept.refl t) c) (fun h => ?_)
  refine keep_op_ite h (fun c t => keep_testNow (Kept.refl t) c) (fun h => ?_)
  refine keep_op_ite h (fun c t => keep_selfNow (Kept.refl t) c) (fun h => ?_)
  refine keep_op_ite h (fun c t => keep_markCmd (Kept.refl t) c) (fun h => ?_)
  refine keep_op_ite h (fun c t => keep_pulseSet (Kept.refl t) c) (fun h => ?_)
  refine keep_op_ite h (fun c t => keep_timeSet (Kept.refl t) c) (fun h => ?_)
  refine keep_op_ite h (fun c t => keep_servoSet (Kept.refl t) c) (fun h => ?_)
  refine keep_op_ite h (fun c t => keep_timeRoleCmd (Kept.refl t) c) (fun h => ?_)
  refine keep_op_ite h (fun c t => keep_timeProbeCmd (Kept.refl t) c) (fun h => ?_)
  refine keep_op_ite h (fun c t => keep_rulingIssue (Kept.refl t) c) (fun h => ?_)
  refine keep_op_ite h (fun c t => keep_stopAt (Kept.refl t) c) (fun h => ?_)
  refine keep_op_ite h (fun c t => keep_stopDisarm (Kept.refl t) c) (fun h => ?_)
  refine keep_op_ite h (fun c t => keep_fltSet (Kept.refl t) c) (fun h => ?_)
  refine keep_op_ite h (fun c t => keep_fltClearCmd (Kept.refl t) c) (fun h => ?_)
  refine keep_op_ite h (fun c t => keep_fltInject (Kept.refl t) c) (fun h => ?_)
  refine keep_op_ite h (fun c t => keep_fltDebug (Kept.refl t) c) (fun h => ?_)
  refine keep_op_ite h (fun c t => keep_logClearCmd (Kept.refl t) c) (fun h => ?_)
  refine keep_op_ite h (fun c t => keep_logHistSet (Kept.refl t) c) (fun h => ?_)
  refine keep_op_ite h (fun c t => keep_logFlush (Kept.refl t) c) (fun h => ?_)
  refine keep_op_ite h (fun c t => keep_logSendCmd (Kept.refl t) c) (fun h => ?_)
  refine keep_op_ite h (fun c t => keep_plmSet (Kept.refl t) c) (fun h => ?_)
  refine keep_op_ite h (fun c t => keep_powerSet (Kept.refl t) c) (fun h => ?_)
  refine keep_op_ite h (fun c t => keep_stowJob (Kept.refl t) c) (fun h => ?_)
  refine keep_op_ite h (fun c t => keep_berthSetCmd (Kept.refl t) c) (fun h => ?_)
  refine keep_op_ite h (fun c t => keep_lndSetCmd (Kept.refl t) c) (fun h => ?_)
  refine keep_op_ite h (fun c t => keep_treeSetCmd (Kept.refl t) c) (fun h => ?_)
  refine keep_op_ite h (fun c t => keep_lndGateLoadCmd (Kept.refl t) c) (fun h => ?_)
  refine keep_op_ite h (fun c t => keep_lndGateSwapCmd (Kept.refl t) c) (fun h => ?_)
  refine keep_op_ite h (fun c t => keep_stationSet (Kept.refl t) c) (fun h => ?_)
  refine keep_op_ite h (fun c t => keep_chainSet (Kept.refl t) c) (fun h => ?_)
  refine keep_op_ite h (fun c t => keep_spliceCmd (Kept.refl t) c) (fun h => ?_)
  refine keep_op_ite h (fun c t => keep_spliceReqCmd (Kept.refl t) c) (fun h => ?_)
  refine keep_op_ite h (fun c t => keep_tmtLoadCmd (Kept.refl t) c) (fun h => ?_)
  refine keep_op_ite h (fun c t => keep_tmtSwapCmd (Kept.refl t) c) (fun h => ?_)
  refine keep_op_ite h (fun c t => keep_laneUnfence (Kept.refl t) c) (fun h => ?_)
  refine keep_op_ite h (fun c t => keep_fwPatch (Kept.refl t) c) (fun h => ?_)
  refine keep_op_ite h (fun c t => keep_fwKeyCmd (Kept.refl t) c) (fun h => ?_)
  refine keep_op_ite h (fun c t => keep_fwRevert (Kept.refl t) c) (fun h => ?_)
  exact absurd h (by simp)

theorem keep_runOpcode {a0 s : State} (h0 : Kept a0 s) (code : Nat) (c : Cmd) : Kept a0 (runOpcode code c s) := by
  unfold runOpcode
  cases h : pilotOp code c with
  | none => exact keep_runCmd h0 _ _ _ (fun _ t => keep_ans (Kept.refl t) _)
  | some x =>
    obtain ⟨o, own⟩ := x
    exact keep_runCmd h0 _ _ _ (fun c' t => keep_pilotOp code c o own h c' t)

theorem keep_startOpcode {a0 s : State} (h0 : Kept a0 s) (code : Nat) (c : Cmd) : Kept a0 (startOpcode code c s) := by
  unfold startOpcode
  split
  · rename_i o own h
    exact keep_started h0 _ _ _ (fun c' t => keep_pilotOp code c o own h c' t)
  · exact keep_started h0 _ _ _ (fun _ t => keep_ans (Kept.refl t) _)

theorem keep_Launch_start {a0 y1 : State} (h0 : Kept a0 y1) (y0 : Launch) : Kept a0 (Launch.start y0 y1) := by
  unfold Launch.start; split <;> simp (maxDischargeDepth := 40) only [h0, implies_true, Kept.refl, kept_mk, kept_regsFilter, keep_claimAsk, keep_partTake, keep_startOpcode]

theorem keep_pilotNext {a0 s : State} (h0 : Kept a0 s)  : Kept a0 (pilotNext s) := by
  unfold pilotNext
  split
  · exact h0
  · split
    · exact h0
    · exact keep_pilotFree (keep_Launch_start (kept_mk h0 ..) _)

/-! ### Power.lean -/

theorem keep_epochsAsleep {a0 s : State} (h0 : Kept a0 s)  : Kept a0 (epochsAsleep s) := by simp (maxDischargeDepth := 40) only [epochsAsleep, h0, implies_true, Kept.refl, kept_mk, kept_regsFilter, keep_markCurrent]

theorem keep_loseEpochs {a0 s : State} (h0 : Kept a0 s) (lost : Epoch → Bool) : Kept a0 (loseEpochs lost s) := by simp (maxDischargeDepth := 40) only [loseEpochs, h0, implies_true, Kept.refl, kept_mk, kept_regsFilter, keep_State_each, keep_advanceAll, keep_drainFree, keep_setQueue, keep_trnRunAsk]

theorem keep_tallyQuiesce {a0 s : State} (h0 : Kept a0 s)  : Kept a0 (tallyQuiesce s) := by simp (maxDischargeDepth := 40) only [tallyQuiesce, h0, implies_true, Kept.refl, kept_mk, kept_regsFilter, keep_loseEpochs]

theorem keep_dropLoading {a0 s : State} (h0 : Kept a0 s) (j : Job) : Kept a0 (dropLoading j s) := by
  have hk := h0
  unfold dropLoading
  repeat' (first
    | (simp (maxDischargeDepth := 40) only [h0, hk, implies_true, Kept.refl, kept_mk, kept_regsFilter, keep_platDrop, keep_subDrop]; done)
    | (split <;> (try (rename_i heq; have hq := congrArg (fun r => Kept a0 (Prod.snd r)) heq; clear heq; simp (maxDischargeDepth := 40) only [h0, hk, implies_true, Kept.refl, kept_mk, kept_regsFilter, keep_platDrop, keep_subDrop] at hq; first | replace hk := of_eq_true hq.symm | replace hk := hq)))
    | (refine kept_each ?_ ?_)
    | (refine kept_foldl ?_ ?_)
    | (refine kept_foldl2 ?_ ?_)
    | (intro _)
    | (dsimp only))

theorem keep_pilotErrs {a0 s : State} (h0 : Kept a0 s)  : Kept a0 (pilotErrs s) := by
  unfold pilotErrs; split <;> simp (maxDischargeDepth := 40) only [h0, implies_true, Kept.refl, kept_mk, kept_regsFilter, keep_State_each, keep_State_evt, keep_deliverFinal, keep_dropLoading, keep_releaseLeave]

theorem keep_requeueJobs {a0 s : State} (h0 : Kept a0 s) (all : Bool) : Kept a0 (requeueJobs all s) := by
  have hk := h0
  unfold requeueJobs
  repeat' (first
    | (simp (maxDischargeDepth := 40) only [h0, hk, implies_true, Kept.refl, kept_mk, kept_regsFilter, keep_State_each, keep_dropLoading, keep_finishJob, keep_modJob, keep_releaseLeave]; done)
    | (split <;> (try (rename_i heq; have hq := congrArg (fun r => Kept a0 (Prod.snd r)) heq; clear heq; simp (maxDischargeDepth := 40) only [h0, hk, implies_true, Kept.refl, kept_mk, kept_regsFilter, keep_State_each, keep_dropLoading, keep_finishJob, keep_modJob, keep_releaseLeave] at hq; first | replace hk := of_eq_true hq.symm | replace hk := hq)))
    | (refine kept_each ?_ ?_)
    | (refine kept_foldl ?_ ?_)
    | (refine kept_foldl2 ?_ ?_)
    | (intro _)
    | (dsimp only))

theorem keep_flushSnaps {a0 s : State} (h0 : Kept a0 s)  : Kept a0 (flushSnaps s) := by
  have hk := h0
  unfold flushSnaps
  repeat' (first
    | (simp (maxDischargeDepth := 40) only [h0, hk, implies_true, Kept.refl, kept_mk, kept_regsFilter, keep_State_each, keep_State_inc, keep_State_setPod, keep_giveSnap]; done)
    | (split <;> (try (rename_i heq; have hq := congrArg (fun r => Kept a0 (Prod.snd r)) heq; clear heq; simp (maxDischargeDepth := 40) only [h0, hk, implies_true, Kept.refl, kept_mk, kept_regsFilter, keep_State_each, keep_State_inc, keep_State_setPod, keep_giveSnap] at hq; first | replace hk := of_eq_true hq.symm | replace hk := hq)))
    | (refine kept_each ?_ ?_)
    | (refine kept_foldl ?_ ?_)
    | (refine kept_foldl2 ?_ ?_)
    | (intro _)
    | (dsimp only))

theorem keep_flushTaps {a0 s : State} (h0 : Kept a0 s)  : Kept a0 (flushTaps s) := by simp (maxDischargeDepth := 40) only [flushTaps, h0, implies_true, Kept.refl, kept_mk, kept_regsFilter, keep_State_inc]

theorem keep_computeLost {a0 s : State} (h0 : Kept a0 s) (sleep : Bool) : Kept a0 (computeLost sleep s) := by simp (maxDischargeDepth := 40) only [computeLost, h0, implies_true, Kept.refl, kept_mk, kept_regsFilter, keep_cadLose, keep_flushSnaps, keep_loseEpochs, keep_requeueJobs, keep_resetRegs, keep_trnLose, keep_wakLose, keep_witLose]

theorem keep_resumeJob {a0 s : State} (h0 : Kept a0 s) (j : Job) : Kept a0 (resumeJob j s) := by
  unfold resumeJob
  cases h : pilotOp j.opcode j.cmd with
  | none => exact h0
  | some x =>
    obtain ⟨o, own⟩ := x
    have h1 := Kept.trans (kept_mk h0 ..) (keep_pilotOp _ _ _ _ h j.cmd { s with pil := { s.pil with nextJob := j.id } })
    dsimp only
    revert h1
    generalize own j.cmd { s with pil := { s.pil with nextJob := j.id } } = r
    obtain ⟨r1, r2⟩ := r
    intro h1
    cases r1
    · refine keep_finishJob ?_ _ _ _
      split
      · exact kept_mk h1 ..
      · exact keep_State_inc (kept_mk h1 ..) _ _
    · exact keep_modJob (kept_mk h1 ..) _ _

theorem keep_holdGranted {a0 s : State} (h0 : Kept a0 s) (id : Nat) : Kept a0 (holdGranted id s) := by
  have hk := h0
  unfold holdGranted
  repeat' (first
    | (simp (maxDischargeDepth := 40) only [h0, hk, implies_true, Kept.refl, kept_mk, kept_regsFilter, keep_releaseLeave, keep_resumeJob, keep_stowNext]; done)
    | (split <;> (try (rename_i heq; have hq := congrArg (fun r => Kept a0 (Prod.snd r)) heq; clear heq; simp (maxDischargeDepth := 40) only [h0, hk, implies_true, Kept.refl, kept_mk, kept_regsFilter, keep_releaseLeave, keep_resumeJob, keep_stowNext] at hq; first | replace hk := of_eq_true hq.symm | replace hk := hq)))
    | (refine kept_each ?_ ?_)
    | (refine kept_foldl ?_ ?_)
    | (refine kept_foldl2 ?_ ?_)
    | (intro _)
    | (dsimp only))

theorem keep_holdRefused {a0 s : State} (h0 : Kept a0 s) (id : Nat) : Kept a0 (holdRefused id s) := by
  have hk := h0
  unfold holdRefused
  repeat' (first
    | (simp (maxDischargeDepth := 40) only [h0, hk, implies_true, Kept.refl, kept_mk, kept_regsFilter, keep_State_evt, keep_finishJob, keep_stowNext]; done)
    | (split <;> (try (rename_i heq; have hq := congrArg (fun r => Kept a0 (Prod.snd r)) heq; clear heq; simp (maxDischargeDepth := 40) only [h0, hk, implies_true, Kept.refl, kept_mk, kept_regsFilter, keep_State_evt, keep_finishJob, keep_stowNext] at hq; first | replace hk := of_eq_true hq.symm | replace hk := hq)))
    | (refine kept_each ?_ ?_)
    | (refine kept_foldl ?_ ?_)
    | (refine kept_foldl2 ?_ ?_)
    | (intro _)
    | (dsimp only))

theorem keep_resumeJobs {a0 s : State} (h0 : Kept a0 s)  : Kept a0 (resumeJobs s) := by simp (maxDischargeDepth := 40) only [resumeJobs, h0, implies_true, Kept.refl, kept_mk, kept_regsFilter, keep_State_each, keep_resumeJob]

theorem keep_reachedDone {a0 s : State} (h0 : Kept a0 s) (st : Nat) : Kept a0 (reachedDone st s) := by simp (maxDischargeDepth := 40) only [reachedDone, h0, implies_true, Kept.refl, kept_mk, kept_regsFilter, keep_State_each, keep_finishJob]

theorem keep_endTransition {a0 s : State} (h0 : Kept a0 s) (st : Nat) : Kept a0 (endTransition st s) := by
  have hk := h0
  unfold endTransition
  repeat' (first
    | (simp (maxDischargeDepth := 40) only [h0, hk, implies_true, Kept.refl, kept_mk, kept_regsFilter, keep_State_putB, keep_State_setF, keep_beginTransition, keep_reachedDone]; done)
    | (split <;> (try (rename_i heq; have hq := congrArg (fun r => Kept a0 (Prod.snd r)) heq; clear heq; simp (maxDischargeDepth := 40) only [h0, hk, implies_true, Kept.refl, kept_mk, kept_regsFilter, keep_State_putB, keep_State_setF, keep_beginTransition, keep_reachedDone] at hq; first | replace hk := of_eq_true hq.symm | replace hk := hq)))
    | (refine kept_each ?_ ?_)
    | (refine kept_foldl ?_ ?_)
    | (refine kept_foldl2 ?_ ?_)
    | (intro _)
    | (dsimp only))

theorem keep_nowActive {a0 s : State} (h0 : Kept a0 s) (lost : Bool) : Kept a0 (nowActive lost s) := by
  unfold nowActive; split <;> simp (maxDischargeDepth := 40) only [h0, implies_true, Kept.refl, kept_mk, kept_regsFilter, keep_State_each, keep_State_evt, keep_State_inc, keep_State_putB, keep_State_setF, keep_beatTake, keep_crossingDone, keep_deferredRulings, keep_endTransition, keep_evalReady, keep_holdWork, keep_rateNote, keep_reloadAsk, keep_resumeJobs, keep_scoreRowsRun, keep_trackerStart, keep_trnReloadAsk, keep_wakPowerUp, keep_witLevels, keep_witPush]

theorem keep_bondFails {a0 s : State} (h0 : Kept a0 s) (g : Nat) : Kept a0 (bondFails g s) := by simp (maxDischargeDepth := 40) only [bondFails, h0, implies_true, Kept.refl, kept_mk, kept_regsFilter, keep_State_each, keep_State_setF, keep_State_wr, keep_faultLine, keep_finishJob]

theorem keep_bondPasses {a0 s : State} (h0 : Kept a0 s)  : Kept a0 (bondPasses s) := by simp (maxDischargeDepth := 40) only [bondPasses, h0, implies_true, Kept.refl, kept_mk, kept_regsFilter, keep_State_setF, keep_State_wr]

theorem keep_tierUp {a0 s : State} (h0 : Kept a0 s) (t : BondTest) : Kept a0 (tierUp t s) := by
  have hk := h0
  unfold tierUp
  repeat' (first
    | (simp (maxDischargeDepth := 40) only [h0, hk, implies_true, Kept.refl, kept_mk, kept_regsFilter, keep_bondFails, keep_bondPasses, keep_nowActive]; done)
    | (split <;> (try (rename_i heq; have hq := congrArg (fun r => Kept a0 (Prod.snd r)) heq; clear heq; simp (maxDischargeDepth := 40) only [h0, hk, implies_true, Kept.refl, kept_mk, kept_regsFilter, keep_bondFails, keep_bondPasses, keep_nowActive] at hq; first | replace hk := of_eq_true hq.symm | replace hk := hq)))
    | (refine kept_each ?_ ?_)
    | (refine kept_foldl ?_ ?_)
    | (refine kept_foldl2 ?_ ?_)
    | (intro _)
    | (dsimp only))

theorem keep_powerEntry {a0 s : State} (h0 : Kept a0 s)  : Kept a0 (powerEntry s) := by
  have hk := h0
  unfold powerEntry
  repeat' (first
    | (simp (maxDischargeDepth := 40) only [h0, hk, implies_true, Kept.refl, kept_mk, kept_regsFilter, keep_computeLost, keep_endTransition, keep_epochsAsleep, keep_flushEnd, keep_holdWork, keep_requeueJobs, keep_wakPowerDown]; done)
    | (split <;> (try (rename_i heq; have hq := congrArg (fun r => Kept a0 (Prod.snd r)) heq; clear heq; simp (maxDischargeDepth := 40) only [h0, hk, implies_true, Kept.refl, kept_mk, kept_regsFilter, keep_computeLost, keep_endTransition, keep_epochsAsleep, keep_flushEnd, keep_holdWork, keep_requeueJobs, keep_wakPowerDown] at hq; first | replace hk := of_eq_true hq.symm | replace hk := hq)))
    | (refine kept_each ?_ ?_)
    | (refine kept_foldl ?_ ?_)
    | (refine kept_foldl2 ?_ ?_)
    | (intro _)
    | (dsimp only))

theorem keep_powerExit {a0 s : State} (h0 : Kept a0 s) (t : BondTest) : Kept a0 (powerExit t s) := by
  have hk := h0
  unfold powerExit
  repeat' (first
    | (simp (maxDischargeDepth := 40) only [h0, hk, implies_true, Kept.refl, kept_mk, kept_regsFilter, keep_nowActive, keep_tierUp]; done)
    | (split <;> (try (rename_i heq; have hq := congrArg (fun r => Kept a0 (Prod.snd r)) heq; clear heq; simp (maxDischargeDepth := 40) only [h0, hk, implies_true, Kept.refl, kept_mk, kept_regsFilter, keep_nowActive, keep_tierUp] at hq; first | replace hk := of_eq_true hq.symm | replace hk := hq)))
    | (refine kept_each ?_ ?_)
    | (refine kept_foldl ?_ ?_)
    | (refine kept_foldl2 ?_ ?_)
    | (intro _)
    | (dsimp only))

theorem keep_dozeSleep {a0 s : State} (h0 : Kept a0 s)  : Kept a0 (dozeSleep s) := by
  have hk := h0
  unfold dozeSleep
  repeat' (first
    | (simp (maxDischargeDepth := 40) only [h0, hk, implies_true, Kept.refl, kept_mk, kept_regsFilter, keep_bondFails, keep_bondPasses, keep_computeLost, keep_endTransition, keep_wakDozeSleep]; done)
    | (split <;> (try (rename_i heq; have hq := congrArg (fun r => Kept a0 (Prod.snd r)) heq; clear heq; simp (maxDischargeDepth := 40) only [h0, hk, implies_true, Kept.refl, kept_mk, kept_regsFilter, keep_bondFails, keep_bondPasses, keep_computeLost, keep_endTransition, keep_wakDozeSleep] at hq; first | replace hk := of_eq_true hq.symm | replace hk := hq)))
    | (refine kept_each ?_ ?_)
    | (refine kept_foldl ?_ ?_)
    | (refine kept_foldl2 ?_ ?_)
    | (intro _)
    | (dsimp only))

theorem keep_crstAssert {a0 s : State} (h0 : Kept a0 s)  : Kept a0 (crstAssert s) := by
  have hk := h0
  unfold crstAssert
  repeat' (first
    | (simp (maxDischargeDepth := 40) only [h0, hk, implies_true, Kept.refl, kept_mk, kept_regsFilter, keep_State_putB, keep_computeLost, keep_epochsAsleep]; done)
    | (split <;> (try (rename_i heq; have hq := congrArg (fun r => Kept a0 (Prod.snd r)) heq; clear heq; simp (maxDischargeDepth := 40) only [h0, hk, implies_true, Kept.refl, kept_mk, kept_regsFilter, keep_State_putB, keep_computeLost, keep_epochsAsleep] at hq; first | replace hk := of_eq_true hq.symm | replace hk := hq)))
    | (refine kept_each ?_ ?_)
    | (refine kept_foldl ?_ ?_)
    | (refine kept_foldl2 ?_ ?_)
    | (intro _)
    | (dsimp only))

theorem keep_crstRelease {a0 s : State} (h0 : Kept a0 s) (t : BondTest) : Kept a0 (crstRelease t s) := by
  have hk := h0
  unfold crstRelease
  repeat' (first
    | (simp (maxDischargeDepth := 40) only [h0, hk, implies_true, Kept.refl, kept_mk, kept_regsFilter, keep_State_putB, keep_State_setF, keep_tierUp]; done)
    | (split <;> (try (rename_i heq; have hq := congrArg (fun r => Kept a0 (Prod.snd r)) heq; clear heq; simp (maxDischargeDepth := 40) only [h0, hk, implies_true, Kept.refl, kept_mk, kept_regsFilter, keep_State_putB, keep_State_setF, keep_tierUp] at hq; first | replace hk := of_eq_true hq.symm | replace hk := hq)))
    | (refine kept_each ?_ ?_)
    | (refine kept_foldl ?_ ?_)
    | (refine kept_foldl2 ?_ ?_)
    | (intro _)
    | (dsimp only))

theorem keep_hrstAssert {a0 s : State} (h0 : Kept a0 s)  : Kept a0 (hrstAssert s) := by
  have hk := h0
  unfold hrstAssert
  repeat' (first
    | (simp (maxDischargeDepth := 40) only [h0, hk, implies_true, Kept.refl, kept_mk, kept_regsFilter, keep_State_wr, keep_flushTaps, keep_resetRegs]; done)
    | (split <;> (try (rename_i heq; have hq := congrArg (fun r => Kept a0 (Prod.snd r)) heq; clear heq; simp (maxDischargeDepth := 40) only [h0, hk, implies_true, Kept.refl, kept_mk, kept_regsFilter, keep_State_wr, keep_flushTaps, keep_resetRegs] at hq; first | replace hk := of_eq_true hq.symm | replace hk := hq)))
    | (refine kept_each ?_ ?_)
    | (refine kept_foldl ?_ ?_)
    | (refine kept_foldl2 ?_ ?_)
    | (intro _)
    | (dsimp only))

theorem keep_hrstRelease {a0 s : State} (h0 : Kept a0 s)  : Kept a0 (hrstRelease s) := by simp (maxDischargeDepth := 40) only [hrstRelease, h0, implies_true, Kept.refl, kept_mk, kept_regsFilter]

theorem keep_porstAssert {a0 s0 : State} (h0 : Kept a0 s0)  : Kept a0 (porstAssert s0) := (keep_logCut h0).trans ⟨rfl, rfl, wf_filter _ _, id, id, Nat.le_refl _, List.prefix_refl _⟩

theorem keep_porstRelease {a0 s : State} (h0 : Kept a0 s) (x : Straps) : Kept a0 (porstRelease x s) := by
  have hk := h0
  unfold porstRelease
  repeat' (first
    | (simp (maxDischargeDepth := 40) only [h0, hk, implies_true, Kept.refl, kept_mk, kept_regsFilter, keep_State_putB, keep_State_setF, keep_bondFails, keep_bondPasses, keep_logPowerOn]; done)
    | (split <;> (try (rename_i heq; have hq := congrArg (fun r => Kept a0 (Prod.snd r)) heq; clear heq; simp (maxDischargeDepth := 40) only [h0, hk, implies_true, Kept.refl, kept_mk, kept_regsFilter, keep_State_putB, keep_State_setF, keep_bondFails, keep_bondPasses, keep_logPowerOn] at hq; first | replace hk := of_eq_true hq.symm | replace hk := hq)))
    | (refine kept_each ?_ ?_)
    | (refine kept_foldl ?_ ?_)
    | (refine kept_foldl2 ?_ ?_)
    | (intro _)
    | (dsimp only))

theorem keep_pilotBoots {a0 s : State} (h0 : Kept a0 s)  : Kept a0 (pilotBoots s) := by simp (maxDischargeDepth := 40) only [pilotBoots, h0, implies_true, Kept.refl, kept_mk, kept_regsFilter]

theorem keep_unitFence {a0 s : State} (h0 : Kept a0 s) (u : FltUnit) : Kept a0 (unitFence u s) := by
  unfold unitFence; split <;> simp (maxDischargeDepth := 40) only [h0, implies_true, Kept.refl, kept_mk, kept_regsFilter, keep_cadFence, keep_stowQuiesce, keep_trnFence, keep_wakDisarm]

theorem keep_unitQuiesce {a0 s : State} (h0 : Kept a0 s) (u : FltUnit) : Kept a0 (unitQuiesce u s) := by
  unfold unitQuiesce; split <;> simp (maxDischargeDepth := 40) only [h0, implies_true, Kept.refl, kept_mk, kept_regsFilter, keep_State_each, keep_advanceAll, keep_cadLose, keep_stowQuiesce, keep_tallyQuiesce, keep_trnLose, keep_trnRunAsk, keep_wakQuiesce]

theorem keep_quiesceRelease {a0 s : State} (h0 : Kept a0 s) (u : FltUnit) : Kept a0 (quiesceRelease u s) := by
  have hk := h0
  unfold quiesceRelease
  repeat' (first
    | (simp (maxDischargeDepth := 40) only [h0, hk, implies_true, Kept.refl, kept_mk, kept_regsFilter, keep_reloadAsk, keep_trnReloadAsk]; done)
    | (split <;> (try (rename_i heq; have hq := congrArg (fun r => Kept a0 (Prod.snd r)) heq; clear heq; simp (maxDischargeDepth := 40) only [h0, hk, implies_true, Kept.refl, kept_mk, kept_regsFilter, keep_reloadAsk, keep_trnReloadAsk] at hq; first | replace hk := of_eq_true hq.symm | replace hk := hq)))
    | (refine kept_each ?_ ?_)
    | (refine kept_foldl ?_ ?_)
    | (refine kept_foldl2 ?_ ?_)
    | (intro _)
    | (dsimp only))

/-! ### Finish.lean -/

theorem keep_OwnMove_run {a0 s : State} (h0 : Kept a0 s) (m : OwnMove) : Kept a0 (OwnMove.run m s) := by
  have hk := h0
  unfold OwnMove.run
  repeat' (first
    | (simp (maxDischargeDepth := 40) only [h0, hk, implies_true, Kept.refl, kept_mk, kept_regsFilter, keep_State_each, keep_excerptPut, keep_keepPut, keep_resendNow, keep_seriesPut, keep_stagePlace]; done)
    | (split <;> (try (rename_i heq; have hq := congrArg (fun r => Kept a0 (Prod.snd r)) heq; clear heq; simp (maxDischargeDepth := 40) only [h0, hk, implies_true, Kept.refl, kept_mk, kept_regsFilter, keep_State_each, keep_excerptPut, keep_keepPut, keep_resendNow, keep_seriesPut, keep_stagePlace] at hq; first | replace hk := of_eq_true hq.symm | replace hk := hq)))
    | (refine kept_each ?_ ?_)
    | (refine kept_foldl ?_ ?_)
    | (refine kept_foldl2 ?_ ?_)
    | (intro _)
    | (dsimp only))

theorem keep_ownGranted {a0 s : State} (h0 : Kept a0 s) (id : Nat) : Kept a0 (ownGranted id s) := by
  unfold ownGranted
  exact keep_releaseLeave (kept_each (keep_ownTake h0 _) (fun m t => keep_OwnMove_run (Kept.refl t) m)) _

theorem keep_ownRefused {a0 s : State} (h0 : Kept a0 s) (id : Nat) (waited : Bool) : Kept a0 (ownRefused id waited s) := by
  unfold ownRefused
  exact kept_ite (keep_askLeave h0 _ _ _ _) (kept_each (keep_ownTake h0 _) (fun m t => keep_OwnMove_run (Kept.refl t) m))

theorem keep_leaveGranted {a0 s : State} (h0 : Kept a0 s) (p : LeaveFor) : Kept a0 (leaveGranted p s) := by
  have hk := h0
  unfold leaveGranted
  repeat' (first
    | (simp (maxDischargeDepth := 40) only [h0, hk, implies_true, Kept.refl, kept_mk, kept_regsFilter, keep_cadLoadGranted, keep_cadWaited, keep_holdGranted, keep_ownGranted, keep_passGranted, keep_reloadGranted, keep_selfGranted, keep_stowGranted, keep_trnLoadGranted, keep_trnPassGranted, keep_trnReloadGranted, keep_trnWaited, keep_wakGranted, keep_witGranted]; done)
    | (split <;> (try (rename_i heq; have hq := congrArg (fun r => Kept a0 (Prod.snd r)) heq; clear heq; simp (maxDischargeDepth := 40) only [h0, hk, implies_true, Kept.refl, kept_mk, kept_regsFilter, keep_cadLoadGranted, keep_cadWaited, keep_holdGranted, keep_ownGranted, keep_passGranted, keep_reloadGranted, keep_selfGranted, keep_stowGranted, keep_trnLoadGranted, keep_trnPassGranted, keep_trnReloadGranted, keep_trnWaited, keep_wakGranted, keep_witGranted] at hq; first | replace hk := of_eq_true hq.symm | replace hk := hq)))
    | (refine kept_each ?_ ?_)
    | (refine kept_foldl ?_ ?_)
    | (refine kept_foldl2 ?_ ?_)
    | (intro _)
    | (dsimp only))

theorem keep_leaveRefused {a0 s : State} (h0 : Kept a0 s) (p : LeaveFor) (waited : Bool) : Kept a0 (leaveRefused p waited s) := by
  have hk := h0
  unfold leaveRefused
  repeat' (first
    | (simp (maxDischargeDepth := 40) only [h0, hk, implies_true, Kept.refl, kept_mk, kept_regsFilter, keep_cadLoadRefused, keep_cadStart, keep_cadWaited, keep_holdRefused, keep_ownRefused, keep_reloadAsk, keep_selfRefused, keep_stowRefused, keep_trnLoadRefused, keep_trnReloadAsk, keep_trnStart, keep_trnWaited, keep_wakRefused, keep_witRefused]; done)
    | (split <;> (try (rename_i heq; have hq := congrArg (fun r => Kept a0 (Prod.snd r)) heq; clear heq; simp (maxDischargeDepth := 40) only [h0, hk, implies_true, Kept.refl, kept_mk, kept_regsFilter, keep_cadLoadRefused, keep_cadStart, keep_cadWaited, keep_holdRefused, keep_ownRefused, keep_reloadAsk, keep_selfRefused, keep_stowRefused, keep_trnLoadRefused, keep_trnReloadAsk, keep_trnStart, keep_trnWaited, keep_wakRefused, keep_witRefused] at hq; first | replace hk := of_eq_true hq.symm | replace hk := hq)))
    | (refine kept_each ?_ ?_)
    | (refine kept_foldl ?_ ?_)
    | (refine kept_foldl2 ?_ ?_)
    | (intro _)
    | (dsimp only))

theorem keep_markStopped {a0 s : State} (h0 : Kept a0 s)  : Kept a0 (markStopped s) := by simp (maxDischargeDepth := 40) only [markStopped, h0, implies_true, Kept.refl, kept_mk, kept_regsFilter, keep_markCurrent]

theorem keep_markDegraded {a0 s : State} (h0 : Kept a0 s)  : Kept a0 (markDegraded s) := by simp (maxDischargeDepth := 40) only [markDegraded, h0, implies_true, Kept.refl, kept_mk, kept_regsFilter, keep_markCurrent]

theorem keep_perform {a0 s : State} (h0 : Kept a0 s) (t : Todo) : Kept a0 (perform t s) := by
  unfold perform; split <;> simp (maxDischargeDepth := 40) only [h0, implies_true, Kept.refl, kept_mk, kept_regsFilter, keep_leaveGranted, keep_leaveRefused, keep_markDegraded, keep_markStopped, keep_ownClaim, keep_ownPart, keep_ownRoleIn, keep_pilotNext, keep_reserveBegin, keep_sendLanding, keep_trnRunAsk, keep_unitFence, keep_unitQuiesce, keep_wakEvents, keep_wakSync, keep_witDieStop, keep_witPowerEntry]

theorem keep_performAll {a0 y1 : State} (h0 : Kept a0 y1) (y0 : Nat) : Kept a0 (performAll y0 y1) := by
  induction y0 generalizing y1 with
  | zero => exact kept_mk h0 ..
  | succ n ih =>
    unfold performAll
    split
    · exact h0
    · exact ih (keep_perform (kept_mk h0 ..) _)

theorem keep_finish {a0 s : State} (h0 : Kept a0 s)  : Kept a0 (finish s) := by simp (maxDischargeDepth := 40) only [finish, h0, implies_true, Kept.refl, kept_mk, kept_regsFilter, keep_flushLanding, keep_performAll]

theorem keep_datEdge {a0 s : State} (h0 : Kept a0 s)  : Kept a0 (datEdge s) := by
  unfold datEdge
  repeat' (first | split | (simp (maxDischargeDepth := 40) only [h0, implies_true, Kept.refl, kept_mk, kept_regsFilter, keep_clockEdge, keep_finish, keep_wakTick]; done) | dsimp only)

end Sys2Proof.Laws
end

