-- ==== Sys2Proof/Laws/KeepRows.lean ====
section
/-! SUPPORT. What every operation keeps (`Kept`), one lemma for each: envelopes, the host port and what arrives on the chains. -/

namespace Sys2Proof.Laws

open Sys2Proof.Machine

set_option linter.all false

/-! ### Envelope.lean -/

theorem keep_relayDrop {a0 s : State} (h0 : Kept a0 s)  : Kept a0 (relayDrop s) := by simp (maxDischargeDepth := 40) only [relayDrop, h0, implies_true, Kept.refl, kept_mk, kept_regsFilter, keep_State_inc]

theorem keep_envNoSpace {a0 s : State} (h0 : Kept a0 s) (via : Via) (e : Envelope) : Kept a0 (envNoSpace via e s) := by simp (maxDischargeDepth := 40) only [envNoSpace, h0, implies_true, Kept.refl, kept_mk, kept_regsFilter, keep_replyRemote]

theorem keep_envTake {a0 s : State} (h0 : Kept a0 s) (via : Via) (e : Envelope) : Kept a0 (envTake via e s) := by simp (maxDischargeDepth := 40) only [envTake, h0, implies_true, Kept.refl, kept_mk, kept_regsFilter, keep_envAdmit, keep_envNoSpace, keep_runOpcode]

theorem keep_putRelay {a0 s : State} (h0 : Kept a0 s) (t : Tbl RelayEnt) : Kept a0 (putRelay t s) := by simp (maxDischargeDepth := 40) only [putRelay, h0, implies_true, Kept.refl, kept_mk, kept_regsFilter, keep_State_wr]

theorem keep_envRelay {a0 s : State} (h0 : Kept a0 s) (via : Via) (bs : List Byte) (e : Envelope) : Kept a0 (envRelay via bs e s) := by
  have hk := h0
  unfold envRelay
  repeat' (first
    | (simp (maxDischargeDepth := 40) only [h0, hk, implies_true, Kept.refl, kept_mk, kept_regsFilter, keep_putRelay, keep_relayDrop, keep_sendEnvelope]; done)
    | (split <;> (try (rename_i heq; have hq := congrArg (fun r => Kept a0 (Prod.snd r)) heq; clear heq; simp (maxDischargeDepth := 40) only [h0, hk, implies_true, Kept.refl, kept_mk, kept_regsFilter, keep_putRelay, keep_relayDrop, keep_sendEnvelope] at hq; first | replace hk := of_eq_true hq.symm | replace hk := hq)))
    | (refine kept_each ?_ ?_)
    | (refine kept_foldl ?_ ?_)
    | (refine kept_foldl2 ?_ ?_)
    | (intro _)
    | (dsimp only))

theorem keep_relayTimeout {a0 s : State} (h0 : Kept a0 s) (i : Nat) : Kept a0 (relayTimeout i s) := by
  unfold relayTimeout; split <;> simp (maxDischargeDepth := 40) only [h0, implies_true, Kept.refl, kept_mk, kept_regsFilter, keep_putRelay]

theorem keep_issuedAnswered {a0 s : State} (h0 : Kept a0 s) (x : Issued) (ws : List Word) : Kept a0 (issuedAnswered x ws s) := by
  have hk := h0
  unfold issuedAnswered
  repeat' (first
    | (simp (maxDischargeDepth := 40) only [h0, hk, implies_true, Kept.refl, kept_mk, kept_regsFilter, keep_partAnswer, keep_pullAbsent]; done)
    | (split <;> (try (rename_i heq; have hq := congrArg (fun r => Kept a0 (Prod.snd r)) heq; clear heq; simp (maxDischargeDepth := 40) only [h0, hk, implies_true, Kept.refl, kept_mk, kept_regsFilter, keep_partAnswer, keep_pullAbsent] at hq; first | replace hk := of_eq_true hq.symm | replace hk := hq)))
    | (refine kept_each ?_ ?_)
    | (refine kept_foldl ?_ ?_)
    | (refine kept_foldl2 ?_ ?_)
    | (intro _)
    | (dsimp only))

theorem keep_replyTake {a0 s : State} (h0 : Kept a0 s) (x : Issued) (e : Envelope) : Kept a0 (replyTake x e s) := by
  unfold replyTake; split <;> simp (maxDischargeDepth := 40) only [h0, implies_true, Kept.refl, kept_mk, kept_regsFilter, keep_issuedAnswered, keep_issuedDone, keep_replyCheck]

theorem keep_envReply {a0 s : State} (h0 : Kept a0 s) (bs : List Byte) (e : Envelope) : Kept a0 (envReply bs e s) := by
  have hk := h0
  unfold envReply
  repeat' (first
    | (simp (maxDischargeDepth := 40) only [h0, hk, implies_true, Kept.refl, kept_mk, kept_regsFilter, keep_authFail, keep_putRelay, keep_replyTake, keep_sendEnvelope]; done)
    | (split <;> (try (rename_i heq; have hq := congrArg (fun r => Kept a0 (Prod.snd r)) heq; clear heq; simp (maxDischargeDepth := 40) only [h0, hk, implies_true, Kept.refl, kept_mk, kept_regsFilter, keep_authFail, keep_putRelay, keep_replyTake, keep_sendEnvelope] at hq; first | replace hk := of_eq_true hq.symm | replace hk := hq)))
    | (refine kept_each ?_ ?_)
    | (refine kept_foldl ?_ ?_)
    | (refine kept_foldl2 ?_ ?_)
    | (intro _)
    | (dsimp only))

theorem keep_envelopeIn {a0 s : State} (h0 : Kept a0 s) (via : Via) (bs : List Byte) : Kept a0 (envelopeIn via bs s) := by
  have hk := h0
  unfold envelopeIn
  repeat' (first
    | (simp (maxDischargeDepth := 40) only [h0, hk, implies_true, Kept.refl, kept_mk, kept_regsFilter, keep_authFail, keep_envRelay, keep_envReply, keep_envTake]; done)
    | (split <;> (try (rename_i heq; have hq := congrArg (fun r => Kept a0 (Prod.snd r)) heq; clear heq; simp (maxDischargeDepth := 40) only [h0, hk, implies_true, Kept.refl, kept_mk, kept_regsFilter, keep_authFail, keep_envRelay, keep_envReply, keep_envTake] at hq; first | replace hk := of_eq_true hq.symm | replace hk := hq)))
    | (refine kept_each ?_ ?_)
    | (refine kept_foldl ?_ ?_)
    | (refine kept_foldl2 ?_ ?_)
    | (intro _)
    | (dsimp only))

/-! ### HostPort.lean -/

theorem keep_putLatch {a0 s : State} (h0 : Kept a0 s) (rq : Nat) (l : Option ReadLatch) : Kept a0 (putLatch rq l s) := by simp (maxDischargeDepth := 40) only [putLatch, h0, implies_true, Kept.refl, kept_mk, kept_regsFilter]

theorem keep_putHold {a0 s : State} (h0 : Kept a0 s) (rq : Nat) (l : Option WriteHold) : Kept a0 (putHold rq l s) := by simp (maxDischargeDepth := 40) only [putHold, h0, implies_true, Kept.refl, kept_mk, kept_regsFilter]

theorem keep_captureTime {a0 s : State} (h0 : Kept a0 s) (rq sub time : Nat) : Kept a0 (captureTime rq sub time s) := by simp (maxDischargeDepth := 40) only [captureTime, h0, implies_true, Kept.refl, kept_mk, kept_regsFilter]

theorem keep_readClear {a0 s : State} (h0 : Kept a0 s) (h : RegHit) : Kept a0 (readClear h s) := by
  unfold readClear; split <;> simp (maxDischargeDepth := 40) only [h0, implies_true, Kept.refl, kept_mk, kept_regsFilter, keep_State_wr]

theorem keep_liveCounter {a0 s : State} (h0 : Kept a0 s) (n : Nat) : Kept a0 (liveCounter n s).2 := by
  have hk := h0
  unfold liveCounter
  repeat' (first
    | (simp (maxDischargeDepth := 40) only [h0, hk, implies_true, Kept.refl, kept_mk, kept_regsFilter, keep_State_evt, keep_cdcTimed]; done)
    | (split <;> (try (rename_i heq; have hq := congrArg (fun r => Kept a0 (Prod.snd r)) heq; clear heq; simp (maxDischargeDepth := 40) only [h0, hk, implies_true, Kept.refl, kept_mk, kept_regsFilter, keep_State_evt, keep_cdcTimed] at hq; first | replace hk := of_eq_true hq.symm | replace hk := hq)))
    | (refine kept_each ?_ ?_)
    | (refine kept_foldl ?_ ?_)
    | (refine kept_foldl2 ?_ ?_)
    | (intro _)
    | (dsimp only))

theorem keep_readHalf {a0 s : State} (h0 : Kept a0 s) (rq low : Nat) (high : Bool) (v : Nat) : Kept a0 (readHalf rq low high v s).2 := by
  have hk := h0
  unfold readHalf
  repeat' (first
    | (simp (maxDischargeDepth := 40) only [h0, hk, implies_true, Kept.refl, kept_mk, kept_regsFilter, keep_putLatch]; done)
    | (split <;> (try (rename_i heq; have hq := congrArg (fun r => Kept a0 (Prod.snd r)) heq; clear heq; simp (maxDischargeDepth := 40) only [h0, hk, implies_true, Kept.refl, kept_mk, kept_regsFilter, keep_putLatch] at hq; first | replace hk := of_eq_true hq.symm | replace hk := hq)))
    | (refine kept_each ?_ ?_)
    | (refine kept_foldl ?_ ?_)
    | (refine kept_foldl2 ?_ ?_)
    | (intro _)
    | (dsimp only))

theorem keep_readReg32 {a0 s : State} (h0 : Kept a0 s) (rq : Nat) (h : RegHit) : Kept a0 (readReg32 rq h s).2 := by
  have hk := h0
  unfold readReg32
  repeat' (first
    | (simp (maxDischargeDepth := 40) only [h0, hk, implies_true, Kept.refl, kept_mk, kept_regsFilter, keep_captureTime, keep_readClear, keep_readHalf]; done)
    | (split <;> (try (rename_i heq; have hq := congrArg (fun r => Kept a0 (Prod.snd r)) heq; clear heq; simp (maxDischargeDepth := 40) only [h0, hk, implies_true, Kept.refl, kept_mk, kept_regsFilter, keep_captureTime, keep_readClear, keep_readHalf] at hq; first | replace hk := of_eq_true hq.symm | replace hk := hq)))
    | (refine kept_each ?_ ?_)
    | (refine kept_foldl ?_ ?_)
    | (refine kept_foldl2 ?_ ?_)
    | (intro _)
    | (dsimp only))

theorem keep_readReg64 {a0 s : State} (h0 : Kept a0 s) (rq : Nat) (h : RegHit) : Kept a0 (readReg64 rq h s).2 := by
  unfold readReg64; split <;> simp (maxDischargeDepth := 40) only [h0, implies_true, Kept.refl, kept_mk, kept_regsFilter, keep_captureTime, keep_readClear]

theorem keep_tierRead {a0 s : State} (h0 : Kept a0 s) (h : RegHit) (f : State → Nat × State) (hf : ∀ x0, Kept x0 (f x0).2) : Kept a0 (tierRead h f s).2 := by
  have hk := h0
  unfold tierRead
  repeat' (first
    | (simp (maxDischargeDepth := 40) only [h0, hf, fun (b : State) x0 (h : Kept b x0) => Kept.trans h (hf x0), hk, implies_true, Kept.refl, kept_mk, kept_regsFilter, keep_State_draw, keep_State_evt, keep_cdcTimed]; done)
    | (split <;> (try (rename_i heq; have hq := congrArg (fun r => Kept a0 (Prod.snd r)) heq; clear heq; simp (maxDischargeDepth := 40) only [h0, hf, fun (b : State) x0 (h : Kept b x0) => Kept.trans h (hf x0), hk, implies_true, Kept.refl, kept_mk, kept_regsFilter, keep_State_draw, keep_State_evt, keep_cdcTimed] at hq; first | replace hk := of_eq_true hq.symm | replace hk := hq)))
    | (refine kept_each ?_ ?_)
    | (refine kept_foldl ?_ ?_)
    | (refine kept_foldl2 ?_ ?_)
    | (intro _)
    | (dsimp only))

theorem keep_tierWrite {a0 s : State} (h0 : Kept a0 s) (h : RegHit) (f : State → State) (hf : ∀ x0, Kept x0 (f x0)) : Kept a0 (tierWrite h f s) := by
  have hk := h0
  unfold tierWrite
  repeat' (first
    | (simp (maxDischargeDepth := 40) only [h0, hf, fun (b : State) x0 (h : Kept b x0) => Kept.trans h (hf x0), hk, implies_true, Kept.refl, kept_mk, kept_regsFilter, keep_State_draw, keep_State_evt, keep_cdcTimed]; done)
    | (split <;> (try (rename_i heq; have hq := congrArg (fun r => Kept a0 (Prod.snd r)) heq; clear heq; simp (maxDischargeDepth := 40) only [h0, hf, fun (b : State) x0 (h : Kept b x0) => Kept.trans h (hf x0), hk, implies_true, Kept.refl, kept_mk, kept_regsFilter, keep_State_draw, keep_State_evt, keep_cdcTimed] at hq; first | replace hk := of_eq_true hq.symm | replace hk := hq)))
    | (refine kept_each ?_ ?_)
    | (refine kept_foldl ?_ ?_)
    | (refine kept_foldl2 ?_ ?_)
    | (intro _)
    | (dsimp only))

theorem keep_read32 {a0 s : State} (h0 : Kept a0 s) (rq off : Nat) : Kept a0 (read32 rq off s).2 := by
  have hk := h0
  unfold read32
  repeat' (first
    | (simp (maxDischargeDepth := 40) only [h0, hk, implies_true, Kept.refl, kept_mk, kept_regsFilter, keep_State_evt, keep_liveCounter, keep_readHalf, keep_readReg32, keep_tierRead]; done)
    | (split <;> (try (rename_i heq; have hq := congrArg (fun r => Kept a0 (Prod.snd r)) heq; clear heq; simp (maxDischargeDepth := 40) only [h0, hk, implies_true, Kept.refl, kept_mk, kept_regsFilter, keep_State_evt, keep_liveCounter, keep_readHalf, keep_readReg32, keep_tierRead] at hq; first | replace hk := of_eq_true hq.symm | replace hk := hq)))
    | (refine kept_each ?_ ?_)
    | (refine kept_foldl ?_ ?_)
    | (refine kept_foldl2 ?_ ?_)
    | (intro _)
    | (dsimp only))

theorem kept_snd {α : Type} {a0 t : State} (x : α) (h : Kept a0 t) : Kept a0 (x, t).2 := h

theorem keep_readHalves {a0 s : State} (h0 : Kept a0 s) (rq off : Nat) : Kept a0 (readHalves rq off s).2 := by
  rw [readHalves]
  exact kept_snd _ (keep_read32 (keep_read32 h0 _ _) _ _)

theorem keep_read64 {a0 s : State} (h0 : Kept a0 s) (rq off : Nat) : Kept a0 (read64 rq off s).2 := by
  have hk := h0
  unfold read64
  repeat' (first
    | (simp (maxDischargeDepth := 40) only [h0, hk, implies_true, Kept.refl, kept_mk, kept_regsFilter, keep_liveCounter, keep_readHalves, keep_readReg64, keep_tierRead]; done)
    | (split <;> (try (rename_i heq; have hq := congrArg (fun r => Kept a0 (Prod.snd r)) heq; clear heq; simp (maxDischargeDepth := 40) only [h0, hk, implies_true, Kept.refl, kept_mk, kept_regsFilter, keep_liveCounter, keep_readHalves, keep_readReg64, keep_tierRead] at hq; first | replace hk := of_eq_true hq.symm | replace hk := hq)))
    | (refine kept_each ?_ ?_)
    | (refine kept_foldl ?_ ?_)
    | (refine kept_foldl2 ?_ ?_)
    | (intro _)
    | (dsimp only))

theorem keep_hostRead {a0 s : State} (h0 : Kept a0 s) (rq off : Nat) (wide : Bool) : Kept a0 (hostRead rq off wide s) := by
  have hk := h0
  unfold hostRead
  repeat' (first
    | (simp (maxDischargeDepth := 40) only [h0, hk, implies_true, Kept.refl, kept_mk, kept_regsFilter, keep_State_emit, keep_State_evt, keep_read32, keep_read64]; done)
    | (split <;> (try (rename_i heq; have hq := congrArg (fun r => Kept a0 (Prod.snd r)) heq; clear heq; simp (maxDischargeDepth := 40) only [h0, hk, implies_true, Kept.refl, kept_mk, kept_regsFilter, keep_State_emit, keep_State_evt, keep_read32, keep_read64] at hq; first | replace hk := of_eq_true hq.symm | replace hk := hq)))
    | (refine kept_each ?_ ?_)
    | (refine kept_foldl ?_ ?_)
    | (refine kept_foldl2 ?_ ?_)
    | (intro _)
    | (dsimp only))

theorem keep_putReadPtr {a0 s : State} (h0 : Kept a0 s) (rd wr : Loc) (v : Nat) : Kept a0 (putReadPtr rd wr v s) := by
  unfold putReadPtr; split <;> simp (maxDischargeDepth := 40) only [h0, implies_true, Kept.refl, kept_mk, kept_regsFilter, keep_State_evt, keep_State_wr]

theorem keep_putDoneRd {a0 s : State} (h0 : Kept a0 s) (v : Nat) : Kept a0 (putDoneRd v s) := by
  have hk := h0
  unfold putDoneRd
  repeat' (first
    | (simp (maxDischargeDepth := 40) only [h0, hk, implies_true, Kept.refl, kept_mk, kept_regsFilter, keep_State_evt, keep_State_wr]; done)
    | (split <;> (try (rename_i heq; have hq := congrArg (fun r => Kept a0 (Prod.snd r)) heq; clear heq; simp (maxDischargeDepth := 40) only [h0, hk, implies_true, Kept.refl, kept_mk, kept_regsFilter, keep_State_evt, keep_State_wr] at hq; first | replace hk := of_eq_true hq.symm | replace hk := hq)))
    | (refine kept_each ?_ ?_)
    | (refine kept_foldl ?_ ?_)
    | (refine kept_foldl2 ?_ ?_)
    | (intro _)
    | (dsimp only))

theorem keep_writeReg {a0 s : State} (h0 : Kept a0 s) (h : RegHit) (v : Nat) : Kept a0 (writeReg h v s) := by
  have hk := h0
  unfold writeReg
  repeat' (first
    | (simp (maxDischargeDepth := 40) only [h0, hk, implies_true, Kept.refl, kept_mk, kept_regsFilter, keep_State_wr, keep_putDoneRd, keep_putReadPtr]; done)
    | (split <;> (try (rename_i heq; have hq := congrArg (fun r => Kept a0 (Prod.snd r)) heq; clear heq; simp (maxDischargeDepth := 40) only [h0, hk, implies_true, Kept.refl, kept_mk, kept_regsFilter, keep_State_wr, keep_putDoneRd, keep_putReadPtr] at hq; first | replace hk := of_eq_true hq.symm | replace hk := hq)))
    | (refine kept_each ?_ ?_)
    | (refine kept_foldl ?_ ?_)
    | (refine kept_foldl2 ?_ ?_)
    | (intro _)
    | (dsimp only))

theorem keep_writeHalf {a0 s : State} (h0 : Kept a0 s) (rq : Nat) (h : RegHit) (v : Nat) : Kept a0 (writeHalf rq h v s) := by
  have hk := h0
  unfold writeHalf
  repeat' (first
    | (simp (maxDischargeDepth := 40) only [h0, hk, implies_true, Kept.refl, kept_mk, kept_regsFilter, keep_putHold, keep_writeReg]; done)
    | (split <;> (try (rename_i heq; have hq := congrArg (fun r => Kept a0 (Prod.snd r)) heq; clear heq; simp (maxDischargeDepth := 40) only [h0, hk, implies_true, Kept.refl, kept_mk, kept_regsFilter, keep_putHold, keep_writeReg] at hq; first | replace hk := of_eq_true hq.symm | replace hk := hq)))
    | (refine kept_each ?_ ?_)
    | (refine kept_foldl ?_ ?_)
    | (refine kept_foldl2 ?_ ?_)
    | (intro _)
    | (dsimp only))

theorem keep_apertureWords {a0 s : State} (h0 : Kept a0 s) (auth a : Nat) (ws : List (Nat × Word)) : Kept a0 (apertureWords auth a ws s) := by
  have hk := h0
  unfold apertureWords
  repeat' (first
    | (simp (maxDischargeDepth := 40) only [h0, hk, implies_true, Kept.refl, kept_mk, kept_regsFilter, keep_State_evt, keep_State_inc, keep_State_setAperture, keep_runOpcode]; done)
    | (split <;> (try (rename_i heq; have hq := congrArg (fun r => Kept a0 (Prod.snd r)) heq; clear heq; simp (maxDischargeDepth := 40) only [h0, hk, implies_true, Kept.refl, kept_mk, kept_regsFilter, keep_State_evt, keep_State_inc, keep_State_setAperture, keep_runOpcode] at hq; first | replace hk := of_eq_true hq.symm | replace hk := hq)))
    | (refine kept_each ?_ ?_)
    | (refine kept_foldl ?_ ?_)
    | (refine kept_foldl2 ?_ ?_)
    | (intro _)
    | (dsimp only))

theorem keep_write32 {a0 s : State} (h0 : Kept a0 s) (rq off v : Nat) : Kept a0 (write32 rq off v s) := by
  have hk := h0
  unfold write32
  repeat' (first
    | (simp (maxDischargeDepth := 40) only [h0, hk, implies_true, Kept.refl, kept_mk, kept_regsFilter, keep_State_evt, keep_tierWrite, keep_writeHalf, keep_writeReg]; done)
    | (split <;> (try (rename_i heq; have hq := congrArg (fun r => Kept a0 (Prod.snd r)) heq; clear heq; simp (maxDischargeDepth := 40) only [h0, hk, implies_true, Kept.refl, kept_mk, kept_regsFilter, keep_State_evt, keep_tierWrite, keep_writeHalf, keep_writeReg] at hq; first | replace hk := of_eq_true hq.symm | replace hk := hq)))
    | (refine kept_each ?_ ?_)
    | (refine kept_foldl ?_ ?_)
    | (refine kept_foldl2 ?_ ?_)
    | (intro _)
    | (dsimp only))

theorem keep_writeHalves {a0 s : State} (h0 : Kept a0 s) (rq off v : Nat) : Kept a0 (writeHalves rq off v s) := by simp (maxDischargeDepth := 40) only [writeHalves, h0, implies_true, Kept.refl, kept_mk, kept_regsFilter, keep_write32]

theorem keep_write64 {a0 s : State} (h0 : Kept a0 s) (rq off v : Nat) : Kept a0 (write64 rq off v s) := by
  have hk := h0
  unfold write64
  repeat' (first
    | (simp (maxDischargeDepth := 40) only [h0, hk, implies_true, Kept.refl, kept_mk, kept_regsFilter, keep_tierWrite, keep_writeHalves, keep_writeReg]; done)
    | (split <;> (try (rename_i heq; have hq := congrArg (fun r => Kept a0 (Prod.snd r)) heq; clear heq; simp (maxDischargeDepth := 40) only [h0, hk, implies_true, Kept.refl, kept_mk, kept_regsFilter, keep_tierWrite, keep_writeHalves, keep_writeReg] at hq; first | replace hk := of_eq_true hq.symm | replace hk := hq)))
    | (refine kept_each ?_ ?_)
    | (refine kept_foldl ?_ ?_)
    | (refine kept_foldl2 ?_ ?_)
    | (intro _)
    | (dsimp only))

theorem keep_hostWrite {a0 s : State} (h0 : Kept a0 s) (auth rq off : Nat) (wide : Bool) (v : Nat) : Kept a0 (hostWrite auth rq off wide v s) := by
  have hk := h0
  unfold hostWrite
  repeat' (first
    | (simp (maxDischargeDepth := 40) only [h0, hk, implies_true, Kept.refl, kept_mk, kept_regsFilter, keep_State_evt, keep_apertureWords, keep_write32, keep_write64]; done)
    | (split <;> (try (rename_i heq; have hq := congrArg (fun r => Kept a0 (Prod.snd r)) heq; clear heq; simp (maxDischargeDepth := 40) only [h0, hk, implies_true, Kept.refl, kept_mk, kept_regsFilter, keep_State_evt, keep_apertureWords, keep_write32, keep_write64] at hq; first | replace hk := of_eq_true hq.symm | replace hk := hq)))
    | (refine kept_each ?_ ?_)
    | (refine kept_foldl ?_ ?_)
    | (refine kept_foldl2 ?_ ?_)
    | (intro _)
    | (dsimp only))

theorem keep_hostAccess {a0 s : State} (h0 : Kept a0 s) (rq off : Nat) (write : Bool) (size v : Nat) : Kept a0 (hostAccess rq off write size v s) := by
  have hk := h0
  unfold hostAccess
  repeat' (first
    | (simp (maxDischargeDepth := 40) only [h0, hk, implies_true, Kept.refl, kept_mk, kept_regsFilter, keep_State_emit, keep_State_evt, keep_hostRead, keep_hostWrite]; done)
    | (split <;> (try (rename_i heq; have hq := congrArg (fun r => Kept a0 (Prod.snd r)) heq; clear heq; simp (maxDischargeDepth := 40) only [h0, hk, implies_true, Kept.refl, kept_mk, kept_regsFilter, keep_State_emit, keep_State_evt, keep_hostRead, keep_hostWrite] at hq; first | replace hk := of_eq_true hq.symm | replace hk := hq)))
    | (refine kept_each ?_ ?_)
    | (refine kept_foldl ?_ ?_)
    | (refine kept_foldl2 ?_ ?_)
    | (intro _)
    | (dsimp only))

/-! ### Chain.lean -/

theorem keep_rulingMsg {a0 s : State} (h0 : Kept a0 s) (src parcel : Nat) (bs : List Byte) : Kept a0 (rulingMsg src parcel bs s) := by simp (maxDischargeDepth := 40) only [rulingMsg, h0, implies_true, Kept.refl, kept_mk, kept_regsFilter, keep_rulingArrive]

theorem keep_linkAlarmMsg {a0 s : State} (h0 : Kept a0 s) (ch src : Nat) (bs : List Byte) : Kept a0 (linkAlarmMsg ch src bs s) := by
  unfold linkAlarmMsg; split <;> simp (maxDischargeDepth := 40) only [h0, implies_true, Kept.refl, kept_mk, kept_regsFilter, keep_alarmIn, keep_linkAlarmReceive]

theorem keep_spliceMsg {a0 s : State} (h0 : Kept a0 s) (bs : List Byte) : Kept a0 (spliceMsg bs s) := by simp (maxDischargeDepth := 40) only [spliceMsg, h0, implies_true, Kept.refl, kept_mk, kept_regsFilter, keep_State_draw, keep_spliceAnn]

theorem keep_messageIn {a0 s : State} (h0 : Kept a0 s) (ch : Nat) (via : Via) (m : RxMsg) : Kept a0 (messageIn ch via m s) := by
  unfold messageIn
  dsimp only
  repeat' with_reducible refine kept_ite ?_ ?_
  all_goals first
    | exact h0
    | with_reducible exact keep_closureIn h0 ..
    | with_reducible exact keep_asleepIn h0 ..
    | with_reducible exact keep_seriesWrite h0 ..
    | with_reducible exact keep_excerptReceive h0 ..
    | with_reducible exact keep_bulkResend h0 ..
    | with_reducible exact keep_rulingMsg h0 ..
    | with_reducible exact keep_envelopeIn h0 ..
    | with_reducible exact keep_tmtAck h0 ..
    | with_reducible exact keep_alarmReceive h0 ..
    | with_reducible exact keep_linkAlarmMsg h0 ..
    | with_reducible exact keep_rollAck h0 ..
    | with_reducible exact keep_spliceMsg h0 ..
    | with_reducible exact keep_tmtListReceive h0 ..
    | with_reducible exact keep_rollReceive h0 ..
    | with_reducible exact keep_linkStateReceive h0 ..

theorem keep_cellMessage {a0 s : State} (h0 : Kept a0 s) (ch : Nat) (c : Cell) : Kept a0 (cellMessage ch c s).2 := by
  have hk := h0
  unfold cellMessage
  repeat' (first
    | (simp (maxDischargeDepth := 40) only [h0, hk, implies_true, Kept.refl, kept_mk, kept_regsFilter, keep_assemble, keep_bulkCell, keep_bulkResent, keep_seqNote]; done)
    | (split <;> (try (rename_i heq; have hq := congrArg (fun r => Kept a0 (Prod.snd r)) heq; clear heq; simp (maxDischargeDepth := 40) only [h0, hk, implies_true, Kept.refl, kept_mk, kept_regsFilter, keep_assemble, keep_bulkCell, keep_bulkResent, keep_seqNote] at hq; first | replace hk := of_eq_true hq.symm | replace hk := hq)))
    | (refine kept_each ?_ ?_)
    | (refine kept_foldl ?_ ?_)
    | (refine kept_foldl2 ?_ ?_)
    | (intro _)
    | (dsimp only))

theorem keep_cellPassed {a0 s : State} (h0 : Kept a0 s) (ch : Nat) (c : Cell) : Kept a0 (cellPassed ch c s) := by
  have hk := h0
  unfold cellPassed
  repeat' (first
    | (simp (maxDischargeDepth := 40) only [h0, hk, implies_true, Kept.refl, kept_mk, kept_regsFilter, keep_State_setChain, keep_seqNote]; done)
    | (split <;> (try (rename_i heq; have hq := congrArg (fun r => Kept a0 (Prod.snd r)) heq; clear heq; simp (maxDischargeDepth := 40) only [h0, hk, implies_true, Kept.refl, kept_mk, kept_regsFilter, keep_State_setChain, keep_seqNote] at hq; first | replace hk := of_eq_true hq.symm | replace hk := hq)))
    | (refine kept_each ?_ ?_)
    | (refine kept_foldl ?_ ?_)
    | (refine kept_foldl2 ?_ ?_)
    | (intro _)
    | (dsimp only))

theorem keep_cellTake {a0 s : State} (h0 : Kept a0 s) (ch : Nat) (via : Via) (c : Cell) : Kept a0 (cellTake ch via c s) := by
  have hk := h0
  unfold cellTake
  repeat' (first
    | (simp (maxDischargeDepth := 40) only [h0, hk, implies_true, Kept.refl, kept_mk, kept_regsFilter, keep_cellMessage, keep_messageIn]; done)
    | (split <;> (try (rename_i heq; have hq := congrArg (fun r => Kept a0 (Prod.snd r)) heq; clear heq; simp (maxDischargeDepth := 40) only [h0, hk, implies_true, Kept.refl, kept_mk, kept_regsFilter, keep_cellMessage, keep_messageIn] at hq; first | replace hk := of_eq_true hq.symm | replace hk := hq)))
    | (refine kept_each ?_ ?_)
    | (refine kept_foldl ?_ ?_)
    | (refine kept_foldl2 ?_ ?_)
    | (intro _)
    | (dsimp only))

theorem keep_trayCell {a0 s : State} (h0 : Kept a0 s) (ch : Nat) (c : Cell) : Kept a0 (trayCell ch c s) := by
  have hk := h0
  unfold trayCell
  repeat' (first
    | (simp (maxDischargeDepth := 40) only [h0, hk, implies_true, Kept.refl, kept_mk, kept_regsFilter, keep_State_inc, keep_cellPassed, keep_cellTake]; done)
    | (split <;> (try (rename_i heq; have hq := congrArg (fun r => Kept a0 (Prod.snd r)) heq; clear heq; simp (maxDischargeDepth := 40) only [h0, hk, implies_true, Kept.refl, kept_mk, kept_regsFilter, keep_State_inc, keep_cellPassed, keep_cellTake] at hq; first | replace hk := of_eq_true hq.symm | replace hk := hq)))
    | (refine kept_each ?_ ?_)
    | (refine kept_foldl ?_ ?_)
    | (refine kept_foldl2 ?_ ?_)
    | (intro _)
    | (dsimp only))

theorem keep_leafCell {a0 s : State} (h0 : Kept a0 s) (ch : Nat) (c : Cell) : Kept a0 (leafCell ch c s) := by
  have hk := h0
  unfold leafCell
  repeat' (first
    | (simp (maxDischargeDepth := 40) only [h0, hk, implies_true, Kept.refl, kept_mk, kept_regsFilter, keep_State_inc, keep_cellPassed, keep_cellTake]; done)
    | (split <;> (try (rename_i heq; have hq := congrArg (fun r => Kept a0 (Prod.snd r)) heq; clear heq; simp (maxDischargeDepth := 40) only [h0, hk, implies_true, Kept.refl, kept_mk, kept_regsFilter, keep_State_inc, keep_cellPassed, keep_cellTake] at hq; first | replace hk := of_eq_true hq.symm | replace hk := hq)))
    | (refine kept_each ?_ ?_)
    | (refine kept_foldl ?_ ?_)
    | (refine kept_foldl2 ?_ ?_)
    | (intro _)
    | (dsimp only))

theorem keep_cellReceive {a0 s : State} (h0 : Kept a0 s) (ch : Nat) (bs : List Byte) : Kept a0 (cellReceive ch bs s) := by
  have hk := h0
  unfold cellReceive
  repeat' (first
    | (simp (maxDischargeDepth := 40) only [h0, hk, implies_true, Kept.refl, kept_mk, kept_regsFilter, keep_State_evt, keep_State_inc, keep_leafCell, keep_trayCell]; done)
    | (split <;> (try (rename_i heq; have hq := congrArg (fun r => Kept a0 (Prod.snd r)) heq; clear heq; simp (maxDischargeDepth := 40) only [h0, hk, implies_true, Kept.refl, kept_mk, kept_regsFilter, keep_State_evt, keep_State_inc, keep_leafCell, keep_trayCell] at hq; first | replace hk := of_eq_true hq.symm | replace hk := hq)))
    | (refine kept_each ?_ ?_)
    | (refine kept_foldl ?_ ?_)
    | (refine kept_foldl2 ?_ ?_)
    | (intro _)
    | (dsimp only))

theorem keep_landingCellIn {a0 s : State} (h0 : Kept a0 s) (a : LndAddr) (bs : List Byte) : Kept a0 (landingCellIn a bs s) := by
  have hk := h0
  unfold landingCellIn
  repeat' (first
    | (simp (maxDischargeDepth := 40) only [h0, hk, implies_true, Kept.refl, kept_mk, kept_regsFilter, keep_cellTake]; done)
    | (split <;> (try (rename_i heq; have hq := congrArg (fun r => Kept a0 (Prod.snd r)) heq; clear heq; simp (maxDischargeDepth := 40) only [h0, hk, implies_true, Kept.refl, kept_mk, kept_regsFilter, keep_cellTake] at hq; first | replace hk := of_eq_true hq.symm | replace hk := hq)))
    | (refine kept_each ?_ ?_)
    | (refine kept_foldl ?_ ?_)
    | (refine kept_foldl2 ?_ ?_)
    | (intro _)
    | (dsimp only))

theorem keep_timeWordIn {a0 s : State} (h0 : Kept a0 s) (sd : Side) (blocks : List Block) (rx tx : Nat) : Kept a0 (timeWordIn sd blocks rx tx s) := by
  have hk := h0
  unfold timeWordIn
  repeat' (first
    | (simp (maxDischargeDepth := 40) only [h0, hk, implies_true, Kept.refl, kept_mk, kept_regsFilter, keep_headlessExit, keep_timeWordReceive]; done)
    | (split <;> (try (rename_i heq; have hq := congrArg (fun r => Kept a0 (Prod.snd r)) heq; clear heq; simp (maxDischargeDepth := 40) only [h0, hk, implies_true, Kept.refl, kept_mk, kept_regsFilter, keep_headlessExit, keep_timeWordReceive] at hq; first | replace hk := of_eq_true hq.symm | replace hk := hq)))
    | (refine kept_each ?_ ?_)
    | (refine kept_foldl ?_ ?_)
    | (refine kept_foldl2 ?_ ?_)
    | (intro _)
    | (dsimp only))

theorem keep_timeWordBack {a0 s : State} (h0 : Kept a0 s) (ch : Nat) (blocks : List Block) (rx : Nat) : Kept a0 (timeWordBack ch blocks rx s) := by
  have hk := h0
  unfold timeWordBack
  repeat' (first
    | (simp (maxDischargeDepth := 40) only [h0, hk, implies_true, Kept.refl, kept_mk, kept_regsFilter, keep_State_inc, keep_hopCheck, keep_wordReturn]; done)
    | (split <;> (try (rename_i heq; have hq := congrArg (fun r => Kept a0 (Prod.snd r)) heq; clear heq; simp (maxDischargeDepth := 40) only [h0, hk, implies_true, Kept.refl, kept_mk, kept_regsFilter, keep_State_inc, keep_hopCheck, keep_wordReturn] at hq; first | replace hk := of_eq_true hq.symm | replace hk := hq)))
    | (refine kept_each ?_ ?_)
    | (refine kept_foldl ?_ ?_)
    | (refine kept_foldl2 ?_ ?_)
    | (intro _)
    | (dsimp only))

theorem keep_chainCycle {a0 s : State} (h0 : Kept a0 s) (cyc : Nat) (aligned : List Nat) (ch : Nat) : Kept a0 (chainCycle cyc aligned ch s) := by
  unfold chainCycle
  refine keep_bulkRetry ?_ _ _
  have h1 := keep_swapJobs (keep_cycleStart (keep_badHeaders (keep_State_draw h0) ch s.draw.1.toNat) ch cyc (aligned.contains ch)) ch cyc
  exact kept_ite (keep_rollExtra (keep_announceDue h1 _) _) h1

theorem keep_timetableCycle {a0 s : State} (h0 : Kept a0 s) (cyc : Nat) (aligned : List Nat) : Kept a0 (timetableCycle cyc aligned s) := by
  have hk := h0
  unfold timetableCycle
  repeat' (first
    | (simp (maxDischargeDepth := 40) only [h0, hk, implies_true, Kept.refl, kept_mk, kept_regsFilter, keep_State_each, keep_bulkRetry, keep_chainCycle, keep_lndSwapDue]; done)
    | (split <;> (try (rename_i heq; have hq := congrArg (fun r => Kept a0 (Prod.snd r)) heq; clear heq; simp (maxDischargeDepth := 40) only [h0, hk, implies_true, Kept.refl, kept_mk, kept_regsFilter, keep_State_each, keep_bulkRetry, keep_chainCycle, keep_lndSwapDue] at hq; first | replace hk := of_eq_true hq.symm | replace hk := hq)))
    | (refine kept_each ?_ ?_)
    | (refine kept_foldl ?_ ?_)
    | (refine kept_foldl2 ?_ ?_)
    | (intro _)
    | (dsimp only))

theorem keep_beatRise {a0 s : State} (h0 : Kept a0 s) (n edge : Nat) : Kept a0 (beatRise n edge s) := by
  unfold beatRise; split <;> simp (maxDischargeDepth := 40) only [h0, implies_true, Kept.refl, kept_mk, kept_regsFilter, keep_beatStamped, keep_wakEvents]

theorem keep_onChain {a0 s : State} (h0 : Kept a0 s) (ch : Nat) (f : State → State) (hf : ∀ x0, Kept x0 (f x0)) : Kept a0 (onChain ch f s) := by
  unfold onChain; split <;> simp (maxDischargeDepth := 40) only [h0, hf, fun (b : State) x0 (h : Kept b x0) => Kept.trans h (hf x0), implies_true, Kept.refl, kept_mk, kept_regsFilter]

theorem keep_finalReply {a0 s : State} (h0 : Kept a0 s) (id : Nat) : Kept a0 (finalReply id s) := by
  have hk := h0
  unfold finalReply
  repeat' (first
    | (simp (maxDischargeDepth := 40) only [h0, hk, implies_true, Kept.refl, kept_mk, kept_regsFilter, keep_bulkJobDone, keep_deliverFinal, keep_powerSetDone, keep_timeProbeDone, keep_trnRunDone, keep_wakeDisarmDone]; done)
    | (split <;> (try (rename_i heq; have hq := congrArg (fun r => Kept a0 (Prod.snd r)) heq; clear heq; simp (maxDischargeDepth := 40) only [h0, hk, implies_true, Kept.refl, kept_mk, kept_regsFilter, keep_bulkJobDone, keep_deliverFinal, keep_powerSetDone, keep_timeProbeDone, keep_trnRunDone, keep_wakeDisarmDone] at hq; first | replace hk := of_eq_true hq.symm | replace hk := hq)))
    | (refine kept_each ?_ ?_)
    | (refine kept_foldl ?_ ?_)
    | (refine kept_foldl2 ?_ ?_)
    | (intro _)
    | (dsimp only))

end Sys2Proof.Laws
end

