-- ==== Sys2Proof/Laws/State.lean ====
section
/-! SUPPORT. What each named operation over the state leaves as it was, field by field, and what a register reads after a
write. -/

namespace Sys2Proof.Laws

open Sys2Proof.Machine

/-! ### Fields -/

@[simp] theorem wr_build (s : State) (l : Loc) (v : Nat) : (s.wr l v).build = s.build := rfl
@[simp] theorem wr_pending (s : State) (l : Loc) (v : Nat) : (s.wr l v).pending = s.pending := rfl
@[simp] theorem wr_pil (s : State) (l : Loc) (v : Nat) : (s.wr l v).pil = s.pil := rfl
@[simp] theorem wr_adm (s : State) (l : Loc) (v : Nat) : (s.wr l v).adm = s.adm := rfl
@[simp] theorem wr_dat (s : State) (l : Loc) (v : Nat) : (s.wr l v).dat = s.dat := rfl
@[simp] theorem wr_chains (s : State) (l : Loc) (v : Nat) : (s.wr l v).chains = s.chains := rfl
@[simp] theorem wr_log (s : State) (l : Loc) (v : Nat) : (s.wr l v).log = s.log := rfl
@[simp] theorem wr_plm (s : State) (l : Loc) (v : Nat) : (s.wr l v).plm = s.plm := rfl
@[simp] theorem wr_flt (s : State) (l : Loc) (v : Nat) : (s.wr l v).flt = s.flt := rfl
@[simp] theorem wr_brt (s : State) (l : Loc) (v : Nat) : (s.wr l v).brt = s.brt := rfl
@[simp] theorem wr_brtWait (s : State) (l : Loc) (v : Nat) : (s.wr l v).brtWait = s.brtWait := rfl
@[simp] theorem wr_lnd (s : State) (l : Loc) (v : Nat) : (s.wr l v).lnd = s.lnd := rfl
@[simp] theorem wr_vrd (s : State) (l : Loc) (v : Nat) : (s.wr l v).vrd = s.vrd := rfl
@[simp] theorem wr_wak (s : State) (l : Loc) (v : Nat) : (s.wr l v).wak = s.wak := rfl
@[simp] theorem wr_tap (s : State) (l : Loc) (v : Nat) : (s.wr l v).tap = s.tap := rfl
@[simp] theorem wr_par (s : State) (l : Loc) (v : Nat) : (s.wr l v).par = s.par := rfl
@[simp] theorem wr_cad (s : State) (l : Loc) (v : Nat) : (s.wr l v).cad = s.cad := rfl
@[simp] theorem wr_trn (s : State) (l : Loc) (v : Nat) : (s.wr l v).trn = s.trn := rfl
@[simp] theorem wr_wit (s : State) (l : Loc) (v : Nat) : (s.wr l v).wit = s.wit := rfl
@[simp] theorem wr_todo (s : State) (l : Loc) (v : Nat) : (s.wr l v).todo = s.todo := rfl
@[simp] theorem wr_pins (s : State) (l : Loc) (v : Nat) : (s.wr l v).pins = s.pins := rfl
@[simp] theorem wr_hostMem (s : State) (l : Loc) (v : Nat) : (s.wr l v).hostMem = s.hostMem := rfl
@[simp] theorem wr_holdMem (s : State) (l : Loc) (v : Nat) : (s.wr l v).holdMem = s.holdMem := rfl
@[simp] theorem wr_otpBond (s : State) (l : Loc) (v : Nat) : (s.wr l v).otpBond = s.otpBond := rfl
@[simp] theorem wr_out (s : State) (l : Loc) (v : Nat) : (s.wr l v).out = s.out := rfl
@[simp] theorem wr_free (s : State) (l : Loc) (v : Nat) : (s.wr l v).free = s.free := rfl

@[simp] theorem setF_build (s : State) (l : Loc) (lo len x : Nat) : (s.setF l lo len x).build = s.build := rfl
@[simp] theorem setF_pending (s : State) (l : Loc) (lo len x : Nat) : (s.setF l lo len x).pending = s.pending := rfl
@[simp] theorem setF_pil (s : State) (l : Loc) (lo len x : Nat) : (s.setF l lo len x).pil = s.pil := rfl
@[simp] theorem setF_adm (s : State) (l : Loc) (lo len x : Nat) : (s.setF l lo len x).adm = s.adm := rfl
@[simp] theorem setF_dat (s : State) (l : Loc) (lo len x : Nat) : (s.setF l lo len x).dat = s.dat := rfl
@[simp] theorem setF_chains (s : State) (l : Loc) (lo len x : Nat) : (s.setF l lo len x).chains = s.chains := rfl
@[simp] theorem setF_log (s : State) (l : Loc) (lo len x : Nat) : (s.setF l lo len x).log = s.log := rfl
@[simp] theorem setF_plm (s : State) (l : Loc) (lo len x : Nat) : (s.setF l lo len x).plm = s.plm := rfl
@[simp] theorem setF_flt (s : State) (l : Loc) (lo len x : Nat) : (s.setF l lo len x).flt = s.flt := rfl
@[simp] theorem setF_brt (s : State) (l : Loc) (lo len x : Nat) : (s.setF l lo len x).brt = s.brt := rfl
@[simp] theorem setF_brtWait (s : State) (l : Loc) (lo len x : Nat) : (s.setF l lo len x).brtWait = s.brtWait := rfl
@[simp] theorem setF_lnd (s : State) (l : Loc) (lo len x : Nat) : (s.setF l lo len x).lnd = s.lnd := rfl
@[simp] theorem setF_vrd (s : State) (l : Loc) (lo len x : Nat) : (s.setF l lo len x).vrd = s.vrd := rfl
@[simp] theorem setF_wak (s : State) (l : Loc) (lo len x : Nat) : (s.setF l lo len x).wak = s.wak := rfl
@[simp] theorem setF_tap (s : State) (l : Loc) (lo len x : Nat) : (s.setF l lo len x).tap = s.tap := rfl
@[simp] theorem setF_par (s : State) (l : Loc) (lo len x : Nat) : (s.setF l lo len x).par = s.par := rfl
@[simp] theorem setF_cad (s : State) (l : Loc) (lo len x : Nat) : (s.setF l lo len x).cad = s.cad := rfl
@[simp] theorem setF_trn (s : State) (l : Loc) (lo len x : Nat) : (s.setF l lo len x).trn = s.trn := rfl
@[simp] theorem setF_wit (s : State) (l : Loc) (lo len x : Nat) : (s.setF l lo len x).wit = s.wit := rfl
@[simp] theorem setF_todo (s : State) (l : Loc) (lo len x : Nat) : (s.setF l lo len x).todo = s.todo := rfl
@[simp] theorem setF_pins (s : State) (l : Loc) (lo len x : Nat) : (s.setF l lo len x).pins = s.pins := rfl
@[simp] theorem setF_hostMem (s : State) (l : Loc) (lo len x : Nat) : (s.setF l lo len x).hostMem = s.hostMem := rfl
@[simp] theorem setF_holdMem (s : State) (l : Loc) (lo len x : Nat) : (s.setF l lo len x).holdMem = s.holdMem := rfl
@[simp] theorem setF_otpBond (s : State) (l : Loc) (lo len x : Nat) : (s.setF l lo len x).otpBond = s.otpBond := rfl
@[simp] theorem setF_out (s : State) (l : Loc) (lo len x : Nat) : (s.setF l lo len x).out = s.out := rfl
@[simp] theorem setF_free (s : State) (l : Loc) (lo len x : Nat) : (s.setF l lo len x).free = s.free := rfl

@[simp] theorem evt_build (s : State) (l : Loc) (i : Nat) : (s.evt l i).build = s.build := rfl
@[simp] theorem evt_pending (s : State) (l : Loc) (i : Nat) : (s.evt l i).pending = s.pending := rfl
@[simp] theorem evt_pil (s : State) (l : Loc) (i : Nat) : (s.evt l i).pil = s.pil := rfl
@[simp] theorem evt_adm (s : State) (l : Loc) (i : Nat) : (s.evt l i).adm = s.adm := rfl
@[simp] theorem evt_dat (s : State) (l : Loc) (i : Nat) : (s.evt l i).dat = s.dat := rfl
@[simp] theorem evt_chains (s : State) (l : Loc) (i : Nat) : (s.evt l i).chains = s.chains := rfl
@[simp] theorem evt_log (s : State) (l : Loc) (i : Nat) : (s.evt l i).log = s.log := rfl
@[simp] theorem evt_plm (s : State) (l : Loc) (i : Nat) : (s.evt l i).plm = s.plm := rfl
@[simp] theorem evt_flt (s : State) (l : Loc) (i : Nat) : (s.evt l i).flt = s.flt := rfl
@[simp] theorem evt_brt (s : State) (l : Loc) (i : Nat) : (s.evt l i).brt = s.brt := rfl
@[simp] theorem evt_brtWait (s : State) (l : Loc) (i : Nat) : (s.evt l i).brtWait = s.brtWait := rfl
@[simp] theorem evt_lnd (s : State) (l : Loc) (i : Nat) : (s.evt l i).lnd = s.lnd := rfl
@[simp] theorem evt_vrd (s : State) (l : Loc) (i : Nat) : (s.evt l i).vrd = s.vrd := rfl
@[simp] theorem evt_wak (s : State) (l : Loc) (i : Nat) : (s.evt l i).wak = s.wak := rfl
@[simp] theorem evt_tap (s : State) (l : Loc) (i : Nat) : (s.evt l i).tap = s.tap := rfl
@[simp] theorem evt_par (s : State) (l : Loc) (i : Nat) : (s.evt l i).par = s.par := rfl
@[simp] theorem evt_cad (s : State) (l : Loc) (i : Nat) : (s.evt l i).cad = s.cad := rfl
@[simp] theorem evt_trn (s : State) (l : Loc) (i : Nat) : (s.evt l i).trn = s.trn := rfl
@[simp] theorem evt_wit (s : State) (l : Loc) (i : Nat) : (s.evt l i).wit = s.wit := rfl
@[simp] theorem evt_todo (s : State) (l : Loc) (i : Nat) : (s.evt l i).todo = s.todo := rfl
@[simp] theorem evt_pins (s : State) (l : Loc) (i : Nat) : (s.evt l i).pins = s.pins := rfl
@[simp] theorem evt_hostMem (s : State) (l : Loc) (i : Nat) : (s.evt l i).hostMem = s.hostMem := rfl
@[simp] theorem evt_holdMem (s : State) (l : Loc) (i : Nat) : (s.evt l i).holdMem = s.holdMem := rfl
@[simp] theorem evt_otpBond (s : State) (l : Loc) (i : Nat) : (s.evt l i).otpBond = s.otpBond := rfl
@[simp] theorem evt_out (s : State) (l : Loc) (i : Nat) : (s.evt l i).out = s.out := rfl
@[simp] theorem evt_free (s : State) (l : Loc) (i : Nat) : (s.evt l i).free = s.free := rfl

@[simp] theorem putB_build (s : State) (l : Loc) (i : Nat) (b : Bool) : (s.putB l i b).build = s.build := rfl
@[simp] theorem putB_pending (s : State) (l : Loc) (i : Nat) (b : Bool) : (s.putB l i b).pending = s.pending := rfl
@[simp] theorem putB_pil (s : State) (l : Loc) (i : Nat) (b : Bool) : (s.putB l i b).pil = s.pil := rfl
@[simp] theorem putB_adm (s : State) (l : Loc) (i : Nat) (b : Bool) : (s.putB l i b).adm = s.adm := rfl
@[simp] theorem putB_dat (s : State) (l : Loc) (i : Nat) (b : Bool) : (s.putB l i b).dat = s.dat := rfl
@[simp] theorem putB_chains (s : State) (l : Loc) (i : Nat) (b : Bool) : (s.putB l i b).chains = s.chains := rfl
@[simp] theorem putB_log (s : State) (l : Loc) (i : Nat) (b : Bool) : (s.putB l i b).log = s.log := rfl
@[simp] theorem putB_plm (s : State) (l : Loc) (i : Nat) (b : Bool) : (s.putB l i b).plm = s.plm := rfl
@[simp] theorem putB_flt (s : State) (l : Loc) (i : Nat) (b : Bool) : (s.putB l i b).flt = s.flt := rfl
@[simp] theorem putB_brt (s : State) (l : Loc) (i : Nat) (b : Bool) : (s.putB l i b).brt = s.brt := rfl
@[simp] theorem putB_brtWait (s : State) (l : Loc) (i : Nat) (b : Bool) : (s.putB l i b).brtWait = s.brtWait := rfl
@[simp] theorem putB_lnd (s : State) (l : Loc) (i : Nat) (b : Bool) : (s.putB l i b).lnd = s.lnd := rfl
@[simp] theorem putB_vrd (s : State) (l : Loc) (i : Nat) (b : Bool) : (s.putB l i b).vrd = s.vrd := rfl
@[simp] theorem putB_wak (s : State) (l : Loc) (i : Nat) (b : Bool) : (s.putB l i b).wak = s.wak := rfl
@[simp] theorem putB_tap (s : State) (l : Loc) (i : Nat) (b : Bool) : (s.putB l i b).tap = s.tap := rfl
@[simp] theorem putB_par (s : State) (l : Loc) (i : Nat) (b : Bool) : (s.putB l i b).par = s.par := rfl
@[simp] theorem putB_cad (s : State) (l : Loc) (i : Nat) (b : Bool) : (s.putB l i b).cad = s.cad := rfl
@[simp] theorem putB_trn (s : State) (l : Loc) (i : Nat) (b : Bool) : (s.putB l i b).trn = s.trn := rfl
@[simp] theorem putB_wit (s : State) (l : Loc) (i : Nat) (b : Bool) : (s.putB l i b).wit = s.wit := rfl
@[simp] theorem putB_todo (s : State) (l : Loc) (i : Nat) (b : Bool) : (s.putB l i b).todo = s.todo := rfl
@[simp] theorem putB_pins (s : State) (l : Loc) (i : Nat) (b : Bool) : (s.putB l i b).pins = s.pins := rfl
@[simp] theorem putB_hostMem (s : State) (l : Loc) (i : Nat) (b : Bool) : (s.putB l i b).hostMem = s.hostMem := rfl
@[simp] theorem putB_holdMem (s : State) (l : Loc) (i : Nat) (b : Bool) : (s.putB l i b).holdMem = s.holdMem := rfl
@[simp] theorem putB_otpBond (s : State) (l : Loc) (i : Nat) (b : Bool) : (s.putB l i b).otpBond = s.otpBond := rfl
@[simp] theorem putB_out (s : State) (l : Loc) (i : Nat) (b : Bool) : (s.putB l i b).out = s.out := rfl
@[simp] theorem putB_free (s : State) (l : Loc) (i : Nat) (b : Bool) : (s.putB l i b).free = s.free := rfl

@[simp] theorem inc_build (s : State) (l : Loc) (n : Nat) : (s.inc l n).build = s.build := rfl
@[simp] theorem inc_pending (s : State) (l : Loc) (n : Nat) : (s.inc l n).pending = s.pending := rfl
@[simp] theorem inc_pil (s : State) (l : Loc) (n : Nat) : (s.inc l n).pil = s.pil := rfl
@[simp] theorem inc_adm (s : State) (l : Loc) (n : Nat) : (s.inc l n).adm = s.adm := rfl
@[simp] theorem inc_dat (s : State) (l : Loc) (n : Nat) : (s.inc l n).dat = s.dat := rfl
@[simp] theorem inc_chains (s : State) (l : Loc) (n : Nat) : (s.inc l n).chains = s.chains := rfl
@[simp] theorem inc_log (s : State) (l : Loc) (n : Nat) : (s.inc l n).log = s.log := rfl
@[simp] theorem inc_plm (s : State) (l : Loc) (n : Nat) : (s.inc l n).plm = s.plm := rfl
@[simp] theorem inc_flt (s : State) (l : Loc) (n : Nat) : (s.inc l n).flt = s.flt := rfl
@[simp] theorem inc_brt (s : State) (l : Loc) (n : Nat) : (s.inc l n).brt = s.brt := rfl
@[simp] theorem inc_brtWait (s : State) (l : Loc) (n : Nat) : (s.inc l n).brtWait = s.brtWait := rfl
@[simp] theorem inc_lnd (s : State) (l : Loc) (n : Nat) : (s.inc l n).lnd = s.lnd := rfl
@[simp] theorem inc_vrd (s : State) (l : Loc) (n : Nat) : (s.inc l n).vrd = s.vrd := rfl
@[simp] theorem inc_wak (s : State) (l : Loc) (n : Nat) : (s.inc l n).wak = s.wak := rfl
@[simp] theorem inc_tap (s : State) (l : Loc) (n : Nat) : (s.inc l n).tap = s.tap := rfl
@[simp] theorem inc_par (s : State) (l : Loc) (n : Nat) : (s.inc l n).par = s.par := rfl
@[simp] theorem inc_cad (s : State) (l : Loc) (n : Nat) : (s.inc l n).cad = s.cad := rfl
@[simp] theorem inc_trn (s : State) (l : Loc) (n : Nat) : (s.inc l n).trn = s.trn := rfl
@[simp] theorem inc_wit (s : State) (l : Loc) (n : Nat) : (s.inc l n).wit = s.wit := rfl
@[simp] theorem inc_todo (s : State) (l : Loc) (n : Nat) : (s.inc l n).todo = s.todo := rfl
@[simp] theorem inc_pins (s : State) (l : Loc) (n : Nat) : (s.inc l n).pins = s.pins := rfl
@[simp] theorem inc_hostMem (s : State) (l : Loc) (n : Nat) : (s.inc l n).hostMem = s.hostMem := rfl
@[simp] theorem inc_holdMem (s : State) (l : Loc) (n : Nat) : (s.inc l n).holdMem = s.holdMem := rfl
@[simp] theorem inc_otpBond (s : State) (l : Loc) (n : Nat) : (s.inc l n).otpBond = s.otpBond := rfl
@[simp] theorem inc_out (s : State) (l : Loc) (n : Nat) : (s.inc l n).out = s.out := rfl
@[simp] theorem inc_free (s : State) (l : Loc) (n : Nat) : (s.inc l n).free = s.free := rfl

@[simp] theorem emit_build (s : State) (o : Out) : (s.emit o).build = s.build := rfl
@[simp] theorem emit_pending (s : State) (o : Out) : (s.emit o).pending = s.pending := rfl
@[simp] theorem emit_regs (s : State) (o : Out) : (s.emit o).regs = s.regs := rfl
@[simp] theorem emit_pil (s : State) (o : Out) : (s.emit o).pil = s.pil := rfl
@[simp] theorem emit_adm (s : State) (o : Out) : (s.emit o).adm = s.adm := rfl
@[simp] theorem emit_dat (s : State) (o : Out) : (s.emit o).dat = s.dat := rfl
@[simp] theorem emit_chains (s : State) (o : Out) : (s.emit o).chains = s.chains := rfl
@[simp] theorem emit_log (s : State) (o : Out) : (s.emit o).log = s.log := rfl
@[simp] theorem emit_plm (s : State) (o : Out) : (s.emit o).plm = s.plm := rfl
@[simp] theorem emit_flt (s : State) (o : Out) : (s.emit o).flt = s.flt := rfl
@[simp] theorem emit_brt (s : State) (o : Out) : (s.emit o).brt = s.brt := rfl
@[simp] theorem emit_brtWait (s : State) (o : Out) : (s.emit o).brtWait = s.brtWait := rfl
@[simp] theorem emit_lnd (s : State) (o : Out) : (s.emit o).lnd = s.lnd := rfl
@[simp] theorem emit_vrd (s : State) (o : Out) : (s.emit o).vrd = s.vrd := rfl
@[simp] theorem emit_wak (s : State) (o : Out) : (s.emit o).wak = s.wak := rfl
@[simp] theorem emit_tap (s : State) (o : Out) : (s.emit o).tap = s.tap := rfl
@[simp] theorem emit_par (s : State) (o : Out) : (s.emit o).par = s.par := rfl
@[simp] theorem emit_cad (s : State) (o : Out) : (s.emit o).cad = s.cad := rfl
@[simp] theorem emit_trn (s : State) (o : Out) : (s.emit o).trn = s.trn := rfl
@[simp] theorem emit_wit (s : State) (o : Out) : (s.emit o).wit = s.wit := rfl
@[simp] theorem emit_todo (s : State) (o : Out) : (s.emit o).todo = s.todo := rfl
@[simp] theorem emit_pins (s : State) (o : Out) : (s.emit o).pins = s.pins := rfl
@[simp] theorem emit_hostMem (s : State) (o : Out) : (s.emit o).hostMem = s.hostMem := rfl
@[simp] theorem emit_holdMem (s : State) (o : Out) : (s.emit o).holdMem = s.holdMem := rfl
@[simp] theorem emit_otpBond (s : State) (o : Out) : (s.emit o).otpBond = s.otpBond := rfl
@[simp] theorem emit_free (s : State) (o : Out) : (s.emit o).free = s.free := rfl

@[simp] theorem draw_build (s : State) : (s.draw.2).build = s.build := rfl
@[simp] theorem draw_pending (s : State) : (s.draw.2).pending = s.pending := rfl
@[simp] theorem draw_regs (s : State) : (s.draw.2).regs = s.regs := rfl
@[simp] theorem draw_pil (s : State) : (s.draw.2).pil = s.pil := rfl
@[simp] theorem draw_adm (s : State) : (s.draw.2).adm = s.adm := rfl
@[simp] theorem draw_dat (s : State) : (s.draw.2).dat = s.dat := rfl
@[simp] theorem draw_chains (s : State) : (s.draw.2).chains = s.chains := rfl
@[simp] theorem draw_log (s : State) : (s.draw.2).log = s.log := rfl
@[simp] theorem draw_plm (s : State) : (s.draw.2).plm = s.plm := rfl
@[simp] theorem draw_flt (s : State) : (s.draw.2).flt = s.flt := rfl
@[simp] theorem draw_brt (s : State) : (s.draw.2).brt = s.brt := rfl
@[simp] theorem draw_brtWait (s : State) : (s.draw.2).brtWait = s.brtWait := rfl
@[simp] theorem draw_lnd (s : State) : (s.draw.2).lnd = s.lnd := rfl
@[simp] theorem draw_vrd (s : State) : (s.draw.2).vrd = s.vrd := rfl
@[simp] theorem draw_wak (s : State) : (s.draw.2).wak = s.wak := rfl
@[simp] theorem draw_tap (s : State) : (s.draw.2).tap = s.tap := rfl
@[simp] theorem draw_par (s : State) : (s.draw.2).par = s.par := rfl
@[simp] theorem draw_cad (s : State) : (s.draw.2).cad = s.cad := rfl
@[simp] theorem draw_trn (s : State) : (s.draw.2).trn = s.trn := rfl
@[simp] theorem draw_wit (s : State) : (s.draw.2).wit = s.wit := rfl
@[simp] theorem draw_todo (s : State) : (s.draw.2).todo = s.todo := rfl
@[simp] theorem draw_pins (s : State) : (s.draw.2).pins = s.pins := rfl
@[simp] theorem draw_hostMem (s : State) : (s.draw.2).hostMem = s.hostMem := rfl
@[simp] theorem draw_holdMem (s : State) : (s.draw.2).holdMem = s.holdMem := rfl
@[simp] theorem draw_otpBond (s : State) : (s.draw.2).otpBond = s.otpBond := rfl
@[simp] theorem draw_out (s : State) : (s.draw.2).out = s.out := rfl

@[simp] theorem setChain_build (s : State) (ch : Nat) (c : ChainSt) : (s.setChain ch c).build = s.build := rfl
@[simp] theorem setChain_pending (s : State) (ch : Nat) (c : ChainSt) : (s.setChain ch c).pending = s.pending := rfl
@[simp] theorem setChain_regs (s : State) (ch : Nat) (c : ChainSt) : (s.setChain ch c).regs = s.regs := rfl
@[simp] theorem setChain_pil (s : State) (ch : Nat) (c : ChainSt) : (s.setChain ch c).pil = s.pil := rfl
@[simp] theorem setChain_adm (s : State) (ch : Nat) (c : ChainSt) : (s.setChain ch c).adm = s.adm := rfl
@[simp] theorem setChain_dat (s : State) (ch : Nat) (c : ChainSt) : (s.setChain ch c).dat = s.dat := rfl
@[simp] theorem setChain_log (s : State) (ch : Nat) (c : ChainSt) : (s.setChain ch c).log = s.log := rfl
@[simp] theorem setChain_plm (s : State) (ch : Nat) (c : ChainSt) : (s.setChain ch c).plm = s.plm := rfl
@[simp] theorem setChain_flt (s : State) (ch : Nat) (c : ChainSt) : (s.setChain ch c).flt = s.flt := rfl
@[simp] theorem setChain_brt (s : State) (ch : Nat) (c : ChainSt) : (s.setChain ch c).brt = s.brt := rfl
@[simp] theorem setChain_brtWait (s : State) (ch : Nat) (c : ChainSt) : (s.setChain ch c).brtWait = s.brtWait := rfl
@[simp] theorem setChain_lnd (s : State) (ch : Nat) (c : ChainSt) : (s.setChain ch c).lnd = s.lnd := rfl
@[simp] theorem setChain_vrd (s : State) (ch : Nat) (c : ChainSt) : (s.setChain ch c).vrd = s.vrd := rfl
@[simp] theorem setChain_wak (s : State) (ch : Nat) (c : ChainSt) : (s.setChain ch c).wak = s.wak := rfl
@[simp] theorem setChain_tap (s : State) (ch : Nat) (c : ChainSt) : (s.setChain ch c).tap = s.tap := rfl
@[simp] theorem setChain_par (s : State) (ch : Nat) (c : ChainSt) : (s.setChain ch c).par = s.par := rfl
@[simp] theorem setChain_cad (s : State) (ch : Nat) (c : ChainSt) : (s.setChain ch c).cad = s.cad := rfl
@[simp] theorem setChain_trn (s : State) (ch : Nat) (c : ChainSt) : (s.setChain ch c).trn = s.trn := rfl
@[simp] theorem setChain_wit (s : State) (ch : Nat) (c : ChainSt) : (s.setChain ch c).wit = s.wit := rfl
@[simp] theorem setChain_todo (s : State) (ch : Nat) (c : ChainSt) : (s.setChain ch c).todo = s.todo := rfl
@[simp] theorem setChain_pins (s : State) (ch : Nat) (c : ChainSt) : (s.setChain ch c).pins = s.pins := rfl
@[simp] theorem setChain_hostMem (s : State) (ch : Nat) (c : ChainSt) : (s.setChain ch c).hostMem = s.hostMem := rfl
@[simp] theorem setChain_holdMem (s : State) (ch : Nat) (c : ChainSt) : (s.setChain ch c).holdMem = s.holdMem := rfl
@[simp] theorem setChain_otpBond (s : State) (ch : Nat) (c : ChainSt) : (s.setChain ch c).otpBond = s.otpBond := rfl
@[simp] theorem setChain_out (s : State) (ch : Nat) (c : ChainSt) : (s.setChain ch c).out = s.out := rfl
@[simp] theorem setChain_free (s : State) (ch : Nat) (c : ChainSt) : (s.setChain ch c).free = s.free := rfl

/-! ### Registers -/

/-- A register reads as the value put there, cut to its width. -/
@[simp] theorem rd_wr_same (s : State) (l : Loc) (v : Nat) : (s.wr l v).rd l = v % 2 ^ l.width := by
  have hlt : ∀ n, n % 2 ^ l.width < 2 ^ 64 := fun n => by
    unfold Loc.width
    split
    · exact Nat.mod_lt _ (by decide)
    · exact Nat.lt_of_lt_of_le (Nat.mod_lt _ (by decide)) (by decide)
  have h := getD_put_same (BitVec.ofNat 64 (l.rst s.build % 2 ^ l.width)) s.regs l.off (BitVec.ofNat 64 (v % 2 ^ l.width))
  unfold State.rd State.wr
  dsimp only
  cases hg : Tbl.get? (Tbl.put (BitVec.ofNat 64 (l.rst s.build % 2 ^ l.width)) s.regs l.off (BitVec.ofNat 64 (v % 2 ^ l.width))) l.off with
  | none =>
    rw [hg] at h
    have h2 := congrArg BitVec.toNat h
    simp only [Option.getD_none, BitVec.toNat_ofNat, Nat.mod_eq_of_lt (hlt _)] at h2
    exact h2
  | some w =>
    rw [hg] at h
    simp only [Option.getD_some] at h
    simp only [h, BitVec.toNat_ofNat, Nat.mod_eq_of_lt (hlt _)]

/-- Every other register reads as before. -/
theorem rd_wr_other (s : State) {l j : Loc} (v : Nat) (h : j.off ≠ l.off) : (s.wr l v).rd j = s.rd j := by
  unfold State.rd State.wr
  dsimp only
  rw [get?_put_other _ s.regs _ h]

theorem rd_setF_same (s : State) (l : Loc) (lo len x : Nat) :
    (s.setF l lo len x).rd l = setFld (s.rd l) lo len x % 2 ^ l.width := rd_wr_same s l _

theorem rd_setF_other (s : State) {l j : Loc} (lo len x : Nat) (h : j.off ≠ l.off) : (s.setF l lo len x).rd j = s.rd j :=
  rd_wr_other s _ h

theorem rd_evt_other (s : State) {l j : Loc} (i : Nat) (h : j.off ≠ l.off) : (s.evt l i).rd j = s.rd j := rd_wr_other s _ h

theorem rd_putB_other (s : State) {l j : Loc} (i : Nat) (b : Bool) (h : j.off ≠ l.off) : (s.putB l i b).rd j = s.rd j :=
  rd_wr_other s _ h

/-- A count goes up by the amount, in the width of its register. -/
theorem rd_inc_same (s : State) (l : Loc) (n : Nat) : (s.inc l n).rd l = (s.rd l + n) % 2 ^ l.width := rd_wr_same s l _

theorem rd_inc_other (s : State) {l j : Loc} (n : Nat) (h : j.off ≠ l.off) : (s.inc l n).rd j = s.rd j := rd_wr_other s _ h

/-- The register file keeps its canonical form. -/
theorem wf_wr (s : State) (l : Loc) (v : Nat) (h : Tbl.wf s.regs = true) : Tbl.wf (s.wr l v).regs = true :=
  wf_put _ s.regs _ _ h

theorem rd_lt (s : State) (l : Loc) : s.rd l < 2 ^ 64 := by
  unfold State.rd
  split
  · rename_i v _
    exact v.isLt
  · unfold Loc.width
    split
    · exact Nat.mod_lt _ (by decide)
    · exact Nat.lt_of_lt_of_le (Nat.mod_lt _ (by decide)) (by decide)

/-- A field reads as what was put there. -/
theorem getF_setF_same (s : State) (l : Loc) (lo len x : Nat) (h : lo + len ≤ l.width) :
    (s.setF l lo len x).getF l lo len = x % 2 ^ len := by
  rw [State.getF, rd_setF_same, fld_mod _ _ _ _ h, fld_setFld_same]

/-- Another field of the same register is as before. -/
theorem getF_setF_apart (s : State) (l : Loc) (lo len x lo2 len2 : Nat) (hw : lo2 + len2 ≤ l.width)
    (h : lo2 + len2 ≤ lo ∨ lo + len ≤ lo2) : (s.setF l lo len x).getF l lo2 len2 = s.getF l lo2 len2 := by
  rw [State.getF, rd_setF_same, fld_mod _ _ _ _ hw]
  rcases h with h | h
  · exact fld_setFld_below _ _ _ _ _ _ h
  · exact fld_setFld_above _ _ _ _ _ _ h

/-- So is a field of another register. -/
theorem getF_setF_other (s : State) {l j : Loc} (lo len x lo2 len2 : Nat) (h : j.off ≠ l.off) :
    (s.setF l lo len x).getF j lo2 len2 = s.getF j lo2 len2 := by
  rw [State.getF, rd_setF_other s lo len x h]
  rfl

theorem getB_eq_getF (s : State) (l : Loc) (i : Nat) : s.getB l i = (s.getF l i 1 == 1) := rfl

/-- A bit reads as what was put there. -/
theorem getB_putB_same (s : State) (l : Loc) (i : Nat) (b : Bool) (h : i < l.width) : (s.putB l i b).getB l i = b := by
  rw [getB_eq_getF, State.putB, getF_setF_same s l i 1 _ h]
  cases b <;> rfl

/-- An event bit that is set reads as set. -/
theorem getB_evt_same (s : State) (l : Loc) (i : Nat) (h : i < l.width) : (s.evt l i).getB l i = true := by
  rw [getB_eq_getF, State.evt, getF_setF_same s l i 1 _ h]
  rfl

theorem getB_setF_other (s : State) {l j : Loc} (lo len x i : Nat) (h : j.off ≠ l.off) :
    (s.setF l lo len x).getB j i = s.getB j i := by
  rw [getB_eq_getF, getF_setF_other s lo len x i 1 h]
  rfl

theorem getF_wr_other (s : State) {l j : Loc} (v lo len : Nat) (h : j.off ≠ l.off) : (s.wr l v).getF j lo len = s.getF j lo len := by
  rw [State.getF, rd_wr_other s v h]
  rfl

theorem getB_wr_other (s : State) {l j : Loc} (v i : Nat) (h : j.off ≠ l.off) : (s.wr l v).getB j i = s.getB j i := by
  rw [State.getB, rd_wr_other s v h]
  rfl

end Sys2Proof.Laws
end

