-- ==== Sys2Proof/Laws/Launch.lean ====
section
/-! SUPPORT. How a command and an event end a step: what the shared outer forms do, said once. -/

namespace Sys2Proof.Laws

open Sys2Proof.Machine

/-- Outside reset an event's row is its effect and the step's end. -/
theorem evNext_up {f : State → State} {s : State} (h : s.pins.por = false) : evNext f s = .next (finish (f s)) := by
  simp [evNext, whenUp, h]

/-- In reset a row other than the reset pins changes nothing. -/
theorem evNext_por {f : State → State} {s : State} (h : s.pins.por = true) : evNext f s = .next s := by
  simp [evNext, whenUp, h]

theorem performAll_nil {n : Nat} {s : State} (h : s.todo = []) : performAll (n + 1) s = s := by
  simp [performAll, h]

/-- With nothing queued, the step's end changes nothing. -/
theorem finish_quiet {s : State} (h : Quiet s) : finish s = s := by
  rw [finish, performLimit, performAll_nil h.1, flushLanding, h.2]

/-- With Pilot free, a launched command's Pilot phase begins at once (R411). -/
theorem launchOr_free {x : Launch} {run : State → State} {s : State} (h : PilotFree s) : launchOr x run s = run s := by
  simp [launchOr, h.1, h.2]

/-- With Pilot held, a launched command waits its turn, behind those that wait already (R411). -/
theorem launchOr_held {x : Launch} {run : State → State} {s : State} (h : s.pilotHeld = true) :
    launchOr x run s = { s with pil := { s.pil with launchQ := s.pil.launchQ ++ [x] } } := by
  simp [launchOr, h]

/-- A command that reaches Pilot is counted and begins, its aperture BUSY. -/
theorem runCmd_reaches {o : OpInfo} {own : Cmd → State → Ans × State} {c : Cmd} {s : State} (h : Reaches c s) :
    runCmd o own c s = started o own c (opened c s) := by
  obtain ⟨-, hb, hp, ha⟩ := h
  cases hs : c.src with
  | aperture a =>
    obtain ⟨h1, h2, h3, h4⟩ := ha a hs
    have h4' : ¬(a = 4 ∧ c.level ≠ 3) := fun h => h.2 (h3 h.1)
    simp only [runCmd, hs, h1, hb, if_neg h4', Nat.not_le.2 h2, Bool.false_eq_true, Bool.true_eq_false, or_self, if_false, h4, opened]
    exact launchOr_free hp
  | remote k og v =>
    simp only [runCmd, hs, hb, Bool.true_eq_false, if_false, opened]
    exact launchOr_free hp

/-- A command whose header passes checks 1 to 5 and whose unit is there is settled as its own part answers. -/
theorem started_runs {o : OpInfo} {own : Cmd → State → Ans × State} {c : Cmd} {u : State} (hf : headerFault o c u = none)
    (hc : o.compute = true → u.getB PLM_POWER 2 = false ∧ u.computeOff = false) : started o own c u = settle o c (own c u) := by
  simp only [started, hf]
  by_cases hcm : o.compute = true
  · simp [hcm, hc hcm]
  · simp [hcm]

/-- A command that runs is settled as its own part answers. -/
theorem runs_settle {o : OpInfo} {own : Cmd → State → Ans × State} {c : Cmd} {s u : State} (h : Runs o c s u) :
    cmdNext o own c s = .next (finish (settle o c (own c u))) := by
  obtain ⟨hr, hf, hc, rfl⟩ := h
  rw [cmdNext, evNext_up hr.1, runCmd_reaches hr, started_runs hf hc]

/-- … answered OK. -/
theorem runs_ok {o : OpInfo} {own : Cmd → State → Ans × State} {c : Cmd} {s u t : State} {res : List Word} (h : Runs o c s u)
    (hq : own c u = (.reply 0x00 res, t)) : cmdNext o own c s = .next (concluded o c 0x00 res t) := by
  rw [runs_settle h, hq]; rfl

/-- … refused. -/
theorem runs_refused {o : OpInfo} {own : Cmd → State → Ans × State} {c : Cmd} {s u t : State} {st : Nat} {res : List Word}
    (h : Runs o c s u) (hq : own c u = (.reply st res, t)) (h0 : st ≠ 0x00) (h1 : st ≠ 0x30) :
    cmdNext o own c s = .next (turnedAway o c st res t) := by
  rw [runs_settle h, hq, settle]
  simp only [stOk, stTimeout, h0, h1, or_self, if_false]
  rfl

/-- … started. -/
theorem runs_started {o : OpInfo} {own : Cmd → State → Ans × State} {c : Cmd} {s u t : State} {ph : JobPhase} {d : JobData}
    (h : Runs o c s u) (hq : own c u = (.started ph d, t)) : cmdNext o own c s = .next (begun o c ph d t) := by
  rw [runs_settle h, hq]; rfl

/-- … ended within the step. -/
theorem runs_ended {o : OpInfo} {own : Cmd → State → Ans × State} {c : Cmd} {s u t : State} {res : List Word} (h : Runs o c s u)
    (hq : own c u = finished c 0x00 res t) : cmdNext o own c s = .next (ended o c 0x00 res t) := by
  rw [runs_settle h, hq, finished, ended]
  cases c.asyncOk <;> rfl

/-- … refused or timed out within the step, by a command that may have had its ACCEPTED reply. -/
theorem runs_endedTimeout {o : OpInfo} {own : Cmd → State → Ans × State} {c : Cmd} {s u t : State} {res : List Word}
    (h : Runs o c s u) (hq : own c u = finished c 0x30 res t) : cmdNext o own c s = .next (ended o c 0x30 res t) := by
  rw [runs_settle h, hq, finished, ended]
  cases c.asyncOk <;> rfl

/-- … refused within the step, by a command that may have had its ACCEPTED reply. -/
theorem runs_endedRefused {o : OpInfo} {own : Cmd → State → Ans × State} {c : Cmd} {s u t : State} {st : Nat} {res : List Word}
    (h : Runs o c s u) (hq : own c u = finished c st res t) (h0 : st ≠ 0x00) (h1 : st ≠ 0x30) :
    cmdNext o own c s = .next (ended o c st res (t.inc PIL_REFUSED 1)) := by
  rw [runs_settle h, hq, finished, ended]
  cases c.asyncOk <;> simp only [settle, stOk, stTimeout, h0, h1, or_self, Bool.false_eq_true, if_false, if_true, begun, concluded]

/-- … with a ruling issued. -/
theorem runs_ruling {o : OpInfo} {own : Cmd → State → Ans × State} {c : Cmd} {s u t : State} {r : Ruling} (h : Runs o c s u)
    (hq : own c u = rulingCmd c r t) : cmdNext o own c s = .next (rulingSent o c r t) := by
  rw [runs_settle h, hq, rulingCmd, rulingSent]
  cases hs : (issueRuling (.job t.pil.nextJob) r t).seen? t.station (t.rd RUL_NEXT) with
  | none => rfl
  | some x =>
    cases hx : x.acked with
    | false => simp [hx, settle, begun]
    | true =>
      simp only [hx, if_true, finished, ended]
      cases c.asyncOk <;> rfl

/-! ### Operations that queue nothing -/

theorem quiet_wr {s : State} (h : Quiet s) (l : Loc) (v : Nat) : Quiet (s.wr l v) := h
theorem quiet_setF {s : State} (h : Quiet s) (l : Loc) (lo len x : Nat) : Quiet (s.setF l lo len x) := h
theorem quiet_evt {s : State} (h : Quiet s) (l : Loc) (i : Nat) : Quiet (s.evt l i) := h
theorem quiet_putB {s : State} (h : Quiet s) (l : Loc) (i : Nat) (b : Bool) : Quiet (s.putB l i b) := h
theorem quiet_inc {s : State} (h : Quiet s) (l : Loc) (n : Nat) : Quiet (s.inc l n) := h
theorem quiet_emit {s : State} (h : Quiet s) (o : Out) : Quiet (s.emit o) := h

theorem quiet_each {α : Type} {s : State} (h : Quiet s) (xs : List α) (f : α → State → State)
    (hf : ∀ x t, Quiet t → Quiet (f x t)) : Quiet (s.each xs f) := by
  induction xs generalizing s with
  | nil => exact h
  | cons x l ih => exact ih (hf x s h)

/-- An event whose effect leaves nothing queued ends the step with that effect. -/
theorem evNext_quiet {f : State → State} {s t : State} (h : s.pins.por = false) (hf : f s = t) (hq : Quiet t) :
    evNext f s = .next t := by
  rw [evNext_up h, hf, finish_quiet hq]

end Sys2Proof.Laws
end

