-- ==== Sys2Proof/Laws/Ends.lean ====
section
/-! SUPPORT. How a step, a row and a launched command end, and what some shared operations leave alone. -/

set_option autoImplicit false

namespace Sys2Proof.Laws

open Sys2Proof.Machine

/-- What an effect keeps, the row that has it keeps. -/
theorem keep_evNext {f : State → State} (hf : ∀ t, Kept t (f t)) {s t : State} (h : evNext f s = .next t) : Kept s t := by
  simp only [evNext, whenUp, Host.Outcome.next.injEq] at h
  subst h
  split
  · exact Kept.refl s
  · exact keep_finish (hf s)

/-- A step's end leaves nothing to be done in other units and nothing to be sent by Landing. -/
theorem quiet_of_finish (s : State) : Quiet (finish s) := by
  have h1 : ∀ n s, (performAll n s).todo = [] := by
    intro n; induction n with
    | zero => intro s; rfl
    | succ n ih =>
      intro s; unfold performAll
      split
      · assumption
      · exact ih _
  have hs : ∀ a m (t : State), Quiet t → Quiet (sendLanding a m t) := by
    intro a m t ht
    unfold sendLanding
    refine quiet_each (by exact ⟨ht.1, ht.2⟩) _ _ ?_
    intro run u hu
    unfold joinFlow
    exact ⟨hu.1, hu.2⟩
  unfold finish flushLanding
  split
  · exact ⟨h1 _ _, by assumption⟩
  · refine quiet_each ?_ _ _ ?_
    · refine ⟨h1 _ _, ?_⟩
      show ((Tbl.get? (Tbl.put chainBlank _ 2 _) 2).getD chainBlank).txq = []
      rw [getD_put_same]
    · intro m t ht
      split
      · exact hs _ _ _ ht
      · exact ht

/-- How a row ends: it changes nothing in reset, else the effect is finished. -/
theorem evNext_finish (f : State → State) (s : State) : ∃ t, evNext f s = .next t ∧ (s.pins.por = true ∧ t = s ∨ t = finish (f s)) := by
  by_cases h : s.pins.por = true
  · exact ⟨s, evNext_por h, .inl ⟨h, rfl⟩⟩
  · exact ⟨_, evNext_up (by simpa using h), .inr rfl⟩

/-- A step on the empty queue. -/
theorem step_idle {s : State} (h : s.pending = []) : step s = .next (idle s) := by
  unfold step; split
  · rfl
  · rename_i c cs e; rw [h] at e; cases e

/-- Opening a command leaves the build. -/
theorem build_opened (c : Cmd) (s : State) : (opened c s).build = s.build := by unfold opened; split <;> rfl

/-- A signed number of 32 bits reads back. -/
theorem toInt_ofInt (z : Int) (h : -2147483648 ≤ z) (h2 : z < 2147483648) : toInt 32 (ofInt 32 z % 2 ^ 32) = z := by
  unfold toInt ofInt; simp only [Nat.reducePow, Nat.reduceSub]; split <;> omega

/-- The clamp, as a minimum and a maximum. -/
theorem clampAdj_eq (z : Int) : clampAdj z = max (-1717987) (min 1717987 z) := by
  unfold clampAdj; 
  by_cases h : z > 1717987
  · rw [if_pos (show z > fadjMax from h)]; show (1717987 : Int) = _; omega
  · rw [if_neg (show ¬ z > fadjMax from h)]
    by_cases h2 : z < -1717987
    · rw [if_pos (show z < -fadjMax from h2)]; show (-1717987 : Int) = _; omega
    · rw [if_neg (show ¬ z < -fadjMax from h2)]; omega

/-- What DAT_FADJ holds after the servo has set it. -/
theorem rd_putServo (i p : Int) (s : State) : (putServo i p s).rd DAT_FADJ = ofInt 32 (clampAdj (clampAdj i + p)) % 2 ^ 32 := by
  unfold putServo
  dsimp only
  split
  · exact rd_wr_same _ DAT_FADJ _
  · rw [rd_evt_other _ _ (by decide)]; exact rd_wr_same _ DAT_FADJ _

/-- A change of the state of Datum leaves the adjustment. -/
theorem rd_setDatState (n : Nat) (s : State) : (setDatState n s).rd DAT_FADJ = s.rd DAT_FADJ := by
  unfold setDatState timeMark
  dsimp only
  have h : ∀ (p : Prop) [Decidable p] (a b : State), (if p then a else b).rd DAT_FADJ = if p then a.rd DAT_FADJ else b.rd DAT_FADJ := by
    intro p _ a b; split <;> rfl
  simp only [h]
  have e : (s.setF DAT_STATE 0 3 n).rd DAT_FADJ = s.rd DAT_FADJ := rd_setF_other _ _ _ _ (by decide)
  have l : ∀ t (u : State), (u.later t).rd DAT_FADJ = u.rd DAT_FADJ := fun _ _ => rfl
  have v : ∀ (u : State), (u.evt DAT_EVT 0).rd DAT_FADJ = u.rd DAT_FADJ := fun u => rd_evt_other _ _ (by decide)
  have d : ∀ (u : State) x, ({ u with dat := x } : State).rd DAT_FADJ = u.rd DAT_FADJ := fun _ _ => rfl
  have ph : ∀ (u : State), (pulseHold u).rd DAT_FADJ = u.rd DAT_FADJ := fun _ => rfl
  split <;> (simp only [ph, l, h, v, d, e, ite_self])

/-- DIE_STOP reaches no register. -/
theorem rd_dieStopUpdate (s : State) (l : Loc) : (dieStopUpdate s).rd l = s.rd l := by unfold dieStopUpdate; split <;> rfl

/-- DIE_STOP takes nothing out of what is to be done. -/
theorem todo_dieStopUpdate (s : State) (x : Todo) (h : x ∈ s.todo) : x ∈ (dieStopUpdate s).todo := by
  unfold dieStopUpdate; split
  · exact List.mem_append_left _ h
  · exact h

/-- An event of the Logbook reaches only its own registers. -/
theorem rd_logEvent (k : Nat) (d : List Byte) (s : State) (l : Loc) (h : l.off ≠ LOG_EVT.off) (h2 : l.off ≠ LOG_QDROP.off) : (logEvent k d s).rd l = s.rd l := by
  unfold logEvent
  dsimp only
  have e : ∀ (u : State) x, ({ u with log := x } : State).rd l = u.rd l := fun _ _ => rfl
  split <;> split
  all_goals first | rfl | rw [rd_evt_other _ _ h, rd_inc_other _ _ h2, e]

/-- A chain is its own. -/
theorem chain_other (s : State) {ch k : Nat} (c : ChainSt) (h : k ≠ ch) : (s.setChain ch c).chain k = s.chain k := by
  show (Tbl.get? (Tbl.put chainBlank s.chains ch c) k).getD chainBlank = _
  rw [get?_put_other _ _ _ h]; rfl

/-- An event of a chain that the build has. -/
theorem onChain_eq {ch : Nat} {f : State → State} {s : State} (h : ch ∈ s.chainList) : onChain ch f s = f s := by
  rw [onChain, if_pos (by simpa using h)]

/-- A tray build has both chains. -/
theorem tray_chain {ch : Nat} {s : State} (h : s.isTray = true) (h2 : ch < 2) : ch ∈ s.chainList := by
  rw [State.chainList, if_pos h]; rcases ch with _ | _ | _ <;> first | decide | omega

/-- A leaf has its chain. -/
theorem leaf_chain {s : State} (h : s.isTray = false) : 0 ∈ s.chainList := by
  rw [State.chainList, if_neg (by simp [h])]; decide

/-- The first class that fits. -/
theorem find_first {p : Nat → Bool} {k : Nat} (h : k ∈ [1, 2, 3, 4, 5]) (hk : p k = true) (hm : ∀ m, 1 ≤ m → m < k → p m = false) :
    [1, 2, 3, 4, 5].find? p = some k := by
  have : k = 1 ∨ k = 2 ∨ k = 3 ∨ k = 4 ∨ k = 5 := by simpa using h
  rcases this with rfl | rfl | rfl | rfl | rfl
  · simp [hk]
  · simp [hk, hm 1]
  · simp [hk, hm 1, hm 2]
  · simp [hk, hm 1, hm 2, hm 3]
  · simp [hk, hm 1, hm 2, hm 3, hm 4]

/-- The upper part of a time as registers show it has 64 bits. -/
theorem encTime_high_lt (t : Nat) : encTime t / 2 ^ 48 < 2 ^ 64 := by
  unfold encTime
  have h1 : t % clockMod / secU < 2 ^ 48 := by
    apply Nat.div_lt_of_lt_mul; rw [Nat.mul_comm]; exact Nat.mod_lt _ (by decide)
  have h2 : t % clockMod % secU / 2 ^ 32 < 1000000000 := by
    apply Nat.div_lt_of_lt_mul; rw [Nat.mul_comm]; exact Nat.mod_lt _ (by decide)
  have h3 : t % clockMod % 2 ^ 32 / 2 ^ 16 < 2 ^ 16 := by omega
  have key : ∀ a b d : Nat, a < 2 ^ 48 → b < 1000000000 → d < 2 ^ 16 → (a * 2 ^ 48 + b * 2 ^ 16 + d) / 2 ^ 48 < 2 ^ 64 := by
    intro a b d h1 h2 h3; omega
  have h4 : t % clockMod % secU / 2 ^ 32 * 2 ^ 16 = t % clockMod % secU / 2 ^ 32 * 2 ^ 16 := rfl
  exact key _ _ _ h1 h2 h3

/-- A number from its low 48 bits and the rest. -/
theorem split48 (e : Nat) : e % 2 ^ 48 % 2 ^ 48 + e / 2 ^ 48 * 2 ^ 48 = e := by omega

/-- Counting one lane leaves the rest of the block. -/
theorem countLanes_one (l : TapLane) (s : State) : (countLanes [l] s).build = s.build ∧ (countLanes [l] s).pins = s.pins ∧ (countLanes [l] s).todo = s.todo ∧ (countLanes [l] s).chains = s.chains := by
  simp only [countLanes, State.each, List.foldl]
  split
  · exact ⟨rfl, rfl, rfl, rfl⟩
  · split <;> exact ⟨rfl, rfl, rfl, rfl⟩

/-- Counting lanes leaves the rest of the block. -/
theorem countLanes_other (ls : List TapLane) : ∀ (s : State), (countLanes ls s).build = s.build ∧ (countLanes ls s).pins = s.pins ∧ (countLanes ls s).todo = s.todo ∧ (countLanes ls s).chains = s.chains := by
  induction ls with
  | nil => intro s; exact ⟨rfl, rfl, rfl, rfl⟩
  | cons l ls ih =>
    intro s
    have : countLanes (l :: ls) s = countLanes ls (countLanes [l] s) := rfl
    rw [this]
    obtain ⟨a, b, c, d⟩ := ih (countLanes [l] s)
    obtain ⟨a', b', c', d'⟩ := countLanes_one l s
    exact ⟨a.trans a', b.trans b', c.trans c', d.trans d'⟩

/-- A capture queues nothing. -/
theorem quiet_captureTime {s : State} (h : Quiet s) (a b t : Nat) : Quiet (captureTime a b t s) := h

end Sys2Proof.Laws
end

