-- ==== Sys2Proof/Laws/LineCode.lean ====
section
/-! SUPPORT. The line code: what is scrambled comes back, and a lane's lock changes only as R96 says. -/

namespace Sys2Proof.Laws

open Sys2Proof.Machine

/-- The receiver's descrambler gives back what the sender scrambled, from the same memory on. -/
theorem descramble_scramble (st : Nat) (bs : List Bool) : descrambleBits st (scrambleBits st bs) = bs := by
  induction bs generalizing st with
  | nil => rfl
  | cons b bs ih => simp only [scrambleBits, descrambleBits, ih, Bool.xor_assoc, Bool.xor_self, Bool.xor_false]

@[simp] theorem scrambleBits_length (st : Nat) (bs : List Bool) : (scrambleBits st bs).length = bs.length := by
  induction bs generalizing st with
  | nil => rfl
  | cons b bs ih => simp only [scrambleBits, List.length_cons, ih]

/-- A lane gains lock only with a valid header that follows 63 others. -/
theorem laneHeader_gains {l : LaneLock} {v : Bool} (h : l.locked = false) (g : (laneHeader l v).locked = true) : v = true ∧ 63 ≤ l.count := by
  unfold laneHeader at g
  cases v <;> simp [h, laneUnlocked] at g ⊢
  split at g
  · omega
  · cases g

/-- A lane loses lock only with the sixteenth invalid header of its window. -/
theorem laneHeader_loses {l : LaneLock} {v : Bool} (h : l.locked = true) (g : (laneHeader l v).locked = false) : 16 ≤ l.invalid + b2n (!v) := by
  unfold laneHeader at g
  simp only [h, if_true] at g
  split at g
  · assumption
  · split at g <;> cases g

/-- From no lock, 64 valid headers in turn lock a lane. -/
theorem lock_after_64 : (List.replicate 64 true).foldl laneHeader laneUnlocked = { locked := true, count := 0, invalid := 0 } := by decide +kernel

/-- Idle rows are of control blocks. -/
theorem sync_idleRow : ∀ b ∈ idleRow, syncOf b = 2 := by
  intro b hb
  rw [List.eq_of_mem_replicate hb]
  rfl

/-- A cell of bytes 0xA5 comes back whole from its 16 data blocks. -/
theorem cellOfBlocks_cellBlocks : cellOfBlocks (cellBlocks (List.replicate 128 0xA5#8)) = List.replicate 128 0xA5#8 := by decide +kernel

/-- 45 rows in 11 containers: one idle row among the 44 of cells on a full link. -/
theorem rowAt_eleven (n : Nat) : rowAt (n + 11) = rowAt n + 45 := by
  unfold rowAt ceilDiv; omega

/-- The first row of a container never overtakes the last one of the cell before. -/
theorem rowAt_step (n : Nat) : rowAt n + 4 ≤ rowAt (n + 1) := by
  unfold rowAt ceilDiv; omega

end Sys2Proof.Laws
end

