-- ==== Sys2Proof/Laws/Port.lean ====
section
/-! SUPPORT. What a store over the memory port does: the bytes inside and outside what it writes, and the
one lemma that says every way a store can end. -/

namespace Sys2Proof.Laws

open Sys2Proof.Machine

/-- A byte inside a string that is written reads as that string's byte. -/
theorem memByte_memWrite_in (bs : List Byte) (m : List Host.Cell) (a j : Nat) (h1 : a ≤ j) (h2 : j < a + bs.length) :
    memByte (memWrite m a bs) j = bs.getD (j - a) 0 := by
  induction bs generalizing m a with
  | nil => simp at h2; omega
  | cons b bs ih =>
    show memByte (memWrite (memPut m a b) (a + 1) bs) j = _
    by_cases h : j = a
    · subst h; rw [memByte_memWrite_other _ _ _ _ (by omega), memByte_memPut_same, Nat.sub_self]; rfl
    · simp only [List.length_cons] at h2
      rw [ih _ _ (by omega) (by omega)]
      have : j - a = (j - (a + 1)) + 1 := by omega
      rw [this]; rfl

/-- Two states with the same memories behind their ports and the same build. -/
def SameMem (s t : State) : Prop := t.hostMem = s.hostMem ∧ t.holdMem = s.holdMem ∧ t.build = s.build

theorem SameMem.trans {s t u : State} (h : SameMem s t) (g : SameMem t u) : SameMem s u :=
  ⟨g.1.trans h.1, g.2.1.trans h.2.1, g.2.2.trans h.2.2⟩

theorem SameMem.each {α : Type} (f : α → State → State) (hf : ∀ x t, SameMem t (f x t)) :
    ∀ (l : List α) (s : State), SameMem s (s.each l f)
  | [], _ => ⟨rfl, rfl, rfl⟩
  | x :: xs, s => (hf x s).trans (SameMem.each f hf xs (f x s))

theorem SameMem.mem {s t : State} (h : SameMem s t) : t.mem = s.mem := by
  unfold State.mem State.isTray; rw [h.1, h.2.1, h.2.2]

theorem portAsk_sameMem (w : Bool) (a : Nat) (bs : List Byte) (ps : List (Nat × Nat)) (s : State) :
    SameMem s (portAsk w a bs ps s) :=
  SameMem.each (fun p t => t.emit (t.portRequest w p (slice bs (p.1 - a) p.2))) (fun _ _ => ⟨rfl, rfl, rfl⟩) ps s

theorem accessFails_sameMem (s : State) : SameMem s (accessFails s) := by
  unfold accessFails; split <;> exact ⟨rfl, rfl, rfl⟩

theorem requestsFail_sameMem (ps : List (Nat × Nat)) (s : State) : SameMem s (requestsFail ps s) :=
  SameMem.each _ (fun _ t => accessFails_sameMem t) _ _

/-- A store ends in one of three ways: the access fails and no byte changes; every request is served and the
whole string is written; or, on a tray, only the requests whose port is up are. -/
theorem storeBytes_cases {a : Nat} {bs : List Byte} {s t : State} {r : Bool} (h : storeBytes a bs s = (r, t)) :
    (r = false ∧ SameMem s t ∧ (s.memReach a bs.length = false ∨ s.isTray = false)) ∨
    (∃ v, SameMem s v ∧ ((s.requests a bs.length).all s.reqUp = true ∧ r = true ∧
        SameMem (v.setMem (memWrite s.mem a bs)) t ∨
      (s.requests a bs.length).all s.reqUp = false ∧ r = false ∧ s.isTray = true ∧
        SameMem (v.setMem (storePieces a bs s.mem ((s.requests a bs.length).filter s.reqUp))) t)) := by
  have up : s.isTray = false → (s.requests a bs.length).all s.reqUp = true := fun g => by
    rw [List.all_eq_true]; intro p _; unfold State.reqUp; simp [g]
  have ask := portAsk_sameMem true a bs ((s.requests a bs.length).filter s.reqUp) s
  unfold storeBytes at h
  by_cases h1 : s.memReach a bs.length = false
  · rw [if_pos h1] at h; cases h; exact .inl ⟨rfl, accessFails_sameMem s, .inl h1⟩
  · rw [if_neg h1] at h
    dsimp only at h
    by_cases h2 : s.isTray = false ∧ s.portError a bs.length = true
    · rw [if_pos h2] at h; cases h
      exact .inl ⟨rfl, (portAsk_sameMem _ _ _ _ _).trans ⟨rfl, rfl, rfl⟩, .inr h2.1⟩
    · rw [if_neg h2] at h
      by_cases h3 : (s.requests a bs.length).all s.reqUp = true
      · rw [if_pos h3] at h; cases h
        refine .inr ⟨_, ask, .inl ⟨h3, rfl, ?_⟩⟩
        split <;> exact ⟨rfl, rfl, rfl⟩
      · rw [if_neg h3] at h; cases h
        refine .inr ⟨_, ask, .inr ⟨by simpa using h3, rfl, ?_, ?_⟩⟩
        · cases g : s.isTray
          · exact absurd (up g) h3
          · rfl
        · exact SameMem.trans ⟨rfl, rfl, rfl⟩ (requestsFail_sameMem _ _)

end Sys2Proof.Laws
end

