-- ==== Sys2Proof/WellFormed.lean ====
section
/-! DEFINITION. Which operands a command may have: what its numbers can spell on the wire, in a header or by the counts
of the units. The meanings are total on every operand; the checks say which commands are commands of the block. -/

namespace Sys2Proof

/-- A station number (R16). -/
def stationWf (n : Nat) : Bool := decide (n < 2 ^ 20)

/-- Who may launch: an aperture of the five, or a key and an origin of their widths (R405, R418). -/
def Src.wf : Src → Bool
  | .aperture a => decide (a < 5)
  | .remote k o _ => decide (k < 2 ^ 16) && stationWf o

/-- A command whose fields have the widths of the header (R408) and whose words fill no more than a command may. -/
def Cmd.wf (c : Cmd) : Bool :=
  c.src.wf && decide (c.level < 4) && decide (c.rsv0 < 32) && decide (c.rsv1 < 16) && decide (c.length < 2 ^ 16) &&
    decide (c.tag < 2 ^ 16) && decide (c.parcel < 4096) && decide (c.params.length ≤ 1022) && decide (c.written ≤ 1024)

/-- A lane of a pod (R131). -/
def TapLane.wf (l : TapLane) : Bool := decide (l.pod < 64) && decide (l.event < 1024) && decide (l.amount < 16)

/-- The seal of a signed message (R418). -/
def EnvSeal.wf (e : EnvSeal) : Bool := decide (e.keyId < 2 ^ 16) && stationWf e.origin

/-- The numbers that the table of crossings gives, on either build (R527). -/
def crossingWf (x : Nat) : Bool :=
  decide (x < 0x83) || (decide (0x90 ≤ x) && decide (x < 0xA4)) || (decide (0xB0 ≤ x) && decide (x < 0xBC)) ||
    (decide (0xC0 ≤ x) && decide (x < 0xC2)) || (decide (0xD0 ≤ x) && decide (x < 0xD8)) || (decide (0xE0 ≤ x) && decide (x < 0xE5))

/-- A part of a reservation (R244). -/
def ResvPart.wf (p : ResvPart) : Bool := p.env.wf && decide (p.tag < 2 ^ 16) && decide (p.level ≤ 4) && decide (p.parcel < 4096)

/-- An acknowledgement of a ruling (R255). -/
def RulingAck.wf (a : RulingAck) : Bool := stationWf a.src && stationWf a.issuer && decide (a.no < 2 ^ 32)

/-- A message of a claim exchange (R558). -/
def ClaimMsg.wf : ClaimMsg → Bool
  | .ask e g _ p l ts => e.wf && decide (g < 2 ^ 16) && decide (p < 4096) && decide (l ≤ 4) && ts.all (fun t => decide (t < 2 ^ 14))
  | .answer e g st p ts => e.wf && decide (g < 2 ^ 16) && stationWf st && decide (p < 4096) && ts.all (fun t => decide (t < 2 ^ 14))
  | .failed e g st p gone => e.wf && decide (g < 2 ^ 16) && stationWf st && decide (p < 4096) && stationWf gone

/-- The well-formed commands: one arm for each constructor. -/
def Instr.wf : Instr → Bool
  | .nop c => c.wf
  | .echo c => c.wf
  | .ident c => c.wf
  | .pwrSet c => c.wf
  | .keySet c => c.wf
  | .pilSet c => c.wf
  | .fwPatch c => c.wf
  | .fwKey c => c.wf
  | .fwRevert c => c.wf
  | .parcelDefine c => c.wf
  | .parcelReserve c => c.wf
  | .parcelCommit c => c.wf
  | .parcelRelease c => c.wf
  | .parcelFree c => c.wf
  | .parcelCfg c => c.wf
  | .rulingIssue c => c.wf
  | .stopAt c => c.wf
  | .stopDisarm c => c.wf
  | .verdictSet c => c.wf
  | .verdictRead c => c.wf
  | .verdictSink c => c.wf
  | .epochRead c => c.wf
  | .deadlineSet c => c.wf
  | .strictSet c => c.wf
  | .absentDeclare c => c.wf
  | .closurePull c => c.wf
  | .voteRaise c => c.wf
  | .tallySet c => c.wf
  | .probeSet c => c.wf
  | .tapMap c => c.wf
  | .tapClear c => c.wf
  | .trkSet c => c.wf
  | .inputSet c => c.wf
  | .platLoad c => c.wf
  | .platUnload c => c.wf
  | .platKey c => c.wf
  | .cadSet c => c.wf
  | .scoreRead c => c.wf
  | .scoreRow c => c.wf
  | .subspaceLoad c => c.wf
  | .subspaceUnload c => c.wf
  | .trnRun c => c.wf
  | .trnSet c => c.wf
  | .trnUnfence c => c.wf
  | .trnRead c => c.wf
  | .wakeCfg c => c.wf
  | .wakeArm c => c.wf
  | .wakeDisarm c => c.wf
  | .wakeTrig c => c.wf
  | .wakeSecure c => c.wf
  | .wakeSend c => c.wf
  | .witSet c => c.wf
  | .packLoad c => c.wf
  | .packDrop c => c.wf
  | .witKey c => c.wf
  | .engineReport c => c.wf
  | .testNow c => c.wf
  | .selfNow c => c.wf
  | .mark c => c.wf
  | .pulseSet c => c.wf
  | .timeSet c => c.wf
  | .servoSet c => c.wf
  | .timeRole c => c.wf
  | .timeProbe c => c.wf
  | .fltSet c => c.wf
  | .fltClear c => c.wf
  | .fltInject c => c.wf
  | .fltDebug c => c.wf
  | .logClear c => c.wf
  | .logHistSet c => c.wf
  | .logFlush c => c.wf
  | .logSend c => c.wf
  | .plmSet c => c.wf
  | .powerSet c => c.wf
  | .stowJob c => c.wf
  | .berthSet c => c.wf
  | .lndSet c => c.wf
  | .treeSet c => c.wf
  | .lndGateLoad c => c.wf
  | .lndGateSwap c => c.wf
  | .stationSet c => c.wf
  | .chainSet c => c.wf
  | .splice c => c.wf
  | .spliceReq c => c.wf
  | .tmtLoad c => c.wf
  | .tmtSwap c => c.wf
  | .laneUnfence c => c.wf
  | .apertureWrite auth rq _ off _ _ => decide (auth < 4) && decide (rq < 2 ^ 16) && decide (off < 2 ^ 22)
  | .w1cWrite rq off _ => decide (rq < 2 ^ 16) && decide (off < 2 ^ 22)
  | .rcRead rq off => decide (rq < 2 ^ 16) && decide (off < 2 ^ 22)
  | .registerWrite rq off _ _ => decide (rq < 2 ^ 16) && decide (off < 2 ^ 22)
  | .lowHalfRead rq off => decide (rq < 2 ^ 16) && decide (off < 2 ^ 22)
  | .highHalfRead rq off => decide (rq < 2 ^ 16) && decide (off < 2 ^ 22)
  | .lowHalfWrite rq off _ => decide (rq < 2 ^ 16) && decide (off < 2 ^ 22)
  | .highHalfWrite rq off _ => decide (rq < 2 ^ 16) && decide (off < 2 ^ 22)
  | .datNowCapture rq off _ => decide (rq < 2 ^ 16) && decide (off < 2 ^ 22)
  | .liveCounterRead rq off _ _ lanes => decide (rq < 2 ^ 16) && decide (off < 2 ^ 22) && lanes.all (·.wf)
  | .computeRegisterAccess rq off _ _ _ => decide (rq < 2 ^ 16) && decide (off < 2 ^ 22)
  | .pilDoneRdWrite rq _ => decide (rq < 2 ^ 16)
  | .wakDstRdWrite rq _ => decide (rq < 2 ^ 16)
  | .wakXrRdWrite rq _ => decide (rq < 2 ^ 16)
  | .stwSrRdWrite rq _ => decide (rq < 2 ^ 16)
  | .zyPorstNAssert => true
  | .zyPorstNRelease _ => true
  | .zyCrstNAssert => true
  | .zyCrstNRelease _ => true
  | .zyHrstNAssert => true
  | .zyHrstNRelease => true
  | .pilotBoot => true
  | .powerEntry => true
  | .powerExit _ => true
  | .dozeSleepChange => true
  | .timetableCycleStart cyc _ => decide (cyc < 2 ^ 40)
  | .containerStart ch _ cyc cont _ => decide (ch < 2) && decide (cyc < 2 ^ 40) && decide (cont < 1024)
  | .containerRelay ch _ cyc cont _ => decide (ch < 2) && decide (cyc < 2 ^ 40) && decide (cont < 1024)
  | .cellReceive ch _ _ => decide (ch < 2)
  | .bulkReqReceive ch src _ => decide (ch < 2) && decide (src < 2 ^ 20)
  | .bulkRetentionExpiry ch _ seq => decide (ch < 2) && decide (seq < 2 ^ 16)
  | .timeWordReceive _ _ _ _ => true
  | .timeWordReturn ch _ _ => decide (ch < 2)
  | .refTimeout => true
  | .holdoverExpiry => true
  | .plumbTrim _ => true
  | .linkDelayRequest ch _ _ => decide (ch < 2)
  | .linkDelayMessageReceive ch _ _ _ _ => decide (ch < 2)
  | .linkDelayTimeout ch _ => decide (ch < 2)
  | .laneRequestReceive ch _ _ => decide (ch < 2)
  | .blockLockGain ch _ lanes => decide (ch < 2) && decide (lanes < 16)
  | .alignmentLock ch _ => decide (ch < 2)
  | .lockingTimeout ch _ => decide (ch < 2)
  | .blockLockLoss ch _ lane => decide (ch < 2) && decide (lane < 4)
  | .alignmentLoss ch _ => decide (ch < 2)
  | .chainCut ch => decide (ch < 2)
  | .chainWhole ch => decide (ch < 2)
  | .headless => true
  | .spliceAnnReceive _ _ _ => true
  | .tmtListReceive ch _ => decide (ch < 2)
  | .spliceRequestReceive ch src => decide (ch < 2) && decide (src < 2 ^ 20)
  | .spliceTime ch _ => decide (ch < 2)
  | .spliceWindowClose ch => decide (ch < 2)
  | .rollSend ch => decide (ch < 2)
  | .rollReceive _ => true
  | .rollAckReceive ch src _ => decide (ch < 2) && decide (src < 2 ^ 20)
  | .rollAckTimeout ch pos => decide (ch < 2) && decide (pos < 32)
  | .linkAlarmReceive ch src _ => decide (ch < 2) && decide (src < 2 ^ 20)
  | .linkStateReceive _ => true
  | .epochStrobe parcel lanes => decide (parcel < 4096) && lanes.all (·.wf)
  | .snapshotDeferredCapture pod lanes => decide (pod < 64) && lanes.all (·.wf)
  | .snapshotDelivered pod => decide (pod < 64)
  | .snapshotTimeout pod => decide (pod < 64)
  | .seriesDiscard parcel => decide (parcel < 4096)
  | .gaugeAnswer _ => true
  | .gaugeTimeout => true
  | .tapOnRise pod => decide (pod < 64)
  | .tapOnFall pod => decide (pod < 64)
  | .beatEdge n _ => decide (n < 8)
  | .ppsEdge _ => true
  | .pulseEdge n => decide (n < 8)
  | .stopSlotFire m => decide (m < 4)
  | .dieStopRelease => true
  | .dieStopAck _ => true
  | .stopNoack => true
  | .closureReceive src parcel ep _ _ => decide (src < 2 ^ 20) && decide (parcel < 4096) && decide (ep < 2 ^ 24)
  | .asleepReceive src parcel ep _ _ => decide (src < 2 ^ 20) && decide (parcel < 4096) && decide (ep < 2 ^ 24)
  | .resolveReceive src parcel ep _ _ => decide (src < 2 ^ 20) && decide (parcel < 4096) && decide (ep < 2 ^ 24)
  | .tallyItemComplete => true
  | .closeDeadlineExpiry parcel level => decide (parcel < 4096) && decide (level ≤ 4)
  | .strictStall parcel level => decide (parcel < 4096) && decide (level ≤ 4)
  | .gateClose parcel level => decide (parcel < 4096) && decide (level ≤ 4)
  | .deadlineWindowEnd parcel level => decide (parcel < 4096) && decide (level ≤ 4)
  | .trayClosureSend parcel => decide (parcel < 4096)
  | .cadastrePassStart => true
  | .cadastrePassComplete => true
  | .scoreTimeout parcel ep => decide (parcel < 4096) && decide (ep < 2 ^ 24)
  | .transitPassStart => true
  | .transitTileComplete => true
  | .transitCheckComplete _ _ => true
  | .transitRunTimeout parcel ep => decide (parcel < 4096) && decide (ep < 2 ^ 24)
  | .envelopeReceive _ _ => true
  | .envelopeRelay _ _ => true
  | .replyEnvelopeReceive _ _ => true
  | .relayEntryTimeout entry => decide (entry < 64)
  | .commandFinalReply _ => true
  | .rulingReceive src parcel _ => decide (src < 2 ^ 20) && decide (parcel < 4096)
  | .rulingAckReceive ack => ack.wf
  | .rulingResendTimeout issuer no child => decide (issuer < 2 ^ 20) && decide (no < 2 ^ 32) && stationWf child
  | .rulingEffect issuer no => decide (issuer < 2 ^ 20) && decide (no < 2 ^ 32)
  | .reservationPartReceive part => part.wf
  | .claimExchange msg => msg.wf
  | .reservationResendTimeout parcel level => decide (parcel < 4096) && decide (level ≤ 4)
  | .reservationLapse parcel => decide (parcel < 4096)
  | .stagedDefinitionExpiry parcel => decide (parcel < 4096)
  | .alarmReceive src _ => decide (src < 2 ^ 20)
  | .alarmHoldEnd entry => decide (entry < 64)
  | .seriesReceive src parcel _ => decide (src < 2 ^ 20) && decide (parcel < 4096)
  | .bulkExcerptReceive src _ => decide (src < 2 ^ 20)
  | .frameReceive stream _ _ _ => decide (stream < 2)
  | .frameTransmit stream => decide (stream < 2)
  | .ptpReceive stream _ _ => decide (stream < 2)
  | .ptpSyncSend => true
  | .berthAllocate _ _ _ => true
  | .faultLineRise n _ => decide (n < 64)
  | .faultPairInvalid n _ => decide (n < 64)
  | .graceExpiry n => decide (n < 64)
  | .quietExpiry => true
  | .cdcTimeout crossing => crossingWf crossing
  | .hostMasterError => true
  | .holdReadError port => decide (port < 12)
  | .holdTrainingLoss port => decide (port < 12)
  | .landingLinkDown stream => decide (stream < 2)
  | .leaveGrant => true
  | .leaveWaitExpiry => true
  | .wakeTapRecord tap auth _ => decide (tap < 8) && decide (auth < 4)
  | .wakeTimerExpiry n => decide (n < 4)
  | .wakeCounterLimit n => decide (n < 4)
  | .wakeSyncPeriodic => true
  | .wakeDrainUnit => true
  | .witnessDue n => decide (n < 64)
  | .witnessWindowExpiry n => decide (n < 64)
  | .testGntRise n => decide (n < 64)
  | .testGntFall n => decide (n < 64)
  | .witnessRunStart n => decide (n < 64)
  | .witnessRecordReturn _ _ _ => true
  | .witnessReturnTimeout _ _ => true
  | .witnessLeaveRetry n => decide (n < 64)
  | .witnessStagingTimeout n => decide (n < 2)
  | .selfTestDue => true
  | .selfTestRun _ _ => true
  | .plumbSampleTick ch => decide (ch < 16)
  | .plumbSampleAnswer ch _ => decide (ch < 16)
  | .plumbSampleTimeout ch => decide (ch < 16)
  | .plumbRuleTick => true
  | .ruleFire r => decide (r < 32)
  | .ruleGapAlarm r => decide (r < 32)
  | .lifeTick => true
  | .logEventWrite => true
  | .refusedAccess rq off _ _ _ => decide (rq < 2 ^ 16) && decide (off < 2 ^ 22)
  | .ppsMiss => true
  | .delayReqSend _ => true
  | .quiesceRelease _ => true

end Sys2Proof
end

