-- ==== Sys2Proof/Tests/Slice0.lean ====
section
/-! SUPPORT. Tests. For every statement of the obligations that has hypotheses, a theorem `witness_…` with a state and operands that
meet them, clause by clause; an operand that each check of `WellFormed` refuses; and a few single steps against values of the spec. -/

set_option autoImplicit false
set_option linter.all false
set_option maxRecDepth 20000
set_option Elab.async false

namespace Sys2Proof.Tests

open Sys2Proof Sys2Proof.Machine Sys2Proof.Laws

/-- A command with these parameter words, launched from aperture 4 at level 3 for parcel 1. -/
def cmd (ps : List Nat) : Cmd :=
  { src := .aperture 4, level := 3, asyncOk := false, isSigned := false, strictOnly := false, rsv0 := 0, length := ps.length + 2,
    tag := 7, parcel := 1, rsv1 := 0, params := ps.map (BitVec.ofNat 32), written := ps.length + 2 }

/-- A state after Pilot's boot. -/
def boot (s : State) : State := { s with pil := { s.pil with booted := true } }

/-- A tray build after its boot, its compute tier active. -/
def tray : State := boot (State.resetOf .tray)

/-- A leaf build after its boot, its compute tier active. -/
def leaf : State := boot (State.resetOf .leaf)

/-- A command of the secure authority runs where these checks pass. -/
theorem runs_at {o : OpInfo} {c : Cmd} {s : State}
    (h : (s.pins.por = false ∧ s.pil.booted = true ∧ (s.pilotHeld = false ∧ s.pil.launchQ = []) ∧ c.src = .aperture 4 ∧ c.level = 3 ∧
        s.pins.hrst = false ∧ (s.aperture 4).st ≠ .busy) ∧
      headerFault o c (opened c s) = none ∧
      (o.compute = true → (opened c s).getB PLM_POWER 2 = false ∧ (opened c s).computeOff = false)) :
    Runs o c s (opened c s) := by
  obtain ⟨⟨h1, h2, hq, h3, h4, h5, h6⟩, h7, h8⟩ := h
  refine ⟨⟨h1, h2, hq, fun a ha => ?_⟩, h7, h8, rfl⟩
  rw [h3] at ha; cases ha
  exact ⟨h5, by decide, fun _ => h4, h6⟩

/-- Registers written one after another. -/
def wrs (ls : List (Loc × Nat)) (s : State) : State := ls.foldl (fun t x => t.wr x.1 x.2) s

/-- A child of an epoch, still outstanding. -/
def kid0 (st : Nat) : KidEpoch :=
  { station := st, phase := .outstanding, pending := false, voided := false, nInc := 0, nAsleep := 0, nAbsent := 0, nStale := 0,
    nDegraded := 0, nVoid := 0, nRoster := 0, nDeclared := 0, absents := [], trn := [] }

/-- An epoch in progress. -/
def ep0 (k : Nat) : Epoch :=
  { k := k, cut := 0, endCut := none, active := true, dl := 100, kids := [], own := .notMember, ownVals := [], ownStale := false,
    ownDegraded := false, gate := false, fin := false, accs := [],
    votes := { table := [], spill := [], ovf := 0, approx := false, csat := false, spilled := false, own := [] },
    degraded := false, coarse := false, coarseIn := false, stale := false, isVoid := false, stopped := false, approx := false,
    truncated := false, timeouts := 0, satCounted := false, build := .none, cad := .none, trn := .none, trnCheck := .none,
    trnBytes := [], trnFailed := false, trnVotes := [], cadOut := [], sentPending := false, bars := [], plat := 0, sub := 0,
    platVer := 0, tClose := 0, held := [], mixed := false }

/-- A live context of parcel 1. -/
def ctx0 (level : Nat) (pub : Bool) : Ctx :=
  { parcel := 1, level := level, pub := pub, phase := .live, committed := true, counted := true, period := 100, prio := 0, t0 := 0,
    endE := none, parent := 64, self := true, members := 1, kids := [], probes := [], pages := [], seq := 0, next := 1, last := none,
    dl := 100, q99 := 0, samples := [], window := 0, marginDue := false, stalled := false, declared := [], epochs := [], bars := [],
    extBars := [], extPend := [], absRuns := [], prevVerds := [], plat := 0, sub := 0, asker := .nobody, parts := [], resvOk := true,
    entries := [], claimed := [], withheld := none }

/-- A state that holds a context, under number 0. -/
def holding (c : Ctx) (s : State) : State := { s with par := { s.par with ctxs := [(0, c)] } }

/-- A state with bytes in the memory that its build reads, from address 0. -/
def withBytes (bs : List Byte) (s : State) : State := s.setMem (memWrite s.mem 0 bs)

/-- A transfer that succeeds reads the bytes that were written there. -/
theorem loads {a a' n : Nat} {bs : List Byte} {s : State} {m : List Host.Cell} (h0 : s.memReach a n = true)
    (h1 : (s.requests a n).all s.reqUp = true) (h2 : s.portError a n = false) (hm : s.mem = memWrite m a' bs) (ha : a = a')
    (hn : bs.length = n) :
    loadBytes a n s = (some bs, if s.isTray then (portAsk false a [] ((s.requests a n).filter s.reqUp) s).inc HLD_RD_BYTES n
      else portAsk false a [] ((s.requests a n).filter s.reqUp) s) := by
  unfold loadBytes
  dsimp only
  rw [h0, h1, h2, hm, ha, ← hn, memRead_memWrite]
  simp only [Bool.true_eq_false, Bool.false_eq_true, or_self, if_false]

/-- A plat image of version 5 with one tree of one leaf, for the build that its role names. -/
def platImg (role crc : Nat) : List Byte :=
  leBytes 4 0x54414C50 ++ leBytes 2 1 ++ leBytes 2 5 ++ [BitVec.ofNat 8 role, 0, 1, 0] ++ leBytes 2 1 ++ zeros 2 ++ zeros 4 ++
    leBytes 4 1 ++ leBytes 2 1 ++ leBytes 2 1 ++ zeros 4 ++ leBytes 4 248 ++ leBytes 4 192 ++ leBytes 4 200 ++ leBytes 4 208 ++
    leBytes 4 216 ++ leBytes 4 216 ++ leBytes 4 224 ++ leBytes 4 232 ++ zeros 4 ++ leBytes 4 crc ++ zeros 120 ++
    zeros 8 ++ leBytes 4 0 ++ leBytes 4 1 ++ zeros 8 ++ zeros 8 ++ zeros 8 ++ zeros 16

/-- What a context of parcel 1 keeps. -/
def keep0 (level : Nat) (pub : Bool) : Keep :=
  { parcel := 1, level := level, pub := pub, last := some 0, items := [(0, zeros 8)], resolves := [], trn := [(0, zeros 8)],
    scores := [(0, { platVer := 5, nOut := 1, rows := [] })] }

/-- A state that keeps it, under context number 0. -/
def keeping (x : Keep) (s : State) : State := { s with par := { s.par with keeps := [(0, x)] } }

/-- A golden pack of class 3 and version 5 with one record of 8 bytes. -/
def packImg (crc : Nat) : List Byte :=
  leBytes 4 0x4E544957 ++ leBytes 2 1 ++ leBytes 2 5 ++ [3, 0] ++ leBytes 2 1 ++ leBytes 4 96 ++ leBytes 4 64 ++ zeros 4 ++
    leBytes 4 crc ++ zeros 36 ++ leBytes 4 88 ++ leBytes 4 8 ++ leBytes 4 8 ++ zeros 4 ++ zeros 8 ++ zeros 8

/-- The register at an offset at which one lies. -/
def hitAt (off : Nat) (i : (regAt off).isSome = true) : RegHit := (regAt off).get i

/-- An access names the register at its offset where these hold. -/
theorem names_at {s : State} {off : Nat} (i : (regAt off).isSome = true)
    (h : (hitAt off i).high = false ∧ absentAt s.build off = false ∧ s.sleepHit (hitAt off i) = false ∧
      s.heldHit (hitAt off i) = false ∧
      off % (if (hitAt off i).row.wide then 8 else 4) = 0 ∧ ¬(0x10000 ≤ off ∧ off < 0x15000) ∧ ¬(0x100000 ≤ off ∧ off < 0x180000)) :
    Names s off (hitAt off i) := ⟨(Option.some_get i).symm, h⟩

/-- The upper half of a register marked 64 lies 4 bytes above it. -/
theorem high_at {off : Nat} (i : (regAt off).isSome = true) (j : (regAt (off + 4)).isSome = true)
    (h : hitAt (off + 4) j = { hitAt off i with high := true }) : regAt (off + 4) = some { hitAt off i with high := true } := by
  rw [← h]
  exact (Option.some_get j).symm

/-- A command reaches Pilot from an aperture where these hold. -/
theorem reaches_at {a : Nat} {c : Cmd} {s : State}
    (h : s.pins.por = false ∧ s.pil.booted = true ∧ (s.pilotHeld = false ∧ s.pil.launchQ = []) ∧ c.src = .aperture a ∧ a < 5 ∧
      (a = 4 → c.level = 3) ∧ s.pins.hrst = false ∧ (s.aperture a).st ≠ .busy) : Reaches c s := by
  obtain ⟨h1, h2, hq, h3, h4, h5, h6, h7⟩ := h
  refine ⟨h1, h2, hq, fun b hb => ?_⟩
  rw [h3] at hb; cases hb
  exact ⟨h6, h4, h5, h7⟩

/-- The row of the opcode table and the own part that a code names. -/
def opOf (code : Nat) (c : Cmd) (h : (pilotOp code c).isSome = true) : OpInfo := ((pilotOp code c).get h).1

/-- The own part that a code names. -/
def ownOf (code : Nat) (c : Cmd) (h : (pilotOp code c).isSome = true) : Cmd → State → Ans × State := ((pilotOp code c).get h).2

theorem op_own {code : Nat} {c : Cmd} (h : (pilotOp code c).isSome = true) :
    pilotOp code c = some (opOf code c h, ownOf code c h) := (Option.some_get h).symm

/-- A firmware patch of version 5 without hooks or code, with this second half of its signature. -/
def fwImg (sig : Nat) : List Byte :=
  leBytes 4 0x48435450 ++ leBytes 2 1 ++ leBytes 2 5 ++ leBytes 2 0x201 ++ zeros 2 ++ leBytes 4 128 ++ leBytes 4 64 ++ leBytes 4 64 ++
    zeros 4 ++ leBytes 4 64 ++ zeros 4 ++ zeros 28 ++
    leBytes 32 0x6B17D1F2E12C4247F8BCE6E563A440F277037D812DEB33A0F4A13945D898C296 ++ leBytes 32 sig

/-- The key that signed it. -/
def fwKeyBytes : List Byte :=
  leBytes 32 0x465C30E70AD29EDE81390F1872927E4EF992E4B375782A51EBE9BE01C3D959DE ++
    leBytes 32 0xAF4A7A285BA7017A9DA65DE631EC4530B9D6DD71C89BA12A5423F23D1602DA12

/-- A leaf build with that patch in host memory and that key, loaded or not. -/
def fwState (sig loaded : Nat) : State :=
  withBytes (fwImg sig) (wrs [(PIL_FW_KEY_CTL, loaded)] { leaf with pil := { leaf.pil with fwKey := fwKeyBytes } })

/-- States and operands that meet the hypotheses of `Obligations.FirmwarePatchChecked`: no length, no port, and a patch that passes
every check, one whose signature fails, and one for which no key stands; and an image so long that a tray build asks for leave. -/
theorem witness_FirmwarePatchChecked :
    (∃ c s u, Runs opFwPatch c s u ∧ c.w 4 = 0) ∧
    (∃ c s u, Runs opFwPatch c s u ∧ c.w 4 ≠ 0 ∧ u.fwBusy c = false ∧ u.holdAsks (c.w 4) = true) ∧
    (∃ c s u v, Runs opFwPatch c s u ∧ c.w 4 ≠ 0 ∧ u.fwBusy c = false ∧ u.holdAsks (c.w 4) = false ∧
      loadBytes (c.w64 2) (c.w 4) { u.setF PIL_FW 16 16 0 with pil := { u.pil with patch := [] } } = (none, v)) ∧
    (∃ c s u v b, Runs opFwPatch c s u ∧ c.w 4 ≠ 0 ∧ u.fwBusy c = false ∧ u.holdAsks (c.w 4) = false ∧
      loadBytes (c.w64 2) (c.w 4) { u.setF PIL_FW 16 16 0 with pil := { u.pil with patch := [] } } = (some b, v) ∧
      patchCheck (v.getF PIL_FW 0 16) b.length v.fwKeyPoint b = 0) ∧
    (∃ c s u v b, Runs opFwPatch c s u ∧ c.w 4 ≠ 0 ∧ u.fwBusy c = false ∧ u.holdAsks (c.w 4) = false ∧
      loadBytes (c.w64 2) (c.w 4) { u.setF PIL_FW 16 16 0 with pil := { u.pil with patch := [] } } = (some b, v) ∧
      patchCheck (v.getF PIL_FW 0 16) b.length v.fwKeyPoint b = 8) ∧
    (∃ c s u v b, Runs opFwPatch c s u ∧ c.w 4 ≠ 0 ∧ u.fwBusy c = false ∧ u.holdAsks (c.w 4) = false ∧
      loadBytes (c.w64 2) (c.w 4) { u.setF PIL_FW 16 16 0 with pil := { u.pil with patch := [] } } = (some b, v) ∧
      patchCheck (v.getF PIL_FW 0 16) b.length v.fwKeyPoint b ≠ 0 ∧ patchCheck (v.getF PIL_FW 0 16) b.length v.fwKeyPoint b ≠ 8) :=
  ⟨⟨cmd [0, 0, 0], tray, _, runs_at (by decide), by decide⟩,
   ⟨cmd [0, 0, 0x40001], tray, _, runs_at (by decide), by decide, by decide, by decide⟩,
   ⟨cmd [0xFFFFFFFF, 0xFFFFFFFF, 4], leaf, _, _, runs_at (by decide), by decide, by decide, by decide, by rfl⟩,
   ⟨cmd [0, 0, 128], fwState 0xA6B2F655 1, _, _, fwImg 0xA6B2F655, runs_at (by decide +kernel), by decide, by decide +kernel, by decide +kernel,
    loads (m := []) (a' := 0) (by decide +kernel) (by decide +kernel) (by decide +kernel) (by rfl) (by decide +kernel) (by decide +kernel), by decide +kernel⟩,
   ⟨cmd [0, 0, 128], fwState (0xA6B2F655 + 0x105EC76F1 * 2 ^ 64) 1, _, _, fwImg (0xA6B2F655 + 0x105EC76F1 * 2 ^ 64), runs_at (by decide +kernel), by decide, by decide +kernel, by decide +kernel,
    loads (m := []) (a' := 0) (by decide +kernel) (by decide +kernel) (by decide +kernel) (by rfl) (by decide +kernel) (by decide +kernel), by decide +kernel⟩,
   ⟨cmd [0, 0, 128], fwState 0xA6B2F655 0, _, _, fwImg 0xA6B2F655, runs_at (by decide +kernel), by decide, by decide +kernel, by decide +kernel,
    loads (m := []) (a' := 0) (by decide +kernel) (by decide +kernel) (by decide +kernel) (by rfl) (by decide +kernel) (by decide +kernel), by decide +kernel,
    by decide +kernel⟩⟩

/-- The header of a subspace image up to its CRC: version 5, mode 0, one slot, 32 features, rank 1. -/
def subHead60 : List Byte :=
  leBytes 4 0x53425553 ++ leBytes 2 1 ++ leBytes 2 5 ++ [4, 1] ++ leBytes 2 1 ++ leBytes 4 32 ++ leBytes 2 1 ++ zeros 2 ++ zeros 12 ++
    leBytes 4 16872 ++ leBytes 4 128 ++ leBytes 4 136 ++ leBytes 4 264 ++ zeros 4 ++ leBytes 4 392 ++ zeros 4

/-- What follows its CRC: the tables, three stage descriptors and one tile of weights. -/
def subRest : List Byte :=
  zeros 64 ++ zeros 8 ++ zeros 128 ++ zeros 128 ++ (leBytes 4 488 ++ leBytes 4 32 ++ leBytes 4 1 ++ zeros 20) ++
    (zeros 4 ++ leBytes 4 1 ++ leBytes 4 32 ++ zeros 20) ++ zeros 32 ++ zeros 16384

/-- The image, with its CRC. -/
def subImg : List Byte := subHead60 ++ leBytes 4 (crc32c (subHead60 ++ subRest)) ++ subRest

theorem crcShift_lt {c : Nat} (h : c < 2 ^ 32) : crc32cShift c < 2 ^ 32 := by
  unfold crc32cShift
  split
  · exact Nat.xor_lt_two_pow (by omega) (by decide)
  · omega

theorem crc_lt (bs : List Byte) : crc32c bs < 2 ^ 32 := by
  have key : ∀ (l : List Byte) (c : Nat), c < 2 ^ 32 →
      l.foldl (fun c b => Nat.repeat crc32cShift 8 (c ^^^ b.toNat)) c < 2 ^ 32 := by
    intro l
    induction l with
    | nil => exact fun c h => h
    | cons b l ih =>
      intro c h
      refine ih _ ?_
      have h0 : c ^^^ b.toNat < 2 ^ 32 := Nat.xor_lt_two_pow h (by have := b.isLt; omega)
      exact crcShift_lt (crcShift_lt (crcShift_lt (crcShift_lt (crcShift_lt (crcShift_lt (crcShift_lt (crcShift_lt h0)))))))
  exact Nat.xor_lt_two_pow (key bs _ (by decide)) (by decide)

theorem leNat_leBytes4 (n : Nat) (h : n < 2 ^ 32) : leNat (leBytes 4 n) = n := by
  simp only [leBytes, leNat, BitVec.toNat_ofNat]
  omega

theorem subHead60_length : subHead60.length = 60 := by decide

theorem subRest_length : subRest.length = 16808 := by
  simp only [subRest, zeros, List.length_append, List.length_replicate, leBytes, List.length_cons, List.length_nil]

theorem subImg_length : subImg.length = 16872 := by
  simp only [subImg, List.length_append, subHead60_length, subRest_length, leBytes, List.length_cons, List.length_nil]

theorem subImg_crc : subCrc subImg = (subHead subImg).crc := by
  have h1 : subImg.take 60 = subHead60 := by
    rw [subImg, List.append_assoc, ← subHead60_length, List.take_left]
  have h2 : subImg.drop 60 = leBytes 4 (crc32c (subHead60 ++ subRest)) ++ subRest := by
    rw [subImg, List.append_assoc, ← subHead60_length, List.drop_left]
  have h3 : subImg.drop 64 = subRest := by
    rw [show 64 = 60 + 4 from rfl, ← List.drop_drop, h2]
    rfl
  have h4 : (subHead subImg).crc = leAt subImg 60 4 := rfl
  rw [h4, leAt, slice, h2, subCrc, h1, h3]
  exact (leNat_leBytes4 _ (crc_lt _)).symm

theorem subImg_check (r : Bool) : subCheck 5 16872 false r subImg = none := by
  have c1 : subCheck1 5 false (subHead subImg) = none := by decide +kernel
  have c2 : ∀ r, subCheck2 r (subHead subImg) = none := by decide +kernel
  have c3 : subCheck3 16872 subImg (subHead subImg) = none := by decide +kernel
  have c4 : subCheck4 subImg (subHead subImg) = none := by decide +kernel
  have c5 : subCheck5 subImg (subHead subImg) = none := by decide +kernel
  have c6 : subCheck6 subImg (subHead subImg) = none := by decide +kernel
  have c7 : subCheck7 subImg (subHead subImg) = none := by decide +kernel
  unfold subCheck
  simp only [c1, c2, c3, c4, c5, c6, c7, subImg_crc, if_true]

theorem subImg_ok {v n : Nat} {l r : Bool} (h1 : v = 5) (h2 : n = 16872) (h3 : l = false) : subCheck v n l r subImg = none := by
  subst h1 h2 h3
  exact subImg_check r

theorem opened_mem (c : Cmd) (s : State) : (opened c s).mem = s.mem := by
  unfold opened
  split <;> rfl

theorem withBytes_mem (bs : List Byte) (s : State) : (withBytes bs s).mem = memWrite s.mem 0 bs := mem_setMem _ _


/-- The deadline that a window of samples gives (R182). -/
def gateD (s : State) (y : Ctx) : Nat :=
  if y.samples = [] then y.dl
  else min (max (q99Of y.samples + s.rd (EPO_DL_MARGIN y.level)) (s.rd (EPO_DL_FLOOR y.level))) (s.rd (EPO_DL_CEIL y.level))

/-- The stages of a closing gate, as `Obligations.GateEventsComplete` names them: the window's end, … -/
def gateW (s : State) (n : Nat) (y : Ctx) : State :=
  if y.window < 128 then s else s.modCtx n (fun v => { v with
    window := 0, samples := [], marginDue := false, q99 := if y.samples = [] then v.q99 else q99Of y.samples,
    dl := if y.marginDue = true then min (gateD s y + s.rd (EPO_DL_MARGIN y.level)) (s.rd (EPO_DL_CEIL y.level)) else gateD s y })

/-- … the gate closed, … -/
def gateT (s : State) (n : Nat) (y : Ctx) (e : Epoch) : State :=
  (gateW s n y).modEpoch n e.k (fun v => { v with gate := true, tClose := s.now })

/-- … the epoch counted in its window, … -/
def gateU (t : State) (n : Nat) (x : Epoch) : State :=
  match t.ctx? n with
  | none => t
  | some b => t.modCtx n (fun v => { v with
      window := v.window + 1, marginDue := v.marginDue || (decide (0 < x.timeouts) && decide (127 ≤ b.window)), stalled := false,
      dl := if (decide (0 < x.timeouts) && !decide (127 ≤ b.window)) = true
        then min (b.dl + t.rd (EPO_DL_MARGIN b.level)) (t.rd (EPO_DL_CEIL b.level)) else b.dl })

theorem gateU_is {t : State} {n : Nat} {x : Epoch} {b : Ctx} (h : t.ctx? n = some b) :
    gateU t n x = t.modCtx n (fun v => { v with
      window := v.window + 1, marginDue := v.marginDue || (decide (0 < x.timeouts) && decide (127 ≤ b.window)), stalled := false,
      dl := if (decide (0 < x.timeouts) && !decide (127 ≤ b.window)) = true
        then min (b.dl + t.rd (EPO_DL_MARGIN b.level)) (t.rd (EPO_DL_CEIL b.level)) else b.dl }) := by rw [gateU, h]

/-- … Transit's checks begun, … -/
def gateZ (s : State) (n : Nat) (y : Ctx) (e x : Epoch) : State :=
  satCheck (if y.level = 1 then trnBegin n e.k (gateU (gateT s n y e) n x) else gateU (gateT s n y e) n x)

/-- … and the epoch finished. -/
def gateR (z : State) (n k : Nat) (cz : Ctx) (ez : Epoch) : State :=
  if cz.level = 1 then cadBegin n k (z.modEpoch n k (fun v => { v with fin := true }))
  else ((z.modEpoch n k (fun v => { v with fin := true })).modEpoch n k (fun v => { v with trnBytes := (epochSections ez).1 })).inc
    TRN_SEC_MISMATCH (epochSections ez).2
/-- States and operands that meet the hypotheses of `Obligations.PilotOwnCommandsComplete`, for each of its clauses. -/
theorem witness_PilotOwnCommandsComplete :
    (∃ (c : _) (s : State) (u : _), Runs opNop c s u) ∧
    (∃ (c : _) (s : State) (u : _), Runs opEcho c s u) ∧
    (∃ (c : _) (s : State) (u : _), Runs opIdent c s u) ∧
    (∃ (c : _) (s : State) (u : _), Runs opPwrSet c s u ∧
      c.f 2 0 16 ≠ 0 ∧
      c.f 2 16 16 = 0 ∧
      c.f 4 11 21 = 0 ∧
      (if u.isTray then c.f 3 16 16 ≠ 0 ∧ c.f 3 11 5 = 0 else c.w 3 = 0)) ∧
    (∃ (c : _) (s : State) (u : _), Runs opKeySet c s u ∧
      bit (c.w 2) 8 = true ∧
      c.f 3 0 16 ≠ 0 ∧
      (∀ i, i < 8 → i ≠ c.f 2 0 3 → u.getB (PIL_KEY_ID i) 31 = true → u.getF (PIL_KEY_ID i) 0 16 ≠ c.f 3 0 16) ∧
      ¬(u.getB PIL_CTL 7 = true ∧ u.getF PIL_CTL 0 3 = c.f 2 0 3)) ∧
    (∃ (c : _) (s : State) (u : _), Runs opKeySet c s u ∧
      bit (c.w 2) 8 = false ∧
      ¬(u.getB PIL_CTL 7 = true ∧ u.getF PIL_CTL 0 3 = c.f 2 0 3)) ∧
    (∃ (c : _) (s : State) (u : _), Runs opPilSet c s u ∧
      c.f 2 16 16 ≠ 0 ∧
      c.f 2 8 8 = 0 ∧
      c.f 2 3 4 = 0 ∧
      (bit (c.w 2) 7 = true → u.getB (PIL_KEY_ID (c.f 2 0 3)) 31 = true)) ∧
    (∃ (c : _) (s : State) (u : _), Runs opFwKey c s u ∧
      (bit (c.w 2) 1 = true → p256OnCurve (keyPoint (keyBytes c)) = true)) ∧
    (∃ (c : _) (s : State) (u : _), Runs opFwRevert c s u ∧
      u.fwBusy c = false) :=
  ⟨⟨cmd [], tray, _, runs_at (by decide)⟩,
   ⟨cmd [1, 2], tray, _, runs_at (by decide)⟩,
   ⟨cmd [], leaf, _, runs_at (by decide)⟩,
   ⟨cmd [1, 0x10000, 0], tray, _, runs_at (by decide), by decide, by decide, by decide, by decide⟩,
   ⟨cmd [0x100, 5, 1, 2, 3, 4, 5, 6, 7, 8], tray, _, runs_at (by decide), by decide, by decide, by decide, by decide⟩,
   ⟨cmd [0, 0, 0, 0, 0, 0, 0, 0, 0, 0], tray, _, runs_at (by decide), by decide, by decide⟩,
   ⟨cmd [0x10000], tray, _, runs_at (by decide), by decide, by decide, by decide, by decide⟩,
   ⟨cmd [0, 0, 0, 0, 0, 0, 0, 0, 0, 0, 0, 0, 0, 0, 0, 0, 0], tray, _, runs_at (by decide), by decide⟩,
   ⟨cmd [], tray, _, runs_at (by decide), by decide⟩⟩

/-- States and operands that meet the hypotheses of `Obligations.PilotOwnCommandsRefuse`, for each of its clauses. -/
theorem witness_PilotOwnCommandsRefuse :
    (∃ (c : _) (s : State) (u : _), Runs opPwrSet c s u ∧
      (c.f 2 0 16 = 0 ∨ c.f 2 16 16 ≠ 0 ∨ c.f 4 11 21 ≠ 0 ∨ (if u.isTray then c.f 3 16 16 = 0 ∨ c.f 3 11 5 ≠ 0 else c.w 3 ≠ 0))) ∧
    (∃ (c : _) (s : State) (u : _), Runs opKeySet c s u ∧
      bit (c.w 2) 8 = true ∧
      (c.f 3 0 16 = 0 ∨ ∃ i, i < 8 ∧ i ≠ c.f 2 0 3 ∧ u.getB (PIL_KEY_ID i) 31 = true ∧ u.getF (PIL_KEY_ID i) 0 16 = c.f 3 0 16)) ∧
    (∃ (c : _) (s : State) (u : _), Runs opKeySet c s u ∧
      bit (c.w 2) 8 = true ∧
      c.f 3 0 16 ≠ 0 ∧
      (∀ i, i < 8 → i ≠ c.f 2 0 3 → u.getB (PIL_KEY_ID i) 31 = true → u.getF (PIL_KEY_ID i) 0 16 ≠ c.f 3 0 16) ∧
      u.getB PIL_CTL 7 = true ∧
      u.getF PIL_CTL 0 3 = c.f 2 0 3) ∧
    (∃ (c : _) (s : State) (u : _), Runs opKeySet c s u ∧
      bit (c.w 2) 8 = false ∧
      u.getB PIL_CTL 7 = true ∧
      u.getF PIL_CTL 0 3 = c.f 2 0 3) ∧
    (∃ (c : _) (s : State) (u : _), Runs opPilSet c s u ∧
      (c.f 2 16 16 = 0 ∨ c.f 2 8 8 ≠ 0 ∨ c.f 2 3 4 ≠ 0 ∨ (bit (c.w 2) 7 = true ∧ u.getB (PIL_KEY_ID (c.f 2 0 3)) 31 = false))) ∧
    (∃ (c : _) (s : State) (u : _), Runs opFwKey c s u ∧
      bit (c.w 2) 1 = true ∧
      p256OnCurve (keyPoint (keyBytes c)) = false) ∧
    (∃ (c : _) (s : State) (u : _), Runs opFwRevert c s u ∧
      u.fwBusy c = true) ∧
    (∃ (c : _) (s : State) (u : _), Runs opFwPatch c s u ∧
      c.w 4 ≠ 0 ∧
      u.fwBusy c = true) :=
  ⟨⟨cmd [0, 0, 0], tray, _, runs_at (by decide), by decide⟩,
   ⟨cmd [0x100, 0, 1, 2, 3, 4, 5, 6, 7, 8], tray, _, runs_at (by decide), by decide, by decide⟩,
   ⟨cmd [0x100, 5, 1, 2, 3, 4, 5, 6, 7, 8], tray.wr PIL_CTL 0x80, _, runs_at (by decide), by decide, by decide, by decide, by decide, by decide⟩,
   ⟨cmd [0, 0, 0, 0, 0, 0, 0, 0, 0, 0], tray.wr PIL_CTL 0x80, _, runs_at (by decide), by decide, by decide, by decide⟩,
   ⟨cmd [0], tray, _, runs_at (by decide), by decide⟩,
   ⟨cmd [2, 0, 0, 0, 0, 0, 0, 0, 0, 0, 0, 0, 0, 0, 0, 0, 0], tray, _, runs_at (by decide), by decide, by decide⟩,
   ⟨cmd [], tray.wr PIL_ASYNC 1, _, runs_at (by decide), by decide⟩,
   ⟨cmd [0, 0, 1], tray.wr PIL_ASYNC 1, _, runs_at (by decide), by decide, by decide⟩⟩

/-- States and operands that meet the hypotheses of `Obligations.ParcelCommandsComplete`, for each of its clauses. -/
theorem witness_ParcelCommandsComplete :
    (∃ (c : _) (s : State) (u : _), Runs opParcelDefine c s u ∧
      c.f 2 0 2 = 0 ∧
      c.f 3 0 10 = 0) ∧
    (∃ (c : _) (s : State) (u : _) (old : _) (new : _), Runs opParcelDefine c s u ∧
      (c.f 2 0 2 = 1 ∨ c.f 2 0 2 = 2) ∧
      c.f 3 0 10 ≠ 0 ∧
      c.f 3 0 10 ≤ 510 ∧
      old = (u.staged? c.parcel).getD { parcel := c.parcel, probes := [], members := [] } ∧
      new = (if c.f 2 0 2 = 1 then old.probes else old.members).take (c.f 2 16 16) ++ defineEntries c ∧
      c.f 2 16 16 ≤ (if c.f 2 0 2 = 1 then old.probes else old.members).length ∧
      new.length ≤ (if c.f 2 0 2 = 1 then 256 else if u.isTray then 16384 else 1) ∧
      ascending (new.map (fun e => if c.f 2 0 2 = 1 then fld e.1 0 10 else memTray e)) = true ∧
      ((u.staged? c.parcel).isSome ∨ u.par.staged.length < (if u.isTray then 4 else 1))) ∧
    (∃ (c : _) (s : State) (u : _) (d : _), Runs opParcelReserve c s u ∧
      u.staged? c.parcel = some d ∧
      c.w 2 ≠ 0 ∧
      (u.resvLevel d.entries).isSome ∧
      (∀ x ∈ u.par.claims, x.parcel = c.parcel → x.only = true)) ∧
    (∃ (c : _) (s : State) (u : _) (t : _) (n : _) (x : _) (y : _), Runs opParcelCommit c s u ∧
      c.time 2 = some t ∧
      (u.ruleLead : Int) ≤ timeDiff t u.now ∧
      u.ctxHigh c.parcel = some y ∧
      u.ctxPub c.parcel = some (n, x) ∧
      x.phase = .reserved ∧
      x.resvOk = true) ∧
    (∃ (c : _) (s : State) (u : _) (n : _) (x : _) (y : _), Runs opParcelRelease c s u ∧
      u.ctxHigh c.parcel = some y ∧
      u.ctxPub c.parcel = some (n, x) ∧
      x.phase = .reserved) ∧
    (∃ (c : _) (s : State) (u : _) (n : _) (x : _) (y : _) (r : _), Runs opParcelRelease c s u ∧
      u.ctxHigh c.parcel = some y ∧
      u.ctxPub c.parcel = some (n, x) ∧
      x.phase ≠ .reserved ∧
      x.phase ≠ .releasing ∧
      x.phase ≠ .draining ∧
      r = ({ no := 0, kind := 9, atEpoch := true, fleet := false, effect := c.epoch 2, issuer := 0, level := x.level, parcel := c.parcel, body := [] } : Ruling) ∧
      u.leadShort r = false) ∧
    (∃ (c : _) (s : State) (u : _) (y : _), Runs opParcelFree c s u ∧
      u.ctxHigh c.parcel = some y ∧
      (y.2.isLive = true → bit (c.w 2) 0 = true)) ∧
    (∃ (c : _) (s : State) (u : _), Runs opParcelCfg c s u ∧
      c.f 2 16 16 ≠ 0 ∧
      c.f 2 10 6 = 0 ∧
      c.f 2 0 10 ≠ 0 ∧
      c.f 3 24 8 = 0 ∧
      10 ≤ c.f 3 0 24 ∧
      c.f 3 0 24 ≤ 10000000) :=
  ⟨⟨cmd [0, 0], tray, _, runs_at (by decide), by decide, by decide⟩,
   ⟨cmd [1, 1, 5, 0], tray, _, _, _, runs_at (by decide), by decide, by decide, by decide, rfl, rfl, by decide, by decide, by decide, by decide⟩,
   ⟨cmd [1, 0], { leaf with par := { leaf.par with staged := [({ parcel := 1, probes := [], members := [] } : Staged)] } }, _, _, runs_at (by decide), rfl, by decide, by decide, by decide⟩,
   ⟨cmd [0, 0x10000, 0], holding { ctx0 0 true with phase := .reserved } leaf, _, secU, _, _, _, runs_at (by decide), by decide, by decide, rfl, rfl, by decide, by decide⟩,
   ⟨cmd [0, 0], holding { ctx0 0 true with phase := .reserved } leaf, _, _, _, _, runs_at (by decide), rfl, rfl, by decide⟩,
   ⟨cmd [100, 0], holding (ctx0 0 true) leaf, _, _, _, _, _, runs_at (by decide), rfl, rfl, by decide, by decide, by decide, rfl, by decide⟩,
   ⟨cmd [1], holding (ctx0 0 true) leaf, _, _, runs_at (by decide), rfl, by decide⟩,
   ⟨cmd [0x10001, 10000000], tray, _, runs_at (by decide), by decide, by decide, by decide, by decide, by decide, by decide⟩⟩

/-- States and operands that meet the hypotheses of `Obligations.RulingCommandsComplete`, for each of its clauses. -/
theorem witness_RulingCommandsComplete :
    (∃ (c : _) (s : State) (u : _) (r : _), Runs (opRulingIssue c) c s u ∧
      rulingCmdBad c u = false ∧
      rulingOfCmd c u = some r ∧
      u.leadShort r = false) ∧
    (∃ (c : _) (s : State) (u : _) (r : _), Runs (opRulingIssue c) c s u ∧
      rulingCmdBad c u = false ∧
      rulingOfCmd c u = some r ∧
      u.leadShort r = true) ∧
    (∃ (c : _) (s : State) (u : _), Runs (opRulingIssue c) c s u ∧
      (rulingCmdBad c u = true ∨ rulingOfCmd c u = none)) ∧
    (∃ (c : _) (s : State) (u : _) (t : _) (m : _), Runs opStopAt c s u ∧
      c.time 2 = some t ∧
      (1000 * 2 ^ 32 : Int) ≤ timeDiff t u.now ∧
      m < 4 ∧
      u.getB (DAT_STOP_CTL m) 0 = false ∧
      (∀ k, k < m → u.getB (DAT_STOP_CTL k) 0 = true)) ∧
    (∃ (c : _) (s : State) (u : _) (t : _), Runs opStopAt c s u ∧
      c.time 2 = some t ∧
      timeDiff t u.now < (1000 * 2 ^ 32 : Int)) ∧
    (∃ (c : _) (s : State) (u : _) (t : _), Runs opStopAt c s u ∧
      c.time 2 = some t ∧
      (1000 * 2 ^ 32 : Int) ≤ timeDiff t u.now ∧
      (∀ m, m < 4 → u.getB (DAT_STOP_CTL m) 0 = true)) ∧
    (∃ (c : _) (s : State) (u : _) (ms : _), Runs opStopDisarm c s u ∧
      ms = (setBits 4 (c.w 2)).filter (fun m => u.getB (DAT_STOP_CTL m) 0)) :=
  ⟨⟨cmd [0x203, 0, 0x10000, 0, 0], tray, _, _, runs_at (by decide), by decide, rfl, by decide⟩,
   ⟨cmd [0x203, 0, 0, 0, 0], tray, _, _, runs_at (by decide), by decide, rfl, by decide⟩,
   ⟨cmd [0, 0, 0, 0, 0], tray, _, runs_at (by decide), by decide⟩,
   ⟨cmd [0, 0x10000, 0], wrs [(DAT_STOP_CTL 0, 1), (DAT_STOP_CTL 1, 1), (DAT_STOP_CTL 2, 1)] tray, _, secU, 3, runs_at (by decide), by decide, by decide, by decide, by decide, by decide⟩,
   ⟨cmd [0, 0, 0], tray, _, 0, runs_at (by decide), by decide, by decide⟩,
   ⟨cmd [0, 0x10000, 0], wrs [(DAT_STOP_CTL 0, 1), (DAT_STOP_CTL 1, 1), (DAT_STOP_CTL 2, 1), (DAT_STOP_CTL 3, 1)] tray, _, secU, runs_at (by decide), by decide, by decide, by decide⟩,
   ⟨cmd [15], wrs [(DAT_STOP_CTL 0, 1), (DAT_STOP_CTL 1, 1), (DAT_STOP_CTL 2, 1)] tray, _, _, runs_at (by decide), rfl⟩⟩

/-- States and operands that meet the hypotheses of `Obligations.EpochCommandsComplete`, for each of its clauses. -/
theorem witness_EpochCommandsComplete :
    (∃ (c : _) (s : State) (u : _) (x : _) (bs : List Byte) (ok : _) (v : _), Runs opEpochRead c s u ∧
      c.w 4 % 4 = 0 ∧
      c.f 5 0 13 % 4 = 0 ∧
      c.f 5 0 13 ≤ 4080 ∧
      u.epochItem c.parcel (c.epoch 2) (c.f 5 16 1) (c.f 5 17 3) = (x, bs) ∧
      (if x = 0 then keptReads u else (true, u)) = (ok, v) ∧
      (x = 0 → ok = true → c.w 4 < bs.length) ∧
      (x = 0 → u.holdAsks (min (c.f 5 0 13) (bs.length - c.w 4)) = false)) ∧
    (∃ (c : _) (s : State) (u : _) (bs : List Byte), Runs opEpochRead c s u ∧
      c.w 4 % 4 = 0 ∧
      c.f 5 0 13 % 4 = 0 ∧
      c.f 5 0 13 ≤ 4080 ∧
      u.epochItem c.parcel (c.epoch 2) (c.f 5 16 1) (c.f 5 17 3) = (0, bs) ∧
      c.w 4 < bs.length ∧
      u.holdAsks (min (c.f 5 0 13) (bs.length - c.w 4)) = true) ∧
    (∃ (c : _) (s : State) (u : _), Runs opDeadlineSet c s u ∧
      1 ≤ c.f 2 0 3 ∧
      c.f 2 0 3 ≤ 4 ∧
      c.w 3 ≠ 0 ∧
      c.w 5 ≠ 0 ∧
      c.w 3 ≤ c.w 4) ∧
    (∃ (c : _) (s : State) (u : _), Runs opStrictSet c s u ∧
      u.par.ctxs = []) ∧
    (∃ (c : _) (s : State) (u : _) (n : _) (x : _) (d : _) (v : _), Runs opAbsentDeclare c s u ∧
      (u.ctxsOf c.parcel).find? (fun e => e.2.kids.any (fun k => k.station == c.f 4 0 20)) = some (n, x) ∧
      declareAbsent n (c.f 4 0 20) (c.epoch 2) (c.f 5 0 16) u = (d, v)) ∧
    (∃ (c : _) (s : State) (u : _) (n : _) (x : _) (r : _), Runs opClosurePull c s u ∧
      u.pulledCtx c = some (n, x) ∧
      c.f 4 0 5 ≤ 16 ∧
      (c.f 4 0 5 ≠ 0 → x.pub = false ∧ (x.unsent (c.epoch 2) = true ∨ ((u.keep? n).bind (fun y => Tbl.get? y.items (c.epoch 2))).isSome)) ∧
      r = (List.range (c.f 4 0 5)).foldl (fun (a : Nat × State) i => (a.1 + (resendOne n x (c.epoch 2 + i) a.2).1, (resendOne n x (c.epoch 2 + i) a.2).2)) (0, u)) ∧
    (∃ (c : _) (s : State) (u : _) (n : _) (x : _) (e : _), Runs opVoteRaise c s u ∧
      c.f 2 0 5 ≤ 16 ∧
      (∀ v ∈ voteEnts c, stNames (v.1 / 4096) = true) ∧
      u.ctxLow c.parcel = some (n, x) ∧
      x.committed = true ∧
      x.current = some e ∧
      (e.votes.own.filter (fun k => keyKind k == 5)).length + ((((voteEnts c).filter (fun v => v.2 != 0)).map (fun v => voteKey v.1 5)).eraseDups.filter (fun k => !e.votes.own.contains k)).length ≤ 64) ∧
    (∃ (c : _) (s : State) (u : _), Runs opTallySet c s u ∧
      c.f 2 17 15 = 0 ∧
      10 ≤ c.f 2 0 16 ∧
      c.f 2 0 16 ≤ 10000) ∧
    (∃ (c : _) (s : State) (u : _) (n : _) (x : _) (y : _), Runs opVerdictSet c s u ∧
      u.ctxHigh c.parcel = some y ∧
      u.ctxPub c.parcel = some (n, x) ∧
      c.f 2 24 8 ≠ 0 ∧
      2 ≤ c.f 2 16 8 ∧
      c.f 2 0 16 ≠ 0 ∧
      c.f 3 24 8 ≠ 0 ∧
      c.f 3 16 8 ≠ 0 ∧
      c.f 3 8 8 ≠ 0 ∧
      c.f 3 0 8 ≠ 0 ∧
      c.f 4 16 16 ≠ 0 ∧
      c.f 4 2 14 = 0) ∧
    (∃ (c : _) (s : State) (u : _), Runs opVerdictRead c s u ∧
      c.w 3 ≤ 63) ∧
    (∃ (c : _) (s : State) (u : _), Runs opVerdictRead c s u ∧
      63 < c.w 3) ∧
    (∃ (c : _) (s : State) (u : _), Runs opVerdictSink c s u ∧
      c.f 2 16 16 ≠ 0) :=
  ⟨⟨cmd [0, 0, 4, 4], keeping (keep0 0 true) leaf, _, 0, zeros 8, true, _, runs_at (by decide), by decide, by decide, by decide, by decide, rfl, by decide, by decide⟩,
   ⟨cmd [0, 0, 4, 4], keeping (keep0 0 true) (wrs [(PWR_HOLD_CFG, 0)] { tray with pins := { tray.pins with memTrained := 0xFFF } }), _, zeros 8, runs_at (by decide), by decide, by decide, by decide, by decide, by decide, by decide⟩,
   ⟨cmd [4, 1, 1, 1], tray, _, runs_at (by decide), by decide, by decide, by decide, by decide, by decide⟩,
   ⟨cmd [1], tray, _, runs_at (by decide), by decide⟩,
   ⟨cmd [0, 0, 64, 1], holding { ctx0 1 true with kids := [{ station := 64, level := 0, members := 1 }] } tray, _, _, _, _, _, runs_at (by decide), rfl, rfl⟩,
   ⟨cmd [0, 0, 0x100], holding (ctx0 1 true) tray, _, _, _, _, runs_at (by decide), rfl, by decide, by decide, rfl⟩,
   ⟨cmd [1, 0, 1], holding { ctx0 0 true with epochs := [ep0 0] } leaf, _, _, _, _, runs_at (by decide), by decide, by decide, rfl, by decide, rfl, by decide⟩,
   ⟨cmd [10000], tray, _, runs_at (by decide), by decide, by decide, by decide⟩,
   ⟨cmd [0x01020001, 0x01010101, 0x00010000], holding (ctx0 0 true) leaf, _, _, _, _, runs_at (by decide), rfl, rfl, by decide, by decide, by decide, by decide, by decide, by decide, by decide, by decide, by decide⟩,
   ⟨cmd [0, 0], tray, _, runs_at (by decide), by decide⟩,
   ⟨cmd [0, 64], tray, _, runs_at (by decide), by decide⟩,
   ⟨cmd [0x10000, 0, 0, 0, 0], tray, _, runs_at (by decide), by decide⟩⟩

/-- States and operands that meet the hypotheses of `Obligations.ProbeCommandsComplete`, for each of its clauses. -/
theorem witness_ProbeCommandsComplete :
    (∃ (c : _) (s : State) (u : _) (ds : _) (v : _), Runs opProbeSet c s u ∧
      c.f 2 16 9 ≤ 255 ∧
      c.f 2 0 10 + c.f 2 16 9 ≤ 1024 ∧
      ds = (List.range (c.f 2 16 9)).map (fun i => (c.f 2 0 10 + i, descOf (c.w (3 + 4 * i)) (c.w (4 + 4 * i)) (c.w (5 + 4 * i)) (c.w (6 + 4 * i)))) ∧
      v = u.each ds (fun e t => putDesc e.1 e.2 t) ∧
      (∀ e ∈ ds, bit e.2.w0 31 = true → e.2.bad u.isTray = false) ∧
      descClash (if c.f 2 16 9 = 0 then [] else ((List.range 1024).filter (fun p => v.getB (PRB_DESC p 0) 31)).map v.desc) = false ∧
      (∀ e ∈ ds, u.probeInUse e.1 = false)) ∧
    (∃ (c : _) (s : State) (u : _), Runs opTapMap c s u ∧
      c.f 3 0 11 ≤ 1024 ∧
      c.f 2 16 10 + c.f 3 0 11 ≤ 1024 ∧
      (∀ x ∈ tapMapEnts c, u.getF (TAP_MAP (c.f 2 0 6) (x.1 / 2)) (16 * (x.1 % 2)) 16 = x.2 ∨ (u.counterUsed (1024 * c.f 2 0 6 + u.getF (TAP_MAP (c.f 2 0 6) (x.1 / 2)) (16 * (x.1 % 2)) 16 % 1024) = false ∧ u.counterUsed (1024 * c.f 2 0 6 + x.2 % 1024) = false)) ∧
      u.podOn (c.f 2 0 6) = true) ∧
    (∃ (c : _) (s : State) (u : _) (v : _), Runs opTapClear c s u ∧
      c.f 2 0 16 + c.f 3 0 17 ≤ 65536 ∧
      c.f 3 0 17 ≠ 0 ∧
      v = u.each ((List.range 64).filter (fun p => u.podOn p && decide (c.f 2 0 16 < 1024 * (p + 1)) && decide (1024 * p < c.f 2 0 16 + c.f 3 0 17))) (podClearAsk u.pil.nextJob (c.f 2 0 16) (c.f 3 0 17))) ∧
    (∃ (c : _) (s : State) (u : _), Runs opTapClear c s u ∧
      c.f 2 0 16 ≤ 65536 ∧
      c.f 3 0 17 = 0) ∧
    (∃ (c : _) (s : State) (u : _), Runs opTrkSet c s u ∧
      c.f 2 8 9 ≤ 170 ∧
      c.f 2 0 8 + c.f 2 8 9 ≤ 256 ∧
      (∀ i, i < c.f 2 8 9 → c.f (3 + 6 * i) 12 4 ≠ 0 ∧ c.f (4 + 6 * i) 16 6 ≤ 32 ∧ c.w (6 + 6 * i) ≠ 0)) ∧
    (∃ (c : _) (s : State) (u : _), Runs opInputSet c s u ∧
      c.f 2 0 9 ≤ (if u.isTray then 64 else 256) ∧
      c.f 3 0 12 ≠ 0 ∧
      (∀ p ∈ u.probesUsed, ((u.desc p).pair.1 = 2 → fld (u.desc p).w0 0 16 < c.f 2 0 9 ∨ u.gaugeCount ≤ fld (u.desc p).w0 0 16) ∧ ((u.desc p).pair.1 = 3 → u.beatOn (fld (u.desc p).w0 0 16) = true → bit (c.f 2 16 8) (fld (u.desc p).w0 0 16) = true))) :=
  ⟨⟨cmd [0x103FF, 0, 0, 0, 0], tray, _, _, _, runs_at (by decide), by decide, by decide, rfl, rfl, by decide, by decide, by decide⟩,
   ⟨cmd [0x3FE003F, 2, 0x80058004], { leaf with pins := { leaf.pins with tapOn := 2 ^ 63 } }, _, runs_at (by decide), by decide, by decide, by decide, by decide⟩,
   ⟨cmd [0xFFFF, 1], { leaf with pins := { leaf.pins with tapOn := 2 ^ 63 } }, _, _, runs_at (by decide), by decide, by decide, rfl⟩,
   ⟨cmd [0xFFFF, 0], leaf, _, runs_at (by decide), by decide, by decide⟩,
   ⟨cmd [0x1FF, 0x1000, 0x200000, 0, 1, 0, 0], tray, _, runs_at (by decide), by decide, by decide, by decide⟩,
   ⟨cmd [256, 1], leaf, _, runs_at (by decide), by decide, by decide, by decide⟩⟩

/-- States and operands that meet the hypotheses of `Obligations.CadastreCommandsComplete`, for each of its clauses. -/
theorem witness_CadastreCommandsComplete :
    (∃ (c : _) (s : State) (u : _), Runs opPlatLoad c s u ∧
      c.w 4 ≠ 0 ∧
      u.fenced .cadastre = false ∧
      u.quiesced .cadastre = false ∧
      u.holdAsks (c.w 4) = true) ∧
    (∃ (c : _) (s : State) (u : _) (b : _) (v : _) (i : _), Runs opPlatLoad c s u ∧
      c.w 4 ≠ 0 ∧
      u.fenced .cadastre = false ∧
      u.quiesced .cadastre = false ∧
      u.holdAsks (c.w 4) = false ∧
      loadBytes (c.w64 2) (c.w 4) u = (some b, v) ∧
      platCheck v.build v.cadBanks (if bit (c.w 5) 16 || v.cadWindow = 0 then none else some v.cadWindow) (c.f 5 0 16) b.length (v.platSlot (c.f 5 0 16)).isSome b = none ∧
      platSigOk v.platKey (v.getB CAD_KEY_CTL 1) b = true ∧
      (List.range v.platSlots).find? (fun k => v.platState k == 0) = some i ∧
      bit (c.w 5) 16 = true ∧
      v.platFits b = true) ∧
    (∃ (c : _) (s : State) (u : _) (b : _) (v : _) (i : _), Runs opPlatLoad c s u ∧
      c.w 4 ≠ 0 ∧
      u.fenced .cadastre = false ∧
      u.quiesced .cadastre = false ∧
      u.holdAsks (c.w 4) = false ∧
      loadBytes (c.w64 2) (c.w 4) u = (some b, v) ∧
      platCheck v.build v.cadBanks (if bit (c.w 5) 16 || v.cadWindow = 0 then none else some v.cadWindow) (c.f 5 0 16) b.length (v.platSlot (c.f 5 0 16)).isSome b = none ∧
      platSigOk v.platKey (v.getB CAD_KEY_CTL 1) b = true ∧
      (List.range v.platSlots).find? (fun k => v.platState k == 0) = some i ∧
      bit (c.w 5) 16 = false ∧
      v.cadWindow ≠ 0) ∧
    (∃ (c : _) (s : State) (u : _) (b : _) (v : _) (k : _) (x : _), Runs opPlatLoad c s u ∧
      c.w 4 ≠ 0 ∧
      u.fenced .cadastre = false ∧
      u.quiesced .cadastre = false ∧
      u.holdAsks (c.w 4) = false ∧
      loadBytes (c.w64 2) (c.w 4) u = (some b, v) ∧
      platCheck v.build v.cadBanks (if bit (c.w 5) 16 || v.cadWindow = 0 then none else some v.cadWindow) (c.f 5 0 16) b.length (v.platSlot (c.f 5 0 16)).isSome b = some (k, x)) ∧
    (∃ (c : _) (s : State) (u : _) (i : _), Runs opPlatUnload c s u ∧
      readySlot CAD_PLAT_ID u.platSlots u (c.f 2 0 16) = some i ∧
      u.platBound (c.f 2 0 16) = 0 ∧
      u.platNamed (c.f 2 0 16) = false) ∧
    (∃ (c : _) (s : State) (u : _), Runs opPlatKey c s u ∧
      (bit (c.w 2) 1 = true → p256OnCurve (keyPoint (keyBytes c)) = true) ∧
      (bit (c.w 2) 0 = true → bit (c.w 2) 1 = true)) ∧
    (∃ (c : _) (s : State) (u : _), Runs opCadSet c s u ∧
      c.f 2 16 16 ≠ 0 ∧
      c.f 2 12 4 = 0 ∧
      c.f 2 0 12 % 256 = 0 ∧
      c.f 2 0 12 ≤ u.bankSize ∧
      c.f 3 11 21 = 0 ∧
      (c.f 2 0 12 = u.cadWindow ∨ ∀ i, i < u.platSlots → u.platState i = 0)) ∧
    (∃ (c : _) (s : State) (u : _) (n : _) (x : _) (ks : _) (y : _), Runs opScoreRead c s u ∧
      c.f 4 0 6 + c.f 4 8 6 ≤ 33 ∧
      u.ctxAt c.parcel u.ownLevel = some (n, x) ∧
      u.keep? n = some ks ∧
      Tbl.get? ks.scores (c.epoch 2) = some y) ∧
    (∃ (c : _) (s : State) (u : _) (i : _), Runs opScoreRow c s u ∧
      u.fenced .cadastre = false ∧
      u.quiesced .cadastre = false ∧
      readySlot CAD_PLAT_ID u.platSlots u (c.f 2 0 16) = some i ∧
      c.f 3 16 11 ≤ 1019 ∧
      c.f 3 0 10 + c.f 3 16 11 ≤ 1024 ∧
      (u.cad.pass ≠ none ∨ u.wit.selfRun ≠ none)) ∧
    (∃ (c : _) (s : State) (u : _) (i : _) (b : _), Runs opScoreRow c s u ∧
      u.fenced .cadastre = false ∧
      u.quiesced .cadastre = false ∧
      readySlot CAD_PLAT_ID u.platSlots u (c.f 2 0 16) = some i ∧
      c.f 3 16 11 ≤ 1019 ∧
      c.f 3 0 10 + c.f 3 16 11 ≤ 1024 ∧
      u.cad.pass = none ∧
      u.wit.selfRun = none ∧
      u.platResident i = true ∧
      Tbl.get? u.cad.resident i = some b) ∧
    (∃ (c : _) (s : State) (u : _) (i : _), Runs opScoreRow c s u ∧
      u.fenced .cadastre = false ∧
      u.quiesced .cadastre = false ∧
      readySlot CAD_PLAT_ID u.platSlots u (c.f 2 0 16) = some i ∧
      c.f 3 16 11 ≤ 1019 ∧
      c.f 3 0 10 + c.f 3 16 11 ≤ 1024 ∧
      u.cad.pass = none ∧
      u.wit.selfRun = none ∧
      u.platResident i = true ∧
      Tbl.get? u.cad.resident i = none) ∧
    (∃ (c : _) (s : State) (u : _) (i : _), Runs opScoreRow c s u ∧
      u.fenced .cadastre = false ∧
      u.quiesced .cadastre = false ∧
      readySlot CAD_PLAT_ID u.platSlots u (c.f 2 0 16) = some i ∧
      c.f 3 16 11 ≤ 1019 ∧
      c.f 3 0 10 + c.f 3 16 11 ≤ 1024 ∧
      u.cad.pass = none ∧
      u.wit.selfRun = none ∧
      u.platResident i = false) :=
  ⟨⟨cmd [0, 0, 0x40001, 5], tray, _, runs_at (by decide), by decide, by decide, by decide, by decide⟩,
   ⟨cmd [0, 0, 248, 0x10005], withBytes (platImg 1 654588284) leaf, _, (platImg 1 654588284), _, 0, runs_at (by decide), by decide, by decide, by decide, by decide +kernel, loads (m := []) (a' := 0) (by decide +kernel) (by decide +kernel) (by decide +kernel) (by rfl) (by decide +kernel) (by decide +kernel), by decide +kernel, by decide +kernel, by decide, by decide, by decide +kernel⟩,
   ⟨cmd [0, 0, 248, 5], (withBytes (platImg 1 654588284) leaf).wr CAD_CTL 0x100, _, (platImg 1 654588284), _, 0, runs_at (by decide), by decide, by decide, by decide, by decide +kernel, loads (m := []) (a' := 0) (by decide +kernel) (by decide +kernel) (by decide +kernel) (by rfl) (by decide +kernel) (by decide +kernel), by decide +kernel, by decide +kernel, by decide, by decide, by decide⟩,
   ⟨cmd [0, 0, 248, 0x10006], withBytes (platImg 1 654588284) leaf, _, (platImg 1 654588284), _, 2, 0, runs_at (by decide), by decide, by decide, by decide, by decide +kernel, loads (m := []) (a' := 0) (by decide +kernel) (by decide +kernel) (by decide +kernel) (by rfl) (by decide +kernel) (by decide +kernel), by decide +kernel⟩,
   ⟨cmd [5], (wrs [(CAD_PLAT_ID 3, 0xA0000005)] leaf), _, 3, runs_at (by decide), by decide, by decide, by decide⟩,
   ⟨cmd [0, 0, 0, 0, 0, 0, 0, 0, 0, 0, 0, 0, 0, 0, 0, 0, 0], tray, _, runs_at (by decide), by decide, by decide⟩,
   ⟨cmd [0x10800, 0], tray, _, runs_at (by decide), by decide, by decide, by decide, by decide, by decide, by decide⟩,
   ⟨cmd [0, 0, 0x2000], keeping (keep0 0 true) (holding (ctx0 0 true) leaf), _, 0, ctx0 0 true, keep0 0 true, { platVer := 5, nOut := 1, rows := [] }, runs_at (by decide), by decide, by decide, by decide, by decide⟩,
   ⟨cmd [5, 1023, 0], { (wrs [(CAD_PLAT_ID 3, 0xA0000005)] leaf) with cad := { (wrs [(CAD_PLAT_ID 3, 0xA0000005)] leaf).cad with pass := some ⟨3, []⟩ } }, _, 3, runs_at (by decide), by decide, by decide, by decide, by decide, by decide, by decide⟩,
   ⟨cmd [5, 1023, 0], { (wrs [(CAD_PLAT_ID 3, 0xA0000005)] leaf) with cad := { (wrs [(CAD_PLAT_ID 3, 0xA0000005)] leaf).cad with resident := [(3, (platImg 1 654588284))] } }, _, 3, _, runs_at (by decide), by decide, by decide, by decide, by decide, by decide, by decide, by decide, by decide, rfl⟩,
   ⟨cmd [5, 1023, 0], (wrs [(CAD_PLAT_ID 3, 0xA0000005)] leaf), _, 3, runs_at (by decide), by decide, by decide, by decide, by decide, by decide, by decide, by decide, by decide, by decide⟩,
   ⟨cmd [5, 0x10000, 0, 0], wrs [(CAD_PLAT_ID 15, 0x80000005)] tray, _, 15, runs_at (by decide), by decide, by decide, by decide, by decide, by decide, by decide, by decide, by decide⟩⟩

/-- States and operands that meet the hypotheses of `Obligations.TransitCommandsComplete`, for each of its clauses. -/
theorem witness_TransitCommandsComplete :
    (∃ (c : _) (s : State) (u : _), Runs opSubspaceLoad c s u ∧
      c.w 4 ≠ 0 ∧
      u.fenced .transit = false ∧
      u.quiesced .transit = false ∧
      u.holdAsks (c.w 4) = true) ∧
    (∃ (c : _) (s : State) (u : _) (b : _) (v : _) (i : _), Runs opSubspaceLoad c s u ∧
      c.w 4 ≠ 0 ∧
      u.fenced .transit = false ∧
      u.quiesced .transit = false ∧
      u.holdAsks (c.w 4) = false ∧
      loadBytes (c.w64 2) (c.w 4) u = (some b, v) ∧
      subCheck (c.f 5 0 16) b.length (v.subSlotOf (c.f 5 0 16)).isSome (bit (c.w 5) 16) b = none ∧
      ((subHead b).learn = true → bit (c.w 5) 17 = true) ∧
      (List.range trnSlots).find? (fun k => v.subState k == 0) = some i ∧
      bit (c.w 5) 16 = true ∧
      ceilDiv (subWeightBytes b (subHead b)) 65536 ≤ v.scratchFree) ∧
    (∃ (c : _) (s : State) (u : _) (b : _) (v : _) (i : _), Runs opSubspaceLoad c s u ∧
      c.w 4 ≠ 0 ∧
      u.fenced .transit = false ∧
      u.quiesced .transit = false ∧
      u.holdAsks (c.w 4) = false ∧
      loadBytes (c.w64 2) (c.w 4) u = (some b, v) ∧
      subCheck (c.f 5 0 16) b.length (v.subSlotOf (c.f 5 0 16)).isSome (bit (c.w 5) 16) b = none ∧
      ((subHead b).learn = true → bit (c.w 5) 17 = true) ∧
      (List.range trnSlots).find? (fun k => v.subState k == 0) = some i ∧
      bit (c.w 5) 16 = false) ∧
    (∃ (c : _) (s : State) (u : _) (i : _), Runs opSubspaceUnload c s u ∧
      readySlot TRN_SUB_ID trnSlots u (c.f 2 0 16) = some i ∧
      u.subBound (c.f 2 0 16) = 0 ∧
      u.subNamed (c.f 2 0 16) = false) ∧
    (∃ (c : _) (s : State) (u : _), Runs opTrnRun c s u ∧
      c.w 8 ≠ 0 ∧
      c.w 9 ≠ 0 ∧
      c.w 8 ≤ 65536 ∧
      c.w 9 ≤ 65536 ∧
      c.f 10 0 13 ≤ 4096 ∧
      c.f 11 0 3 < 4 ∧
      u.trnFenced = false ∧
      u.quiesced .transit = false) ∧
    (∃ (c : _) (s : State) (u : _), Runs opTrnSet c s u ∧
      c.f 2 16 16 ≠ 0 ∧
      c.f 2 8 8 ≠ 0 ∧
      c.f 2 1 7 = 0 ∧
      c.f 3 11 21 = 0 ∧
      f32Finite (c.w 4) = true ∧
      f32Lt (c.w 4) 0 = false) ∧
    (∃ (c : _) (s : State) (u : _) (v : _), Runs opTrnUnfence c s u ∧
      v = (u.wr TRN_FENCE (u.rd TRN_FENCE - (u.rd TRN_FENCE &&& c.w 2))).wr TRN_FENCE_ARR (u.rd TRN_FENCE_ARR - (u.rd TRN_FENCE_ARR &&& c.f 3 0 4))) ∧
    (∃ (c : _) (s : State) (u : _) (x : _) (bs : List Byte) (ok : _) (v : _), Runs opTrnRead c s u ∧
      c.w 4 % 4 = 0 ∧
      c.f 5 0 13 % 4 = 0 ∧
      c.f 5 0 13 ≤ 4080 ∧
      u.trnKept.epochItem c.parcel (c.epoch 2) (c.f 5 16 1) 0 = (x, bs) ∧
      (if x = 0 then keptReads u else (true, u)) = (ok, v) ∧
      (x = 0 → ok = true → c.w 4 < bs.length) ∧
      (x = 0 → u.holdAsks (min (c.f 5 0 13) (bs.length - c.w 4)) = false)) ∧
    (∃ (c : _) (s : State) (u : _) (bs : List Byte), Runs opTrnRead c s u ∧
      c.w 4 % 4 = 0 ∧
      c.f 5 0 13 % 4 = 0 ∧
      c.f 5 0 13 ≤ 4080 ∧
      u.trnKept.epochItem c.parcel (c.epoch 2) (c.f 5 16 1) 0 = (0, bs) ∧
      c.w 4 < bs.length ∧
      u.holdAsks (min (c.f 5 0 13) (bs.length - c.w 4)) = true) :=
  ⟨⟨cmd [0, 0, 0x40001, 5, 0, 0], tray, _, runs_at (by decide), by decide, by decide, by decide, by decide⟩,
   ⟨cmd [0, 0, 16872, 0x10005, 0, 0], withBytes subImg { tray with pins := { tray.pins with memTrained := 0xFFF } }, _, subImg, _, 0, runs_at (by decide +kernel), by decide, by decide +kernel, by decide +kernel, by decide +kernel, loads (a' := 0) (by decide +kernel) (by decide +kernel) (by decide +kernel) ((opened_mem _ _).trans (withBytes_mem _ _)) (by decide +kernel) (subImg_length.trans (by decide)), subImg_ok (by decide) subImg_length (by decide +kernel), by decide +kernel, by decide +kernel, by decide +kernel, by decide +kernel⟩,
   ⟨cmd [0, 0, 16872, 5, 0, 0], withBytes subImg { tray with pins := { tray.pins with memTrained := 0xFFF } }, _, subImg, _, 0, runs_at (by decide +kernel), by decide, by decide +kernel, by decide +kernel, by decide +kernel, loads (a' := 0) (by decide +kernel) (by decide +kernel) (by decide +kernel) ((opened_mem _ _).trans (withBytes_mem _ _)) (by decide +kernel) (subImg_length.trans (by decide)), subImg_ok (by decide) subImg_length (by decide +kernel), by decide +kernel, by decide +kernel, by decide +kernel⟩,
   ⟨cmd [9], wrs [(TRN_SUB_ID 7, 0x80000009)] tray, _, 7, runs_at (by decide), by decide, by decide, by decide⟩,
   ⟨cmd [0, 0, 0, 0, 0, 0, 65536, 65536, 4096, 3], tray, _, runs_at (by decide), by decide, by decide, by decide, by decide, by decide, by decide, by decide, by decide⟩,
   ⟨cmd [0x10100, 0, 0], tray, _, runs_at (by decide), by decide, by decide, by decide, by decide, by decide, by decide⟩,
   ⟨cmd [0xFF, 15], wrs [(TRN_FENCE, 0xFF)] tray, _, _, runs_at (by decide), rfl⟩,
   ⟨cmd [0, 0, 4, 4], keeping (keep0 1 true) ({ tray with pins := { tray.pins with memTrained := 0xFFF } }), _, 0, zeros 8, true, _, runs_at (by decide), by decide, by decide, by decide, by decide, rfl, by decide, by decide⟩,
   ⟨cmd [0, 0, 4, 4], keeping (keep0 1 true) (wrs [(PWR_HOLD_CFG, 0)] { tray with pins := { tray.pins with memTrained := 0xFFF } }), _, zeros 8, runs_at (by decide), by decide, by decide, by decide, by decide, by decide, by decide⟩⟩

/-- States and operands that meet the hypotheses of `Obligations.WakeCommandsComplete`, for each of its clauses. -/
theorem witness_WakeCommandsComplete :
    (∃ (c : _) (s : State) (u : _), Runs opWakeCfg c s u ∧
      u.getB WAK_STATUS 15 = false ∧
      (∀ p ∈ witPairs c.params, wakPairBad u.build p.1 p.2 = none)) ∧
    (∃ (c : _) (s : State) (u : _), Runs opWakeCfg c s u ∧
      u.getB WAK_STATUS 15 = true) ∧
    (∃ (c : _) (s : State) (u : _), Runs opWakeArm c s u ∧
      u.fenced .wake = false ∧
      u.quiesced .wake = false ∧
      u.getB WAK_STATUS 15 = false ∧
      u.dstSize ≠ 0) ∧
    (∃ (c : _) (s : State) (u : _), Runs opWakeDisarm c s u) ∧
    (∃ (c : _) (s : State) (u : _), Runs opWakeTrig c s u ∧
      u.getB WAK_STATUS 15 = true) ∧
    (∃ (c : _) (s : State) (u : _), Runs opWakeTrig c s u ∧
      u.getB WAK_STATUS 15 = false) ∧
    (∃ (c : _) (s : State) (u : _), Runs opWakeSecure c s u ∧
      c.f 2 8 24 = 0 ∧
      bit (c.w 2) 3 = false ∧
      bit (c.w 2) 7 = false ∧
      c.f 2 0 3 ≤ 4 ∧
      c.f 2 4 3 ≤ 4) ∧
    (∃ (c : _) (s : State) (u : _) (k : _) (v : _), Runs opWakeSend c s u ∧
      c.w 4 % 4 = 0 ∧
      c.w 4 ≤ 16777216 ∧
      (c.w 4 = 0 ∨ (u.rd WAK_DST_WR ≤ c.w64 2 + u.dstSize ∧ c.w64 2 + c.w 4 ≤ u.rd WAK_DST_WR)) ∧
      wakSend (c.w64 2) (c.w 4) u = (some k, v)) :=
  ⟨⟨cmd [0x28, 16], leaf, _, runs_at (by decide), by decide, by decide⟩,
   ⟨cmd [0x28, 16], wrs [(WAK_STATUS, 0x8000)] leaf, _, runs_at (by decide), by decide⟩,
   ⟨cmd [1], wrs [(WAK_DST_SIZE, 16)] leaf, _, runs_at (by decide), by decide, by decide, by decide, by decide⟩,
   ⟨cmd [], leaf, _, runs_at (by decide)⟩,
   ⟨cmd [255], wrs [(WAK_STATUS, 0x8000)] leaf, _, runs_at (by decide), by decide⟩,
   ⟨cmd [255], wrs [(WAK_STATUS, 0x2000)] leaf, _, runs_at (by decide), by decide⟩,
   ⟨cmd [0x44], tray, _, runs_at (by decide), by decide, by decide, by decide, by decide, by decide⟩,
   ⟨cmd [0, 0, 4], wrs [(WAK_DST_SIZE, 16), (WAK_DST_WR, 4)] leaf, _, 1, _, runs_at (by decide), by decide, by decide, by decide, Prod.ext (by decide +kernel) rfl⟩⟩

/-- States and operands that meet the hypotheses of `Obligations.WitnessCommandsComplete`, for each of its clauses. -/
theorem witness_WitnessCommandsComplete :
    (∃ (c : _) (s : State) (u : _) (v : _), Runs opWitSet c s u ∧
      (∀ p ∈ witPairs c.params, ¬(p.1 = 0x18 ∧ p.2 = 0) ∧ witPairBad p.1 p.2 = false) ∧
      ((∃ p ∈ witPairs c.params, p.1 = 0x10 ∨ p.1 = 0x14 ∨ p.1 = 0x18) → ∀ i, i < 256 → u.packReady i = false) ∧
      v = u.each (witPairs c.params) (fun p t => witPut p.1 p.2 t)) ∧
    (∃ (c : _) (s : State) (u : _), Runs opPackLoad c s u ∧
      c.w 4 ≠ 0 ∧
      u.holdAsks (c.w 4) = true) ∧
    (∃ (c : _) (s : State) (u : _) (b : _) (v : _) (i : _) (w : _), Runs opPackLoad c s u ∧
      c.w 4 ≠ 0 ∧
      u.holdAsks (c.w 4) = false ∧
      loadBytes (c.w64 2) (c.w 4) u = (some b, v) ∧
      packCheck (c.f 5 16 8) (c.f 5 0 16) b.length v.witKey (v.getB WIT_KEY_CTL 1) b = 0 ∧
      v.packPlace (c.f 5 16 8) (c.f 5 0 16) = .inl i ∧
      packWrite i b v = (true, w)) ∧
    (∃ (c : _) (s : State) (u : _) (i : _), Runs opPackDrop c s u ∧
      u.packSlot (c.f 2 16 8) (c.f 2 0 16) = some i ∧
      u.packUsed i = false) ∧
    (∃ (c : _) (s : State) (u : _), Runs opWitKey c s u ∧
      (bit (c.w 2) 1 = true → p256OnCurve (keyPoint (keyBytes c)) = true) ∧
      (bit (c.w 2) 0 = true → bit (c.w 2) 1 = true)) ∧
    (∃ (c : _) (s : State) (u : _), Runs opEngineReport c s u ∧
      c.w64 2 &&& c.w64 4 = 0 ∧
      (∀ n ∈ setBits 64 (c.w64 4), u.engSt n = 5)) ∧
    (∃ (c : _) (s : State) (u : _) (ns : _), Runs opTestNow c s u ∧
      ns = (setBits 64 (c.w64 2)).filter (fun n => u.engSt n == 1)) ∧
    (∃ (c : _) (s : State) (u : _), Runs opSelfNow c s u) :=
  ⟨⟨cmd [0x18, 256, 0x10, 0x10000], leaf, _, _, runs_at (by decide), by decide +kernel, by decide +kernel, rfl⟩,
   ⟨cmd [0, 0, 0x40001, 0x30005], tray, _, runs_at (by decide), by decide, by decide⟩,
   ⟨cmd [0, 0, 96, 0x30005], wrs [(WIT_STORE_BASE, 0x10000), (WIT_STORE_SIZE, 1)] (withBytes (packImg 1641098422) leaf), _, (packImg 1641098422), _, 0, _, runs_at (by decide), by decide, by decide +kernel, loads (m := []) (a' := 0) (by decide +kernel) (by decide +kernel) (by decide +kernel) (by rfl) (by decide +kernel) (by decide +kernel), by decide +kernel, by decide +kernel, Prod.ext (by decide +kernel) rfl⟩,
   ⟨cmd [0x30005], wrs [(WIT_STORE_SIZE, 256), (WIT_PACK_ID 255, 0x80030005)] leaf, _, 255, runs_at (by decide), by decide +kernel, by decide⟩,
   ⟨cmd [0, 0, 0, 0, 0, 0, 0, 0, 0, 0, 0, 0, 0, 0, 0, 0, 0], tray, _, runs_at (by decide), by decide, by decide⟩,
   ⟨cmd [1, 0, 0, 0x80000000], wrs [(WIT_ENG_STATE 63, 0xA0000000)] leaf, _, runs_at (by decide), by decide +kernel, by decide +kernel⟩,
   ⟨cmd [0, 0x80000000], wrs [(WIT_ENG_STATE 63, 0x20000000)] leaf, _, _, runs_at (by decide), rfl⟩,
   ⟨cmd [], leaf, _, runs_at (by decide)⟩⟩

/-- States and operands that meet the hypotheses of `Obligations.PlantCommandsComplete`, for each of its clauses. -/
theorem witness_PlantCommandsComplete :
    (∃ (c : _) (s : State) (u : _), Runs opFltSet c s u ∧
      (∀ p ∈ witPairs c.params, fltPairBad u.build p.1 p.2 = false ∧ ∀ n, fltPairSource p.1 = some n → u.fltState n = 0)) ∧
    (∃ (c : _) (s : State) (u : _) (yes : _) (no : _) (v : _), Runs opFltClear c s u ∧
      fltClear c.authority (c.w64 2) u = (yes, no, v)) ∧
    (∃ (c : _) (s : State) (u : _), Runs opFltInject c s u ∧
      u.getB FLT_CTL 0 = true ∧
      injectBad u (c.f 2 0 8) (c.f 2 8 2) (c.f 5 0 16) = false) ∧
    (∃ (c : _) (s : State) (u : _), Runs opFltInject c s u ∧
      u.getB FLT_CTL 0 = false) ∧
    (∃ (c : _) (s : State) (u : _), Runs opFltDebug c s u) ∧
    (∃ (c : _) (s : State) (u : _), Runs opLogClear c s u ∧
      c.w 2 < 8) ∧
    (∃ (c : _) (s : State) (u : _), Runs opLogHistSet c s u ∧
      c.f 2 0 6 + c.f 2 16 7 ≤ 64 ∧
      (∀ i, i < c.f 2 16 7 → histBad (fld (c.w (3 + 2 * i)) 0 2) (fld (c.w (3 + 2 * i)) 8 8) = false)) ∧
    (∃ (c : _) (s : State) (u : _), Runs opLogFlush c s u) ∧
    (∃ (c : _) (s : State) (u : _) (v : _), Runs opLogSend c s u ∧
      c.f 2 0 15 + c.f 3 0 16 ≤ 32768 ∧
      v = logSend (c.f 2 0 15) (c.f 3 0 16) u) ∧
    (∃ (c : _) (s : State) (u : _), Runs opPlmSet c s u ∧
      (∀ p ∈ witPairs c.params, plmPairBad p.1 p.2 = false)) ∧
    (∃ (c : _) (s : State) (u : _) (v : _), Runs opPowerSet c s u ∧
      c.f 2 0 2 ≠ 3 ∧
      (c.f 2 0 2 = 2 ∨ u.bondFail = false) ∧
      ¬(c.f 2 0 2 = 2 ∧ u.isTray = true ∧ u.par.ctxs ≠ []) ∧
      v = powerRequest (c.f 2 0 2) u) :=
  ⟨⟨cmd [4, 0x10000], tray, _, runs_at (by decide), fun p hp => by
    have h : p = (4, 65536) := List.mem_singleton.1 hp
    subst h
    exact ⟨by decide, fun n hn => by
      have h0 : fltPairSource 4 = none := by decide
      rw [h0] at hn; cases hn⟩⟩,
   ⟨cmd [0x20, 0], wrs [(FLT_SRC_STATE 5, 0x80000000)] tray, _, _, _, _, runs_at (by decide), rfl⟩,
   ⟨cmd [9, 0, 0, 1], wrs [(FLT_CTL, 3)] leaf, _, runs_at (by decide), by decide, by decide⟩,
   ⟨cmd [9, 0, 0, 1], leaf, _, runs_at (by decide), by decide⟩,
   ⟨cmd [1], leaf, _, runs_at (by decide)⟩,
   ⟨cmd [7], leaf, _, runs_at (by decide), by decide⟩,
   ⟨cmd [0x1003F, 0, 0], leaf, _, runs_at (by decide), by decide, by decide⟩,
   ⟨cmd [], leaf, _, runs_at (by decide)⟩,
   ⟨cmd [0x7FFF, 1], leaf, _, _, runs_at (by decide), by decide, rfl⟩,
   ⟨cmd [0x100, 0x80000001], leaf, _, runs_at (by decide), by decide⟩,
   ⟨cmd [2], wrs [(PLM_POWER, 4)] leaf, _, _, runs_at (by decide), by decide, by decide, by decide, rfl⟩⟩

/-- States and operands that meet the hypotheses of `Obligations.DatumCommandsComplete`, for each of its clauses. -/
theorem witness_DatumCommandsComplete :
    (∃ (c : _) (s : State) (u : _) (v : _), Runs opMark c s u ∧
      v = (if bit (c.w 3) 0 then logEvent 0x50 (leBytes 4 (c.w 2) ++ timeBytes u.now) u else u)) ∧
    (∃ (c : _) (s : State) (u : _) (t : _), Runs opTimeSet c s u ∧
      c.time 2 = some t ∧
      u.isTray = true ∧
      u.dat.role.role = 2 ∧
      u.par.ctxs = []) ∧
    (∃ (c : _) (s : State) (u : _) (t : _), Runs opTimeSet c s u ∧
      c.time 2 = some t ∧
      u.isTray = true ∧
      u.dat.role.role = 2 ∧
      u.par.ctxs ≠ []) ∧
    (∃ (c : _) (s : State) (u : _) (t : _), Runs opTimeSet c s u ∧
      c.time 2 = some t ∧
      (u.isTray = false ∨ u.dat.role.role ≠ 2)) ∧
    (∃ (c : _) (s : State) (u : _) (v : _), Runs opServoSet c s u ∧
      (∀ p ∈ pairsOf c.params, servoPairBad u.build p.1 p.2 = false) ∧
      pairsOf c.params ≠ [] ∧
      v = u.each (pairsOf c.params) (fun p t => servoPut p.1 p.2 t)) ∧
    (∃ (c : _) (s : State) (u : _), Runs opServoSet c s u ∧
      c.params = []) ∧
    (∃ (c : _) (s : State) (u : _), Runs opTimeRole c s u ∧
      c.w 9 ≤ 64 ∧
      c.f 2 0 2 ≠ 3 ∧
      c.f 2 12 4 ≤ 7 ∧
      c.f 2 16 4 ≤ 7) ∧
    (∃ (c : _) (s : State) (u : _) (start : _) (v : _), Runs opPulseSet c s u ∧
      c.time 3 = some start ∧
      c.f 7 0 16 ≠ 0 ∧
      c.w 6 = 0 ∧
      u.now + 1000 * 2 ^ 32 ≤ start ∧
      v = (((u.wr (DAT_PLS_SUB (c.f 2 0 3)) (timeSub start)).wr (DAT_PLS_SEC (c.f 2 0 3)) (timeSec start)).wr (DAT_PLS_PER (c.f 2 0 3)) 0).wr (DAT_PLS_CTL (c.f 2 0 3)) (c.w 7 &&& 0xC000FFFF)) ∧
    (∃ (c : _) (s : State) (u : _) (start : _) (v : _) (k : _), Runs opPulseSet c s u ∧
      c.time 3 = some start ∧
      c.f 7 0 16 ≠ 0 ∧
      8 ≤ c.w 6 ∧
      4 * (c.f 7 0 16 + 1) ≤ 5 * c.w 6 ∧
      v = (((u.wr (DAT_PLS_SUB (c.f 2 0 3)) (timeSub start)).wr (DAT_PLS_SEC (c.f 2 0 3)) (timeSec start)).wr (DAT_PLS_PER (c.f 2 0 3)) (c.w 6)).wr (DAT_PLS_CTL (c.f 2 0 3)) (c.w 7 &&& 0xC000FFFF) ∧
      k = ceilDiv (u.now + 1000 * 2 ^ 32 - start) (c.w 6 * 2 ^ 32)) ∧
    (∃ (c : _) (s : State) (u : _) (start : _), Runs opPulseSet c s u ∧
      c.time 3 = some start ∧
      c.f 7 0 16 ≠ 0 ∧
      c.w 6 = 0 ∧
      start < u.now + 1000 * 2 ^ 32) ∧
    (∃ (c : _) (s : State) (u : _), Runs opTimeProbe c s u ∧
      c.w 6 = 0) ∧
    (∃ (c : _) (s : State) (u : _) (q : _) (v : _), Runs opTimeProbe c s u ∧
      c.w 6 ≠ 0 ∧
      c.w 6 ≤ 64 ∧
      delayReqTo false (c.ip 2) u = (q, v)) :=
  ⟨⟨cmd [5, 3], tray, _, _, runs_at (by decide), rfl⟩,
   ⟨cmd [0, 0x10000, 0], { tray with dat := { tray.dat with role := { tray.dat.role with role := 2 } } }, _, secU, runs_at (by decide), by decide, by decide, by decide, by decide⟩,
   ⟨cmd [0, 0x10000, 0], holding (ctx0 1 true) { tray with dat := { tray.dat with role := { tray.dat.role with role := 2 } } }, _, secU, runs_at (by decide), by decide, by decide, by decide, by decide⟩,
   ⟨cmd [0, 0x10000, 0], leaf, _, secU, runs_at (by decide), by decide, by decide⟩,
   ⟨cmd [0x30, 1], tray, _, _, runs_at (by decide), by decide, by decide, rfl⟩,
   ⟨cmd [], tray, _, runs_at (by decide), by decide⟩,
   ⟨cmd [0x77002, 0, 0, 0, 0, 0, 0, 0], tray, _, runs_at (by decide), by decide, by decide, by decide, by decide⟩,
   ⟨cmd [7, 0, 0x10000, 0, 0, 0xFFFF], tray, _, secU, _, runs_at (by decide), by decide, by decide, by decide, by decide, rfl⟩,
   ⟨cmd [7, 0, 0x10000, 0, 8, 9], tray, _, secU, _, _, runs_at (by decide), by decide, by decide, by decide, by decide, rfl, rfl⟩,
   ⟨cmd [7, 0, 0, 0, 0, 1], tray, _, 0, runs_at (by decide), by decide, by decide, by decide, by decide⟩,
   ⟨cmd [0, 0, 0, 0, 0], tray, _, runs_at (by decide), by decide⟩,
   ⟨cmd [0, 0, 0, 0, 64], tray, _, _, _, runs_at (by decide), by decide, by decide, rfl⟩⟩

/-- States and operands that meet the hypotheses of `Obligations.StowLandingCommandsComplete`, for its first clauses. -/
theorem witness_StowLandingCommandsComplete :
    (∃ (c : _) (s : State) (u : _), Runs opStowJob c s u ∧
      stowBad c = none ∧
      u.fenced .stow = false ∧
      u.quiesced .stow = false ∧
      u.plm.goal ≠ none ∧
      c.asyncOk = true ∧
      u.rd PIL_ASYNC < 16) ∧
    (∃ (c : _) (s : State) (u : _), Runs opStowJob c s u ∧
      stowBad c = none ∧
      u.fenced .stow = false ∧
      u.quiesced .stow = false ∧
      u.plm.goal ≠ none ∧
      (c.asyncOk = false ∨ 16 ≤ u.rd PIL_ASYNC) ∧
      u.job? u.pil.nextJob = none) ∧
    (∃ (c : _) (s : State) (u : _), Runs opStowJob c s u ∧
      stowBad c = none ∧
      u.fenced .stow = false ∧
      u.quiesced .stow = false ∧
      u.plm.goal ≠ none ∧
      (c.asyncOk = false ∨ 16 ≤ u.rd PIL_ASYNC) ∧
      u.job? u.pil.nextJob = none) ∧
    (∃ (c : _) (s : State) (u : _), Runs opStowJob c s u ∧
      stowBad c = none ∧
      u.fenced .stow = false ∧
      u.quiesced .stow = false ∧
      u.plm.goal = none ∧
      16384 < c.w 4) ∧
    (∃ (c : _) (s : State) (u : _), Runs opStowJob c s u ∧
      stowBad c = none ∧
      u.fenced .stow = false ∧
      u.quiesced .stow = false ∧
      u.plm.goal = none ∧
      c.w 4 ≤ 16384 ∧
      u.stowBefore = true) ∧
    (∃ (c : _) (s : State) (u : _), Runs opStowJob c s u ∧
      stowBad c = none ∧
      u.fenced .stow = false ∧
      u.quiesced .stow = false ∧
      u.plm.goal = none ∧
      c.w 4 ≤ 16384 ∧
      u.stowBefore = false ∧
      u.holdAsks (c.w 4) = true) ∧
    (∃ (c : _) (s : State) (u : _) (n : _) (k : _) (r : _) (v : _), Runs opStowJob c s u ∧
      stowBad c = none ∧
      u.fenced .stow = false ∧
      u.quiesced .stow = false ∧
      u.plm.goal = none ∧
      c.w 4 ≤ 16384 ∧
      u.stowBefore = false ∧
      u.holdAsks (c.w 4) = false ∧
      stowRun c u = (0x00, [w32 n, w32 k, w32 r], v)) ∧
    (∃ (c : _) (s : State) (u : _), Runs opBerthSet c s u ∧
      berthSetBad u.build (c.w 2) = false) ∧
    (∃ (c : _) (s : State) (u : _), Runs opLndSet c s u ∧
      (∀ p ∈ pairsOf c.params, lndPairBad p.1 p.2 = false)) ∧
    (∃ (c : _) (s : State) (u : _), Runs opTreeSet c s u ∧
      treeSetBad c u = false ∧
      u.treeInUse = false ∧
      bit (c.w 2) 8 = true) ∧
    (∃ (c : _) (s : State) (u : _) (id : _), Runs opTreeSet c s u ∧
      treeSetBad c u = false ∧
      u.treeInUse = false ∧
      bit (c.w 2) 8 = false ∧
      id = 2 ^ 31 + b2n (bit (c.w 2) 9) * 2 ^ 30 + c.f 2 10 1 * 2 ^ 29 + (if bit (c.w 2) 9 then 0 else c.f 3 24 3 * 2 ^ 24 + c.f 3 0 20)) ∧
    (∃ (c : _) (s : State) (u : _) (es : _) (v : _), Runs opLndGateLoad c s u ∧
      c.f 2 8 7 ≤ 64 ∧
      es = (List.range (c.f 2 8 7)).map (fun i => lndEnt (c.w64 (4 + 2 * i))) ∧
      lndListBad es = 0 ∧
      v = (let w := u.each (List.range 64) (fun i t => t.wr (LND_ENT (c.f 2 0 1) 1 i) (es.getD i 0))
         { w with lnd := { w.lnd with gateVer := Tbl.set w.lnd.gateVer (2 * c.f 2 0 1 + 1) (c.f 3 0 16) } })) :=
  ⟨⟨{ cmd [0, 0, 16777216, 0, 0, 1, 1] with asyncOk := true }, { leaf with plm := { leaf.plm with goal := some 2 } }, _, runs_at (by decide), by decide, by decide, by decide, by decide, by decide, by decide⟩,
   ⟨cmd [0, 0, 16777216, 0, 0, 1, 1], { leaf with plm := { leaf.plm with goal := some 2 } }, _, runs_at (by decide), by decide, by decide, by decide, by decide, by decide, by decide⟩,
   ⟨{ cmd [0, 0, 16777216, 0, 0, 1, 1] with asyncOk := true }, { (wrs [(PIL_ASYNC, 16)] leaf) with plm := { (wrs [(PIL_ASYNC, 16)] leaf).plm with goal := some 2 } }, _, runs_at (by decide), by decide, by decide, by decide, by decide, by decide, by decide⟩,
   ⟨cmd [0, 0, 16777216, 0, 0, 1, 1], leaf, _, runs_at (by decide), by decide, by decide, by decide, by decide, by decide⟩,
   ⟨cmd [0, 0, 4096, 0x100, 0, 64, 1], { leaf with pil := { leaf.pil with jobs := [({ id := 0, opcode := 0xB0, cmd := cmd [], async := true, phase := .waitLeave 0, data := .plain } : Job)], nextJob := 1 } }, _, runs_at (by decide), by decide, by decide, by decide, by decide, by decide, by decide⟩,
   ⟨cmd [0, 0, 4096, 0x100, 0, 64, 1], wrs [(PWR_HOLD_CFG, 0x10000)] tray, _, runs_at (by decide), by decide, by decide, by decide, by decide, by decide, by decide, by decide⟩,
   ⟨cmd [0, 0, 1, 0x100, 0, 64, 1], leaf, _, 20, 1, 1, _, runs_at (by decide), by decide, by decide, by decide, by decide, by decide, by decide, by decide, Prod.ext (by decide +kernel) (Prod.ext (by decide +kernel) rfl)⟩,
   ⟨cmd [0], tray, _, runs_at (by decide), by decide⟩,
   ⟨cmd [0x440, 1], tray, _, runs_at (by decide), by decide⟩,
   ⟨cmd [0x104, 0, 0, 0, 0, 0, 0], tray, _, runs_at (by decide), by decide, by decide, by decide⟩,
   ⟨cmd [1, 0x02000040, 0, 0, 0, 0, 0], tray, _, _, runs_at (by decide), by decide, by decide, by decide, rfl⟩,
   ⟨cmd [1, 0], tray, _, _, _, runs_at (by decide), by decide, rfl, by decide, rfl⟩⟩

/-- States and operands that meet the hypotheses of `Obligations.StowLandingCommandsComplete`, for further clauses. -/
theorem witness_StowLandingCommandsComplete_2 :
    (∃ (c : _) (s : State) (u : _) (cyc : _), Runs opLndGateSwap c s u ∧
      cyc = c.w 2 + c.f 3 0 8 * 2 ^ 32 ∧
      cycReached (cycleOf u.now + 64) cyc = true) ∧
    (∃ (c : _) (s : State) (u : _), Runs opLndGateSwap c s u ∧
      cycReached (cycleOf u.now + 64) (c.w 2 + c.f 3 0 8 * 2 ^ 32) = false) :=
  ⟨⟨cmd [64, 0, 3], tray, _, _, runs_at (by decide), rfl, by decide⟩,
   ⟨cmd [63, 0, 3], tray, _, runs_at (by decide), by decide⟩⟩

/-- States and operands that meet the hypotheses of `Obligations.ChainCommandsComplete`, for each of its clauses. -/
theorem witness_ChainCommandsComplete :
    (∃ (c : _) (s : State) (u : _), Runs opStationSet c s u ∧
      stationFits u.build (c.f 2 0 20) = true ∧
      (∀ ch ∈ u.chainList, u.getB (CHN_STATUS ch) 13 = false) ∧
      u.par.ctxs = []) ∧
    (∃ (c : _) (s : State) (u : _), Runs opChainSet c s u ∧
      (∀ p ∈ pairsOf c.params, chainSetBad p.1 p.2 = false)) ∧
    (∃ (c : _) (s : State) (u : _) (st : _) (cyc : _), Runs opSplice c s u ∧
      st = c.f 2 0 20 ∧
      cyc = u.rd (TMT_CYC (stChain st)) + c.f 3 0 16 ∧
      16 ≤ c.f 3 0 16 ∧
      c.f 3 0 16 ≤ 4096 ∧
      spliceBad u (stChain st) st (bit (c.w 2) 24) cyc = false) ∧
    (∃ (c : _) (s : State) (u : _), Runs opSpliceReq c s u ∧
      u.inserted 0 = true) ∧
    (∃ (c : _) (s : State) (u : _) (ch : _) (dir : _) (es : _) (v : _) (w : _), Runs opTmtLoad c s u ∧
      dir = c.f 2 0 1 ∧
      ch = c.f 2 1 1 ∧
      c.f 2 8 7 ≤ 64 ∧
      es = (List.range (c.f 2 8 7)).map (fun i => c.w64 (4 + 2 * i) % 2 ^ 48) ∧
      gateListBad es = 0 ∧
      (∀ e ∈ es, fld e 0 10 ≠ 0) ∧
      v = ((u.each (List.range 64) (fun n t => t.wr (TMT_ENT ch (2 + dir) n) ((Tbl.get? ((List.range (c.f 2 8 7)).zip es) n).getD 0 % 2 ^ 48))).setF (TMT_VER ch) 16 16 (c.f 3 0 16)).putB (TMT_CTL ch) 0 true ∧
      w = sendAll ch 0xD 0 (tmtListBytes (c.f 3 0 16) dir 1 es) (v.setChain ch { v.chain ch with adminGot := Tbl.set (v.chain ch).adminGot dir 0 })) ∧
    (∃ (c : _) (s : State) (u : _) (ch : _) (t : _) (k : _), Runs opTmtSwap c s u ∧
      ch = c.f 5 0 1 ∧
      c.time 2 = some t ∧
      (cycleTime 64 : Int) ≤ timeDiff t u.now ∧
      (∀ d, d < 2 → (Tbl.get? (u.chain ch).adminGot d).isSome ∧ ackedAll u ch d = true) ∧
      k = (if cycleTime (cycleOf t) < t then cycleOf t + 1 else cycleOf t)) ∧
    (∃ (c : _) (s : State) (u : _) (ch : _) (sd : _) (m : _) (v : _) (w : _), Runs opLaneUnfence c s u ∧
      sd = (if c.f 2 0 1 = 1 then Side.east else Side.west) ∧
      ch = (if u.isTray then c.f 2 1 1 else 0) ∧
      m = c.f 2 4 4 ∧
      v = u.setF (CHN_LANES ch) (lanesLo sd) 4 (u.fencedRx ch sd &&& (m ^^^ 15)) ∧
      w = (if m = 0 then v else queueRow ch (.lanes sd m false) v)) :=
  ⟨⟨cmd [16], leaf, _, runs_at (by decide), by decide, by decide, by decide⟩,
   ⟨cmd [4, 0x804], leaf, _, runs_at (by decide), by decide⟩,
   ⟨cmd [1, 4096], tray, _, _, _, runs_at (by decide), rfl, rfl, by decide, by decide, by decide⟩,
   ⟨cmd [], wrs [(CHN_STATUS 0, 0x1000)] leaf, _, runs_at (by decide), by decide⟩,
   ⟨cmd [0x103, 0, 0x100401, 0x80003], tray, _, _, _, _, _, _, runs_at (by decide), rfl, rfl, by decide, rfl, by decide, by decide, rfl, rfl⟩,
   ⟨cmd [0, 0x10000, 0, 1], tray.setChain 1 { chainBlank with adminGot := [(0, 0), (1, 0)] }, _, _, secU, _, runs_at (by decide), rfl, by decide, by decide +kernel, by decide +kernel, rfl⟩,
   ⟨cmd [0x10], wrs [(CHN_STATUS 0, 0x1000)] leaf, _, _, _, _, _, _, runs_at (by decide), rfl, rfl, rfl, rfl, rfl⟩⟩

/-- States and operands that meet the hypotheses of `Obligations.RegisterAccessesComplete`, for each of its clauses. -/
theorem witness_RegisterAccessesComplete :
    (∃ (off : _) (s : State) (h : _), PortOpen s ∧
      Names s off h ∧
      h.row.acc = .w1c) ∧
    (∃ (off : _) (s : State) (h : _), PortOpen s ∧
      Names s off h ∧
      h.row.acc = .rc ∧
      pairOf h = none) ∧
    (∃ (s : State), PortOpen s) ∧
    (∃ (off : _) (s : State) (h : _), PortOpen s ∧
      Names s off h ∧
      (h.row.acc = .ro ∨ h.row.acc = .rc)) ∧
    (∃ (off : _) (s : State) (h : _), PortOpen s ∧
      Names s off h ∧
      h.row.dom = .crst ∧
      pairOf h = none) ∧
    (∃ (off : _) (s : State) (h : _), PortOpen s ∧
      Names s off h ∧
      h.row.dom = .crst ∧
      h.row.acc = .w1c) ∧
    (∃ (off : _) (s : State) (h : _), PortOpen s ∧
      Names s off h ∧
      h.row.dom = .crst ∧
      (h.row.acc = .ro ∨ h.row.acc = .rc)) :=
  ⟨⟨PIL_EVT.off, leaf, hitAt PIL_EVT.off (by decide +kernel), ⟨⟨rfl, rfl, rfl⟩, rfl⟩, names_at _ (by decide +kernel), by decide +kernel⟩,
   ⟨PRB_MISSING.off, leaf, hitAt PRB_MISSING.off (by decide +kernel), ⟨⟨rfl, rfl, rfl⟩, rfl⟩, names_at _ (by decide +kernel), by decide +kernel, by decide +kernel⟩,
   ⟨leaf, ⟨⟨rfl, rfl, rfl⟩, rfl⟩⟩,
   ⟨(PRB_DESC 1023 3).off, leaf, hitAt (PRB_DESC 1023 3).off (by decide +kernel), ⟨⟨rfl, rfl, rfl⟩, rfl⟩, names_at _ (by decide +kernel), by decide +kernel⟩,
   ⟨(PRB_DESC 1023 3).off, leaf, hitAt (PRB_DESC 1023 3).off (by decide +kernel), ⟨⟨rfl, rfl, rfl⟩, rfl⟩, names_at _ (by decide +kernel), by decide +kernel, by decide +kernel⟩,
   ⟨WIT_EVT.off, leaf, hitAt WIT_EVT.off (by decide +kernel), ⟨⟨rfl, rfl, rfl⟩, rfl⟩, names_at _ (by decide +kernel), by decide +kernel, by decide +kernel⟩,
   ⟨PRB_MISSING.off, leaf, hitAt PRB_MISSING.off (by decide +kernel), ⟨⟨rfl, rfl, rfl⟩, rfl⟩, names_at _ (by decide +kernel), by decide +kernel, by decide +kernel⟩⟩

/-- States and operands that meet the hypotheses of `Obligations.HalfAccessesComplete`, for each of its clauses. -/
theorem witness_HalfAccessesComplete :
    (∃ (off : _) (s : State) (h : _), PortOpen s ∧
      Names s off h ∧
      h.row.wide = true ∧
      pairOf h = none ∧
      h.row.acc ≠ .rc) ∧
    (∃ (rq : _) (off : _) (s : State) (h : _) (t : _), PortOpen s ∧
      Names s off h ∧
      h.row.wide = true ∧
      pairOf h = none ∧
      h.row.acc = .rc ∧
      t = putLatch rq (some { off := h.at.off, high := s.shown h / 2 ^ 32 }) s) ∧
    (∃ (rq : _) (off : _) (s : State) (h : _) (l : _), PortOpen s ∧
      Names s off h ∧
      h.row.wide = true ∧
      regAt (off + 4) = some { h with high := true } ∧
      absentAt s.build (off + 4) = false ∧
      pairOf h = none ∧
      Tbl.get? s.pil.latches rq = some l ∧
      l.off = h.at.off) ∧
    (∃ (rq : _) (off : _) (s : State) (h : _), PortOpen s ∧
      Names s off h ∧
      h.row.wide = true ∧
      regAt (off + 4) = some { h with high := true } ∧
      absentAt s.build (off + 4) = false ∧
      pairOf h = none ∧
      (∀ l, Tbl.get? s.pil.latches rq = some l → l.off ≠ h.at.off)) ∧
    (∃ (off : _) (s : State) (h : _), PortOpen s ∧
      Names s off h ∧
      h.row.wide = true) ∧
    (∃ (rq : _) (off : _) (s : State) (h : _) (x : _), PortOpen s ∧
      Names s off h ∧
      h.row.wide = true ∧
      regAt (off + 4) = some { h with high := true } ∧
      absentAt s.build (off + 4) = false ∧
      h.row.acc = .ro ∧
      Tbl.get? s.pil.holds rq = some x ∧
      x.off = h.at.off) ∧
    (∃ (rq : _) (off : _) (s : State) (h : _), PortOpen s ∧
      Names s off h ∧
      h.row.wide = true ∧
      regAt (off + 4) = some { h with high := true } ∧
      absentAt s.build (off + 4) = false ∧
      h.row.acc = .ro ∧
      Tbl.get? s.pil.holds rq = none) ∧
    (∃ (rq : _) (s : State) (rd : _) (wr : _) (x : _), PortOpen s ∧
      (rd = WAK_DST_RD ∧ wr = WAK_DST_WR ∨ s.build = .tray ∧ (rd = WAK_XR_RD ∧ wr = WAK_XR_WR ∨ rd = STW_SR_RD ∧ wr = STW_SR_WR)) ∧
      Tbl.get? s.pil.holds rq = some x ∧
      x.off = rd.off) ∧
    (∃ (rq : _) (s : State) (rd : _) (wr : _), PortOpen s ∧
      (rd = WAK_DST_RD ∧ wr = WAK_DST_WR ∨ s.build = .tray ∧ (rd = WAK_XR_RD ∧ wr = WAK_XR_WR ∨ rd = STW_SR_RD ∧ wr = STW_SR_WR)) ∧
      Tbl.get? s.pil.holds rq = none) :=
  ⟨⟨TAP_STALE.off, leaf, hitAt TAP_STALE.off (by decide +kernel), ⟨⟨rfl, rfl, rfl⟩, rfl⟩, names_at _ (by decide +kernel), by decide +kernel, by decide +kernel, by decide +kernel⟩,
   ⟨5, HLD_RD_BYTES.off, tray, hitAt HLD_RD_BYTES.off (by decide +kernel), _, ⟨⟨rfl, rfl, rfl⟩, rfl⟩, names_at _ (by decide +kernel), by decide +kernel, by decide +kernel, by decide +kernel, rfl⟩,
   ⟨5, TAP_STALE.off, { leaf with pil := { leaf.pil with latches := [(5, { off := TAP_STALE.off, high := 1 })] } }, hitAt TAP_STALE.off (by decide +kernel), _, ⟨⟨rfl, rfl, rfl⟩, rfl⟩, names_at _ (by decide +kernel), by decide +kernel, high_at _ (by decide +kernel) rfl, by decide +kernel, by decide +kernel, rfl, by decide +kernel⟩,
   ⟨5, TAP_STALE.off, leaf, hitAt TAP_STALE.off (by decide +kernel), ⟨⟨rfl, rfl, rfl⟩, rfl⟩, names_at _ (by decide +kernel), by decide +kernel, high_at _ (by decide +kernel) rfl, by decide +kernel, by decide +kernel, fun l h => nomatch h⟩,
   ⟨TAP_STALE.off, leaf, hitAt TAP_STALE.off (by decide +kernel), ⟨⟨rfl, rfl, rfl⟩, rfl⟩, names_at _ (by decide +kernel), by decide +kernel⟩,
   ⟨5, DAT_NOW_SEC.off, { leaf with pil := { leaf.pil with holds := [(5, { off := DAT_NOW_SEC.off, low := 1 })] } }, hitAt DAT_NOW_SEC.off (by decide +kernel), _, ⟨⟨rfl, rfl, rfl⟩, rfl⟩, names_at _ (by decide +kernel), by decide +kernel, high_at _ (by decide +kernel) rfl, by decide +kernel, by decide +kernel, rfl, by decide +kernel⟩,
   ⟨5, DAT_NOW_SEC.off, leaf, hitAt DAT_NOW_SEC.off (by decide +kernel), ⟨⟨rfl, rfl, rfl⟩, rfl⟩, names_at _ (by decide +kernel), by decide +kernel, high_at _ (by decide +kernel) rfl, by decide +kernel, by decide +kernel, by decide⟩,
   ⟨5, { tray with pil := { tray.pil with holds := [(5, { off := STW_SR_RD.off, low := 1 })] } }, STW_SR_RD, STW_SR_WR, _, ⟨⟨rfl, rfl, rfl⟩, rfl⟩, .inr ⟨rfl, .inr ⟨rfl, rfl⟩⟩, rfl, by decide +kernel⟩,
   ⟨5, leaf, WAK_DST_RD, WAK_DST_WR, ⟨⟨rfl, rfl, rfl⟩, rfl⟩, .inl ⟨rfl, rfl⟩, by decide +kernel⟩⟩

/-- States and operands that meet the hypotheses of `Obligations.LiveReadsComplete`, for each of its clauses. -/
theorem witness_LiveReadsComplete :
    (∃ (off : _) (s : State) (h : _) (sub : _), PortOpen s ∧
      Names s off h ∧
      h.row.wide = true ∧
      pairOf h = some (sub, false)) ∧
    (∃ (s : State), PortOpen s) ∧
    (∃ (rq : _) (off : _) (s : State) (h : _) (sub : _) (a : _) (b : _), PortOpen s ∧
      Names s off h ∧
      h.row.wide = true ∧
      pairOf h = some (sub, false) ∧
      regAt (off + 4) = some { h with high := true } ∧
      absentAt s.build (off + 4) = false ∧
      s.capture? rq sub = some (a, b)) ∧
    (∃ (running : _) (lanes : _) (n : _) (off : _) (s : State) (t : _) (v : _), PortOpen s ∧
      s.build = .leaf ∧
      n < 65536 ∧
      off = 0x100000 + 8 * n ∧
      t = podClock off running (countLanes lanes s) ∧
      v = (if t.podOn (n / 1024) = true then (if running = true then (t.counter n, t) else (0, cdcTimed (n / 1024) t)) else (0, t.evt TAP_EVT 0))) ∧
    (∃ (running : _) (lanes : _) (n : _) (off : _) (s : State) (t : _) (v : _), PortOpen s ∧
      s.build = .leaf ∧
      n < 65536 ∧
      off = 0x100000 + 8 * n ∧
      t = podClock off running (countLanes lanes s) ∧
      v = (if t.podOn (n / 1024) = true then (if running = true then (t.counter n, t) else (0, cdcTimed (n / 1024) t)) else (0, t.evt TAP_EVT 0))) ∧
    (∃ (running : _) (lanes : _) (n : _) (off : _) (s : State) (t : _) (v : _), PortOpen s ∧
      s.build = .leaf ∧
      n < 65536 ∧
      off = 0x100000 + 8 * n ∧
      t = podClock off running (countLanes lanes s) ∧
      v = (if t.podOn (n / 1024) = true then (if running = true then (t.counter n, t) else (0, cdcTimed (n / 1024) t)) else (0, t.evt TAP_EVT 0))) ∧
    (∃ (running : _) (lanes : _) (n : _) (off : _) (s : State) (t : _) (v : _), PortOpen s ∧
      s.build = .leaf ∧
      n < 65536 ∧
      off = 0x100000 + 8 * n ∧
      t = podClock off running (countLanes lanes s) ∧
      v = (if t.podOn (n / 1024) = true then (if running = true then (t.counter n, t) else (0, cdcTimed (n / 1024) t)) else (0, t.evt TAP_EVT 0))) ∧
    (∃ (rq : _) (running : _) (lanes : _) (n : _) (off : _) (s : State) (t : _) (v : _) (l : _), PortOpen s ∧
      s.build = .leaf ∧
      n < 65536 ∧
      off = 0x100000 + 8 * n ∧
      t = podClock off running (countLanes lanes s) ∧
      v = (if t.podOn (n / 1024) = true then (if running = true then (t.counter n, t) else (0, cdcTimed (n / 1024) t)) else (0, t.evt TAP_EVT 0)) ∧
      Tbl.get? s.pil.latches rq = some l ∧
      l.off = off) ∧
    (∃ (rq : _) (running : _) (lanes : _) (n : _) (off : _) (s : State) (t : _) (v : _), PortOpen s ∧
      s.build = .leaf ∧
      n < 65536 ∧
      off = 0x100000 + 8 * n ∧
      t = podClock off running (countLanes lanes s) ∧
      v = (if t.podOn (n / 1024) = true then (if running = true then (t.counter n, t) else (0, cdcTimed (n / 1024) t)) else (0, t.evt TAP_EVT 0)) ∧
      (∀ l, Tbl.get? s.pil.latches rq = some l → l.off ≠ off)) ∧
    (∃ (wide : Bool) (off : _) (s : State), PortOpen s ∧
      s.build = .tray ∧
      0x100000 ≤ off ∧
      off < 0x180000 ∧
      off % (if wide then 8 else 4) = 0) :=
  ⟨⟨DAT_NOW_SUB.off, leaf, hitAt DAT_NOW_SUB.off (by decide +kernel), DAT_NOW_SUB.off, ⟨⟨rfl, rfl, rfl⟩, rfl⟩, names_at _ (by decide +kernel), by decide +kernel, by decide +kernel⟩,
   ⟨leaf, ⟨⟨rfl, rfl, rfl⟩, rfl⟩⟩,
   ⟨5, DAT_NOW_SUB.off, { leaf with pil := { leaf.pil with captures := [{ rq := 5, off := DAT_NOW_SUB.off, time := 7 }] } }, hitAt DAT_NOW_SUB.off (by decide +kernel), DAT_NOW_SUB.off, 7, 0, ⟨⟨rfl, rfl, rfl⟩, rfl⟩, names_at _ (by decide +kernel), by decide +kernel, by decide +kernel, high_at _ (by decide +kernel) rfl, by decide +kernel, by decide +kernel⟩,
   ⟨true, [], 65535, _, { leaf with pins := { leaf.pins with tapOn := 2 ^ 63 } }, _, _, ⟨⟨rfl, rfl, rfl⟩, rfl⟩, by decide, by decide, rfl, rfl, rfl⟩,
   ⟨false, [], 65535, _, { leaf with pins := { leaf.pins with tapOn := 2 ^ 63 } }, _, _, ⟨⟨rfl, rfl, rfl⟩, rfl⟩, by decide, by decide, rfl, rfl, rfl⟩,
   ⟨true, [], 65535, _, leaf, _, _, ⟨⟨rfl, rfl, rfl⟩, rfl⟩, by decide, by decide, rfl, rfl, rfl⟩,
   ⟨false, [{ pod := 63, event := 0, amount := 1 }], 65535, _, { leaf with pins := { leaf.pins with tapOn := 2 ^ 63 } }, _, _, ⟨⟨rfl, rfl, rfl⟩, rfl⟩, by decide, by decide, rfl, rfl, rfl⟩,
   ⟨5, true, [], 65535, 0x17FFF8, { leaf with pil := { leaf.pil with latches := [(5, { off := 0x17FFF8, high := 1 })] } }, _, _, { off := 0x17FFF8, high := 1 }, ⟨⟨rfl, rfl, rfl⟩, rfl⟩, by decide, by decide, rfl, rfl, rfl, by decide, by decide⟩,
   ⟨5, true, [], 65535, 0x17FFF8, leaf, _, _, ⟨⟨rfl, rfl, rfl⟩, rfl⟩, by decide, by decide, rfl, rfl, rfl, fun l h => nomatch h⟩,
   ⟨true, 0x17FFF8, tray, ⟨⟨rfl, rfl, rfl⟩, rfl⟩, by decide, by decide, by decide, by decide⟩⟩

/-- States and operands that meet the hypotheses of `Obligations.ReadPointerWritesComplete`, for each of its clauses. -/
theorem witness_ReadPointerWritesComplete :
    (∃ (data : Word) (s : State) (n : _), PortOpen s ∧
      ((data.toNat + 2 ^ 32 - s.rd PIL_DONE_WR) % 2 ^ 32 = 0 ∨ 2 ^ 31 ≤ (data.toNat + 2 ^ 32 - s.rd PIL_DONE_WR) % 2 ^ 32) ∧
      n = (data.toNat + 2 ^ 32 - s.rd PIL_DONE_RD) % 2 ^ 32 ∧
      n < 2 ^ 31) ∧
    (∃ (data : Word) (s : State), PortOpen s ∧
      0 < (data.toNat + 2 ^ 32 - s.rd PIL_DONE_WR) % 2 ^ 32 ∧
      (data.toNat + 2 ^ 32 - s.rd PIL_DONE_WR) % 2 ^ 32 < 2 ^ 31) ∧
    (∃ (s : State), PortOpen s) ∧
    (∃ (s : State), PortOpen s ∧
      s.build = .tray) ∧
    (∃ (s : State), PortOpen s ∧
      s.build = .tray) :=
  ⟨⟨2, wrs [(PIL_DONE_WR, 2)] tray, _, ⟨⟨rfl, rfl, rfl⟩, rfl⟩, by decide +kernel, rfl, by decide +kernel⟩,
   ⟨3, wrs [(PIL_DONE_WR, 2)] tray, ⟨⟨rfl, rfl, rfl⟩, rfl⟩, by decide +kernel, by decide +kernel⟩,
   ⟨leaf, ⟨⟨rfl, rfl, rfl⟩, rfl⟩⟩,
   ⟨tray, ⟨⟨rfl, rfl, rfl⟩, rfl⟩, by decide⟩,
   ⟨tray, ⟨⟨rfl, rfl, rfl⟩, rfl⟩, by decide⟩⟩

/-- States and operands that meet the hypotheses of `Obligations.RefusedAccessesSetTheirBits`, for each of its clauses. -/
theorem witness_RefusedAccessesSetTheirBits :
    (∃ (off : _) (size : _) (s : State), PortOpen s ∧
      (size ≠ 4 ∧ size ≠ 8 ∨ size = 4 ∧ off % 4 ≠ 0 ∨ size = 8 ∧ off % 8 ≠ 0)) ∧
    (∃ (off : _) (s : State), PortOpen s ∧
      off % 4 = 0 ∧
      absentAt s.build off = true ∧
      ¬(0x10000 ≤ off ∧ off < 0x15000)) ∧
    (∃ (off : _) (s : State) (h : _), PortOpen s ∧
      off % 4 = 0 ∧
      absentAt s.build off = false ∧
      regAt off = some h ∧
      s.sleepHit h = true ∧
      ¬(0x10000 ≤ off ∧ off < 0x15000) ∧
      ¬(0x100000 ≤ off ∧ off < 0x180000)) ∧
    (∃ (off : _) (s : State) (h : _) (u : _), PortOpen s ∧
      off % 4 = 0 ∧
      absentAt s.build off = false ∧
      regAt off = some h ∧
      s.sleepHit h = false ∧
      s.heldHit h = true ∧
      h.row.wide = false ∧
      u = s.draw.2 ∧
      ¬(0x10000 ≤ off ∧ off < 0x15000) ∧
      ¬(0x100000 ≤ off ∧ off < 0x180000)) ∧
    (∃ (off : _) (s : State) (h : _) (u : _), PortOpen s ∧
      off % 4 = 0 ∧
      absentAt s.build off = false ∧
      regAt off = some h ∧
      s.sleepHit h = false ∧
      s.heldHit h = true ∧
      h.row.wide = false ∧
      u = s.draw.2 ∧
      ¬(0x10000 ≤ off ∧ off < 0x15000) ∧
      ¬(0x100000 ≤ off ∧ off < 0x180000)) :=
  ⟨⟨12, 8, tray, ⟨⟨rfl, rfl, rfl⟩, rfl⟩, by decide⟩,
   ⟨0x40000, tray, ⟨⟨rfl, rfl, rfl⟩, rfl⟩, by decide, by decide, by decide⟩,
   ⟨PRB_MISSING.off, wrs [(PLM_POWER, 2)] leaf, hitAt PRB_MISSING.off (by decide +kernel), ⟨⟨rfl, rfl, rfl⟩, rfl⟩, by decide +kernel, by decide +kernel, (Option.some_get _).symm, by decide +kernel, by decide +kernel, by decide +kernel⟩,
   ⟨PRB_MISSING.off, { leaf with pins := { leaf.pins with crst := true } }, hitAt PRB_MISSING.off (by decide +kernel), _, ⟨⟨rfl, rfl, rfl⟩, rfl⟩, by decide +kernel, by decide +kernel, (Option.some_get _).symm, by decide +kernel, by decide +kernel, by decide +kernel, rfl, by decide +kernel, by decide +kernel⟩,
   ⟨PRB_MISSING.off, { leaf with pins := { leaf.pins with crst := true } }, hitAt PRB_MISSING.off (by decide +kernel), _, ⟨⟨rfl, rfl, rfl⟩, rfl⟩, by decide +kernel, by decide +kernel, (Option.some_get _).symm, by decide +kernel, by decide +kernel, by decide +kernel, rfl, by decide +kernel, by decide +kernel⟩⟩

/-- States and operands that meet the hypotheses of `Obligations.ApertureWriteFillsAndLaunches`, for each of its clauses. -/
theorem witness_ApertureWriteFillsAndLaunches :
    (∃ (auth : _) (ap : _) (off : _) (data : DWord) (s : State) (x : _) (words : _), PortOpen s ∧
      ap < 5 ∧
      (ap = 4 → auth = 3) ∧
      off < 0x1000 ∧
      off % 4 = 0 ∧
      s.pil.booted = true ∧
      (s.aperture ap).st ≠ .busy ∧
      x = (let y : Aperture := if (s.aperture ap).st = .filling then s.aperture ap
                             else { st := .filling, count := 0, have0 := false, mem := [], reply := [] }
         { y with count := y.count + 1, have0 := y.have0 || off == 0,
                  mem := Tbl.set y.mem (off / 4) (BitVec.ofNat 32 data.toNat) }) ∧
      words = (List.range 1024).map (fun i => (Tbl.get? x.mem i).getD 0#32) ∧
      (x.have0 = false ∨ (2 ≤ fld (wAt words 0) 16 16 ∧ fld (wAt words 0) 16 16 ≤ 1024 ∧ x.count < fld (wAt words 0) 16 16))) ∧
    (∃ (auth : _) (ap : _) (off : _) (data : DWord) (s : State) (x : _) (words : _), PortOpen s ∧
      ap < 5 ∧
      (ap = 4 → auth = 3) ∧
      off < 0x1000 ∧
      off % 4 = 0 ∧
      s.pil.booted = true ∧
      (s.aperture ap).st ≠ .busy ∧
      x = (let y : Aperture := if (s.aperture ap).st = .filling then s.aperture ap
                             else { st := .filling, count := 0, have0 := false, mem := [], reply := [] }
         { y with count := y.count + 1, have0 := y.have0 || off == 0,
                  mem := Tbl.set y.mem (off / 4) (BitVec.ofNat 32 data.toNat) }) ∧
      words = (List.range 1024).map (fun i => (Tbl.get? x.mem i).getD 0#32) ∧
      x.have0 = true ∧
      (fld (wAt words 0) 16 16 < 2 ∨ 1024 < fld (wAt words 0) 16 16 ∨ fld (wAt words 0) 16 16 ≤ x.count)) ∧
    (∃ (auth : _) (ap : _) (off : _) (data : DWord) (s : State) (x : _) (words : _), PortOpen s ∧
      ap < 5 ∧
      (ap = 4 → auth = 3) ∧
      off < 0x1000 ∧
      off % 8 = 0 ∧
      s.pil.booted = true ∧
      (s.aperture ap).st ≠ .busy ∧
      x = (let y : Aperture := if (s.aperture ap).st = .filling then s.aperture ap
                             else { st := .filling, count := 0, have0 := false, mem := [], reply := [] }
         { y with count := y.count + 2, have0 := y.have0 || off == 0,
                  mem := Tbl.set (Tbl.set y.mem (off / 4) (BitVec.ofNat 32 data.toNat)) (off / 4 + 1)
                    (BitVec.ofNat 32 (data.toNat / 2 ^ 32)) }) ∧
      words = (List.range 1024).map (fun i => (Tbl.get? x.mem i).getD 0#32) ∧
      (x.have0 = false ∨ (2 ≤ fld (wAt words 0) 16 16 ∧ fld (wAt words 0) 16 16 ≤ 1024 ∧ x.count < fld (wAt words 0) 16 16))) ∧
    (∃ (auth : _) (ap : _) (off : _) (data : DWord) (s : State) (x : _) (words : _), PortOpen s ∧
      ap < 5 ∧
      (ap = 4 → auth = 3) ∧
      off < 0x1000 ∧
      off % 8 = 0 ∧
      s.pil.booted = true ∧
      (s.aperture ap).st ≠ .busy ∧
      x = (let y : Aperture := if (s.aperture ap).st = .filling then s.aperture ap
                             else { st := .filling, count := 0, have0 := false, mem := [], reply := [] }
         { y with count := y.count + 2, have0 := y.have0 || off == 0,
                  mem := Tbl.set (Tbl.set y.mem (off / 4) (BitVec.ofNat 32 data.toNat)) (off / 4 + 1)
                    (BitVec.ofNat 32 (data.toNat / 2 ^ 32)) }) ∧
      words = (List.range 1024).map (fun i => (Tbl.get? x.mem i).getD 0#32) ∧
      (x.have0 = false ∨ (2 ≤ fld (wAt words 0) 16 16 ∧ fld (wAt words 0) 16 16 ≤ 1024 ∧ x.count < fld (wAt words 0) 16 16))) ∧
    (∃ (auth : _) (ap : _) (off : _) (data : DWord) (s : State) (x : _) (words : _), PortOpen s ∧
      ap < 5 ∧
      (ap = 4 → auth = 3) ∧
      off < 0x1000 ∧
      off % 8 = 0 ∧
      s.pil.booted = true ∧
      (s.aperture ap).st ≠ .busy ∧
      x = (let y : Aperture := if (s.aperture ap).st = .filling then s.aperture ap
                             else { st := .filling, count := 0, have0 := false, mem := [], reply := [] }
         { y with count := y.count + 2, have0 := y.have0 || off == 0,
                  mem := Tbl.set (Tbl.set y.mem (off / 4) (BitVec.ofNat 32 data.toNat)) (off / 4 + 1)
                    (BitVec.ofNat 32 (data.toNat / 2 ^ 32)) }) ∧
      words = (List.range 1024).map (fun i => (Tbl.get? x.mem i).getD 0#32) ∧
      x.have0 = true ∧
      (fld (wAt words 0) 16 16 < 2 ∨ 1024 < fld (wAt words 0) 16 16 ∨ fld (wAt words 0) 16 16 ≤ x.count)) ∧
    (∃ (auth : _) (ap : _) (off : _) (s : State), PortOpen s ∧
      ap < 5 ∧
      (ap = 4 → auth = 3) ∧
      off < 0x1000 ∧
      off % 4 = 0 ∧
      (s.pil.booted = false ∨ (s.aperture ap).st = .busy)) ∧
    (∃ (auth : _) (ap : _) (off : _) (s : State), PortOpen s ∧
      ap < 5 ∧
      (ap = 4 → auth = 3) ∧
      off < 0x1000 ∧
      off % 4 = 0 ∧
      (s.pil.booted = false ∨ (s.aperture ap).st = .busy) ∧
      off % 8 = 0) ∧
    (∃ (auth : _) (off : _) (s : State), PortOpen s ∧
      auth ≠ 3 ∧
      off < 0x1000 ∧
      off % 4 = 0) :=
  ⟨⟨3, 4, 0, 0x40000, tray, _, _, ⟨⟨rfl, rfl, rfl⟩, rfl⟩, by decide, by decide, by decide, by decide, by decide, by decide, rfl, rfl, by decide +kernel⟩,
   ⟨0, 0, 0, 0x10000, tray, _, _, ⟨⟨rfl, rfl, rfl⟩, rfl⟩, by decide, by decide, by decide, by decide, by decide, by decide, rfl, rfl, by decide +kernel, by decide +kernel⟩,
   ⟨3, 4, 0, 0x40000, tray, _, _, ⟨⟨rfl, rfl, rfl⟩, rfl⟩, by decide, by decide, by decide, by decide, by decide, by decide, rfl, rfl, by decide +kernel⟩,
   ⟨3, 4, 0xFF8, 0, tray, _, _, ⟨⟨rfl, rfl, rfl⟩, rfl⟩, by decide, by decide, by decide, by decide, by decide, by decide, rfl, rfl, by decide +kernel⟩,
   ⟨0, 0, 0, 0x20000, tray, _, _, ⟨⟨rfl, rfl, rfl⟩, rfl⟩, by decide, by decide, by decide, by decide, by decide, by decide, rfl, rfl, by decide +kernel, by decide +kernel⟩,
   ⟨0, 3, 0xFFC, State.resetOf .tray, ⟨⟨rfl, rfl, rfl⟩, rfl⟩, by decide, by decide, by decide, by decide, by decide⟩,
   ⟨0, 3, 0xFF8, State.resetOf .tray, ⟨⟨rfl, rfl, rfl⟩, rfl⟩, by decide, by decide, by decide, by decide, by decide, by decide⟩,
   ⟨2, 0, tray, ⟨⟨rfl, rfl, rfl⟩, rfl⟩, by decide, by decide, by decide⟩⟩

/-- States and operands that meet the hypotheses of `Obligations.ResetsComplete`, for each of its clauses. -/
theorem witness_ResetsComplete :
    (∃ (s : State) (t : _) (v : _), t = State.resetOf s.build ∧
      v = logCut s) ∧
    (∃ (s : State), s.log.writes = []) ∧
    (∃ (x : Straps) (s : State) (v : _) (n : _), s.pins.por = true ∧
      n = ((List.range (bondGroups s.build)).filter (fun g => decide (1 ≤ (Tbl.get? s.otpBond g).getD 0) && decide ((Tbl.get? s.otpBond g).getD 0 ≤ 32))).length ∧
      v = logPowerOn ((({ s with pins := { s.pins with por := false, straps := x, memTrained := x.memTrained, lndUp := x.lndUp, tapOn := x.tapOn } } : State).setF CDC_BOND_STATUS 0 16 n).putB FLT_CTL 1 x.testMode) ∧
      v.pins.crst = true) ∧
    (∃ (x : Straps) (s : State) (v : _) (n : _), s.pins.por = true ∧
      n = ((List.range (bondGroups s.build)).filter (fun g => decide (1 ≤ (Tbl.get? s.otpBond g).getD 0) && decide ((Tbl.get? s.otpBond g).getD 0 ≤ 32))).length ∧
      v = logPowerOn ((({ s with pins := { s.pins with por := false, straps := x, memTrained := x.memTrained, lndUp := x.lndUp, tapOn := x.tapOn } } : State).setF CDC_BOND_STATUS 0 16 n).putB FLT_CTL 1 x.testMode) ∧
      v.pins.crst = false ∧
      v.bondBad { bad := x.bondBad } = none) ∧
    (∃ (x : Straps) (s : State) (v : _) (n : _) (g : _), s.pins.por = true ∧
      n = ((List.range (bondGroups s.build)).filter (fun g => decide (1 ≤ (Tbl.get? s.otpBond g).getD 0) && decide ((Tbl.get? s.otpBond g).getD 0 ≤ 32))).length ∧
      v = logPowerOn ((({ s with pins := { s.pins with por := false, straps := x, memTrained := x.memTrained, lndUp := x.lndUp, tapOn := x.tapOn } } : State).setF CDC_BOND_STATUS 0 16 n).putB FLT_CTL 1 x.testMode) ∧
      v.pins.crst = false ∧
      v.bondBad { bad := x.bondBad } = some g) ∧
    (∃ (s : State) (t : _), s.pins.por = false ∧
      t = resetRegs .hrst [] (if s.pins.hrst then s else flushTaps s)) ∧
    (∃ (s : State) (t : _), s.pins.por = false ∧
      t = resetRegs .hrst [] (if s.pins.hrst then s else flushTaps s)) ∧
    (∃ (s : State), Quiet s) ∧
    (∃ (s : State) (t : _), s.pins.por = false ∧
      s.pins.crst = false ∧
      t = ({ s with pins := { s.pins with crst := true }, plm := { s.plm with goal := none } } : State).putB PLM_POWER 3 false) ∧
    (∃ (s : State), s.pins.por = true) ∧
    (∃ (s : State), s.pins.por = false ∧
      s.pins.crst = true ∧
      (s.powerState = 2 → s.bondFail = true)) :=
  ⟨⟨leaf, _, _, rfl, rfl⟩,
   ⟨leaf, by decide⟩,
   ⟨{ testMode := false, phyTx := 0, phyRx := 0, fordListen := false, memTrained := 0xFFF, lndUp := 3, tapOn := 0, bondBad := none }, { leaf with pins := { leaf.pins with por := true, crst := true } }, _, _, by decide, rfl, rfl, rfl⟩,
   ⟨{ testMode := false, phyTx := 0, phyRx := 0, fordListen := false, memTrained := 0xFFF, lndUp := 3, tapOn := 0, bondBad := none }, { leaf with pins := { leaf.pins with por := true, crst := false } }, _, _, by decide, rfl, rfl, by decide +kernel, by decide +kernel⟩,
   ⟨{ testMode := false, phyTx := 0, phyRx := 0, fordListen := false, memTrained := 0xFFF, lndUp := 3, tapOn := 0, bondBad := some 30 }, { leaf with pins := { leaf.pins with por := true, crst := false } }, _, _, 30, by decide, rfl, rfl, by decide +kernel, by decide +kernel⟩,
   ⟨leaf, _, by decide, rfl⟩,
   ⟨{ leaf with pins := { leaf.pins with hrst := true } }, _, by decide, rfl⟩,
   ⟨leaf, ⟨rfl, rfl⟩⟩,
   ⟨leaf, _, by decide, by decide, rfl⟩,
   ⟨{ leaf with pins := { leaf.pins with por := true, crst := false } }, by decide⟩,
   ⟨{ leaf with pins := { leaf.pins with crst := true } }, by decide, by decide, by decide⟩⟩

/-- States and operands that meet the hypotheses of `Obligations.PowerChangesComplete`, for its first clauses. -/
theorem witness_PowerChangesComplete :
    (∃ (s : State), Running s) ∧
    (∃ (s : State) (t : _) (v : _) (w : _), s.pins.por = false ∧
      s.plm.goal = some t ∧
      t ≠ 0 ∧
      s.powerState = 0 ∧
      s.pins.crst = false ∧
      s.cad.pass = none ∧
      s.trn.pass = none ∧
      s.wit.run = none ∧
      s.wit.selfRun = none ∧
      (∀ n, n < 64 → fltCompute n = true → s.fltState n ≠ 1) ∧
      w = wakPowerDown (t == 2) s ∧
      v = epochsAsleep (requeueJobs false (holdWork (flushEnd w)))) ∧
    (∃ (s : State), Running s ∧
      (s.plm.goal = none ∨ s.plm.goal = some 0 ∨ s.computeActive = false ∨ s.cad.pass ≠ none ∨ s.trn.pass ≠ none ∨ s.wit.run ≠ none ∨ s.wit.selfRun ≠ none ∨ ∃ n, n < 64 ∧ fltCompute n = true ∧ s.fltState n = 1)) ∧
    (∃ (bond : _) (s : State) (v : _) (g : _), s.pins.por = false ∧
      s.plm.goal = some 0 ∧
      s.powerState = 2 ∧
      s.pins.crst = false ∧
      v = ({ s with pins := { s.pins with straps := { s.pins.straps with bondBad := bond.bad } } } : State) ∧
      v.bondBad bond = some g) ∧
    (∃ (bond : _) (s : State) (v : _), s.pins.por = false ∧
      s.plm.goal = some 0 ∧
      s.powerState = 2 ∧
      s.pins.crst = false ∧
      v = ({ s with pins := { s.pins with straps := { s.pins.straps with bondBad := bond.bad } } } : State) ∧
      v.bondBad bond = none) ∧
    (∃ (s : State), s.pins.por = false ∧
      s.plm.goal = some 0 ∧
      s.powerState ≠ 0 ∧
      s.powerState ≠ 2 ∧
      s.pins.crst = false) ∧
    (∃ (s : State), Running s ∧
      (s.plm.goal ≠ some 0 ∨ s.powerState = 0 ∨ s.pins.crst = true)) ∧
    (∃ (s : State) (w : _), s.pins.por = false ∧
      s.pins.crst = false ∧
      s.powerState = 1 ∧
      s.plm.goal = some 2 ∧
      (∀ n, n < 64 → fltCompute n = true → s.fltState n ≠ 1) ∧
      w = wakDozeSleep s) ∧
    (∃ (s : State) (g : _), s.pins.por = false ∧
      s.pins.crst = false ∧
      s.powerState = 2 ∧
      s.plm.goal = some 1 ∧
      s.bondBad { bad := s.pins.straps.bondBad } = some g) ∧
    (∃ (s : State), s.pins.por = false ∧
      s.pins.crst = false ∧
      s.powerState = 2 ∧
      s.plm.goal = some 1 ∧
      s.bondBad { bad := s.pins.straps.bondBad } = none) ∧
    (∃ (s : State), Running s ∧
      (s.pins.crst = true ∨ ¬(s.powerState = 1 ∧ s.plm.goal = some 2) ∧ ¬(s.powerState = 2 ∧ s.plm.goal = some 1) ∨ s.powerState = 1 ∧ ∃ n, n < 64 ∧ fltCompute n = true ∧ s.fltState n = 1)) ∧
    (∃ (u : _) (s : State) (t : _), s.pins.por = false ∧
      u ∈ s.flt.quiesced ∧
      t = ({ s with flt := { s.flt with quiesced := s.flt.quiesced.filter (· != u) } } : State)) :=
  ⟨⟨leaf, ⟨rfl, rfl, rfl⟩⟩,
   ⟨{ leaf with plm := { leaf.plm with goal := some 2 } }, 2, _, _, by decide, by decide, by decide, by decide, by decide, by decide, by decide, by decide, by decide, by decide +kernel, rfl, rfl⟩,
   ⟨leaf, ⟨rfl, rfl, rfl⟩, by decide⟩,
   ⟨{ bad := some 30 }, wrs [(PLM_POWER, 2)] { leaf with plm := { leaf.plm with goal := some 0 } }, _, 30, by decide, by decide, by decide, by decide, rfl, by decide +kernel⟩,
   ⟨{ bad := none }, wrs [(PLM_POWER, 2)] { tray with plm := { tray.plm with goal := some 0 } }, _, by decide, by decide, by decide, by decide, rfl, by decide +kernel⟩,
   ⟨wrs [(PLM_POWER, 1)] { leaf with plm := { leaf.plm with goal := some 0 } }, by decide, by decide, by decide, by decide, by decide⟩,
   ⟨leaf, ⟨rfl, rfl, rfl⟩, by decide⟩,
   ⟨wrs [(PLM_POWER, 1)] { leaf with plm := { leaf.plm with goal := some 2 } }, _, by decide, by decide, by decide +kernel, by decide, by decide +kernel, rfl⟩,
   ⟨wrs [(PLM_POWER, 2)] { leaf with plm := { leaf.plm with goal := some 1 }, pins := { leaf.pins with straps := { leaf.pins.straps with bondBad := some 30 } } }, 30, by decide, by decide, by decide, by decide, by decide +kernel⟩,
   ⟨wrs [(PLM_POWER, 2)] { leaf with plm := { leaf.plm with goal := some 1 } }, by decide, by decide, by decide, by decide, by decide +kernel⟩,
   ⟨leaf, ⟨rfl, rfl, rfl⟩, by decide⟩,
   ⟨.cadastre, { leaf with flt := { leaf.flt with quiesced := [.cadastre] } }, _, by decide, by decide, rfl⟩⟩

/-- States and operands that meet the hypotheses of `Obligations.PowerChangesComplete`, for further clauses. -/
theorem witness_PowerChangesComplete_2 :
    (∃ (u : _) (s : State), Running s ∧
      u ∉ s.flt.quiesced) ∧
    (∃ (i : _) (u : _) (bond : _) (s : State), i ∈ [Instr.pilotBoot, .powerEntry, .powerExit bond, .dozeSleepChange, .quiesceRelease u] ∧
      s.pins.por = true) :=
  ⟨⟨.cadastre, leaf, ⟨rfl, rfl, rfl⟩, by decide⟩,
   ⟨.pilotBoot, .cadastre, { bad := none }, { tray with pins := { tray.pins with por := true } }, by decide, by decide⟩⟩

/-- States and operands that meet the hypotheses of `Obligations.FaultEventsComplete`, for its first clauses. -/
theorem witness_FaultEventsComplete :
    (∃ (n : _) (held : _) (s : State) (t : _), Running s ∧
      fltExists s.build n = true ∧
      bit s.flt.lines n = false ∧
      bit s.flt.stuck n = false ∧
      (bit s.flt.badPairs n = false ∨ held = true) ∧
      (n = 8 → ∀ j ∈ s.pil.jobs, j.async = true) ∧
      t = ({ s with flt := { s.flt with stuck := s.flt.stuck &&& (2 ^ 64 - 1 - (if fltCompute n then fltComputeMask else 2 ^ n)), lines := setFld s.flt.lines n 1 (b2n held), badPairs := setFld s.flt.badPairs n 1 0 } } : State) ∧
      t.lineLive n = true ∧
      t.fltClass n = 0) ∧
    (∃ (n : _) (held : _) (s : State) (t : _), Running s ∧
      fltExists s.build n = true ∧
      bit s.flt.lines n = false ∧
      bit s.flt.stuck n = false ∧
      (bit s.flt.badPairs n = false ∨ held = true) ∧
      (n = 8 → ∀ j ∈ s.pil.jobs, j.async = true) ∧
      t = ({ s with flt := { s.flt with stuck := s.flt.stuck &&& (2 ^ 64 - 1 - (if fltCompute n then fltComputeMask else 2 ^ n)), lines := setFld s.flt.lines n 1 (b2n held), badPairs := setFld s.flt.badPairs n 1 0 } } : State) ∧
      t.lineLive n = true ∧
      t.fltClass n = 0) ∧
    (∃ (n : _) (held : _) (s : State) (t : _) (v : _), Running s ∧
      fltExists s.build n = true ∧
      bit s.flt.lines n = false ∧
      bit s.flt.stuck n = false ∧
      (bit s.flt.badPairs n = false ∨ held = true) ∧
      (n = 8 → ∀ j ∈ s.pil.jobs, j.async = true) ∧
      t = ({ s with flt := { s.flt with stuck := s.flt.stuck &&& (2 ^ 64 - 1 - (if fltCompute n then fltComputeMask else 2 ^ n)), lines := setFld s.flt.lines n 1 (b2n held), badPairs := setFld s.flt.badPairs n 1 0 } } : State) ∧
      t.lineLive n = true ∧
      t.fltClass n = 1 ∧
      t.fltState n = 0 ∧
      v = rateNote 2 (((putStatus n true (quietRestart t)).inc (FLT_SRC_COUNT n) 1).evt FLT_EVT 0)) ∧
    (∃ (n : _) (held : _) (s : State) (t : _), Running s ∧
      fltExists s.build n = true ∧
      bit s.flt.lines n = false ∧
      bit s.flt.stuck n = false ∧
      (bit s.flt.badPairs n = false ∨ held = true) ∧
      (n = 8 → ∀ j ∈ s.pil.jobs, j.async = true) ∧
      t = ({ s with flt := { s.flt with stuck := s.flt.stuck &&& (2 ^ 64 - 1 - (if fltCompute n then fltComputeMask else 2 ^ n)), lines := setFld s.flt.lines n 1 (b2n held), badPairs := setFld s.flt.badPairs n 1 0 } } : State) ∧
      t.lineLive n = true ∧
      t.fltClass n = 2 ∧
      t.fltState n = 0) ∧
    (∃ (n : _) (held : _) (s : State) (t : _), Running s ∧
      fltExists s.build n = true ∧
      bit s.flt.lines n = false ∧
      bit s.flt.stuck n = false ∧
      (bit s.flt.badPairs n = false ∨ held = true) ∧
      (n = 8 → ∀ j ∈ s.pil.jobs, j.async = true) ∧
      t = ({ s with flt := { s.flt with stuck := s.flt.stuck &&& (2 ^ 64 - 1 - (if fltCompute n then fltComputeMask else 2 ^ n)), lines := setFld s.flt.lines n 1 (b2n held), badPairs := setFld s.flt.badPairs n 1 0 } } : State) ∧
      t.lineLive n = true ∧
      t.fltClass n ≠ 0 ∧
      t.fltState n = 1) ∧
    (∃ (n : _) (held : _) (s : State) (t : _), Running s ∧
      fltExists s.build n = true ∧
      bit s.flt.lines n = false ∧
      bit s.flt.stuck n = false ∧
      (bit s.flt.badPairs n = false ∨ held = true) ∧
      (n = 8 → ∀ j ∈ s.pil.jobs, j.async = true) ∧
      t = ({ s with flt := { s.flt with stuck := s.flt.stuck &&& (2 ^ 64 - 1 - (if fltCompute n then fltComputeMask else 2 ^ n)), lines := setFld s.flt.lines n 1 (b2n held), badPairs := setFld s.flt.badPairs n 1 0 } } : State) ∧
      t.lineLive n = true ∧
      t.fltClass n ≠ 0 ∧
      t.fltState n = 2) ∧
    (∃ (n : _) (held : _) (s : State), Running s ∧
      fltExists s.build n = true ∧
      n ≠ 8 ∧
      (bit s.flt.lines n = true ∨ bit s.flt.stuck n = true ∨ bit s.flt.badPairs n = true ∧ held = false)) ∧
    (∃ (n : _) (held : _) (s : State), Running s ∧
      fltExists s.build n = true ∧
      n ≠ 8 ∧
      (bit s.flt.lines n = true ∨ bit s.flt.stuck n = true ∨ bit s.flt.badPairs n = true ∧ held = false)) ∧
    (∃ (n : _) (held : _) (s : State), Running s ∧
      fltExists s.build n = true ∧
      n ≠ 8 ∧
      (bit s.flt.lines n = true ∨ bit s.flt.stuck n = true ∨ bit s.flt.badPairs n = true ∧ held = false)) ∧
    (∃ (s : State) (j : _), Running s ∧
      s.pil.jobs.find? (fun x => !x.async) = some j) ∧
    (∃ (n : _) (lasting : _) (s : State) (t : _) (v : _), Running s ∧
      s.isTray = true ∧
      n < 64 ∧
      t = ({ s with flt := { s.flt with badPairs := setFld s.flt.badPairs n 1 (b2n lasting) } } : State) ∧
      v = logEvent 0x12 [BitVec.ofNat 8 n] (((t.wr FLT_WIRE (setBit (t.rd FLT_WIRE) n)).evt FLT_EVT 2).putB (FLT_SRC_STATE n) 28 true) ∧
      v.fltState n = 0) ∧
    (∃ (n : _) (lasting : _) (s : State) (t : _) (v : _), Running s ∧
      s.isTray = true ∧
      n < 64 ∧
      t = ({ s with flt := { s.flt with badPairs := setFld s.flt.badPairs n 1 (b2n lasting) } } : State) ∧
      v = logEvent 0x12 [BitVec.ofNat 8 n] (((t.wr FLT_WIRE (setBit (t.rd FLT_WIRE) n)).evt FLT_EVT 2).putB (FLT_SRC_STATE n) 28 true) ∧
      v.fltState n = 1) :=
  ⟨⟨39, true, tray, _, ⟨rfl, rfl, rfl⟩, by decide +kernel, by decide +kernel, by decide +kernel, by decide +kernel, by decide +kernel, rfl, by decide +kernel, by decide +kernel⟩,
   ⟨39, true, { tray with flt := { tray.flt with badPairs := 2 ^ 39 } }, _, ⟨rfl, rfl, rfl⟩, by decide +kernel, by decide +kernel, by decide +kernel, by decide +kernel, by decide +kernel, rfl, by decide +kernel, by decide +kernel⟩,
   ⟨38, false, tray, _, _, ⟨rfl, rfl, rfl⟩, by decide +kernel, by decide +kernel, by decide +kernel, by decide +kernel, by decide +kernel, rfl, by decide +kernel, by decide +kernel, by decide +kernel, rfl⟩,
   ⟨6, false, leaf, _, ⟨rfl, rfl, rfl⟩, by decide +kernel, by decide +kernel, by decide +kernel, by decide +kernel, by decide +kernel, rfl, by decide +kernel, by decide +kernel, by decide +kernel⟩,
   ⟨38, true, wrs [(FLT_SRC_STATE 38, 0x40000000)] tray, _, ⟨rfl, rfl, rfl⟩, by decide +kernel, by decide +kernel, by decide +kernel, by decide +kernel, by decide +kernel, rfl, by decide +kernel, by decide +kernel, by decide +kernel⟩,
   ⟨38, true, wrs [(FLT_SRC_STATE 38, 0x80000000)] tray, _, ⟨rfl, rfl, rfl⟩, by decide +kernel, by decide +kernel, by decide +kernel, by decide +kernel, by decide +kernel, rfl, by decide +kernel, by decide +kernel, by decide +kernel⟩,
   ⟨39, true, { tray with flt := { tray.flt with lines := 2 ^ 39 } }, ⟨rfl, rfl, rfl⟩, by decide, by decide, by decide +kernel⟩,
   ⟨39, true, { tray with flt := { tray.flt with stuck := 2 ^ 39 } }, ⟨rfl, rfl, rfl⟩, by decide, by decide, by decide +kernel⟩,
   ⟨39, false, { tray with flt := { tray.flt with badPairs := 2 ^ 39 } }, ⟨rfl, rfl, rfl⟩, by decide, by decide, by decide +kernel⟩,
   ⟨{ tray with pil := { tray.pil with jobs := [({ id := 0, opcode := 0, cmd := cmd [], async := false, phase := .waiting, data := .plain } : Job)] } }, ({ id := 0, opcode := 0, cmd := cmd [], async := false, phase := .waiting, data := .plain } : Job), ⟨rfl, rfl, rfl⟩, rfl⟩,
   ⟨63, true, tray, _, _, ⟨rfl, rfl, rfl⟩, by decide, by decide, rfl, rfl, by decide⟩,
   ⟨63, true, wrs [(FLT_SRC_STATE 63, 0x40000000)] tray, _, _, ⟨rfl, rfl, rfl⟩, by decide, by decide, rfl, rfl, by decide +kernel⟩⟩

/-- States and operands that meet the hypotheses of `Obligations.FaultEventsComplete`, for further clauses. -/
theorem witness_FaultEventsComplete_2 :
    (∃ (n : _) (lasting : _) (s : State) (t : _) (v : _) (w : _), Running s ∧
      s.isTray = true ∧
      n < 64 ∧
      t = ({ s with flt := { s.flt with badPairs := setFld s.flt.badPairs n 1 (b2n lasting) } } : State) ∧
      v = logEvent 0x12 [BitVec.ofNat 8 n] (((t.wr FLT_WIRE (setBit (t.rd FLT_WIRE) n)).evt FLT_EVT 2).putB (FLT_SRC_STATE n) 28 true) ∧
      v.fltState n = 2 ∧
      w = (quietRestart v).inc (FLT_SRC_COUNT n) 1) ∧
    (∃ (n : _) (s : State), Running s ∧
      s.fltState n = 1 ∧
      (Tbl.get? s.flt.graceEnd n).getD 0 ≤ s.dat.edges) :=
  ⟨⟨63, true, wrs [(FLT_SRC_STATE 63, 0x80000000)] tray, _, _, _, ⟨rfl, rfl, rfl⟩, by decide, by decide, rfl, rfl, by decide +kernel, rfl⟩,
   ⟨63, wrs [(FLT_SRC_STATE 63, 0x40000000)] tray, ⟨rfl, rfl, rfl⟩, by decide, by decide⟩⟩

/-- States and operands that meet the hypotheses of `Obligations.RecoveryAndPortEventsComplete`, for each of its clauses. -/
theorem witness_RecoveryAndPortEventsComplete :
    (∃ (s : State) (t : _), Running s ∧
      s.getB FLT_STATE 0 = true ∧
      (∀ n, n < 64 → s.fltLine n = false ∧ bit s.flt.badPairs n = false) ∧
      (∀ e ∈ s.flt.escalated, e.2.1 ≠ 2) ∧
      s.rd FLT_WIRE = 0 ∧
      s.flt.quietFrom + s.getF FLT_CTL 16 16 * 1250000 ≤ s.dat.edges ∧
      t = (s.each (Tbl.keys s.flt.escalated) withdraw).putB FLT_STATE 0 false) ∧
    (∃ (x : _) (s : State) (t : _) (v : _) (w : _), Running s ∧
      t = ((s.inc CDC_TMO_COUNT 1).wr CDC_TMO_LAST (2 ^ 31 + x % 1024)).evt FLT_EVT 4 ∧
      v = (if t.getB CDC_TMO_FIRST 31 then t else t.wr CDC_TMO_FIRST (2 ^ 31 + x % 1024)) ∧
      w = (faultEdge 7 { v with flt := { v.flt with stuck := v.flt.stuck ||| crossingLines x } }).each ((List.range 64).filter (fun n => bit (crossingLines x) n && !(v.fltLine n))) faultEdge ∧
      crossKind s.build x = none) ∧
    (∃ (x : _) (s : State) (t : _) (v : _) (w : _), Running s ∧
      t = ((s.inc CDC_TMO_COUNT 1).wr CDC_TMO_LAST (2 ^ 31 + x % 1024)).evt FLT_EVT 4 ∧
      v = (if t.getB CDC_TMO_FIRST 31 then t else t.wr CDC_TMO_FIRST (2 ^ 31 + x % 1024)) ∧
      w = (faultEdge 7 { v with flt := { v.flt with stuck := v.flt.stuck ||| crossingLines x } }).each ((List.range 64).filter (fun n => bit (crossingLines x) n && !(v.fltLine n))) faultEdge ∧
      crossKind s.build x = none) ∧
    (∃ (x : _) (s : State) (t : _) (v : _) (w : _), Running s ∧
      t = ((s.inc CDC_TMO_COUNT 1).wr CDC_TMO_LAST (2 ^ 31 + x % 1024)).evt FLT_EVT 4 ∧
      v = (if t.getB CDC_TMO_FIRST 31 then t else t.wr CDC_TMO_FIRST (2 ^ 31 + x % 1024)) ∧
      w = (faultEdge 7 { v with flt := { v.flt with stuck := v.flt.stuck ||| crossingLines x } }).each ((List.range 64).filter (fun n => bit (crossingLines x) n && !(v.fltLine n))) faultEdge ∧
      crossKind s.build x = none) ∧
    (∃ (x : _) (s : State) (t : _) (v : _) (w : _), Running s ∧
      t = ((s.inc CDC_TMO_COUNT 1).wr CDC_TMO_LAST (2 ^ 31 + x % 1024)).evt FLT_EVT 4 ∧
      v = (if t.getB CDC_TMO_FIRST 31 then t else t.wr CDC_TMO_FIRST (2 ^ 31 + x % 1024)) ∧
      w = (faultEdge 7 { v with flt := { v.flt with stuck := v.flt.stuck ||| crossingLines x } }).each ((List.range 64).filter (fun n => bit (crossingLines x) n && !(v.fltLine n))) faultEdge ∧
      crossKind s.build x = some .handshake) ∧
    (∃ (x : _) (s : State) (t : _) (v : _) (w : _), Running s ∧
      t = ((s.inc CDC_TMO_COUNT 1).wr CDC_TMO_LAST (2 ^ 31 + x % 1024)).evt FLT_EVT 4 ∧
      v = (if t.getB CDC_TMO_FIRST 31 then t else t.wr CDC_TMO_FIRST (2 ^ 31 + x % 1024)) ∧
      w = (faultEdge 7 { v with flt := { v.flt with stuck := v.flt.stuck ||| crossingLines x } }).each ((List.range 64).filter (fun n => bit (crossingLines x) n && !(v.fltLine n))) faultEdge ∧
      crossKind s.build x = some .handshake) ∧
    (∃ (x : _) (s : State) (t : _) (v : _) (w : _), Running s ∧
      t = ((s.inc CDC_TMO_COUNT 1).wr CDC_TMO_LAST (2 ^ 31 + x % 1024)).evt FLT_EVT 4 ∧
      v = (if t.getB CDC_TMO_FIRST 31 then t else t.wr CDC_TMO_FIRST (2 ^ 31 + x % 1024)) ∧
      w = (faultEdge 7 { v with flt := { v.flt with stuck := v.flt.stuck ||| crossingLines x } }).each ((List.range 64).filter (fun n => bit (crossingLines x) n && !(v.fltLine n))) faultEdge ∧
      (crossKind s.build x = some .fifo ∨ crossKind s.build x = some .event)) ∧
    (∃ (x : _) (s : State) (t : _) (v : _) (w : _), Running s ∧
      t = ((s.inc CDC_TMO_COUNT 1).wr CDC_TMO_LAST (2 ^ 31 + x % 1024)).evt FLT_EVT 4 ∧
      v = (if t.getB CDC_TMO_FIRST 31 then t else t.wr CDC_TMO_FIRST (2 ^ 31 + x % 1024)) ∧
      w = (faultEdge 7 { v with flt := { v.flt with stuck := v.flt.stuck ||| crossingLines x } }).each ((List.range 64).filter (fun n => bit (crossingLines x) n && !(v.fltLine n))) faultEdge ∧
      (crossKind s.build x = some .fifo ∨ crossKind s.build x = some .event)) ∧
    (∃ (s : State), Running s ∧
      s.isTray = false) ∧
    (∃ (p : _) (s : State), Running s ∧
      s.isTray = true ∧
      p < 12) ∧
    (∃ (p : _) (s : State), Running s ∧
      s.isTray = true ∧
      p < 12 ∧
      bit s.pins.memTrained p = true) ∧
    (∃ (st : _) (s : State), Running s ∧
      s.isTray = true ∧
      st < 2 ∧
      bit s.pins.lndUp st = true) :=
  ⟨⟨{ wrs [(FLT_STATE, 1)] tray with dat := { tray.dat with edges := 2 ^ 40 } }, _, ⟨rfl, rfl, rfl⟩, by decide, by decide +kernel, by decide +kernel, by decide, by decide +kernel, rfl⟩,
   ⟨1023, tray, _, _, _, ⟨rfl, rfl, rfl⟩, rfl, rfl, rfl, by decide +kernel⟩,
   ⟨0x83, leaf, _, _, _, ⟨rfl, rfl, rfl⟩, rfl, rfl, rfl, by decide +kernel⟩,
   ⟨0xB0, leaf, _, _, _, ⟨rfl, rfl, rfl⟩, rfl, rfl, rfl, by decide +kernel⟩,
   ⟨0xA3, tray, _, _, _, ⟨rfl, rfl, rfl⟩, rfl, rfl, rfl, by decide +kernel⟩,
   ⟨0x3F, leaf, _, _, _, ⟨rfl, rfl, rfl⟩, rfl, rfl, rfl, by decide +kernel⟩,
   ⟨0xBB, tray, _, _, _, ⟨rfl, rfl, rfl⟩, rfl, rfl, rfl, by decide +kernel⟩,
   ⟨0xE4, leaf, _, _, _, ⟨rfl, rfl, rfl⟩, rfl, rfl, rfl, by decide +kernel⟩,
   ⟨leaf, ⟨rfl, rfl, rfl⟩, by decide⟩,
   ⟨11, tray, ⟨rfl, rfl, rfl⟩, by decide, by decide⟩,
   ⟨11, { tray with pins := { tray.pins with memTrained := 0xFFF } }, ⟨rfl, rfl, rfl⟩, by decide, by decide, by decide⟩,
   ⟨1, { tray with pins := { tray.pins with lndUp := 3 } }, ⟨rfl, rfl, rfl⟩, by decide, by decide, by decide⟩⟩

/-- States and operands that meet the hypotheses of `Obligations.LeaveEventsComplete`, for each of its clauses. -/
theorem witness_LeaveEventsComplete :
    (∃ (r : _) (rs : _) (s : State) (t : _), Running s ∧
      s.adm.queue = r :: rs ∧
      t = (({ s with adm := { s.adm with queue := rs, held := s.adm.held ++ [⟨r.purpose, r.amt, r.since⟩], gntAt := some s.dat.edges } } : State).maxR PWR_WAIT_MAX ((s.dat.edges - r.since) / 1250))) ∧
    (∃ (r : _) (rs : _) (s : State) (late : _), Running s ∧
      s.adm.queue = r :: rs ∧
      late = (fun (x : LeaveReq) => x.since == r.since || decide (x.since + s.getF PWR_CTL 0 16 * 1250 ≤ s.dat.edges))) :=
  ⟨⟨({ id := 0, unit := 3, cls := 0, amt := 0, purpose := .wakeDrain, since := 0 } : LeaveReq), [], { leaf with adm := { leaf.adm with queue := [({ id := 0, unit := 3, cls := 0, amt := 0, purpose := .wakeDrain, since := 0 } : LeaveReq)] } }, _, ⟨rfl, rfl, rfl⟩, by decide, rfl⟩,
   ⟨({ id := 0, unit := 3, cls := 0, amt := 0, purpose := .wakeDrain, since := 0 } : LeaveReq), [], { leaf with adm := { leaf.adm with queue := [({ id := 0, unit := 3, cls := 0, amt := 0, purpose := .wakeDrain, since := 0 } : LeaveReq)] } }, _, ⟨rfl, rfl, rfl⟩, by decide, rfl⟩⟩

/-- States and operands that meet the hypotheses of `Obligations.PlumbLogEventsComplete`, for each of its clauses. -/
theorem witness_PlumbLogEventsComplete :
    (∃ (ch : _) (s : State), Running s ∧
      ch < 16 ∧
      s.getB (PLM_CH_CFG ch) 31 = true) ∧
    (∃ (ch : _) (data : _) (s : State) (xs : _), Running s ∧
      ch ∈ s.plm.waiting ∧
      xs = (data % 65536 :: (Tbl.get? s.plm.raw ch).getD []).take 5) ∧
    (∃ (s : State), Running s) ∧
    (∃ (s : State) (t : _), Running s ∧
      t = ({ s with plm := { s.plm with staged := [] } } : State).each s.plm.staged (fun p u => plmPut p.1 p.2 u)) ∧
    (∃ (r : _) (s : State), Running s ∧
      r < 32 ∧
      s.getB (PLM_RULE_CFG0 r) 31 = true ∧
      s.getF (PLM_RULE_STATE r) 30 2 ≠ 2 ∧
      s.ruleHolds r = true ∧
      s.getF (PLM_RULE_CFG0 r) 0 16 ≤ (if s.getF (PLM_RULE_STATE r) 30 2 = 0 then 1 else s.getF (PLM_RULE_STATE r) 0 16 + 1)) ∧
    (∃ (r : _) (s : State), Running s ∧
      r < 32 ∧
      s.getF (PLM_RULE_STATE r) 30 2 = 2 ∧
      s.ruleHolds r = true ∧
      s.getB (PLM_RULE_CFG0 r) 26 = true ∧
      s.getF (PLM_RULE_CFG1 r) 16 16 * 100 ≤ (Tbl.get? s.plm.gap r).getD 0 + 1) ∧
    (∃ (s : State) (t : _), Running s ∧
      t = s.wr PLM_OPTIME (min (s.rd PLM_OPTIME + 1) (2 ^ 32 - 1))) ∧
    (∃ (e : _) (es : _) (s : State), Running s ∧
      s.log.queue = e :: es) ∧
    (∃ (s : State), Running s ∧
      s.getF DAT_STATE 0 3 = 2) :=
  ⟨⟨15, wrs [(PLM_CH_CFG 15, 0x80000000)] tray, ⟨rfl, rfl, rfl⟩, by decide, by decide⟩,
   ⟨15, 70000, { tray with plm := { tray.plm with waiting := [15] } }, _, ⟨rfl, rfl, rfl⟩, by decide, rfl⟩,
   ⟨tray, ⟨rfl, rfl, rfl⟩⟩,
   ⟨{ tray with plm := { tray.plm with staged := [(0, 5)] } }, _, ⟨rfl, rfl, rfl⟩, rfl⟩,
   ⟨31, wrs [(PLM_RULE_CFG0 31, 0x80000001), (PLM_RULE_STATE 31, 0x30000)] tray, ⟨rfl, rfl, rfl⟩, by decide, by decide, by decide, by decide +kernel, by decide⟩,
   ⟨31, { wrs [(PLM_RULE_STATE 31, 0x80030000), (PLM_RULE_CFG0 31, 0x84000000)] tray with plm := { tray.plm with gap := [(31, 10 ^ 7)] } }, ⟨rfl, rfl, rfl⟩, by decide, by decide, by decide +kernel, by decide, by decide +kernel⟩,
   ⟨tray, _, ⟨rfl, rfl, rfl⟩, rfl⟩,
   ⟨({ kind := 1, since := 0, time := 0, data := [] } : LogEvent), [], { tray with log := { tray.log with queue := [({ kind := 1, since := 0, time := 0, data := [] } : LogEvent)] } }, ⟨rfl, rfl, rfl⟩, by decide⟩,
   ⟨wrs [(DAT_STATE, 2)] tray, ⟨rfl, rfl, rfl⟩, by decide⟩⟩

/-- States and operands that meet the hypotheses of `Obligations.WakeEventsComplete`, for its first clauses. -/
theorem witness_WakeEventsComplete :
    (∃ (n : Nat) (auth : Nat) (r : TapRecord) (s : State) (t : _) (hits : List Nat), Running s ∧
      s.wakRuns = true ∧
      n < 8 ∧
      r.kind = 0 ∧
      s.secExcluded auth r = false ∧
      s.getB (WAK_TAP_CFG n) 31 = true ∧
      s.getB (WAK_TAP_CFG n) (if r.write then 29 else 30) = true ∧
      s.tapEngine n r.engine = true ∧
      hits = (List.range 16).filter (fun k => s.rangeHit k r.addr r.size) ∧
      t = (if s.capture = 0 then s else { s with wak := { s.wak with evs := s.wak.evs ++ hits.map .range } }) ∧
      (∀ k ∈ hits, s.rangeMode k ≠ 2) ∧ ((∀ k, k < 16 → s.rangeMode k ≠ 1) ∨ ∃ k ∈ hits, s.rangeMode k = 1)) ∧
    (∃ (n : Nat) (auth : Nat) (r : TapRecord) (s : State) (t : _) (hits : List Nat), Running s ∧
      s.wakRuns = true ∧
      n < 8 ∧
      r.kind = 0 ∧
      s.secExcluded auth r = false ∧
      s.getB (WAK_TAP_CFG n) 31 = true ∧
      s.getB (WAK_TAP_CFG n) (if r.write then 29 else 30) = true ∧
      s.tapEngine n r.engine = true ∧
      hits = (List.range 16).filter (fun k => s.rangeHit k r.addr r.size) ∧
      t = (if s.capture = 0 then s else { s with wak := { s.wak with evs := s.wak.evs ++ hits.map .range } }) ∧
      (∀ k ∈ hits, s.rangeMode k ≠ 2) ∧ ((∀ k, k < 16 → s.rangeMode k ≠ 1) ∨ ∃ k ∈ hits, s.rangeMode k = 1)) ∧
    (∃ (n : Nat) (auth : Nat) (r : TapRecord) (s : State) (t : _) (hits : List Nat), Running s ∧
      s.wakRuns = true ∧
      n < 8 ∧
      r.kind = 0 ∧
      s.secExcluded auth r = false ∧
      s.getB (WAK_TAP_CFG n) 31 = true ∧
      s.getB (WAK_TAP_CFG n) (if r.write then 29 else 30) = true ∧
      s.tapEngine n r.engine = true ∧
      hits = (List.range 16).filter (fun k => s.rangeHit k r.addr r.size) ∧
      t = (if s.capture = 0 then s else { s with wak := { s.wak with evs := s.wak.evs ++ hits.map .range } }) ∧
      (∀ k ∈ hits, s.rangeMode k ≠ 2) ∧ ((∀ k, k < 16 → s.rangeMode k ≠ 1) ∨ ∃ k ∈ hits, s.rangeMode k = 1)) ∧
    (∃ (n : Nat) (auth : Nat) (r : TapRecord) (s : State) (t : _) (hits : List Nat), Running s ∧
      s.wakRuns = true ∧
      n < 8 ∧
      r.kind = 0 ∧
      s.secExcluded auth r = false ∧
      s.getB (WAK_TAP_CFG n) 31 = true ∧
      s.getB (WAK_TAP_CFG n) (if r.write then 29 else 30) = true ∧
      s.tapEngine n r.engine = true ∧
      hits = (List.range 16).filter (fun k => s.rangeHit k r.addr r.size) ∧
      t = (if s.capture = 0 then s else { s with wak := { s.wak with evs := s.wak.evs ++ hits.map .range } }) ∧
      ¬((∀ k ∈ hits, s.rangeMode k ≠ 2) ∧ ((∀ k, k < 16 → s.rangeMode k ≠ 1) ∨ ∃ k ∈ hits, s.rangeMode k = 1))) ∧
    (∃ (n : Nat) (auth : Nat) (r : TapRecord) (s : State) (t : _) (hits : List Nat), Running s ∧
      s.wakRuns = true ∧
      n < 8 ∧
      r.kind = 0 ∧
      s.secExcluded auth r = false ∧
      s.getB (WAK_TAP_CFG n) 31 = true ∧
      s.getB (WAK_TAP_CFG n) (if r.write then 29 else 30) = true ∧
      s.tapEngine n r.engine = true ∧
      hits = (List.range 16).filter (fun k => s.rangeHit k r.addr r.size) ∧
      t = (if s.capture = 0 then s else { s with wak := { s.wak with evs := s.wak.evs ++ hits.map .range } }) ∧
      ¬((∀ k ∈ hits, s.rangeMode k ≠ 2) ∧ ((∀ k, k < 16 → s.rangeMode k ≠ 1) ∨ ∃ k ∈ hits, s.rangeMode k = 1))) ∧
    (∃ (n : Nat) (auth : Nat) (r : TapRecord) (s : State), Running s ∧
      s.computeActive = true ∧
      n < 8 ∧
      r.kind = 0 ∧
      s.secExcluded auth r = true) ∧
    (∃ (n : _) (r : TapRecord) (s : State), Running s ∧
      s.computeActive = true ∧
      n < 8 ∧
      2 < r.kind) ∧
    (∃ (n : _) (r : TapRecord) (s : State) (body : WakBody), Running s ∧
      s.wakRuns = true ∧
      n < 8 ∧
      (r.kind = 1 ∨ r.kind = 2) ∧
      s.getB (WAK_TAP_CFG n) 31 = true ∧
      s.getB (WAK_TAP_CFG n) 28 = true ∧
      s.tapEngine n r.engine = true ∧
      body = (if r.kind = 1 then WakBody.packet 6 n (leBytes 2 (r.engine % 4096) ++ leBytes 8 r.addr ++ padTo 2 r.data) else .packet 7 n (leBytes 2 (r.engine % 4096) ++ padTo 4 r.data))) ∧
    (∃ (n : _) (r : TapRecord) (s : State) (body : WakBody), Running s ∧
      s.wakRuns = true ∧
      n < 8 ∧
      (r.kind = 1 ∨ r.kind = 2) ∧
      s.getB (WAK_TAP_CFG n) 31 = true ∧
      s.getB (WAK_TAP_CFG n) 28 = true ∧
      s.tapEngine n r.engine = true ∧
      body = (if r.kind = 1 then WakBody.packet 6 n (leBytes 2 (r.engine % 4096) ++ leBytes 8 r.addr ++ padTo 2 r.data) else .packet 7 n (leBytes 2 (r.engine % 4096) ++ padTo 4 r.data))) ∧
    (∃ (n : _) (s : State) (e : _), Running s ∧
      Tbl.get? s.wak.timers n = some e ∧
      timeDiff s.now e < 0) ∧
    (∃ (n : _) (s : State) (e : _), Running s ∧
      Tbl.get? s.wak.timers n = some e ∧
      0 ≤ timeDiff s.now e ∧
      s.capture ≠ 0) ∧
    (∃ (n : _) (s : State) (t : _), Running s ∧
      n < 4 ∧
      s.capture ≠ 0 ∧
      s.wakRuns = true ∧
      s.cntOn n = true ∧
      s.rd (WAK_CNT_LIMIT n) ≤ s.rd (WAK_CNT_VAL n) + 1 ∧
      t = s.wr (WAK_CNT_VAL n) 0) :=
  ⟨⟨7, 0, { kind := 0, addr := 0x1000, size := 4, write := false, engine := 0, sec := false, priv := false, data := [] }, wrs [(WAK_STATUS, 0x4000), (WAK_TAP_CFG 7, 0xC0000000)] leaf, _, _, ⟨rfl, rfl, rfl⟩, by decide, by decide, by decide, by decide +kernel, by decide +kernel, by decide +kernel, by decide +kernel, rfl, rfl, by decide +kernel⟩,
   ⟨7, 0, { kind := 0, addr := 0x1000, size := 4, write := true, engine := 0, sec := false, priv := false, data := [] }, wrs [(WAK_STATUS, 0x4000), (WAK_TAP_CFG 7, 0xA0000000), (WAK_RNG_MODE, 0x40000000), (WAK_RNG_BASE 15, 0x1003), (WAK_RNG_LIMIT 15, 0x1003)] leaf, _, _, ⟨rfl, rfl, rfl⟩, by decide, by decide, by decide, by decide +kernel, by decide +kernel, by decide +kernel, by decide +kernel, rfl, rfl, by decide +kernel⟩,
   ⟨7, 0, { kind := 0, addr := 0x1000, size := 4, write := false, engine := 0, sec := false, priv := false, data := [] }, wrs [(WAK_STATUS, 0), (WAK_TAP_CFG 7, 0xC0000000)] leaf, _, _, ⟨rfl, rfl, rfl⟩, by decide, by decide, by decide, by decide +kernel, by decide +kernel, by decide +kernel, by decide +kernel, rfl, rfl, by decide +kernel⟩,
   ⟨7, 0, { kind := 0, addr := 0x1000, size := 4, write := true, engine := 0, sec := false, priv := false, data := [] }, wrs [(WAK_STATUS, 0x4000), (WAK_TAP_CFG 7, 0xA0000000), (WAK_RNG_MODE, 0x40000000), (WAK_RNG_BASE 15, 0x1004), (WAK_RNG_LIMIT 15, 0x1004)] leaf, _, _, ⟨rfl, rfl, rfl⟩, by decide, by decide, by decide, by decide +kernel, by decide +kernel, by decide +kernel, by decide +kernel, rfl, rfl, by decide +kernel⟩,
   ⟨7, 0, { kind := 0, addr := 0x1000, size := 4, write := true, engine := 0, sec := false, priv := false, data := [] }, wrs [(WAK_STATUS, 0x4000), (WAK_TAP_CFG 7, 0xA0000000), (WAK_RNG_MODE, 0x80000000), (WAK_RNG_BASE 15, 0x1003), (WAK_RNG_LIMIT 15, 0x1003)] leaf, _, _, ⟨rfl, rfl, rfl⟩, by decide, by decide, by decide, by decide +kernel, by decide +kernel, by decide +kernel, by decide +kernel, rfl, rfl, by decide +kernel⟩,
   ⟨7, 0, { kind := 0, addr := 0x1000, size := 4, write := false, engine := 0, sec := true, priv := false, data := [] }, wrs [(WAK_SEC, 1)] leaf, ⟨rfl, rfl, rfl⟩, by decide, by decide, by decide, by decide +kernel⟩,
   ⟨7, { kind := 3, addr := 0x1000, size := 4, write := false, engine := 0, sec := false, priv := false, data := [] }, leaf, ⟨rfl, rfl, rfl⟩, by decide, by decide, by decide⟩,
   ⟨7, { kind := 1, addr := 0x1000, size := 4, write := false, engine := 0, sec := false, priv := false, data := [] }, wrs [(WAK_STATUS, 0x4000), (WAK_TAP_CFG 7, 0x90000000)] leaf, _, ⟨rfl, rfl, rfl⟩, by decide, by decide, by decide, by decide +kernel, by decide +kernel, by decide +kernel, rfl⟩,
   ⟨7, { kind := 2, addr := 0x1000, size := 4, write := false, engine := 0, sec := false, priv := false, data := [] }, wrs [(WAK_STATUS, 0x4000), (WAK_TAP_CFG 7, 0x90000000)] leaf, _, ⟨rfl, rfl, rfl⟩, by decide, by decide, by decide, by decide +kernel, by decide +kernel, by decide +kernel, rfl⟩,
   ⟨3, { leaf with wak := { leaf.wak with timers := [(3, 1)] } }, _, ⟨rfl, rfl, rfl⟩, rfl, by decide +kernel⟩,
   ⟨3, { (wrs [(WAK_STATUS, 0x4000)] leaf) with wak := { leaf.wak with timers := [(3, 1)] }, dat := { leaf.dat with clock := 5 * secU } }, _, ⟨rfl, rfl, rfl⟩, rfl, by decide +kernel, by decide +kernel⟩,
   ⟨3, wrs [(WAK_STATUS, 0x4000), (WAK_CNT_LIMIT 3, 1), (WAK_CNT_CFG 3, 0x10000000)] leaf, _, ⟨rfl, rfl, rfl⟩, by decide, by decide +kernel, by decide +kernel, by decide +kernel, by decide +kernel, rfl⟩⟩

/-- States and operands that meet the hypotheses of `Obligations.WakeEventsComplete`, for further clauses. -/
theorem witness_WakeEventsComplete_2 :
    (∃ (s : State), Running s ∧
      s.capturing = true ∧
      s.computeActive = true ∧
      (∀ x ∈ s.wak.queue, x.isSync = false) ∧
      (4096 ≤ s.wak.since ∨ (nsU 1000000 : Nat) ≤ timeDiff s.now s.wak.syncAt)) ∧
    (∃ (s : State), Running s ∧
      s.capturing = true ∧
      s.computeActive = true ∧
      (∀ x ∈ s.wak.queue, x.isSync = false) ∧
      (4096 ≤ s.wak.since ∨ (nsU 1000000 : Nat) ≤ timeDiff s.now s.wak.syncAt)) ∧
    (∃ (s : State) (t : _), Running s ∧
      s.drainWants = true ∧
      s.dstRoom = true ∧
      t = wakLeave (drainOne s) ∧
      (t.wak.flushing = true → t.wakQueued = 0 → t.wak.queue ≠ [])) ∧
    (∃ (s : State), Running s ∧
      s.drainWants = true ∧
      s.dstRoom = false) :=
  ⟨⟨wrs [(WAK_STATUS, 0x6000)] { leaf with wak := { leaf.wak with since := 4096 } }, ⟨rfl, rfl, rfl⟩, by decide +kernel, by decide +kernel, by decide, .inl (by decide)⟩,
   ⟨{ wrs [(WAK_STATUS, 0x6000)] leaf with dat := { leaf.dat with clock := 5 * secU } }, ⟨rfl, rfl, rfl⟩, by decide +kernel, by decide +kernel, by decide, .inr (by decide +kernel)⟩,
   ⟨wrs [(WAK_DST_SIZE, 1), (WAK_DST_WR, 0)] { leaf with wak := { leaf.wak with seg := zeros 64 } }, _, ⟨rfl, rfl, rfl⟩, by decide +kernel, by decide +kernel, rfl, by decide +kernel⟩,
   ⟨wrs [(WAK_DST_SIZE, 1), (WAK_DST_WR, 4096)] { leaf with wak := { leaf.wak with seg := zeros 64 } }, ⟨rfl, rfl, rfl⟩, by decide +kernel, by decide +kernel⟩⟩

/-- States and operands that meet the hypotheses of `Obligations.TestScheduleComplete`, for each of its clauses. -/
theorem witness_TestScheduleComplete :
    (∃ (n : _) (s : State), Running s ∧
      n < 64 ∧
      s.engSt n = 1 ∧
      s.rd (WIT_ENG_DUE n) ≤ s.nowMs) ∧
    (∃ (n : _) (s : State), Running s ∧
      n < 64 ∧
      s.engSt n = 2 ∧
      s.rd (WIT_ENG_DUE n) + s.rd (WIT_ENG_WIN n) ≤ s.nowMs ∧
      s.getF (WIT_ENG_CFG n) 29 2 ≠ 2) ∧
    (∃ (n : _) (s : State), Running s ∧
      n < 64 ∧
      s.engSt n = 2 ∧
      s.rd (WIT_ENG_DUE n) + s.rd (WIT_ENG_WIN n) ≤ s.nowMs ∧
      s.getF (WIT_ENG_CFG n) 29 2 = 2) ∧
    (∃ (n : _) (s : State) (t : _), Running s ∧
      n < 64 ∧
      bit s.wit.gnt n = false ∧
      s.wit.taken = none ∧
      t = ({ s with wit := { s.wit with gnt := setFld s.wit.gnt n 1 1 } } : State) ∧
      t.testReq n = true ∧
      t.witBusy = false) ∧
    (∃ (n : _) (m : _) (s : State) (r : _) (u : _) (t : _), Running s ∧
      n < 64 ∧
      bit s.wit.gnt n = false ∧
      s.wit.taken = some m ∧
      n < m ∧
      s.wit.takenAt = s.dat.edges ∧
      s.wit.run = none ∧
      ({ s with wit := { s.wit with taken := none } } : State).testReq n = true ∧
      r = releaseLeave (.witness m) s ∧
      u = ({ r with wit := { r.wit with taken := none } } : State) ∧
      t = ({ u with wit := { u.wit with gnt := setFld u.wit.gnt n 1 1 } } : State) ∧
      bit u.wit.gnt n = false ∧
      t.testReq n = true ∧
      t.witBusy = false) ∧
    (∃ (n : _) (s : State) (t : _), Running s ∧
      n < 64 ∧
      s.testReq n = true ∧
      (s.wit.taken = some n ∨ ∃ r, s.wit.run = some r ∧ r.eng = n) ∧
      t = ({ s with wit := { s.wit with gnt := setFld s.wit.gnt n 1 0 } } : State)) ∧
    (∃ (s : State), Running s) ∧
    (∃ (n : Nat) (s : State) (g : WitStage) (t : _), Running s ∧
      s.wit.staging[n]? = some g ∧
      g.frags.length ≠ g.nFrag ∧
      t = ({ s with wit := { s.wit with staging := s.wit.staging.filter (fun x => !(x.cls == g.cls && x.version == g.version)) } } : State).each ((s.wit.staging.filter (fun x => x.cls == g.cls && x.version == g.version)).flatMap (·.bufs)) (fun b u => brtRelease b.1 b.2 u)) :=
  ⟨⟨63, { wrs [(WIT_ENG_STATE 63, 0x20000000), (WIT_ENG_DUE 63, 5000)] leaf with dat := { leaf.dat with clock := 5 * secU } }, ⟨rfl, rfl, rfl⟩, by decide, by decide +kernel, by decide +kernel⟩,
   ⟨63, { wrs [(WIT_ENG_STATE 63, 0x40000000), (WIT_ENG_DUE 63, 4000), (WIT_ENG_WIN 63, 1000)] leaf with dat := { leaf.dat with clock := 5 * secU } }, ⟨rfl, rfl, rfl⟩, by decide, by decide +kernel, by decide +kernel, by decide +kernel⟩,
   ⟨63, { wrs [(WIT_ENG_STATE 63, 0x40000000), (WIT_ENG_CFG 63, 0x40000000), (WIT_ENG_DUE 63, 4000), (WIT_ENG_WIN 63, 1000)] leaf with dat := { leaf.dat with clock := 5 * secU } }, ⟨rfl, rfl, rfl⟩, by decide, by decide +kernel, by decide +kernel, by decide +kernel⟩,
   ⟨63, wrs [(WIT_ENG_STATE 63, 0x40000000)] leaf, _, ⟨rfl, rfl, rfl⟩, by decide, by decide +kernel, by decide +kernel, rfl, by decide +kernel, by decide +kernel⟩,
   ⟨5, 63, { wrs [(WIT_ENG_STATE 63, 0x40000000), (WIT_ENG_STATE 5, 0x40000000)] leaf with wit := { leaf.wit with taken := some 63, takenAt := 0 } }, _, _, _, ⟨rfl, rfl, rfl⟩, by decide, by decide +kernel, rfl, by decide, by decide +kernel, rfl, by decide +kernel, rfl, rfl, rfl, by decide +kernel, by decide +kernel, by decide +kernel⟩,
   ⟨63, wrs [(WIT_ENG_STATE 63, 0x80000000)] { leaf with wit := { leaf.wit with run := some ({ eng := 63, slot := 0, cls := 3, version := 5, record := 0, sent := true, ending := false, len := 96 } : WitRun) } }, _, ⟨rfl, rfl, rfl⟩, by decide, by decide, .inr ⟨_, rfl, rfl⟩, rfl⟩,
   ⟨leaf, ⟨rfl, rfl, rfl⟩⟩,
   ⟨0, { leaf with wit := { leaf.wit with staging := [({ cls := 3, version := 5, nFrag := 2, packLen := 96, frags := [], bufs := [(0, 5)] } : WitStage)] } }, ({ cls := 3, version := 5, nFrag := 2, packLen := 96, frags := [], bufs := [(0, 5)] } : WitStage), _, ⟨rfl, rfl, rfl⟩, by decide, by decide, rfl⟩⟩

/-- States and operands that meet the hypotheses of `Obligations.TestRunsComplete`, for each of its clauses. -/
theorem witness_TestRunsComplete :
    (∃ (n : _) (s : State) (r : _) (t : _) (b : _), Running s ∧
      s.wit.run = some r ∧
      r.eng = n ∧
      r.sent = false ∧
      runPack r s = (some b, t)) ∧
    (∃ (n : _) (i : _) (s : State) (r : _) (t : _) (b : _) (p : _), Running s ∧
      s.wit.run = some r ∧
      r.eng = n ∧
      r.record = i ∧
      r.sent = true ∧
      runPack r s = (some b, t) ∧
      p = packRec b (packHead b) i) ∧
    (∃ (n : _) (i : _) (s : State), Running s ∧
      (∀ r, s.wit.run = some r → r.eng ≠ n ∨ r.record ≠ i ∨ r.sent = false)) ∧
    (∃ (n : _) (s : State) (r : _) (t : _) (b : _), Running s ∧
      s.wit.run = some r ∧
      r.eng = n ∧
      r.sent = true ∧
      runPack r s = (some b, t)) ∧
    (∃ (s : State), Running s ∧
      s.getB WIT_CTL 1 = true) ∧
    (∃ (cb : _) (tb : _) (s : State) (t : _), Running s ∧
      s.wit.selfDue = true ∧
      s.selfIdle = true ∧
      t = ({ s with wit := { s.wit with selfRun := some { cadBad := cb, talBad := tb } } } : State)) :=
  ⟨⟨63, wrs [(WIT_PACK_LEN 0, 96)] (withBytes (packImg 1641098422) { leaf with wit := { leaf.wit with run := some ({ eng := 63, slot := 0, cls := 3, version := 5, record := 0, sent := false, ending := false, len := 96 } : WitRun) } }), ({ eng := 63, slot := 0, cls := 3, version := 5, record := 0, sent := false, ending := false, len := 96 } : WitRun), _, (packImg 1641098422), ⟨rfl, rfl, rfl⟩, by decide, by decide, by decide, loads (m := []) (a' := 0) (by decide +kernel) (by decide +kernel) (by decide +kernel) (by rfl) (by decide +kernel) (by decide +kernel)⟩,
   ⟨63, 0, wrs [(WIT_PACK_LEN 0, 96)] (withBytes (packImg 1641098422) { leaf with wit := { leaf.wit with run := some ({ eng := 63, slot := 0, cls := 3, version := 5, record := 0, sent := true, ending := false, len := 96 } : WitRun) } }), ({ eng := 63, slot := 0, cls := 3, version := 5, record := 0, sent := true, ending := false, len := 96 } : WitRun), _, (packImg 1641098422), _, ⟨rfl, rfl, rfl⟩, by decide, by decide, by decide, by decide, loads (m := []) (a' := 0) (by decide +kernel) (by decide +kernel) (by decide +kernel) (by rfl) (by decide +kernel) (by decide +kernel), rfl⟩,
   ⟨63, 1, wrs [(WIT_PACK_LEN 0, 96)] (withBytes (packImg 1641098422) { leaf with wit := { leaf.wit with run := some ({ eng := 63, slot := 0, cls := 3, version := 5, record := 0, sent := true, ending := false, len := 96 } : WitRun) } }), ⟨rfl, rfl, rfl⟩, fun r h => by
    cases h
    exact .inr (.inl (by decide))⟩,
   ⟨63, wrs [(WIT_PACK_LEN 0, 96)] (withBytes (packImg 1641098422) { leaf with wit := { leaf.wit with run := some ({ eng := 63, slot := 0, cls := 3, version := 5, record := 0, sent := true, ending := false, len := 96 } : WitRun) } }), ({ eng := 63, slot := 0, cls := 3, version := 5, record := 0, sent := true, ending := false, len := 96 } : WitRun), _, (packImg 1641098422), ⟨rfl, rfl, rfl⟩, by decide, by decide, by decide, loads (m := []) (a' := 0) (by decide +kernel) (by decide +kernel) (by decide +kernel) (by rfl) (by decide +kernel) (by decide +kernel)⟩,
   ⟨wrs [(WIT_CTL, 2)] leaf, ⟨rfl, rfl, rfl⟩, by decide⟩,
   ⟨false, true, { leaf with wit := { leaf.wit with selfDue := true } }, _, ⟨rfl, rfl, rfl⟩, by decide, by decide +kernel, rfl⟩⟩

/-- States and operands that meet the hypotheses of `Obligations.ReferenceEventsComplete`, for each of its clauses. -/
theorem witness_ReferenceEventsComplete :
    (∃ (sd : Side) (blocks : List Block) (bs : List Byte) (rx : Nat) (s : State) (f : _) (t : _) (u : _) (origin : _) (flags : _) (w : _) (v : _), Running s ∧
      s.isTray = false ∧
      rowPayload 0xA blocks = some bs ∧
      rowOk bs = true ∧
      decTime (leAt bs 0 12) = some origin ∧
      flags = leAt bs 20 1 ∧
      f = ((s.setF DAT_STATE 16 5 (fld flags 0 5 + 1)).putB DAT_STATE 7 (bit flags 5)).setF DAT_CLOSURE 0 16 (leAt bs 18 2) ∧
      t = wordNote sd (bit flags 5) f ∧
      s.chMode 0 ≠ 0 ∧
      (t.inserted 0 = false ∨ t.unseeded 0 sd = false) ∧
      t.datRef = 0 ∧
      (bit flags 5 && bit flags 6) = false ∧
      u = t.putB DAT_STATE 6 (sd == .east) ∧
      w = (if leAt bs 21 1 % 8 ≤ 1 then { u with todo := u.todo ++ [.timeBad] } else u) ∧
      v = measure (timeDiff (clockAdd origin ((toInt 48 (leAt bs 12 6) + (t.wordDelay sd : Nat) + ((fld flags 0 5 + 1 : Nat) : Int) * (if bit flags 5 = true ∧ t.getB DAT_CTL 4 = true then toInt 16 (leAt bs 18 2) else 0)) * 65536)) (w.rxStamp rx) / 65536) w) ∧
    (∃ (sd : Side) (blocks : List Block) (bs : List Byte) (s : State) (f : _) (t : _) (origin : _) (flags : _), Running s ∧
      s.isTray = false ∧
      rowPayload 0xA blocks = some bs ∧
      rowOk bs = true ∧
      decTime (leAt bs 0 12) = some origin ∧
      flags = leAt bs 20 1 ∧
      f = ((s.setF DAT_STATE 16 5 (fld flags 0 5 + 1)).putB DAT_STATE 7 (bit flags 5)).setF DAT_CLOSURE 0 16 (leAt bs 18 2) ∧
      t = wordNote sd (bit flags 5) f ∧
      s.chMode 0 ≠ 0 ∧
      (t.inserted 0 = false ∨ t.unseeded 0 sd = false) ∧
      (t.datRef ≠ 0 ∨ (bit flags 5 && bit flags 6) = true)) ∧
    (∃ (blocks : List Block) (s : State), Running s ∧
      s.isTray = false ∧
      (∀ bs, rowPayload 0xA blocks = some bs → rowOk bs = false ∨ decTime (leAt bs 0 12) = none)) ∧
    (∃ (ch : Nat) (blocks : List Block) (bs : List Byte) (origin : _) (s : State), Running s ∧
      s.isTray = true ∧
      ch < 2 ∧
      s.inserted ch = true ∧
      rowPayload 0xA blocks = some bs ∧
      rowOk bs = true ∧
      decTime (leAt bs 0 12) = some origin) ∧
    (∃ (s : State), Running s ∧
      s.gmHeld = false ∧
      s.datState = 2) ∧
    (∃ (s : State), Running s ∧
      s.gmHeld = false ∧
      s.datState = 1) ∧
    (∃ (s : State), Running s ∧
      s.datState = 3) :=
  ⟨⟨.east, (rowBlocks 0xA (rowBytes [])), rowBytes [], 0, wrs [(CHN_STATUS 0, 0x1100)] leaf, _, _, _, 0, _, _, _, ⟨rfl, rfl, rfl⟩, by decide, by decide +kernel, by decide +kernel, by decide +kernel, rfl, rfl, rfl, by decide +kernel, by decide +kernel, by decide +kernel, by decide +kernel, rfl, rfl, rfl⟩,
   ⟨.east, (rowBlocks 0xA (rowBytes [])), rowBytes [], wrs [(CHN_STATUS 0, 0x1100), (DAT_CTL, 2)] leaf, _, _, 0, _, ⟨rfl, rfl, rfl⟩, by decide, by decide +kernel, by decide +kernel, by decide +kernel, rfl, rfl, rfl, by decide +kernel, by decide +kernel, by decide +kernel⟩,
   ⟨[], leaf, ⟨rfl, rfl, rfl⟩, by decide, fun bs h => by
    cases h⟩,
   ⟨1, (rowBlocks 0xA (rowBytes [])), rowBytes [], 0, wrs [(CHN_STATUS 1, 0x1000)] tray, ⟨rfl, rfl, rfl⟩, by decide, by decide, by decide +kernel, by decide +kernel, by decide +kernel, by decide +kernel⟩,
   ⟨wrs [(DAT_STATE, 2)] leaf, ⟨rfl, rfl, rfl⟩, by decide, by decide⟩,
   ⟨wrs [(DAT_STATE, 1)] leaf, ⟨rfl, rfl, rfl⟩, by decide, by decide⟩,
   ⟨wrs [(DAT_STATE, 3)] leaf, ⟨rfl, rfl, rfl⟩, by decide⟩⟩

/-- States and operands that meet the hypotheses of `Obligations.TimePinEventsComplete`, for each of its clauses. -/
theorem witness_TimePinEventsComplete :
    (∃ (n : _) (s : State), Running s ∧
      n < 8) ∧
    (∃ (edge : _) (s : State) (t : _), Running s ∧
      s.isTray = true ∧
      s.dat.role.role = 2 ∧
      s.datRef = 2 ∧
      t = clockAdd edge (-((24 * 2 ^ 32 / 10 : Nat) : Int)) / 65536 * 65536) ∧
    (∃ (s : State) (t : _), Running s ∧
      t = ({ s with dat := { s.dat with ppsMiss := s.dat.ppsMiss + 1 } } : State).evt DAT_EVT 7) ∧
    (∃ (n : _) (s : State) (k : _) (t : _), Running s ∧
      k = (Tbl.get? s.dat.pulseNext n).getD 0 ∧
      (k = 0 ∨ s.rd (DAT_PLS_PER n) ≠ 0) ∧
      t = ({ s with dat := { s.dat with pulseNext := Tbl.set s.dat.pulseNext n (k + 1) } } : State)) ∧
    (∃ (m : _) (s : State), Running s ∧
      m < 4 ∧
      s.getB (DAT_STOP_CTL m) 0 = true ∧
      s.getB (DAT_STOP_CTL m) 1 = false) ∧
    (∃ (s : State), Running s ∧
      s.dat.dieStop = true ∧
      s.stopWanted = false ∧
      s.dat.dieRise + 1250 ≤ s.dat.edges) ∧
    (∃ (s : State), Running s) ∧
    (∃ (s : State), Running s) ∧
    (∃ (s : State), Running s ∧
      s.dat.dieStop = true ∧
      s.dat.dieAck = false) :=
  ⟨⟨7, tray, ⟨rfl, rfl, rfl⟩, by decide⟩,
   ⟨5, wrs [(DAT_CTL, 4)] { tray with dat := { tray.dat with role := { tray.dat.role with role := 2 } } }, _, ⟨rfl, rfl, rfl⟩, by decide, by decide, by decide, rfl⟩,
   ⟨tray, _, ⟨rfl, rfl, rfl⟩, rfl⟩,
   ⟨7, tray, _, _, ⟨rfl, rfl, rfl⟩, rfl, by decide +kernel, rfl⟩,
   ⟨3, wrs [(DAT_STOP_CTL 3, 1)] tray, ⟨rfl, rfl, rfl⟩, by decide, by decide, by decide⟩,
   ⟨{ tray with dat := { tray.dat with dieStop := true, edges := 1250 } }, ⟨rfl, rfl, rfl⟩, by decide, by decide, by decide⟩,
   ⟨tray, ⟨rfl, rfl, rfl⟩⟩,
   ⟨tray, ⟨rfl, rfl, rfl⟩⟩,
   ⟨{ tray with dat := { tray.dat with dieStop := true } }, ⟨rfl, rfl, rfl⟩, by decide, by decide⟩⟩

/-- States and operands that meet the hypotheses of `Obligations.PtpEventsComplete`, for each of its clauses. -/
theorem witness_PtpEventsComplete :
    (∃ (st : _) (bs : List Byte) (s : State) (off : _) (m : _), Running s ∧
      s.isTray = true ∧
      s.streamOn st = true ∧
      (leAt bs 0 6 = s.rd LND_MAC ∨ leAt bs 0 6 = ptpMac) ∧
      ptpOffset bs = some off ∧
      ptpOf (bs.drop off) = some m ∧
      ptpSumOk bs off = true ∧
      m.domain = s.dat.role.domain) ∧
    (∃ (st : _) (bs : List Byte) (s : State), Running s ∧
      s.isTray = true ∧
      s.streamOn st = true ∧
      leAt bs 0 6 ≠ s.rd LND_MAC ∧
      leAt bs 0 6 ≠ ptpMac) ∧
    (∃ (s : State), Running s ∧
      s.isTray = true ∧
      s.dat.role.role ≠ 0) ∧
    (∃ (s : State) (t : _), Running s ∧
      s.isTray = true ∧
      s.dat.role.role = 1 ∧
      t = queueTime 0 (ptpFrame s s.dat.role.layer2 0 ptpDelayReq s.dat.role.master (ptpBytes s 0 ptpDelayReq s.dat.ptp.seqDreq 0 0x7F (zeros 10))) s) :=
  ⟨⟨1, (ptpFrame tray true 0 ptpDelayReq 0 (ptpBytes tray 0 ptpDelayReq 5 0 0x7F (zeros 10))), wrs [(LND_CTL, 3)] tray, 14, (ptpOf ((ptpFrame tray true 0 ptpDelayReq 0 (ptpBytes tray 0 ptpDelayReq 5 0 0x7F (zeros 10))).drop 14)).get (by decide +kernel), ⟨rfl, rfl, rfl⟩, by decide, by decide, .inr (by decide +kernel), by decide +kernel, (Option.some_get _).symm, by decide +kernel, by decide +kernel⟩,
   ⟨1, zeros 64, wrs [(LND_MAC, 5)] (wrs [(LND_CTL, 3)] tray), ⟨rfl, rfl, rfl⟩, by decide, by decide, by decide +kernel, by decide +kernel⟩,
   ⟨{ tray with dat := { tray.dat with role := { tray.dat.role with role := 2 } } }, ⟨rfl, rfl, rfl⟩, by decide, by decide⟩,
   ⟨{ tray with dat := { tray.dat with role := { tray.dat.role with role := 1 } } }, _, ⟨rfl, rfl, rfl⟩, by decide, by decide, rfl⟩⟩

/-- States and operands that meet the hypotheses of `Obligations.StrobeCompletes`, for each of its clauses. -/
theorem witness_StrobeCompletes :
    ∃ (parcel : _) (lanes : _) (s : State) (cs : _) (n : _) (c : _) (k : _) (t : _) (cut : _) (v : _), Running s ∧
      cs = ((List.range 5).filterMap (fun l => s.ctxAt parcel l)).filter (fun e => e.2.phase == .armed || e.2.phase == .live || e.2.phase == .releasing) ∧
      cs.head? = some (n, c) ∧
      k = c.next ∧
      k ≤ epochLimit ∧
      (cut, t) = (if s.powerState = 2 then (0, countLanes lanes s) else takeCut (countLanes lanes s)) ∧
      v = ((t.each cs (fun e x => epochEnd e.1 cut x)).each ((t.each cs (fun e x => epochEnd e.1 cut x)).dueRulings parcel k) epochRuling) :=
  ⟨1, [], holding (ctx0 0 true) leaf, _, 0, ctx0 0 true, _, _, _, _, ⟨rfl, rfl, rfl⟩, rfl, by decide +kernel, rfl, by decide +kernel, Prod.ext rfl rfl, rfl⟩

/-- States and operands that meet the hypotheses of `Obligations.ContainerEventsComplete`, for its first clauses. -/
theorem witness_ContainerEventsComplete :
    (∃ (cyc : _) (aligned : _) (s : State) (t : _), Running s ∧
      t = s.each s.chainList (chainCycle cyc aligned)) ∧
    (∃ (ch : _) (d : _) (cyc : _) (i : _) (full : _) (s : State) (e : _) (j : _), Running s ∧
      ch ∈ s.chainList ∧
      i ≠ 0 ∧
      mayOriginate s ch d cyc = true ∧
      inGuard s ch cyc i = false ∧
      (i % 4 = 3 → fencedWay s ch d = false) ∧
      grantOf s ch d cyc i = some (e, j) ∧
      full = true) ∧
    (∃ (ch : _) (d : _) (cyc : _) (i : _) (full : _) (s : State) (e : _) (j : _) (ok : _) (k : _), Running s ∧
      ch ∈ s.chainList ∧
      i ≠ 0 ∧
      mayOriginate s ch d cyc = true ∧
      inGuard s ch cyc i = false ∧
      (i % 4 = 3 → fencedWay s ch d = false) ∧
      grantOf s ch d cyc i = some (e, j) ∧
      full = false ∧
      ok = (fun k => bit e.classes (k - 1) && (k != 1 || decide ((s.chain ch).alarmSent < s.getF CHN_CTL 8 4)) && (decide (e.alarmN ≤ j) || k == 1) && classReady s ch d k) ∧
      k ∈ [1, 2, 3, 4, 5] ∧
      ok k = true ∧
      (∀ m, 1 ≤ m → m < k → ok m = false)) ∧
    (∃ (d : Dir) (cyc : _) (i : _) (cell : Option (List Byte)) (s : State) (sd : _) (c : _) (o : _), Running s ∧
      s.isTray = false ∧
      s.inserted 0 = true ∧
      sd = otherSide (sideIn false d) ∧
      c = cell.filter (fun bs => cellHcrcOk bs && fld (leAt bs 0 14) 20 20 != s.station) ∧
      i = 0 ∧
      o = Out.row 0 sd cyc 0 0 (alignRow cyc)) ∧
    (∃ (d : Dir) (cyc : _) (i : _) (cell : Option (List Byte)) (s : State) (sd : _) (c : _) (o : _) (t : _), Running s ∧
      s.isTray = false ∧
      s.inserted 0 = true ∧
      sd = otherSide (sideIn false d) ∧
      c = cell.filter (fun bs => cellHcrcOk bs && fld (leAt bs 0 14) 20 20 != s.station) ∧
      i ≠ 0 ∧
      (i % 4 = 3 → s.fencedTx 0 sd = 0) ∧
      o = Out.relay 0 d cyc i (s.laneFor 0 sd) c ∧
      t = putLine 0 sd (o.onLanes (s.txUsable 0 sd)) (s.emit o)) ∧
    (∃ (d : Dir) (cyc : _) (i : _) (cell : Option (List Byte)) (s : State) (sd : _) (c : _) (o : _) (t : _), Running s ∧
      s.isTray = false ∧
      s.inserted 0 = true ∧
      sd = otherSide (sideIn false d) ∧
      c = cell.filter (fun bs => cellHcrcOk bs && fld (leAt bs 0 14) 20 20 != s.station) ∧
      i ≠ 0 ∧
      (i % 4 = 3 → s.fencedTx 0 sd = 0) ∧
      o = Out.relay 0 d cyc i (s.laneFor 0 sd) c ∧
      t = putLine 0 sd (o.onLanes (s.txUsable 0 sd)) (s.emit o)) ∧
    (∃ (d : Dir) (i : _) (cell : Option (List Byte)) (s : State) (sd : _) (c : _), Running s ∧
      s.isTray = false ∧
      s.inserted 0 = true ∧
      sd = otherSide (sideIn false d) ∧
      c = cell.filter (fun bs => cellHcrcOk bs && fld (leAt bs 0 14) 20 20 != s.station) ∧
      i % 4 = 3 ∧
      s.fencedTx 0 sd ≠ 0) ∧
    (∃ (ch : _) (bs : List Byte) (s : State) (c : _), Running s ∧
      ch ∈ s.chainList ∧
      128 ≤ bs.length ∧
      cellHcrcOk bs = true ∧
      parseCell bs = some c ∧
      s.isTray = true ∧
      s.inserted ch = true ∧
      c.src ≠ s.station ∧
      cellTypeKnown c.type = true ∧
      c.dst = s.station) ∧
    (∃ (ch : _) (bs : List Byte) (s : State) (c : _), Running s ∧
      ch ∈ s.chainList ∧
      128 ≤ bs.length ∧
      cellHcrcOk bs = true ∧
      parseCell bs = some c ∧
      s.isTray = true ∧
      s.inserted ch = true ∧
      c.src ≠ s.station ∧
      (cellTypeKnown c.type = false ∨ c.dst ≠ s.station)) ∧
    (∃ (ch : _) (bs : List Byte) (s : State) (c : _), Running s ∧
      ch ∈ s.chainList ∧
      128 ≤ bs.length ∧
      cellHcrcOk bs = true ∧
      parseCell bs = some c ∧
      s.isTray = true ∧
      s.inserted ch = true ∧
      c.src ≠ s.station ∧
      (cellTypeKnown c.type = false ∨ c.dst ≠ s.station)) ∧
    (∃ (ch : _) (bs : List Byte) (s : State) (c : _), Running s ∧
      ch ∈ s.chainList ∧
      128 ≤ bs.length ∧
      cellHcrcOk bs = true ∧
      parseCell bs = some c ∧
      s.isTray = false ∧
      c.src ≠ s.station ∧
      s.leafTakes c = true) ∧
    (∃ (ch : _) (bs : List Byte) (s : State) (c : _), Running s ∧
      ch ∈ s.chainList ∧
      128 ≤ bs.length ∧
      cellHcrcOk bs = true ∧
      parseCell bs = some c ∧
      s.isTray = false ∧
      c.src ≠ s.station ∧
      s.leafTakes c = false) :=
  ⟨⟨5, [], tray, _, ⟨rfl, rfl, rfl⟩, rfl⟩,
   ⟨0, .eastbound, 5, 3, true, wrs [(CHN_STATUS 0, 0x1100)] tray, ({ start := 1, stride := 1, count := 1, run := 3, pos := 0, mode := 1, alarmN := 0, classes := 31 } : GateEnt), 2, ⟨rfl, rfl, rfl⟩, by decide, by decide, by decide +kernel, by decide +kernel, by decide +kernel, by decide +kernel, rfl⟩,
   ⟨0, .eastbound, 5, 3, false, wrs [(CHN_STATUS 0, 0x1100)] (tray.setChain 0 { chainBlank with txq := [({ cls := 2, type := 8, dst := 1, parcel := 0, epoch := 0, auth := false, degraded := false, retx := false, bytes := zeros 8, sent := 0 } : TxMsg)] }), ({ start := 1, stride := 1, count := 1, run := 3, pos := 0, mode := 1, alarmN := 0, classes := 31 } : GateEnt), 2, _, 2, ⟨rfl, rfl, rfl⟩, by decide, by decide, by decide +kernel, by decide +kernel, by decide +kernel, by decide +kernel, rfl, rfl, by decide, by decide +kernel, fun m h1 h2 => by
    have h : m = 1 := by omega
    subst h
    decide +kernel⟩,
   ⟨.eastbound, 0, 0, none, wrs [(CHN_STATUS 0, 0x1100)] leaf, _, _, _, ⟨rfl, rfl, rfl⟩, by decide, by decide +kernel, rfl, rfl, rfl, rfl⟩,
   ⟨.eastbound, 5, 3, some ({ type := 8, cls := 2, first := true, last := true, degraded := false, retx := false, auth := false, src := 5, dst := 1, parcel := 0, epoch := 0, seq := 0, data := zeros 8 } : Cell).bytes, wrs [(CHN_STATUS 0, 0x1100)] leaf, _, _, _, _, ⟨rfl, rfl, rfl⟩, by decide, by decide +kernel, rfl, rfl, by decide, by decide +kernel, rfl, rfl⟩,
   ⟨.eastbound, 5, 2, none, wrs [(CHN_STATUS 0, 0x1100), (CHN_LANES 0, 0xF0F0)] leaf, _, _, _, _, ⟨rfl, rfl, rfl⟩, by decide, by decide +kernel, rfl, rfl, by decide, by decide +kernel, rfl, rfl⟩,
   ⟨.eastbound, 3, none, wrs [(CHN_STATUS 0, 0x1100), (CHN_LANES 0, 0xF0F0)] leaf, _, _, ⟨rfl, rfl, rfl⟩, by decide, by decide +kernel, rfl, rfl, by decide, by decide +kernel⟩,
   ⟨1, ({ type := 8, cls := 2, first := true, last := true, degraded := false, retx := false, auth := false, src := 5, dst := 64, parcel := 0, epoch := 0, seq := 0, data := zeros 8 } : Cell).bytes, wrs [(CHN_STATUS 1, 0x1000), (CHN_STATION, 0x80000040)] tray, ({ type := 8, cls := 2, first := true, last := true, degraded := false, retx := false, auth := false, src := 5, dst := 64, parcel := 0, epoch := 0, seq := 0, data := zeros 8 } : Cell), ⟨rfl, rfl, rfl⟩, by decide +kernel, by decide +kernel, by decide +kernel, by decide +kernel, by decide +kernel, by decide +kernel, by decide +kernel, by decide +kernel, by decide +kernel⟩,
   ⟨1, ({ type := 31, cls := 2, first := true, last := true, degraded := false, retx := false, auth := false, src := 5, dst := 64, parcel := 0, epoch := 0, seq := 0, data := zeros 8 } : Cell).bytes, wrs [(CHN_STATUS 1, 0x1000), (CHN_STATION, 0x80000040)] tray, ({ type := 31, cls := 2, first := true, last := true, degraded := false, retx := false, auth := false, src := 5, dst := 64, parcel := 0, epoch := 0, seq := 0, data := zeros 8 } : Cell), ⟨rfl, rfl, rfl⟩, by decide +kernel, by decide +kernel, by decide +kernel, by decide +kernel, by decide +kernel, by decide +kernel, by decide +kernel, by decide +kernel⟩,
   ⟨1, ({ type := 8, cls := 2, first := true, last := true, degraded := false, retx := false, auth := false, src := 5, dst := 65, parcel := 0, epoch := 0, seq := 0, data := zeros 8 } : Cell).bytes, wrs [(CHN_STATUS 1, 0x1000), (CHN_STATION, 0x80000040)] tray, ({ type := 8, cls := 2, first := true, last := true, degraded := false, retx := false, auth := false, src := 5, dst := 65, parcel := 0, epoch := 0, seq := 0, data := zeros 8 } : Cell), ⟨rfl, rfl, rfl⟩, by decide +kernel, by decide +kernel, by decide +kernel, by decide +kernel, by decide +kernel, by decide +kernel, by decide +kernel, by decide +kernel⟩,
   ⟨0, ({ type := 8, cls := 2, first := true, last := true, degraded := false, retx := false, auth := false, src := 5, dst := 1, parcel := 0, epoch := 0, seq := 0, data := zeros 8 } : Cell).bytes, wrs [(CHN_STATUS 0, 0x1000), (CHN_STATION, 0x80000001)] leaf, ({ type := 8, cls := 2, first := true, last := true, degraded := false, retx := false, auth := false, src := 5, dst := 1, parcel := 0, epoch := 0, seq := 0, data := zeros 8 } : Cell), ⟨rfl, rfl, rfl⟩, by decide +kernel, by decide +kernel, by decide +kernel, by decide +kernel, by decide +kernel, by decide +kernel, by decide +kernel⟩,
   ⟨0, ({ type := 8, cls := 2, first := true, last := true, degraded := false, retx := false, auth := false, src := 5, dst := 2, parcel := 0, epoch := 0, seq := 0, data := zeros 8 } : Cell).bytes, wrs [(CHN_STATUS 0, 0x1000), (CHN_STATION, 0x80000001)] leaf, ({ type := 8, cls := 2, first := true, last := true, degraded := false, retx := false, auth := false, src := 5, dst := 2, parcel := 0, epoch := 0, seq := 0, data := zeros 8 } : Cell), ⟨rfl, rfl, rfl⟩, by decide +kernel, by decide +kernel, by decide +kernel, by decide +kernel, by decide +kernel, by decide +kernel, by decide +kernel⟩⟩

/-- States and operands that meet the hypotheses of `Obligations.ContainerEventsComplete`, for further clauses. -/
theorem witness_ContainerEventsComplete_2 :
    (∃ (ch : _) (bs : List Byte) (s : State) (c : _), Running s ∧
      ch ∈ s.chainList ∧
      128 ≤ bs.length ∧
      cellHcrcOk bs = true ∧
      parseCell bs = some c ∧
      s.isTray = false ∧
      c.src ≠ s.station ∧
      s.leafTakes c = false) ∧
    (∃ (ch : _) (bs : List Byte) (s : State) (c : _), Running s ∧
      ch ∈ s.chainList ∧
      128 ≤ bs.length ∧
      cellHcrcOk bs = true ∧
      parseCell bs = some c ∧
      s.isTray = false ∧
      c.src = s.station) ∧
    (∃ (ch : _) (bs : List Byte) (s : State), Running s ∧
      ch ∈ s.chainList ∧
      bs.length < 128) ∧
    (∃ (ch : _) (bs : List Byte) (s : State), Running s ∧
      ch ∈ s.chainList ∧
      128 ≤ bs.length ∧
      cellHcrcOk bs = false) ∧
    (∃ (ch : _) (s : State), Running s ∧
      ch ∈ s.chainList ∧
      s.getB CHN_CTL 2 = true) ∧
    (∃ (ch : _) (s : State) (c : _), Running s ∧
      ch ∈ s.chainList ∧
      c = s.chain ch) :=
  ⟨⟨0, ({ type := 8, cls := 2, first := true, last := true, degraded := false, retx := false, auth := false, src := 0, dst := 2, parcel := 0, epoch := 0, seq := 0, data := zeros 8 } : Cell).bytes, wrs [(CHN_STATUS 0, 0x1000), (CHN_STATION, 0x80000001)] leaf, ({ type := 8, cls := 2, first := true, last := true, degraded := false, retx := false, auth := false, src := 0, dst := 2, parcel := 0, epoch := 0, seq := 0, data := zeros 8 } : Cell), ⟨rfl, rfl, rfl⟩, by decide +kernel, by decide +kernel, by decide +kernel, by decide +kernel, by decide +kernel, by decide +kernel, by decide +kernel⟩,
   ⟨0, ({ type := 8, cls := 2, first := true, last := true, degraded := false, retx := false, auth := false, src := 1, dst := 2, parcel := 0, epoch := 0, seq := 0, data := zeros 8 } : Cell).bytes, wrs [(CHN_STATUS 0, 0x1000), (CHN_STATION, 0x80000001)] leaf, ({ type := 8, cls := 2, first := true, last := true, degraded := false, retx := false, auth := false, src := 1, dst := 2, parcel := 0, epoch := 0, seq := 0, data := zeros 8 } : Cell), ⟨rfl, rfl, rfl⟩, by decide +kernel, by decide +kernel, by decide +kernel, by decide +kernel, by decide +kernel, by decide +kernel⟩,
   ⟨1, zeros 127, tray, ⟨rfl, rfl, rfl⟩, by decide, by decide⟩,
   ⟨1, List.replicate 128 1#8, tray, ⟨rfl, rfl, rfl⟩, by decide, by decide +kernel, by decide +kernel⟩,
   ⟨1, wrs [(CHN_CTL, 4)] tray, ⟨rfl, rfl, rfl⟩, by decide, by decide⟩,
   ⟨1, tray, _, ⟨rfl, rfl, rfl⟩, by decide, rfl⟩⟩

/-- States and operands that meet the hypotheses of `Obligations.LinkEventsComplete`, for its first clauses. -/
theorem witness_LinkEventsComplete :
    (∃ (ch : _) (sd : _) (tx : _) (s : State) (c : _) (n : _) (t : _), Running s ∧
      ch ∈ s.chainList ∧
      c = s.chain ch ∧
      n = (c.ldSeq + 1) % 65536 ∧
      t = s.setChain ch (setLd { c with ldSeq := n } sd (some { seq := n, t1 := s.txStamp tx })) ∧
      s.inserted ch = true) ∧
    (∃ (ch : _) (sd : _) (tx : _) (s : State) (c : _) (n : _) (t : _), Running s ∧
      ch ∈ s.chainList ∧
      c = s.chain ch ∧
      n = (c.ldSeq + 1) % 65536 ∧
      t = s.setChain ch (setLd { c with ldSeq := n } sd (some { seq := n, t1 := s.txStamp tx })) ∧
      s.inserted ch = false) ∧
    (∃ (ch : Nat) (blocks : List Block) (bs : List Byte) (s : State), Running s ∧
      ch ∈ s.chainList ∧
      rowPayload 0xB blocks = some bs ∧
      rowOk bs = true ∧
      leAt bs 0 1 = 1 ∧
      s.inserted ch = true) ∧
    (∃ (ch : Nat) (blocks : List Block) (bs : List Byte) (s : State), Running s ∧
      ch ∈ s.chainList ∧
      rowPayload 0xB blocks = some bs ∧
      rowOk bs = true ∧
      leAt bs 0 1 = 1 ∧
      s.inserted ch = false) ∧
    (∃ (ch : Nat) (sd : Side) (blocks : List Block) (bs : List Byte) (s : State) (r : _), Running s ∧
      ch ∈ s.chainList ∧
      rowPayload 0xB blocks = some bs ∧
      rowOk bs = true ∧
      leAt bs 0 1 = 2 ∧
      ldOf (s.chain ch) sd = some r ∧
      r.seq = leAt bs 1 2) ∧
    (∃ (ch : Nat) (sd : Side) (blocks : List Block) (s : State), Running s ∧
      ch ∈ s.chainList ∧
      (∀ bs, rowPayload 0xB blocks = some bs → rowOk bs = true → leAt bs 0 1 ≠ 1 ∧ (leAt bs 0 1 = 2 → ∀ r, ldOf (s.chain ch) sd = some r → r.seq ≠ leAt bs 1 2))) ∧
    (∃ (ch : _) (s : State), Running s ∧
      ch ∈ s.chainList) ∧
    (∃ (ch : Nat) (blocks : List Block) (s : State) (p : _), Running s ∧
      ch ∈ s.chainList ∧
      rowPayload 0xD blocks = some p) ∧
    (∃ (ch : Nat) (blocks : List Block) (s : State), Running s ∧
      ch ∈ s.chainList ∧
      rowPayload 0xD blocks = none) ∧
    (∃ (ch : _) (sd : _) (lanes : _) (s : State) (t : _), Running s ∧
      ch ∈ s.chainList ∧
      t = setLocked ch sd (s.locked ch sd ||| lanes) s) ∧
    (∃ (ch : Nat) (sd : Side) (s : State) (b : _) (t : _) (u : _), Running s ∧
      ch ∈ s.chainList ∧
      b = (if windowCovers s ch sd = true then rateNote 4 (setRx ch sd 0 s) else (rateNote 4 (setRx ch sd 0 s)).evt (CHN_EVT ch) 7) ∧
      s.rxState ch sd = 1 ∧
      3 ≤ popCount 4 (s.locked ch sd &&& (s.fencedRx ch sd ^^^ 15)) ∧
      t = (setRx ch sd 2 s).putB (CHN_STATUS ch) (unseedBit sd) true ∧
      u = t.setChain ch { t.chain ch with seedDue := (t.chain ch).seedDue.filter (· != sd) ++ [sd] }) ∧
    (∃ (ch : Nat) (sd : Side) (s : State) (b : _), Running s ∧
      ch ∈ s.chainList ∧
      b = (if windowCovers s ch sd = true then rateNote 4 (setRx ch sd 0 s) else (rateNote 4 (setRx ch sd 0 s)).evt (CHN_EVT ch) 7) ∧
      s.rxState ch sd = 1 ∧
      popCount 4 (s.locked ch sd &&& (s.fencedRx ch sd ^^^ 15)) < 3) :=
  ⟨⟨1, .east, 0, wrs [(CHN_STATUS 1, 0x1000)] tray, _, _, _, ⟨rfl, rfl, rfl⟩, by decide, rfl, rfl, rfl, by decide⟩,
   ⟨1, .east, 0, tray, _, _, _, ⟨rfl, rfl, rfl⟩, by decide, rfl, rfl, rfl, by decide⟩,
   ⟨1, (rowBlocks 0xB (ldBytes 1 5 1 0)), ldBytes 1 5 1 0, wrs [(CHN_STATUS 1, 0x1000)] tray, ⟨rfl, rfl, rfl⟩, by decide, by decide +kernel, by decide +kernel, by decide +kernel, by decide⟩,
   ⟨1, (rowBlocks 0xB (ldBytes 1 5 1 0)), ldBytes 1 5 1 0, tray, ⟨rfl, rfl, rfl⟩, by decide, by decide +kernel, by decide +kernel, by decide +kernel, by decide⟩,
   ⟨1, .east, (rowBlocks 0xB (ldBytes 2 5 1 0)), ldBytes 2 5 1 0, tray.setChain 1 { chainBlank with ldE := some { seq := 5, t1 := 0 } }, { seq := 5, t1 := 0 }, ⟨rfl, rfl, rfl⟩, by decide, by decide +kernel, by decide +kernel, by decide +kernel, rfl, by decide +kernel⟩,
   ⟨1, .east, [], tray, ⟨rfl, rfl, rfl⟩, by decide, fun bs h => by
    cases h⟩,
   ⟨1, tray, ⟨rfl, rfl, rfl⟩, by decide⟩,
   ⟨1, rowBlocks 0xD (padTo 24 [21]), tray, padTo 24 [21], ⟨rfl, rfl, rfl⟩, by decide, by decide +kernel⟩,
   ⟨1, [], tray, ⟨rfl, rfl, rfl⟩, by decide, by decide⟩,
   ⟨1, .east, 15, tray, _, ⟨rfl, rfl, rfl⟩, by decide, rfl⟩,
   ⟨1, .east, setLocked 1 .east 7 (wrs [(CHN_STATUS 1, 4)] tray), _, _, _, ⟨rfl, rfl, rfl⟩, by decide, rfl, by decide +kernel, by decide +kernel, rfl, rfl⟩,
   ⟨1, .east, setLocked 1 .east 3 (wrs [(CHN_STATUS 1, 4)] tray), _, ⟨rfl, rfl, rfl⟩, by decide, rfl, by decide +kernel, by decide +kernel⟩⟩

/-- States and operands that meet the hypotheses of `Obligations.LinkEventsComplete`, for further clauses. -/
theorem witness_LinkEventsComplete_2 :
    (∃ (ch : Nat) (sd : Side) (s : State) (b : _), Running s ∧
      ch ∈ s.chainList ∧
      b = (if windowCovers s ch sd = true then rateNote 4 (setRx ch sd 0 s) else (rateNote 4 (setRx ch sd 0 s)).evt (CHN_EVT ch) 7) ∧
      s.rxState ch sd = 1) ∧
    (∃ (ch : Nat) (sd : Side) (s : State) (b : _), Running s ∧
      ch ∈ s.chainList ∧
      b = (if windowCovers s ch sd = true then rateNote 4 (setRx ch sd 0 s) else (rateNote 4 (setRx ch sd 0 s)).evt (CHN_EVT ch) 7) ∧
      s.rxState ch sd ≠ 1) ∧
    (∃ (ch : Nat) (sd : Side) (s : State) (b : _), Running s ∧
      ch ∈ s.chainList ∧
      b = (if windowCovers s ch sd = true then rateNote 4 (setRx ch sd 0 s) else (rateNote 4 (setRx ch sd 0 s)).evt (CHN_EVT ch) 7) ∧
      s.rxState ch sd ≠ 1) ∧
    (∃ (ch : _) (sd : _) (lane : _) (s : State) (m : _) (n : _) (t : _) (u : _), Running s ∧
      ch ∈ s.chainList ∧
      m = 2 ^ (lane % 4) ∧
      t = s.setChain ch { s.chain ch with badHeads := ((s.chain ch).badHeads + 16) % 2 ^ 32 } ∧
      u = setLocked ch sd (t.locked ch sd &&& (m ^^^ 15)) t ∧
      n = popCount 4 (u.locked ch sd &&& (u.fencedRx ch sd ^^^ 15))) ∧
    (∃ (ch : Nat) (sd : Side) (s : State) (t : _), Running s ∧
      ch ∈ s.chainList ∧
      t = rateNote 4 (setRx ch sd 0 s) ∧
      s.rxState ch sd = 2 ∧
      windowCovers s ch sd = true) ∧
    (∃ (ch : Nat) (sd : Side) (s : State) (t : _), Running s ∧
      ch ∈ s.chainList ∧
      t = rateNote 4 (setRx ch sd 0 s) ∧
      s.rxState ch sd = 2 ∧
      windowCovers s ch sd = false) ∧
    (∃ (ch : Nat) (sd : Side) (s : State) (t : _), Running s ∧
      ch ∈ s.chainList ∧
      t = rateNote 4 (setRx ch sd 0 s) ∧
      s.rxState ch sd ≠ 2) ∧
    (∃ (ch : _) (s : State) (k : _), Running s ∧
      s.isTray = true ∧
      ch < 2 ∧
      s.inserted ch = true ∧
      k = s.rd (TMT_CYC ch) + 1 ∧
      2 ≤ (s.chain ch).failed) ∧
    (∃ (ch : _) (s : State) (k : _), Running s ∧
      s.isTray = true ∧
      ch < 2 ∧
      s.inserted ch = true ∧
      k = s.rd (TMT_CYC ch) + 1 ∧
      128 ≤ (s.chain ch).returns) ∧
    (∃ (ch : _) (s : State), Running s ∧
      ch ∈ s.chainList ∧
      (s.isTray = false ∨ s.inserted ch = false ∨ (s.chain ch).failed < 2)) ∧
    (∃ (ch : _) (s : State), Running s ∧
      ch ∈ s.chainList ∧
      (s.isTray = false ∨ s.inserted ch = false ∨ (s.chain ch).returns < 128)) ∧
    (∃ (s : State), Running s ∧
      s.isTray = false) :=
  ⟨⟨1, .east, wrs [(CHN_STATUS 1, 4)] tray, _, ⟨rfl, rfl, rfl⟩, by decide, rfl, by decide +kernel⟩,
   ⟨1, .east, tray, _, ⟨rfl, rfl, rfl⟩, by decide, rfl, by decide +kernel⟩,
   ⟨1, .east, tray, _, ⟨rfl, rfl, rfl⟩, by decide, rfl, by decide +kernel⟩,
   ⟨1, .east, 3, tray, _, _, _, _, ⟨rfl, rfl, rfl⟩, by decide, rfl, rfl, rfl, rfl⟩,
   ⟨1, .east, { wrs [(CHN_STATUS 1, 8)] tray with chains := (tray.setChain 1 { chainBlank with splices := [{ station := 63, out := false, cyc := 64, ver := 0, time := 0, left := 0, done := true, windowOpen := true, near := true }] }).chains }, _, ⟨rfl, rfl, rfl⟩, by decide, rfl, by decide +kernel, by decide +kernel⟩,
   ⟨1, .east, wrs [(CHN_STATUS 1, 8)] tray, _, ⟨rfl, rfl, rfl⟩, by decide, rfl, by decide +kernel, by decide +kernel⟩,
   ⟨1, .east, tray, _, ⟨rfl, rfl, rfl⟩, by decide, rfl, by decide +kernel⟩,
   ⟨1, { wrs [(CHN_STATUS 1, 0x1000)] tray with chains := (tray.setChain 1 { chainBlank with failed := 2 }).chains }, _, ⟨rfl, rfl, rfl⟩, by decide, by decide, by decide, rfl, by decide⟩,
   ⟨1, { wrs [(CHN_STATUS 1, 0x1000)] tray with chains := (tray.setChain 1 { chainBlank with returns := 128 }).chains }, _, ⟨rfl, rfl, rfl⟩, by decide, by decide, by decide, rfl, by decide⟩,
   ⟨1, tray, ⟨rfl, rfl, rfl⟩, by decide, by decide⟩,
   ⟨1, tray, ⟨rfl, rfl, rfl⟩, by decide, by decide⟩,
   ⟨leaf, ⟨rfl, rfl, rfl⟩, by decide⟩⟩

/-- States and operands that meet the hypotheses of `Obligations.LinkEventsComplete`, for further clauses. -/
theorem witness_LinkEventsComplete_3 :
    (∃ (s : State), Running s ∧
      s.isTray = true) ∧
    (∃ (i : Instr) (ch : _) (sd : _) (lane : _) (lanes : _) (tx : _) (rx : _) (blocks : _) (s : State), i ∈ [Instr.linkDelayRequest ch sd tx, .linkDelayMessageReceive ch sd blocks rx tx, .linkDelayTimeout ch sd, .laneRequestReceive ch sd blocks, .blockLockGain ch sd lanes, .alignmentLock ch sd, .lockingTimeout ch sd, .blockLockLoss ch sd lane, .alignmentLoss ch sd, .chainCut ch, .chainWhole ch] ∧
      Running s ∧
      ch ∉ s.chainList) ∧
    (∃ (i : Instr) (ch : _) (sd : _) (lane : _) (lanes : _) (tx : _) (rx : _) (blocks : _) (s : State), i ∈ [Instr.linkDelayRequest ch sd tx, .linkDelayMessageReceive ch sd blocks rx tx, .linkDelayTimeout ch sd, .laneRequestReceive ch sd blocks, .blockLockGain ch sd lanes, .alignmentLock ch sd, .lockingTimeout ch sd, .blockLockLoss ch sd lane, .alignmentLoss ch sd, .chainCut ch, .chainWhole ch] ∧
      s.pins.por = true) ∧
    (∃ (i : Instr) (ch : _) (sd : _) (lane : _) (lanes : _) (tx : _) (rx : _) (blocks : _) (s : State), i ∈ [Instr.linkDelayRequest ch sd tx, .linkDelayMessageReceive ch sd blocks rx tx, .linkDelayTimeout ch sd, .laneRequestReceive ch sd blocks, .blockLockGain ch sd lanes, .alignmentLock ch sd, .lockingTimeout ch sd, .blockLockLoss ch sd lane, .alignmentLoss ch sd, .chainCut ch, .chainWhole ch] ∧
      s.pins.por = true) :=
  ⟨⟨tray, ⟨rfl, rfl, rfl⟩, by decide⟩,
   ⟨.linkDelayRequest 2 .east 0, 2, .east, 0, 0, 0, 0, [], tray, by decide, ⟨rfl, rfl, rfl⟩, by decide⟩,
   ⟨.linkDelayRequest 2 .east 0, 2, .east, 0, 0, 0, 0, [], { tray with pins := { tray.pins with por := true } }, by decide, by decide⟩,
   ⟨.linkDelayRequest 2 .east 0, 2, .east, 0, 0, 0, 0, [], { tray with pins := { tray.pins with por := true } }, by decide, by decide⟩⟩

/-- States and operands that meet the hypotheses of `Obligations.SpliceEventsComplete`, for its first clauses. -/
theorem witness_SpliceEventsComplete :
    (∃ (bs : List Byte) (pE : Nat) (pW : Nat) (s : State) (cyc : _) (a : _) (t : _) (u : _), Running s ∧
      s.isTray = false ∧
      cyc = cycNear (s.rd (TMT_CYC 0)) (leAt bs 3 3) ∧
      a = { station := leAt bs 0 3 % 2 ^ 20, out := bit (leAt bs 0 3) 23, cyc := cyc, ver := leAt bs 6 2, time := cycleTime cyc + 73728 * 2 ^ 32 / 10 + (pE + pW) / 2, left := 0, done := false, windowOpen := false, near := false } ∧
      t = (if (s.chain 0).splices.any (fun x => x.station == a.station && x.cyc == a.cyc) = true then s else s.setChain 0 { s.chain 0 with splices := (s.chain 0).splices ++ [a] }) ∧
      u = (t.wrTime (CHN_SPL_SUB 0) (CHN_SPL_SEC 0) a.time).wr (CHN_SPL_CTL 0) (a.station + b2n a.out * 2 ^ 30 + 2 ^ 31) ∧
      a.station ≠ s.station) ∧
    (∃ (bs : List Byte) (pE : Nat) (pW : Nat) (s : State) (cyc : _) (a : _) (t : _) (u : _), Running s ∧
      s.isTray = false ∧
      cyc = cycNear (s.rd (TMT_CYC 0)) (leAt bs 3 3) ∧
      a = { station := leAt bs 0 3 % 2 ^ 20, out := bit (leAt bs 0 3) 23, cyc := cyc, ver := leAt bs 6 2, time := cycleTime cyc + 73728 * 2 ^ 32 / 10 + (pE + pW) / 2, left := 0, done := false, windowOpen := false, near := false } ∧
      t = (if (s.chain 0).splices.any (fun x => x.station == a.station && x.cyc == a.cyc) = true then s else s.setChain 0 { s.chain 0 with splices := (s.chain 0).splices ++ [a] }) ∧
      u = (t.wrTime (CHN_SPL_SUB 0) (CHN_SPL_SEC 0) a.time).wr (CHN_SPL_CTL 0) (a.station + b2n a.out * 2 ^ 30 + 2 ^ 31) ∧
      a.station = s.station ∧
      a.out = true ∧
      s.inserted 0 = true) ∧
    (∃ (bs : List Byte) (pE : Nat) (pW : Nat) (s : State) (cyc : _) (a : _) (t : _) (u : _) (fit : _), Running s ∧
      s.isTray = false ∧
      cyc = cycNear (s.rd (TMT_CYC 0)) (leAt bs 3 3) ∧
      a = { station := leAt bs 0 3 % 2 ^ 20, out := bit (leAt bs 0 3) 23, cyc := cyc, ver := leAt bs 6 2, time := cycleTime cyc + 73728 * 2 ^ 32 / 10 + (pE + pW) / 2, left := 0, done := false, windowOpen := false, near := false } ∧
      t = (if (s.chain 0).splices.any (fun x => x.station == a.station && x.cyc == a.cyc) = true then s else s.setChain 0 { s.chain 0 with splices := (s.chain 0).splices ++ [a] }) ∧
      u = (t.wrTime (CHN_SPL_SUB 0) (CHN_SPL_SEC 0) a.time).wr (CHN_SPL_CTL 0) (a.station + b2n a.out * 2 ^ 30 + 2 ^ 31) ∧
      a.station = s.station ∧
      fit = (s.getB CHN_STATION 31 && !s.inserted 0 && s.getB CHN_CTL 0 && s.datState == 2 && s.pins.straps.fordListen && Tbl.get? (s.chain 0).opVer 0 == some a.ver && Tbl.get? (s.chain 0).opVer 1 == some a.ver) ∧
      a.out = false ∧
      fit = true) ∧
    (∃ (bs : List Byte) (pE : Nat) (pW : Nat) (s : State) (cyc : _) (a : _) (t : _) (u : _) (fit : _), Running s ∧
      s.isTray = false ∧
      cyc = cycNear (s.rd (TMT_CYC 0)) (leAt bs 3 3) ∧
      a = { station := leAt bs 0 3 % 2 ^ 20, out := bit (leAt bs 0 3) 23, cyc := cyc, ver := leAt bs 6 2, time := cycleTime cyc + 73728 * 2 ^ 32 / 10 + (pE + pW) / 2, left := 0, done := false, windowOpen := false, near := false } ∧
      t = (if (s.chain 0).splices.any (fun x => x.station == a.station && x.cyc == a.cyc) = true then s else s.setChain 0 { s.chain 0 with splices := (s.chain 0).splices ++ [a] }) ∧
      u = (t.wrTime (CHN_SPL_SUB 0) (CHN_SPL_SEC 0) a.time).wr (CHN_SPL_CTL 0) (a.station + b2n a.out * 2 ^ 30 + 2 ^ 31) ∧
      a.station = s.station ∧
      fit = (s.getB CHN_STATION 31 && !s.inserted 0 && s.getB CHN_CTL 0 && s.datState == 2 && s.pins.straps.fordListen && Tbl.get? (s.chain 0).opVer 0 == some a.ver && Tbl.get? (s.chain 0).opVer 1 == some a.ver) ∧
      (if a.out = true then s.inserted 0 = false else fit = false) ∧
      (s.getB (CHN_SPL_CTL 0) 31 = true ∨ s.inserted 0 = true)) ∧
    (∃ (bs : List Byte) (pE : Nat) (pW : Nat) (s : State) (cyc : _) (a : _) (t : _) (u : _) (fit : _), Running s ∧
      s.isTray = false ∧
      cyc = cycNear (s.rd (TMT_CYC 0)) (leAt bs 3 3) ∧
      a = { station := leAt bs 0 3 % 2 ^ 20, out := bit (leAt bs 0 3) 23, cyc := cyc, ver := leAt bs 6 2, time := cycleTime cyc + 73728 * 2 ^ 32 / 10 + (pE + pW) / 2, left := 0, done := false, windowOpen := false, near := false } ∧
      t = (if (s.chain 0).splices.any (fun x => x.station == a.station && x.cyc == a.cyc) = true then s else s.setChain 0 { s.chain 0 with splices := (s.chain 0).splices ++ [a] }) ∧
      u = (t.wrTime (CHN_SPL_SUB 0) (CHN_SPL_SEC 0) a.time).wr (CHN_SPL_CTL 0) (a.station + b2n a.out * 2 ^ 30 + 2 ^ 31) ∧
      a.station = s.station ∧
      fit = (s.getB CHN_STATION 31 && !s.inserted 0 && s.getB CHN_CTL 0 && s.datState == 2 && s.pins.straps.fordListen && Tbl.get? (s.chain 0).opVer 0 == some a.ver && Tbl.get? (s.chain 0).opVer 1 == some a.ver) ∧
      (if a.out = true then s.inserted 0 = false else fit = false) ∧
      (s.getB (CHN_SPL_CTL 0) 31 = true ∨ s.inserted 0 = true)) ∧
    (∃ (bs : List Byte) (pE : Nat) (pW : Nat) (s : State) (cyc : _) (a : _) (t : _) (u : _) (fit : _), Running s ∧
      s.isTray = false ∧
      cyc = cycNear (s.rd (TMT_CYC 0)) (leAt bs 3 3) ∧
      a = { station := leAt bs 0 3 % 2 ^ 20, out := bit (leAt bs 0 3) 23, cyc := cyc, ver := leAt bs 6 2, time := cycleTime cyc + 73728 * 2 ^ 32 / 10 + (pE + pW) / 2, left := 0, done := false, windowOpen := false, near := false } ∧
      t = (if (s.chain 0).splices.any (fun x => x.station == a.station && x.cyc == a.cyc) = true then s else s.setChain 0 { s.chain 0 with splices := (s.chain 0).splices ++ [a] }) ∧
      u = (t.wrTime (CHN_SPL_SUB 0) (CHN_SPL_SEC 0) a.time).wr (CHN_SPL_CTL 0) (a.station + b2n a.out * 2 ^ 30 + 2 ^ 31) ∧
      a.station = s.station ∧
      fit = (s.getB CHN_STATION 31 && !s.inserted 0 && s.getB CHN_CTL 0 && s.datState == 2 && s.pins.straps.fordListen && Tbl.get? (s.chain 0).opVer 0 == some a.ver && Tbl.get? (s.chain 0).opVer 1 == some a.ver) ∧
      (if a.out = true then s.inserted 0 = false else fit = false) ∧
      (s.getB (CHN_SPL_CTL 0) 31 = true ∨ s.inserted 0 = true)) ∧
    (∃ (bs : List Byte) (pE : Nat) (pW : Nat) (s : State) (cyc : _) (a : _) (t : _) (u : _) (fit : _), Running s ∧
      s.isTray = false ∧
      cyc = cycNear (s.rd (TMT_CYC 0)) (leAt bs 3 3) ∧
      a = { station := leAt bs 0 3 % 2 ^ 20, out := bit (leAt bs 0 3) 23, cyc := cyc, ver := leAt bs 6 2, time := cycleTime cyc + 73728 * 2 ^ 32 / 10 + (pE + pW) / 2, left := 0, done := false, windowOpen := false, near := false } ∧
      t = (if (s.chain 0).splices.any (fun x => x.station == a.station && x.cyc == a.cyc) = true then s else s.setChain 0 { s.chain 0 with splices := (s.chain 0).splices ++ [a] }) ∧
      u = (t.wrTime (CHN_SPL_SUB 0) (CHN_SPL_SEC 0) a.time).wr (CHN_SPL_CTL 0) (a.station + b2n a.out * 2 ^ 30 + 2 ^ 31) ∧
      a.station = s.station ∧
      fit = (s.getB CHN_STATION 31 && !s.inserted 0 && s.getB CHN_CTL 0 && s.datState == 2 && s.pins.straps.fordListen && Tbl.get? (s.chain 0).opVer 0 == some a.ver && Tbl.get? (s.chain 0).opVer 1 == some a.ver) ∧
      (if a.out = true then s.inserted 0 = false else fit = false) ∧
      s.getB (CHN_SPL_CTL 0) 31 = false ∧
      s.inserted 0 = false) ∧
    (∃ (bs : List Byte) (pE : Nat) (pW : Nat) (s : State) (cyc : _) (a : _) (t : _) (u : _) (fit : _), Running s ∧
      s.isTray = false ∧
      cyc = cycNear (s.rd (TMT_CYC 0)) (leAt bs 3 3) ∧
      a = { station := leAt bs 0 3 % 2 ^ 20, out := bit (leAt bs 0 3) 23, cyc := cyc, ver := leAt bs 6 2, time := cycleTime cyc + 73728 * 2 ^ 32 / 10 + (pE + pW) / 2, left := 0, done := false, windowOpen := false, near := false } ∧
      t = (if (s.chain 0).splices.any (fun x => x.station == a.station && x.cyc == a.cyc) = true then s else s.setChain 0 { s.chain 0 with splices := (s.chain 0).splices ++ [a] }) ∧
      u = (t.wrTime (CHN_SPL_SUB 0) (CHN_SPL_SEC 0) a.time).wr (CHN_SPL_CTL 0) (a.station + b2n a.out * 2 ^ 30 + 2 ^ 31) ∧
      a.station = s.station ∧
      fit = (s.getB CHN_STATION 31 && !s.inserted 0 && s.getB CHN_CTL 0 && s.datState == 2 && s.pins.straps.fordListen && Tbl.get? (s.chain 0).opVer 0 == some a.ver && Tbl.get? (s.chain 0).opVer 1 == some a.ver) ∧
      (if a.out = true then s.inserted 0 = false else fit = false) ∧
      s.getB (CHN_SPL_CTL 0) 31 = false ∧
      s.inserted 0 = false) ∧
    (∃ (ch : _) (bs : List Byte) (s : State) (v : _) (es : _) (dir : _) (t : _) (u : _), Running s ∧
      ch ∈ s.chainList ∧
      v = leAt bs 0 2 ∧
      es = tmtEntries 6 bs ∧
      dir = leAt bs 2 1 % 2 ∧
      t = s.each (List.range 64) (fun n x => x.wr (TMT_ENT ch (dir + 2 * (leAt bs 2 1 / 2 % 2)) n) ((Tbl.get? es n).getD 0 % 2 ^ 48)) ∧
      u = (if leAt bs 2 1 / 2 % 2 = 1 then (t.setF (TMT_VER ch) 16 16 v).putB (TMT_CTL ch) 0 true else (t.setF (TMT_VER ch) 0 16 v).setChain ch { (t.setF (TMT_VER ch) 0 16 v).chain ch with opVer := Tbl.set ((t.setF (TMT_VER ch) 0 16 v).chain ch).opVer dir v }) ∧
      u.isTray = false ∧
      u.inserted ch = true) ∧
    (∃ (ch : _) (bs : List Byte) (s : State) (v : _) (es : _) (dir : _) (t : _) (u : _), Running s ∧
      ch ∈ s.chainList ∧
      v = leAt bs 0 2 ∧
      es = tmtEntries 6 bs ∧
      dir = leAt bs 2 1 % 2 ∧
      t = s.each (List.range 64) (fun n x => x.wr (TMT_ENT ch (dir + 2 * (leAt bs 2 1 / 2 % 2)) n) ((Tbl.get? es n).getD 0 % 2 ^ 48)) ∧
      u = (if leAt bs 2 1 / 2 % 2 = 1 then (t.setF (TMT_VER ch) 16 16 v).putB (TMT_CTL ch) 0 true else (t.setF (TMT_VER ch) 0 16 v).setChain ch { (t.setF (TMT_VER ch) 0 16 v).chain ch with opVer := Tbl.set ((t.setF (TMT_VER ch) 0 16 v).chain ch).opVer dir v }) ∧
      (u.isTray = true ∨ u.inserted ch = false)) ∧
    (∃ (ch : _) (bs : List Byte) (s : State) (v : _) (es : _) (dir : _) (t : _) (u : _), Running s ∧
      ch ∈ s.chainList ∧
      v = leAt bs 0 2 ∧
      es = tmtEntries 6 bs ∧
      dir = leAt bs 2 1 % 2 ∧
      t = s.each (List.range 64) (fun n x => x.wr (TMT_ENT ch (dir + 2 * (leAt bs 2 1 / 2 % 2)) n) ((Tbl.get? es n).getD 0 % 2 ^ 48)) ∧
      u = (if leAt bs 2 1 / 2 % 2 = 1 then (t.setF (TMT_VER ch) 16 16 v).putB (TMT_CTL ch) 0 true else (t.setF (TMT_VER ch) 0 16 v).setChain ch { (t.setF (TMT_VER ch) 0 16 v).chain ch with opVer := Tbl.set ((t.setF (TMT_VER ch) 0 16 v).chain ch).opVer dir v }) ∧
      (u.isTray = true ∨ u.inserted ch = false)) ∧
    (∃ (ch : _) (src : _) (s : State), Running s ∧
      s.isTray = true ∧
      ch < 2 ∧
      spliceBad s ch src true (s.rd (TMT_CYC ch) + 64) = false) :=
  ⟨⟨(leBytes 3 (2 + 0 * 2 ^ 23) ++ leBytes 3 64 ++ leBytes 2 0), 10, 20, wrs [(CHN_STATION, 0x80000001)] leaf, _, _, _, _, ⟨rfl, rfl, rfl⟩, by decide, rfl, rfl, rfl, rfl, by decide +kernel⟩,
   ⟨(leBytes 3 (1 + 1 * 2 ^ 23) ++ leBytes 3 64 ++ leBytes 2 0), 10, 20, wrs [(CHN_STATION, 0x80000001), (CHN_STATUS 0, 0x1000)] leaf, _, _, _, _, ⟨rfl, rfl, rfl⟩, by decide, rfl, rfl, rfl, rfl, by decide +kernel, by decide +kernel, by decide +kernel⟩,
   ⟨(leBytes 3 (1 + 0 * 2 ^ 23) ++ leBytes 3 64 ++ leBytes 2 7), 10, 20, { wrs [(CHN_STATION, 0x80000001), (CHN_CTL, 1), (DAT_STATE, 2)] leaf with pins := { leaf.pins with straps := { leaf.pins.straps with fordListen := true } }, chains := (leaf.setChain 0 { chainBlank with opVer := [(0, 7), (1, 7)] }).chains }, _, _, _, _, _, ⟨rfl, rfl, rfl⟩, by decide, rfl, rfl, rfl, rfl, by decide +kernel, rfl, by decide +kernel, by decide +kernel⟩,
   ⟨(leBytes 3 (1 + 0 * 2 ^ 23) ++ leBytes 3 64 ++ leBytes 2 7), 10, 20, wrs [(CHN_STATION, 0x80000001), (CHN_SPL_CTL 0, 0x80000001)] leaf, _, _, _, _, _, ⟨rfl, rfl, rfl⟩, by decide, rfl, rfl, rfl, rfl, by decide +kernel, rfl, by decide +kernel, by decide +kernel⟩,
   ⟨(leBytes 3 (1 + 0 * 2 ^ 23) ++ leBytes 3 64 ++ leBytes 2 7), 10, 20, wrs [(CHN_STATION, 0x80000001), (CHN_STATUS 0, 0x1000)] leaf, _, _, _, _, _, ⟨rfl, rfl, rfl⟩, by decide, rfl, rfl, rfl, rfl, by decide +kernel, rfl, by decide +kernel, by decide +kernel⟩,
   ⟨(leBytes 3 (1 + 1 * 2 ^ 23) ++ leBytes 3 64 ++ leBytes 2 7), 10, 20, wrs [(CHN_STATION, 0x80000001), (CHN_SPL_CTL 0, 0x80000001)] leaf, _, _, _, _, _, ⟨rfl, rfl, rfl⟩, by decide, rfl, rfl, rfl, rfl, by decide +kernel, rfl, by decide +kernel, by decide +kernel⟩,
   ⟨(leBytes 3 (1 + 0 * 2 ^ 23) ++ leBytes 3 64 ++ leBytes 2 7), 10, 20, wrs [(CHN_STATION, 0x80000001)] leaf, _, _, _, _, _, ⟨rfl, rfl, rfl⟩, by decide, rfl, rfl, rfl, rfl, by decide +kernel, rfl, by decide +kernel, by decide +kernel, by decide +kernel⟩,
   ⟨(leBytes 3 (1 + 1 * 2 ^ 23) ++ leBytes 3 64 ++ leBytes 2 7), 10, 20, wrs [(CHN_STATION, 0x80000001)] leaf, _, _, _, _, _, ⟨rfl, rfl, rfl⟩, by decide, rfl, rfl, rfl, rfl, by decide +kernel, rfl, by decide +kernel, by decide +kernel, by decide +kernel⟩,
   ⟨0, (leBytes 2 5 ++ [1, 0, 0, 0] ++ leBytes 6 0), wrs [(CHN_STATION, 0x80000001), (CHN_STATUS 0, 0x1000)] leaf, _, _, _, _, _, ⟨rfl, rfl, rfl⟩, by decide, rfl, rfl, rfl, rfl, rfl, by decide +kernel, by decide +kernel⟩,
   ⟨1, (leBytes 2 5 ++ [2, 0, 0, 0] ++ leBytes 6 0), tray, _, _, _, _, _, ⟨rfl, rfl, rfl⟩, by decide, rfl, rfl, rfl, rfl, rfl, by decide +kernel⟩,
   ⟨0, (leBytes 2 5 ++ [3, 0, 0, 0] ++ leBytes 6 0), leaf, _, _, _, _, _, ⟨rfl, rfl, rfl⟩, by decide, rfl, rfl, rfl, rfl, rfl, by decide +kernel⟩,
   ⟨1, 0x21, wrs [(CHN_ROSTER 1, 2)] tray, ⟨rfl, rfl, rfl⟩, by decide, by decide, by decide +kernel⟩⟩

/-- States and operands that meet the hypotheses of `Obligations.SpliceEventsComplete`, for further clauses. -/
theorem witness_SpliceEventsComplete_2 :
    (∃ (ch : _) (s : State) (a : _) (t : _), Running s ∧
      ch ∈ s.chainList ∧
      a ∈ (s.chain ch).splices ∧
      a.done = false ∧
      (∀ b ∈ (s.chain ch).splices, b.done = false → b ≠ a → a.cyc < b.cyc) ∧
      a.out = true ∧
      t = (if s.isTray = true then (spliceJobs ch a.station true (setRoster ch (stPos a.station) false s)).evt (CHN_EVT ch) 5
      else if a.station ≠ s.station ∨ s.getB (CHN_SPL_CTL 0) 31 = false ∨ s.getB (CHN_SPL_CTL 0) 30 = false then s
      else
        let u := ((s.putB (CHN_SPL_CTL 0) 31 false).putB (CHN_STATUS 0) 13 false).putB (CHN_STATUS 0) 12 false
        (listenLock 0 (u.setChain 0 { u.chain 0 with stopOrig := false })).evt (CHN_EVT 0) 5)) ∧
    (∃ (ch : _) (s : State) (a : _) (t : _), Running s ∧
      ch ∈ s.chainList ∧
      a ∈ (s.chain ch).splices ∧
      a.done = false ∧
      (∀ b ∈ (s.chain ch).splices, b.done = false → b ≠ a → a.cyc < b.cyc) ∧
      a.out = true ∧
      t = (if s.isTray = true then (spliceJobs ch a.station true (setRoster ch (stPos a.station) false s)).evt (CHN_EVT ch) 5
      else if a.station ≠ s.station ∨ s.getB (CHN_SPL_CTL 0) 31 = false ∨ s.getB (CHN_SPL_CTL 0) 30 = false then s
      else
        let u := ((s.putB (CHN_SPL_CTL 0) 31 false).putB (CHN_STATUS 0) 13 false).putB (CHN_STATUS 0) 12 false
        (listenLock 0 (u.setChain 0 { u.chain 0 with stopOrig := false })).evt (CHN_EVT 0) 5)) ∧
    (∃ (ch : _) (s : State) (a : _) (t : _), Running s ∧
      ch ∈ s.chainList ∧
      a ∈ (s.chain ch).splices ∧
      a.done = false ∧
      (∀ b ∈ (s.chain ch).splices, b.done = false → b ≠ a → a.cyc < b.cyc) ∧
      a.out = false ∧
      t = (if s.isTray = true then s.setChain ch { s.chain ch with inAt := Tbl.set (s.chain ch).inAt (stPos a.station) s.now }
      else if a.station ≠ s.station ∨ s.getB (CHN_SPL_CTL 0) 31 = false ∨ s.getB (CHN_SPL_CTL 0) 30 = true then s
      else if s.maySpliceIn a = false then (s.putB (CHN_SPL_CTL 0) 31 false).evt (CHN_EVT 0) 3
      else
        let u := ((s.putB (CHN_SPL_CTL 0) 31 false).putB (CHN_STATUS 0) 13 true).putB (CHN_STATUS 0) 12 true
        (listenLock 0 (u.setChain 0 { u.chain 0 with stopOrig := false })).evt (CHN_EVT 0) 4)) ∧
    (∃ (ch : _) (s : State) (a : _) (t : _), Running s ∧
      ch ∈ s.chainList ∧
      a ∈ (s.chain ch).splices ∧
      a.done = false ∧
      (∀ b ∈ (s.chain ch).splices, b.done = false → b ≠ a → a.cyc < b.cyc) ∧
      a.out = false ∧
      t = (if s.isTray = true then s.setChain ch { s.chain ch with inAt := Tbl.set (s.chain ch).inAt (stPos a.station) s.now }
      else if a.station ≠ s.station ∨ s.getB (CHN_SPL_CTL 0) 31 = false ∨ s.getB (CHN_SPL_CTL 0) 30 = true then s
      else if s.maySpliceIn a = false then (s.putB (CHN_SPL_CTL 0) 31 false).evt (CHN_EVT 0) 3
      else
        let u := ((s.putB (CHN_SPL_CTL 0) 31 false).putB (CHN_STATUS 0) 13 true).putB (CHN_STATUS 0) 12 true
        (listenLock 0 (u.setChain 0 { u.chain 0 with stopOrig := false })).evt (CHN_EVT 0) 4)) ∧
    (∃ (ch : _) (s : State) (c : _), Running s ∧
      ch ∈ s.chainList ∧
      c = s.chain ch) ∧
    (∃ (ch : _) (s : State) (c : _), Running s ∧
      s.isTray = true ∧
      ch < 2 ∧
      s.inserted ch = true ∧
      c = s.chain ch) ∧
    (∃ (s : State), Running s ∧
      s.isTray = false ∧
      s.inserted 0 = true) ∧
    (∃ (ch : _) (src : _) (s : State) (t : _) (u : _), Running s ∧
      s.isTray = true ∧
      ch < 2 ∧
      t = setRoster ch (stPos src) true s ∧
      u = t.setChain ch { t.chain ch with unanswered := Tbl.erase (t.chain ch).unanswered (stPos src) }) ∧
    (∃ (ch : _) (pos : _) (s : State), Running s ∧
      s.isTray = true ∧
      ch < 2 ∧
      2 ≤ (Tbl.get? (s.chain ch).unanswered pos).getD 0) ∧
    (∃ (ch : _) (s : State), Running s ∧
      s.isTray = true ∧
      ch < 2) ∧
    (∃ (s : State), Running s ∧
      s.isTray = false) :=
  ⟨⟨1, tray.setChain 1 { chainBlank with splices := [({ station := 63, out := true, cyc := 64, ver := 0, time := 0, left := 0, done := false, windowOpen := false, near := false } : SpliceAnn)] }, ({ station := 63, out := true, cyc := 64, ver := 0, time := 0, left := 0, done := false, windowOpen := false, near := false } : SpliceAnn), _, ⟨rfl, rfl, rfl⟩, by decide, List.Mem.head _, by decide, fun b hb _ hn => absurd (List.mem_singleton.mp hb) hn, by decide, rfl⟩,
   ⟨0, leaf.setChain 0 { chainBlank with splices := [({ station := 63, out := true, cyc := 64, ver := 0, time := 0, left := 0, done := false, windowOpen := false, near := false } : SpliceAnn)] }, ({ station := 63, out := true, cyc := 64, ver := 0, time := 0, left := 0, done := false, windowOpen := false, near := false } : SpliceAnn), _, ⟨rfl, rfl, rfl⟩, by decide, List.Mem.head _, by decide, fun b hb _ hn => absurd (List.mem_singleton.mp hb) hn, by decide, rfl⟩,
   ⟨1, tray.setChain 1 { chainBlank with splices := [({ station := 63, out := false, cyc := 64, ver := 0, time := 0, left := 0, done := false, windowOpen := false, near := false } : SpliceAnn)] }, ({ station := 63, out := false, cyc := 64, ver := 0, time := 0, left := 0, done := false, windowOpen := false, near := false } : SpliceAnn), _, ⟨rfl, rfl, rfl⟩, by decide, List.Mem.head _, by decide, fun b hb _ hn => absurd (List.mem_singleton.mp hb) hn, by decide, rfl⟩,
   ⟨0, leaf.setChain 0 { chainBlank with splices := [({ station := 63, out := false, cyc := 64, ver := 0, time := 0, left := 0, done := false, windowOpen := false, near := false } : SpliceAnn)] }, ({ station := 63, out := false, cyc := 64, ver := 0, time := 0, left := 0, done := false, windowOpen := false, near := false } : SpliceAnn), _, ⟨rfl, rfl, rfl⟩, by decide, List.Mem.head _, by decide, fun b hb _ hn => absurd (List.mem_singleton.mp hb) hn, by decide, rfl⟩,
   ⟨1, tray, _, ⟨rfl, rfl, rfl⟩, by decide, rfl⟩,
   ⟨1, wrs [(CHN_STATUS 1, 0x1000)] tray, _, ⟨rfl, rfl, rfl⟩, by decide, by decide, by decide, rfl⟩,
   ⟨wrs [(CHN_STATUS 0, 0x1000)] leaf, ⟨rfl, rfl, rfl⟩, by decide, by decide⟩,
   ⟨1, 0x21, tray, _, _, ⟨rfl, rfl, rfl⟩, by decide, by decide, rfl, rfl⟩,
   ⟨1, 3, tray.setChain 1 { chainBlank with unanswered := [(3, 2)] }, ⟨rfl, rfl, rfl⟩, by decide, by decide, by decide⟩,
   ⟨1, tray, ⟨rfl, rfl, rfl⟩, by decide, by decide⟩,
   ⟨leaf, ⟨rfl, rfl, rfl⟩, by decide⟩⟩

/-- States and operands that meet the hypotheses of `Obligations.PodEventsComplete`, for each of its clauses. -/
theorem witness_PodEventsComplete :
    (∃ (p : _) (ls : _) (s : State) (t : _) (x : _) (c : _) (id : _), Running s ∧
      t = countLanes ls s ∧
      x = t.pod p ∧
      t.podOn p = true ∧
      x.banks < 2 ∧
      x.caps.find? (·.waiting) = some c ∧
      c.cut = some id) ∧
    (∃ (p : _) (s : State) (x : _) (c : _) (id : _), Running s ∧
      x = s.pod p ∧
      x.caps.find? (fun c => !c.waiting) = some c ∧
      c.cut = some id) ∧
    (∃ (p : _) (s : State) (x : _) (c : _) (id : _), Running s ∧
      x = s.pod p ∧
      x.caps.find? (fun c => c.cut.isSome && !c.stale) = some c ∧
      c.cut = some id) ∧
    (∃ (parcel : _) (s : State) (c : _) (i : _), Running s ∧
      c = s.chain 0 ∧
      c.txq.findIdx? (fun m => m.type == 4 && m.parcel == parcel) = some i) ∧
    (∃ (s : State) (c : _), Running s ∧
      s.tap.cuts.find? (fun c => !c.waiting.isEmpty) = some c) ∧
    (∃ (s : State) (c : _), Running s ∧
      s.tap.cuts.find? (fun c => !c.waiting.isEmpty) = some c) ∧
    (∃ (p : _) (s : State), Running s ∧
      s.isTray = false ∧
      p < 64 ∧
      s.podOn p = false) ∧
    (∃ (p : _) (s : State) (x : _) (t : _), Running s ∧
      s.podOn p = true ∧
      x = s.pod p ∧
      t = ({ s with pins := { s.pins with tapOn := clrBit s.pins.tapOn p } } : State).setPod p { x with caps := [], counts := [], falls := x.falls ++ [s.tap.nextCut - 1] } ∧
      (∀ c ∈ x.caps, c.cut.isSome = true)) :=
  ⟨⟨0, [], (({ leaf with pins := { leaf.pins with tapOn := 1 } } : State).setPod 0 { podBlank with caps := [({ cut := some 3, job := 0, first := 0, count := 0, waiting := true, stale := false, deferred := false, vals := [] } : PodCap)] }), _, _, ({ cut := some 3, job := 0, first := 0, count := 0, waiting := true, stale := false, deferred := false, vals := [] } : PodCap), 3, ⟨rfl, rfl, rfl⟩, rfl, rfl, by decide +kernel, by decide +kernel, by decide +kernel, by decide⟩,
   ⟨0, (({ leaf with pins := { leaf.pins with tapOn := 1 } } : State).setPod 0 { podBlank with caps := [({ cut := some 3, job := 0, first := 0, count := 0, waiting := false, stale := false, deferred := false, vals := [] } : PodCap)] }), _, ({ cut := some 3, job := 0, first := 0, count := 0, waiting := false, stale := false, deferred := false, vals := [] } : PodCap), 3, ⟨rfl, rfl, rfl⟩, rfl, by decide +kernel, by decide⟩,
   ⟨0, (({ leaf with pins := { leaf.pins with tapOn := 1 } } : State).setPod 0 { podBlank with caps := [({ cut := some 3, job := 0, first := 0, count := 0, waiting := false, stale := false, deferred := false, vals := [] } : PodCap)] }), _, ({ cut := some 3, job := 0, first := 0, count := 0, waiting := false, stale := false, deferred := false, vals := [] } : PodCap), 3, ⟨rfl, rfl, rfl⟩, rfl, by decide +kernel, by decide⟩,
   ⟨1, tray.setChain 0 { chainBlank with txq := [({ cls := 4, type := 4, dst := 1, parcel := 1, epoch := 0, auth := false, degraded := false, retx := false, bytes := zeros 8, sent := 0 } : TxMsg)] }, _, 0, ⟨rfl, rfl, rfl⟩, rfl, by decide +kernel⟩,
   ⟨{ leaf with tap := { leaf.tap with cuts := [({ id := 3, edge := 0, snaps := [], gauges := [], waiting := [0] } : Cut)] } }, ({ id := 3, edge := 0, snaps := [], gauges := [], waiting := [0] } : Cut), ⟨rfl, rfl, rfl⟩, by decide +kernel⟩,
   ⟨{ leaf with tap := { leaf.tap with cuts := [({ id := 3, edge := 0, snaps := [], gauges := [], waiting := [0] } : Cut)] } }, ({ id := 3, edge := 0, snaps := [], gauges := [], waiting := [0] } : Cut), ⟨rfl, rfl, rfl⟩, by decide +kernel⟩,
   ⟨0, leaf, ⟨rfl, rfl, rfl⟩, by decide, by decide, by decide⟩,
   ⟨0, (({ leaf with pins := { leaf.pins with tapOn := 1 } } : State).setPod 0 { podBlank with caps := [({ cut := some 3, job := 0, first := 0, count := 0, waiting := false, stale := false, deferred := false, vals := [] } : PodCap)] }), _, _, ⟨rfl, rfl, rfl⟩, by decide +kernel, rfl, rfl, by decide +kernel⟩⟩

/-- States and operands that meet the hypotheses of `Obligations.GateEventsComplete`, for its first clauses. -/
theorem witness_GateEventsComplete :
    (∃ (src : _) (parcel : _) (ep : _) (bs : List Byte) (s : State) (h : _) (n : _) (c : _), Running s ∧
      closureBad ep bs = false ∧
      h = closureHeadOf bs ∧
      h.kind ≠ 1 ∧
      s.takerOf src parcel h.level = some (n, c) ∧
      s.tallyUp = true) ∧
    (∃ (src : _) (parcel : _) (ep : _) (bs : List Byte) (s : State) (h : _) (n : _) (c : _), Running s ∧
      closureBad ep bs = false ∧
      h = closureHeadOf bs ∧
      h.kind = 1 ∧
      s.takerOf src parcel h.level = some (n, c) ∧
      s.tallyUp = true) ∧
    (∃ (ep : _) (bs : List Byte) (s : State), Running s ∧
      closureBad ep bs = true) ∧
    (∃ (src : _) (parcel : _) (ep : _) (bs : List Byte) (s : State) (n : _) (c : _) (k : _), Running s ∧
      bs.length = 8 ∧
      k = leAt bs 0 5 ∧
      k % 2 ^ 24 = ep % 2 ^ 24 ∧
      s.takerOf src parcel 0 = some (n, c) ∧
      s.tallyUp = true) ∧
    (∃ (s : State) (i : _) (rest : _) (t : _) (c : _), Running s ∧
      s.par.queue = i :: rest ∧
      s.tallyUp = true ∧
      s.wit.selfRun = none ∧
      t = tallyWork i (memReadBack 1 i.ctx (memWritten 1 i.ctx (startWork (setQueue rest s)))) ∧
      t.ctx? i.ctx = some c) ∧
    (∃ (parcel : _) (level : _) (s : State) (n : _) (c : _) (e : _), Running s ∧
      s.ctxAt parcel level = some (n, c) ∧
      c.openGate = some e ∧
      s.tallyUp = true ∧
      level ≠ 0 ∧
      s.getB EPO_CTL 0 = true) ∧
    (∃ (parcel : _) (level : _) (s : State) (n : _) (c : _) (e : _), Running s ∧
      s.ctxAt parcel level = some (n, c) ∧
      c.openGate = some e ∧
      s.tallyUp = true ∧
      level ≠ 0 ∧
      s.getB EPO_CTL 0 = false) ∧
    (∃ (parcel : _) (level : _) (s : State) (n : _) (c : _) (e : _), Running s ∧
      s.ctxAt parcel level = some (n, c) ∧
      c.openGate = some e ∧
      s.getB EPO_CTL 0 = true) ∧
    (∃ (parcel : _) (level : _) (s : State) (n : _) (c : _) (y : _) (e : _) (x : _) (d : _) (w : _) (t : _) (u : _) (z : _) (cz : _) (ez : _) (r : _), Running s ∧
      s.ctxAt parcel level = some (n, c) ∧
      s.ctx? n = some y ∧
      c.openGate = some e ∧
      s.epoch? n e.k = some x ∧
      level ≠ 0 ∧
      s.tallyUp = true ∧
      e.outstanding = 0 ∧
      e.awaitsResolve = false ∧
      d = (if y.samples = [] then y.dl else min (max (q99Of y.samples + s.rd (EPO_DL_MARGIN y.level)) (s.rd (EPO_DL_FLOOR y.level))) (s.rd (EPO_DL_CEIL y.level))) ∧
      w = (if y.window < 128 then s else s.modCtx n (fun v => { v with window := 0, samples := [], marginDue := false, q99 := if y.samples = [] then v.q99 else q99Of y.samples, dl := if y.marginDue = true then min (d + s.rd (EPO_DL_MARGIN y.level)) (s.rd (EPO_DL_CEIL y.level)) else d })) ∧
      t = w.modEpoch n e.k (fun v => { v with gate := true, tClose := s.now }) ∧
      (∀ b, t.ctx? n = some b → u = t.modCtx n (fun v => { v with window := v.window + 1, marginDue := v.marginDue || (decide (0 < x.timeouts) && decide (127 ≤ b.window)), stalled := false, dl := if (decide (0 < x.timeouts) && !decide (127 ≤ b.window)) = true then min (b.dl + t.rd (EPO_DL_MARGIN b.level)) (t.rd (EPO_DL_CEIL b.level)) else b.dl })) ∧
      z = satCheck (if y.level = 1 then trnBegin n e.k u else u) ∧
      z.ctx? n = some cz ∧
      z.epoch? n e.k = some ez ∧
      r = (if cz.level = 1 then cadBegin n e.k (z.modEpoch n e.k (fun v => { v with fin := true })) else ((z.modEpoch n e.k (fun v => { v with fin := true })).modEpoch n e.k (fun v => { v with trnBytes := (epochSections ez).1 })).inc TRN_SEC_MISMATCH (epochSections ez).2) ∧
      (cz.level = 0 ∨ ez.gate = false ∨ ez.fin = true ∨ ez.own = .waiting ∨ z.hasWork n e.k = true ∨ z.tallyUp = false)) ∧
    (∃ (parcel : _) (level : _) (s : State) (n : _) (c : _) (y : _) (e : _) (x : _) (d : _) (w : _) (t : _) (u : _) (z : _) (cz : _) (ez : _) (r : _) (cp : _) (ep : _), Running s ∧
      s.ctxAt parcel level = some (n, c) ∧
      s.ctx? n = some y ∧
      c.openGate = some e ∧
      s.epoch? n e.k = some x ∧
      level ≠ 0 ∧
      s.tallyUp = true ∧
      e.outstanding = 0 ∧
      e.awaitsResolve = false ∧
      d = (if y.samples = [] then y.dl else min (max (q99Of y.samples + s.rd (EPO_DL_MARGIN y.level)) (s.rd (EPO_DL_FLOOR y.level))) (s.rd (EPO_DL_CEIL y.level))) ∧
      w = (if y.window < 128 then s else s.modCtx n (fun v => { v with window := 0, samples := [], marginDue := false, q99 := if y.samples = [] then v.q99 else q99Of y.samples, dl := if y.marginDue = true then min (d + s.rd (EPO_DL_MARGIN y.level)) (s.rd (EPO_DL_CEIL y.level)) else d })) ∧
      t = w.modEpoch n e.k (fun v => { v with gate := true, tClose := s.now }) ∧
      (∀ b, t.ctx? n = some b → u = t.modCtx n (fun v => { v with window := v.window + 1, marginDue := v.marginDue || (decide (0 < x.timeouts) && decide (127 ≤ b.window)), stalled := false, dl := if (decide (0 < x.timeouts) && !decide (127 ≤ b.window)) = true then min (b.dl + t.rd (EPO_DL_MARGIN b.level)) (t.rd (EPO_DL_CEIL b.level)) else b.dl })) ∧
      z = satCheck (if y.level = 1 then trnBegin n e.k u else u) ∧
      z.ctx? n = some cz ∧
      z.epoch? n e.k = some ez ∧
      r = (if cz.level = 1 then cadBegin n e.k (z.modEpoch n e.k (fun v => { v with fin := true })) else ((z.modEpoch n e.k (fun v => { v with fin := true })).modEpoch n e.k (fun v => { v with trnBytes := (epochSections ez).1 })).inc TRN_SEC_MISMATCH (epochSections ez).2) ∧
      ¬(cz.level = 0 ∨ ez.gate = false ∨ ez.fin = true ∨ ez.own = .waiting ∨ z.hasWork n e.k = true ∨ z.tallyUp = false) ∧
      r.ctx? n = some cp ∧
      cp.oldestOpen = some ep ∧
      (ep.ready cp = false ∨ (cp.pub = false ∧ cp.level = 1))) :=
  ⟨⟨5, 1, 0, (zeros 64), holding ({ ctx0 1 false with kids := [({ station := 5, level := 0, members := 1 } : Kid)] }) tray, closureHeadOf (zeros 64), 0, { ctx0 1 false with kids := [({ station := 5, level := 0, members := 1 } : Kid)] }, ⟨rfl, rfl, rfl⟩, by decide +kernel, rfl, by decide +kernel, by decide +kernel, by decide⟩,
   ⟨5, 1, 0, (zeros 5 ++ [1] ++ zeros 58), holding ({ ctx0 1 false with kids := [({ station := 5, level := 0, members := 1 } : Kid)] }) tray, closureHeadOf (zeros 5 ++ [1] ++ zeros 58), 0, { ctx0 1 false with kids := [({ station := 5, level := 0, members := 1 } : Kid)] }, ⟨rfl, rfl, rfl⟩, by decide +kernel, rfl, by decide +kernel, by decide +kernel, by decide⟩,
   ⟨0, [], leaf, ⟨rfl, rfl, rfl⟩, by decide⟩,
   ⟨5, 1, 0, zeros 8, holding ({ ctx0 1 false with kids := [({ station := 5, level := 0, members := 1 } : Kid)] }) tray, 0, { ctx0 1 false with kids := [({ station := 5, level := 0, members := 1 } : Kid)] }, _, ⟨rfl, rfl, rfl⟩, by decide, rfl, by decide, by decide, by decide⟩,
   ⟨(let s := holding ({ ctx0 1 false with kids := [({ station := 5, level := 0, members := 1 } : Kid)], next := 2, epochs := [({ ep0 0 with endCut := some 1, kids := [kid0 5] } : Epoch)] }) tray; { s with par := { s.par with queue := [({ ctx := 0, k := 0, work := .build, cost := 1, arr := 0 } : TallyItem)] } } : State), ({ ctx := 0, k := 0, work := .build, cost := 1, arr := 0 } : TallyItem), [], _, (State.ctx? (tallyWork ({ ctx := 0, k := 0, work := .build, cost := 1, arr := 0 } : TallyItem) (memReadBack 1 0 (memWritten 1 0 (startWork (setQueue [] (let s := holding ({ ctx0 1 false with kids := [({ station := 5, level := 0, members := 1 } : Kid)], next := 2, epochs := [({ ep0 0 with endCut := some 1, kids := [kid0 5] } : Epoch)] }) tray; { s with par := { s.par with queue := [({ ctx := 0, k := 0, work := .build, cost := 1, arr := 0 } : TallyItem)] } } : State)))))) 0).get (by decide +kernel), ⟨rfl, rfl, rfl⟩, by decide, by decide, by decide, rfl, (Option.some_get _).symm⟩,
   ⟨1, 1, wrs [(EPO_CTL, 1)] (holding ({ ctx0 1 false with kids := [({ station := 5, level := 0, members := 1 } : Kid)], next := 2, epochs := [({ ep0 0 with endCut := some 1, kids := [kid0 5] } : Epoch)] }) tray), 0, { ctx0 1 false with kids := [({ station := 5, level := 0, members := 1 } : Kid)], next := 2, epochs := [({ ep0 0 with endCut := some 1, kids := [kid0 5] } : Epoch)] }, ({ ep0 0 with endCut := some 1, kids := [kid0 5] } : Epoch), ⟨rfl, rfl, rfl⟩, by decide +kernel, by decide +kernel, by decide, by decide, by decide⟩,
   ⟨1, 1, holding ({ ctx0 1 false with kids := [({ station := 5, level := 0, members := 1 } : Kid)], next := 2, epochs := [({ ep0 0 with endCut := some 1, kids := [kid0 5] } : Epoch)] }) tray, 0, { ctx0 1 false with kids := [({ station := 5, level := 0, members := 1 } : Kid)], next := 2, epochs := [({ ep0 0 with endCut := some 1, kids := [kid0 5] } : Epoch)] }, ({ ep0 0 with endCut := some 1, kids := [kid0 5] } : Epoch), ⟨rfl, rfl, rfl⟩, by decide +kernel, by decide +kernel, by decide, by decide, by decide⟩,
   ⟨1, 1, wrs [(EPO_CTL, 1)] (holding ({ ctx0 1 false with kids := [({ station := 5, level := 0, members := 1 } : Kid)], next := 2, epochs := [({ ep0 0 with endCut := some 1, kids := [kid0 5] } : Epoch)] }) tray), 0, { ctx0 1 false with kids := [({ station := 5, level := 0, members := 1 } : Kid)], next := 2, epochs := [({ ep0 0 with endCut := some 1, kids := [kid0 5] } : Epoch)] }, ({ ep0 0 with endCut := some 1, kids := [kid0 5] } : Epoch), ⟨rfl, rfl, rfl⟩, by decide +kernel, by decide +kernel, by decide⟩,
   ⟨1, 1, (holding ({ ctx0 1 false with next := 2, epochs := [({ ep0 0 with endCut := some 1, fin := true } : Epoch)], window := 0, samples := [] } : Ctx) tray), 0, ({ ctx0 1 false with next := 2, epochs := [({ ep0 0 with endCut := some 1, fin := true } : Epoch)], window := 0, samples := [] } : Ctx), ({ ctx0 1 false with next := 2, epochs := [({ ep0 0 with endCut := some 1, fin := true } : Epoch)], window := 0, samples := [] } : Ctx), ({ ep0 0 with endCut := some 1, fin := true } : Epoch), ({ ep0 0 with endCut := some 1, fin := true } : Epoch), _, gateW (holding ({ ctx0 1 false with next := 2, epochs := [({ ep0 0 with endCut := some 1, fin := true } : Epoch)], window := 0, samples := [] } : Ctx) tray) 0 ({ ctx0 1 false with next := 2, epochs := [({ ep0 0 with endCut := some 1, fin := true } : Epoch)], window := 0, samples := [] } : Ctx), gateT (holding ({ ctx0 1 false with next := 2, epochs := [({ ep0 0 with endCut := some 1, fin := true } : Epoch)], window := 0, samples := [] } : Ctx) tray) 0 ({ ctx0 1 false with next := 2, epochs := [({ ep0 0 with endCut := some 1, fin := true } : Epoch)], window := 0, samples := [] } : Ctx) ({ ep0 0 with endCut := some 1, fin := true } : Epoch), gateU (gateT (holding ({ ctx0 1 false with next := 2, epochs := [({ ep0 0 with endCut := some 1, fin := true } : Epoch)], window := 0, samples := [] } : Ctx) tray) 0 ({ ctx0 1 false with next := 2, epochs := [({ ep0 0 with endCut := some 1, fin := true } : Epoch)], window := 0, samples := [] } : Ctx) ({ ep0 0 with endCut := some 1, fin := true } : Epoch)) 0 ({ ep0 0 with endCut := some 1, fin := true } : Epoch), (gateZ (holding ({ ctx0 1 false with next := 2, epochs := [({ ep0 0 with endCut := some 1, fin := true } : Epoch)], window := 0, samples := [] } : Ctx) tray) 0 ({ ctx0 1 false with next := 2, epochs := [({ ep0 0 with endCut := some 1, fin := true } : Epoch)], window := 0, samples := [] } : Ctx) ({ ep0 0 with endCut := some 1, fin := true } : Epoch) ({ ep0 0 with endCut := some 1, fin := true } : Epoch)), ((State.ctx? (gateZ (holding ({ ctx0 1 false with next := 2, epochs := [({ ep0 0 with endCut := some 1, fin := true } : Epoch)], window := 0, samples := [] } : Ctx) tray) 0 ({ ctx0 1 false with next := 2, epochs := [({ ep0 0 with endCut := some 1, fin := true } : Epoch)], window := 0, samples := [] } : Ctx) ({ ep0 0 with endCut := some 1, fin := true } : Epoch) ({ ep0 0 with endCut := some 1, fin := true } : Epoch)) 0).get (by decide +kernel)), ((State.epoch? (gateZ (holding ({ ctx0 1 false with next := 2, epochs := [({ ep0 0 with endCut := some 1, fin := true } : Epoch)], window := 0, samples := [] } : Ctx) tray) 0 ({ ctx0 1 false with next := 2, epochs := [({ ep0 0 with endCut := some 1, fin := true } : Epoch)], window := 0, samples := [] } : Ctx) ({ ep0 0 with endCut := some 1, fin := true } : Epoch) ({ ep0 0 with endCut := some 1, fin := true } : Epoch)) 0 0).get (by decide +kernel)), (gateR (gateZ (holding ({ ctx0 1 false with next := 2, epochs := [({ ep0 0 with endCut := some 1, fin := true } : Epoch)], window := 0, samples := [] } : Ctx) tray) 0 ({ ctx0 1 false with next := 2, epochs := [({ ep0 0 with endCut := some 1, fin := true } : Epoch)], window := 0, samples := [] } : Ctx) ({ ep0 0 with endCut := some 1, fin := true } : Epoch) ({ ep0 0 with endCut := some 1, fin := true } : Epoch)) 0 0 ((State.ctx? (gateZ (holding ({ ctx0 1 false with next := 2, epochs := [({ ep0 0 with endCut := some 1, fin := true } : Epoch)], window := 0, samples := [] } : Ctx) tray) 0 ({ ctx0 1 false with next := 2, epochs := [({ ep0 0 with endCut := some 1, fin := true } : Epoch)], window := 0, samples := [] } : Ctx) ({ ep0 0 with endCut := some 1, fin := true } : Epoch) ({ ep0 0 with endCut := some 1, fin := true } : Epoch)) 0).get (by decide +kernel)) ((State.epoch? (gateZ (holding ({ ctx0 1 false with next := 2, epochs := [({ ep0 0 with endCut := some 1, fin := true } : Epoch)], window := 0, samples := [] } : Ctx) tray) 0 ({ ctx0 1 false with next := 2, epochs := [({ ep0 0 with endCut := some 1, fin := true } : Epoch)], window := 0, samples := [] } : Ctx) ({ ep0 0 with endCut := some 1, fin := true } : Epoch) ({ ep0 0 with endCut := some 1, fin := true } : Epoch)) 0 0).get (by decide +kernel))), ⟨rfl, rfl, rfl⟩, rfl, rfl, rfl, rfl, by decide, by decide +kernel, by decide +kernel, by decide +kernel, rfl, rfl, rfl, fun b h => gateU_is h, rfl, (Option.some_get _).symm, (Option.some_get _).symm, rfl, by decide +kernel⟩,
   ⟨1, 1, (holding ({ ctx0 1 false with next := 2, epochs := [({ ep0 0 with endCut := some 1 } : Epoch)], window := 128, samples := [7] } : Ctx) tray), 0, ({ ctx0 1 false with next := 2, epochs := [({ ep0 0 with endCut := some 1 } : Epoch)], window := 128, samples := [7] } : Ctx), ({ ctx0 1 false with next := 2, epochs := [({ ep0 0 with endCut := some 1 } : Epoch)], window := 128, samples := [7] } : Ctx), ({ ep0 0 with endCut := some 1 } : Epoch), ({ ep0 0 with endCut := some 1 } : Epoch), _, gateW (holding ({ ctx0 1 false with next := 2, epochs := [({ ep0 0 with endCut := some 1 } : Epoch)], window := 128, samples := [7] } : Ctx) tray) 0 ({ ctx0 1 false with next := 2, epochs := [({ ep0 0 with endCut := some 1 } : Epoch)], window := 128, samples := [7] } : Ctx), gateT (holding ({ ctx0 1 false with next := 2, epochs := [({ ep0 0 with endCut := some 1 } : Epoch)], window := 128, samples := [7] } : Ctx) tray) 0 ({ ctx0 1 false with next := 2, epochs := [({ ep0 0 with endCut := some 1 } : Epoch)], window := 128, samples := [7] } : Ctx) ({ ep0 0 with endCut := some 1 } : Epoch), gateU (gateT (holding ({ ctx0 1 false with next := 2, epochs := [({ ep0 0 with endCut := some 1 } : Epoch)], window := 128, samples := [7] } : Ctx) tray) 0 ({ ctx0 1 false with next := 2, epochs := [({ ep0 0 with endCut := some 1 } : Epoch)], window := 128, samples := [7] } : Ctx) ({ ep0 0 with endCut := some 1 } : Epoch)) 0 ({ ep0 0 with endCut := some 1 } : Epoch), (gateZ (holding ({ ctx0 1 false with next := 2, epochs := [({ ep0 0 with endCut := some 1 } : Epoch)], window := 128, samples := [7] } : Ctx) tray) 0 ({ ctx0 1 false with next := 2, epochs := [({ ep0 0 with endCut := some 1 } : Epoch)], window := 128, samples := [7] } : Ctx) ({ ep0 0 with endCut := some 1 } : Epoch) ({ ep0 0 with endCut := some 1 } : Epoch)), ((State.ctx? (gateZ (holding ({ ctx0 1 false with next := 2, epochs := [({ ep0 0 with endCut := some 1 } : Epoch)], window := 128, samples := [7] } : Ctx) tray) 0 ({ ctx0 1 false with next := 2, epochs := [({ ep0 0 with endCut := some 1 } : Epoch)], window := 128, samples := [7] } : Ctx) ({ ep0 0 with endCut := some 1 } : Epoch) ({ ep0 0 with endCut := some 1 } : Epoch)) 0).get (by decide +kernel)), ((State.epoch? (gateZ (holding ({ ctx0 1 false with next := 2, epochs := [({ ep0 0 with endCut := some 1 } : Epoch)], window := 128, samples := [7] } : Ctx) tray) 0 ({ ctx0 1 false with next := 2, epochs := [({ ep0 0 with endCut := some 1 } : Epoch)], window := 128, samples := [7] } : Ctx) ({ ep0 0 with endCut := some 1 } : Epoch) ({ ep0 0 with endCut := some 1 } : Epoch)) 0 0).get (by decide +kernel)), (gateR (gateZ (holding ({ ctx0 1 false with next := 2, epochs := [({ ep0 0 with endCut := some 1 } : Epoch)], window := 128, samples := [7] } : Ctx) tray) 0 ({ ctx0 1 false with next := 2, epochs := [({ ep0 0 with endCut := some 1 } : Epoch)], window := 128, samples := [7] } : Ctx) ({ ep0 0 with endCut := some 1 } : Epoch) ({ ep0 0 with endCut := some 1 } : Epoch)) 0 0 ((State.ctx? (gateZ (holding ({ ctx0 1 false with next := 2, epochs := [({ ep0 0 with endCut := some 1 } : Epoch)], window := 128, samples := [7] } : Ctx) tray) 0 ({ ctx0 1 false with next := 2, epochs := [({ ep0 0 with endCut := some 1 } : Epoch)], window := 128, samples := [7] } : Ctx) ({ ep0 0 with endCut := some 1 } : Epoch) ({ ep0 0 with endCut := some 1 } : Epoch)) 0).get (by decide +kernel)) ((State.epoch? (gateZ (holding ({ ctx0 1 false with next := 2, epochs := [({ ep0 0 with endCut := some 1 } : Epoch)], window := 128, samples := [7] } : Ctx) tray) 0 ({ ctx0 1 false with next := 2, epochs := [({ ep0 0 with endCut := some 1 } : Epoch)], window := 128, samples := [7] } : Ctx) ({ ep0 0 with endCut := some 1 } : Epoch) ({ ep0 0 with endCut := some 1 } : Epoch)) 0 0).get (by decide +kernel))), ((State.ctx? (gateR (gateZ (holding ({ ctx0 1 false with next := 2, epochs := [({ ep0 0 with endCut := some 1 } : Epoch)], window := 128, samples := [7] } : Ctx) tray) 0 ({ ctx0 1 false with next := 2, epochs := [({ ep0 0 with endCut := some 1 } : Epoch)], window := 128, samples := [7] } : Ctx) ({ ep0 0 with endCut := some 1 } : Epoch) ({ ep0 0 with endCut := some 1 } : Epoch)) 0 0 ((State.ctx? (gateZ (holding ({ ctx0 1 false with next := 2, epochs := [({ ep0 0 with endCut := some 1 } : Epoch)], window := 128, samples := [7] } : Ctx) tray) 0 ({ ctx0 1 false with next := 2, epochs := [({ ep0 0 with endCut := some 1 } : Epoch)], window := 128, samples := [7] } : Ctx) ({ ep0 0 with endCut := some 1 } : Epoch) ({ ep0 0 with endCut := some 1 } : Epoch)) 0).get (by decide +kernel)) ((State.epoch? (gateZ (holding ({ ctx0 1 false with next := 2, epochs := [({ ep0 0 with endCut := some 1 } : Epoch)], window := 128, samples := [7] } : Ctx) tray) 0 ({ ctx0 1 false with next := 2, epochs := [({ ep0 0 with endCut := some 1 } : Epoch)], window := 128, samples := [7] } : Ctx) ({ ep0 0 with endCut := some 1 } : Epoch) ({ ep0 0 with endCut := some 1 } : Epoch)) 0 0).get (by decide +kernel))) 0).get (by decide +kernel)), ((Ctx.oldestOpen ((State.ctx? (gateR (gateZ (holding ({ ctx0 1 false with next := 2, epochs := [({ ep0 0 with endCut := some 1 } : Epoch)], window := 128, samples := [7] } : Ctx) tray) 0 ({ ctx0 1 false with next := 2, epochs := [({ ep0 0 with endCut := some 1 } : Epoch)], window := 128, samples := [7] } : Ctx) ({ ep0 0 with endCut := some 1 } : Epoch) ({ ep0 0 with endCut := some 1 } : Epoch)) 0 0 ((State.ctx? (gateZ (holding ({ ctx0 1 false with next := 2, epochs := [({ ep0 0 with endCut := some 1 } : Epoch)], window := 128, samples := [7] } : Ctx) tray) 0 ({ ctx0 1 false with next := 2, epochs := [({ ep0 0 with endCut := some 1 } : Epoch)], window := 128, samples := [7] } : Ctx) ({ ep0 0 with endCut := some 1 } : Epoch) ({ ep0 0 with endCut := some 1 } : Epoch)) 0).get (by decide +kernel)) ((State.epoch? (gateZ (holding ({ ctx0 1 false with next := 2, epochs := [({ ep0 0 with endCut := some 1 } : Epoch)], window := 128, samples := [7] } : Ctx) tray) 0 ({ ctx0 1 false with next := 2, epochs := [({ ep0 0 with endCut := some 1 } : Epoch)], window := 128, samples := [7] } : Ctx) ({ ep0 0 with endCut := some 1 } : Epoch) ({ ep0 0 with endCut := some 1 } : Epoch)) 0 0).get (by decide +kernel))) 0).get (by decide +kernel))).get (by decide +kernel)), ⟨rfl, rfl, rfl⟩, rfl, rfl, rfl, rfl, by decide, by decide +kernel, by decide +kernel, by decide +kernel, rfl, rfl, rfl, fun b h => gateU_is h, rfl, (Option.some_get _).symm, (Option.some_get _).symm, rfl, by decide +kernel, (Option.some_get _).symm, (Option.some_get _).symm, by decide +kernel⟩⟩

/-- States and operands that meet the hypotheses of `Obligations.GateEventsComplete`, for further clauses. -/
theorem witness_GateEventsComplete_2 :
    (∃ (parcel : _) (level : _) (s : State) (n : _) (c : _) (y : _) (e : _) (x : _) (d : _) (w : _) (t : _) (u : _) (z : _) (cz : _) (ez : _) (r : _) (cp : _) (ep : _), Running s ∧
      s.ctxAt parcel level = some (n, c) ∧
      s.ctx? n = some y ∧
      c.openGate = some e ∧
      s.epoch? n e.k = some x ∧
      level ≠ 0 ∧
      s.tallyUp = true ∧
      e.outstanding = 0 ∧
      e.awaitsResolve = false ∧
      d = (if y.samples = [] then y.dl else min (max (q99Of y.samples + s.rd (EPO_DL_MARGIN y.level)) (s.rd (EPO_DL_FLOOR y.level))) (s.rd (EPO_DL_CEIL y.level))) ∧
      w = (if y.window < 128 then s else s.modCtx n (fun v => { v with window := 0, samples := [], marginDue := false, q99 := if y.samples = [] then v.q99 else q99Of y.samples, dl := if y.marginDue = true then min (d + s.rd (EPO_DL_MARGIN y.level)) (s.rd (EPO_DL_CEIL y.level)) else d })) ∧
      t = w.modEpoch n e.k (fun v => { v with gate := true, tClose := s.now }) ∧
      (∀ b, t.ctx? n = some b → u = t.modCtx n (fun v => { v with window := v.window + 1, marginDue := v.marginDue || (decide (0 < x.timeouts) && decide (127 ≤ b.window)), stalled := false, dl := if (decide (0 < x.timeouts) && !decide (127 ≤ b.window)) = true then min (b.dl + t.rd (EPO_DL_MARGIN b.level)) (t.rd (EPO_DL_CEIL b.level)) else b.dl })) ∧
      z = satCheck (if y.level = 1 then trnBegin n e.k u else u) ∧
      z.ctx? n = some cz ∧
      z.epoch? n e.k = some ez ∧
      r = (if cz.level = 1 then cadBegin n e.k (z.modEpoch n e.k (fun v => { v with fin := true })) else ((z.modEpoch n e.k (fun v => { v with fin := true })).modEpoch n e.k (fun v => { v with trnBytes := (epochSections ez).1 })).inc TRN_SEC_MISMATCH (epochSections ez).2) ∧
      ¬(cz.level = 0 ∨ ez.gate = false ∨ ez.fin = true ∨ ez.own = .waiting ∨ z.hasWork n e.k = true ∨ z.tallyUp = false) ∧
      r.ctx? n = some cp ∧
      cp.oldestOpen = some ep ∧
      ep.ready cp = true ∧
      cp.pub = true) ∧
    (∃ (parcel : _) (level : _) (s : State) (n : _) (c : _) (y : _) (e : _) (x : _) (d : _) (w : _) (t : _) (u : _) (z : _) (cz : _) (ez : _) (r : _) (cp : _) (ep : _), Running s ∧
      s.ctxAt parcel level = some (n, c) ∧
      s.ctx? n = some y ∧
      c.openGate = some e ∧
      s.epoch? n e.k = some x ∧
      level ≠ 0 ∧
      s.tallyUp = true ∧
      e.outstanding = 0 ∧
      e.awaitsResolve = false ∧
      d = (if y.samples = [] then y.dl else min (max (q99Of y.samples + s.rd (EPO_DL_MARGIN y.level)) (s.rd (EPO_DL_FLOOR y.level))) (s.rd (EPO_DL_CEIL y.level))) ∧
      w = (if y.window < 128 then s else s.modCtx n (fun v => { v with window := 0, samples := [], marginDue := false, q99 := if y.samples = [] then v.q99 else q99Of y.samples, dl := if y.marginDue = true then min (d + s.rd (EPO_DL_MARGIN y.level)) (s.rd (EPO_DL_CEIL y.level)) else d })) ∧
      t = w.modEpoch n e.k (fun v => { v with gate := true, tClose := s.now }) ∧
      (∀ b, t.ctx? n = some b → u = t.modCtx n (fun v => { v with window := v.window + 1, marginDue := v.marginDue || (decide (0 < x.timeouts) && decide (127 ≤ b.window)), stalled := false, dl := if (decide (0 < x.timeouts) && !decide (127 ≤ b.window)) = true then min (b.dl + t.rd (EPO_DL_MARGIN b.level)) (t.rd (EPO_DL_CEIL b.level)) else b.dl })) ∧
      z = satCheck (if y.level = 1 then trnBegin n e.k u else u) ∧
      z.ctx? n = some cz ∧
      z.epoch? n e.k = some ez ∧
      r = (if cz.level = 1 then cadBegin n e.k (z.modEpoch n e.k (fun v => { v with fin := true })) else ((z.modEpoch n e.k (fun v => { v with fin := true })).modEpoch n e.k (fun v => { v with trnBytes := (epochSections ez).1 })).inc TRN_SEC_MISMATCH (epochSections ez).2) ∧
      ¬(cz.level = 0 ∨ ez.gate = false ∨ ez.fin = true ∨ ez.own = .waiting ∨ z.hasWork n e.k = true ∨ z.tallyUp = false) ∧
      r.ctx? n = some cp ∧
      cp.oldestOpen = some ep ∧
      ep.ready cp = true ∧
      cp.pub = false ∧
      cp.level ≠ 1 ∧
      cp.level ≠ 0) :=
  ⟨⟨1, 1, (holding ({ ctx0 1 true with next := 2, epochs := [({ ep0 0 with endCut := some 1 } : Epoch)], window := 0, samples := [] } : Ctx) tray), 0, ({ ctx0 1 true with next := 2, epochs := [({ ep0 0 with endCut := some 1 } : Epoch)], window := 0, samples := [] } : Ctx), ({ ctx0 1 true with next := 2, epochs := [({ ep0 0 with endCut := some 1 } : Epoch)], window := 0, samples := [] } : Ctx), ({ ep0 0 with endCut := some 1 } : Epoch), ({ ep0 0 with endCut := some 1 } : Epoch), _, gateW (holding ({ ctx0 1 true with next := 2, epochs := [({ ep0 0 with endCut := some 1 } : Epoch)], window := 0, samples := [] } : Ctx) tray) 0 ({ ctx0 1 true with next := 2, epochs := [({ ep0 0 with endCut := some 1 } : Epoch)], window := 0, samples := [] } : Ctx), gateT (holding ({ ctx0 1 true with next := 2, epochs := [({ ep0 0 with endCut := some 1 } : Epoch)], window := 0, samples := [] } : Ctx) tray) 0 ({ ctx0 1 true with next := 2, epochs := [({ ep0 0 with endCut := some 1 } : Epoch)], window := 0, samples := [] } : Ctx) ({ ep0 0 with endCut := some 1 } : Epoch), gateU (gateT (holding ({ ctx0 1 true with next := 2, epochs := [({ ep0 0 with endCut := some 1 } : Epoch)], window := 0, samples := [] } : Ctx) tray) 0 ({ ctx0 1 true with next := 2, epochs := [({ ep0 0 with endCut := some 1 } : Epoch)], window := 0, samples := [] } : Ctx) ({ ep0 0 with endCut := some 1 } : Epoch)) 0 ({ ep0 0 with endCut := some 1 } : Epoch), (gateZ (holding ({ ctx0 1 true with next := 2, epochs := [({ ep0 0 with endCut := some 1 } : Epoch)], window := 0, samples := [] } : Ctx) tray) 0 ({ ctx0 1 true with next := 2, epochs := [({ ep0 0 with endCut := some 1 } : Epoch)], window := 0, samples := [] } : Ctx) ({ ep0 0 with endCut := some 1 } : Epoch) ({ ep0 0 with endCut := some 1 } : Epoch)), ((State.ctx? (gateZ (holding ({ ctx0 1 true with next := 2, epochs := [({ ep0 0 with endCut := some 1 } : Epoch)], window := 0, samples := [] } : Ctx) tray) 0 ({ ctx0 1 true with next := 2, epochs := [({ ep0 0 with endCut := some 1 } : Epoch)], window := 0, samples := [] } : Ctx) ({ ep0 0 with endCut := some 1 } : Epoch) ({ ep0 0 with endCut := some 1 } : Epoch)) 0).get (by decide +kernel)), ((State.epoch? (gateZ (holding ({ ctx0 1 true with next := 2, epochs := [({ ep0 0 with endCut := some 1 } : Epoch)], window := 0, samples := [] } : Ctx) tray) 0 ({ ctx0 1 true with next := 2, epochs := [({ ep0 0 with endCut := some 1 } : Epoch)], window := 0, samples := [] } : Ctx) ({ ep0 0 with endCut := some 1 } : Epoch) ({ ep0 0 with endCut := some 1 } : Epoch)) 0 0).get (by decide +kernel)), (gateR (gateZ (holding ({ ctx0 1 true with next := 2, epochs := [({ ep0 0 with endCut := some 1 } : Epoch)], window := 0, samples := [] } : Ctx) tray) 0 ({ ctx0 1 true with next := 2, epochs := [({ ep0 0 with endCut := some 1 } : Epoch)], window := 0, samples := [] } : Ctx) ({ ep0 0 with endCut := some 1 } : Epoch) ({ ep0 0 with endCut := some 1 } : Epoch)) 0 0 ((State.ctx? (gateZ (holding ({ ctx0 1 true with next := 2, epochs := [({ ep0 0 with endCut := some 1 } : Epoch)], window := 0, samples := [] } : Ctx) tray) 0 ({ ctx0 1 true with next := 2, epochs := [({ ep0 0 with endCut := some 1 } : Epoch)], window := 0, samples := [] } : Ctx) ({ ep0 0 with endCut := some 1 } : Epoch) ({ ep0 0 with endCut := some 1 } : Epoch)) 0).get (by decide +kernel)) ((State.epoch? (gateZ (holding ({ ctx0 1 true with next := 2, epochs := [({ ep0 0 with endCut := some 1 } : Epoch)], window := 0, samples := [] } : Ctx) tray) 0 ({ ctx0 1 true with next := 2, epochs := [({ ep0 0 with endCut := some 1 } : Epoch)], window := 0, samples := [] } : Ctx) ({ ep0 0 with endCut := some 1 } : Epoch) ({ ep0 0 with endCut := some 1 } : Epoch)) 0 0).get (by decide +kernel))), ((State.ctx? (gateR (gateZ (holding ({ ctx0 1 true with next := 2, epochs := [({ ep0 0 with endCut := some 1 } : Epoch)], window := 0, samples := [] } : Ctx) tray) 0 ({ ctx0 1 true with next := 2, epochs := [({ ep0 0 with endCut := some 1 } : Epoch)], window := 0, samples := [] } : Ctx) ({ ep0 0 with endCut := some 1 } : Epoch) ({ ep0 0 with endCut := some 1 } : Epoch)) 0 0 ((State.ctx? (gateZ (holding ({ ctx0 1 true with next := 2, epochs := [({ ep0 0 with endCut := some 1 } : Epoch)], window := 0, samples := [] } : Ctx) tray) 0 ({ ctx0 1 true with next := 2, epochs := [({ ep0 0 with endCut := some 1 } : Epoch)], window := 0, samples := [] } : Ctx) ({ ep0 0 with endCut := some 1 } : Epoch) ({ ep0 0 with endCut := some 1 } : Epoch)) 0).get (by decide +kernel)) ((State.epoch? (gateZ (holding ({ ctx0 1 true with next := 2, epochs := [({ ep0 0 with endCut := some 1 } : Epoch)], window := 0, samples := [] } : Ctx) tray) 0 ({ ctx0 1 true with next := 2, epochs := [({ ep0 0 with endCut := some 1 } : Epoch)], window := 0, samples := [] } : Ctx) ({ ep0 0 with endCut := some 1 } : Epoch) ({ ep0 0 with endCut := some 1 } : Epoch)) 0 0).get (by decide +kernel))) 0).get (by decide +kernel)), ((Ctx.oldestOpen ((State.ctx? (gateR (gateZ (holding ({ ctx0 1 true with next := 2, epochs := [({ ep0 0 with endCut := some 1 } : Epoch)], window := 0, samples := [] } : Ctx) tray) 0 ({ ctx0 1 true with next := 2, epochs := [({ ep0 0 with endCut := some 1 } : Epoch)], window := 0, samples := [] } : Ctx) ({ ep0 0 with endCut := some 1 } : Epoch) ({ ep0 0 with endCut := some 1 } : Epoch)) 0 0 ((State.ctx? (gateZ (holding ({ ctx0 1 true with next := 2, epochs := [({ ep0 0 with endCut := some 1 } : Epoch)], window := 0, samples := [] } : Ctx) tray) 0 ({ ctx0 1 true with next := 2, epochs := [({ ep0 0 with endCut := some 1 } : Epoch)], window := 0, samples := [] } : Ctx) ({ ep0 0 with endCut := some 1 } : Epoch) ({ ep0 0 with endCut := some 1 } : Epoch)) 0).get (by decide +kernel)) ((State.epoch? (gateZ (holding ({ ctx0 1 true with next := 2, epochs := [({ ep0 0 with endCut := some 1 } : Epoch)], window := 0, samples := [] } : Ctx) tray) 0 ({ ctx0 1 true with next := 2, epochs := [({ ep0 0 with endCut := some 1 } : Epoch)], window := 0, samples := [] } : Ctx) ({ ep0 0 with endCut := some 1 } : Epoch) ({ ep0 0 with endCut := some 1 } : Epoch)) 0 0).get (by decide +kernel))) 0).get (by decide +kernel))).get (by decide +kernel)), ⟨rfl, rfl, rfl⟩, rfl, rfl, rfl, rfl, by decide, by decide +kernel, by decide +kernel, by decide +kernel, rfl, rfl, rfl, fun b h => gateU_is h, rfl, (Option.some_get _).symm, (Option.some_get _).symm, rfl, by decide +kernel, (Option.some_get _).symm, (Option.some_get _).symm, by decide +kernel, by decide +kernel⟩,
   ⟨1, 2, (holding ({ ctx0 2 false with next := 2, epochs := [({ ep0 0 with endCut := some 1 } : Epoch)], window := 0, samples := [] } : Ctx) tray), 0, ({ ctx0 2 false with next := 2, epochs := [({ ep0 0 with endCut := some 1 } : Epoch)], window := 0, samples := [] } : Ctx), ({ ctx0 2 false with next := 2, epochs := [({ ep0 0 with endCut := some 1 } : Epoch)], window := 0, samples := [] } : Ctx), ({ ep0 0 with endCut := some 1 } : Epoch), ({ ep0 0 with endCut := some 1 } : Epoch), _, gateW (holding ({ ctx0 2 false with next := 2, epochs := [({ ep0 0 with endCut := some 1 } : Epoch)], window := 0, samples := [] } : Ctx) tray) 0 ({ ctx0 2 false with next := 2, epochs := [({ ep0 0 with endCut := some 1 } : Epoch)], window := 0, samples := [] } : Ctx), gateT (holding ({ ctx0 2 false with next := 2, epochs := [({ ep0 0 with endCut := some 1 } : Epoch)], window := 0, samples := [] } : Ctx) tray) 0 ({ ctx0 2 false with next := 2, epochs := [({ ep0 0 with endCut := some 1 } : Epoch)], window := 0, samples := [] } : Ctx) ({ ep0 0 with endCut := some 1 } : Epoch), gateU (gateT (holding ({ ctx0 2 false with next := 2, epochs := [({ ep0 0 with endCut := some 1 } : Epoch)], window := 0, samples := [] } : Ctx) tray) 0 ({ ctx0 2 false with next := 2, epochs := [({ ep0 0 with endCut := some 1 } : Epoch)], window := 0, samples := [] } : Ctx) ({ ep0 0 with endCut := some 1 } : Epoch)) 0 ({ ep0 0 with endCut := some 1 } : Epoch), (gateZ (holding ({ ctx0 2 false with next := 2, epochs := [({ ep0 0 with endCut := some 1 } : Epoch)], window := 0, samples := [] } : Ctx) tray) 0 ({ ctx0 2 false with next := 2, epochs := [({ ep0 0 with endCut := some 1 } : Epoch)], window := 0, samples := [] } : Ctx) ({ ep0 0 with endCut := some 1 } : Epoch) ({ ep0 0 with endCut := some 1 } : Epoch)), ((State.ctx? (gateZ (holding ({ ctx0 2 false with next := 2, epochs := [({ ep0 0 with endCut := some 1 } : Epoch)], window := 0, samples := [] } : Ctx) tray) 0 ({ ctx0 2 false with next := 2, epochs := [({ ep0 0 with endCut := some 1 } : Epoch)], window := 0, samples := [] } : Ctx) ({ ep0 0 with endCut := some 1 } : Epoch) ({ ep0 0 with endCut := some 1 } : Epoch)) 0).get (by decide +kernel)), ((State.epoch? (gateZ (holding ({ ctx0 2 false with next := 2, epochs := [({ ep0 0 with endCut := some 1 } : Epoch)], window := 0, samples := [] } : Ctx) tray) 0 ({ ctx0 2 false with next := 2, epochs := [({ ep0 0 with endCut := some 1 } : Epoch)], window := 0, samples := [] } : Ctx) ({ ep0 0 with endCut := some 1 } : Epoch) ({ ep0 0 with endCut := some 1 } : Epoch)) 0 0).get (by decide +kernel)), (gateR (gateZ (holding ({ ctx0 2 false with next := 2, epochs := [({ ep0 0 with endCut := some 1 } : Epoch)], window := 0, samples := [] } : Ctx) tray) 0 ({ ctx0 2 false with next := 2, epochs := [({ ep0 0 with endCut := some 1 } : Epoch)], window := 0, samples := [] } : Ctx) ({ ep0 0 with endCut := some 1 } : Epoch) ({ ep0 0 with endCut := some 1 } : Epoch)) 0 0 ((State.ctx? (gateZ (holding ({ ctx0 2 false with next := 2, epochs := [({ ep0 0 with endCut := some 1 } : Epoch)], window := 0, samples := [] } : Ctx) tray) 0 ({ ctx0 2 false with next := 2, epochs := [({ ep0 0 with endCut := some 1 } : Epoch)], window := 0, samples := [] } : Ctx) ({ ep0 0 with endCut := some 1 } : Epoch) ({ ep0 0 with endCut := some 1 } : Epoch)) 0).get (by decide +kernel)) ((State.epoch? (gateZ (holding ({ ctx0 2 false with next := 2, epochs := [({ ep0 0 with endCut := some 1 } : Epoch)], window := 0, samples := [] } : Ctx) tray) 0 ({ ctx0 2 false with next := 2, epochs := [({ ep0 0 with endCut := some 1 } : Epoch)], window := 0, samples := [] } : Ctx) ({ ep0 0 with endCut := some 1 } : Epoch) ({ ep0 0 with endCut := some 1 } : Epoch)) 0 0).get (by decide +kernel))), ((State.ctx? (gateR (gateZ (holding ({ ctx0 2 false with next := 2, epochs := [({ ep0 0 with endCut := some 1 } : Epoch)], window := 0, samples := [] } : Ctx) tray) 0 ({ ctx0 2 false with next := 2, epochs := [({ ep0 0 with endCut := some 1 } : Epoch)], window := 0, samples := [] } : Ctx) ({ ep0 0 with endCut := some 1 } : Epoch) ({ ep0 0 with endCut := some 1 } : Epoch)) 0 0 ((State.ctx? (gateZ (holding ({ ctx0 2 false with next := 2, epochs := [({ ep0 0 with endCut := some 1 } : Epoch)], window := 0, samples := [] } : Ctx) tray) 0 ({ ctx0 2 false with next := 2, epochs := [({ ep0 0 with endCut := some 1 } : Epoch)], window := 0, samples := [] } : Ctx) ({ ep0 0 with endCut := some 1 } : Epoch) ({ ep0 0 with endCut := some 1 } : Epoch)) 0).get (by decide +kernel)) ((State.epoch? (gateZ (holding ({ ctx0 2 false with next := 2, epochs := [({ ep0 0 with endCut := some 1 } : Epoch)], window := 0, samples := [] } : Ctx) tray) 0 ({ ctx0 2 false with next := 2, epochs := [({ ep0 0 with endCut := some 1 } : Epoch)], window := 0, samples := [] } : Ctx) ({ ep0 0 with endCut := some 1 } : Epoch) ({ ep0 0 with endCut := some 1 } : Epoch)) 0 0).get (by decide +kernel))) 0).get (by decide +kernel)), ((Ctx.oldestOpen ((State.ctx? (gateR (gateZ (holding ({ ctx0 2 false with next := 2, epochs := [({ ep0 0 with endCut := some 1 } : Epoch)], window := 0, samples := [] } : Ctx) tray) 0 ({ ctx0 2 false with next := 2, epochs := [({ ep0 0 with endCut := some 1 } : Epoch)], window := 0, samples := [] } : Ctx) ({ ep0 0 with endCut := some 1 } : Epoch) ({ ep0 0 with endCut := some 1 } : Epoch)) 0 0 ((State.ctx? (gateZ (holding ({ ctx0 2 false with next := 2, epochs := [({ ep0 0 with endCut := some 1 } : Epoch)], window := 0, samples := [] } : Ctx) tray) 0 ({ ctx0 2 false with next := 2, epochs := [({ ep0 0 with endCut := some 1 } : Epoch)], window := 0, samples := [] } : Ctx) ({ ep0 0 with endCut := some 1 } : Epoch) ({ ep0 0 with endCut := some 1 } : Epoch)) 0).get (by decide +kernel)) ((State.epoch? (gateZ (holding ({ ctx0 2 false with next := 2, epochs := [({ ep0 0 with endCut := some 1 } : Epoch)], window := 0, samples := [] } : Ctx) tray) 0 ({ ctx0 2 false with next := 2, epochs := [({ ep0 0 with endCut := some 1 } : Epoch)], window := 0, samples := [] } : Ctx) ({ ep0 0 with endCut := some 1 } : Epoch) ({ ep0 0 with endCut := some 1 } : Epoch)) 0 0).get (by decide +kernel))) 0).get (by decide +kernel))).get (by decide +kernel)), ⟨rfl, rfl, rfl⟩, rfl, rfl, rfl, rfl, by decide, by decide +kernel, by decide +kernel, by decide +kernel, rfl, rfl, rfl, fun b h => gateU_is h, rfl, (Option.some_get _).symm, (Option.some_get _).symm, rfl, by decide +kernel, (Option.some_get _).symm, (Option.some_get _).symm, by decide +kernel, by decide +kernel, by decide +kernel, by decide +kernel⟩⟩

/-- States and operands that meet the hypotheses of `Obligations.GateEventsComplete`, for further clauses. -/
theorem witness_GateEventsComplete_3 :
    (∃ (parcel : _) (level : _) (s : State) (n : _) (c : _) (y : _) (d : _), Running s ∧
      s.ctxAt parcel level = some (n, c) ∧
      s.ctx? n = some y ∧
      d = (if y.samples = [] then y.dl else min (max (q99Of y.samples + s.rd (EPO_DL_MARGIN y.level)) (s.rd (EPO_DL_FLOOR y.level))) (s.rd (EPO_DL_CEIL y.level))) ∧
      y.window < 128) ∧
    (∃ (parcel : _) (level : _) (s : State) (n : _) (c : _) (y : _) (d : _), Running s ∧
      s.ctxAt parcel level = some (n, c) ∧
      s.ctx? n = some y ∧
      d = (if y.samples = [] then y.dl else min (max (q99Of y.samples + s.rd (EPO_DL_MARGIN y.level)) (s.rd (EPO_DL_FLOOR y.level))) (s.rd (EPO_DL_CEIL y.level))) ∧
      128 ≤ y.window) ∧
    (∃ (parcel : _) (s : State) (n : _) (c : _) (e : _), Running s ∧
      s.ctxAt parcel 1 = some (n, c) ∧
      c.epochs.find? (fun e => e.endCut.isSome && !e.sentPending) = some e ∧
      c.pub = false ∧
      e.ready c = true ∧
      (e.trnCheck = .pending → e.trnVotes = []) ∧
      (∀ x ∈ c.epochs, x.sentPending = true → e.k ≤ x.k)) :=
  ⟨⟨1, 1, (holding ({ ctx0 1 false with next := 2, epochs := [({ ep0 0 with endCut := some 1 } : Epoch)], window := 127, samples := [7] } : Ctx) tray), 0, ({ ctx0 1 false with next := 2, epochs := [({ ep0 0 with endCut := some 1 } : Epoch)], window := 127, samples := [7] } : Ctx), ({ ctx0 1 false with next := 2, epochs := [({ ep0 0 with endCut := some 1 } : Epoch)], window := 127, samples := [7] } : Ctx), _, ⟨rfl, rfl, rfl⟩, rfl, rfl, rfl, by decide⟩,
   ⟨1, 1, (holding ({ ctx0 1 false with next := 2, epochs := [({ ep0 0 with endCut := some 1 } : Epoch)], window := 128, samples := [7] } : Ctx) tray), 0, ({ ctx0 1 false with next := 2, epochs := [({ ep0 0 with endCut := some 1 } : Epoch)], window := 128, samples := [7] } : Ctx), ({ ctx0 1 false with next := 2, epochs := [({ ep0 0 with endCut := some 1 } : Epoch)], window := 128, samples := [7] } : Ctx), _, ⟨rfl, rfl, rfl⟩, rfl, rfl, rfl, by decide⟩,
   ⟨1, holding ({ ctx0 1 false with kids := [({ station := 5, level := 0, members := 1 } : Kid)], next := 2, epochs := [({ ep0 0 with endCut := some 1, gate := true, fin := true } : Epoch)] }) tray, 0, { ctx0 1 false with kids := [({ station := 5, level := 0, members := 1 } : Kid)], next := 2, epochs := [({ ep0 0 with endCut := some 1, gate := true, fin := true } : Epoch)] }, ({ ep0 0 with endCut := some 1, gate := true, fin := true } : Epoch), ⟨rfl, rfl, rfl⟩, by decide +kernel, by decide +kernel, by decide, by decide, by decide, by decide⟩⟩

/-- States and operands that meet the hypotheses of `Obligations.PassEventsComplete`, for each of its clauses. -/
theorem witness_PassEventsComplete :
    (∃ (s : State) (u : _) (j : _) (js : _) (i : _), Running s ∧
      u = scoreRowsRun s ∧
      (u.cadUp = true → u.reloadDue = []) ∧
      u.passHeld = false ∧
      u.cadJobs = j :: js ∧
      u.platSlot (u.jobPlat j) = some i ∧
      (u.platResident i = true ∨ u.hasLeave (.cadPass 0) = true)) ∧
    (∃ (s : State) (u : _) (j : _) (js : _) (i : _), Running s ∧
      u = scoreRowsRun s ∧
      (u.cadUp = true → u.reloadDue = []) ∧
      u.passHeld = false ∧
      u.cadJobs = j :: js ∧
      u.platSlot (u.jobPlat j) = some i ∧
      u.platResident i = false ∧
      u.hasLeave (.cadPass 0) = false ∧
      u.asksLeave (.cadPass 0) = false) ∧
    (∃ (s : State) (p : _) (t : _), Running s ∧
      s.cad.pass = some p ∧
      t = passRun p { s with cad := { s.cad with pass := none } }) ∧
    (∃ (parcel : _) (ep : _) (s : State) (n : _) (c : _) (e : _) (t : _), Running s ∧
      s.ctxAt parcel s.ownLevel = some (n, c) ∧
      c.epochs.find? (fun e => e.k % 2 ^ 24 == ep % 2 ^ 24 && e.cad == .pending) = some e ∧
      s.cad.pass = none ∧
      s.getB EPO_CTL 0 = false ∧
      t = advanceAll n ((cadAbandon n e.k s).evt CAD_EVT 2)) ∧
    (∃ (s : State) (j : _) (js : _) (i : _) (e : _), Running s ∧
      s.trnUp = true ∧
      s.trn.pass = none ∧
      s.plm.goal = none ∧
      s.trnRunning = false ∧
      s.trnReloadDue = [] ∧
      s.trnFenced = false ∧
      s.trnJobs = j :: js ∧
      s.epoch? j.ctx j.k = some e ∧
      s.subSlotOf e.sub = some i ∧
      s.hasLeave (.trnPass 0) = true) ∧
    (∃ (s : State) (j : _) (js : _) (i : _) (e : _), Running s ∧
      s.trnUp = true ∧
      s.trn.pass = none ∧
      s.plm.goal = none ∧
      s.trnRunning = false ∧
      s.trnReloadDue = [] ∧
      s.trnFenced = false ∧
      s.trnJobs = j :: js ∧
      s.epoch? j.ctx j.k = some e ∧
      s.subSlotOf e.sub = some i ∧
      s.hasLeave (.trnPass 0) = false ∧
      s.asksLeave (.trnPass 0) = false) ∧
    (∃ (s : State) (p : _) (q : _) (t : _), Running s ∧
      s.trn.pass = some p ∧
      p.done < p.tiles.length ∧
      q = { p with done := p.done + 1 } ∧
      t = (memReadBack 6 p.slot { s with trn := { s.trn with pass := some q } }).inc TRN_TILES 1) ∧
    (∃ (cols : List Nat) (unloc : _) (s : State) (p : _) (tl : _) (bad : _) (vec : _) (n : _) (q : _) (t : _), Running s ∧
      s.trn.pass = some p ∧
      p.tiles[p.checked]? = some tl ∧
      p.checked < p.done ∧
      passTileChecks p (s.rd TRN_ABFT_TOL) tl = (bad, vec) ∧
      n = (bad ++ cols.map (· % 128)).eraseDups.length + vec + b2n (unloc && vec == 0) ∧
      q = { p with checked := p.checked + 1, failed := p.failed || n != 0 } ∧
      t = tileFails tl.array (groupsOf p.fence p.fenceArr tl.array (bad ++ cols.map (· % 128)).eraseDups) n { s with trn := { s.trn with pass := some q } }) ∧
    (∃ (parcel : _) (ep : _) (s : State) (n : _) (c : _) (j : _) (t : _), Running s ∧
      s.ctxAt parcel 1 = some (n, c) ∧
      s.trnJobs.find? (fun j => j.ctx == n && j.k % 2 ^ 24 == ep % 2 ^ 24) = some j ∧
      s.getB EPO_CTL 0 = false ∧
      t = trnGiveUp [j] s) :=
  ⟨⟨{ (wrs [(CAD_PLAT_ID 0, 0x80000005)] (holding ({ ctx0 0 true with epochs := [({ ep0 0 with endCut := some 1, plat := 5, cad := .pending } : Epoch)] }) leaf)) with adm := { leaf.adm with held := [{ purpose := .cadPass 0, amt := 0, since := 0 }] } }, _, _, [], 0, ⟨rfl, rfl, rfl⟩, rfl, by decide +kernel, by decide +kernel, rfl, by decide +kernel, by decide +kernel⟩,
   ⟨(wrs [(CAD_PLAT_ID 0, 0x80000005)] (holding ({ ctx0 0 true with epochs := [({ ep0 0 with endCut := some 1, plat := 5, cad := .pending } : Epoch)] }) leaf)), _, _, [], 0, ⟨rfl, rfl, rfl⟩, rfl, by decide +kernel, by decide +kernel, rfl, by decide +kernel, by decide +kernel, by decide +kernel, by decide +kernel⟩,
   ⟨{ leaf with cad := { leaf.cad with pass := some { slot := 0, rows := [] } } }, { slot := 0, rows := [] }, _, ⟨rfl, rfl, rfl⟩, by decide, rfl⟩,
   ⟨1, 0, (wrs [(CAD_PLAT_ID 0, 0x80000005)] (holding ({ ctx0 0 true with epochs := [({ ep0 0 with endCut := some 1, plat := 5, cad := .pending } : Epoch)] }) leaf)), 0, { ctx0 0 true with epochs := [({ ep0 0 with endCut := some 1, plat := 5, cad := .pending } : Epoch)] }, ({ ep0 0 with endCut := some 1, plat := 5, cad := .pending } : Epoch), _, ⟨rfl, rfl, rfl⟩, by decide +kernel, by decide +kernel, by decide +kernel, by decide +kernel, rfl⟩,
   ⟨{ (wrs [(TRN_SUB_ID 0, 0x80000005)] (holding ({ ctx0 1 false with epochs := [({ ep0 0 with endCut := some 1, gate := true, sub := 5, trn := .pending } : Epoch)] }) tray)) with adm := { leaf.adm with held := [{ purpose := .trnPass 0, amt := 0, since := 0 }] } }, _, [], 0, ({ ep0 0 with endCut := some 1, gate := true, sub := 5, trn := .pending } : Epoch), ⟨rfl, rfl, rfl⟩, by decide +kernel, by decide +kernel, by decide +kernel, by decide +kernel, by decide +kernel, by decide +kernel, rfl, by decide +kernel, by decide +kernel, by decide +kernel⟩,
   ⟨(wrs [(TRN_SUB_ID 0, 0x80000005)] (holding ({ ctx0 1 false with epochs := [({ ep0 0 with endCut := some 1, gate := true, sub := 5, trn := .pending } : Epoch)] }) tray)), _, [], 0, ({ ep0 0 with endCut := some 1, gate := true, sub := 5, trn := .pending } : Epoch), ⟨rfl, rfl, rfl⟩, by decide +kernel, by decide +kernel, by decide +kernel, by decide +kernel, by decide +kernel, by decide +kernel, rfl, by decide +kernel, by decide +kernel, by decide +kernel, by decide +kernel⟩,
   ⟨{ tray with trn := { tray.trn with pass := some ({ ctx := 0, k := 0, slot := 0, image := (zeros 10 ++ leBytes 2 1 ++ zeros 40 ++ leBytes 4 64 ++ zeros 8 ++ leBytes 4 200 ++ leBytes 4 1 ++ leBytes 4 1 ++ zeros 20 ++ zeros 200), learned := false, cols := [{ station := 1, xs := [0], blocks := [] }], excluded := 0, done := 0, checked := 0, fence := 0, fenceArr := 0, failed := false } : TrnPass) } }, ({ ctx := 0, k := 0, slot := 0, image := (zeros 10 ++ leBytes 2 1 ++ zeros 40 ++ leBytes 4 64 ++ zeros 8 ++ leBytes 4 200 ++ leBytes 4 1 ++ leBytes 4 1 ++ zeros 20 ++ zeros 200), learned := false, cols := [{ station := 1, xs := [0], blocks := [] }], excluded := 0, done := 0, checked := 0, fence := 0, fenceArr := 0, failed := false } : TrnPass), _, _, ⟨rfl, rfl, rfl⟩, by decide, by decide +kernel, rfl, rfl⟩,
   ⟨[], false, { tray with trn := { tray.trn with pass := some ({ ctx := 0, k := 0, slot := 0, image := (zeros 10 ++ leBytes 2 1 ++ zeros 40 ++ leBytes 4 64 ++ zeros 8 ++ leBytes 4 200 ++ leBytes 4 1 ++ leBytes 4 1 ++ zeros 20 ++ zeros 200), learned := false, cols := [{ station := 1, xs := [0], blocks := [] }], excluded := 0, done := 1, checked := 0, fence := 0, fenceArr := 0, failed := false } : TrnPass) } }, ({ ctx := 0, k := 0, slot := 0, image := (zeros 10 ++ leBytes 2 1 ++ zeros 40 ++ leBytes 4 64 ++ zeros 8 ++ leBytes 4 200 ++ leBytes 4 1 ++ leBytes 4 1 ++ zeros 20 ++ zeros 200), learned := false, cols := [{ station := 1, xs := [0], blocks := [] }], excluded := 0, done := 1, checked := 0, fence := 0, fenceArr := 0, failed := false } : TrnPass), ((({ ctx := 0, k := 0, slot := 0, image := (zeros 10 ++ leBytes 2 1 ++ zeros 40 ++ leBytes 4 64 ++ zeros 8 ++ leBytes 4 200 ++ leBytes 4 1 ++ leBytes 4 1 ++ zeros 20 ++ zeros 200), learned := false, cols := [{ station := 1, xs := [0], blocks := [] }], excluded := 0, done := 1, checked := 0, fence := 0, fenceArr := 0, failed := false } : TrnPass).tiles[0]?).get (by decide +kernel)), (passTileChecks ({ ctx := 0, k := 0, slot := 0, image := (zeros 10 ++ leBytes 2 1 ++ zeros 40 ++ leBytes 4 64 ++ zeros 8 ++ leBytes 4 200 ++ leBytes 4 1 ++ leBytes 4 1 ++ zeros 20 ++ zeros 200), learned := false, cols := [{ station := 1, xs := [0], blocks := [] }], excluded := 0, done := 1, checked := 0, fence := 0, fenceArr := 0, failed := false } : TrnPass) (State.rd ({ tray with trn := { tray.trn with pass := some ({ ctx := 0, k := 0, slot := 0, image := (zeros 10 ++ leBytes 2 1 ++ zeros 40 ++ leBytes 4 64 ++ zeros 8 ++ leBytes 4 200 ++ leBytes 4 1 ++ leBytes 4 1 ++ zeros 20 ++ zeros 200), learned := false, cols := [{ station := 1, xs := [0], blocks := [] }], excluded := 0, done := 1, checked := 0, fence := 0, fenceArr := 0, failed := false } : TrnPass) } }) TRN_ABFT_TOL) ((({ ctx := 0, k := 0, slot := 0, image := (zeros 10 ++ leBytes 2 1 ++ zeros 40 ++ leBytes 4 64 ++ zeros 8 ++ leBytes 4 200 ++ leBytes 4 1 ++ leBytes 4 1 ++ zeros 20 ++ zeros 200), learned := false, cols := [{ station := 1, xs := [0], blocks := [] }], excluded := 0, done := 1, checked := 0, fence := 0, fenceArr := 0, failed := false } : TrnPass).tiles[0]?).get (by decide +kernel))).1, (passTileChecks ({ ctx := 0, k := 0, slot := 0, image := (zeros 10 ++ leBytes 2 1 ++ zeros 40 ++ leBytes 4 64 ++ zeros 8 ++ leBytes 4 200 ++ leBytes 4 1 ++ leBytes 4 1 ++ zeros 20 ++ zeros 200), learned := false, cols := [{ station := 1, xs := [0], blocks := [] }], excluded := 0, done := 1, checked := 0, fence := 0, fenceArr := 0, failed := false } : TrnPass) (State.rd ({ tray with trn := { tray.trn with pass := some ({ ctx := 0, k := 0, slot := 0, image := (zeros 10 ++ leBytes 2 1 ++ zeros 40 ++ leBytes 4 64 ++ zeros 8 ++ leBytes 4 200 ++ leBytes 4 1 ++ leBytes 4 1 ++ zeros 20 ++ zeros 200), learned := false, cols := [{ station := 1, xs := [0], blocks := [] }], excluded := 0, done := 1, checked := 0, fence := 0, fenceArr := 0, failed := false } : TrnPass) } }) TRN_ABFT_TOL) ((({ ctx := 0, k := 0, slot := 0, image := (zeros 10 ++ leBytes 2 1 ++ zeros 40 ++ leBytes 4 64 ++ zeros 8 ++ leBytes 4 200 ++ leBytes 4 1 ++ leBytes 4 1 ++ zeros 20 ++ zeros 200), learned := false, cols := [{ station := 1, xs := [0], blocks := [] }], excluded := 0, done := 1, checked := 0, fence := 0, fenceArr := 0, failed := false } : TrnPass).tiles[0]?).get (by decide +kernel))).2, _, _, _, ⟨rfl, rfl, rfl⟩, by decide, (Option.some_get _).symm, by decide +kernel, rfl, rfl, rfl, rfl⟩,
   ⟨1, 0, (wrs [(TRN_SUB_ID 0, 0x80000005)] (holding ({ ctx0 1 false with epochs := [({ ep0 0 with endCut := some 1, gate := true, sub := 5, trn := .pending } : Epoch)] }) tray)), 0, { ctx0 1 false with epochs := [({ ep0 0 with endCut := some 1, gate := true, sub := 5, trn := .pending } : Epoch)] }, _, _, ⟨rfl, rfl, rfl⟩, by decide +kernel, rfl, by decide, rfl⟩⟩

/-- States and operands that meet the hypotheses of `Obligations.EnvelopeEventsComplete`, for each of its clauses. -/
theorem witness_EnvelopeEventsComplete :
    (∃ (bs : List Byte) (s : State) (e : _) (k : _) (t : _) (time : _) (i : _) (u : _), Running s ∧
      s.pil.booted = true ∧
      envelopeOf bs = some e ∧
      e.reply = false ∧
      s.stationValid = true ∧
      e.station = s.station ∧
      s.keySlot e.keyId = some k ∧
      computeTag (s.key k) e.body s = (e.tag, t) ∧
      e.time = some time ∧
      t.getB DAT_STATE 4 = true ∧
      (timeDiff time t.now).natAbs ≤ t.replayWin ∧
      t.replaySlot e.keyId e.origin time = some (some i) ∧
      t.rd PIL_REMOTE < 8 ∧
      u = ({ t with pil := { t.pil with replay := Tbl.set t.pil.replay i ⟨e.keyId, e.origin, time⟩ } } : State)) ∧
    (∃ (bs : List Byte) (s : State), Running s ∧
      s.pil.booted = true ∧
      envelopeOf bs = none) ∧
    (∃ (bs : List Byte) (s : State) (e : _), Running s ∧
      s.pil.booted = true ∧
      envelopeOf bs = some e ∧
      e.reply = false ∧
      s.stationValid = true ∧
      e.station = s.station ∧
      s.keySlot e.keyId = none) ∧
    (∃ (bs : List Byte) (s : State) (e : _) (k : _) (tag : _) (t : _), Running s ∧
      s.pil.booted = true ∧
      envelopeOf bs = some e ∧
      e.reply = false ∧
      s.stationValid = true ∧
      e.station = s.station ∧
      s.keySlot e.keyId = some k ∧
      computeTag (s.key k) e.body s = (tag, t) ∧
      tag ≠ e.tag) ∧
    (∃ (bs : List Byte) (s : State) (e : _) (k : _) (tag : _) (t : _), Running s ∧
      s.pil.booted = true ∧
      envelopeOf bs = some e ∧
      e.reply = false ∧
      s.stationValid = true ∧
      e.station = s.station ∧
      s.keySlot e.keyId = some k ∧
      computeTag (s.key k) e.body s = (tag, t) ∧
      tag = e.tag ∧
      (∀ time, e.time = some time → t.getB DAT_STATE 4 = false ∨ t.replayWin < (timeDiff time t.now).natAbs ∨ t.replaySlot e.keyId e.origin time = none)) ∧
    (∃ (bs : List Byte) (s : State) (e : _) (k : _) (tag : _) (t : _) (time : _) (x : _), Running s ∧
      s.pil.booted = true ∧
      envelopeOf bs = some e ∧
      e.reply = false ∧
      s.stationValid = true ∧
      e.station = s.station ∧
      s.keySlot e.keyId = some k ∧
      computeTag (s.key k) e.body s = (tag, t) ∧
      tag = e.tag ∧
      e.time = some time ∧
      t.getB DAT_STATE 4 = true ∧
      (timeDiff time t.now).natAbs ≤ t.replayWin ∧
      t.replaySlot e.keyId e.origin time = some x ∧
      (x = none ∨ 8 ≤ t.rd PIL_REMOTE)) ∧
    (∃ (bs : List Byte) (s : State) (e : _) (i : _), Running s ∧
      s.isTray = true ∧
      s.pil.booted = true ∧
      envelopeOf bs = some e ∧
      e.reply = false ∧
      (s.stationValid = true → e.station ≠ s.station) ∧
      stTray e.station = stTray s.station ∧
      stNames e.station = true ∧
      stPos e.station ≠ 0 ∧
      Tbl.lowestFree s.pil.relay 64 = some i) ∧
    (∃ (bs : List Byte) (s : State) (e : _) (x : _) (k : _) (t : _), Running s ∧
      s.pil.booted = true ∧
      envelopeOf bs = some e ∧
      e.reply = true ∧
      s.issuedFor e.origin (fld (wAt e.words 1) 0 16) (fld (wAt e.words 1) 16 8) e.station = some x ∧
      s.keySlot e.keyId = some k ∧
      computeTag (s.key k) e.body s = (e.tag, t) ∧
      fld (wAt e.words 0) 0 8 ≠ stAccepted) ∧
    (∃ (bs : List Byte) (s : State) (e : _) (i : _) (x : _), Running s ∧
      s.pil.booted = true ∧
      envelopeOf bs = some e ∧
      e.reply = true ∧
      s.issuedFor e.origin (fld (wAt e.words 1) 0 16) (fld (wAt e.words 1) 16 8) e.station = none ∧
      s.relayFor e = some (i, x)) ∧
    (∃ (i : _) (s : State) (x : _) (t : _), Running s ∧
      Tbl.get? s.pil.relay i = some x ∧
      x.held = true ∧
      t = ({ s with pil := { s.pil with relay := Tbl.erase s.pil.relay i } } : State)) ∧
    (∃ (n : _) (s : State) (j : _) (st : _) (res : _), Running s ∧
      s.job? n = some j ∧
      j.phase = .done st res) :=
  ⟨⟨((leBytes 3 1 ++ [0] ++ leBytes 4 0 ++ leBytes 4 0 ++ timeBytes 0 ++ leBytes 4 0x20000 ++ leBytes 4 7) ++ (hmac (zeros 32) (leBytes 3 1 ++ [0] ++ leBytes 4 0 ++ leBytes 4 0 ++ timeBytes 0 ++ leBytes 4 0x20000 ++ leBytes 4 7)).take 16), (wrs [(CHN_STATION, 0x80000001), (PIL_KEY_ID 0, 0x80000000), (DAT_STATE, 16)] leaf), ((envelopeOf ((leBytes 3 1 ++ [0] ++ leBytes 4 0 ++ leBytes 4 0 ++ timeBytes 0 ++ leBytes 4 0x20000 ++ leBytes 4 7) ++ (hmac (zeros 32) (leBytes 3 1 ++ [0] ++ leBytes 4 0 ++ leBytes 4 0 ++ timeBytes 0 ++ leBytes 4 0x20000 ++ leBytes 4 7)).take 16)).get (by decide +kernel)), 0, _, 0, 0, _, ⟨rfl, rfl, rfl⟩, by decide +kernel, (Option.some_get _).symm, by decide +kernel, by decide +kernel, by decide +kernel, by decide +kernel, Prod.ext (by decide +kernel) rfl, by decide +kernel, by decide +kernel, by decide +kernel, by decide +kernel, by decide +kernel, rfl⟩,
   ⟨[], leaf, ⟨rfl, rfl, rfl⟩, by decide, by decide⟩,
   ⟨((leBytes 3 1 ++ [0] ++ leBytes 4 0 ++ leBytes 4 0 ++ timeBytes 0 ++ leBytes 4 0x20000 ++ leBytes 4 7) ++ (hmac (zeros 32) (leBytes 3 1 ++ [0] ++ leBytes 4 0 ++ leBytes 4 0 ++ timeBytes 0 ++ leBytes 4 0x20000 ++ leBytes 4 7)).take 16), wrs [(CHN_STATION, 0x80000001), (DAT_STATE, 16)] leaf, ((envelopeOf ((leBytes 3 1 ++ [0] ++ leBytes 4 0 ++ leBytes 4 0 ++ timeBytes 0 ++ leBytes 4 0x20000 ++ leBytes 4 7) ++ (hmac (zeros 32) (leBytes 3 1 ++ [0] ++ leBytes 4 0 ++ leBytes 4 0 ++ timeBytes 0 ++ leBytes 4 0x20000 ++ leBytes 4 7)).take 16)).get (by decide +kernel)), ⟨rfl, rfl, rfl⟩, by decide +kernel, (Option.some_get _).symm, by decide +kernel, by decide +kernel, by decide +kernel, by decide +kernel⟩,
   ⟨((leBytes 3 1 ++ [0] ++ leBytes 4 0 ++ leBytes 4 0 ++ timeBytes 0 ++ leBytes 4 0x20000 ++ leBytes 4 7) ++ zeros 16), (wrs [(CHN_STATION, 0x80000001), (PIL_KEY_ID 0, 0x80000000), (DAT_STATE, 16)] leaf), ((envelopeOf ((leBytes 3 1 ++ [0] ++ leBytes 4 0 ++ leBytes 4 0 ++ timeBytes 0 ++ leBytes 4 0x20000 ++ leBytes 4 7) ++ zeros 16)).get (by decide +kernel)), 0, _, _, ⟨rfl, rfl, rfl⟩, by decide +kernel, (Option.some_get _).symm, by decide +kernel, by decide +kernel, by decide +kernel, by decide +kernel, Prod.ext rfl rfl, by decide +kernel⟩,
   ⟨((leBytes 3 1 ++ [0] ++ leBytes 4 0 ++ leBytes 4 0 ++ timeBytes 0 ++ leBytes 4 0x20000 ++ leBytes 4 7) ++ (hmac (zeros 32) (leBytes 3 1 ++ [0] ++ leBytes 4 0 ++ leBytes 4 0 ++ timeBytes 0 ++ leBytes 4 0x20000 ++ leBytes 4 7)).take 16), (wrs [(CHN_STATION, 0x80000001), (PIL_KEY_ID 0, 0x80000000)] leaf), ((envelopeOf ((leBytes 3 1 ++ [0] ++ leBytes 4 0 ++ leBytes 4 0 ++ timeBytes 0 ++ leBytes 4 0x20000 ++ leBytes 4 7) ++ (hmac (zeros 32) (leBytes 3 1 ++ [0] ++ leBytes 4 0 ++ leBytes 4 0 ++ timeBytes 0 ++ leBytes 4 0x20000 ++ leBytes 4 7)).take 16)).get (by decide +kernel)), 0, _, _, ⟨rfl, rfl, rfl⟩, by decide +kernel, (Option.some_get _).symm, by decide +kernel, by decide +kernel, by decide +kernel, by decide +kernel, Prod.ext rfl rfl, by decide +kernel, fun time h => .inl (by decide +kernel)⟩,
   ⟨((leBytes 3 1 ++ [0] ++ leBytes 4 0 ++ leBytes 4 0 ++ timeBytes 0 ++ leBytes 4 0x20000 ++ leBytes 4 7) ++ (hmac (zeros 32) (leBytes 3 1 ++ [0] ++ leBytes 4 0 ++ leBytes 4 0 ++ timeBytes 0 ++ leBytes 4 0x20000 ++ leBytes 4 7)).take 16), (wrs [(CHN_STATION, 0x80000001), (PIL_KEY_ID 0, 0x80000000), (DAT_STATE, 16), (PIL_REMOTE, 8)] leaf), ((envelopeOf ((leBytes 3 1 ++ [0] ++ leBytes 4 0 ++ leBytes 4 0 ++ timeBytes 0 ++ leBytes 4 0x20000 ++ leBytes 4 7) ++ (hmac (zeros 32) (leBytes 3 1 ++ [0] ++ leBytes 4 0 ++ leBytes 4 0 ++ timeBytes 0 ++ leBytes 4 0x20000 ++ leBytes 4 7)).take 16)).get (by decide +kernel)), 0, _, _, 0, some 0, ⟨rfl, rfl, rfl⟩, by decide +kernel, (Option.some_get _).symm, by decide +kernel, by decide +kernel, by decide +kernel, by decide +kernel, Prod.ext rfl rfl, by decide +kernel, by decide +kernel, by decide +kernel, by decide +kernel, by decide +kernel, by decide +kernel⟩,
   ⟨((leBytes 3 1 ++ [0] ++ leBytes 4 0 ++ leBytes 4 0 ++ timeBytes 0 ++ leBytes 4 0x20000 ++ leBytes 4 7) ++ (hmac (zeros 32) (leBytes 3 1 ++ [0] ++ leBytes 4 0 ++ leBytes 4 0 ++ timeBytes 0 ++ leBytes 4 0x20000 ++ leBytes 4 7)).take 16), tray, ((envelopeOf ((leBytes 3 1 ++ [0] ++ leBytes 4 0 ++ leBytes 4 0 ++ timeBytes 0 ++ leBytes 4 0x20000 ++ leBytes 4 7) ++ (hmac (zeros 32) (leBytes 3 1 ++ [0] ++ leBytes 4 0 ++ leBytes 4 0 ++ timeBytes 0 ++ leBytes 4 0x20000 ++ leBytes 4 7)).take 16)).get (by decide +kernel)), 0, ⟨rfl, rfl, rfl⟩, by decide, by decide, (Option.some_get _).symm, by decide +kernel, by decide +kernel, by decide +kernel, by decide +kernel, by decide +kernel, by decide +kernel⟩,
   ⟨((leBytes 3 1 ++ [1] ++ leBytes 4 0 ++ leBytes 4 1 ++ timeBytes 0 ++ leBytes 4 0x20000 ++ leBytes 4 7) ++ (hmac (zeros 32) (leBytes 3 1 ++ [1] ++ leBytes 4 0 ++ leBytes 4 1 ++ timeBytes 0 ++ leBytes 4 0x20000 ++ leBytes 4 7)).take 16), ({ (wrs [(CHN_STATION, 0x80000001), (PIL_KEY_ID 0, 0x80000000), (DAT_STATE, 16)] leaf) with pil := { State.pil (wrs [(CHN_STATION, 0x80000001), (PIL_KEY_ID 0, 0x80000000), (DAT_STATE, 16)] leaf) with issued := [({ tag := 7, opcode := 0, station := 1, purpose := .free 1 5 } : Issued)] } } : State), ((envelopeOf ((leBytes 3 1 ++ [1] ++ leBytes 4 0 ++ leBytes 4 1 ++ timeBytes 0 ++ leBytes 4 0x20000 ++ leBytes 4 7) ++ (hmac (zeros 32) (leBytes 3 1 ++ [1] ++ leBytes 4 0 ++ leBytes 4 1 ++ timeBytes 0 ++ leBytes 4 0x20000 ++ leBytes 4 7)).take 16)).get (by decide +kernel)), ({ tag := 7, opcode := 0, station := 1, purpose := .free 1 5 } : Issued), 0, _, ⟨rfl, rfl, rfl⟩, by decide +kernel, (Option.some_get _).symm, by decide +kernel, by decide +kernel, by decide +kernel, Prod.ext (by decide +kernel) rfl, by decide +kernel⟩,
   ⟨((leBytes 3 1 ++ [1] ++ leBytes 4 0 ++ leBytes 4 9 ++ timeBytes 0 ++ leBytes 4 0x20000 ++ leBytes 4 7) ++ (hmac (zeros 32) (leBytes 3 1 ++ [1] ++ leBytes 4 0 ++ leBytes 4 9 ++ timeBytes 0 ++ leBytes 4 0x20000 ++ leBytes 4 7)).take 16), { leaf with pil := { leaf.pil with relay := [(0, ({ station := 1, origin := 9, tag := 7, source := .own, held := false } : RelayEnt))] } }, ((envelopeOf ((leBytes 3 1 ++ [1] ++ leBytes 4 0 ++ leBytes 4 9 ++ timeBytes 0 ++ leBytes 4 0x20000 ++ leBytes 4 7) ++ (hmac (zeros 32) (leBytes 3 1 ++ [1] ++ leBytes 4 0 ++ leBytes 4 9 ++ timeBytes 0 ++ leBytes 4 0x20000 ++ leBytes 4 7)).take 16)).get (by decide +kernel)), 0, ({ station := 1, origin := 9, tag := 7, source := .own, held := false } : RelayEnt), ⟨rfl, rfl, rfl⟩, by decide +kernel, (Option.some_get _).symm, by decide +kernel, by decide +kernel, by decide +kernel⟩,
   ⟨0, { leaf with pil := { leaf.pil with relay := [(0, ({ station := 1, origin := 9, tag := 7, source := .own, held := true } : RelayEnt))] } }, ({ station := 1, origin := 9, tag := 7, source := .own, held := true } : RelayEnt), _, ⟨rfl, rfl, rfl⟩, rfl, by decide, rfl⟩,
   ⟨3, { leaf with pil := { leaf.pil with jobs := [({ id := 3, opcode := 0, cmd := cmd [], async := true, phase := .done 0 [], data := .plain } : Job)] } }, ({ id := 3, opcode := 0, cmd := cmd [], async := true, phase := .done 0 [], data := .plain } : Job), 0, [], ⟨rfl, rfl, rfl⟩, by decide, by decide⟩⟩

/-- States and operands that meet the hypotheses of `Obligations.RulingEventsComplete`, for its first clauses. -/
theorem witness_RulingEventsComplete :
    (∃ (parcel : _) (bs : List Byte) (s : State) (e : _) (r : _), Running s ∧
      rulingOf parcel bs = (e, r)) ∧
    (∃ (a : RulingAck) (s : State) (x : _), Running s ∧
      s.seen? a.issuer a.no = some x ∧
      (∃ w ∈ x.waits, w.1 = a.src)) ∧
    (∃ (issuer : _) (no : _) (child : _) (s : State) (x : _) (w : _), Running s ∧
      s.seen? issuer no = some x ∧
      x.waits.find? (fun w => w.1 == child) = some w ∧
      w.2 < 3) ∧
    (∃ (issuer : _) (no : _) (child : _) (s : State) (x : _) (w : _), Running s ∧
      s.seen? issuer no = some x ∧
      x.waits.find? (fun w => w.1 == child) = some w ∧
      3 ≤ w.2) ∧
    (∃ (issuer : _) (no : _) (s : State) (r : _), Running s ∧
      s.par.pend.find? (fun r => r.issuer == issuer && r.no == no) = some r ∧
      s.rulingDue r = true ∧
      r.atEpoch = true) ∧
    (∃ (issuer : _) (no : _) (s : State) (r : _), Running s ∧
      s.par.pend.find? (fun r => r.issuer == issuer && r.no == no) = some r ∧
      s.rulingDue r = true ∧
      r.atEpoch = false) ∧
    (∃ (p : ResvPart) (s : State) (k : _) (time : _) (t : _) (i : _) (u : _), Running s ∧
      s.pil.booted = true ∧
      s.keySlot p.env.keyId = some k ∧
      p.env.time = some time ∧
      computeTag (s.key k) (envBody s.station false p.env.keyId p.env.origin time (partWords p)) s = (p.env.mac, t) ∧
      t.getB DAT_STATE 4 = true ∧
      (timeDiff time t.now).natAbs ≤ t.replayWin ∧
      t.replaySlot p.env.keyId p.env.origin time = some (some i) ∧
      t.rd PIL_REMOTE < 8 ∧
      u = ((({ t with pil := { t.pil with replay := Tbl.set t.pil.replay i ⟨p.env.keyId, p.env.origin, time⟩ } } : State).inc PIL_REMOTE 1).inc PIL_CMDS 1) ∧
      u.getF (PIL_KEY_ID k) 28 2 < 2) ∧
    (∃ (p : ResvPart) (s : State) (k : _) (time : _) (t : _) (i : _) (u : _), Running s ∧
      s.pil.booted = true ∧
      s.keySlot p.env.keyId = some k ∧
      p.env.time = some time ∧
      computeTag (s.key k) (envBody s.station false p.env.keyId p.env.origin time (partWords p)) s = (p.env.mac, t) ∧
      t.getB DAT_STATE 4 = true ∧
      (timeDiff time t.now).natAbs ≤ t.replayWin ∧
      t.replaySlot p.env.keyId p.env.origin time = some (some i) ∧
      t.rd PIL_REMOTE < 8 ∧
      u = ((({ t with pil := { t.pil with replay := Tbl.set t.pil.replay i ⟨p.env.keyId, p.env.origin, time⟩ } } : State).inc PIL_REMOTE 1).inc PIL_CMDS 1) ∧
      2 ≤ u.getF (PIL_KEY_ID k) 28 2 ∧
      PilotFree u) ∧
    (∃ (p : ResvPart) (s : State) (k : _) (time : _) (t : _) (i : _) (u : _), Running s ∧
      s.pil.booted = true ∧
      s.keySlot p.env.keyId = some k ∧
      p.env.time = some time ∧
      computeTag (s.key k) (envBody s.station false p.env.keyId p.env.origin time (partWords p)) s = (p.env.mac, t) ∧
      t.getB DAT_STATE 4 = true ∧
      (timeDiff time t.now).natAbs ≤ t.replayWin ∧
      t.replaySlot p.env.keyId p.env.origin time = some (some i) ∧
      t.rd PIL_REMOTE < 8 ∧
      u = ((({ t with pil := { t.pil with replay := Tbl.set t.pil.replay i ⟨p.env.keyId, p.env.origin, time⟩ } } : State).inc PIL_REMOTE 1).inc PIL_CMDS 1) ∧
      2 ≤ u.getF (PIL_KEY_ID k) 28 2 ∧
      (u.pilotHeld = true ∨ u.pil.launchQ ≠ [])) ∧
    (∃ (e : EnvSeal) (g : _) (parcel : _) (level : _) (trays : List Nat) (s : State) (k : _) (time : _) (t : _) (i : _) (u : _), Running s ∧
      s.pil.booted = true ∧
      s.keySlot e.keyId = some k ∧
      e.time = some time ∧
      computeTag (s.key k) (envBody s.station false e.keyId e.origin time (askWords g parcel level trays)) s = (e.mac, t) ∧
      t.getB DAT_STATE 4 = true ∧
      (timeDiff time t.now).natAbs ≤ t.replayWin ∧
      t.replaySlot e.keyId e.origin time = some (some i) ∧
      t.rd PIL_REMOTE < 8 ∧
      u = ((({ t with pil := { t.pil with replay := Tbl.set t.pil.replay i ⟨e.keyId, e.origin, time⟩ } } : State).inc PIL_REMOTE 1).inc PIL_CMDS 1) ∧
      2 ≤ u.getF (PIL_KEY_ID k) 28 2 ∧
      PilotFree u) ∧
    (∃ (e : EnvSeal) (g : _) (parcel : _) (level : _) (trays : List Nat) (s : State) (k : _) (time : _) (t : _) (i : _) (u : _), Running s ∧
      s.pil.booted = true ∧
      s.keySlot e.keyId = some k ∧
      e.time = some time ∧
      computeTag (s.key k) (envBody s.station false e.keyId e.origin time (askWords g parcel level trays)) s = (e.mac, t) ∧
      t.getB DAT_STATE 4 = true ∧
      (timeDiff time t.now).natAbs ≤ t.replayWin ∧
      t.replaySlot e.keyId e.origin time = some (some i) ∧
      t.rd PIL_REMOTE < 8 ∧
      u = ((({ t with pil := { t.pil with replay := Tbl.set t.pil.replay i ⟨e.keyId, e.origin, time⟩ } } : State).inc PIL_REMOTE 1).inc PIL_CMDS 1) ∧
      2 ≤ u.getF (PIL_KEY_ID k) 28 2 ∧
      (u.pilotHeld = true ∨ u.pil.launchQ ≠ [])) ∧
    (∃ (p : ResvPart) (s : State), Running s ∧
      s.pil.booted = true ∧
      s.keySlot p.env.keyId = none) :=
  ⟨⟨1, zeros 28, tray, _, _, ⟨rfl, rfl, rfl⟩, rfl⟩,
   ⟨({ src := 5, issuer := 2, no := 1, applied := 1, refused := 0, unreached := 0, lowest := none } : RulingAck), { tray with par := { tray.par with seen := [({ ruling := ({ no := 1, kind := 0, atEpoch := false, fleet := false, effect := 0, issuer := 2, level := 0, parcel := 1, body := [] } : Ruling), ackTo := .nobody, waits := [(5, 0)], applied := 0, refused := 0, unreached := 0, lowest := none, acked := false } : RulingSeen)] } }, ({ ruling := ({ no := 1, kind := 0, atEpoch := false, fleet := false, effect := 0, issuer := 2, level := 0, parcel := 1, body := [] } : Ruling), ackTo := .nobody, waits := [(5, 0)], applied := 0, refused := 0, unreached := 0, lowest := none, acked := false } : RulingSeen), ⟨rfl, rfl, rfl⟩, by decide, ⟨(5, 0), by decide, rfl⟩⟩,
   ⟨2, 1, 5, { tray with par := { tray.par with seen := [({ ruling := ({ no := 1, kind := 0, atEpoch := false, fleet := false, effect := 0, issuer := 2, level := 0, parcel := 1, body := [] } : Ruling), ackTo := .nobody, waits := [(5, 0)], applied := 0, refused := 0, unreached := 0, lowest := none, acked := false } : RulingSeen)] } }, ({ ruling := ({ no := 1, kind := 0, atEpoch := false, fleet := false, effect := 0, issuer := 2, level := 0, parcel := 1, body := [] } : Ruling), ackTo := .nobody, waits := [(5, 0)], applied := 0, refused := 0, unreached := 0, lowest := none, acked := false } : RulingSeen), (5, 0), ⟨rfl, rfl, rfl⟩, rfl, by decide +kernel, by decide⟩,
   ⟨2, 1, 5, { tray with par := { tray.par with seen := [({ ruling := ({ no := 1, kind := 0, atEpoch := false, fleet := false, effect := 0, issuer := 2, level := 0, parcel := 1, body := [] } : Ruling), ackTo := .nobody, waits := [(5, 3)], applied := 0, refused := 0, unreached := 0, lowest := none, acked := false } : RulingSeen)] } }, ({ ruling := ({ no := 1, kind := 0, atEpoch := false, fleet := false, effect := 0, issuer := 2, level := 0, parcel := 1, body := [] } : Ruling), ackTo := .nobody, waits := [(5, 3)], applied := 0, refused := 0, unreached := 0, lowest := none, acked := false } : RulingSeen), (5, 3), ⟨rfl, rfl, rfl⟩, rfl, by decide +kernel, by decide⟩,
   ⟨2, 1, (let s := holding { ctx0 0 true with next := 1 } leaf; { s with par := { s.par with pend := [({ no := 1, kind := 0, atEpoch := true, fleet := false, effect := 0, issuer := 2, level := 0, parcel := 1, body := [] } : Ruling)] } } : State), ({ no := 1, kind := 0, atEpoch := true, fleet := false, effect := 0, issuer := 2, level := 0, parcel := 1, body := [] } : Ruling), ⟨rfl, rfl, rfl⟩, by decide +kernel, by decide +kernel, by decide⟩,
   ⟨2, 1, { tray with par := { tray.par with pend := [({ no := 1, kind := 0, atEpoch := false, fleet := false, effect := 0, issuer := 2, level := 0, parcel := 1, body := [] } : Ruling)] } }, ({ no := 1, kind := 0, atEpoch := false, fleet := false, effect := 0, issuer := 2, level := 0, parcel := 1, body := [] } : Ruling), ⟨rfl, rfl, rfl⟩, by decide +kernel, by decide +kernel, by decide⟩,
   ⟨({ env := { keyId := 0, origin := 0, time := some 0, mac := ((hmac (zeros 32) (envBody 1 false 0 0 0 (partWords ({ env := { keyId := 0, origin := 0, time := some 0, mac := [] }, tag := 0, via := .own, parcel := 1, level := 0, period := 100, prio := 0, probes := [], members := [] } : ResvPart)))).take 16) }, tag := 0, via := .own, parcel := 1, level := 0, period := 100, prio := 0, probes := [], members := [] } : ResvPart), (wrs [(CHN_STATION, 0x80000001), (PIL_KEY_ID 0, 2415919104), (DAT_STATE, 16)] leaf), 0, 0, _, 0, _, ⟨rfl, rfl, rfl⟩, by decide +kernel, by decide +kernel, rfl, Prod.ext (by decide +kernel) rfl, by decide +kernel, by decide +kernel, by decide +kernel, by decide +kernel, rfl, by decide +kernel⟩,
   ⟨({ env := { keyId := 0, origin := 0, time := some 0, mac := ((hmac (zeros 32) (envBody 1 false 0 0 0 (partWords ({ env := { keyId := 0, origin := 0, time := some 0, mac := [] }, tag := 0, via := .own, parcel := 1, level := 0, period := 100, prio := 0, probes := [], members := [] } : ResvPart)))).take 16) }, tag := 0, via := .own, parcel := 1, level := 0, period := 100, prio := 0, probes := [], members := [] } : ResvPart), (wrs [(CHN_STATION, 0x80000001), (PIL_KEY_ID 0, 2684354560), (DAT_STATE, 16)] leaf), 0, 0, _, 0, _, ⟨rfl, rfl, rfl⟩, by decide +kernel, by decide +kernel, rfl, Prod.ext (by decide +kernel) rfl, by decide +kernel, by decide +kernel, by decide +kernel, by decide +kernel, rfl, by decide +kernel, ⟨by decide +kernel, by decide +kernel⟩⟩,
   ⟨({ env := { keyId := 0, origin := 0, time := some 0, mac := ((hmac (zeros 32) (envBody 1 false 0 0 0 (partWords ({ env := { keyId := 0, origin := 0, time := some 0, mac := [] }, tag := 0, via := .own, parcel := 1, level := 0, period := 100, prio := 0, probes := [], members := [] } : ResvPart)))).take 16) }, tag := 0, via := .own, parcel := 1, level := 0, period := 100, prio := 0, probes := [], members := [] } : ResvPart), (wrs [(CHN_STATION, 0x80000001), (PIL_KEY_ID 0, 2684354560), (DAT_STATE, 16)] { leaf with pil := { leaf.pil with launchQ := [.cmd 0 (cmd [])] } }), 0, 0, _, 0, _, ⟨rfl, rfl, rfl⟩, by decide +kernel, by decide +kernel, rfl, Prod.ext (by decide +kernel) rfl, by decide +kernel, by decide +kernel, by decide +kernel, by decide +kernel, rfl, by decide +kernel, by decide +kernel⟩,
   ⟨({ keyId := 0, origin := 0, time := some 0, mac := ((hmac (zeros 32) (envBody 1 false 0 0 0 (askWords 7 1 1 [3]))).take 16) } : EnvSeal), 7, 1, 1, [3], (wrs [(CHN_STATION, 0x80000001), (PIL_KEY_ID 0, 2684354560), (DAT_STATE, 16)] leaf), 0, 0, _, 0, _, ⟨rfl, rfl, rfl⟩, by decide +kernel, by decide +kernel, rfl, Prod.ext (by decide +kernel) rfl, by decide +kernel, by decide +kernel, by decide +kernel, by decide +kernel, rfl, by decide +kernel, ⟨by decide +kernel, by decide +kernel⟩⟩,
   ⟨({ keyId := 0, origin := 0, time := some 0, mac := ((hmac (zeros 32) (envBody 1 false 0 0 0 (askWords 7 1 1 [3]))).take 16) } : EnvSeal), 7, 1, 1, [3], (wrs [(CHN_STATION, 0x80000001), (PIL_KEY_ID 0, 2684354560), (DAT_STATE, 16)] { leaf with pil := { leaf.pil with launchQ := [.cmd 0 (cmd [])] } }), 0, 0, _, 0, _, ⟨rfl, rfl, rfl⟩, by decide +kernel, by decide +kernel, rfl, Prod.ext (by decide +kernel) rfl, by decide +kernel, by decide +kernel, by decide +kernel, by decide +kernel, rfl, by decide +kernel, by decide +kernel⟩,
   ⟨({ env := { keyId := 0, origin := 0, time := some 0, mac := ((hmac (zeros 32) (envBody 1 false 0 0 0 (partWords ({ env := { keyId := 0, origin := 0, time := some 0, mac := [] }, tag := 0, via := .own, parcel := 1, level := 0, period := 100, prio := 0, probes := [], members := [] } : ResvPart)))).take 16) }, tag := 0, via := .own, parcel := 1, level := 0, period := 100, prio := 0, probes := [], members := [] } : ResvPart), leaf, ⟨rfl, rfl, rfl⟩, by decide +kernel, by decide +kernel⟩⟩

/-- States and operands that meet the hypotheses of `Obligations.RulingEventsComplete`, for further clauses. -/
theorem witness_RulingEventsComplete_2 :
    (∃ (e : EnvSeal) (g : _) (st : _) (parcel : _) (trays : List Nat) (s : State) (x : _) (k : _) (t : _) (u : _) (c : _), Running s ∧
      s.issuedFor e.origin g 0x11 st = some x ∧
      s.keySlot e.keyId = some k ∧
      u = ({ t with pil := { t.pil with issued := t.pil.issued.filter (fun y => y.tag != x.tag) } } : State) ∧
      u.par.claims.find? (fun c => c.parcel == parcel && x.purpose == .claim parcel st && c.waits.any (fun w => w.1 == st)) = some c ∧
      computeTag (s.key k) (envBody st true e.keyId e.origin (e.time.getD 0) (claimWords g stOk trays)) s = (e.mac, t)) ∧
    (∃ (e : EnvSeal) (g : _) (st : _) (parcel : _) (gone : _) (s : State) (x : _) (k : _) (t : _) (u : _) (c : _), Running s ∧
      s.issuedFor e.origin g 0x11 st = some x ∧
      s.keySlot e.keyId = some k ∧
      u = ({ t with pil := { t.pil with issued := t.pil.issued.filter (fun y => y.tag != x.tag) } } : State) ∧
      u.par.claims.find? (fun c => c.parcel == parcel && x.purpose == .claim parcel st && c.waits.any (fun w => w.1 == st)) = some c ∧
      computeTag (s.key k) (envBody st true e.keyId e.origin (e.time.getD 0) (claimWords g stTimeout [gone])) s = (e.mac, t)) ∧
    (∃ (e : EnvSeal) (g : _) (st : _) (s : State), Running s ∧
      s.issuedFor e.origin g 0x11 st = none) ∧
    (∃ (e : EnvSeal) (g : _) (st : _) (s : State), Running s ∧
      s.issuedFor e.origin g 0x11 st = none) ∧
    (∃ (parcel : _) (level : _) (s : State) (n : _) (c : _) (silent : _) (v : _), Running s ∧
      s.claim? parcel level = none ∧
      s.ctxAt parcel level = some (n, c) ∧
      silent = c.parts.filter (fun p => !p.own && p.answer.isNone) ∧
      v = s.each (silent.filter (fun p => decide (p.resends < 3))) (fun p t =>
      let (tag, u) := issueTag 0x11 p.station (.reserve parcel p.station) t
      sendPart c p.station tag u)) ∧
    (∃ (parcel : _) (s : State) (n : _) (c : _), Running s ∧
      s.ctxPub parcel = some (n, c) ∧
      c.phase = .reserved ∧
      c.resvOk = true) ∧
    (∃ (s : State), Running s) :=
  ⟨⟨({ keyId := 0, origin := 1, time := some 0, mac := ((hmac (zeros 32) (envBody 5 true 0 1 0 (claimWords 7 stOk [3]))).take 16) } : EnvSeal), 7, 5, 1, [3], (wrs [(CHN_STATION, 0x80000001), (PIL_KEY_ID 0, 2684354560), (DAT_STATE, 16)] { leaf with pil := { leaf.pil with issued := [({ tag := 7, opcode := 0x11, station := 5, purpose := .claim 1 5 } : Issued)] }, par := { leaf.par with claims := [({ parcel := 1, level := 1, asker := .nobody, period := 100, prio := 0, probes := [], members := [], waits := [(5, 0)], answers := [], lost := [], only := false } : ClaimSt)] } }), ({ tag := 7, opcode := 0x11, station := 5, purpose := .claim 1 5 } : Issued), 0, _, _, ({ parcel := 1, level := 1, asker := .nobody, period := 100, prio := 0, probes := [], members := [], waits := [(5, 0)], answers := [], lost := [], only := false } : ClaimSt), ⟨rfl, rfl, rfl⟩, by decide +kernel, by decide +kernel, rfl, by decide +kernel, Prod.ext (by decide +kernel) rfl⟩,
   ⟨({ keyId := 0, origin := 1, time := some 0, mac := ((hmac (zeros 32) (envBody 5 true 0 1 0 (claimWords 7 stTimeout [3]))).take 16) } : EnvSeal), 7, 5, 1, 3, (wrs [(CHN_STATION, 0x80000001), (PIL_KEY_ID 0, 2684354560), (DAT_STATE, 16)] { leaf with pil := { leaf.pil with issued := [({ tag := 7, opcode := 0x11, station := 5, purpose := .claim 1 5 } : Issued)] }, par := { leaf.par with claims := [({ parcel := 1, level := 1, asker := .nobody, period := 100, prio := 0, probes := [], members := [], waits := [(5, 0)], answers := [], lost := [], only := false } : ClaimSt)] } }), ({ tag := 7, opcode := 0x11, station := 5, purpose := .claim 1 5 } : Issued), 0, _, _, ({ parcel := 1, level := 1, asker := .nobody, period := 100, prio := 0, probes := [], members := [], waits := [(5, 0)], answers := [], lost := [], only := false } : ClaimSt), ⟨rfl, rfl, rfl⟩, by decide +kernel, by decide +kernel, rfl, by decide +kernel, Prod.ext (by decide +kernel) rfl⟩,
   ⟨({ keyId := 0, origin := 0, time := some 0, mac := ((hmac (zeros 32) (envBody 1 false 0 0 0 (askWords 7 1 1 [3]))).take 16) } : EnvSeal), 7, 5, leaf, ⟨rfl, rfl, rfl⟩, by decide +kernel⟩,
   ⟨({ keyId := 0, origin := 0, time := some 0, mac := ((hmac (zeros 32) (envBody 1 false 0 0 0 (askWords 7 1 1 [3]))).take 16) } : EnvSeal), 7, 5, leaf, ⟨rfl, rfl, rfl⟩, by decide +kernel⟩,
   ⟨1, 0, holding (ctx0 0 true) leaf, 0, ctx0 0 true, _, _, ⟨rfl, rfl, rfl⟩, by decide, by decide +kernel, rfl, rfl⟩,
   ⟨1, holding ({ ctx0 0 true with phase := .reserved, resvOk := true }) leaf, 0, { ctx0 0 true with phase := .reserved, resvOk := true }, ⟨rfl, rfl, rfl⟩, by decide, by decide, by decide⟩,
   ⟨leaf, ⟨rfl, rfl, rfl⟩⟩⟩

/-- States and operands that meet the hypotheses of `Obligations.TrayEventsComplete`, for its first clauses. -/
theorem witness_TrayEventsComplete :
    (∃ (s : State), Running s ∧
      s.isTray = true) ∧
    (∃ (k : _) (s : State) (e : _) (t : _), Running s ∧
      Tbl.get? s.vrd.hold k = some e ∧
      t = ({ s with vrd := { s.vrd with hold := Tbl.erase s.vrd.hold k } } : State)) ∧
    (∃ (src : _) (parcel : _) (bs : List Byte) (s : State) (rec : _) (t : _), Running s ∧
      s.isTray = true ∧
      rec = seriesRecord src parcel bs ∧
      (s.rd STW_SR_WR + 2 ^ 64 - s.rd STW_SR_RD) % 2 ^ 64 + rec.length ≤ s.getF STW_SR_SIZE 0 28 * 4096 ∧
      s.ownWaits (.series rec) rec.length = false ∧
      t = (storeRing (s.rd STW_SR_BASE) (s.getF STW_SR_SIZE 0 28 * 4096) (s.rd STW_SR_WR) rec s).inc STW_SR_WR rec.length) ∧
    (∃ (src : _) (parcel : _) (bs : List Byte) (s : State) (rec : _), Running s ∧
      s.isTray = true ∧
      rec = seriesRecord src parcel bs ∧
      s.ownWaits (.series rec) rec.length = true) ∧
    (∃ (src : _) (parcel : _) (bs : List Byte) (s : State), Running s ∧
      s.isTray = true ∧
      s.ownWaits (.series (seriesRecord src parcel bs)) (seriesRecord src parcel bs).length = false ∧
      s.getF STW_SR_SIZE 0 28 * 4096 < (s.rd STW_SR_WR + 2 ^ 64 - s.rd STW_SR_RD) % 2 ^ 64 + (seriesRecord src parcel bs).length) ∧
    (∃ (src : _) (bs : List Byte) (s : State) (k : _) (session : _) (off : _) (body : _) (r : _) (w : _), Running s ∧
      s.isTray = true ∧
      k = leAt bs 0 1 ∧
      (k = 1 ∨ k = 2) ∧
      session = (if k = 1 then leAt bs 2 2 else 0xFFFF) ∧
      off = (if k = 1 then leAt bs 4 8 else leAt bs 4 4) ∧
      body = (if k = 1 then bs.drop 16 else bs.drop 12) ∧
      r = leBytes 4 src ++ leBytes 2 session ++ zeros 2 ++ leBytes 8 off ++ leBytes 4 body.length ++ zeros 4 ++ body ∧
      w = r ++ zeros ((8 - r.length % 8) % 8) ∧
      s.ownWaits (.excerpt w) w.length = true) ∧
    (∃ (src : _) (bs : List Byte) (s : State) (k : _) (session : _) (off : _) (body : _) (r : _) (w : _), Running s ∧
      s.isTray = true ∧
      k = leAt bs 0 1 ∧
      (k = 1 ∨ k = 2) ∧
      session = (if k = 1 then leAt bs 2 2 else 0xFFFF) ∧
      off = (if k = 1 then leAt bs 4 8 else leAt bs 4 4) ∧
      body = (if k = 1 then bs.drop 16 else bs.drop 12) ∧
      r = leBytes 4 src ++ leBytes 2 session ++ zeros 2 ++ leBytes 8 off ++ leBytes 4 body.length ++ zeros 4 ++ body ∧
      w = r ++ zeros ((8 - r.length % 8) % 8) ∧
      s.ownWaits (.excerpt w) w.length = true) ∧
    (∃ (src : _) (bs : List Byte) (s : State) (k : _) (session : _) (off : _) (body : _) (r : _) (w : _), Running s ∧
      s.isTray = true ∧
      k = leAt bs 0 1 ∧
      (k = 1 ∨ k = 2) ∧
      session = (if k = 1 then leAt bs 2 2 else 0xFFFF) ∧
      off = (if k = 1 then leAt bs 4 8 else leAt bs 4 4) ∧
      body = (if k = 1 then bs.drop 16 else bs.drop 12) ∧
      r = leBytes 4 src ++ leBytes 2 session ++ zeros 2 ++ leBytes 8 off ++ leBytes 4 body.length ++ zeros 4 ++ body ∧
      w = r ++ zeros ((8 - r.length % 8) % 8) ∧
      s.ownWaits (.excerpt w) w.length = false ∧
      (s.rd WAK_XR_WR + 2 ^ 64 - s.rd WAK_XR_RD) % 2 ^ 64 + w.length ≤ s.getF WAK_XR_SIZE 0 28 * 4096) ∧
    (∃ (src : _) (bs : List Byte) (s : State) (k : _) (session : _) (off : _) (body : _) (r : _) (w : _), Running s ∧
      s.isTray = true ∧
      k = leAt bs 0 1 ∧
      (k = 1 ∨ k = 2) ∧
      session = (if k = 1 then leAt bs 2 2 else 0xFFFF) ∧
      off = (if k = 1 then leAt bs 4 8 else leAt bs 4 4) ∧
      body = (if k = 1 then bs.drop 16 else bs.drop 12) ∧
      r = leBytes 4 src ++ leBytes 2 session ++ zeros 2 ++ leBytes 8 off ++ leBytes 4 body.length ++ zeros 4 ++ body ∧
      w = r ++ zeros ((8 - r.length % 8) % 8) ∧
      s.ownWaits (.excerpt w) w.length = false ∧
      s.getF WAK_XR_SIZE 0 28 * 4096 < (s.rd WAK_XR_WR + 2 ^ 64 - s.rd WAK_XR_RD) % 2 ^ 64 + w.length) ∧
    (∃ (st : _) (bs : List Byte) (age : _) (s : State) (x : _) (t : _), Running s ∧
      s.isTray = true ∧
      s.streamOn st = true ∧
      s.rxEdge age = (x, t) ∧
      leAt bs 0 6 ≠ s.rd LND_MAC) ∧
    (∃ (st : _) (bs : List Byte) (age : _) (s : State) (x : _) (t : _) (off : _), Running s ∧
      s.isTray = true ∧
      s.streamOn st = true ∧
      s.rxEdge age = (x, t) ∧
      leAt bs 0 6 = s.rd LND_MAC ∧
      ptpOffset bs = some off) ∧
    (∃ (st : _) (bs : List Byte) (s : State), Running s ∧
      s.isTray = true ∧
      s.streamOn st = true ∧
      leAt bs 0 6 = s.rd LND_MAC ∧
      ptpOffset bs = none ∧
      bundleOk s bs = true) :=
  ⟨⟨tray, ⟨rfl, rfl, rfl⟩, by decide⟩,
   ⟨7, { tray with vrd := { tray.vrd with hold := [(7, ({ station := 1, unit := 0, kind := 1, rule := 0, count := 2, tEvent := 0, value := 0 } : HoldEnt))] } }, ({ station := 1, unit := 0, kind := 1, rule := 0, count := 2, tEvent := 0, value := 0 } : HoldEnt), _, ⟨rfl, rfl, rfl⟩, by decide, rfl⟩,
   ⟨5, 1, [], wrs [(STW_SR_SIZE, 1)] tray, _, _, ⟨rfl, rfl, rfl⟩, by decide, rfl, by decide +kernel, by decide +kernel, rfl⟩,
   ⟨5, 1, [], wrs [(PWR_HOLD_CFG, 0)] tray, _, ⟨rfl, rfl, rfl⟩, by decide, rfl, by decide +kernel⟩,
   ⟨5, 1, [], tray, ⟨rfl, rfl, rfl⟩, by decide, by decide +kernel, by decide +kernel⟩,
   ⟨5, [1], wrs [(PWR_HOLD_CFG, 0)] tray, _, _, _, _, _, _, ⟨rfl, rfl, rfl⟩, by decide, rfl, by decide +kernel, rfl, rfl, rfl, rfl, rfl, by decide +kernel⟩,
   ⟨5, [2], wrs [(PWR_HOLD_CFG, 0)] tray, _, _, _, _, _, _, ⟨rfl, rfl, rfl⟩, by decide, rfl, by decide +kernel, rfl, rfl, rfl, rfl, rfl, by decide +kernel⟩,
   ⟨5, [1], wrs [(WAK_XR_SIZE, 1)] tray, _, _, _, _, _, _, ⟨rfl, rfl, rfl⟩, by decide, rfl, by decide +kernel, rfl, rfl, rfl, rfl, rfl, by decide +kernel, by decide +kernel⟩,
   ⟨5, [2], tray, _, _, _, _, _, _, ⟨rfl, rfl, rfl⟩, by decide, rfl, by decide +kernel, rfl, rfl, rfl, rfl, rfl, by decide +kernel, by decide +kernel⟩,
   ⟨0, zeros 64, 3, (wrs [(LND_CTL, 1), (LND_MAC, 5)] tray), _, _, ⟨rfl, rfl, rfl⟩, by decide, by decide +kernel, Prod.ext rfl rfl, by decide +kernel⟩,
   ⟨1, (ptpFrame tray true 0 ptpDelayReq 0 (ptpBytes tray 0 ptpDelayReq 5 0 0x7F (zeros 10))), 3, wrs [(LND_MAC, 1645313)] (wrs [(LND_CTL, 3)] tray), _, _, 14, ⟨rfl, rfl, rfl⟩, by decide, by decide +kernel, Prod.ext rfl rfl, by decide +kernel, by decide +kernel⟩,
   ⟨0, (bundleFrame ({ stream := 0, cls := 1, flow := 0, start := 0, ip := State.ownIp (wrs [(LND_CTL, 1)] tray), kind := 0, items := [zeros 128] } : LndFrame) (wrs [(LND_CTL, 1)] tray)).1, (wrs [(LND_CTL, 1)] tray), ⟨rfl, rfl, rfl⟩, by decide, by decide +kernel, by decide +kernel, by decide +kernel, by decide +kernel⟩⟩

/-- States and operands that meet the hypotheses of `Obligations.TrayEventsComplete`, for further clauses. -/
theorem witness_TrayEventsComplete_2 :
    (∃ (st : _) (bs : List Byte) (s : State), Running s ∧
      s.isTray = true ∧
      s.streamOn st = true ∧
      leAt bs 0 6 = s.rd LND_MAC ∧
      ptpOffset bs = none ∧
      bundleOk s bs = false) ∧
    (∃ (st : _) (s : State), Running s ∧
      s.isTray = true ∧
      s.streamOn st = true) ∧
    (∃ (st : _) (s : State) (t : _) (e : _), Running s ∧
      s.isTray = true ∧
      s.streamOn st = true ∧
      t = lndIdle st (lndSwapDue (cycleOf s.now) s) ∧
      t.lnd.time.find? (fun e => e.1 == st) = some e) ∧
    (∃ (st : _) (s : State) (t : _) (e : _), Running s ∧
      s.isTray = true ∧
      s.streamOn st = true ∧
      t = lndIdle st (lndSwapDue (cycleOf s.now) s) ∧
      t.lnd.time.find? (fun e => e.1 == st) = none ∧
      t.lnd.forward.find? (fun e => e.1 == st) = some e) ∧
    (∃ (st : _) (s : State) (t : _) (f : _), Running s ∧
      s.isTray = true ∧
      s.streamOn st = true ∧
      t = lndIdle st (lndSwapDue (cycleOf s.now) s) ∧
      t.lnd.time.find? (fun e => e.1 == st) = none ∧
      t.lnd.forward.find? (fun e => e.1 == st) = none ∧
      t.lndNext st = some f) ∧
    (∃ (first : _) (more : _) (s : State) (w : _), Running s ∧
      w = s.brtWait ++ (first :: more).filter (fun r => r.size != 0) ∧
      w = []) ∧
    (∃ (first : _) (more : _) (s : State) (w : _) (pre : _) (r : _) (post : _) (b : _) (t : _), Running s ∧
      w = s.brtWait ++ (first :: more).filter (fun r => r.size != 0) ∧
      w = pre ++ r :: post ∧
      (∀ x ∈ pre, brtRank r.kind < brtRank x.kind) ∧
      (∀ x ∈ post, brtRank r.kind ≤ brtRank x.kind) ∧
      brtRequest (brtUrgent r.kind) r.size { s with brtWait := w.erase r } = (b, t)) :=
  ⟨⟨0, zeros 64, (wrs [(LND_CTL, 1)] tray), ⟨rfl, rfl, rfl⟩, by decide, by decide +kernel, by decide +kernel, by decide +kernel, by decide +kernel⟩,
   ⟨0, (wrs [(LND_CTL, 1)] tray), ⟨rfl, rfl, rfl⟩, by decide, by decide⟩,
   ⟨0, { (wrs [(LND_CTL, 1)] tray) with lnd := { State.lnd (wrs [(LND_CTL, 1)] tray) with time := [(0, [])] } }, _, (0, []), ⟨rfl, rfl, rfl⟩, by decide, by decide +kernel, rfl, by decide +kernel⟩,
   ⟨0, { (wrs [(LND_CTL, 1)] tray) with lnd := { State.lnd (wrs [(LND_CTL, 1)] tray) with forward := [(0, 1, [])] } }, _, (0, 1, []), ⟨rfl, rfl, rfl⟩, by decide, by decide +kernel, rfl, by decide +kernel, by decide +kernel⟩,
   ⟨0, { (wrs [(LND_CTL, 1), (LND_ENT 0 0 0, 8799315297280)] tray) with lnd := { State.lnd (wrs [(LND_CTL, 1), (LND_ENT 0 0 0, 8799315297280)] tray) with frames := [({ stream := 0, cls := 1, flow := 0, start := 0, ip := State.ownIp (wrs [(LND_CTL, 1)] tray), kind := 0, items := [zeros 128] } : LndFrame)] } }, _, ({ stream := 0, cls := 1, flow := 0, start := 0, ip := State.ownIp (wrs [(LND_CTL, 1)] tray), kind := 0, items := [zeros 128] } : LndFrame), ⟨rfl, rfl, rfl⟩, by decide, by decide +kernel, rfl, by decide +kernel, by decide +kernel, by decide +kernel⟩,
   ⟨({ kind := .alarm, size := 0 } : BrtReq), [], leaf, _, ⟨rfl, rfl, rfl⟩, rfl, by decide +kernel⟩,
   ⟨({ kind := .stow, size := 64 } : BrtReq), [({ kind := .alarm, size := 128 } : BrtReq)], leaf, _, [({ kind := .stow, size := 64 } : BrtReq)], ({ kind := .alarm, size := 128 } : BrtReq), [], _, _, ⟨rfl, rfl, rfl⟩, rfl, by decide +kernel, by decide +kernel, by decide +kernel, Prod.ext rfl rfl⟩⟩

/-- States and operands that meet the hypotheses of `Obligations.StepRunsTheFrontCommand`, for each of its clauses. -/
theorem witness_StepRunsTheFrontCommand :
    ∃ (c : Instr) (cs : _) (s : State), s.pending = c :: cs :=
  ⟨(.stagedDefinitionExpiry 1 : Instr), [], ({ leaf with pending := [(.stagedDefinitionExpiry 1 : Instr)] } : State), by decide⟩

/-- States and operands that meet the hypotheses of `Obligations.EmptyQueueIsOneEdge`, for each of its clauses. -/
theorem witness_EmptyQueueIsOneEdge :
    (∃ (s : State) (u : _), s.pending = [] ∧
      s.pins.por = false ∧
      u = wakTick s) ∧
    (∃ (s : State), s.pending = [] ∧
      Running s ∧
      s.wak.timers = [] ∧
      s.capture = 0 ∧
      s.wak.queue = [] ∧
      s.wak.flushing = false ∧
      s.wak.stall = none ∧
      s.wak.askAt = none ∧
      (s.drainWants = false ∨ s.dstRoom = true)) ∧
    (∃ (s : State), s.pending = [] ∧
      s.pins.por = true) :=
  ⟨⟨tray, _, by decide, by decide, rfl⟩,
   ⟨tray, by decide, ⟨rfl, rfl, rfl⟩, by decide, by decide, by decide, by decide, by decide, by decide, by decide⟩,
   ⟨{ tray with pins := { tray.pins with por := true } }, by decide, by decide⟩⟩

/-- States and operands that meet the hypotheses of `Obligations.StepKeepsTheInvariant`, for each of its clauses. -/
theorem witness_StepKeepsTheInvariant :
    (∃ (s : State) (t : _), step s = .next t) ∧
    (∃ (s : State) (t : _), step s = .next t) ∧
    (∃ (s : State) (t : _), step s = .next t ∧
      Canonical s) ∧
    (∃ (s : State) (t : _), step s = .next t) ∧
    (∃ (s : State) (t : _), step s = .next t) :=
  ⟨⟨({ leaf with pending := [(.stagedDefinitionExpiry 1 : Instr)] } : State), _, rfl⟩,
   ⟨({ leaf with pending := [(.stagedDefinitionExpiry 1 : Instr)] } : State), _, rfl⟩,
   ⟨({ leaf with pending := [(.stagedDefinitionExpiry 1 : Instr)] } : State), _, rfl, ⟨by decide, by decide, by decide⟩⟩,
   ⟨({ leaf with pending := [(.stagedDefinitionExpiry 1 : Instr)] } : State), _, rfl⟩,
   ⟨({ leaf with pending := [(.stagedDefinitionExpiry 1 : Instr)] } : State), _, rfl⟩⟩

/-- States and operands that meet the hypotheses of `Obligations.StepsEndQuiet`, for each of its clauses. -/
theorem witness_StepsEndQuiet :
    ∃ (s : State) (t : _), Quiet s ∧
      step s = .next t :=
  ⟨({ leaf with pending := [(.stagedDefinitionExpiry 1 : Instr)] } : State), _, ⟨rfl, rfl⟩, rfl⟩

/-- States and operands that meet the hypotheses of `Obligations.ResetState`, for each of its clauses. -/
theorem witness_ResetState :
    (∃ ch, ch < 2) ∧
    (∃ n, n < 8) ∧
    (∃ k, k < 4) :=
  ⟨⟨1, by decide⟩,
   ⟨7, by decide⟩,
   ⟨3, by decide⟩⟩

/-- States and operands that meet the hypotheses of `Obligations.ResetHoldsTheBlock`, for each of its clauses. -/
theorem witness_ResetHoldsTheBlock :
    ∃ (c : _) (s : State), s.pins.por = true ∧
      isResetPin c = false :=
  ⟨.seriesDiscard 1, { tray with pins := { tray.pins with por := true } }, by decide, by decide⟩

/-- States and operands that meet the hypotheses of `Obligations.OpcodesNameTheirRows`, for each of its clauses. -/
theorem witness_OpcodesNameTheirRows :
    ∃ i code c, commandOf i = some (code, c) :=
  ⟨.nop (cmd []), 0, cmd [], by decide⟩

/-- States and operands that meet the hypotheses of `Obligations.OpcodeTable`, for each of its clauses. -/
theorem witness_OpcodeTable :
    ∃ (c : Cmd) (k : _), k = (if c.f 2 0 8 = 1 ∨ c.f 2 0 8 = 2 then 1 else 2) :=
  ⟨cmd [], _, rfl⟩

/-- States and operands that meet the hypotheses of `Obligations.ChecksInOrder`, for each of its clauses. -/
theorem witness_ChecksInOrder :
    (∃ (code : _) (c : _) (s : State), Reaches c s ∧
      pilotOp code c = none) ∧
    (∃ (i : _) (code : _) (c : _) (s : State) (o : _) (own : _) (u : _) (st : _), commandOf i = some (code, c) ∧
      Reaches c s ∧
      pilotOp code c = some (o, own) ∧
      u = opened c s ∧
      (((o.on = .leafOnly ∧ s.build = .tray) ∨ (o.on = .trayOnly ∧ s.build = .leaf)) ∧ st = 0x10 ∨ ¬((o.on = .leafOnly ∧ s.build = .tray) ∨ (o.on = .trayOnly ∧ s.build = .leaf)) ∧ (c.authority < o.cls ∧ st = 0x13 ∨ o.cls ≤ c.authority ∧ ((c.length < 2 ∨ 1024 < c.length ∨ c.written ≠ c.length ∨ o.lenOk c.params c.length = false) ∧ st = 0x11 ∨ 2 ≤ c.length ∧ c.length ≤ 1024 ∧ c.written = c.length ∧ o.lenOk c.params c.length = true ∧ ((c.rsv0 ≠ 0 ∨ c.rsv1 ≠ 0) ∧ st = 0x12 ∨ c.rsv0 = 0 ∧ c.rsv1 = 0 ∧ c.strictOnly = true ∧ u.getB EPO_CTL 0 = false ∧ st = 0x12))))) ∧
    (∃ (i : _) (code : _) (c : _) (s : State) (o : _) (own : _) (u : _) (st : _), commandOf i = some (code, c) ∧
      Reaches c s ∧
      pilotOp code c = some (o, own) ∧
      u = opened c s ∧
      (((o.on = .leafOnly ∧ s.build = .tray) ∨ (o.on = .trayOnly ∧ s.build = .leaf)) ∧ st = 0x10 ∨ ¬((o.on = .leafOnly ∧ s.build = .tray) ∨ (o.on = .trayOnly ∧ s.build = .leaf)) ∧ (c.authority < o.cls ∧ st = 0x13 ∨ o.cls ≤ c.authority ∧ ((c.length < 2 ∨ 1024 < c.length ∨ c.written ≠ c.length ∨ o.lenOk c.params c.length = false) ∧ st = 0x11 ∨ 2 ≤ c.length ∧ c.length ≤ 1024 ∧ c.written = c.length ∧ o.lenOk c.params c.length = true ∧ ((c.rsv0 ≠ 0 ∨ c.rsv1 ≠ 0) ∧ st = 0x12 ∨ c.rsv0 = 0 ∧ c.rsv1 = 0 ∧ c.strictOnly = true ∧ u.getB EPO_CTL 0 = false ∧ st = 0x12))))) ∧
    (∃ (i : _) (code : _) (c : _) (s : State) (o : _) (own : _) (u : _) (st : _), commandOf i = some (code, c) ∧
      Reaches c s ∧
      pilotOp code c = some (o, own) ∧
      u = opened c s ∧
      (((o.on = .leafOnly ∧ s.build = .tray) ∨ (o.on = .trayOnly ∧ s.build = .leaf)) ∧ st = 0x10 ∨ ¬((o.on = .leafOnly ∧ s.build = .tray) ∨ (o.on = .trayOnly ∧ s.build = .leaf)) ∧ (c.authority < o.cls ∧ st = 0x13 ∨ o.cls ≤ c.authority ∧ ((c.length < 2 ∨ 1024 < c.length ∨ c.written ≠ c.length ∨ o.lenOk c.params c.length = false) ∧ st = 0x11 ∨ 2 ≤ c.length ∧ c.length ≤ 1024 ∧ c.written = c.length ∧ o.lenOk c.params c.length = true ∧ ((c.rsv0 ≠ 0 ∨ c.rsv1 ≠ 0) ∧ st = 0x12 ∨ c.rsv0 = 0 ∧ c.rsv1 = 0 ∧ c.strictOnly = true ∧ u.getB EPO_CTL 0 = false ∧ st = 0x12))))) ∧
    (∃ (i : _) (code : _) (c : _) (s : State) (o : _) (own : _) (u : _) (st : _), commandOf i = some (code, c) ∧
      Reaches c s ∧
      pilotOp code c = some (o, own) ∧
      u = opened c s ∧
      (((o.on = .leafOnly ∧ s.build = .tray) ∨ (o.on = .trayOnly ∧ s.build = .leaf)) ∧ st = 0x10 ∨ ¬((o.on = .leafOnly ∧ s.build = .tray) ∨ (o.on = .trayOnly ∧ s.build = .leaf)) ∧ (c.authority < o.cls ∧ st = 0x13 ∨ o.cls ≤ c.authority ∧ ((c.length < 2 ∨ 1024 < c.length ∨ c.written ≠ c.length ∨ o.lenOk c.params c.length = false) ∧ st = 0x11 ∨ 2 ≤ c.length ∧ c.length ≤ 1024 ∧ c.written = c.length ∧ o.lenOk c.params c.length = true ∧ ((c.rsv0 ≠ 0 ∨ c.rsv1 ≠ 0) ∧ st = 0x12 ∨ c.rsv0 = 0 ∧ c.rsv1 = 0 ∧ c.strictOnly = true ∧ u.getB EPO_CTL 0 = false ∧ st = 0x12))))) ∧
    (∃ (i : _) (code : _) (c : _) (s : State) (o : _) (own : _) (u : _) (st : _), commandOf i = some (code, c) ∧
      Reaches c s ∧
      pilotOp code c = some (o, own) ∧
      u = opened c s ∧
      (((o.on = .leafOnly ∧ s.build = .tray) ∨ (o.on = .trayOnly ∧ s.build = .leaf)) ∧ st = 0x10 ∨ ¬((o.on = .leafOnly ∧ s.build = .tray) ∨ (o.on = .trayOnly ∧ s.build = .leaf)) ∧ (c.authority < o.cls ∧ st = 0x13 ∨ o.cls ≤ c.authority ∧ ((c.length < 2 ∨ 1024 < c.length ∨ c.written ≠ c.length ∨ o.lenOk c.params c.length = false) ∧ st = 0x11 ∨ 2 ≤ c.length ∧ c.length ≤ 1024 ∧ c.written = c.length ∧ o.lenOk c.params c.length = true ∧ ((c.rsv0 ≠ 0 ∨ c.rsv1 ≠ 0) ∧ st = 0x12 ∨ c.rsv0 = 0 ∧ c.rsv1 = 0 ∧ c.strictOnly = true ∧ u.getB EPO_CTL 0 = false ∧ st = 0x12))))) ∧
    (∃ (i : _) (code : _) (c : _) (s : State) (o : _) (own : _) (u : _), commandOf i = some (code, c) ∧
      pilotOp code c = some (o, own) ∧
      Runs o c s u) :=
  ⟨⟨0x7F, cmd [], tray, reaches_at (a := 4) (by decide), by decide⟩,
   ⟨.timeRole (cmd [0, 0]), 0x74, cmd [0, 0], leaf, opOf 0x74 (cmd [0, 0]) (by decide), ownOf 0x74 (cmd [0, 0]) (by decide), _, 0x10, rfl, reaches_at (a := 4) (by decide), op_own (by decide), rfl, by decide⟩,
   ⟨.platUnload ({ cmd [0] with src := .aperture 0, level := 1 }), 0x31, { cmd [0] with src := .aperture 0, level := 1 }, tray, opOf 0x31 ({ cmd [0] with src := .aperture 0, level := 1 }) (by decide), ownOf 0x31 ({ cmd [0] with src := .aperture 0, level := 1 }) (by decide), _, 0x13, rfl, reaches_at (a := 0) (by decide), op_own (by decide), rfl, by decide⟩,
   ⟨.nop (cmd [1]), 0, cmd [1], tray, opOf 0 (cmd [1]) (by decide), ownOf 0 (cmd [1]) (by decide), _, 0x11, rfl, reaches_at (a := 4) (by decide), op_own (by decide), rfl, by decide⟩,
   ⟨.nop ({ cmd [] with rsv0 := 1 }), 0, { cmd [] with rsv0 := 1 }, tray, opOf 0 ({ cmd [] with rsv0 := 1 }) (by decide), ownOf 0 ({ cmd [] with rsv0 := 1 }) (by decide), _, 0x12, rfl, reaches_at (a := 4) (by decide), op_own (by decide), rfl, by decide⟩,
   ⟨.nop ({ cmd [] with strictOnly := true }), 0, { cmd [] with strictOnly := true }, tray, opOf 0 ({ cmd [] with strictOnly := true }) (by decide), ownOf 0 ({ cmd [] with strictOnly := true }) (by decide), _, 0x12, rfl, reaches_at (a := 4) (by decide), op_own (by decide), rfl, by decide⟩,
   ⟨.nop (cmd []), 0, cmd [], tray, opOf 0 (cmd []) (by decide), ownOf 0 (cmd []) (by decide), _, rfl, op_own (by decide), runs_at (by decide)⟩⟩

/-- States and operands that meet the hypotheses of `Obligations.PowerOfTheUnit`, for each of its clauses. -/
theorem witness_PowerOfTheUnit :
    (∃ (i : _) (code : _) (c : _) (s : State) (o : _) (own : _) (u : _), commandOf i = some (code, c) ∧
      Reaches c s ∧
      pilotOp code c = some (o, own) ∧
      u = opened c s ∧
      headerFault o c u = none ∧
      o.compute = true ∧
      u.getB PLM_POWER 2 = true) ∧
    (∃ (i : _) (code : _) (c : _) (s : State) (o : _) (own : _) (u : _), commandOf i = some (code, c) ∧
      Reaches c s ∧
      pilotOp code c = some (o, own) ∧
      u = opened c s ∧
      headerFault o c u = none ∧
      o.compute = true ∧
      u.getB PLM_POWER 2 = false ∧
      u.computeOff = true ∧
      c.asyncOk = true ∧
      u.rd PIL_ASYNC < 16) ∧
    (∃ (i : _) (code : _) (c : _) (s : State) (o : _) (own : _) (u : _), commandOf i = some (code, c) ∧
      Reaches c s ∧
      pilotOp code c = some (o, own) ∧
      u = opened c s ∧
      headerFault o c u = none ∧
      o.compute = true ∧
      u.getB PLM_POWER 2 = false ∧
      u.computeOff = true ∧
      (c.asyncOk = false ∨ 16 ≤ u.rd PIL_ASYNC)) :=
  ⟨⟨.platUnload (cmd [0]), 0x31, cmd [0], wrs [(PLM_POWER, 4)] tray, opOf 0x31 (cmd [0]) (by decide), ownOf 0x31 (cmd [0]) (by decide), _, rfl, reaches_at (a := 4) (by decide), op_own (by decide), rfl, by decide, by decide, by decide⟩,
   ⟨.platUnload ({ cmd [0] with asyncOk := true }), 0x31, { cmd [0] with asyncOk := true }, wrs [(PLM_POWER, 2)] tray, opOf 0x31 ({ cmd [0] with asyncOk := true }) (by decide), ownOf 0x31 ({ cmd [0] with asyncOk := true }) (by decide), _, rfl, reaches_at (a := 4) (by decide), op_own (by decide), rfl, by decide, by decide, by decide, by decide, by decide, by decide⟩,
   ⟨.platUnload (cmd [0]), 0x31, cmd [0], wrs [(PLM_POWER, 2)] tray, opOf 0x31 (cmd [0]) (by decide), ownOf 0x31 (cmd [0]) (by decide), _, rfl, reaches_at (a := 4) (by decide), op_own (by decide), rfl, by decide, by decide, by decide, by decide, by decide⟩⟩

/-- States and operands that meet the hypotheses of `Obligations.RepliesReachTheirSender`, for each of its clauses. -/
theorem witness_RepliesReachTheirSender :
    (∃ (c : Cmd) (t : State) (a : _), Quiet t ∧
      c.src = .aperture a ∧
      a < 5 ∧
      t.pins.hrst = false) ∧
    (∃ (c : Cmd) (t : State) (a : _), Quiet t ∧
      c.src = .aperture a ∧
      t.pins.hrst = true) ∧
    (∃ (j : Job) (t : State) (a : _), j.async = true ∧
      j.cmd.src = .aperture a ∧
      a < 5 ∧
      t.pins.hrst = false) ∧
    (∃ (i : _) (code : _) (c : Cmd) (s : State) (o : _) (own : _) (u : _), commandOf i = some (code, c) ∧
      pilotOp code c = some (o, own) ∧
      s.pins.por = false ∧
      s.pil.booted = true ∧
      (∀ a, c.src = .aperture a → s.pins.hrst = false ∧ a < 5 ∧ (a = 4 → c.level = 3) ∧ (s.aperture a).st ≠ .busy) ∧
      (s.pilotHeld = true ∨ s.pil.launchQ ≠ []) ∧
      u = opened c s) ∧
    (∃ (i : _) (code : _) (c : Cmd) (s : State) (a : _), commandOf i = some (code, c) ∧
      Running s ∧
      c.src = .aperture a ∧
      a < 5 ∧
      s.pins.hrst = false ∧
      (a = 4 → c.level = 3) ∧
      (s.pil.booted = false ∨ (s.aperture a).st = .busy)) ∧
    (∃ (i : _) (code : _) (c : Cmd) (s : State), commandOf i = some (code, c) ∧
      Running s ∧
      c.src = .aperture 4 ∧
      s.pins.hrst = false ∧
      c.level ≠ 3) :=
  ⟨⟨cmd [], tray, 4, ⟨rfl, rfl⟩, by decide, by decide, by decide⟩,
   ⟨cmd [], { tray with pins := { tray.pins with hrst := true } }, 4, ⟨rfl, rfl⟩, by decide, by decide⟩,
   ⟨({ id := 3, opcode := 0, cmd := cmd [], async := true, phase := .done 0 [], data := .plain } : Job), tray, 4, by decide, by decide, by decide, by decide⟩,
   ⟨.nop (cmd []), 0, cmd [], { leaf with pil := { leaf.pil with launchQ := [.cmd 0 (cmd [])] } }, opOf 0 (cmd []) (by decide), ownOf 0 (cmd []) (by decide), _, rfl, op_own (by decide), by decide, by decide, fun a h => by
    cases h
    exact ⟨rfl, by decide, fun _ => rfl, by decide⟩, by decide, rfl⟩,
   ⟨.nop (cmd []), 0, cmd [], State.reset, 4, by decide, ⟨rfl, rfl, rfl⟩, by decide, by decide, by decide, by decide, by decide⟩,
   ⟨.nop ({ cmd [] with level := 2 }), 0, { cmd [] with level := 2 }, tray, by decide, ⟨rfl, rfl, rfl⟩, by decide, by decide, by decide⟩⟩

/-- States and operands that meet the hypotheses of `Obligations.ServoIsClamped`, for each of its clauses. -/
theorem witness_ServoIsClamped :
    (∃ i p, (1717987 < i ∨ i < -1717987 ∨ 1717987 < max (-1717987) (min 1717987 i) + p ∨ max (-1717987) (min 1717987 i) + p < -1717987)) ∧
    (∃ (s : State), s.datState = 2 ∧
      s.getB DAT_CTL 0 = true ∧
      s.gmHeld = false) ∧
    (∃ (s : State), s.datState = 2 ∧
      s.getB DAT_CTL 0 = true ∧
      s.gmHeld = false) :=
  ⟨⟨2000000, 0, by decide⟩,
   ⟨wrs [(DAT_STATE, 2), (DAT_CTL, 1)] leaf, by decide, by decide, by decide⟩,
   ⟨wrs [(DAT_STATE, 2), (DAT_CTL, 1)] leaf, by decide, by decide, by decide⟩⟩

/-- States and operands that meet the hypotheses of `Obligations.CellsAndTimesRoundTrip`, for each of its clauses. -/
theorem witness_CellsAndTimesRoundTrip :
    (∃ (c : Cell), c.type < 2 ^ 5 ∧
      1 ≤ c.cls ∧
      c.cls ≤ 5 ∧
      c.src < 2 ^ 20 ∧
      c.dst < 2 ^ 20 ∧
      c.parcel < 2 ^ 12 ∧
      c.epoch < 2 ^ 24 ∧
      c.seq < 2 ^ 16 ∧
      1 ≤ c.data.length ∧
      c.data.length ≤ 112) ∧
    (∃ (c : Cell), c.type < 2 ^ 5 ∧
      1 ≤ c.cls ∧
      c.cls ≤ 5 ∧
      c.src < 2 ^ 20 ∧
      c.dst < 2 ^ 20 ∧
      c.parcel < 2 ^ 12 ∧
      c.epoch < 2 ^ 24 ∧
      c.seq < 2 ^ 16 ∧
      1 ≤ c.data.length ∧
      c.data.length ≤ 112) ∧
    (∃ (c : Cell), c.type < 2 ^ 5 ∧
      1 ≤ c.cls ∧
      c.cls ≤ 5 ∧
      c.src < 2 ^ 20 ∧
      c.dst < 2 ^ 20 ∧
      c.parcel < 2 ^ 12 ∧
      c.epoch < 2 ^ 24 ∧
      c.seq < 2 ^ 16 ∧
      1 ≤ c.data.length ∧
      c.data.length ≤ 112) ∧
    (∃ t, t < 2 ^ 48 * 1000000000 * 2 ^ 32 ∧
      t % 2 ^ 16 = 0) :=
  ⟨⟨({ type := 31, cls := 5, first := true, last := true, degraded := true, retx := true, auth := true, src := 0xFFFFF, dst := 0xFFFFF, parcel := 4095, epoch := 0xFFFFFF, seq := 65535, data := zeros 112 } : Cell), by decide, by decide, by decide, by decide, by decide, by decide, by decide, by decide, by decide, by decide⟩,
   ⟨({ type := 31, cls := 5, first := true, last := true, degraded := true, retx := true, auth := true, src := 0xFFFFF, dst := 0xFFFFF, parcel := 4095, epoch := 0xFFFFFF, seq := 65535, data := zeros 1 } : Cell), by decide, by decide, by decide, by decide, by decide, by decide, by decide, by decide, by decide, by decide⟩,
   ⟨({ type := 31, cls := 5, first := true, last := true, degraded := true, retx := true, auth := true, src := 0xFFFFF, dst := 0xFFFFF, parcel := 4095, epoch := 0xFFFFFF, seq := 65535, data := zeros 112 } : Cell), by decide, by decide, by decide, by decide, by decide, by decide, by decide, by decide, by decide, by decide⟩,
   ⟨1208925819614629174706175999934464, by decide, by decide⟩⟩

/-- States and operands that meet the hypotheses of `Obligations.StoresWriteTheirBytes`, for each of its clauses. -/
theorem witness_StoresWriteTheirBytes :
    (∃ (a : _) (bs : List Byte) (s : State) (t : _) (j : _), storeBytes a bs s = (true, t) ∧
      (j < a ∨ a + bs.length ≤ j)) ∧
    (∃ (a : _) (bs : List Byte) (s : State) (t : _), storeBytes a bs s = (true, t)) ∧
    (∃ (a : _) (bs : List Byte) (s : State) (t : _) (j : _), storeBytes a bs s = (false, t) ∧
      (∀ p ∈ s.requests a bs.length, s.reqUp p = true → j < p.1 ∨ p.1 + p.2 ≤ j)) ∧
    (∃ (a : _) (bs : List Byte) (s : State) (t : _), storeBytes a bs s = (false, t) ∧
      (s.memReach a bs.length = false ∨ s.isTray = false)) ∧
    (∃ (a : _) (bs : List Byte) (s : State) (t : _), storeBytes a bs s = (false, t) ∧
      (s.memReach a bs.length = false ∨ s.isTray = false)) ∧
    (∃ (a : _) (bs : List Byte) (s : State) (t : _) (j : _) (p : _), storeBytes a bs s = (false, t) ∧
      s.memReach a bs.length = true ∧
      s.isTray = true ∧
      p ∈ s.requests a bs.length ∧
      s.reqUp p = true ∧
      p.1 ≤ j ∧
      j < p.1 + p.2) ∧
    (∃ (a : _) (bs : List Byte) (r : _) (s : State) (t : _), storeBytes a bs s = (r, t) ∧
      s.isTray = true) ∧
    (∃ (a : _) (bs : List Byte) (r : _) (s : State) (t : _), storeBytes a bs s = (r, t) ∧
      s.isTray = false) ∧
    (∃ (a : _) (n : _) (s : State) (r : _) (t : _), loadBytes a n s = (r, t)) ∧
    (∃ (a : _) (n : _) (s : State) (r : _) (t : _), loadBytes a n s = (r, t)) :=
  ⟨⟨0, [1], tray, _, 1, Prod.ext (by decide +kernel) rfl, by decide⟩,
   ⟨0, [1], tray, _, Prod.ext (by decide +kernel) rfl⟩,
   ⟨0, [1], { tray with pins := { tray.pins with memTrained := 0 } }, _, 7, Prod.ext (by decide +kernel) rfl, by decide +kernel⟩,
   ⟨18446744073709551615, [1, 2], tray, _, Prod.ext (by decide +kernel) rfl, by decide +kernel⟩,
   ⟨18446744073709551615, [1, 2], tray, _, Prod.ext (by decide +kernel) rfl, by decide +kernel⟩,
   ⟨4094, [1, 2, 3, 4], { tray with pins := { tray.pins with memTrained := 0xFFE } }, _, 4097, (4096, 2), Prod.ext (by decide +kernel) rfl, by decide +kernel, by decide +kernel, by decide +kernel, by decide +kernel, by decide +kernel, by decide +kernel⟩,
   ⟨0, [1], _, tray, _, Prod.ext rfl rfl, by decide +kernel⟩,
   ⟨0, [1], _, leaf, _, Prod.ext rfl rfl, by decide +kernel⟩,
   ⟨0, 1, tray, _, _, Prod.ext rfl rfl⟩,
   ⟨0, 1, tray, _, _, Prod.ext rfl rfl⟩⟩

/-- States and operands that meet the hypotheses of `Obligations.EscalationTakesEffect`, for each of its clauses. -/
theorem witness_EscalationTakesEffect :
    (∃ (n : _) (s : State) (t : _), n < 64 ∧
      t = escalate n s) ∧
    (∃ (n : _) (s : State) (t : _), n < 64 ∧
      t = escalate n s) ∧
    (∃ (n : _) (s : State) (t : _), n < 64 ∧
      t = escalate n s) ∧
    (∃ (n : _) (s : State) (t : _), n < 64 ∧
      t = escalate n s) ∧
    (∃ (n : _) (s : State) (t : _), n < 64 ∧
      t = escalate n s) ∧
    (∃ (n : _) (s : State) (t : _), n < 64 ∧
      t = escalate n s ∧
      (s.fltClass n = 2 ∨ s.fltAction n = 1)) :=
  ⟨⟨63, tray, _, by decide, rfl⟩,
   ⟨63, tray, _, by decide, rfl⟩,
   ⟨63, tray, _, by decide, rfl⟩,
   ⟨63, tray, _, by decide, rfl⟩,
   ⟨63, tray, _, by decide, rfl⟩,
   ⟨0, wrs [(FLT_SRC_CFG 0, 0x80000000)] tray, _, by decide, rfl, by decide⟩⟩

/-! ### What is no command of the block -/

/-- A number that its field cannot spell, or that no unit of the block has, is refused by each check of `WellFormed`. -/
theorem test_wf_source : Src.wf (.aperture 5) = false ∧ Src.wf (.remote 65536 0 .own) = false ∧ Src.wf (.remote 0 0x100000 .own) = false := by
  decide

theorem test_wf_header :
    Instr.wf (.nop { cmd [] with level := 4 }) = false ∧ Instr.wf (.nop { cmd [] with rsv0 := 32 }) = false ∧
    Instr.wf (.nop { cmd [] with rsv1 := 16 }) = false ∧ Instr.wf (.nop { cmd [] with length := 65536 }) = false ∧
    Instr.wf (.nop { cmd [] with tag := 65536 }) = false ∧ Instr.wf (.nop { cmd [] with parcel := 4096 }) = false ∧
    Instr.wf (.nop { cmd [] with written := 1025 }) = false ∧ Instr.wf (.nop { cmd [] with src := .aperture 5 }) = false ∧
    Instr.wf (.nop (cmd [])) = true := by decide

theorem test_wf_words : Instr.wf (.echo { cmd [] with params := List.replicate 1023 0#32 }) = false := by decide +kernel

/-- A seal without a key of its own. -/
def seal0 : EnvSeal := { keyId := 0, origin := 0, time := some 0, mac := [] }

theorem test_wf_parts :
    TapLane.wf ⟨64, 0, 0⟩ = false ∧ TapLane.wf ⟨0, 1024, 0⟩ = false ∧ TapLane.wf ⟨0, 0, 16⟩ = false ∧
    EnvSeal.wf ⟨0x10000, 0, none, []⟩ = false ∧ EnvSeal.wf ⟨0, 0x100000, none, []⟩ = false ∧
    ResvPart.wf ⟨⟨0, 0x100000, none, []⟩, 0, .own, 0, 0, 100, 0, [], []⟩ = false ∧
    ResvPart.wf ⟨seal0, 0x10000, .own, 0, 0, 100, 0, [], []⟩ = false ∧
    ResvPart.wf ⟨seal0, 0, .own, 0, 5, 100, 0, [], []⟩ = false ∧ ResvPart.wf ⟨seal0, 0, .own, 4096, 0, 100, 0, [], []⟩ = false ∧
    ResvPart.wf ⟨seal0, 0xFFFF, .own, 4095, 4, 100, 0, [], []⟩ = true ∧
    RulingAck.wf ⟨0x100000, 0, 0, 0, 0, 0, none⟩ = false ∧ RulingAck.wf ⟨0, 0x100000, 0, 0, 0, 0, none⟩ = false ∧
    RulingAck.wf ⟨0, 0, 0x100000000, 0, 0, 0, none⟩ = false ∧
    ClaimMsg.wf (.ask ⟨0x10000, 0, none, []⟩ 0 .own 0 0 []) = false ∧ ClaimMsg.wf (.ask seal0 0x10000 .own 0 0 []) = false ∧
    ClaimMsg.wf (.ask seal0 0 .own 4096 0 []) = false ∧ ClaimMsg.wf (.ask seal0 0 .own 0 5 []) = false ∧
    ClaimMsg.wf (.ask seal0 0 .own 0 0 [0x4000]) = false ∧ ClaimMsg.wf (.answer seal0 0x10000 0 0 []) = false ∧
    ClaimMsg.wf (.answer seal0 0 0x100000 0 []) = false ∧ ClaimMsg.wf (.answer seal0 0 0 4096 []) = false ∧
    ClaimMsg.wf (.answer seal0 0 0 0 [0x4000]) = false ∧ ClaimMsg.wf (.failed seal0 0x10000 0 0 0) = false ∧
    ClaimMsg.wf (.failed seal0 0 0x100000 0 0) = false ∧ ClaimMsg.wf (.failed seal0 0 0 4096 0) = false ∧
    ClaimMsg.wf (.failed seal0 0 0 0 0x100000) = false := by decide

theorem test_wf_numbers :
    Instr.wf (.apertureWrite 4 0 0 0 false 0#64) = false ∧ Instr.wf (.registerWrite 65536 0 false 0#64) = false ∧
    Instr.wf (.lowHalfRead 0 0x400000) = false ∧ Instr.wf (.lowHalfRead 0 0x3FFFFC) = true ∧ Instr.wf (.linkDelayTimeout 2 .east) = false ∧
    Instr.wf (.timetableCycleStart (2 ^ 40) []) = false ∧ Instr.wf (.cellReceive 2 .eastbound []) = false ∧
    Instr.wf (.blockLockGain 0 .east 16) = false ∧ Instr.wf (.blockLockLoss 0 .east 4) = false ∧
    Instr.wf (.rollAckTimeout 0 32) = false ∧ Instr.wf (.bulkRetentionExpiry 0 .eastbound 65536) = false ∧
    Instr.wf (.snapshotDelivered 64) = false ∧ Instr.wf (.epochStrobe 4096 []) = false ∧ Instr.wf (.pulseEdge 8) = false ∧
    Instr.wf (.stopSlotFire 4) = false ∧ Instr.wf (.gateClose 0 5) = false ∧ Instr.wf (.scoreTimeout 0 (2 ^ 24)) = false ∧
    Instr.wf (.relayEntryTimeout 64) = false ∧ Instr.wf (.alarmHoldEnd 64) = false ∧ Instr.wf (.frameTransmit 2) = false ∧
    Instr.wf (.graceExpiry 64) = false ∧ Instr.wf (.holdReadError 12) = false ∧ Instr.wf (.wakeTapRecord 8 0 ⟨0, 0, 0, false, 0, false, false, []⟩) = false ∧
    Instr.wf (.wakeCounterLimit 4) = false ∧ Instr.wf (.cdcTimeout 0x83) = false ∧ Instr.wf (.cdcTimeout 0xE5) = false ∧
    Instr.wf (.cdcTimeout 0xE4) = true ∧ Instr.wf (.witnessStagingTimeout 2) = false ∧
    Instr.wf (.plumbSampleTimeout 16) = false ∧ Instr.wf (.ruleFire 32) = false ∧
    Instr.wf (.rulingResendTimeout 0 0 0x100000) = false := by decide

/-! ### Values that the spec states -/

/-- The check value of CRC-32C, over the digits 1 to 9. -/
theorem test_crc32c : crc32c [0x31, 0x32, 0x33, 0x34, 0x35, 0x36, 0x37, 0x38, 0x39] = 0xE3069283 := by decide +kernel

/-- SHA-256 of no bytes begins so. -/
theorem test_sha256 : (sha256 []).take 4 = [0xE3, 0xB0, 0xC4, 0x42] := by decide +kernel

/-- One edge of an unadjusted clock moves it by DAT_INC (R58). -/
theorem test_tick : (match step State.reset with | .next t => some t.dat.clock | _ => none) = some 0xCCCCCCCD := by decide +kernel

/-- Before its boot every aperture is BUSY and a launch is counted as ignored (R405). -/
theorem test_before_boot : (match exec (.nop (cmd [])) State.reset with | .next t => some (t.rd PIL_BUSY_WR) | _ => none) = some 2 := by
  decide +kernel

/-- NOP answers two words: status OK with length 2, and the tag with the opcode (R408). -/
theorem test_nop : (match exec (.nop (cmd [])) tray with | .next t => some (t.aperture 4).reply | _ => none) = some [0x00020000#32, 0x00000007#32] := by
  decide +kernel

end Sys2Proof.Tests
end

section
/-! PROOFS. What every step keeps: from what each operation keeps (`Kept`) to what each row of the opcode table keeps, and from the rows
to the step. -/

set_option autoImplicit false

namespace Sys2Proof.Proofs
open Sys2Proof Sys2Proof.Machine Sys2Proof.Laws

/-! ### From an effect to its row -/

/-- A row of the opcode table keeps what every operation keeps. -/
def RowKeeps (row : State → Host.Outcome State Fault Refusal) : Prop := ∀ s t, row s = .next t → Kept s t

theorem rowKeeps_evNext {f : State → State} (hf : ∀ {a u : State}, Kept a u → Kept a (f u)) : RowKeeps (evNext f) :=
  fun _ _ h => keep_evNext (fun u => hf (Kept.refl u)) h

/-- So does the row of an event of one chain. -/
theorem rowKeeps_onChain {ch : Nat} {f : State → State} (hf : ∀ {a u : State}, Kept a u → Kept a (f u)) :
    RowKeeps (evNext (onChain ch f)) :=
  rowKeeps_evNext (fun h => keep_onChain h ch f (fun u => hf (Kept.refl u)))

/-- An edge of a reset input acts in reset too. -/
theorem rowKeeps_resetPin {f : State → State} (hf : ∀ {a u : State}, Kept a u → Kept a (f u)) :
    RowKeeps (fun s => .next (finish (f s))) := by
  intro s t h
  cases h
  exact keep_finish (hf (Kept.refl s))

/-! ### Every row -/

/-- A row that is a Pilot command launches its opcode's command (R425). -/
theorem exec_command {i : Instr} {code : Nat} {c : Cmd} (h : commandOf i = some (code, c)) :
    exec i = evNext (runOpcode code c) := by
  cases i <;> cases h <;> rfl

/-- Every other row: the effect that it has is an operation that keeps its state sound. -/
theorem rowKeeps_event {i : Instr} (hi : commandOf i = none) : RowKeeps (exec i) := by
  cases i with
  | apertureWrite => exact rowKeeps_evNext (fun h => kept_ite h (keep_hostWrite h _ _ _ _ _))
  | w1cWrite => exact rowKeeps_evNext (fun h => keep_hostWrite h _ _ _ _ _)
  | rcRead => exact rowKeeps_evNext (fun h => keep_hostRead h _ _ _)
  | registerWrite => exact rowKeeps_evNext (fun h => keep_hostWrite h _ _ _ _ _)
  | lowHalfRead => exact rowKeeps_evNext (fun h => keep_hostRead h _ _ _)
  | highHalfRead => exact rowKeeps_evNext (fun h => keep_hostRead h _ _ _)
  | lowHalfWrite => exact rowKeeps_evNext (fun h => keep_hostWrite h _ _ _ _ _)
  | highHalfWrite => exact rowKeeps_evNext (fun h => keep_hostWrite h _ _ _ _ _)
  | datNowCapture => exact rowKeeps_evNext (fun h => keep_hostRead h _ _ _)
  | liveCounterRead => exact rowKeeps_evNext (fun h => keep_hostRead (keep_podClock (keep_countLanes h _) _ _) _ _ _)
  | computeRegisterAccess => exact rowKeeps_evNext (fun h => kept_ite (keep_hostWrite h _ _ _ _ _) (keep_hostRead h _ _ _))
  | pilDoneRdWrite => exact rowKeeps_evNext (fun h => keep_hostWrite h _ _ _ _ _)
  | wakDstRdWrite => exact rowKeeps_evNext (fun h => keep_hostWrite h _ _ _ _ _)
  | wakXrRdWrite => exact rowKeeps_evNext (fun h => keep_hostWrite h _ _ _ _ _)
  | stwSrRdWrite => exact rowKeeps_evNext (fun h => keep_hostWrite h _ _ _ _ _)
  | zyPorstNAssert => exact rowKeeps_resetPin keep_porstAssert
  | zyPorstNRelease => exact rowKeeps_resetPin (fun h => keep_porstRelease h _)
  | zyCrstNAssert => exact rowKeeps_resetPin keep_crstAssert
  | zyCrstNRelease => exact rowKeeps_resetPin (fun h => keep_crstRelease h _)
  | zyHrstNAssert => exact rowKeeps_resetPin keep_hrstAssert
  | zyHrstNRelease => exact rowKeeps_resetPin keep_hrstRelease
  | pilotBoot => exact rowKeeps_evNext keep_pilotBoots
  | powerEntry => exact rowKeeps_evNext keep_powerEntry
  | powerExit => exact rowKeeps_evNext (fun h => keep_powerExit h _)
  | dozeSleepChange => exact rowKeeps_evNext keep_dozeSleep
  | timetableCycleStart => exact rowKeeps_evNext (fun h => keep_timetableCycle h _ _)
  | containerStart => exact rowKeeps_onChain (fun h => keep_containerStart h _ _ _ _ _)
  | containerRelay => exact rowKeeps_onChain (fun h => keep_containerRelay h _ _ _ _ _)
  | cellReceive => exact rowKeeps_onChain (fun h => keep_cellReceive h _ _)
  | bulkReqReceive => exact rowKeeps_onChain (fun h => keep_bulkResend h _ _)
  | bulkRetentionExpiry => exact rowKeeps_onChain (fun h => keep_bulkExpire h _ _)
  | timeWordReceive => exact rowKeeps_evNext (fun h => keep_timeWordIn h _ _ _ _)
  | timeWordReturn => exact rowKeeps_onChain (fun h => keep_timeWordBack h _ _ _)
  | refTimeout => exact rowKeeps_evNext keep_refTimeout
  | holdoverExpiry => exact rowKeeps_evNext keep_holdoverExpiry
  | plumbTrim => exact rowKeeps_evNext (fun h => keep_plumbTrim h _)
  | linkDelayRequest => exact rowKeeps_onChain (fun h => keep_ldRequest h _ _ _)
  | linkDelayMessageReceive => exact rowKeeps_onChain (fun h => keep_ldReceive h _ _ _ _ _)
  | linkDelayTimeout => exact rowKeeps_onChain (fun h => keep_State_setChain h _ _)
  | laneRequestReceive => exact rowKeeps_onChain (fun h => keep_laneRequest h _ _ _)
  | blockLockGain => exact rowKeeps_onChain (fun h => keep_blockLockGain h _ _ _)
  | alignmentLock => exact rowKeeps_onChain (fun h => keep_alignmentLock h _ _)
  | lockingTimeout => exact rowKeeps_onChain (fun h => keep_lockingTimeout h _ _)
  | blockLockLoss => exact rowKeeps_onChain (fun h => keep_blockLockLoss h _ _ _)
  | alignmentLoss => exact rowKeeps_onChain (fun h => keep_alignmentLoss h _ _)
  | chainCut => exact rowKeeps_onChain (fun h => keep_chainCut h _ _)
  | chainWhole => exact rowKeeps_onChain (fun h => keep_chainWhole h _ _)
  | headless => exact rowKeeps_evNext keep_headless
  | spliceAnnReceive => exact rowKeeps_evNext (fun h => kept_ite h (keep_spliceAnn h _ _ _))
  | tmtListReceive => exact rowKeeps_onChain (fun h => keep_tmtListReceive h _ _)
  | spliceRequestReceive => exact rowKeeps_onChain (fun h => keep_spliceRequest h _ _)
  | spliceTime => exact rowKeeps_onChain (fun h => keep_spliceTime h _ _)
  | spliceWindowClose => exact rowKeeps_onChain (fun h => keep_windowClose h _)
  | rollSend => exact rowKeeps_onChain (fun h => keep_rollSend h _)
  | rollReceive => exact rowKeeps_evNext (fun h => keep_rollReceive h _)
  | rollAckReceive => exact rowKeeps_onChain (fun h => keep_rollAck h _ _)
  | rollAckTimeout => exact rowKeeps_onChain (fun h => keep_rollTimeout h _ _)
  | linkAlarmReceive => exact rowKeeps_onChain (fun h => keep_linkAlarmMsg h _ _ _)
  | linkStateReceive => exact rowKeeps_evNext (fun h => keep_linkStateReceive h _)
  | epochStrobe => exact rowKeeps_evNext (fun h => keep_strobe h _ _)
  | snapshotDeferredCapture => exact rowKeeps_evNext (fun h => keep_deferredCapture h _ _)
  | snapshotDelivered => exact rowKeeps_evNext (fun h => keep_evalReady (keep_snapshotCrossed h _))
  | snapshotTimeout => exact rowKeeps_evNext (fun h => keep_evalReady (keep_snapshotLate h _))
  | seriesDiscard => exact rowKeeps_evNext (fun h => keep_seriesDiscard h _)
  | gaugeAnswer => exact rowKeeps_evNext (fun h => keep_evalReady (keep_gaugeSettle h _))
  | gaugeTimeout => exact rowKeeps_evNext (fun h => keep_evalReady (keep_gaugeSettle h _))
  | tapOnRise => exact rowKeeps_evNext (fun h => keep_podRise h _)
  | tapOnFall => exact rowKeeps_evNext (fun h => keep_evalReady (keep_podFall h _))
  | beatEdge => exact rowKeeps_evNext (fun h => keep_beatRise h _ _)
  | ppsEdge => exact rowKeeps_evNext (fun h => keep_ppsEdge h _)
  | pulseEdge => exact rowKeeps_evNext (fun h => keep_pulseEdge h _)
  | stopSlotFire => exact rowKeeps_evNext (fun h => keep_stopFire h _)
  | dieStopRelease => exact rowKeeps_evNext keep_dieStopRelease
  | dieStopAck => exact rowKeeps_evNext (fun h => keep_dieStopAck h _)
  | stopNoack => exact rowKeeps_evNext (fun h => kept_ite (keep_faultLine h _ _) h)
  | closureReceive => exact rowKeeps_evNext (fun h => keep_closureIn h _ _ _ _)
  | asleepReceive => exact rowKeeps_evNext (fun h => keep_asleepIn h _ _ _ _)
  | resolveReceive => exact rowKeeps_evNext (fun h => keep_closureIn h _ _ _ _)
  | tallyItemComplete => exact rowKeeps_evNext keep_itemComplete
  | closeDeadlineExpiry => exact rowKeeps_evNext (fun h => keep_deadlineExpiry h _ _)
  | strictStall => exact rowKeeps_evNext (fun h => keep_strictStall h _ _)
  | gateClose => exact rowKeeps_evNext (fun h => keep_gateCloseDue h _ _)
  | deadlineWindowEnd =>
    refine rowKeeps_evNext (fun h => ?_)
    split
    · exact keep_windowEnd h _
    · exact h
  | trayClosureSend => exact rowKeeps_evNext (fun h => keep_traySend h _)
  | cadastrePassStart => exact rowKeeps_evNext keep_cadStart
  | cadastrePassComplete => exact rowKeeps_evNext keep_cadComplete
  | scoreTimeout => exact rowKeeps_evNext (fun h => keep_scoreTimeout h _ _)
  | transitPassStart => exact rowKeeps_evNext keep_trnStart
  | transitTileComplete => exact rowKeeps_evNext keep_trnTile
  | transitCheckComplete => exact rowKeeps_evNext (fun h => keep_trnCheckDone h _ _)
  | transitRunTimeout => exact rowKeeps_evNext (fun h => keep_trnRunTimeout h _ _)
  | envelopeReceive => exact rowKeeps_evNext (fun h => keep_envelopeIn h _ _)
  | envelopeRelay => exact rowKeeps_evNext (fun h => kept_ite (keep_envelopeIn h _ _) h)
  | replyEnvelopeReceive => exact rowKeeps_evNext (fun h => keep_envelopeIn h _ _)
  | relayEntryTimeout => exact rowKeeps_evNext (fun h => keep_relayTimeout h _)
  | commandFinalReply => exact rowKeeps_evNext (fun h => keep_finalReply h _)
  | rulingReceive => exact rowKeeps_evNext (fun h => keep_rulingMsg h _ _ _)
  | rulingAckReceive => exact rowKeeps_evNext (fun h => keep_rulingAckIn h _)
  | rulingResendTimeout => exact rowKeeps_evNext (fun h => keep_rulingResend h _ _ _)
  | rulingEffect => exact rowKeeps_evNext (fun h => keep_rulingEffect h _ _ _ (fun x t => keep_witPush (Kept.refl t) x))
  | reservationPartReceive => exact rowKeeps_evNext (fun h => keep_partReceive h _)
  | claimExchange msg =>
    refine rowKeeps_evNext (fun h => ?_)
    cases msg with
    | ask e tag via parcel level trays => exact keep_claimAskIn h e tag via parcel level trays
    | answer e tag st parcel trays => exact keep_claimAnswerIn h e tag st parcel trays
    | failed e tag st parcel gone => exact keep_claimFailedIn h e tag st parcel gone
  | reservationResendTimeout => exact rowKeeps_evNext (fun h => keep_resvResend h _ _)
  | reservationLapse => exact rowKeeps_evNext (fun h => keep_resvLapse h _)
  | stagedDefinitionExpiry => exact rowKeeps_evNext (fun h => keep_unstage h _)
  | alarmReceive => exact rowKeeps_evNext (fun h => keep_alarmReceive h _ _)
  | alarmHoldEnd => exact rowKeeps_evNext (fun h => keep_alarmHoldEnd h _)
  | seriesReceive => exact rowKeeps_evNext (fun h => kept_ite (keep_seriesWrite h _ _ _) h)
  | bulkExcerptReceive => exact rowKeeps_evNext (fun h => keep_excerptReceive h _ _)
  | frameReceive => exact rowKeeps_evNext (fun h => keep_frameReceive h _ _ _ _ _ (fun a bs t => keep_landingCellIn (Kept.refl t) a bs))
  | frameTransmit => exact rowKeeps_evNext (fun h => keep_frameTransmit h _)
  | ptpReceive => exact rowKeeps_evNext (fun h => keep_ptpReceive h _ _ _)
  | ptpSyncSend => exact rowKeeps_evNext keep_ptpSyncSend
  | berthAllocate => exact rowKeeps_evNext (fun h => keep_brtCycle h _ _)
  | faultLineRise => exact rowKeeps_evNext (fun h => keep_faultLine (kept_ite (keep_pilotErrs h) h) _ _)
  | faultPairInvalid => exact rowKeeps_evNext (fun h => keep_pairInvalid h _ _)
  | graceExpiry => exact rowKeeps_evNext (fun h => keep_graceExpiry h _)
  | quietExpiry => exact rowKeeps_evNext keep_quietExpiry
  | cdcTimeout => exact rowKeeps_evNext (fun h => keep_cdcTimeout h _)
  | hostMasterError => exact rowKeeps_evNext keep_hostMasterError
  | holdReadError => exact rowKeeps_evNext (fun h => keep_holdReadError h _)
  | holdTrainingLoss => exact rowKeeps_evNext (fun h => keep_holdTrainingLoss h _)
  | landingLinkDown => exact rowKeeps_evNext (fun h => keep_landingDown h _)
  | leaveGrant => exact rowKeeps_evNext keep_leaveGrant
  | leaveWaitExpiry => exact rowKeeps_evNext keep_leaveExpiry
  | wakeTapRecord => exact rowKeeps_evNext (fun h => keep_tapRecord h _ _ _)
  | wakeTimerExpiry => exact rowKeeps_evNext (fun h => keep_timerExpiry h _)
  | wakeCounterLimit => exact rowKeeps_evNext (fun h => keep_counterLimit h _)
  | wakeSyncPeriodic => exact rowKeeps_evNext keep_wakSyncDue
  | wakeDrainUnit => exact rowKeeps_evNext keep_drainUnit
  | witnessDue => exact rowKeeps_evNext (fun h => keep_witDue h _)
  | witnessWindowExpiry => exact rowKeeps_evNext (fun h => keep_witWindow h _)
  | testGntRise => exact rowKeeps_evNext (fun h => keep_testGntRise h _)
  | testGntFall => exact rowKeeps_evNext (fun h => keep_testGntFall h _)
  | witnessRunStart => exact rowKeeps_evNext (fun h => keep_witRunStart h _)
  | witnessRecordReturn => exact rowKeeps_evNext (fun h => keep_recordReturn h _ _ _)
  | witnessReturnTimeout => exact rowKeeps_evNext (fun h => keep_returnTimeout h _ _)
  | witnessLeaveRetry => exact rowKeeps_evNext (fun h => keep_witRetry h _)
  | witnessStagingTimeout => exact rowKeeps_evNext (fun h => keep_stagingTimeout h _)
  | selfTestDue => exact rowKeeps_evNext keep_selfDue
  | selfTestRun => exact rowKeeps_evNext (fun h => keep_selfRun h _ _)
  | plumbSampleTick => exact rowKeeps_evNext (fun h => keep_sampleTick h _)
  | plumbSampleAnswer => exact rowKeeps_evNext (fun h => keep_sampleAnswer h _ _)
  | plumbSampleTimeout => exact rowKeeps_evNext (fun h => keep_sampleTimeout h _)
  | plumbRuleTick => exact rowKeeps_evNext keep_ruleTick
  | ruleFire => exact rowKeeps_evNext (fun h => keep_ruleFireDue h _)
  | ruleGapAlarm => exact rowKeeps_evNext (fun h => keep_ruleGapAlarm h _)
  | lifeTick => exact rowKeeps_evNext keep_lifeTick
  | logEventWrite => exact rowKeeps_evNext keep_logEventWrite
  | refusedAccess => exact rowKeeps_evNext (fun h => keep_hostAccess h _ _ _ _ _)
  | ppsMiss => exact rowKeeps_evNext keep_ppsMiss
  | delayReqSend => exact rowKeeps_evNext (fun h => keep_delayReqSend h _)
  | quiesceRelease => exact rowKeeps_evNext (fun h => keep_quiesceRelease h _)
  | _ => cases hi

theorem rowKeeps_exec (i : Instr) : RowKeeps (exec i) := by
  cases hi : commandOf i with
  | none => exact rowKeeps_event hi
  | some p =>
    obtain ⟨code, c⟩ := p
    rw [exec_command hi]
    exact rowKeeps_evNext (fun h => keep_runOpcode h code c)

/-! ### The step -/

/-- A step keeps the state in which the rest of the queue stands alone. -/
theorem step_keeps {s t : State} (h : step s = .next t) : Kept { s with pending := s.pending.tail } t := by
  cases hp : s.pending with
  | nil =>
    have hs : ({ s with pending := [] } : State) = s := by rw [← hp]
    rw [step_idle hp, Host.Outcome.next.injEq] at h
    rw [List.tail_nil, hs, ← h]
    exact kept_ite (Kept.refl s) (keep_datEdge (Kept.refl s))
  | cons c cs =>
    have hstep : step s = exec c { s with pending := cs } := by rw [step, hp]
    exact rowKeeps_exec c _ _ (hstep.symm.trans h)

/-- Settles O47: each of the parts of `Kept`, for the state that holds the rest of the queue. -/
theorem stepKeepsTheInvariant : Obligations.StepKeepsTheInvariant := by
  intro s t h
  obtain ⟨hbuild, hpending, hregs, hhost, hhold, hfree, hout⟩ := step_keeps h
  exact ⟨hbuild, hpending, fun ⟨r, m, n⟩ => ⟨hregs r, hhost m, hhold n⟩, hout, hfree⟩

end Sys2Proof.Proofs
end

section
/-! PROOFS. The host target port: what a register access does once it has passed the checks of R551, whole or by halves, what the pairs of
R60 and the live counters answer, and what becomes of an access that the port refuses. -/

set_option autoImplicit false

namespace Sys2Proof.Proofs
open Sys2Proof Sys2Proof.Machine Sys2Proof.Laws

/-! ### How a row of the host target port ends -/

/-- A row whose effect queues nothing ends with that effect. -/
theorem evNext_port {f : State → State} {s t : State} (hp : PortOpen s) (hf : f s = t) (hq : Quiet s → Quiet t) :
    evNext f s = .next t :=
  evNext_quiet hp.1.1 hf (hq hp.1.2)

/-! ### The checks that an access passes on its way to a register (R551) -/

/-- A 32-bit access at `off` reaches the register `h`: it is aligned, and no other part of the window lies there. -/
structure Found (s : State) (off : Nat) (h : RegHit) : Prop where
  reg : regAt off = some h
  present : absentAt s.build off = false
  aligned : off % 4 = 0
  noAperture : ¬(0x10000 ≤ off ∧ off < 0x15000)
  noCounter : ¬(0x100000 ≤ off ∧ off < 0x180000)

/-- … and the register's tier is powered and not held in reset. -/
structure InReach (s : State) (off : Nat) (h : RegHit) : Prop extends Found s off h where
  awake : s.sleepHit h = false
  released : s.heldHit h = false

theorem mod4_of_mod_width {wide : Bool} {off : Nat} (h : off % (if wide then 8 else 4) = 0) : off % 4 = 0 := by
  cases wide <;> simp at h <;> omega

theorem inReach_of_names {s : State} {off : Nat} {h : RegHit} (hn : Names s off h) : InReach s off h := by
  obtain ⟨hreg, -, habs, hsl, hhe, halign, hap, hcnt⟩ := hn
  exact ⟨⟨hreg, habs, mod4_of_mod_width halign, hap, hcnt⟩, hsl, hhe⟩

/-- The upper half of a register marked 64, 4 bytes above it, is in reach likewise. -/
theorem inReach_high {s : State} {off : Nat} {h : RegHit} (hn : Names s off h) (hw : h.row.wide = true)
    (hreg : regAt (off + 4) = some { h with high := true }) (habs : absentAt s.build (off + 4) = false) :
    InReach s (off + 4) { h with high := true } := by
  obtain ⟨-, -, -, hsl, hhe, halign, hap, hcnt⟩ := hn
  simp only [hw, if_true] at halign
  exact ⟨⟨hreg, habs, by omega, by omega, by omega⟩, hsl, hhe⟩

theorem read32_found {s : State} {off : Nat} {h : RegHit} (hf : Found s off h) (rq : Nat) :
    read32 rq off s = tierRead h (readReg32 rq h) s := by
  simp only [read32, hf.present, Bool.false_eq_true, if_false, if_neg hf.noAperture, if_neg hf.noCounter, hf.reg]

theorem write32_found {s : State} {off : Nat} {h : RegHit} (hf : Found s off h) (rq v : Nat) :
    write32 rq off v s = if h.row.wide then tierWrite h (writeHalf rq h v) s else tierWrite h (writeReg h v) s := by
  simp only [write32, hf.present, Bool.false_eq_true, if_false, hf.reg]

theorem hostRead_found {s : State} {off : Nat} {h : RegHit} (hh : s.pins.hrst = false) (hf : Found s off h) (rq : Nat) {v : Nat}
    {t : State} (ht : tierRead h (readReg32 rq h) s = (v, t)) :
    hostRead rq off false s = t.emit (.readData rq off (BitVec.ofNat 64 v)) := by
  simp only [hostRead, hh, Bool.false_eq_true, if_false, hf.aligned, ne_eq, not_true, read32_found hf, ht]

theorem hostWrite_found {s : State} {off : Nat} {h : RegHit} (hh : s.pins.hrst = false) (hf : Found s off h) (auth rq v : Nat) :
    hostWrite auth rq off false v s =
      if h.row.wide then tierWrite h (writeHalf rq h v) s else tierWrite h (writeReg h v) s := by
  simp only [hostWrite, hh, Bool.false_eq_true, if_false, hf.aligned, ne_eq, not_true, if_neg hf.noAperture, write32_found hf]

/-! ### Tiers (R42, R551, R552) -/

theorem tierRead_open {h : RegHit} {s : State} (h1 : s.sleepHit h = false) (h2 : s.heldHit h = false) (f : State → Nat × State) :
    tierRead h f s = f s := by
  simp only [tierRead, h1, h2, Bool.false_eq_true, if_false]

theorem tierWrite_open {h : RegHit} {s : State} (h1 : s.sleepHit h = false) (h2 : s.heldHit h = false) (f : State → State) :
    tierWrite h f s = f s := by
  simp only [tierWrite, h1, h2, Bool.false_eq_true, if_false]

theorem tierRead_asleep {h : RegHit} {s : State} (h1 : s.sleepHit h = true) (f : State → Nat × State) :
    tierRead h f s = (0, s.evt CAP_SLEEP_HIT 0) := by
  simp only [tierRead, h1, if_true]

theorem tierWrite_asleep {h : RegHit} {s : State} (h1 : s.sleepHit h = true) (f : State → State) :
    tierWrite h f s = s.evt CAP_SLEEP_HIT 0 := by
  simp only [tierWrite, h1, if_true]

theorem tierRead_held {h : RegHit} {s : State} (h1 : s.sleepHit h = false) (h2 : s.heldHit h = true) (f : State → Nat × State) :
    tierRead h f s = if s.draw.1.toNat % 2 = 1 then (0, cdcTimed 0xA1 s.draw.2) else f s.draw.2 := by
  simp only [tierRead, h1, h2, Bool.false_eq_true, if_false, if_true]

theorem tierWrite_held {h : RegHit} {s : State} (h1 : s.sleepHit h = false) (h2 : s.heldHit h = true) (f : State → State) :
    tierWrite h f s = if s.draw.1.toNat % 2 = 1 then cdcTimed 0xA1 s.draw.2 else s.draw.2 := by
  simp only [tierWrite, h1, h2, Bool.false_eq_true, if_false, if_true]

theorem hostRead_inReach {s : State} {off : Nat} {h : RegHit} (hp : PortOpen s) (hr : InReach s off h) {rq v : Nat} {t : State}
    (ht : readReg32 rq h s = (v, t)) : hostRead rq off false s = t.emit (.readData rq off (BitVec.ofNat 64 v)) :=
  hostRead_found hp.2 hr.toFound rq (by rw [tierRead_open hr.awake hr.released, ht])

theorem hostWrite_inReach {s : State} {off : Nat} {h : RegHit} (hp : PortOpen s) (hr : InReach s off h) (auth rq v : Nat) :
    hostWrite auth rq off false v s = if h.row.wide then writeHalf rq h v s else writeReg h v s := by
  rw [hostWrite_found hp.2 hr.toFound, tierWrite_open hr.awake hr.released, tierWrite_open hr.awake hr.released]

/-- A register that only the power-on reset governs is in reach whatever the compute tier does. -/
theorem tier_open_of_por {h : RegHit} (hd : h.row.dom = .por) (s : State) : s.sleepHit h = false ∧ s.heldHit h = false := by
  simp [State.sleepHit, State.heldHit, hd]

/-! ### Whole accesses of a register (R9 to R12) -/

theorem wideAt_names {s : State} {off : Nat} {h : RegHit} (hn : Names s off h) : wideAt off = h.row.wide := by
  obtain ⟨hreg, hlow, -⟩ := hn
  simp [wideAt, hreg, hlow]

/-- A 64-bit access to a register marked 64. -/
theorem hostRead_names64 {s : State} {off : Nat} {h : RegHit} (hp : PortOpen s) (hn : Names s off h) (hw : h.row.wide = true) (rq : Nat)
    {v : Nat} {t : State} (ht : readReg64 rq h s = (v, t)) :
    hostRead rq off true s = t.emit (.readData rq off (BitVec.ofNat 64 v)) := by
  obtain ⟨hreg, hlow, habs, hsl, hhe, halign, -, hcnt⟩ := hn
  simp only [hw, if_true] at halign
  simp only [hostRead, hp.2, Bool.false_eq_true, if_false, if_true, halign, ne_eq, not_true, read64, habs, if_neg hcnt, hreg, hw, hlow,
    and_self, tierRead_open hsl hhe, ht]

/-- A whole read shows the register and clears it where a read does (R11). -/
theorem hostRead_whole {s : State} {off : Nat} {h : RegHit} (hp : PortOpen s) (hn : Names s off h) (hpair : pairOf h = none) (rq : Nat) :
    hostRead rq off h.row.wide s = (readClear h s).emit (.readData rq off (BitVec.ofNat 64 (s.shown h))) := by
  cases hw : h.row.wide with
  | true => exact hostRead_names64 hp hn hw rq (by simp only [readReg64, hpair])
  | false => exact hostRead_inReach hp (inReach_of_names hn) (by simp only [readReg32, hw, if_true])

/-- A whole write puts its value under the register's access code (R11). -/
theorem hostWrite_whole {s : State} {off : Nat} {h : RegHit} (hp : PortOpen s) (hn : Names s off h) (auth rq v : Nat) :
    hostWrite auth rq off h.row.wide v s = writeReg h v s := by
  have hr := inReach_of_names hn
  obtain ⟨hreg, hlow, habs, hsl, hhe, halign, hap, -⟩ := hn
  cases hw : h.row.wide with
  | true =>
    simp only [hw, if_true] at halign
    simp only [hostWrite, hp.2, Bool.false_eq_true, if_false, if_true, halign, ne_eq, not_true, if_neg hap, write64, hreg, hw, hlow, habs,
      and_self, tierWrite_open hsl hhe]
  | false => simp only [hostWrite_inReach hp hr, hw, Bool.false_eq_true, if_false]

theorem readClear_rc {h : RegHit} (ha : h.row.acc = .rc) (s : State) : readClear h s = s.wr h.at (s.cleared h) := by
  rw [readClear, if_pos ha]

theorem readClear_other {h : RegHit} (ha : h.row.acc ≠ .rc) (s : State) : readClear h s = s := by
  rw [readClear, if_neg ha]

theorem quiet_readClear (h : RegHit) {s : State} (hq : Quiet s) : Quiet (readClear h s) := by
  unfold readClear; split <;> exact hq

theorem writeReg_readOnly {h : RegHit} (ha : h.row.acc = .ro ∨ h.row.acc = .rc) (v : Nat) (s : State) : writeReg h v s = s := by
  rcases ha with ha | ha <;> simp only [writeReg, ha]

theorem writeReg_w1c {h : RegHit} (ha : h.row.acc = .w1c) (v : Nat) (s : State) :
    writeReg h v s = s.wr h.at (s.rd h.at &&& ((v % 2 ^ h.at.width) ^^^ (2 ^ h.at.width - 1) |||
      (if h.row.base = WIT_EVT.off then 0xFF00 else 0))) := by
  simp only [writeReg, ha]

theorem writeReg_logCursor {h : RegHit} (ha : h.row.acc = .rw) (hb : h.row.base = LOG_CURSOR.off) (v : Nat) (s : State) :
    writeReg h v s = s.wr LOG_CURSOR (v % 2 ^ 15) := by
  have hr : trayRings.contains LOG_CURSOR.off = false := by decide
  simp only [writeReg, ha, hb, hr, Bool.false_eq_true, and_false, if_false]
  rfl

/-- What an access needs to know of the register at a given offset: which it is, whether the offset is its upper half, and that only the
power-on reset governs it. -/
def isAt (l : Loc) (acc : Acc) (high : Bool) (h : RegHit) : Bool :=
  h.at == l && h.row.base == l.off && h.row.wide == l.wide && h.row.acc == acc && h.row.dom == .por && h.high == high

theorem regAt_isAt {off : Nat} {l : Loc} {acc : Acc} {high : Bool} (h : (regAt off).any (isAt l acc high) = true) :
    ∃ x, regAt off = some x ∧ x.at = l ∧ x.row.base = l.off ∧ x.row.wide = l.wide ∧ x.row.acc = acc ∧ x.row.dom = .por ∧
      x.high = high := by
  obtain ⟨hsome, hp⟩ := (Option.any_eq_true_iff_get _ _).1 h
  simp only [isAt, Bool.and_eq_true, beq_iff_eq] at hp
  obtain ⟨⟨⟨⟨⟨hat, hbase⟩, hwide⟩, hacc⟩, hdom⟩, hhigh⟩ := hp
  exact ⟨_, (Option.some_get hsome).symm, hat, hbase, hwide, hacc, hdom, hhigh⟩

theorem names_logCursor (s : State) :
    ∃ h, Names s LOG_CURSOR.off h ∧ h.row.wide = false ∧ h.row.acc = .rw ∧ h.row.base = LOG_CURSOR.off := by
  obtain ⟨h, hreg, -, hbase, hwide, hacc, hdom, hlow⟩ :=
    regAt_isAt (off := LOG_CURSOR.off) (l := LOG_CURSOR) (acc := .rw) (high := false) (by decide +kernel)
  have habs : absentAt s.build LOG_CURSOR.off = false := by cases s.build <;> decide
  obtain ⟨hsl, hhe⟩ := tier_open_of_por hdom s
  exact ⟨h, ⟨hreg, hlow, habs, hsl, hhe, by rw [hwide]; decide, by decide, by decide⟩, hwide, hacc, hbase⟩

/-- Settles O16: each row is a whole read or a whole write of the register that its offset names, in the branch of its access code. -/
theorem registerAccessesComplete : Obligations.RegisterAccessesComplete := by
  refine ⟨fun rq off data s h hp hn ha => ?_, fun rq off s h hp hn ha hpair => ?_, fun rq data s hp => ?_,
    fun rq off data s h hp hn ha => ?_,
    fun rq off data s h hp hn _ hpair => ?_, fun rq off data s h hp hn _ => ⟨fun ha => ?_, fun ha => ?_⟩⟩
  · exact evNext_port hp (by rw [wideAt_names hn, hostWrite_whole hp hn, writeReg_w1c ha]) id
  · exact evNext_port hp (by rw [wideAt_names hn, hostRead_whole hp hn hpair, readClear_rc ha]) id
  · obtain ⟨h, hn, hw, ha, hb⟩ := names_logCursor s
    exact evNext_port hp (by rw [← hw, hostWrite_whole hp hn, writeReg_logCursor ha hb]) id
  · exact evNext_port hp (by rw [hostWrite_whole hp hn, writeReg_readOnly ha]) id
  · exact evNext_port hp (by rw [if_neg Bool.false_ne_true, hostRead_whole hp hn hpair]; rfl) (quiet_readClear h)
  · exact evNext_port hp (by rw [if_pos rfl, hostWrite_whole hp hn, writeReg_w1c ha]) id
  · exact evNext_port hp (by rw [if_pos rfl, hostWrite_whole hp hn, writeReg_readOnly ha]) id

/-! ### Halves of a register marked 64 (R10) -/

theorem quiet_putHold (rq : Nat) (l : Option WriteHold) {s : State} (hq : Quiet s) : Quiet (putHold rq l s) := hq

theorem readHalf_low (rq low v : Nat) (s : State) :
    readHalf rq low false v s = (v % 2 ^ 32, putLatch rq (some { off := low, high := v / 2 ^ 32 }) s) := rfl

/-- The upper half is the latched one where the latch is this register's. -/
theorem readHalf_high_own {rq low : Nat} {l : ReadLatch} {s : State} (hl : Tbl.get? s.pil.latches rq = some l) (ho : l.off = low)
    (v : Nat) :
    readHalf rq low true v s = (l.high, putLatch rq none s) := by
  simp only [readHalf, if_true, hl, ho]

/-- Else it is the register's own. -/
theorem readHalf_high_other {rq low : Nat} {s : State} (hl : ∀ l, Tbl.get? s.pil.latches rq = some l → l.off ≠ low) (v : Nat) :
    readHalf rq low true v s = (v / 2 ^ 32, s) := by
  unfold readHalf
  rw [if_pos rfl]
  cases hg : Tbl.get? s.pil.latches rq with
  | none => rfl
  | some l => exact if_neg (hl l hg)

/-- The lower half of a register marked 64 that belongs to no pair of R60 … -/
theorem readReg32_low {h : RegHit} (hw : h.row.wide = true) (hpair : pairOf h = none) (hlow : h.high = false) (rq : Nat) (s : State) :
    readReg32 rq h s = (s.shown h % 2 ^ 32, readClear h (putLatch rq (some { off := h.at.off, high := s.shown h / 2 ^ 32 }) s)) := by
  simp only [readReg32, hw, Bool.true_eq_false, if_false, hpair, hlow, readHalf_low, Bool.false_eq_true]

/-- … and its upper half, which clears nothing. -/
theorem readReg32_high {h : RegHit} (hw : h.row.wide = true) (hpair : pairOf h = none) (hhigh : h.high = true) (rq : Nat) (s : State) :
    readReg32 rq h s = readHalf rq h.at.off true (s.shown h) s := by
  simp only [readReg32, hw, Bool.true_eq_false, if_false, hpair, hhigh, if_true]

theorem hostRead_low {s : State} {off : Nat} {h : RegHit} (hp : PortOpen s) (hn : Names s off h) (hw : h.row.wide = true)
    (hpair : pairOf h = none) (rq : Nat) :
    hostRead rq off false s = (readClear h (putLatch rq (some { off := h.at.off, high := s.shown h / 2 ^ 32 }) s)).emit
      (.readData rq off (BitVec.ofNat 64 (s.shown h % 2 ^ 32))) :=
  hostRead_inReach hp (inReach_of_names hn) (readReg32_low hw hpair hn.2.1 rq s)

theorem hostWrite_low {s : State} {off : Nat} {h : RegHit} (hp : PortOpen s) (hn : Names s off h) (hw : h.row.wide = true)
    (auth rq : Nat) (data : Word) :
    hostWrite auth rq off false data.toNat s = putHold rq (some { off := h.at.off, low := data.toNat }) s := by
  rw [hostWrite_inReach hp (inReach_of_names hn), hw, if_pos rfl, writeHalf, if_pos hn.2.1, Nat.mod_eq_of_lt data.isLt]

/-- The upper half written completes the lower one that is held for it … -/
theorem writeHalf_high_own {rq v : Nat} {h : RegHit} {x : WriteHold} {s : State} (hh : h.high = true)
    (hx : Tbl.get? s.pil.holds rq = some x) (ho : x.off = h.at.off) :
    writeHalf rq h v s = writeReg h (x.low + v % 2 ^ 32 * 2 ^ 32) (putHold rq none s) := by
  simp only [writeHalf, hh, Bool.true_eq_false, if_false, hx, ho, if_true]

/-- … or keeps the register's, where none is held. -/
theorem writeHalf_high_none {rq v : Nat} {h : RegHit} {s : State} (hh : h.high = true) (hx : Tbl.get? s.pil.holds rq = none) :
    writeHalf rq h v s = writeReg h ((if h.row.acc = .w1c then 0 else s.shown h % 2 ^ 32) + v % 2 ^ 32 * 2 ^ 32) s := by
  simp only [writeHalf, hh, Bool.true_eq_false, if_false, hx]

/-! ### The read pointers of the rings (R373, R499) -/

/-- A read pointer of a ring that the build has, and its write pointer. -/
def RingPointers (s : State) (rd wr : Loc) : Prop :=
  rd = WAK_DST_RD ∧ wr = WAK_DST_WR ∨ s.build = .tray ∧ (rd = WAK_XR_RD ∧ wr = WAK_XR_WR ∨ rd = STW_SR_RD ∧ wr = STW_SR_WR)

theorem RingPointers.mem {s : State} {rd wr : Loc} (hr : RingPointers s rd wr) : rd ∈ [WAK_DST_RD, WAK_XR_RD, STW_SR_RD] := by
  rcases hr with ⟨rfl, -⟩ | ⟨-, ⟨rfl, -⟩ | ⟨rfl, -⟩⟩ <;> decide

theorem ringPointer_high_isAt : ∀ rd ∈ [WAK_DST_RD, WAK_XR_RD, STW_SR_RD], (regAt (rd.off + 4)).any (isAt rd .rw true) = true := by
  decide +kernel

theorem ringPointer_present {s : State} {rd wr : Loc} (hr : RingPointers s rd wr) : absentAt s.build (rd.off + 4) = false := by
  rcases hr with ⟨rfl, -⟩ | ⟨hb, ⟨rfl, -⟩ | ⟨rfl, -⟩⟩
  · cases s.build <;> decide
  · rw [hb]; decide
  · rw [hb]; decide

/-- The read pointers show what their registers hold. -/
theorem derived_ringPointer (s : State) (ix : List Nat) : ∀ rd ∈ [WAK_DST_RD, WAK_XR_RD, STW_SR_RD], s.derived rd.off ix = none := by
  simp only [List.mem_cons, List.not_mem_nil, or_false, forall_eq_or_imp, forall_eq]
  exact ⟨rfl, rfl, rfl⟩

theorem writeReg_ringPointer {s t : State} {rd wr : Loc} (hr : RingPointers s rd wr) (ht : t.build = s.build) {h : RegHit}
    (ha : h.row.acc = .rw) (hb : h.row.base = rd.off) (v : Nat) : writeReg h v t = putReadPtr rd wr v t := by
  rcases hr with ⟨rfl, rfl⟩ | ⟨htray, ⟨rfl, rfl⟩ | ⟨rfl, rfl⟩⟩
  · have hc : trayRings.contains WAK_DST_RD.off = false := by decide
    simp only [writeReg, ha, hb, hc, Bool.false_eq_true, and_false, if_false]
    rfl
  all_goals
    have htr : t.isTray = true := by rw [State.isTray, ht, htray]; rfl
    simp only [writeReg, ha, hb, htr, Bool.true_eq_false, false_and, if_false]
    rfl

theorem putReadPtr_eq (rd wr : Loc) (v : Nat) (s : State) :
    putReadPtr rd wr v s = if v ≤ s.rd wr then s.wr rd v else s.evt CAP_ACC_ERR 0 := by
  simp only [putReadPtr, ← Nat.not_le, ite_not]

theorem quiet_putReadPtr (rd wr : Loc) (v : Nat) {s : State} (hq : Quiet s) : Quiet (putReadPtr rd wr v s) := by
  unfold putReadPtr; split <;> exact hq

theorem hostWrite_ringPointer_high {s : State} {rd wr : Loc} (hp : PortOpen s) (hr : RingPointers s rd wr) (rq : Nat) (data : Word) :
    (∀ x, Tbl.get? s.pil.holds rq = some x → x.off = rd.off →
      hostWrite 0 rq (rd.off + 4) false data.toNat s = putReadPtr rd wr (x.low + data.toNat * 2 ^ 32) (putHold rq none s)) ∧
    (Tbl.get? s.pil.holds rq = none →
      hostWrite 0 rq (rd.off + 4) false data.toNat s = putReadPtr rd wr (s.rd rd % 2 ^ 32 + data.toNat * 2 ^ 32) s) := by
  obtain ⟨h, hreg, hat, hbase, hwide, hacc, hdom, hhigh⟩ := regAt_isAt (ringPointer_high_isAt rd hr.mem)
  obtain ⟨hsl, hhe⟩ := tier_open_of_por hdom s
  have hrd : rd.wide = true ∧ (rd.off + 4) % 4 = 0 ∧ ¬(0x10000 ≤ rd.off + 4 ∧ rd.off + 4 < 0x15000) ∧
      ¬(0x100000 ≤ rd.off + 4 ∧ rd.off + 4 < 0x180000) := by
    have : ∀ l ∈ [WAK_DST_RD, WAK_XR_RD, STW_SR_RD], l.wide = true ∧ (l.off + 4) % 4 = 0 ∧
        ¬(0x10000 ≤ l.off + 4 ∧ l.off + 4 < 0x15000) ∧ ¬(0x100000 ≤ l.off + 4 ∧ l.off + 4 < 0x180000) := by decide
    exact this rd hr.mem
  obtain ⟨hrw, halign, hap, hcnt⟩ := hrd
  have hw : h.row.wide = true := hwide.trans hrw
  have hd : data.toNat % 2 ^ 32 = data.toNat := Nat.mod_eq_of_lt data.isLt
  have hreach : InReach s (rd.off + 4) h := ⟨⟨hreg, ringPointer_present hr, halign, hap, hcnt⟩, hsl, hhe⟩
  rw [hostWrite_inReach hp hreach, if_pos hw]
  refine ⟨fun x hx ho => ?_, fun hx => ?_⟩
  · rw [writeHalf_high_own hhigh hx (by rw [hat, ho]), writeReg_ringPointer (t := putHold rq none s) hr rfl hacc hbase, hd]
  · have hshown : s.shown h % 2 ^ 32 = s.rd rd % 2 ^ 32 := by
      rw [State.shown, hbase, derived_ringPointer s _ rd hr.mem, hat, Loc.width, hrw, if_pos rfl]
      exact Nat.mod_mod_of_dvd _ (by decide)
    rw [writeHalf_high_none hhigh hx, writeReg_ringPointer hr rfl hacc hbase, hacc, if_neg (by decide), hshown, hd]

/-- Settles O17: a half is that of a register in reach, and what it does turns on the requester's latch or hold. -/
theorem halfAccessesComplete : Obligations.HalfAccessesComplete := by
  refine ⟨fun rq off s h hp hn hw hpair ha => ?_, fun rq off s h t hp hn hw hpair ha ht => ?_,
    fun rq off s h hp hn hw hreg habs hpair l hl ho => ?_, fun rq off s h hp hn hw hreg habs hpair hl => ?_,
    fun rq off data s h hp hn hw => ?_, fun rq off data s h hp hn hw hreg habs ha => ?_, fun rq data s rd wr hp hr => ?_⟩
  · exact evNext_port hp (by rw [hostRead_low hp hn hw hpair, readClear_other ha]) id
  · exact evNext_port hp (by rw [hostRead_low hp hn hw hpair, readClear_rc ha, ht]) (by rw [ht]; exact id)
  · have hr := inReach_high hn hw hreg habs
    have hread := readReg32_high (h := { h with high := true }) hw hpair rfl rq s
    exact evNext_port hp (hostRead_inReach hp hr (hread.trans (readHalf_high_own hl ho _))) id
  · have hr := inReach_high hn hw hreg habs
    have hread := readReg32_high (h := { h with high := true }) hw hpair rfl rq s
    exact evNext_port hp (hostRead_inReach hp hr (hread.trans (readHalf_high_other hl _))) id
  · exact evNext_port hp (hostWrite_low hp hn hw 0 rq data) id
  · have hr := inReach_high hn hw hreg habs
    have hwrite := (hostWrite_inReach hp hr 0 rq data.toNat).trans (if_pos hw)
    refine ⟨fun x hx ho => ?_, fun hx => ?_⟩
    · have hwhole := writeHalf_high_own (v := data.toNat) (h := { h with high := true }) rfl hx ho
      exact evNext_port hp (hwrite.trans (hwhole.trans (writeReg_readOnly (.inl ha) _ _))) id
    · have hwhole := writeHalf_high_none (v := data.toNat) (h := { h with high := true }) rfl hx
      exact evNext_port hp (hwrite.trans (hwhole.trans (writeReg_readOnly (.inl ha) _ _))) id
  · obtain ⟨hown, hnone⟩ := hostWrite_ringPointer_high hp hr rq data
    refine ⟨fun x hx ho => ?_, fun hx => ?_⟩
    · have hquiet := fun hq => quiet_putReadPtr rd wr (x.low + data.toNat * 2 ^ 32) (quiet_putHold (s := s) rq none hq)
      exact (evNext_port hp (hown x hx ho) hquiet).trans (congrArg _ (putReadPtr_eq ..))
    · exact (evNext_port hp (hnone hx) (quiet_putReadPtr _ _ _)).trans (congrArg _ (putReadPtr_eq ..))

/-! ### The pairs of R60 -/

theorem hostRead_capture {s : State} {off sub : Nat} {h : RegHit} (hp : PortOpen s) (hn : Names s off h) (hw : h.row.wide = true)
    (hpair : pairOf h = some (sub, false)) (rq : Nat) (wide : Bool) :
    hostRead rq off wide s = (captureTime rq sub (s.shown h % 2 ^ 48 + s.shownAt (sub + 8) * 2 ^ 48) s).emit
      (.readData rq off (BitVec.ofNat 64 (if wide then s.shown h else s.shown h % 2 ^ 32))) := by
  cases wide with
  | true => exact hostRead_names64 hp hn hw rq (by simp only [readReg64, hpair]; rfl)
  | false =>
    have hlow := hn.2.1
    exact hostRead_inReach hp (inReach_of_names hn)
      (by simp only [readReg32, hw, hpair, hlow, Bool.true_eq_false, if_false, and_self, if_true]; rfl)

/-- The upper half of a _SUB register shows what its requester has captured. -/
theorem readReg32_captured {h : RegHit} {rq sub a b : Nat} {s : State} (hw : h.row.wide = true) (hpair : pairOf h = some (sub, false))
    (hhigh : h.high = true) (hc : s.capture? rq sub = some (a, b)) : readReg32 rq h s = (a / 2 ^ 32, s) := by
  simp only [readReg32, hw, hpair, hhigh, hc, Bool.true_eq_false, Bool.false_eq_true, and_false, if_false, if_true]

theorem timeSub_lt (t : Nat) : timeSub t < 2 ^ 48 := Nat.mod_lt _ (Nat.two_pow_pos 48)

theorem names_now (s : State) :
    ∃ h, Names s DAT_NOW_SUB.off h ∧ h.row.wide = true ∧ pairOf h = some (DAT_NOW_SUB.off, false) ∧ s.shown h = timeSub s.now := by
  obtain ⟨h, hreg, hat, hbase, hwide, -, hdom, hlow⟩ :=
    regAt_isAt (off := DAT_NOW_SUB.off) (l := DAT_NOW_SUB) (acc := .ro) (high := false) (by decide +kernel)
  have habs : absentAt s.build DAT_NOW_SUB.off = false := by cases s.build <;> decide
  obtain ⟨hsl, hhe⟩ := tier_open_of_por hdom s
  refine ⟨h, ⟨hreg, hlow, habs, hsl, hhe, by rw [hwide]; decide, by decide, by decide⟩, hwide, ?_, ?_⟩
  · have hc : pairBases.contains DAT_NOW_SUB.off = true := by decide
    rw [pairOf, hbase, if_pos hc, hat]
  · have hd : s.derived DAT_NOW_SUB.off h.ix = some (timeSub s.now) := rfl
    have hw64 : DAT_NOW_SUB.width = 64 := rfl
    rw [State.shown, hbase, hd, hat, Option.getD_some, hw64]
    exact Nat.mod_eq_of_lt (Nat.lt_trans (timeSub_lt s.now) (by decide))

theorem shownAt_nowSec (s : State) : s.shownAt (DAT_NOW_SUB.off + 8) = timeSec s.now := by
  obtain ⟨h, hreg, hat, hbase, -⟩ :=
    regAt_isAt (off := DAT_NOW_SUB.off + 8) (l := DAT_NOW_SEC) (acc := .ro) (high := false) (by decide +kernel)
  have hd : s.derived DAT_NOW_SEC.off h.ix = some (timeSec s.now) := rfl
  have hw64 : DAT_NOW_SEC.width = 64 := rfl
  rw [State.shownAt, hreg, Option.map_some, Option.getD_some, State.shown, hbase, hd, hat, Option.getD_some, hw64]
  exact Nat.mod_eq_of_lt (encTime_high_lt _)

/-! ### Live counters (R145) -/

theorem each_pil {α : Type} (xs : List α) {f : α → State → State} (hf : ∀ x u, (f x u).pil = u.pil) (s : State) :
    (s.each xs f).pil = s.pil := by
  induction xs generalizing s with
  | nil => rfl
  | cons x xs ih => exact (ih _).trans (hf x s)

theorem countLanes_pil (lanes : List TapLane) (s : State) : (countLanes lanes s).pil = s.pil := by
  refine each_pil lanes (fun l u => ?_) s
  split
  · rfl
  · split <;> rfl

theorem podClock_fields (off : Nat) (running : Bool) (s : State) :
    (podClock off running s).build = s.build ∧ (podClock off running s).pins = s.pins ∧ (podClock off running s).pil = s.pil := by
  unfold podClock; dsimp only; split <;> exact ⟨rfl, rfl, rfl⟩

/-- The fields on which a read of a live counter turns are as they were before the lanes counted. -/
theorem clocked_fields (off : Nat) (running : Bool) (lanes : List TapLane) (s : State) :
    (podClock off running (countLanes lanes s)).build = s.build ∧ (podClock off running (countLanes lanes s)).pins = s.pins ∧
      (podClock off running (countLanes lanes s)).pil = s.pil := by
  obtain ⟨hb, hpins, hpil⟩ := podClock_fields off running (countLanes lanes s)
  obtain ⟨hb', hpins', -⟩ := countLanes_other lanes s
  exact ⟨hb.trans hb', hpins.trans hpins', hpil.trans (countLanes_pil lanes s)⟩

/-- The upper half of a counter lies in the same pod. -/
theorem podClock_high {n off : Nat} (ho : off = 0x100000 + 8 * n) (running : Bool) (s : State) :
    podClock (off + 4) running s = podClock off running s := by
  have hp : (off + 4 - 0x100000) / 8192 = (off - 0x100000) / 8192 := by omega
  have hin : (off + 4 < 0x100000 ∨ 0x180000 ≤ off + 4) ↔ (off < 0x100000 ∨ 0x180000 ≤ off) := by omega
  simp only [podClock, hp, hin]

theorem bit_clrBit (v i : Nat) : bit (clrBit v i) i = false := by
  simp [bit_eq_fld, clrBit]

theorem podClock_stopped {n off : Nat} (hn : n < 65536) (ho : off = 0x100000 + 8 * n) (running : Bool) (s : State) :
    bit (podClock off running s).tap.stopped (n / 1024) = !running := by
  have hp : (off - 0x100000) / 8192 = n / 1024 := by omega
  have hin : ¬(off < 0x100000 ∨ 0x180000 ≤ off) := by omega
  simp only [podClock, hp, if_neg hin]
  cases running with
  | true => exact bit_clrBit _ _
  | false => exact bit_setBit _ _

/-- What a read finds of a live counter whose pod's clock was found running or stopped. -/
theorem liveCounter_clocked {n off : Nat} (hn : n < 65536) (ho : off = 0x100000 + 8 * n) (running : Bool) {s t : State}
    (ht : t = podClock off running s) :
    liveCounter n t = if t.podOn (n / 1024) = true then (if running = true then (t.counter n, t) else (0, cdcTimed (n / 1024) t))
      else (0, t.evt TAP_EVT 0) := by
  have hs : bit t.tap.stopped (n / 1024) = !running := by rw [ht]; exact podClock_stopped hn ho running s
  unfold liveCounter
  rw [hs]
  cases t.podOn (n / 1024) <;> cases running <;> rfl

theorem absentAt_counter_leaf {off : Nat} (h : 0x100000 ≤ off) : absentAt .leaf off = false := by
  simp only [absentAt, absentRanges, List.any_cons, List.any_nil, Bool.or_false, Bool.or_eq_false_iff, Bool.and_eq_false_iff,
    decide_eq_false_iff_not]
  omega

theorem absentAt_counter_tray {off : Nat} (h : 0x100000 ≤ off) (h2 : off < 0x180000) : absentAt .tray off = true := by
  simp only [absentAt, absentRanges, List.any_cons, List.any_nil, Bool.or_false, Bool.or_eq_true, Bool.and_eq_true, decide_eq_true_eq]
  omega

/-! The collector reaches nothing of Pilot. -/

@[simp] theorem later_pil (x : Todo) (s : State) : (s.later x).pil = s.pil := rfl
@[simp] theorem quietRestart_pil (s : State) : (quietRestart s).pil = s.pil := rfl
@[simp] theorem rateNote_pil (source : Nat) (s : State) : (rateNote source s).pil = s.pil := rfl
@[simp] theorem setFltState_pil (n st : Nat) (s : State) : (setFltState n st s).pil = s.pil := setF_pil ..

@[simp] theorem logEvent_pil (kind : Nat) (data : List Byte) (s : State) : (logEvent kind data s).pil = s.pil := by
  simp only [logEvent, apply_ite State.pil, evt_pil, inc_pil, ite_self]

@[simp] theorem dieStopUpdate_pil (s : State) : (dieStopUpdate s).pil = s.pil := by
  simp only [dieStopUpdate, apply_ite State.pil, later_pil, ite_self]

@[simp] theorem fltApply_pil (s : State) : (fltApply s).pil = s.pil := by
  simp only [fltApply, dieStopUpdate_pil, putB_pil, setF_pil]

@[simp] theorem putStatus_pil (n : Nat) (b : Bool) (s : State) : (putStatus n b s).pil = s.pil := by
  simp only [putStatus, apply_ite State.pil, putB_pil, ite_self]

@[simp] theorem latchFault_pil (n : Nat) (s : State) : (latchFault n s).pil = s.pil := by
  simp only [latchFault, rateNote_pil, evt_pil, inc_pil, putStatus_pil, quietRestart_pil]

theorem withFlt_pil (s : State) (f : FaultSt) : ({ s with flt := f } : State).pil = s.pil := rfl

theorem ite_quietRestart_pil (p : Prop) [Decidable p] (s : State) : (if p then s else quietRestart s).pil = s.pil := by
  simp only [apply_ite State.pil, quietRestart_pil, ite_self]

@[simp] theorem escalate_pil (n : Nat) (s : State) : (escalate n s).pil = s.pil := by
  unfold escalate
  extract_lets c a f s1 s2 s3 g s4
  have h3 : s3.pil = s.pil := by
    unfold s3 s2 s1
    rw [later_pil, logEvent_pil, rateNote_pil, inc_pil, evt_pil, putB_pil, ite_quietRestart_pil, setFltState_pil, withFlt_pil]
  have h4 : s4.pil = s3.pil := by
    unfold s4
    split
    · split
      · exact later_pil _ _
      · split
        · exact (later_pil _ _).trans (withFlt_pil _ _)
        · rfl
    · rfl
  rw [fltApply_pil, h4, h3]

@[simp] theorem faultEdge_pil (n : Nat) (s : State) : (faultEdge n s).pil = s.pil := by
  simp only [faultEdge, apply_ite State.pil, rateNote_pil, inc_pil, quietRestart_pil, setFltState_pil, latchFault_pil, escalate_pil,
    ite_self]

@[simp] theorem cdcTimed_pil (x : Nat) (s : State) : (cdcTimed x s).pil = s.pil := by
  simp only [cdcTimed, each_pil _ faultEdge_pil, faultEdge_pil, apply_ite State.pil, wr_pil, evt_pil, inc_pil, ite_self]

theorem liveCounter_pil (n : Nat) (s : State) : (liveCounter n s).2.pil = s.pil := by
  simp only [liveCounter, apply_ite Prod.snd, apply_ite State.pil, evt_pil, cdcTimed_pil, ite_self]

/-- The window of the live counters answers: the build has it, and the port completes accesses. -/
structure CounterWindow (s : State) (off n : Nat) : Prop where
  up : s.pins.hrst = false
  leaf : s.build = .leaf
  off_eq : off = 0x100000 + 8 * n
  bound : n < 65536

theorem hostRead_counter {s : State} {off n : Nat} (hc : CounterWindow s off n) (rq : Nat) {v : Nat} {u : State}
    (hv : liveCounter n s = (v, u)) :
    hostRead rq off true s = u.emit (.readData rq off (BitVec.ofNat 64 v)) := by
  obtain ⟨hup, hleaf, ho, hn⟩ := hc
  have halign : off % 8 = 0 := by omega
  have hin : 0x100000 ≤ off ∧ off < 0x180000 := by omega
  have hno : (off - 0x100000) / 8 = n := by omega
  simp only [hostRead, hup, Bool.false_eq_true, if_false, if_true, halign, ne_eq, not_true, read64, hleaf, absentAt_counter_leaf hin.1,
    if_pos hin, hno, hv]

theorem hostRead_counterLow {s : State} {off n : Nat} (hc : CounterWindow s off n) (rq : Nat) {v : Nat} {u : State}
    (hv : liveCounter n s = (v, u)) :
    hostRead rq off false s = (putLatch rq (some { off := off, high := v / 2 ^ 32 }) u).emit
      (.readData rq off (BitVec.ofNat 64 (v % 2 ^ 32))) := by
  obtain ⟨hup, hleaf, ho, hn⟩ := hc
  have halign : off % 4 = 0 := by omega
  have h8 : off % 8 = 0 := by omega
  have hin : 0x100000 ≤ off ∧ off < 0x180000 := by omega
  have hap : ¬(0x10000 ≤ off ∧ off < 0x15000) := by omega
  have hno : (off - 0x100000) / 8 = n := by omega
  simp only [hostRead, hup, Bool.false_eq_true, if_false, halign, ne_eq, not_true, read32, hleaf, absentAt_counter_leaf hin.1, if_neg hap,
    if_pos hin, hno, hv, h8, Nat.sub_zero, readHalf]
  rfl

/-- The upper half is the latched one where the requester has read the lower half, and else that of the counter now. -/
theorem hostRead_counterHigh {s : State} {off n : Nat} (hc : CounterWindow s off n) (rq : Nat) {v : Nat} {u : State}
    (hv : liveCounter n s = (v, u)) :
    (∀ l, Tbl.get? s.pil.latches rq = some l → l.off = off →
      hostRead rq (off + 4) false s = (putLatch rq none s).emit (.readData rq (off + 4) (BitVec.ofNat 64 l.high))) ∧
    ((∀ l, Tbl.get? s.pil.latches rq = some l → l.off ≠ off) →
      hostRead rq (off + 4) false s = u.emit (.readData rq (off + 4) (BitVec.ofNat 64 (v / 2 ^ 32)))) := by
  obtain ⟨hup, hleaf, ho, hn⟩ := hc
  have halign : (off + 4) % 4 = 0 := by omega
  have h8 : (off + 4) % 8 = 4 := by omega
  have hin : 0x100000 ≤ off + 4 ∧ off + 4 < 0x180000 := by omega
  have hap : ¬(0x10000 ≤ off + 4 ∧ off + 4 < 0x15000) := by omega
  have hno : (off + 4 - 0x100000) / 8 = n := by omega
  have hread : read32 rq (off + 4) s = if s.latched rq off = true then readHalf rq off true 0 s else readHalf rq off true v u := by
    simp only [read32, hleaf, absentAt_counter_leaf hin.1, Bool.false_eq_true, if_false, if_neg hap, if_pos hin, hno, hv, h8,
      Nat.add_sub_cancel, true_and, beq_self_eq_true]
  simp only [hostRead, hup, Bool.false_eq_true, if_false, halign, ne_eq, not_true, hread]
  refine ⟨fun l hl hown => ?_, fun hother => ?_⟩
  · have hlatch : s.latched rq off = true := by simp [State.latched, hl, hown]
    rw [if_pos hlatch, readHalf_high_own hl hown]
  · have hlatch : ¬ s.latched rq off = true := by
      simp only [State.latched, beq_iff_eq, Option.map_eq_some_iff, not_exists, not_and]
      exact hother
    have hu : u.pil = s.pil := by
      rw [← liveCounter_pil n s, hv]
    rw [if_neg hlatch, readHalf_high_other (by rw [hu]; exact hother)]

/-- On a build without the window each 32-bit half of an access is refused (R2, R553). -/
theorem hostRead_absent {s : State} {off : Nat} {wide : Bool} (hup : s.pins.hrst = false) (halign : off % (if wide then 8 else 4) = 0)
    (habs : absentAt s.build off = true) (habs4 : wide = true → absentAt s.build (off + 4) = true) (rq : Nat) :
    hostRead rq off wide s = (if wide then (s.evt CAP_ABSENT_HIT 0).evt CAP_ABSENT_HIT 0 else s.evt CAP_ABSENT_HIT 0).emit
      (.readData rq off 0) := by
  have h32 : ∀ (u : State) (o : Nat), absentAt u.build o = true → read32 rq o u = (0, u.evt CAP_ABSENT_HIT 0) := by
    intro u o hu
    rw [read32, if_pos hu]
  cases wide with
  | true =>
    have h4 : absentAt (s.evt CAP_ABSENT_HIT 0).build (off + 4) = true := habs4 rfl
    simp only [if_true] at halign
    simp only [hostRead, hup, Bool.false_eq_true, if_false, if_true, halign, ne_eq, not_true, read64, habs, readHalves, h32 s off habs,
      h32 _ _ h4]
    rfl
  | false =>
    simp only [Bool.false_eq_true, if_false] at halign
    simp only [hostRead, hup, Bool.false_eq_true, if_false, halign, ne_eq, not_true, h32 s off habs]
    rfl

/-- Settles O18: the pairs of R60 from what their _SUB register shows, the counters from what a read finds of the pod and its clock. -/
theorem liveReadsComplete : Obligations.LiveReadsComplete := by
  refine ⟨fun rq off s h sub hp hn hw hpair wide => ?_, fun rq s hp wide => ?_,
    fun rq off s h sub a b hp hn hw hpair hreg habs hc => ?_, fun rq running lanes n off s t v hp hb hn ho ht hv => ?_,
    fun rq wide running lanes off s hp hb h1 h2 halign => ?_⟩
  · exact evNext_port hp (hostRead_capture hp hn hw hpair rq wide) id
  · obtain ⟨h, hn, hw, hpair, hshown⟩ := names_now s
    refine evNext_port hp ?_ id
    rw [hostRead_capture hp hn hw hpair, hshown, shownAt_nowSec]
    congr 2
    exact split48 _
  · exact evNext_port hp (hostRead_inReach hp (inReach_high hn hw hreg habs)
      (readReg32_captured (h := { h with high := true }) hw hpair rfl hc)) id
  · obtain ⟨hbt, hpins, hpil⟩ := clocked_fields off running lanes s
    rw [← ht] at hbt hpins hpil
    have hc : CounterWindow t off n := ⟨by rw [hpins]; exact hp.2, hbt.trans hb, ho, hn⟩
    have hcount : liveCounter n t = (v.1, v.2) := (liveCounter_clocked hn ho running ht).trans hv.symm
    obtain ⟨hown, hother⟩ := hostRead_counterHigh hc rq hcount
    rw [hpil] at hown hother
    refine ⟨?_, ?_, fun l hl hlo => ?_, fun hl => ?_⟩
    · exact (evNext_up hp.1.1).trans (by rw [← ht, hostRead_counter hc rq hcount])
    · exact (evNext_up hp.1.1).trans (by rw [← ht, hostRead_counterLow hc rq hcount])
    · exact (evNext_up hp.1.1).trans (by rw [podClock_high ho, ← ht, hown l hl hlo])
    · exact (evNext_up hp.1.1).trans (by rw [podClock_high ho, ← ht, hother hl])
  · obtain ⟨hbt, hpins, -⟩ := clocked_fields off running lanes s
    refine (evNext_up hp.1.1).trans ?_
    rw [hostRead_absent (by rw [hpins]; exact hp.2) halign (by rw [hbt, hb]; exact absentAt_counter_tray h1 h2)]
    intro hw
    simp only [hw, if_true] at halign
    rw [hbt, hb]
    exact absentAt_counter_tray (by omega) (by omega)

/-! ### Accesses that the port refuses -/

/-- An access of no register's size or alignment (R9). -/
theorem hostAccess_malformed {s : State} {off size : Nat} (hup : s.pins.hrst = false)
    (hbad : size ≠ 4 ∧ size ≠ 8 ∨ size = 4 ∧ off % 4 ≠ 0 ∨ size = 8 ∧ off % 8 ≠ 0) (rq : Nat) (write : Bool) (v : Nat) :
    hostAccess rq off write size v s =
      if write then s.evt CAP_ACC_ERR 0 else (s.evt CAP_ACC_ERR 0).emit (.readData rq off 0) := by
  rcases hbad with ⟨h4, h8⟩ | ⟨rfl, hodd⟩ | ⟨rfl, hodd⟩
  · simp only [hostAccess, h4, h8, or_self, if_false, hup, Bool.false_eq_true]
  · have hw : ((4 : Nat) == 8) = false := rfl
    simp only [hostAccess, hostWrite, hostRead, hw, hup, true_or, if_true, Bool.false_eq_true, if_false, ne_eq, hodd, not_false_iff]
  · have hw : ((8 : Nat) == 8) = true := rfl
    simp only [hostAccess, hostWrite, hostRead, hw, hup, or_true, if_true, Bool.false_eq_true, if_false, ne_eq, hodd, not_false_iff]

theorem hostWrite_absent {s : State} {off : Nat} (hup : s.pins.hrst = false) (halign : off % 4 = 0) (habs : absentAt s.build off = true)
    (hap : ¬(0x10000 ≤ off ∧ off < 0x15000)) (auth rq v : Nat) : hostWrite auth rq off false v s = s.evt CAP_ABSENT_HIT 0 := by
  simp only [hostWrite, hup, Bool.false_eq_true, if_false, halign, ne_eq, not_true, if_neg hap, write32, habs, if_true]

/-- Settles O20, check by check in the order of R551: the size, the range, the power of the tier, and its reset. -/
theorem refusedAccessesSetTheirBits : Obligations.RefusedAccessesSetTheirBits := by
  refine ⟨fun rq off write size data s hp hbad => ?_, fun rq off write data s hp halign habs hap => ?_,
    fun rq off write data s h hp halign habs hreg hsl hap hcnt => ?_,
    fun rq off data s h u hp halign habs hreg hsl hhe hw hu hap hcnt => ?_⟩
  · exact evNext_port hp (hostAccess_malformed hp.2 hbad rq write data.toNat) (by cases write <;> exact id)
  · refine evNext_port hp ?_ (by cases write <;> exact id)
    cases write with
    | true => exact hostWrite_absent hp.2 halign habs hap 0 rq data.toNat
    | false => exact hostRead_absent (wide := false) hp.2 halign habs (fun hf => absurd hf Bool.false_ne_true) rq
  · have hf : Found s off h := ⟨hreg, habs, halign, hap, hcnt⟩
    refine evNext_port hp ?_ (by cases write <;> exact id)
    cases write with
    | true =>
      refine (hostWrite_found hp.2 hf 0 rq data.toNat).trans ?_
      rw [tierWrite_asleep hsl, tierWrite_asleep hsl, ite_self]
      rfl
    | false => exact hostRead_found hp.2 hf rq (tierRead_asleep hsl _)
  · have hf : Found s off h := ⟨hreg, habs, halign, hap, hcnt⟩
    have hread : readReg32 rq h u = (u.shown h, readClear h u) := by simp only [readReg32, hw, if_true]
    subst hu
    refine ⟨(evNext_up hp.1.1).trans ?_, (evNext_up hp.1.1).trans ?_⟩
    · have hr := tierRead_held hsl hhe (readReg32 rq h)
      rw [if_neg Bool.false_ne_true]
      split
      next hstop => rw [hostRead_found hp.2 hf rq (hr.trans (if_pos hstop))]; rfl
      next hrun => rw [hostRead_found hp.2 hf rq ((hr.trans (if_neg hrun)).trans hread)]; rfl
    · rw [if_pos rfl, hostWrite_found hp.2 hf, hw, if_neg Bool.false_ne_true, tierWrite_held hsl hhe]

end Sys2Proof.Proofs
end

section
/-! PROOFS. The commands of stations, chains and the Timetable: what each one's own part answers on the operands it accepts. -/

set_option autoImplicit false

namespace Sys2Proof.Proofs
open Sys2Proof Sys2Proof.Machine Sys2Proof.Laws

/-! ### What the commands' own parts answer (R21, R114, R121, R128) -/

/-- A station number that fits the build is taken while FORD_HOLD is low on every chain and no context is held (R21). -/
theorem stationSet_accepts {c : Cmd} {u : State} (hfit : stationFits u.build (c.f 2 0 20) = true)
    (hford : ∀ ch ∈ u.chainList, u.getB (CHN_STATUS ch) 13 = false) (hctx : u.par.ctxs = []) :
    stationSet c u = (.reply 0x00 [], u.wr CHN_STATION (2 ^ 31 + c.f 2 0 20)) := by
  have hlow : ¬ u.chainList.any (fun ch => u.getB (CHN_STATUS ch) 13) = true := by simpa using hford
  have hnone : ¬ u.anyCtx = true := by simp [State.anyCtx, hctx]
  rw [stationSet, if_neg (by simp [hfit, hlow, hnone])]
  rfl

theorem chainSet_accepts {c : Cmd} {u : State} (hgood : ∀ p ∈ pairsOf c.params, chainSetBad p.1 p.2 = false) :
    chainSet c u = (.reply 0x00 [], u.each (pairsOf c.params) (fun p t =>
      if p.1 = 4 then t.wr CHN_CTL p.2 else if p.1 = 8 then t.wr CHN_LISTEN_DLY p.2 else t.wr CHN_LISTEN_DLY_E p.2)) := by
  have hnone : ¬ (pairsOf c.params).any (fun p => chainSetBad p.1 p.2) = true := by simpa using hgood
  rw [chainSet, if_neg hnone]
  rfl

/-- A splice with a lead of 16 to 4,096 cycles that nothing stands against is announced (R121, R128). -/
theorem spliceCmd_accepts {c : Cmd} {u : State} {st cyc : Nat} (hst : st = c.f 2 0 20)
    (hcyc : cyc = u.rd (TMT_CYC (stChain st)) + c.f 3 0 16) (hmin : 16 ≤ c.f 3 0 16) (hmax : c.f 3 0 16 ≤ 4096)
    (hgood : spliceBad u (stChain st) st (bit (c.w 2) 24) cyc = false) :
    spliceCmd c u = (.started .waiting (.nums [stChain st, st, b2n (bit (c.w 2) 24), cyc]),
      announce (stChain st) st (bit (c.w 2) 24) cyc u) := by
  subst hst hcyc
  rw [spliceCmd, if_neg (by simp only [Nat.not_lt.2 hmin, Nat.not_lt.2 hmax, hgood, Bool.false_eq_true, or_self, not_false_iff])]

theorem spliceReqCmd_accepts {c : Cmd} {u : State} (hin : u.inserted 0 = true) :
    spliceReqCmd c u = (.started .waiting .plain, u.emit (.spliceReq u.station)) := by
  rw [spliceReqCmd, if_neg (by simp [hin])]

/-- The state in which TMT_LOAD has stored the `n` entries of a list as the admin list of a direction and started a new round of
acknowledgements (R113). -/
def adminLoaded (ch dir ver n : Nat) (es : List Nat) (u : State) : State :=
  let v := ((putList ch (2 + dir) ((List.range n).zip es) u).setF (TMT_VER ch) 16 16 ver).putB (TMT_CTL ch) 0 true
  v.setChain ch { v.chain ch with adminGot := Tbl.set (v.chain ch).adminGot dir 0 }

/-- A list that R109 accepts and whose entries all have a START is stored and sent; the command waits for the acknowledgements
that are not in yet (R113, R128). -/
theorem tmtLoadCmd_accepts {c : Cmd} {u w : State} {ch dir : Nat} {es : List Nat} (hdir : dir = c.f 2 0 1) (hch : ch = c.f 2 1 1)
    (hn : c.f 2 8 7 ≤ 64) (hes : es = (List.range (c.f 2 8 7)).map (fun i => c.w64 (4 + 2 * i) % 2 ^ 48))
    (hgood : gateListBad es = 0) (hstart : ∀ e ∈ es, fld e 0 10 ≠ 0)
    (hw : w = sendAll ch 0xD 0 (tmtListBytes (c.f 3 0 16) dir 1 es) (adminLoaded ch dir (c.f 3 0 16) (c.f 2 8 7) es u)) :
    tmtLoadCmd c u = if ackedAll w ch dir then (.reply 0x00 [], w) else (.started .waiting (.nums [ch, dir]), w) := by
  have hall : ¬ es.any (fun e => fld e 0 10 == 0) = true := by simpa using hstart
  have hlong : gateListBad es ≠ 2 := by omega
  have hclash : gateListBad es ≠ 1 := by omega
  subst hdir hch hes hw
  simp only [tmtLoadCmd, Nat.not_lt.2 hn, hlong, hclash, hall, if_false]
  rfl

/-- Lists that have been loaded and acknowledged in both directions, 64 cycles ahead at least, are swapped by a ruling (R114). -/
theorem tmtSwapCmd_accepts {c : Cmd} {u : State} {ch t : Nat} (hch : ch = c.f 5 0 1) (htime : c.time 2 = some t)
    (hlead : (cycleTime 64 : Int) ≤ timeDiff t u.now)
    (hloaded : ∀ d, d < 2 → (Tbl.get? (u.chain ch).adminGot d).isSome ∧ ackedAll u ch d = true) :
    tmtSwapCmd c u = (.started .waiting (.nums [ch, cycleFrom t]),
      issueRuling .nobody
        { no := 0, kind := 7, atEpoch := false, fleet := true, effect := cycleTime (cycleFrom t) % clockMod, issuer := 0,
          level := 1, parcel := 0, body := leBytes 2 (u.getF (TMT_VER ch) 16 16) ++ leBytes 5 (cycleFrom t) ++ zeros 1,
          chain := ch } u) := by
  obtain ⟨hgot0, hack0⟩ := hloaded 0 (by decide)
  obtain ⟨hgot1, hack1⟩ := hloaded 1 (by decide)
  subst hch
  simp only [tmtSwapCmd, htime, Int.not_lt.2 hlead, hgot0, hgot1, hack0, hack1, Bool.true_eq_false, or_self, if_false]

/-- Settles O15: what each command's own part answers, under the rule for a command that runs. -/
theorem chainCommandsComplete : Obligations.ChainCommandsComplete := by
  refine ⟨fun c s u hr hfit hford hctx => runs_ok hr (stationSet_accepts hfit hford hctx),
    fun c s u hr hgood => runs_ok hr (chainSet_accepts hgood),
    fun c s u st cyc hr hst hcyc hmin hmax hgood => runs_started hr (spliceCmd_accepts hst hcyc hmin hmax hgood),
    fun c s u hr hin => runs_started hr (spliceReqCmd_accepts hin),
    fun c s u ch dir es v w hr hdir hch hn hes hgood hstart hv hw => ?tmtLoad,
    fun c s u ch t k hr hch htime hlead hloaded hk => ?tmtSwap,
    fun c s u ch sd m v w hr hsd hch hm hv hw => ?laneUnfence⟩
  case tmtLoad =>
    have hloaded : w = sendAll ch 0xD 0 (tmtListBytes (c.f 3 0 16) dir 1 es) (adminLoaded ch dir (c.f 3 0 16) (c.f 2 8 7) es u) := by
      rw [hw, hv]
      rfl
    have hown := tmtLoadCmd_accepts hdir hch hn hes hgood hstart hloaded
    split at hown
    next hacked => exact (runs_ok hr hown).trans (by rw [if_pos hacked])
    next hwaits => exact (runs_started hr hown).trans (by rw [if_neg hwaits])
  case tmtSwap =>
    subst hk
    exact runs_started hr (tmtSwapCmd_accepts hch htime hlead hloaded)
  case laneUnfence =>
    -- LANE_UNFENCE refuses no operand: its own part has one answer, the statement's.
    subst hsd hch hm hv hw
    exact runs_ok hr rfl

end Sys2Proof.Proofs
end

section
/-! PROOFS. How a Pilot command's row comes to the power of its unit, and what it finds there (R43, R409, R537). -/

set_option autoImplicit false

namespace Sys2Proof.Proofs
open Sys2Proof Sys2Proof.Machine Sys2Proof.Laws

/-! ### The opcode of a command's table entry (R425) -/

/-- What `pilotOp` finds for an opcode carries that opcode. -/
def CarriesOpcode (code : Nat) (x : Option (OpInfo × (Cmd → State → Ans × State))) : Prop :=
  ∀ o own, x = some (o, own) → o.code = code

theorem carriesOpcode_none (code : Nat) : CarriesOpcode code none := fun _ _ h => nomatch h

theorem carriesOpcode_entry {code k : Nat} {o : OpInfo} {own : Cmd → State → Ans × State}
    {rest : Option (OpInfo × (Cmd → State → Ans × State))} (hk : o.code = k) (hrest : CarriesOpcode code rest) :
    CarriesOpcode code (if code = k then some (o, own) else rest) := by
  split
  next heq =>
    intro o' own' h
    cases h
    exact hk.trans heq.symm
  next => exact hrest

/-- Each entry of the table of opcodes stands under its own opcode. -/
theorem pilotOp_carriesOpcode (code : Nat) (c : Cmd) : CarriesOpcode code (pilotOp code c) := by
  unfold pilotOp
  repeat refine carriesOpcode_entry rfl ?_
  exact carriesOpcode_none code

/-! ### A command that finds its unit without power -/

section
variable {o : OpInfo} {own : Cmd → State → Ans × State} {c : Cmd} {u : State}

/-- Fenced off by the bond test, the unit of a command refuses it, whatever ASYNC_OK (R537). -/
theorem started_fenced (hf : headerFault o c u = none) (hc : o.compute = true) (hb : u.getB PLM_POWER 2 = true) :
    started o own c u = sendReply false true c o.code 0x31 [] u := by
  simp only [started, hf]
  exact if_pos ⟨hc, hb⟩

/-- A command for a unit that is powered off, and not fenced off, is held where it may take an async slot (R43). -/
theorem started_off (hf : headerFault o c u = none) (hc : o.compute = true) (hb : u.getB PLM_POWER 2 = false)
    (hoff : u.computeOff = true) :
    started o own c u = if c.asyncOk ∧ u.rd PIL_ASYNC < 16 then requestWake (startJob { o with async := true } c .waitPower .plain u)
      else sendReply false true c o.code 0x20 [] u := by
  have hopen : ¬(o.compute = true ∧ u.getB PLM_POWER 2 = true) := by simp [hb]
  simp only [started, hf]
  exact (if_neg hopen).trans (if_pos ⟨hc, hoff⟩)

/-- The command of an opcode that reaches Pilot starts, from the state in which its own part would begin. -/
theorem runOpcode_reaches {code : Nat} {s : State} (hr : Reaches c s) (ho : pilotOp code c = some (o, own)) :
    runOpcode code c s = started o own c (opened c s) := by
  rw [← runCmd_reaches hr, runOpcode, ho]

/-- So does the row of such a command. -/
theorem exec_reaches {i : Instr} {code : Nat} {s : State} (hi : commandOf i = some (code, c)) (hr : Reaches c s)
    (ho : pilotOp code c = some (o, own)) : exec i s = .next (finish (started o own c (opened c s))) := by
  rw [exec_command hi, evNext_up hr.1, runOpcode_reaches hr ho]

end

/-- Settles O54: the command starts, and its start meets the fence first, then the power and the async slots. -/
theorem powerOfTheUnit : Obligations.PowerOfTheUnit := by
  intro i code c s o own u hi hr ho hu hf hc
  have hexec : exec i s = .next (finish (started o own c u)) := hu ▸ exec_reaches hi hr ho
  have hcode : o.code = code := pilotOp_carriesOpcode code c o own ho
  subst hcode
  refine ⟨fun hb => ?fenced, fun hb hoff => ⟨fun hasync hslot => ?held, fun hno => ?refused⟩⟩
  case fenced => rw [hexec, started_fenced hf hc hb]
  case held => rw [hexec, started_off hf hc hb hoff, if_pos ⟨hasync, hslot⟩]
  case refused =>
    have hnot : ¬(c.asyncOk = true ∧ u.rd PIL_ASYNC < 16) := by
      rintro ⟨hasync, hslot⟩
      rcases hno with hclear | hfull
      · exact absurd hasync (by simp [hclear])
      · exact absurd hslot (Nat.not_lt.2 hfull)
    rw [hexec, started_off hf hc hb hoff, if_neg hnot]

end Sys2Proof.Proofs
end

section
/-! PROOFS. Datum's servo and clock: the clamp of the adjustment (R59, R61), and one edge of DAT_CLK (R58, R80). -/

set_option autoImplicit false

namespace Sys2Proof.Proofs
open Sys2Proof Sys2Proof.Machine Sys2Proof.Laws

/-! ### The clamp (R59) -/

theorem clampAdj_bounds (z : Int) : -1717987 ≤ clampAdj z ∧ clampAdj z ≤ 1717987 := by
  rw [clampAdj_eq]
  omega

/-- DAT_FADJ reads back as the clamped sum of the clamped integral term and the proportional one. -/
theorem toInt_fadj_putServo (i p : Int) (s : State) : toInt 32 ((putServo i p s).rd DAT_FADJ) = clampAdj (clampAdj i + p) := by
  obtain ⟨hlo, hhi⟩ := clampAdj_bounds (clampAdj i + p)
  rw [rd_putServo, toInt_ofInt _ (by omega) (by omega)]

/-- A clamp that acts, on the integral term or on the sum, sets DAT_EVT.CLAMP. -/
theorem clamp_putServo {i p : Int} (s : State) (h : ¬(clampAdj i = i ∧ clampAdj (clampAdj i + p) = clampAdj i + p)) :
    (putServo i p s).getB DAT_EVT 4 = true := by
  have hact : putServo i p s =
      ((({ s with dat := { s.dat with integ := clampAdj i, prop := p } } : State).wr DAT_FADJ
        (ofInt 32 (clampAdj (clampAdj i + p))))).evt DAT_EVT 4 := if_neg h
  rw [hact, getB_evt_same _ _ _ (by decide)]

/-- A measurement as DAT_OFFSET shows it (R61, R91). -/
def offsetShown (o : Int) (s : State) : State := s.wr DAT_OFFSET (ofInt 64 (toInt 48 (ofInt 48 o)))

theorem datState_offsetShown (o : Int) (s : State) : (offsetShown o s).datState = s.datState := getF_wr_other s _ 0 3 (by decide)

theorem gmHeld_offsetShown (o : Int) (s : State) : (offsetShown o s).gmHeld = s.gmHeld := by
  have href : (offsetShown o s).datRef = s.datRef := getF_wr_other s _ 1 2 (by decide)
  rw [State.gmHeld, href]
  rfl

theorem servoEn_offsetShown (o : Int) (s : State) : (offsetShown o s).getB DAT_CTL 0 = s.getB DAT_CTL 0 :=
  getB_wr_other s _ 0 (by decide)

/-- How many measurements in a row have been beyond the unlock threshold, with this one (R62). -/
def unlockRun (o : Int) (s : State) : Nat := if s.getF DAT_THR 16 16 * 4096 < o.natAbs then s.dat.unlockCnt + 1 else 0

/-- A servo step in LOCKED, and the unlock count that follows it. -/
def lockedStep (o : Int) (s : State) : State :=
  { servoStep o s with dat := { (servoStep o s).dat with unlockCnt := unlockRun o s } }

/-- A measurement in LOCKED is a servo step, after which Datum may unlock (R61, R62). -/
theorem measure_locked {o : Int} {s : State} (hstate : s.datState = 2) (hen : s.getB DAT_CTL 0 = true) (hgm : s.gmHeld = false) :
    measure o s = if (offsetShown o s).getF DAT_COUNT 8 8 ≤ unlockRun o (offsetShown o s) then
        setDatState 1 (rateNote 7 ((lockedStep o (offsetShown o s)).evt DAT_EVT 1))
      else lockedStep o (offsetShown o s) := by
  have hon : ¬((offsetShown o s).getB DAT_CTL 0 = false ∨ (offsetShown o s).gmHeld = true) := by
    simp [servoEn_offsetShown, gmHeld_offsetShown, hen, hgm]
  have hlocked : (offsetShown o s).datState = 2 := (datState_offsetShown o s).trans hstate
  exact (if_neg hon).trans (if_pos hlocked)

/-- Unlocking leaves the adjustment of that step. -/
theorem fadj_measure_locked {o : Int} {s : State} (hstate : s.datState = 2) (hen : s.getB DAT_CTL 0 = true) (hgm : s.gmHeld = false) :
    (measure o s).rd DAT_FADJ = (servoStep o (offsetShown o s)).rd DAT_FADJ := by
  rw [measure_locked hstate hen hgm]
  split
  next => exact (rd_setDatState 1 _).trans (rd_evt_other (lockedStep o _) (l := DAT_EVT) 1 (by decide))
  next => rfl

/-- Settles O57: what `putServo` leaves in DAT_FADJ and in DAT_EVT, and a measurement in LOCKED is one `putServo`. -/
theorem servoIsClamped : Obligations.ServoIsClamped := by
  refine ⟨fun i p s => ?sum, fun i p s hact => ?clamp, fun o s hstate hen hgm => ?locked⟩
  case sum => rw [toInt_fadj_putServo, clampAdj_eq i, clampAdj_eq]
  case clamp =>
    refine clamp_putServo s ?_
    rw [clampAdj_eq i, clampAdj_eq]
    omega
  case locked =>
    rw [fadj_measure_locked hstate hen hgm, servoStep, toInt_fadj_putServo]
    exact clampAdj_bounds _

/-! ### One edge of DAT_CLK -/

/-- Pulses that have been high for their WIDTH fall at the edge, and no other (R58, R80). -/
theorem clockEdge_eq (s : State) : clockEdge s = { s with
    dat := { s.dat with
      clock := (((s.dat.clock : Int) + ((s.rd DAT_INC : Nat) + toInt 32 (s.rd DAT_FADJ))) % ((2 ^ 48 * 1000000000 * 2 ^ 32 : Nat) : Int)).toNat,
      edges := s.dat.edges + 1, pulseOut := s.dat.pulseOut.filter (fun e => !decide (e.2 ≤ s.dat.edges + 1)) },
    out := s.out ++ (s.dat.pulseOut.filter (fun e => decide (e.2 ≤ s.dat.edges + 1))).map (fun e => .pulse e.1 false) } := by
  have hmod : clockMod = 2 ^ 48 * 1000000000 * 2 ^ 32 := by decide
  rw [← hmod]
  rfl

theorem quiet_clockEdge {s : State} (h : Quiet s) : Quiet (clockEdge s) := h

/-- Nothing at Wake waits for a cycle: no timer runs, no session, no packet, and neither room nor leave is awaited. -/
structure WakeIdle (s : State) : Prop where
  timers : s.wak.timers = []
  capture : s.capture = 0
  queue : s.wak.queue = []
  flushing : s.wak.flushing = false
  stall : s.wak.stall = none
  askAt : s.wak.askAt = none
  room : s.drainWants = false ∨ s.dstRoom = true

namespace WakeIdle
variable {s : State} (h : WakeIdle s)
include h

theorem timersDue_eq : timersDue s = s := by
  have hexp : ∀ t, timerExpiry t s = s := fun t => by simp only [timerExpiry, h.timers]; rfl
  show timerExpiry 1 (timerExpiry 0 s) = s
  rw [hexp, hexp]

theorem wakStall_eq : wakStall s = s := by
  have hroom : ¬((s.drainWants && !s.dstRoom) = true) := by
    rcases h.room with hr | hr <;> simp [hr]
  have hnone : ¬(s.wak.stall.isSome = true) := by simp [h.stall]
  rw [wakStall, if_neg hroom, if_neg hnone]

theorem wakAskAgain_eq : wakAskAgain s = s := by
  rw [wakAskAgain, h.askAt]
  rfl

theorem wakRegions_eq : wakRegions s = s := by
  have hq : ({ s.wak with queue := [] } : WakSt) = s.wak := by rw [← h.queue]
  simp only [wakRegions, State.modWak, h.queue, List.filter_nil, List.map_nil, hq]

theorem wakSyncDue_eq : wakSyncDue s = s := by
  have hnot : s.capturing = false := by simp [State.capturing, h.capture]
  have hsync : wakSync 0 s = s := by simp [wakSync, hnot]
  rw [wakSyncDue, hsync, ite_self]

theorem wakMerge_eq : wakMerge s = s := by
  rw [wakMerge, h.queue]

/-- A cycle of Wake with nothing to do (R364, R366). -/
theorem wakTick_eq : wakTick s = s := by
  have hflush : ¬(s.wak.flushing = true ∧ s.wakQueued = 0 ∧ s.wak.queue = []) := by simp [h.flushing]
  simp only [wakTick, h.timersDue_eq, h.wakStall_eq, h.wakAskAgain_eq, h.capture, if_true, h.wakRegions_eq, h.wakSyncDue_eq,
    h.wakMerge_eq, if_neg hflush, ite_self]

end WakeIdle

/-- Settles O45: the queue being empty the step is `idle`, whose edge is Wake's cycle and the clock's. -/
theorem emptyQueueIsOneEdge : Obligations.EmptyQueueIsOneEdge := by
  intro s hempty
  refine ⟨fun hup u hu => ?edge, fun hr htimers hcap hqueue hflush hstall hask hroom => ?nothing, fun hpor => ?reset⟩
  case edge => rw [step_idle hempty, idle, hup, if_neg Bool.false_ne_true, datEdge, ← hu, clockEdge_eq]
  case nothing =>
    have hw : WakeIdle s := ⟨htimers, hcap, hqueue, hflush, hstall, hask, hroom⟩
    rw [step_idle hempty, idle, hr.1, if_neg Bool.false_ne_true, datEdge, hw.wakTick_eq, finish_quiet (quiet_clockEdge hr.2), clockEdge_eq]
  case reset => rw [step_idle hempty, idle, if_pos hpor]

end Sys2Proof.Proofs
end
section
/-! PROOFS. Datum's commands (R64, R78, R80, R81, R87 to R89): what each one's own part answers. -/

set_option autoImplicit false

namespace Sys2Proof.Proofs
open Sys2Proof Sys2Proof.Machine Sys2Proof.Laws

/-! ### MARK, TIME_SET, SERVO_SET, TIME_ROLE (R64, R78, R87 to R89) -/

theorem markCmd_answers {c : Cmd} {u v : State}
    (hv : v = (if bit (c.w 3) 0 then logEvent 0x50 (leBytes 4 (c.w 2) ++ timeBytes u.now) u else u)) :
    markCmd c u = (.reply 0x00 (timeWords u.now ++ [1#32]), if bit (c.w 3) 1 then wakMark (c.w 2) (timeBytes u.now) v else v) := by
  subst hv
  rfl

/-- The state in which TIME_SET has put the clock to `t`: VALID is set, the step counted and shown, and Wake is told (R78, R91). -/
def clockSet (t : Nat) (u : State) : State :=
  (rateNote 6 ((((putClock t u).putB DAT_STATE 4 true).inc DAT_STEPS 1).evt DAT_EVT 3)).later .clockStep

/-- At a grandmaster TIME_SET turns on whether a context is held (R78). -/
theorem timeSet_grandmaster {c : Cmd} {u : State} {t : Nat} (ht : c.time 2 = some t) (htray : u.isTray = true)
    (hgm : u.dat.role.role = 2) : timeSet c u = if u.anyCtx then (.reply 0x21 [], u) else (.reply 0x00 [], clockSet t u) := by
  have hrole : ¬(u.isTray = false ∨ u.dat.role.role ≠ 2) := by simp [htray, hgm]
  simp only [timeSet, timeSetCmd, ht, if_neg hrole]
  rfl

/-- Elsewhere it is refused. -/
theorem timeSet_elsewhere {c : Cmd} {u : State} {t : Nat} (ht : c.time 2 = some t) (hno : u.isTray = false ∨ u.dat.role.role ≠ 2) :
    timeSet c u = (.reply 0x12 [], u) := by
  simp only [timeSet, timeSetCmd, ht, if_pos hno]
  rfl

/-- Pairs that R89 accepts are all written, and what they change is settled where there are any. -/
theorem servoSet_accepts {c : Cmd} {u v : State} (hgood : ∀ p ∈ pairsOf c.params, servoPairBad u.build p.1 p.2 = false)
    (hv : v = u.each (pairsOf c.params) (fun p t => servoPut p.1 p.2 t)) :
    servoSet c u = (.reply 0x00 [], if pairsOf c.params = [] then v else
      roleSettled u.gmHeld (v.datRef != u.datRef || (u.getB DAT_CTL 0 && !v.getB DAT_CTL 0)) v) := by
  have hnone : ¬ (pairsOf c.params).any (fun p => servoPairBad u.build p.1 p.2) = true := by simpa using hgood
  subst hv
  exact if_neg hnone

theorem timeRoleCmd_accepts {c : Cmd} {u : State} (hn : c.w 9 ≤ 64) (hrole : c.f 2 0 2 ≠ 3) (hsync : c.f 2 12 4 ≤ 7)
    (hdreq : c.f 2 16 4 ≤ 7) :
    timeRoleCmd c u = (.reply 0x00 [], roleSettled u.gmHeld false { u with dat := { u.dat with
      role := { role := c.f 2 0 2, layer2 := bit (c.w 2) 2, domain := c.f 2 4 7, syncLog := c.f 2 12 4, dreqLog := c.f 2 16 4,
                asym := toInt 32 (c.w 3), master := c.ip 4, children := ipList c 10 (c.w 9) } } }) :=
  if_neg (by omega)

/-! ### PULSE_SET (R80, R81) -/

/-- The registers of output `n` as PULSE_SET writes them. -/
def pulseWritten (n start per ctl : Nat) (u : State) : State :=
  (((u.wr (DAT_PLS_SUB n) (timeSub start)).wr (DAT_PLS_SEC n) (timeSec start)).wr (DAT_PLS_PER n) per).wr (DAT_PLS_CTL n) (ctl &&& 0xC000FFFF)

section
variable {c : Cmd} {u : State} {start : Nat} (hstart : c.time 3 = some start) (hwidth : c.f 7 0 16 ≠ 0)
include hstart hwidth

/-- A single pulse with a lead of 1 µs is set as it is asked for … -/
theorem pulseSet_single (hper : c.w 6 = 0) (hlead : u.now + 1000 * 2 ^ 32 ≤ start) :
    pulseSet c u = (.reply 0x00 [], pulseHold (putPulseNext (c.f 2 0 3) 0 (pulseWritten (c.f 2 0 3) start 0 (c.w 7) u))) := by
  have hlate : ¬ start < u.now + nsU 1000 := Nat.not_lt.2 hlead
  simp only [pulseSet, hstart, hwidth, hper, hlate, ne_eq, not_true, false_and, and_false, or_self, if_false]
  rfl

/-- … and one with less lead comes too late. -/
theorem pulseSet_singleLate (hper : c.w 6 = 0) (hlate : start < u.now + 1000 * 2 ^ 32) : pulseSet c u = (.reply 0x14 [], u) := by
  have hlate' : start < u.now + nsU 1000 := hlate
  simp only [pulseSet, hstart, hwidth, hper, hlate', ne_eq, not_true, false_and, or_self, if_false, and_self, if_true]
  rfl

/-- A period of 8 ns or more that leaves its pulses apart is accepted: pulses before the clock are passed over, with DAT_EVT.PULSE_LATE
(R81, R91). -/
theorem pulseSet_periodic {k : Nat} (hmin : 8 ≤ c.w 6) (hfit : 4 * (c.f 7 0 16 + 1) ≤ 5 * c.w 6)
    (hk : k = ceilDiv (u.now + 1000 * 2 ^ 32 - start) (c.w 6 * 2 ^ 32)) :
    pulseSet c u = (.reply 0x00 [],
      if start < u.now then (pulseHold (putPulseNext (c.f 2 0 3) k (pulseWritten (c.f 2 0 3) start (c.w 6) (c.w 7) u))).evt DAT_EVT 9
      else pulseHold (putPulseNext (c.f 2 0 3) 0 (pulseWritten (c.f 2 0 3) start (c.w 6) (c.w 7) u))) := by
  have hper : c.w 6 ≠ 0 := by omega
  have hshort : ¬ c.w 6 < 8 := Nat.not_lt.2 hmin
  have hwide : ¬ 5 * c.w 6 < 4 * (c.f 7 0 16 + 1) := Nat.not_lt.2 hfit
  have hfirst : start < u.now → firstEdge start (c.w 6) (u.now + nsU 1000) = k := fun hpast => by
    rw [hk]
    exact if_neg (Nat.not_le.2 (Nat.lt_of_lt_of_le hpast (Nat.le_add_right _ _)))
  simp only [pulseSet, hstart, hwidth, hper, hshort, hwide, ne_eq, not_false_eq_true, true_and, false_and, or_self, if_false]
  split
  next hpast => rw [hfirst hpast]; rfl
  next => rfl

end

/-! ### TIME_PROBE (R88) -/

theorem timeProbeCmd_none {c : Cmd} {u : State} (hn : c.w 6 = 0) :
    timeProbeCmd c u = (.reply 0x00 (List.replicate 8 0#32), u) := by
  simp only [timeProbeCmd, hn, if_true]
  rfl

/-- A probe of 1 to 64 exchanges asks its peer, and waits for what it answers. -/
theorem timeProbeCmd_starts {c : Cmd} {u v : State} {q : Nat} (h0 : c.w 6 ≠ 0) (hn : c.w 6 ≤ 64)
    (hq : delayReqTo false (c.ip 2) u = (q, v)) :
    timeProbeCmd c u = (.started .running .plain,
      modPtp (fun p => { p with runs := p.runs ++ [{ job := u.pil.nextJob, peer := c.ip 2, left := c.w 6,
                                                     ex := { PtpEx.blank with dreqSeq := some q }, found := [] }] }) v) := by
  simp only [timeProbeCmd, Nat.not_lt.2 hn, h0, if_false, hq]

/-- Settles O13: what each command's own part answers, under the rule for a command that runs. -/
theorem datumCommandsComplete : Obligations.DatumCommandsComplete := by
  refine ⟨fun c s u v hr hv => runs_ok hr (markCmd_answers hv),
    fun c s u t hr ht htray hgm hctx => ?timeSet, fun c s u t hr ht htray hgm hctx => ?timeSetBusy,
    fun c s u t hr ht hno => runs_refused hr (timeSet_elsewhere ht hno) (by decide) (by decide),
    fun c s u v hr hgood hne hv => ?servoSet, fun c s u hr hnone => ?servoSetNone,
    fun c s u hr hn hrole hsync hdreq => runs_ok hr (timeRoleCmd_accepts hn hrole hsync hdreq),
    fun c s u start v hr hstart hwidth hper hlead hv => ?pulseSingle,
    fun c s u start v k hr hstart hwidth hmin hfit hv hk => ?pulsePeriodic,
    fun c s u start hr hstart hwidth hper hlate => ?pulseLate,
    fun c s u hr hn => runs_ok hr (timeProbeCmd_none hn),
    fun c s u q v hr h0 hn hq => runs_started hr (timeProbeCmd_starts h0 hn hq)⟩
  case timeSet =>
    have hfree : ¬ u.anyCtx = true := by simp [State.anyCtx, hctx]
    exact runs_ok hr ((timeSet_grandmaster ht htray hgm).trans (if_neg hfree))
  case timeSetBusy =>
    have hheld : u.anyCtx = true := by simpa [State.anyCtx] using hctx
    exact runs_refused hr ((timeSet_grandmaster ht htray hgm).trans (if_pos hheld)) (by decide) (by decide)
  case servoSet => exact runs_ok hr ((servoSet_accepts hgood hv).trans (by rw [if_neg hne]))
  case servoSetNone =>
    have hps : pairsOf c.params = [] := by rw [hnone]; rfl
    exact runs_ok hr ((servoSet_accepts (by simp [hps]) rfl).trans (by rw [if_pos hps, hps]; rfl))
  case pulseSingle => subst hv; exact runs_ok hr (pulseSet_single hstart hwidth hper hlead)
  case pulsePeriodic => subst hv; exact runs_ok hr (pulseSet_periodic hstart hwidth hmin hfit hk)
  case pulseLate => exact runs_refused hr (pulseSet_singleLate hstart hwidth hper hlate) (by decide) (by decide)

end Sys2Proof.Proofs
end
section
/-! PROOFS. Reference time and the pins of time: how an event's row ends, what a time word brings at a leaf and at its tray build (R66,
R68, R72, R74), what misses do to the servo (R62), and the edges, slots and DIE_STOP (R80, R83, R85, R533). -/

set_option autoImplicit false

namespace Sys2Proof.Proofs
open Sys2Proof Sys2Proof.Machine Sys2Proof.Laws

/-! ### How the row of an event ends -/

/-- The row of an event outside reset is its effect, finished. -/
theorem evNext_running {f : State → State} {s t : State} (hr : Running s) (hf : f s = t) : evNext f s = .next (finish t) := by
  rw [evNext_up hr.1, hf]

/-- An event that changes nothing leaves the block as it is. -/
theorem evNext_unchanged {f : State → State} {s : State} (hr : Running s) (hf : f s = s) : evNext f s = .next s :=
  evNext_quiet hr.1 hf hr.2

/-! ### Time words (R68, R72, R74) -/

/-- A row of type 0xA with a right CRC and a well-formed time is a time word. -/
theorem timeWordOf_some {blocks : List Block} {bs : List Byte} {origin : Nat} (hrow : rowPayload 0xA blocks = some bs)
    (hok : rowOk bs = true) (htime : decTime (leAt bs 0 12) = some origin) : timeWordOf blocks = some (origin, bs) := by
  simp only [timeWordOf, rowMessage, hrow, Option.filter_some, hok, if_true, Option.bind_some, htime, Option.map_some]

/-- No other row is. -/
theorem timeWordOf_none {blocks : List Block}
    (hbad : ∀ bs, rowPayload 0xA blocks = some bs → rowOk bs = false ∨ decTime (leAt bs 0 12) = none) : timeWordOf blocks = none := by
  cases hmsg : (rowPayload 0xA blocks).filter rowOk with
  | none => simp only [timeWordOf, rowMessage, hmsg, Option.bind_none]
  | some bs =>
    obtain ⟨hrow, hok⟩ := Option.filter_eq_some_iff.1 hmsg
    have htime : decTime (leAt bs 0 12) = none := (hbad bs hrow).resolve_left (by simp [hok])
    simp only [timeWordOf, rowMessage, hmsg, Option.bind_some, htime, Option.map_none]

section
variable {sd : Side} {blocks : List Block} {bs : List Byte} {origin rx tx : Nat} {s t v : State}

/-- A leaf that is not HEADLESS has no more to send for a time word than the word itself. -/
theorem timeWordIn_eq (hmode : s.chMode 0 ≠ 0) : timeWordIn sd blocks rx tx s = timeWordReceive sd blocks rx tx s := by
  simp only [timeWordIn, hmode, false_and, and_false, if_false]

/-- A side whose D is seeded, or a leaf in bypass: the word is taken where it is the reference, and forwarded where the leaf is
inserted. -/
theorem timeWordReceive_seeded (hleaf : s.isTray = false) (hword : timeWordOf blocks = some (origin, bs))
    (ht : t = wordNote sd (bit (leAt bs 20 1) 5) (wordFields bs s)) (hseed : t.inserted 0 = false ∨ t.unseeded 0 sd = false)
    (hv : v = if t.datRef = 0 ∧ (bit (leAt bs 20 1) 5 && bit (leAt bs 20 1) 6) = false then wordTake sd origin bs rx t else t) :
    timeWordReceive sd blocks rx tx s = if v.inserted 0 = true then wordForward sd bs rx tx v else v := by
  have hnot : ¬(t.inserted 0 = true ∧ t.unseeded 0 sd = true) := by
    rcases hseed with h | h <;> simp [h]
  subst hv ht
  simp only [timeWordReceive, hleaf, Bool.false_eq_true, if_false, hword]
  exact if_neg hnot

theorem timeWordReceive_malformed (hleaf : s.isTray = false) (hword : timeWordOf blocks = none) :
    timeWordReceive sd blocks rx tx s = s.inc DAT_TW_ERR 1 := by
  simp only [timeWordReceive, hleaf, Bool.false_eq_true, if_false, hword]

/-- A row that is no time word leaves the mode of the ring, and the leaf in HEADLESS where it was there. -/
theorem timeWordIn_malformed (hleaf : s.isTray = false) (hword : timeWordOf blocks = none) :
    timeWordIn sd blocks rx tx s = s.inc DAT_TW_ERR 1 := by
  have hmode : (s.inc DAT_TW_ERR 1).chMode 0 = s.chMode 0 := getF_wr_other s _ 8 2 (by decide)
  rw [timeWordIn, timeWordReceive_malformed hleaf hword, hmode]
  exact if_neg (fun h => h.2.2 h.2.1)

end

/-- The tray build's own word comes back to the head of a chain: its measurement, and H against the roster (R74, R126). -/
theorem timeWordBack_returns {ch origin rx : Nat} {blocks : List Block} {bs : List Byte} {s : State} (htray : s.isTray = true)
    (hin : s.inserted ch = true) (hword : timeWordOf blocks = some (origin, bs)) :
    timeWordBack ch blocks rx s = hopCheck ch (wordReturn ch origin bs rx s) := by
  simp only [timeWordBack, htray, hin, Bool.true_eq_false, or_self, if_false, hword]

/-! ### Misses and the end of HOLDOVER (R62) -/

section
variable {s : State} (hgm : s.gmHeld = false)
include hgm

theorem refTimeout_locked (hs : s.datState = 2) : refTimeout s = setDatState 3 (putServo s.dat.integ 0 s) := by
  rw [refTimeout, hgm, if_neg Bool.false_ne_true, if_pos hs, dropProp]

theorem refTimeout_acquire (hs : s.datState = 1) : refTimeout s = setDatState 0 (putServo s.dat.integ 0 s) := by
  have hlocked : ¬ s.datState = 2 := by omega
  rw [refTimeout, hgm, if_neg Bool.false_ne_true, if_neg hlocked, if_pos hs, dropProp]

end

theorem holdoverExpiry_holdover {s : State} (hs : s.datState = 3) :
    holdoverExpiry s = faultEdge 1 (setDatState 0 (s.evt DAT_EVT 2)) := if_pos hs

/-- Settles O31: what a time word brings turns on whether the leaf takes it and whether it is inserted; the rest is one case each. -/
theorem referenceEventsComplete : Obligations.ReferenceEventsComplete := by
  refine ⟨?taken, ?passed, fun sd blocks rx tx s hr hleaf hbad => ?malformed,
    fun ch blocks bs origin rx s hr htray hch hin hrow hok htime => ?returned,
    fun s hr hgm => ⟨fun hs => evNext_running hr (refTimeout_locked hgm hs), fun hs => evNext_running hr (refTimeout_acquire hgm hs)⟩,
    fun s hr hs => evNext_running hr (holdoverExpiry_holdover hs)⟩
  case taken =>
    intro sd blocks bs rx tx s f t u origin flags hr hleaf hrow hok htime hflags hf ht hmode hseed href hsecond hu w v hw hv
    subst hflags hf
    have htake : v = wordTake sd origin bs rx t := by
      subst hv hw hu
      rfl
    have hreceive := timeWordReceive_seeded (rx := rx) (tx := tx) hleaf (timeWordOf_some hrow hok htime) ht hseed
      (htake.trans (if_pos ⟨href, hsecond⟩).symm)
    exact evNext_running hr ((timeWordIn_eq hmode).trans hreceive)
  case passed =>
    intro sd blocks bs rx tx s f t origin flags hr hleaf hrow hok htime hflags hf ht hmode hseed hother
    subst hflags hf
    have hnot : ¬(t.datRef = 0 ∧ (bit (leAt bs 20 1) 5 && bit (leAt bs 20 1) 6) = false) := by
      rintro ⟨href, hfirst⟩
      rcases hother with hother | hsecond
      · exact hother href
      · exact absurd (hsecond.symm.trans hfirst) (by decide)
    have hreceive := timeWordReceive_seeded (rx := rx) (tx := tx) hleaf (timeWordOf_some hrow hok htime) ht hseed (if_neg hnot).symm
    exact evNext_running hr ((timeWordIn_eq hmode).trans hreceive)
  case malformed => exact evNext_quiet hr.1 (timeWordIn_malformed hleaf (timeWordOf_none hbad)) (quiet_inc hr.2 _ _)
  case returned =>
    refine evNext_running hr ?_
    rw [onChain_eq (tray_chain htray hch), timeWordBack_returns htray hin (timeWordOf_some hrow hok htime)]

/-! ### Beats, PPS and pulses (R76, R77, R80, R85, R91) -/

theorem beatRise_eq {n : Nat} (hn : n < 8) (edge : Nat) (s : State) : beatRise n edge s = wakEvents [.beat n] (beatStamped n edge s) :=
  if_neg (Nat.not_le.2 hn)

/-- A PPS edge has been seen. -/
def ppsSeen (s : State) : State := ({ s with dat := { s.dat with ppsMiss := 0 } } : State).putB DAT_STATE 5 true

/-- At a grandmaster with REF 2 a PPS edge is a measurement of the nearest whole second. -/
theorem ppsEdge_grandmaster {edge t : Nat} {s : State} (htray : s.isTray = true) (hgm : s.dat.role.role = 2) (href : s.datRef = 2)
    (ht : t = beatStamp edge) :
    ppsEdge edge s = measure (timeDiff ((t + secU / 2) / secU * secU % clockMod) t / 65536) (ppsSeen s) := by
  have href' : (ppsSeen s).datRef = 2 := (getF_wr_other _ _ 1 2 (by decide)).trans href
  subst ht
  exact if_pos ⟨htray, hgm, href'⟩

/-- PPS_SEEN falls at the second miss in a row. -/
theorem ppsMiss_eq {s t : State} (ht : t = ({ s with dat := { s.dat with ppsMiss := s.dat.ppsMiss + 1 } } : State).evt DAT_EVT 7) :
    ppsMiss s = if 1 ≤ s.dat.ppsMiss then t.putB DAT_STATE 5 false else t := by
  subst ht
  split
  next hsecond => exact if_pos (Nat.succ_le_succ hsecond)
  next hfirst => exact if_neg (fun h => hfirst (Nat.le_of_succ_le_succ h))

/-- An output has an edge to come while it is periodic, or its single edge has not been raised. -/
theorem pulseNextTime_isSome {n : Nat} {s : State} (h : (Tbl.get? s.dat.pulseNext n).getD 0 = 0 ∨ s.rd (DAT_PLS_PER n) ≠ 0) :
    ∃ t, s.pulseNextTime n = some t := by
  unfold State.pulseNextTime
  dsimp only
  split
  next hper => exact ⟨_, if_pos (h.resolve_right (absurd hper))⟩
  next => exact ⟨_, rfl⟩

/-- The edge that falls due raises an output that may rise, and is passed over by one that is held low. -/
theorem pulseEdge_due {n k : Nat} {s t : State} (hk : k = (Tbl.get? s.dat.pulseNext n).getD 0) (hdue : k = 0 ∨ s.rd (DAT_PLS_PER n) ≠ 0)
    (ht : t = ({ s with dat := { s.dat with pulseNext := Tbl.set s.dat.pulseNext n (k + 1) } } : State)) :
    pulseEdge n s = if s.pulseLive n = true then
        ({ t with dat := { t.dat with pulseOut := Tbl.set t.dat.pulseOut n (t.dat.edges + s.getF (DAT_PLS_CTL n) 0 16) } } : State).emit
          (.pulse n true)
      else t := by
  subst hk ht
  obtain ⟨e, he⟩ := pulseNextTime_isSome hdue
  simp only [pulseEdge, he]

/-! ### Stop slots and DIE_STOP (R83, R533) -/

theorem stopFire_armed {m : Nat} {s : State} (hm : m < 4) (harm : s.getB (DAT_STOP_CTL m) 0 = true)
    (hfired : s.getB (DAT_STOP_CTL m) 1 = false) : stopFire m s = dieStopUpdate ((s.putB (DAT_STOP_CTL m) 1 true).evt DAT_EVT 8) :=
  if_pos ⟨hm, harm, hfired⟩

theorem dieStopRelease_falls {s : State} (hstop : s.dat.dieStop = true) (hwant : s.stopWanted = false)
    (hmin : s.dat.dieRise + 1250 ≤ s.dat.edges) : dieStopRelease s = lineFall 11 { s with dat := { s.dat with dieStop := false } } :=
  if_pos ⟨hstop, hwant, hmin⟩

/-- Settles O32: each pin's event in the case its hypotheses give. -/
theorem timePinEventsComplete : Obligations.TimePinEventsComplete := by
  refine ⟨fun n edge s hr hn => evNext_running hr (beatRise_eq hn edge s),
    fun edge s t hr htray hgm href ht => evNext_running hr (ppsEdge_grandmaster htray hgm href ht),
    fun s t hr ht => evNext_running hr (ppsMiss_eq ht),
    fun n s k t hr hk hdue ht => evNext_running hr (pulseEdge_due hk hdue ht),
    fun m s hr hm harm hfired => evNext_running hr (stopFire_armed hm harm hfired),
    fun s hr hstop hwant hmin => evNext_quiet hr.1 (dieStopRelease_falls hstop hwant hmin) hr.2,
    fun s hr => ⟨evNext_quiet hr.1 (f := dieStopAck true) rfl hr.2, evNext_quiet hr.1 (f := dieStopAck false) rfl hr.2⟩,
    fun s hr hstop hack => evNext_running hr (if_pos ⟨hstop, hack⟩)⟩

end Sys2Proof.Proofs
end

section
/-! PROOFS. The 1588 port of a tray build (R75, R76, R503), and the strobe of a parcel (R82, R169, R256). -/

set_option autoImplicit false

namespace Sys2Proof.Proofs
open Sys2Proof Sys2Proof.Machine Sys2Proof.Laws

/-! ### The 1588 port -/

/-- A frame for this station, or for every 1588 port, goes to its own port where it carries a message (R75). -/
theorem ptpReceive_own {st off stamp : Nat} {bs : List Byte} {s : State} (htray : s.isTray = true) (hon : s.streamOn st = true)
    (hmac : leAt bs 0 6 = s.rd LND_MAC ∨ leAt bs 0 6 = ptpMac) (hoff : ptpOffset bs = some off) :
    ptpReceive st bs stamp s = ptpIn st off bs (s.lndRxStamp stamp) s := by
  have hserved : ¬(s.isTray = false ∨ s.streamOn st = false) := by simp [htray, hon]
  have hown : ¬(leAt bs 0 6 ≠ s.rd LND_MAC ∧ leAt bs 0 6 ≠ ptpMac) := fun h => hmac.elim h.1 h.2
  rw [ptpReceive, if_neg hserved, if_neg hown, hoff]

/-- A message of its domain with a right checksum is taken. -/
theorem ptpIn_taken {st off rx : Nat} {bs : List Byte} {m : PtpMsg} {s : State} (hmsg : ptpOf (bs.drop off) = some m)
    (hsum : ptpSumOk bs off = true) (hdom : m.domain = s.dat.role.domain) :
    ptpIn st off bs rx s = ptpMessage st (off == 14) (leAt bs 22 16) (bs.drop off) m rx s := by
  have hgood : ¬(ptpSumOk bs off = false ∨ m.domain ≠ s.dat.role.domain) := by simp [hsum, hdom]
  simp only [ptpIn, hmsg, if_neg hgood]

/-- A frame for another MAC address is forwarded (R503). -/
theorem ptpReceive_other {st stamp : Nat} {bs : List Byte} {s : State} (htray : s.isTray = true) (hon : s.streamOn st = true)
    (hmac : leAt bs 0 6 ≠ s.rd LND_MAC) (hall : leAt bs 0 6 ≠ ptpMac) :
    ptpReceive st bs stamp s = forwardFrame st bs (s.lndRxStamp stamp) s := by
  have hserved : ¬(s.isTray = false ∨ s.streamOn st = false) := by simp [htray, hon]
  rw [ptpReceive, if_neg hserved, if_pos ⟨hmac, hall⟩]

theorem ptpSyncSend_role {s : State} (htray : s.isTray = true) (hrole : s.dat.role.role ≠ 0) :
    ptpSyncSend s = modPtp (fun p => { p with seqSync := (p.seqSync + 1) % 65536 })
      (s.each (if s.dat.role.layer2 = true then [0] else s.dat.role.children) syncTo) :=
  if_neg (by simp [htray, hrole])

/-- A slave's Delay_Req takes the next number, and the exchange its number and its stamp t3 (R76). -/
theorem delayReqSend_slave {tx : Nat} {s t : State} (htray : s.isTray = true) (hrole : s.dat.role.role = 1)
    (ht : t = queueTime 0 (ptpFrame s s.dat.role.layer2 0 ptpDelayReq s.dat.role.master
      (ptpBytes s 0 ptpDelayReq s.dat.ptp.seqDreq 0 0x7F (zeros 10))) s) :
    delayReqSend tx s = modPtp (fun p => { p with
      seqDreq := (p.seqDreq + 1) % 65536,
      ex := { p.ex with dreqSeq := some s.dat.ptp.seqDreq, t3 := some (s.lndTxStamp tx) } }) t := by
  subst ht
  exact if_neg (by simp [htray, hrole])

/-- Settles O33: whose frame it is decides what the port receives, and its role what it sends. -/
theorem ptpEventsComplete : Obligations.PtpEventsComplete :=
  ⟨fun _ _ _ _ _ _ hr htray hon hmac hoff hmsg hsum hdom =>
      evNext_running hr ((ptpReceive_own htray hon hmac hoff).trans (ptpIn_taken hmsg hsum hdom)),
    fun _ _ _ _ hr htray hon hmac hall => evNext_running hr (ptpReceive_other htray hon hmac hall),
    fun _ hr htray hrole => evNext_running hr (ptpSyncSend_role htray hrole),
    fun _ _ _ hr htray hrole ht => evNext_running hr (delayReqSend_slave htray hrole ht)⟩

/-! ### The strobe -/

/-- What each change of a run leaves as it was, the run leaves. -/
theorem each_leaves {α β : Type} (part : State → β) (xs : List α) {f : α → State → State} (hf : ∀ x u, part (f x u) = part u)
    (s : State) : part (s.each xs f) = part s := by
  induction xs generalizing s with
  | nil => rfl
  | cons x xs ih => exact (ih _).trans (hf x s)

/-- Counting lanes leaves the power state. -/
theorem countLanes_powerState (lanes : List TapLane) (s : State) : (countLanes lanes s).powerState = s.powerState := by
  refine each_leaves State.powerState lanes (fun l u => ?_) s
  split
  · rfl
  · split <;> rfl

/-- The contexts of a parcel in which a strobe is a boundary: those armed, live or in release (R169). -/
def strobed (parcel : Nat) (s : State) : List (Nat × Ctx) :=
  ((List.range 5).filterMap (fun l => s.ctxAt parcel l)).filter (fun e =>
    e.2.phase == .armed || e.2.phase == .live || e.2.phase == .releasing)

/-- The cut of a strobe's edge, its lanes counted first; none is taken while the compute tier is off (R54, R136). -/
def strobeCut (lanes : List TapLane) (s : State) : Nat × State :=
  if (countLanes lanes s).powerState = 2 then (0, countLanes lanes s) else takeCut (countLanes lanes s)

/-- The epochs in progress of the contexts end with the cut, and the rulings due at boundary `k` are applied (R169, R256). -/
def strobeEnds (parcel k cut : Nat) (cs : List (Nat × Ctx)) (t : State) : State :=
  (t.each cs (fun e x => epochEnd e.1 cut x)).each ((t.each cs (fun e x => epochEnd e.1 cut x)).dueRulings parcel k) epochRuling

/-- The next epochs begin, the first boundary with the parcel's place in the commit sequence; then the own values that can be formed
are (R157, R240, R248). -/
def strobeBegins (parcel cut : Nat) (c : Ctx) (cs : List (Nat × Ctx)) (v : State) : State :=
  let q := v.seqFor parcel c.t0
  let w := (if c.next = 0 then seqTake q v else v).each cs (fun e x => epochBegin e.1 cut q x)
  pruneBeats (oldestStart w) (pruneCuts (evalReady w))

/-- A strobe that a context of the parcel waits for, no later than the last epoch's (R170). -/
theorem strobe_boundary {parcel : Nat} {lanes : List TapLane} {s : State} {n : Nat} {c : Ctx}
    (hhead : (strobed parcel s).head? = some (n, c)) (hlimit : c.next ≤ epochLimit) :
    strobe parcel lanes s = strobeBegins parcel (strobeCut lanes s).1 c (strobed parcel s)
      (strobeEnds parcel c.next (strobeCut lanes s).1 (strobed parcel s) (strobeCut lanes s).2) := by
  obtain ⟨rest, hcs⟩ := List.head?_eq_some_iff.1 hhead
  have hexpand : strobe parcel lanes s = (match strobed parcel s with
    | [] => s
    | (_, c) :: _ => if epochLimit < c.next then s else strobeBegins parcel (strobeCut lanes s).1 c (strobed parcel s)
        (strobeEnds parcel c.next (strobeCut lanes s).1 (strobed parcel s) (strobeCut lanes s).2)) := rfl
  rw [hexpand, hcs]
  exact if_neg (Nat.not_lt.2 hlimit)

/-- Settles O34: the strobe is a boundary of the parcel's first context, whose number is every context's. -/
theorem strobeCompletes : Obligations.StrobeCompletes := by
  intro parcel lanes s cs n c k t cut v hr hcs hhead hk hlimit hcut hv
  subst hcs hk
  have ht : strobeCut lanes s = (cut, t) := by rw [strobeCut, countLanes_powerState, hcut]
  have hstrobe := strobe_boundary (lanes := lanes) hhead hlimit
  rw [ht] at hstrobe
  subst hv
  exact evNext_running hr hstrobe

end Sys2Proof.Proofs
end

section
/-! PROOFS. Links (R70, R71, R96 to R100, R116, R118, R122, R127, R557): what each event of a link does in each state of its receiving
direction, and that a chain that is not served and a block in reset stay as they are. -/

set_option autoImplicit false

namespace Sys2Proof.Proofs
open Sys2Proof Sys2Proof.Machine Sys2Proof.Laws

/-! ### How the row of a chain's event ends -/

section
variable {ch : Nat} {f : State → State} {s t : State}

theorem onChain_running (hr : Running s) (hch : ch ∈ s.chainList) (hf : f s = t) : evNext (onChain ch f) s = .next (finish t) :=
  evNext_running hr ((onChain_eq hch).trans hf)

theorem onChain_unchanged (hr : Running s) (hch : ch ∈ s.chainList) (hf : f s = s) : evNext (onChain ch f) s = .next s :=
  evNext_unchanged hr ((onChain_eq hch).trans hf)

/-- An event of a chain that the station does not serve changes nothing (R44). -/
theorem onChain_absent (hch : ch ∉ s.chainList) : onChain ch f s = s := by
  rw [onChain, if_neg (by simpa using hch)]

end

/-! ### Link delays (R70, R71, R122) -/

theorem queueRow_inserted {ch : Nat} {s : State} (hin : s.inserted ch = true) (r : RowDue) :
    queueRow ch r s = s.setChain ch { s.chain ch with rows := (s.chain ch).rows ++ [r] } := if_pos hin

theorem queueRow_bypass {ch : Nat} {s : State} (hby : s.inserted ch = false) (r : RowDue) : queueRow ch r s = s :=
  if_neg (by simp [hby])

theorem ldRequest_inserted {ch tx n : Nat} {sd : Side} {s t : State} (hin : s.inserted ch = true)
    (hn : n = ((s.chain ch).ldSeq + 1) % 65536)
    (ht : t = s.setChain ch (setLd { s.chain ch with ldSeq := n } sd (some { seq := n, t1 := s.txStamp tx }))) :
    ldRequest ch sd tx s = t.setChain ch { t.chain ch with rows := (t.chain ch).rows ++ [.request sd (ldBytes 1 n s.station 0)] } := by
  have hin' : t.inserted ch = true := by rw [ht]; exact hin
  rw [ldRequest, if_neg (by simp [hin])]
  dsimp only
  rw [← hn, ← ht, queueRow_inserted hin']

theorem ldRequest_bypass {ch tx : Nat} {sd : Side} {s : State} (hby : s.inserted ch = false) : ldRequest ch sd tx s = s := if_pos hby

section
variable {ch rx tx : Nat} {sd : Side} {blocks : List Block} {bs : List Byte} {s : State}

/-- A row of type 0xB with a right CRC is a link-delay message. -/
theorem ldReceive_message (hrow : rowPayload 0xB blocks = some bs) (hok : rowOk bs = true) :
    ldReceive ch sd blocks rx tx s = ldMessage ch sd bs rx tx s := by
  simp only [ldReceive, rowMessage, hrow, Option.filter_some, hok, if_true]

/-- Any other row is discarded and counted. -/
theorem ldReceive_damaged (hbad : (rowPayload 0xB blocks).filter rowOk = none) :
    ldReceive ch sd blocks rx tx s = s.inc DAT_TW_ERR 1 := by
  simp only [ldReceive, rowMessage, hbad]

theorem ldMessage_request (hkind : leAt bs 0 1 = 1) :
    ldMessage ch sd bs rx tx s = queueRow ch (.response sd
      (ldBytes 2 (leAt bs 1 2) s.station (ofInt 48 (timeDiff (s.txStamp tx) (s.rxStamp rx) / 65536)))) s := if_pos hkind

/-- The response that a side awaits gives a sample of its delay. -/
theorem ldMessage_response {r : LdReq} (hkind : leAt bs 0 1 = 2) (hreq : ldOf (s.chain ch) sd = some r) (hseq : r.seq = leAt bs 1 2) :
    ldMessage ch sd bs rx tx s = ldSample ch sd
      ((timeDiff (s.rxStamp rx) r.t1 / 65536 - toInt 48 (leAt bs 6 6)) / 2 + s.asym sd)
      (s.setChain ch (setLd (s.chain ch) sd none)) := by
  have h1 : ¬ leAt bs 0 1 = 1 := by omega
  rw [ldMessage, if_neg h1, if_pos hkind, hreq]
  exact if_pos hseq

/-- A message that is neither a request nor the response awaited is counted. -/
theorem ldMessage_unasked (h1 : leAt bs 0 1 ≠ 1) (h2 : leAt bs 0 1 = 2 → ∀ r, ldOf (s.chain ch) sd = some r → r.seq ≠ leAt bs 1 2) :
    ldMessage ch sd bs rx tx s = s.inc DAT_TW_ERR 1 := by
  rw [ldMessage, if_neg h1]
  split
  next hkind =>
    cases hreq : ldOf (s.chain ch) sd with
    | none => rfl
    | some r => exact if_neg (h2 hkind r hreq)
  next => rfl

theorem ldReceive_unasked (hbad : ∀ bs, rowPayload 0xB blocks = some bs → rowOk bs = true →
      leAt bs 0 1 ≠ 1 ∧ (leAt bs 0 1 = 2 → ∀ r, ldOf (s.chain ch) sd = some r → r.seq ≠ leAt bs 1 2)) :
    ldReceive ch sd blocks rx tx s = s.inc DAT_TW_ERR 1 := by
  cases hmsg : (rowPayload 0xB blocks).filter rowOk with
  | none => exact ldReceive_damaged hmsg
  | some bs =>
    obtain ⟨hrow, hok⟩ := Option.filter_eq_some_iff.1 hmsg
    obtain ⟨h1, h2⟩ := hbad bs hrow hok
    exact (ldReceive_message hrow hok).trans (ldMessage_unasked h1 h2)

/-! ### Lane requests (R98, R100) -/

theorem laneRequest_some (hrow : rowPayload 0xD blocks = some bs) :
    laneRequest ch sd blocks s = s.setChain ch
      { s.chain ch with txNext := (s.chain ch).txNext ++ [(sd, leAt bs 0 1 % 16, bit (leAt bs 0 1) 4)] } := by
  simp only [laneRequest, lanesOf, hrow, Option.map_some]

theorem laneRequest_none (hrow : rowPayload 0xD blocks = none) : laneRequest ch sd blocks s = s := by
  simp only [laneRequest, lanesOf, hrow, Option.map_none]

end

/-! ### The receive state machine (R99, R100, R557) -/

section
variable {ch : Nat} {sd : Side} {s t u : State}

theorem blockLockGain_eq {lanes : Nat} (ht : t = setLocked ch sd (s.locked ch sd ||| lanes) s) :
    blockLockGain ch sd lanes s =
      if t.rxState ch sd = 0 ∧ 3 ≤ popCount 4 (t.locked ch sd &&& (t.fencedRx ch sd ^^^ 15)) then setRx ch sd 1 t else t := by
  subst ht
  rfl

theorem backDown_eq (ch : Nat) (sd : Side) (s : State) : backDown ch sd s =
    if windowCovers s ch sd = true then rateNote 4 (setRx ch sd 0 s) else (rateNote 4 (setRx ch sd 0 s)).evt (CHN_EVT ch) 7 := rfl

/-- Two alignment rows in LOCKING bring a direction UP while three lanes can be used: those without lock are fenced, and D awaits
its first sample (R99, R122). -/
theorem alignmentLock_up (hlocking : s.rxState ch sd = 1) (hlanes : 3 ≤ popCount 4 (s.locked ch sd &&& (s.fencedRx ch sd ^^^ 15)))
    (ht : t = (setRx ch sd 2 s).putB (CHN_STATUS ch) (unseedBit sd) true)
    (hu : u = t.setChain ch { t.chain ch with seedDue := (t.chain ch).seedDue.filter (· != sd) ++ [sd] }) :
    alignmentLock ch sd s = fenceLanes ch sd ((u.locked ch sd ^^^ 15) &&& (u.fencedRx ch sd ^^^ 15)) (clearLink ch (linkOf 0 sd) 2 u) := by
  subst hu ht
  exact (if_pos hlocking).trans (if_neg (Nat.not_lt.2 hlanes))

/-- With fewer lanes it goes back DOWN. -/
theorem alignmentLock_down (hlocking : s.rxState ch sd = 1) (hlanes : popCount 4 (s.locked ch sd &&& (s.fencedRx ch sd ^^^ 15)) < 3) :
    alignmentLock ch sd s = backDown ch sd s := (if_pos hlocking).trans (if_pos hlanes)

theorem alignmentLock_other (hstate : s.rxState ch sd ≠ 1) : alignmentLock ch sd s = s := if_neg hstate

theorem lockingTimeout_locking (hlocking : s.rxState ch sd = 1) : lockingTimeout ch sd s = backDown ch sd s := if_pos hlocking

theorem lockingTimeout_other (hstate : s.rxState ch sd ≠ 1) : lockingTimeout ch sd s = s := if_neg hstate

/-- A lane loses its lock, with the 16 invalid headers of its window: an UP direction fences it or goes DOWN, one in LOCKING goes back
DOWN where too few lanes are left (R96, R99, R100). -/
theorem blockLockLoss_eq {lane m : Nat} (hm : m = 2 ^ (lane % 4))
    (ht : t = s.setChain ch { s.chain ch with badHeads := ((s.chain ch).badHeads + 16) % 2 ^ 32 })
    (hu : u = setLocked ch sd (t.locked ch sd &&& (m ^^^ 15)) t) :
    blockLockLoss ch sd lane s =
      if u.rxState ch sd = 2 then
        (if popCount 4 (u.locked ch sd &&& (u.fencedRx ch sd ^^^ 15)) < 3 then goDown ch sd u
        else if bit (u.fencedRx ch sd) (lane % 4) = true then u else fenceLanes ch sd m u)
      else if u.rxState ch sd = 1 ∧ popCount 4 (u.locked ch sd &&& (u.fencedRx ch sd ^^^ 15)) < 3 then backDown ch sd u
      else u := by
  subst hm ht hu
  rfl

/-- From UP, alignment lost takes a direction DOWN: silently inside a splice window … -/
theorem alignmentLoss_covered (hup : s.rxState ch sd = 2) (hcov : windowCovers s ch sd = true) :
    alignmentLoss ch sd s = rateNote 4 (setRx ch sd 0 s) := (if_pos hup).trans (if_pos hcov)

/-- … and elsewhere with every effect of R99. -/
theorem alignmentLoss_open (hup : s.rxState ch sd = 2) (hcov : windowCovers s ch sd = false) :
    alignmentLoss ch sd s = downEffects ch sd (rateNote 4 (setRx ch sd 0 s)) :=
  (if_pos hup).trans (if_neg (by simp [hcov]))

theorem alignmentLoss_other (hstate : s.rxState ch sd ≠ 2) : alignmentLoss ch sd s = s := if_neg hstate

end

/-! ### The mode of the ring (R74, R116, R118) -/

theorem chainCut_failed {ch k : Nat} {s : State} (htray : s.isTray = true) (hin : s.inserted ch = true) (hfail : 2 ≤ (s.chain ch).failed) :
    chainCut ch k s = if ch = 0 then (setModeAt ch k 2 s).putB DAT_STATE 7 false else setModeAt ch k 2 s :=
  if_pos ⟨htray, hin, hfail⟩

theorem chainWhole_returned {ch k : Nat} {s : State} (htray : s.isTray = true) (hin : s.inserted ch = true)
    (hret : 128 ≤ (s.chain ch).returns) :
    chainWhole ch k s = if ch = 0 then (setModeAt ch k 1 s).putB DAT_STATE 7 true else setModeAt ch k 1 s :=
  if_pos ⟨htray, hin, hret⟩

/-- No run of cycles changes the mode at a leaf, at a tray build that does not head the chain, or while it is too short. -/
theorem not_runEnds {ch n limit : Nat} {s : State} (hno : s.isTray = false ∨ s.inserted ch = false ∨ n < limit) :
    ¬(s.isTray = true ∧ s.inserted ch = true ∧ limit ≤ n) := by
  rintro ⟨htray, hin, hrun⟩
  rcases hno with hleaf | hout | hshort
  · exact absurd (htray.symm.trans hleaf) (by decide)
  · exact absurd (hin.symm.trans hout) (by decide)
  · exact Nat.not_lt.2 hrun hshort

theorem chainCut_other {ch k : Nat} {s : State} (hno : s.isTray = false ∨ s.inserted ch = false ∨ (s.chain ch).failed < 2) :
    chainCut ch k s = s := if_neg (not_runEnds hno)

theorem chainWhole_other {ch k : Nat} {s : State} (hno : s.isTray = false ∨ s.inserted ch = false ∨ (s.chain ch).returns < 128) :
    chainWhole ch k s = s := if_neg (not_runEnds hno)

theorem headless_leaf {s : State} (hleaf : s.isTray = false) : headless s = setModeAt 0 (s.rd (TMT_CYC 0)) 0 s := if_neg (by simp [hleaf])

theorem headless_tray {s : State} (htray : s.isTray = true) : headless s = s := if_pos htray

/-! ### Chains that are not served, and reset -/

/-- A link's event is one of its chain. -/
theorem linkEvent_onChain {i : Instr} {ch : Nat} {sd : Side} {lane lanes tx rx : Nat} {blocks : List Block}
    (hi : i ∈ [Instr.linkDelayRequest ch sd tx, .linkDelayMessageReceive ch sd blocks rx tx,
      .linkDelayTimeout ch sd, .laneRequestReceive ch sd blocks, .blockLockGain ch sd lanes, .alignmentLock ch sd,
      .lockingTimeout ch sd, .blockLockLoss ch sd lane, .alignmentLoss ch sd, .chainCut ch, .chainWhole ch]) :
    ∃ f, exec i = evNext (onChain ch f) := by
  simp only [List.mem_cons, List.not_mem_nil, or_false] at hi
  rcases hi with rfl | rfl | rfl | rfl | rfl | rfl | rfl | rfl | rfl | rfl | rfl <;> exact ⟨_, rfl⟩

/-- Settles O36: one clause for each event of a link, in the states of its direction. -/
theorem linkEventsComplete : Obligations.LinkEventsComplete := by
  refine ⟨fun ch sd tx s c n t hr hch hc hn ht => ?request, fun ch sd blocks bs rx tx s hr hch hrow hok hkind => ?asked,
    fun ch sd blocks bs rx tx s r hr hch hrow hok hkind hreq hseq =>
      onChain_running hr hch ((ldReceive_message hrow hok).trans (ldMessage_response hkind hreq hseq)),
    fun ch sd blocks rx tx s hr hch hbad =>
      evNext_quiet hr.1 ((onChain_eq hch).trans (ldReceive_unasked hbad)) (quiet_inc hr.2 _ _),
    fun ch sd s hr hch => onChain_running (f := fun t => t.setChain ch (setLd (t.chain ch) sd none)) hr hch rfl,
    fun ch sd blocks s hr hch =>
      ⟨fun p hrow => onChain_running hr hch (laneRequest_some hrow), fun hrow => onChain_unchanged hr hch (laneRequest_none hrow)⟩,
    fun ch sd lanes s t hr hch ht => onChain_running hr hch (blockLockGain_eq ht),
    fun ch sd s b hr hch hb => ?locking, fun ch sd lane s m n t u hr hch hm ht hu hn => ?lockLoss,
    fun ch sd s t hr hch ht => ?alignLoss, fun ch s k hr htray hch hin hk => ?mode,
    fun ch s hr hch => ⟨fun hno => onChain_unchanged hr hch (chainCut_other hno), fun hno => onChain_unchanged hr hch (chainWhole_other hno)⟩,
    fun s hr => ⟨fun hleaf => evNext_running hr (headless_leaf hleaf), fun htray => evNext_unchanged hr (headless_tray htray)⟩,
    fun i ch sd lane lanes tx rx blocks s hi => ?stays⟩
  case request =>
    subst hc
    exact ⟨fun hin => onChain_running hr hch (ldRequest_inserted hin hn ht), fun hby => onChain_unchanged hr hch (ldRequest_bypass hby)⟩
  case asked =>
    have hmsg := (ldReceive_message (ch := ch) (sd := sd) (rx := rx) (tx := tx) (s := s) hrow hok).trans (ldMessage_request hkind)
    exact ⟨fun hin => onChain_running hr hch (hmsg.trans (queueRow_inserted hin _)),
      fun hby => onChain_unchanged hr hch (hmsg.trans (queueRow_bypass hby _))⟩
  case locking =>
    have hback : backDown ch sd s = b := hb.symm
    exact ⟨fun hlocking hlanes t u ht hu => onChain_running hr hch (alignmentLock_up hlocking hlanes ht hu),
      fun hlocking hlanes => onChain_running hr hch ((alignmentLock_down hlocking hlanes).trans hback),
      fun hlocking => onChain_running hr hch ((lockingTimeout_locking hlocking).trans hback),
      fun hstate => ⟨onChain_unchanged hr hch (alignmentLock_other hstate), onChain_unchanged hr hch (lockingTimeout_other hstate)⟩⟩
  case lockLoss =>
    subst hn
    exact onChain_running hr hch (blockLockLoss_eq hm ht hu)
  case alignLoss =>
    subst ht
    exact ⟨fun hup hcov => onChain_running hr hch (alignmentLoss_covered hup hcov),
      fun hup hcov => onChain_running hr hch (alignmentLoss_open hup hcov),
      fun hstate => onChain_unchanged hr hch (alignmentLoss_other hstate)⟩
  case mode =>
    subst hk
    have hserved := tray_chain htray hch
    exact ⟨fun hfail => onChain_running hr hserved (chainCut_failed htray hin hfail),
      fun hret => onChain_running hr hserved (chainWhole_returned htray hin hret)⟩
  case stays =>
    obtain ⟨f, hf⟩ := linkEvent_onChain hi
    rw [hf]
    exact ⟨fun hr hch => evNext_unchanged hr (onChain_absent hch), fun hpor => ⟨evNext_por hpor, evNext_por hpor⟩⟩

end Sys2Proof.Proofs
end

section
/-! PROOFS. Round trips (R56, R102): a word packed from fields gives each field back, a byte string gives back the number it was made
of; so a cell's 128 bytes read as the cell, and a time's 96 bits as the time. -/

set_option autoImplicit false

namespace Sys2Proof.Proofs
open Sys2Proof Sys2Proof.Machine Sys2Proof.Laws

/-! ### Numbers as little-endian bytes (R7) -/

@[simp] theorem leBytes_length (k n : Nat) : (leBytes k n).length = k := by
  induction k generalizing n with
  | zero => rfl
  | succ k ih => rw [leBytes, List.length_cons, ih]

theorem leNat_leBytes (k n : Nat) : leNat (leBytes k n) = n % 256 ^ k := by
  induction k generalizing n with
  | zero => rw [Nat.pow_zero, Nat.mod_one]; rfl
  | succ k ih =>
    have hsplit : n % 256 ^ (k + 1) = n % 256 + 256 * (n / 256 % 256 ^ k) := by rw [Nat.pow_succ', Nat.mod_mul]
    rw [leBytes, leNat, ih, BitVec.toNat_ofNat, hsplit]

/-- A number is read where its bytes stand. -/
theorem leAt_leBytes {k n o : Nat} {pre : List Byte} (post : List Byte) (ho : pre.length = o) (hn : n < 256 ^ k) :
    leAt (pre ++ (leBytes k n ++ post)) o k = n := by
  have hslice : slice (pre ++ (leBytes k n ++ post)) o k = leBytes k n := by
    rw [slice, List.drop_left' ho, List.take_left' (leBytes_length k n)]
  rw [leAt, hslice, leNat_leBytes, Nat.mod_eq_of_lt hn]

theorem leAt_leBytes_head {k n : Nat} (post : List Byte) (hn : n < 256 ^ k) : leAt (leBytes k n ++ post) 0 k = n :=
  leAt_leBytes (pre := []) post rfl hn

/-! ### Words packed from fields (R6) -/

/-- A word packed from fields of the widths `ws`, the lowest first. -/
def packed : List Nat → List Nat → Nat
  | w :: ws, v :: vs => v % 2 ^ w + 2 ^ w * packed ws vs
  | _, _ => 0

theorem packed_lt (ws vs : List Nat) : packed ws vs < 2 ^ ws.sum := by
  induction ws generalizing vs with
  | nil => exact Nat.one_pos
  | cons w ws ih =>
    cases vs with
    | nil => exact Nat.two_pow_pos _
    | cons v vs =>
      calc v % 2 ^ w + 2 ^ w * packed ws vs < 2 ^ w + 2 ^ w * packed ws vs := Nat.add_lt_add_right (Nat.mod_lt v (Nat.two_pow_pos w)) _
        _ = 2 ^ w * (packed ws vs + 1) := by rw [Nat.mul_succ, Nat.add_comm]
        _ ≤ 2 ^ w * 2 ^ ws.sum := Nat.mul_le_mul_left _ (ih vs)
        _ = 2 ^ (w :: ws).sum := by rw [← Nat.pow_add, List.sum_cons]

/-- The lowest field reads as its value, cut to its width … -/
theorem fld_packed_lowest (w v : Nat) (ws vs : List Nat) : fld (packed (w :: ws) (v :: vs)) 0 w = v % 2 ^ w := by
  rw [fld, packed, Nat.pow_zero, Nat.div_one, Nat.add_mul_mod_self_left, Nat.mod_mod]

/-- … and what lies above it is the word of the others. -/
theorem fld_packed_above (w v lo len : Nat) (ws vs : List Nat) :
    fld (packed (w :: ws) (v :: vs)) (w + lo) len = fld (packed ws vs) lo len := by
  have hp := Nat.two_pow_pos w
  rw [fld, packed, Nat.pow_add, ← Nat.div_div_eq_div_mul, Nat.add_mul_div_left _ _ hp, Nat.div_eq_of_lt (Nat.mod_lt v hp),
    Nat.zero_add, fld]

/-- Each field reads as its value where that fits, at the place that the widths below it give. -/
theorem fld_packed {ws vs : List Nat} {i lo w v : Nat} (hw : ws[i]? = some w) (hv : vs[i]? = some v) (hlo : (ws.take i).sum = lo)
    (hlt : v < 2 ^ w) : fld (packed ws vs) lo w = v := by
  subst hlo
  induction i generalizing ws vs with
  | zero =>
    obtain ⟨ws', rfl⟩ := List.head?_eq_some_iff.1 (List.head?_eq_getElem?.trans hw)
    obtain ⟨vs', rfl⟩ := List.head?_eq_some_iff.1 (List.head?_eq_getElem?.trans hv)
    exact (fld_packed_lowest w v ws' vs').trans (Nat.mod_eq_of_lt hlt)
  | succ i ih =>
    cases ws with
    | nil => cases hw
    | cons w' ws =>
      cases vs with
      | nil => cases hv
      | cons v' vs =>
        rw [List.take_succ_cons, List.sum_cons, fld_packed_above]
        exact ih hw hv

/-! ### Cells (R102) -/

theorem crcShift_lt {w poly : Nat} (hpoly : poly < 2 ^ w) (c : Nat) : crcShift w poly c < 2 ^ w := by
  have hmod : 2 * c % 2 ^ w < 2 ^ w := Nat.mod_lt _ (Nat.two_pow_pos w)
  rw [crcShift]
  split
  · exact Nat.xor_lt_two_pow hmod hpoly
  · exact hmod

theorem crc16_lt (bs : List Byte) : crc16 bs < 256 ^ 2 :=
  List.foldlRecOn (motive := fun c => c < 2 ^ 16) bs _ (by decide) (fun _ _ _ _ => crcShift_lt (by decide) _)

/-- A cell whose fields fit the header: a class of R110, 1 to 112 bytes, every number within its width. -/
structure CellFits (c : Cell) : Prop where
  type : c.type < 2 ^ 5
  cls_pos : 1 ≤ c.cls
  cls_le : c.cls ≤ 5
  src : c.src < 2 ^ 20
  dst : c.dst < 2 ^ 20
  parcel : c.parcel < 2 ^ 12
  epoch : c.epoch < 2 ^ 24
  seq : c.seq < 2 ^ 16
  len_pos : 1 ≤ c.data.length
  len_le : c.data.length ≤ 112

/-- The widths of the fields of a cell header, HCRC apart, in their order (R102). -/
def headerWidths : List Nat := [5, 3, 1, 1, 1, 1, 1, 7, 20, 20, 12, 24, 16]

/-- What they hold. -/
def headerValues (c : Cell) : List Nat :=
  [c.type, c.cls, b2n c.first, b2n c.last, b2n c.degraded, b2n c.retx, b2n c.auth, c.data.length, c.src, c.dst, c.parcel, c.epoch, c.seq]

theorem b2n_lt (b : Bool) : b2n b < 2 := by cases b <;> decide

theorem header_eq_packed (c : Cell) : c.header = packed headerWidths (headerValues c) := by
  simp only [Cell.header, headerWidths, headerValues, packed, Nat.pow_one, Nat.mod_eq_of_lt (b2n_lt _)]
  omega

theorem header_lt (c : Cell) : c.header < 256 ^ 14 := by
  rw [header_eq_packed]
  exact packed_lt headerWidths (headerValues c)

/-- A field of the header reads as the cell's, where that fits. -/
theorem fld_header {c : Cell} (i : Nat) {lo w v : Nat} (hw : headerWidths[i]? = some w) (hlo : (headerWidths.take i).sum = lo)
    (hv : (headerValues c)[i]? = some v) (hlt : v < 2 ^ w) : fld c.header lo w = v := by
  rw [header_eq_packed, fld_packed hw hv hlo hlt]

theorem bit_header {c : Cell} (i : Nat) {lo : Nat} {b : Bool} (hw : headerWidths[i]? = some 1) (hlo : (headerWidths.take i).sum = lo)
    (hv : (headerValues c)[i]? = some (b2n b)) : bit c.header lo = b := by
  rw [bit_eq_fld, fld_header i hw hlo hv (b2n_lt b)]
  cases b <;> rfl

/-- The three parts of a cell's bytes: header, HCRC, payload. -/
theorem cell_bytes_eq (c : Cell) :
    c.bytes = leBytes 14 c.header ++ (leBytes 2 (crc16 (leBytes 14 c.header)) ++ padTo 112 c.data) := List.append_assoc _ _ _

theorem padTo_length {k : Nat} {bs : List Byte} (h : bs.length ≤ k) : (padTo k bs).length = k := by
  simp only [padTo, zeros, List.length_take, List.length_append, List.length_replicate]
  omega

theorem take_padTo {k : Nat} {bs : List Byte} (h : bs.length ≤ k) : (padTo k bs).take bs.length = bs := by
  rw [padTo, List.take_take, Nat.min_eq_left h, List.take_left]

section
variable {c : Cell}

theorem cell_bytes_length (hlen : c.data.length ≤ 112) : c.bytes.length = 128 := by
  simp only [cell_bytes_eq, List.length_append, leBytes_length, padTo_length hlen]

/-- The first 14 bytes hold the header … -/
theorem leAt_cell_header (c : Cell) : leAt c.bytes 0 14 = c.header := by
  rw [cell_bytes_eq]
  exact leAt_leBytes_head _ (header_lt c)

/-- … the next two their CRC … -/
theorem cellHcrcOk_bytes (c : Cell) : cellHcrcOk c.bytes = true := by
  have htake : c.bytes.take 14 = leBytes 14 c.header := List.take_left' (leBytes_length 14 _)
  have hcrc : leAt c.bytes 14 2 = crc16 (leBytes 14 c.header) := by
    rw [cell_bytes_eq]
    exact leAt_leBytes _ (leBytes_length 14 _) (crc16_lt _)
  rw [cellHcrcOk, htake, hcrc, beq_self_eq_true]

/-- … and the payload stands behind them. -/
theorem slice_cell_data (hlen : c.data.length ≤ 112) : slice c.bytes 16 c.data.length = c.data := by
  have hdrop : c.bytes.drop 16 = padTo 112 c.data := List.drop_left' (by simp)
  rw [slice, hdrop, take_padTo hlen]

theorem parseCell_bytes (hc : CellFits c) : parseCell c.bytes = some c := by
  have htype : fld c.header 0 5 = c.type := fld_header 0 rfl rfl rfl hc.type
  have hcls : fld c.header 5 3 = c.cls := fld_header 1 rfl rfl rfl (Nat.lt_of_le_of_lt hc.cls_le (by decide))
  have hfirst : bit c.header 8 = c.first := bit_header 2 rfl rfl rfl
  have hlast : bit c.header 9 = c.last := bit_header 3 rfl rfl rfl
  have hdegraded : bit c.header 10 = c.degraded := bit_header 4 rfl rfl rfl
  have hretx : bit c.header 11 = c.retx := bit_header 5 rfl rfl rfl
  have hauth : bit c.header 12 = c.auth := bit_header 6 rfl rfl rfl
  have hlen : fld c.header 13 7 = c.data.length := fld_header 7 rfl rfl rfl (Nat.lt_of_le_of_lt hc.len_le (by decide))
  have hsrc : fld c.header 20 20 = c.src := fld_header 8 rfl rfl rfl hc.src
  have hdst : fld c.header 40 20 = c.dst := fld_header 9 rfl rfl rfl hc.dst
  have hparcel : fld c.header 60 12 = c.parcel := fld_header 10 rfl rfl rfl hc.parcel
  have hepoch : fld c.header 72 24 = c.epoch := fld_header 11 rfl rfl rfl hc.epoch
  have hseq : fld c.header 96 16 = c.seq := fld_header 12 rfl rfl rfl hc.seq
  have hgood : ¬(c.data.length = 0 ∨ 112 < c.data.length ∨ c.cls = 0 ∨ 5 < c.cls) := by
    obtain ⟨-, h1, h2, -, -, -, -, -, h3, h4⟩ := hc
    omega
  simp only [parseCell, leAt_cell_header, htype, hcls, hfirst, hlast, hdegraded, hretx, hauth, hlen, hsrc, hdst, hparcel, hepoch, hseq,
    slice_cell_data hc.len_le, if_neg hgood]

end

/-! ### Times (R56) -/

/-- The widths of the fields of a time's 96 bits: FRAC, NS, two reserved bits, SEC. -/
def timeWidths : List Nat := [16, 30, 2, 48]

/-- What they hold. -/
def timeValues (t : Nat) : List Nat := [t % 2 ^ 32 / 2 ^ 16, t % secU / 2 ^ 32, 0, t / secU]

theorem ns_lt (t : Nat) : t % secU / 2 ^ 32 < 1000000000 :=
  Nat.div_lt_of_lt_mul (Nat.mul_comm _ _ ▸ Nat.mod_lt t (by decide : 0 < secU))

theorem sec_lt {t : Nat} (ht : t < clockMod) : t / secU < 2 ^ 48 := Nat.div_lt_of_lt_mul (Nat.mul_comm _ _ ▸ ht)

theorem ns_fits (t : Nat) : t % secU / 2 ^ 32 < 2 ^ 30 := Nat.lt_trans (ns_lt t) (by decide)

theorem frac_lt (t : Nat) : t % 2 ^ 32 / 2 ^ 16 < 2 ^ 16 := by omega

theorem encTime_eq_packed {t : Nat} (ht : t < clockMod) : encTime t = packed timeWidths (timeValues t) := by
  simp only [encTime, Nat.mod_eq_of_lt ht, timeWidths, timeValues, packed, Nat.mod_eq_of_lt (frac_lt t), Nat.mod_eq_of_lt (ns_fits t),
    Nat.mod_eq_of_lt (sec_lt ht)]
  omega

/-- A field of a time reads as the time's. -/
theorem fld_encTime {t : Nat} (ht : t < clockMod) (i : Nat) {lo w v : Nat} (hw : timeWidths[i]? = some w)
    (hlo : (timeWidths.take i).sum = lo) (hv : (timeValues t)[i]? = some v) (hlt : v < 2 ^ w) : fld (encTime t) lo w = v := by
  rw [encTime_eq_packed ht, fld_packed hw hv hlo hlt]

/-- A time is its seconds, nanoseconds and fraction; the fraction has 16 bits. -/
theorem time_eq_parts {t : Nat} (hfine : t % 2 ^ 16 = 0) :
    t / secU * secU + t % secU / 2 ^ 32 * 2 ^ 32 + t % 2 ^ 32 / 2 ^ 16 * 2 ^ 16 = t := by
  have hsec : secU = 4294967296000000000 := by decide
  rw [hsec]
  omega

theorem decTime_encTime {t : Nat} (ht : t < clockMod) (hfine : t % 2 ^ 16 = 0) : decTime (encTime t) = some t := by
  have hfrac : fld (encTime t) 0 16 = t % 2 ^ 32 / 2 ^ 16 := fld_encTime ht 0 rfl rfl rfl (frac_lt t)
  have hns : fld (encTime t) 16 30 = t % secU / 2 ^ 32 := fld_encTime ht 1 rfl rfl rfl (ns_fits t)
  have hsec : fld (encTime t) 48 48 = t / secU := fld_encTime ht 3 rfl rfl rfl (sec_lt ht)
  rw [decTime, hfrac, hns, hsec, if_pos (ns_lt t), time_eq_parts hfine]

theorem leAt_timeBytes {t : Nat} (ht : t < clockMod) : leAt (timeBytes t) 0 12 = encTime t := by
  have hlt : encTime t < 256 ^ 12 := by
    rw [encTime_eq_packed ht]
    exact packed_lt timeWidths (timeValues t)
  have hread := leAt_leBytes_head [] hlt
  rwa [List.append_nil] at hread

/-- Settles O58: header and time are words packed from fields, and a field that fits reads as what was packed. -/
theorem cellsAndTimesRoundTrip : Obligations.CellsAndTimesRoundTrip := by
  refine ⟨fun c htype hcls1 hcls5 hsrc hdst hparcel hepoch hseq hlen1 hlen => ?cell, fun t ht hfine => ?time⟩
  case cell =>
    exact ⟨cell_bytes_length hlen, cellHcrcOk_bytes c,
      parseCell_bytes ⟨htype, hcls1, hcls5, hsrc, hdst, hparcel, hepoch, hseq, hlen1, hlen⟩⟩
  case time => rw [leAt_timeBytes ht, decTime_encTime ht hfine]

end Sys2Proof.Proofs
end

section
/-! PROOFS. Containers and cells (R93 to R97, R101 to R107): what goes into a container that is granted, what an inserted leaf relays,
and what becomes of a cell that arrives. -/

set_option autoImplicit false

namespace Sys2Proof.Proofs
open Sys2Proof Sys2Proof.Machine Sys2Proof.Laws

/-- An event of a chain whose effect queues nothing ends with that effect. -/
theorem onChain_quiet {ch : Nat} {f : State → State} {s t : State} (hr : Running s) (hch : ch ∈ s.chainList) (hf : f s = t)
    (hq : Quiet t) : evNext (onChain ch f) s = .next t :=
  evNext_quiet hr.1 ((onChain_eq hch).trans hf) hq

/-! ### A container that starts at this station (R93, R110, R111, R121) -/

/-- The classes that an entry permits at place `j` of its run, and of which a cell is ready: ALARM within its share of the cycle, and
alone in the places that are ALARM's (R110). -/
def mayFill (s : State) (ch : Nat) (d : Dir) (e : GateEnt) (j k : Nat) : Bool :=
  bit e.classes (k - 1) && (k != 1 || decide ((s.chain ch).alarmSent < s.getF CHN_CTL 8 4)) && (decide (e.alarmN ≤ j) || k == 1) &&
    classReady s ch d k

/-- An entry grants container `i` of a cycle to this station, which may originate into it. -/
structure Granted (s : State) (ch : Nat) (d : Dir) (cyc i : Nat) (e : GateEnt) (j : Nat) : Prop where
  cell : i ≠ 0
  originates : mayOriginate s ch d cyc = true
  outside : inGuard s ch cyc i = false
  unfenced : i % 4 = 3 → fencedWay s ch d = false
  grant : grantOf s ch d cyc i = some (e, j)

section
variable {s : State} {ch cyc i j : Nat} {d : Dir} {e : GateEnt} (hg : Granted s ch d cyc i e j)
include hg

theorem containerStart_granted (full : Bool) : containerStart ch d cyc i full s =
    if full then s.inc (CHN_GRANT_BUSY ch) 1
    else match [1, 2, 3, 4, 5].find? (mayFill s ch d e j) with
      | none => s
      | some k => originate ch d cyc i k s := by
  have hopen : ¬(i = 0 ∨ mayOriginate s ch d cyc = false ∨ inGuard s ch cyc i = true ∨ (i % 4 = 3 ∧ fencedWay s ch d = true)) := by
    rintro (h0 | hidle | hguard | ⟨hthird, hfenced⟩)
    · exact hg.cell h0
    · exact absurd (hg.originates.symm.trans hidle) (by decide)
    · exact absurd (hg.outside.symm.trans hguard) (by decide)
    · exact absurd ((hg.unfenced hthird).symm.trans hfenced) (by decide)
  rw [containerStart, if_neg hopen, hg.grant]
  rfl

/-- One that comes filled is counted … -/
theorem containerStart_occupied : containerStart ch d cyc i true s = s.inc (CHN_GRANT_BUSY ch) 1 := containerStart_granted hg true

/-- … and an empty one takes the lowest class that may go. -/
theorem containerStart_fills {k : Nat} (hk : k ∈ [1, 2, 3, 4, 5]) (hok : mayFill s ch d e j k = true)
    (hlowest : ∀ m, 1 ≤ m → m < k → mayFill s ch d e j m = false) :
    containerStart ch d cyc i false s = originate ch d cyc i k s := by
  rw [containerStart_granted hg, find_first hk hok hlowest]
  rfl

end

/-! ### A container that an inserted leaf relays (R94, R95, R101, R106) -/

section
variable {s : State} {d : Dir} {cyc i : Nat} {cell : Option (List Byte)} (hleaf : s.isTray = false) (hin : s.inserted 0 = true)
include hleaf hin

/-- Of container 0 the alignment row is relayed. -/
theorem containerRelay_align : containerRelay 0 d cyc 0 cell s =
    s.drive 0 (otherSide (sideIn false d)) (.row 0 (otherSide (sideIn false d)) cyc 0 0 (alignRow cyc)) := by
  have hrelays : ¬(s.isTray = true ∨ s.inserted 0 = false) := by simp [hleaf, hin]
  exact (if_neg hrelays).trans (if_pos rfl)

/-- Any other is relayed with what the leaf passes on, unless it is one that a fenced side does not carry. -/
theorem containerRelay_cell (hi : i ≠ 0) : containerRelay 0 d cyc i cell s =
    if i % 4 = 3 ∧ s.fencedTx 0 (otherSide (sideIn false d)) ≠ 0 then
      (if (relayed s cell).isSome = true then s.inc (CHN_FENCE_DROP 0) 1 else s)
    else if (relayed s cell).isSome = true then
      laneSent 0 (otherSide (sideIn false d)) (s.drive 0 (otherSide (sideIn false d))
        (.relay 0 d cyc i (s.laneFor 0 (otherSide (sideIn false d))) (relayed s cell)))
    else s.drive 0 (otherSide (sideIn false d)) (.relay 0 d cyc i (s.laneFor 0 (otherSide (sideIn false d))) (relayed s cell)) := by
  have hrelays : ¬(s.isTray = true ∨ s.inserted 0 = false) := by simp [hleaf, hin]
  exact (if_neg hrelays).trans (if_neg hi)

end

/-! ### A cell that arrives (R102, R104, R106) -/

section
variable {s : State} {ch : Nat} {bs : List Byte} {c : Cell}

/-- A cell cut short … -/
theorem cellReceive_short (hlen : bs.length < 128) : cellReceive ch bs s = s.inc (CHN_TRUNC ch) 1 := if_pos hlen

/-- … and one that fails HCRC are counted. -/
theorem cellReceive_damaged (hlen : 128 ≤ bs.length) (hcrc : cellHcrcOk bs = false) :
    cellReceive ch bs s = (s.inc (CHN_HCRC_ERR ch) 1).evt (CHN_EVT ch) 0 := (if_neg (Nat.not_lt.2 hlen)).trans (if_pos hcrc)

theorem cellReceive_whole (hlen : 128 ≤ bs.length) (hcrc : cellHcrcOk bs = true) (hcell : parseCell bs = some c) :
    cellReceive ch bs s = if s.isTray = true then trayCell ch c s else leafCell ch c s := by
  rw [cellReceive, if_neg (Nat.not_lt.2 hlen), if_neg (by simp [hcrc]), hcell]

/-- A tray build that heads the chain takes in what is for it, of a known type … -/
theorem trayCell_own (hin : s.inserted ch = true) (hsrc : c.src ≠ s.station) (htype : cellTypeKnown c.type = true)
    (hdst : c.dst = s.station) : trayCell ch c s = cellTake ch (.chain ch) c s := by
  rw [trayCell, if_neg (by simp [hin, hsrc]), if_pos ⟨htype, hdst⟩]

/-- … and counts what is for no station that it serves. -/
theorem trayCell_lost (hin : s.inserted ch = true) (hsrc : c.src ≠ s.station)
    (hlost : cellTypeKnown c.type = false ∨ c.dst ≠ s.station) : trayCell ch c s = (cellPassed ch c s).inc (CHN_LOST ch) 1 := by
  have hnot : ¬(cellTypeKnown c.type = true ∧ c.dst = s.station) := by
    rintro ⟨htype, hdst⟩
    rcases hlost with hunknown | hother
    · exact absurd (htype.symm.trans hunknown) (by decide)
    · exact hother hdst
  rw [trayCell, if_neg (by simp [hin, hsrc]), if_neg hnot]

/-- A leaf discards its own cell that has come round … -/
theorem leafCell_own (hsrc : c.src = s.station) : leafCell ch c s = s.inc (CHN_LOST ch) 1 := if_pos hsrc

/-- … takes in what is for it … -/
theorem leafCell_taken (hsrc : c.src ≠ s.station) (htakes : s.leafTakes c = true) :
    leafCell ch c s = cellTake ch (.chain ch) c s := (if_neg hsrc).trans (if_pos htakes)

/-- … and checks the number of what else its tray build sends. -/
theorem leafCell_passed (hsrc : c.src ≠ s.station) (htakes : s.leafTakes c = false) :
    leafCell ch c s = if c.src = stTrayStation s.station then cellPassed ch c s else s :=
  (if_neg hsrc).trans (if_neg (by simp [htakes]))

end

/-- Settles O35: the grant and its lowest class, the leaf's relay in its three cases, and a cell by its checks and its addressee. -/
theorem containerEventsComplete : Obligations.ContainerEventsComplete := by
  refine ⟨fun cyc aligned s t hr ht => ?cycle, fun ch d cyc i full s e j hr hch hi hmay hguard hfence hgrant => ?start,
    fun d cyc i cell s sd c hr hleaf hin hsd hc => ?relay, fun ch d bs s c hr hch hlen hcrc hcell => ?whole,
    fun ch d bs s hr hch => ⟨fun hlen => onChain_quiet hr hch (cellReceive_short hlen) (quiet_inc hr.2 _ _),
      fun hlen hcrc => onChain_quiet hr hch (cellReceive_damaged hlen hcrc) (quiet_evt (quiet_inc hr.2 _ _) _ _)⟩,
    fun ch src bs s hr hch _ => onChain_running hr hch rfl, fun ch d n s c hr hch hc => ?expiry⟩
  case cycle =>
    subst ht
    exact evNext_running hr rfl
  case start =>
    have hg : Granted s ch d cyc i e j := ⟨hi, hmay, hguard, hfence, hgrant⟩
    refine ⟨fun hfull => ?_, fun hfull ok hok k hk hready hlowest => ?_⟩
    · subst hfull
      exact onChain_quiet hr hch (containerStart_occupied hg) (quiet_inc hr.2 _ _)
    · subst hfull hok
      exact onChain_running hr hch (containerStart_fills hg hk hready hlowest)
  case relay =>
    subst hsd
    have hrelayed : relayed s cell = c := hc.symm
    have hserved := leaf_chain hleaf
    refine ⟨fun hi o ho => ?_, fun hi hopen o t ho ht => ?_, fun hthird hfenced => ?_⟩
    · subst hi ho
      exact onChain_running hr hserved (containerRelay_align hleaf hin)
    · have hcarried : ¬(i % 4 = 3 ∧ s.fencedTx 0 (otherSide (sideIn false d)) ≠ 0) := fun h => h.2 (hopen h.1)
      subst ho ht
      refine onChain_running hr hserved ((containerRelay_cell hleaf hin hi).trans ?_)
      rw [if_neg hcarried, hrelayed]
      rfl
    · have hi : i ≠ 0 := by omega
      refine onChain_quiet hr hserved ((containerRelay_cell hleaf hin hi).trans ?_) ?_
      · rw [if_pos ⟨hthird, hfenced⟩, hrelayed]
      · split
        · exact quiet_inc hr.2 _ _
        · exact hr.2
  case whole =>
    have hreceive : cellReceive ch bs s = if s.isTray = true then trayCell ch c s else leafCell ch c s :=
      cellReceive_whole hlen hcrc hcell
    refine ⟨fun htray hin hsrc => ?_, fun hleaf hsrc => ?_, fun hleaf hsrc => ?_⟩
    · have hat := hreceive.trans (if_pos htray)
      exact ⟨fun htype hdst => onChain_running hr hch (hat.trans (trayCell_own hin hsrc htype hdst)),
        fun hlost => onChain_running hr hch (hat.trans (trayCell_lost hin hsrc hlost))⟩
    · have hat := hreceive.trans (if_neg (by simp [hleaf]))
      exact ⟨fun htakes => onChain_running hr hch (hat.trans (leafCell_taken hsrc htakes)),
        fun htakes => onChain_running hr hch (hat.trans (leafCell_passed hsrc htakes))⟩
    · have hat := hreceive.trans (if_neg (by simp [hleaf]))
      exact onChain_quiet hr hch (hat.trans (leafCell_own hsrc)) (quiet_inc hr.2 _ _)
  case expiry =>
    subst hc
    exact onChain_running hr hch rfl

end Sys2Proof.Proofs
end

section
/-! PROOFS. Splices, lists and the roster (R113, R121 to R128, R557): what an announcement, a list, a splice time, a roll and a link's
state do at a leaf and at its tray build. -/

set_option autoImplicit false

namespace Sys2Proof.Proofs
open Sys2Proof Sys2Proof.Machine Sys2Proof.Laws

/-! ### Announcements (R121, R123) -/

/-- The splice that an announcement tells of, container 0 coming `pE` and `pW` after the start of its cycle. -/
def announced (bs : List Byte) (pE pW : Nat) (s : State) : SpliceAnn :=
  { station := leAt bs 0 3 % 2 ^ 20, out := bit (leAt bs 0 3) 23, cyc := cycNear (s.rd (TMT_CYC 0)) (leAt bs 3 3), ver := leAt bs 6 2,
    time := spliceAt (cycNear (s.rd (TMT_CYC 0)) (leAt bs 3 3)) pE pW, left := 0, done := false, windowOpen := false, near := false }

/-- The splice is noted, once. -/
def annNoted (a : SpliceAnn) (s : State) : State :=
  if (s.chain 0).splices.any (fun x => x.station == a.station && x.cyc == a.cyc) = true then s
  else s.setChain 0 { s.chain 0 with splices := (s.chain 0).splices ++ [a] }

/-- CHN_SPL and CHN_SPL_CTL show it. -/
def annShown (a : SpliceAnn) (t : State) : State :=
  (t.wrTime (CHN_SPL_SUB 0) (CHN_SPL_SEC 0) a.time).wr (CHN_SPL_CTL 0) (a.station + b2n a.out * 2 ^ 30 + 2 ^ 31)

/-- Whether the leaf prepares a splice of its own: out where it is inserted, in where it fulfils what R123 asks. -/
def prepares (s : State) (a : SpliceAnn) : Bool := if a.out = true then s.inserted 0 else s.maySpliceIn a

section
variable {bs : List Byte} {pE pW : Nat} {s : State} {a : SpliceAnn} (ha : a = announced bs pE pW s)
include ha

/-- A leaf notes every announcement, and acts on one of its own. -/
theorem spliceAnn_eq : spliceAnn bs pE pW s =
    if a.station ≠ s.station then annNoted a s
    else if prepares s a = true then
      (if a.out = true then (annShown a (annNoted a s)).each
        ((annShown a (annNoted a s)).pil.jobs.filter (fun j => j.opcode == 0xC3 && j.phase == .waiting))
        (fun j v => finishJob j.id stOk [] v)
      else annShown a (annNoted a s))
    else if s.getB (CHN_SPL_CTL 0) 31 = true ∨ s.inserted 0 = true then annNoted a s
    else (annNoted a s).evt (CHN_EVT 0) 3 := by
  subst ha
  rfl

theorem spliceAnn_other (hother : a.station ≠ s.station) : spliceAnn bs pE pW s = annNoted a s :=
  (spliceAnn_eq ha).trans (if_pos hother)

variable (hown : a.station = s.station)
include hown

theorem spliceAnn_out (hprep : prepares s a = true) (hout : a.out = true) : spliceAnn bs pE pW s =
    (annShown a (annNoted a s)).each
      ((annShown a (annNoted a s)).pil.jobs.filter (fun j => j.opcode == 0xC3 && j.phase == .waiting))
      (fun j v => finishJob j.id stOk [] v) := by
  rw [spliceAnn_eq ha, if_neg (fun hother => hother hown), if_pos hprep, if_pos hout]

theorem spliceAnn_in (hprep : prepares s a = true) (hin : a.out = false) : spliceAnn bs pE pW s = annShown a (annNoted a s) := by
  rw [spliceAnn_eq ha, if_neg (fun hother => hother hown), if_pos hprep, if_neg (by simp [hin])]

/-- The repeat of one that it acts on changes nothing more (log 150) … -/
theorem spliceAnn_repeat (hprep : prepares s a = false) (hbusy : s.getB (CHN_SPL_CTL 0) 31 = true ∨ s.inserted 0 = true) :
    spliceAnn bs pE pW s = annNoted a s := by
  rw [spliceAnn_eq ha, if_neg (fun hother => hother hown), if_neg (by simp [hprep]), if_pos hbusy]

/-- … and one that it cannot act on is seen. -/
theorem spliceAnn_seen (hprep : prepares s a = false) (hctl : s.getB (CHN_SPL_CTL 0) 31 = false) (hout : s.inserted 0 = false) :
    spliceAnn bs pE pW s = (annNoted a s).evt (CHN_EVT 0) 3 := by
  rw [spliceAnn_eq ha, if_neg (fun hother => hother hown), if_neg (by simp [hprep]), if_neg (by simp [hctl, hout])]

end

/-- What R123 asks of a leaf that is to splice in. -/
theorem maySpliceIn_own {s : State} {a : SpliceAnn} (hown : a.station = s.station) :
    s.maySpliceIn a = (s.getB CHN_STATION 31 && !s.inserted 0 && s.getB CHN_CTL 0 && s.datState == 2 && s.pins.straps.fordListen &&
      Tbl.get? (s.chain 0).opVer 0 == some a.ver && Tbl.get? (s.chain 0).opVer 1 == some a.ver) := by
  simp only [State.maySpliceIn, State.stationValid, hown, beq_self_eq_true, Bool.and_true, List.all_cons, List.all_nil, Bool.and_assoc]

/-- A leaf prepares nothing where the condition of the splice's own direction fails. -/
theorem prepares_false {s : State} {a : SpliceAnn} {fit : Bool} (hfit : s.maySpliceIn a = fit)
    (hno : if a.out = true then s.inserted 0 = false else fit = false) : prepares s a = false := by
  rw [prepares]
  split at hno
  next hout => rw [if_pos hout, hno]
  next hin => rw [if_neg hin, hfit, hno]

/-- The row of an announcement at a leaf. -/
theorem spliceAnn_row {bs : List Byte} {pE pW : Nat} {s t : State} (hr : Running s) (hleaf : s.isTray = false)
    (hann : spliceAnn bs pE pW s = t) : exec (.spliceAnnReceive bs pE pW) s = .next (finish t) :=
  evNext_running hr ((if_neg (by simp [hleaf])).trans hann)

/-! ### Lists (R113) -/

/-- A list is stored under its version: an admin list awaits its swap, an operational one governs the announcements to come. -/
def listStored (ch : Nat) (bs : List Byte) (s : State) : State :=
  let t := putList ch (leAt bs 2 1 % 2 + 2 * (leAt bs 2 1 / 2 % 2)) (tmtEntries 6 bs) s
  let u := t.setF (TMT_VER ch) 0 16 (leAt bs 0 2)
  if leAt bs 2 1 / 2 % 2 = 1 then (t.setF (TMT_VER ch) 16 16 (leAt bs 0 2)).putB (TMT_CTL ch) 0 true
  else u.setChain ch { u.chain ch with opVer := Tbl.set (u.chain ch).opVer (leAt bs 2 1 % 2) (leAt bs 0 2) }

theorem tmtListReceive_eq (ch : Nat) (bs : List Byte) (s : State) : tmtListReceive ch bs s =
    if (listStored ch bs s).inserted ch = true ∧ (listStored ch bs s).isTray = false then sendUp 9 0 (bs.take 3) (listStored ch bs s)
    else listStored ch bs s := by
  by_cases hadmin : leAt bs 2 1 / 2 % 2 = 1
  · simp only [tmtListReceive, listStored, if_pos hadmin]
  · simp only [tmtListReceive, listStored, if_neg hadmin]

/-! ### The next splice (R121) -/

/-- Of a splice and the best so far, the one with the earlier cycle. -/
def earlier (best : Option SpliceAnn) (a : SpliceAnn) : Option SpliceAnn :=
  match best with
  | some b => if a.cyc < b.cyc then some a else some b
  | none => some a

theorem spliceDue_eq (c : ChainSt) : spliceDue c = (c.splices.filter (fun a => !a.done)).foldl earlier none := rfl

theorem eq_or_mem_of_earlier {b x : SpliceAnn} {best : Option SpliceAnn} (hb : b ∈ earlier best x) : b = x ∨ b ∈ best := by
  cases best with
  | none => exact .inl (Option.some.inj hb).symm
  | some y =>
    rw [earlier] at hb
    split at hb
    · exact .inl (Option.some.inj hb).symm
    · exact .inr hb

/-- A splice that comes before all others is picked when it is met … -/
theorem earlier_first {a : SpliceAnn} {best : Option SpliceAnn} (hbest : ∀ b ∈ best, b ≠ a → a.cyc < b.cyc) :
    earlier best a = some a := by
  cases best with
  | none => rfl
  | some b =>
    by_cases hba : b = a
    · rw [hba]
      exact ite_self _
    · exact if_pos (hbest b rfl hba)

/-- … and stays picked. -/
theorem earlier_stays {a x : SpliceAnn} (hx : x ≠ a → a.cyc < x.cyc) : earlier (some a) x = some a := by
  by_cases hxa : x = a
  · rw [hxa]
    exact ite_self _
  · exact if_neg (Nat.not_lt.2 (Nat.le_of_lt (hx hxa)))

/-- The splice not yet done whose cycle comes before that of every other one is the next. -/
theorem spliceDue_earliest {c : ChainSt} {a : SpliceAnn} (hmem : a ∈ c.splices) (hopen : a.done = false)
    (hfirst : ∀ b ∈ c.splices, b.done = false → b ≠ a → a.cyc < b.cyc) : spliceDue c = some a := by
  have hlater : ∀ b ∈ c.splices.filter (fun x => !x.done), b ≠ a → a.cyc < b.cyc := fun b hb => by
    obtain ⟨hb, hundone⟩ := List.mem_filter.1 hb
    exact hfirst b hb (by simpa using hundone)
  have hdue : a ∈ c.splices.filter (fun x => !x.done) := List.mem_filter.2 ⟨hmem, by simp [hopen]⟩
  obtain ⟨before, after, hsplit⟩ := List.append_of_mem hdue
  rw [spliceDue_eq, hsplit]
  rw [hsplit] at hlater
  have hbefore : ∀ b ∈ before.foldl earlier none, b ≠ a → a.cyc < b.cyc :=
    List.foldlRecOn (motive := fun best => ∀ b ∈ best, b ≠ a → a.cyc < b.cyc) before earlier (fun b hb => nomatch hb)
      (fun best hbest x hx b hb => (eq_or_mem_of_earlier hb).elim
        (fun hbx => hbx ▸ hlater x (List.mem_append_left _ hx)) (hbest b))
  rw [List.foldl_append, List.foldl_cons, earlier_first hbefore]
  exact List.foldlRecOn (motive := fun best => best = some a) after earlier rfl (fun best hbest x hx => by
    rw [hbest]
    exact earlier_stays (hlater x (List.mem_append_right _ (List.mem_cons_of_mem a hx))))

/-! ### A splice time (R119, R121, R124, R126) -/

section
variable {s : State} {a : SpliceAnn}

/-- The splice that is due takes place and opens its window; the tray build shows the next. -/
theorem spliceTime_due {ch : Nat} {near : Bool} {t : State} (hdue : spliceDue (s.chain ch) = some a)
    (ht : t = if s.isTray = true then traySplice ch a s else leafSplice a s) :
    spliceTime ch near s = if s.isTray = true then showSplice ch (openWindow ch near a t) else openWindow ch near a t := by
  subst ht
  simp only [spliceTime, hdue]
  split <;> rfl

theorem traySplice_out (ch : Nat) (hout : a.out = true) :
    traySplice ch a s = (spliceJobs ch a.station true (setRoster ch (stPos a.station) false s)).evt (CHN_EVT ch) 5 := if_pos hout

theorem traySplice_in (ch : Nat) (hin : a.out = false) :
    traySplice ch a s = s.setChain ch { s.chain ch with inAt := Tbl.set (s.chain ch).inAt (stPos a.station) s.now } :=
  if_neg (by simp [hin])

/-- The leaf's FORD_HOLD rises or falls, and it may originate again. -/
def fordSet (held : Bool) (event : Nat) (s : State) : State :=
  let u := ((s.putB (CHN_SPL_CTL 0) 31 false).putB (CHN_STATUS 0) 13 held).putB (CHN_STATUS 0) 12 held
  (listenLock 0 (u.setChain 0 { u.chain 0 with stopOrig := false })).evt (CHN_EVT 0) event

theorem leafSplice_out (hout : a.out = true) : leafSplice a s =
    if a.station ≠ s.station ∨ s.getB (CHN_SPL_CTL 0) 31 = false ∨ s.getB (CHN_SPL_CTL 0) 30 = false then s
    else fordSet false 5 s := by
  simp only [leafSplice, hout, Bool.true_eq_false, false_and, if_false, if_true, Bool.not_true, ne_eq, Bool.not_eq_true]
  rfl

theorem leafSplice_in (hin : a.out = false) : leafSplice a s =
    if a.station ≠ s.station ∨ s.getB (CHN_SPL_CTL 0) 31 = false ∨ s.getB (CHN_SPL_CTL 0) 30 = true then s
    else if s.maySpliceIn a = false then (s.putB (CHN_SPL_CTL 0) 31 false).evt (CHN_EVT 0) 3
    else fordSet true 4 s := by
  simp only [leafSplice, hin, true_and, Bool.false_eq_true, if_false, Bool.not_false, ne_eq, Bool.not_eq_false]
  rfl

end

/-! ### Rolls and link states (R126, R127) -/

section
variable {s : State}

theorem rollSend_heads {ch : Nat} (htray : s.isTray = true) (hin : s.inserted ch = true) :
    rollSend ch s = sendAll ch 0xE 0 (leBytes 2 (((s.chain ch).roll + 1) % 65536)) (s.setChain ch { s.chain ch with
      roll := ((s.chain ch).roll + 1) % 65536,
      unanswered := (setBits 17 (s.rd (CHN_ROSTER ch))).foldl (fun t p => Tbl.set t p ((Tbl.get? t p).getD 0 + 1))
        (s.chain ch).unanswered }) := if_neg (by simp [htray, hin])

theorem rollReceive_leaf {bs : List Byte} (hleaf : s.isTray = false) (hin : s.inserted 0 = true) :
    rollReceive bs s = sendUp 0xF 0 (bs.take 2 ++ leBytes 1 s.datState) s := if_neg (by simp [hleaf, hin])

/-- The answer of a leaf puts it on the roster; the first one after a splice-in completes it. -/
theorem rollAck_tray {ch src : Nat} {t u : State} (htray : s.isTray = true) (ht : t = setRoster ch (stPos src) true s)
    (hu : u = t.setChain ch { t.chain ch with unanswered := Tbl.erase (t.chain ch).unanswered (stPos src) }) :
    rollAck ch src s = spliceJobs ch src false
      (if s.getB (CHN_ROSTER ch) (stPos src) = false ∧ ∃ a ∈ (u.chain ch).splices, a.done = true ∧ a.out = false ∧ a.station = src
       then u.evt (CHN_EVT ch) 4 else u) := by
  have hnew : ((!s.getB (CHN_ROSTER ch) (stPos src) &&
        (u.chain ch).splices.any (fun a => a.done && !a.out && a.station == src)) = true) =
      (s.getB (CHN_ROSTER ch) (stPos src) = false ∧
        ∃ a ∈ (u.chain ch).splices, a.done = true ∧ a.out = false ∧ a.station = src) := by
    simp only [Bool.and_eq_true, Bool.not_eq_true', List.any_eq_true, beq_iff_eq, and_assoc]
  simp only [← hnew]
  subst hu ht
  exact if_neg (by simp [htray])

theorem rollTimeout_unanswered {ch pos : Nat} (htray : s.isTray = true)
    (hmissed : 2 ≤ (Tbl.get? (s.chain ch).unanswered pos).getD 0) : rollTimeout ch pos s = setRoster ch pos false s :=
  if_pos ⟨htray, hmissed⟩

theorem linkAlarmMsg_tray {ch src : Nat} {bs : List Byte} (htray : s.isTray = true) : linkAlarmMsg ch src bs s =
    alarmIn 2 src 0 0 s.now 0 (noteLink ch (stPos src) (if leAt bs 0 1 % 2 = 1 then .east else .west) (leAt bs 2 1) s) := by
  rw [linkAlarmMsg, if_pos htray, linkAlarmReceive, if_neg (by simp [htray])]

theorem linkStateReceive_leaf {bs : List Byte} (hleaf : s.isTray = false) : linkStateReceive bs s =
    s.setChain 0 { s.chain 0 with links := (List.range 4).map (fun i => leAt bs (3 * i) 3 % 2 ^ 17) } := if_neg (by simp [hleaf])

/-- What waits on a chain other than Landing's queues nothing for Landing. -/
theorem quiet_setChain (h : Quiet s) {ch : Nat} (hch : 2 ≠ ch) (c : ChainSt) : Quiet (s.setChain ch c) :=
  ⟨h.1, (congrArg ChainSt.txq (chain_other s c hch)).trans h.2⟩

end

/-- Settles O37: an announcement by whose it is and whether the leaf prepares it, a splice time by the splice due, the rest one case
each. -/
theorem spliceEventsComplete : Obligations.SpliceEventsComplete := by
  refine ⟨fun bs pE pW s cyc a t u hr hleaf hcyc ha ht hu => ?announcement, fun ch bs s v es dir t u hr hch hv hes hdir ht hu => ?list,
    fun ch src s hr htray hch hgood => ?request, fun ch near s a hr hch hmem hopen hfirst hout t ht => ?spliceOut,
    fun ch near s a hr hch hmem hopen hfirst hin t ht => ?spliceIn, fun ch s c hr hch hc => ?window,
    fun ch s c hr htray hch hin hc => ?roll, fun bs s hr hleaf hin => evNext_running hr (rollReceive_leaf hleaf hin),
    fun ch src bs s t u hr htray hch ht hu => onChain_running hr (tray_chain htray hch) (rollAck_tray htray ht hu),
    fun ch pos s hr htray hch hmissed => onChain_running hr (tray_chain htray hch) (rollTimeout_unanswered htray hmissed),
    fun ch src bs s hr htray hch => onChain_running hr (tray_chain htray hch) (linkAlarmMsg_tray htray),
    fun bs s hr hleaf => evNext_quiet hr.1 (linkStateReceive_leaf hleaf) (quiet_setChain hr.2 (by decide) _)⟩
  case announcement =>
    subst hcyc
    have hnoted : annNoted a s = t := ht.symm
    have hshown : annShown a (annNoted a s) = u := by rw [hnoted, hu]; rfl
    refine ⟨fun hother => spliceAnn_row hr hleaf ((spliceAnn_other ha hother).trans hnoted), fun hown hout hin => ?_,
      fun hown fit hfit => ?_⟩
    · have hprep : prepares s a = true := (if_pos hout).trans hin
      refine spliceAnn_row hr hleaf ((spliceAnn_out ha hown hprep hout).trans ?_)
      rw [hshown]
    · have hmay : s.maySpliceIn a = fit := (maySpliceIn_own hown).trans hfit.symm
      refine ⟨fun hin hok => ?_, fun hno hbusy => ?_, fun hno hctl hout => ?_⟩
      · have hprep : prepares s a = true := (if_neg (by simp [hin])).trans (hmay.trans hok)
        exact spliceAnn_row hr hleaf ((spliceAnn_in ha hown hprep hin).trans hshown)
      · exact spliceAnn_row hr hleaf ((spliceAnn_repeat ha hown (prepares_false hmay hno) hbusy).trans hnoted)
      · refine spliceAnn_row hr hleaf ((spliceAnn_seen ha hown (prepares_false hmay hno) hctl hout).trans ?_)
        rw [hnoted]
  case list =>
    have hstored : listStored ch bs s = u := by
      subst hu ht hdir hes hv
      rfl
    have hreceive := tmtListReceive_eq ch bs s
    rw [hstored] at hreceive
    refine ⟨fun hleaf hin => onChain_running hr hch (hreceive.trans (if_pos ⟨hin, hleaf⟩)),
      fun hsilent => onChain_running hr hch (hreceive.trans (if_neg ?_))⟩
    rintro ⟨hin, hleaf⟩
    rcases hsilent with htray | hout
    · exact absurd (htray.symm.trans hleaf) (by decide)
    · exact absurd (hin.symm.trans hout) (by decide)
  case request => exact onChain_running hr (tray_chain htray hch) (if_neg (by simp [htray, hgood]))
  case spliceOut =>
    refine onChain_running hr hch (spliceTime_due (spliceDue_earliest hmem hopen hfirst) ?_)
    rw [ht, traySplice_out ch hout, leafSplice_out hout]
    rfl
  case spliceIn =>
    refine onChain_running hr hch (spliceTime_due (spliceDue_earliest hmem hopen hfirst) ?_)
    rw [ht, traySplice_in ch hin, leafSplice_in hin]
    rfl
  case window =>
    subst hc
    exact onChain_running hr hch rfl
  case roll =>
    subst hc
    exact onChain_running hr (tray_chain htray hch) (rollSend_heads htray hin)

end Sys2Proof.Proofs
end

section
/-! PROOFS. The commands on probes, pod maps, counters, trackers, gauges and beats (R141, R152, R161, R164, R165): what each one's own
part answers on the operands it accepts. -/

set_option autoImplicit false

namespace Sys2Proof.Proofs
open Sys2Proof Sys2Proof.Machine Sys2Proof.Laws

/-! ### PROBE_SET (R152, R165) -/

/-- The descriptors that a PROBE_SET command carries, each with its probe's number. -/
def probeSetDescs (c : Cmd) : List (Nat × Desc) :=
  (List.range (c.f 2 16 9)).map (fun i =>
    (c.f 2 0 10 + i, descOf (c.w (3 + 4 * i)) (c.w (4 + 4 * i)) (c.w (5 + 4 * i)) (c.w (6 + 4 * i))))

/-- The valid descriptors as they stand once those of the command are put; a command with none looks at none. -/
def validDescs (c : Cmd) (v : State) : List Desc :=
  if c.f 2 16 9 = 0 then [] else ((List.range 1024).filter (fun p => v.getB (PRB_DESC p 0) 31)).map v.desc

/-- Descriptors that are each good by themselves, share nothing with the others, and are of no probe in use, are put. -/
theorem probeSet_accepts {c : Cmd} {u v : State} (hn : c.f 2 16 9 ≤ 255) (hfit : c.f 2 0 10 + c.f 2 16 9 ≤ 1024)
    (hv : v = u.each (probeSetDescs c) (fun e t => putDesc e.1 e.2 t))
    (hgood : ∀ e ∈ probeSetDescs c, bit e.2.w0 31 = true → e.2.bad u.isTray = false) (hclash : descClash (validDescs c v) = false)
    (hfree : ∀ e ∈ probeSetDescs c, u.probeInUse e.1 = false) :
    probeSet c u = (.reply 0x00 [], v) := by
  have hrange : ¬(255 < c.f 2 16 9 ∨ 1024 < c.f 2 0 10 + c.f 2 16 9) := by omega
  have hbad : ¬((probeSetDescs c).any (fun e => bit e.2.w0 31 && e.2.bad u.isTray) = true ∨ descClash (validDescs c v) = true) := by
    simpa [hclash] using hgood
  have hused : ¬ (probeSetDescs c).any (fun e => u.probeInUse e.1) = true := by simpa using hfree
  subst hv
  exact (if_neg hrange).trans ((if_neg hbad).trans (if_neg hused))

/-! ### TAP_MAP (R132, R165) -/

/-- The 16 bits of an event in a pod's map. -/
def mapEntry (u : State) (pod e : Nat) : Nat := u.getF (TAP_MAP pod (e / 2)) (16 * (e % 2)) 16

/-- Entries that stay as they are, or route to and from counters that feed no probe in use, are put in the map of a pod that is on. -/
theorem tapMap_accepts {c : Cmd} {u : State} (hn : c.f 3 0 11 ≤ 1024) (hfit : c.f 2 16 10 + c.f 3 0 11 ≤ 1024)
    (hfree : ∀ x ∈ tapMapEnts c, mapEntry u (c.f 2 0 6) x.1 = x.2 ∨
      (u.counterUsed (1024 * c.f 2 0 6 + mapEntry u (c.f 2 0 6) x.1 % 1024) = false ∧
        u.counterUsed (1024 * c.f 2 0 6 + x.2 % 1024) = false))
    (hon : u.podOn (c.f 2 0 6) = true) :
    tapMap c u = (.reply 0x00 [],
      u.each (tapMapEnts c) (fun x t => t.setF (TAP_MAP (c.f 2 0 6) (x.1 / 2)) (16 * (x.1 % 2)) 16 x.2)) := by
  have hrange : ¬(1024 < c.f 3 0 11 ∨ 1024 < c.f 2 16 10 + c.f 3 0 11) := by omega
  have hidle : ¬ (tapMapEnts c).any (fun x => mapEntry u (c.f 2 0 6) x.1 != x.2 &&
      (u.counterUsed (1024 * c.f 2 0 6 + mapEntry u (c.f 2 0 6) x.1 % 1024) ||
        u.counterUsed (1024 * c.f 2 0 6 + x.2 % 1024))) = true := by
    rw [List.any_eq_true]
    rintro ⟨x, hx, hbusy⟩
    rcases hfree x hx with hsame | ⟨hold, hnew⟩
    · simp [hsame] at hbusy
    · simp [hold, hnew] at hbusy
  have hlit : ¬ u.podOn (c.f 2 0 6) = false := by simp [hon]
  exact (if_neg hrange).trans ((if_neg hidle).trans (if_neg hlit))

/-! ### TAP_CLEAR (R141, R165) -/

/-- The pods that are on and have one of the counters that a TAP_CLEAR names. -/
def clearPods (c : Cmd) (u : State) : List Nat :=
  (List.range 64).filter (fun p => u.podOn p && decide (c.f 2 0 16 < 1024 * (p + 1)) &&
    decide (1024 * p < c.f 2 0 16 + c.f 3 0 17))

/-- Counters in range are cleared at their pods; the command waits where a pod has no bank for the capture. -/
theorem tapClear_accepts {c : Cmd} {u v : State} (hfit : c.f 2 0 16 + c.f 3 0 17 ≤ 65536) (hn : c.f 3 0 17 ≠ 0)
    (hv : v = u.each (clearPods c u) (podClearAsk u.pil.nextJob (c.f 2 0 16) (c.f 3 0 17))) :
    tapClear c u = if v.clearWaits u.pil.nextJob = true then (.started .waiting .plain, v) else (.reply 0x00 [], v) := by
  subst hv
  exact (if_neg (Nat.not_lt.2 hfit)).trans (if_neg hn)

/-- With no counter there is nothing to clear. -/
theorem tapClear_none {c : Cmd} {u : State} (hfit : c.f 2 0 16 ≤ 65536) (hn : c.f 3 0 17 = 0) :
    tapClear c u = (.reply 0x00 [], u) := by
  have hrange : ¬ 65536 < c.f 2 0 16 + c.f 3 0 17 := by omega
  exact (if_neg hrange).trans (if_pos hn)

/-! ### TRK_SET (R161, R164, R165) -/

/-- Tracker `i` of a TRK_SET command gets its six words, reserved bits dropped, and starts. -/
def trackerSet (c : Cmd) (i : Nat) (t : State) : State :=
  trackerStart (c.f 2 0 8 + i) (((t.wr (PRB_TRK_CFG (c.f 2 0 8 + i) 0) (setFld (setFld (c.w (3 + 6 * i)) 28 3 0) 0 12 0)).wr
    (PRB_TRK_CFG (c.f 2 0 8 + i) 1) (setFld (setFld (c.w (3 + 6 * i + 1)) 22 2 0) 0 16 0)).each [2, 3, 4, 5] (fun j w =>
      w.wr (PRB_TRK_CFG (c.f 2 0 8 + i) j) (c.w (3 + 6 * i + j))))

theorem trkSet_accepts {c : Cmd} {u : State} (hn : c.f 2 8 9 ≤ 170) (hfit : c.f 2 0 8 + c.f 2 8 9 ≤ 256)
    (hgood : ∀ i, i < c.f 2 8 9 → c.f (3 + 6 * i) 12 4 ≠ 0 ∧ c.f (4 + 6 * i) 16 6 ≤ 32 ∧ c.w (6 + 6 * i) ≠ 0) :
    trkSet c u = (.reply 0x00 [], u.each (List.range (c.f 2 8 9)) (trackerSet c)) := by
  have hrange : ¬(170 < c.f 2 8 9 ∨ 256 < c.f 2 0 8 + c.f 2 8 9) := by omega
  have hbad : ¬ (List.range (c.f 2 8 9)).any (fun i =>
      c.f (3 + 6 * i) 12 4 == 0 || decide (32 < c.f (4 + 6 * i) 16 6) || c.w (6 + 6 * i) == 0) = true := by
    rw [List.any_eq_true]
    rintro ⟨i, hi, hbad⟩
    obtain ⟨halpha, hwarm, hlimit⟩ := hgood i (List.mem_range.1 hi)
    simp [halpha, Nat.not_lt.2 hwarm, hlimit] at hbad
  exact (if_neg hrange).trans (if_neg hbad)

/-! ### INPUT_SET (R146, R149, R165) -/

/-- Whether INPUT_SET would take its input from a probe in use: a gauge that is sampled now, or a beat that is enabled now. -/
def inputDropped (c : Cmd) (u : State) (p : Nat) : Bool :=
  ((u.desc p).pair.1 == 2 && decide (c.f 2 0 9 ≤ fld (u.desc p).w0 0 16) && decide (fld (u.desc p).w0 0 16 < u.gaugeCount)) ||
    ((u.desc p).pair.1 == 3 && u.beatOn (fld (u.desc p).w0 0 16) && !(bit (c.f 2 16 8) (fld (u.desc p).w0 0 16)))

/-- It takes none where gauges that probes in use sample stay sampled and their beats stay enabled. -/
theorem inputDropped_eq_false {c : Cmd} {u : State} {p : Nat}
    (hgauge : (u.desc p).pair.1 = 2 → fld (u.desc p).w0 0 16 < c.f 2 0 9 ∨ u.gaugeCount ≤ fld (u.desc p).w0 0 16)
    (hbeat : (u.desc p).pair.1 = 3 → u.beatOn (fld (u.desc p).w0 0 16) = true → bit (c.f 2 16 8) (fld (u.desc p).w0 0 16) = true) :
    inputDropped c u p = false := by
  rw [inputDropped, Bool.or_eq_false_iff]
  constructor
  · by_cases hsrc : (u.desc p).pair.1 = 2
    · rcases hgauge hsrc with hkept | hidle
      · simp [Nat.not_le.2 hkept]
      · simp [Nat.not_lt.2 hidle]
    · simp [hsrc]
  · by_cases hsrc : (u.desc p).pair.1 = 3
    · cases hon : u.beatOn (fld (u.desc p).w0 0 16) with
      | false => simp
      | true => simp [hbeat hsrc hon]
    · simp [hsrc]

theorem inputSet_accepts {c : Cmd} {u : State} (hn : c.f 2 0 9 ≤ (if u.isTray then 64 else 256)) (htmo : c.f 3 0 12 ≠ 0)
    (hkept : ∀ p ∈ u.probesUsed, inputDropped c u p = false) :
    inputSet c u = (.reply 0x00 [],
      ((u.each ((List.range 8).filter (fun b => u.beatOn b && !(bit (c.f 2 16 8) b))) beatForget).wr GAU_CTL
        (c.f 2 0 9 + c.f 3 0 12 * 2 ^ 16)).wr BEA_CTL (c.f 2 16 8)) := by
  have hrange : ¬((if u.isTray then 64 else 256) < c.f 2 0 9 ∨ c.f 3 0 12 = 0) := by omega
  have hnone : ¬ u.probesUsed.any (inputDropped c u) = true := by simpa using hkept
  exact (if_neg hrange).trans (if_neg hnone)

/-- Settles O7: what each command's own part answers, under the rule for a command that runs. -/
theorem probeCommandsComplete : Obligations.ProbeCommandsComplete := by
  refine ⟨fun c s u ds v hr hn hfit hds hv hgood hclash hfree => ?probeSet,
    fun c s u hr hn hfit hfree hon => runs_ok hr (tapMap_accepts hn hfit hfree hon),
    fun c s u v hr hfit hn hv => ?tapClear,
    fun c s u hr hfit hn => runs_ok hr (tapClear_none hfit hn),
    fun c s u hr hn hfit hgood => runs_ok hr (trkSet_accepts hn hfit hgood),
    fun c s u hr hn htmo hkept => runs_ok hr (inputSet_accepts hn htmo fun p hp => ?input)⟩
  case probeSet =>
    subst hds
    exact runs_ok hr (probeSet_accepts hn hfit hv hgood hclash hfree)
  case tapClear =>
    have hown := tapClear_accepts hfit hn hv
    split at hown
    next hwaits => exact (runs_started hr hown).trans (by rw [if_pos hwaits])
    next hdone => exact (runs_ok hr hown).trans (by rw [if_neg hdone])
  case input =>
    obtain ⟨hgauge, hbeat⟩ := hkept p hp
    exact inputDropped_eq_false hgauge hbeat

end Sys2Proof.Proofs
end

section
/-! PROOFS. Pods, gauges and series cells (R131 to R147, R157, R160): a bank that frees, a snapshot on its way, a gauge's answer, and a
pod that rises or falls. -/

set_option autoImplicit false

namespace Sys2Proof.Proofs
open Sys2Proof Sys2Proof.Machine Sys2Proof.Laws

/-! ### Captures and snapshots (R139, R140) -/

/-- At a pod with a free bank the first capture that waits is taken, with the counters as the edge's lanes leave them. -/
theorem deferredCapture_cut {p id : Nat} {ls : List TapLane} {s t : State} {x : PodSt} {c : PodCap} (ht : t = countLanes ls s)
    (hx : x = t.pod p) (hon : t.podOn p = true) (hbank : x.banks < 2) (hfirst : x.caps.find? (·.waiting) = some c)
    (hcut : c.cut = some id) :
    deferredCapture p ls s = ((t.setPod p { x with
      caps := x.caps.takeWhile (fun y => !y.waiting) ++
        { c with waiting := false, vals := x.counts } :: (x.caps.dropWhile (fun y => !y.waiting)).drop 1,
      lastCut := id }).inc TAP_DEFERRED 1).evt TAP_EVT 1 := by
  subst ht hx
  have hopen : ¬((countLanes ls s).podOn p = false ∨ 2 ≤ ((countLanes ls s).pod p).banks) := by
    simp [hon, hbank]
  simp only [deferredCapture, if_neg hopen, hfirst, hcut]

/-- The oldest bank in use gives its snapshot to its cut, and frees. -/
theorem snapshotCrossed_cut {p id : Nat} {s : State} {x : PodSt} {c : PodCap} (hx : x = s.pod p)
    (holdest : x.caps.find? (fun c => !c.waiting) = some c) (hcut : c.cut = some id) :
    snapshotCrossed p s = giveSnap id p { stale := c.stale, deferred := c.deferred, vals := c.vals }
      (s.setPod p { x with caps := x.caps.takeWhile (·.waiting) ++ (x.caps.dropWhile (·.waiting)).drop 1 }) := by
  subst hx
  simp only [snapshotCrossed, holdest, hcut]

/-- The oldest snapshot still on its way is given up as stale, and its bank marked. -/
theorem snapshotLate_cut {p id : Nat} {s : State} {x : PodSt} {c : PodCap} (hx : x = s.pod p)
    (holdest : x.caps.find? (fun c => c.cut.isSome && !c.stale) = some c) (hcut : c.cut = some id) :
    snapshotLate p s = giveSnap id p { stale := true, deferred := c.deferred, vals := [] }
      (((s.setPod p { x with caps := x.caps.map (fun y => if y.cut == c.cut then { y with stale := true } else y) }).inc
        TAP_SNAP_TMO 1).evt TAP_EVT 2) := by
  subst hx
  simp only [snapshotLate, holdest, hcut, Option.getD_some]

/-! ### Series cells (R160) -/

theorem seriesDiscard_queued {parcel i : Nat} {s : State} {c : ChainSt} (hc : c = s.chain 0)
    (hqueued : c.txq.findIdx? (fun m => m.type == 4 && m.parcel == parcel) = some i) :
    seriesDiscard parcel s =
      ((s.setChain 0 { c with txq := c.txq.take i ++ c.txq.drop (i + 1) }).inc PRB_SERIES_DROP 1).evt PRB_EVT 4 := by
  subst hc
  simp only [seriesDiscard, hqueued]

/-! ### Gauges (R146, R147) -/

/-- The first gauge that a cut awaits has answered with `v`, or has not. -/
def gaugeTaken (c : Cut) (v : Option Nat) (s : State) : State :=
  modCut c.id (fun x => { x with waiting := x.waiting.drop 1, gauges := Tbl.set x.gauges (c.waiting.headD 0) v }) s

section
variable {s : State} {c : Cut} (hawaits : s.tap.cuts.find? (fun c => !c.waiting.isEmpty) = some c)
include hawaits

theorem gaugeSettle_answer (n : Nat) : gaugeSettle (some n) s = (gaugeTaken c (some n) s).wr (GAU_VAL (c.waiting.headD 0)) n := by
  simp only [gaugeSettle, hawaits, gaugeTaken]

theorem gaugeSettle_timeout : gaugeSettle none s = (gaugeTaken c none s).inc GAU_STALE 1 := by
  simp only [gaugeSettle, hawaits, gaugeTaken]

end

/-! ### Power of a pod (R134, R144) -/

theorem podRise_off {p : Nat} {s : State} (hleaf : s.isTray = false) (hp : p < 64) (hoff : s.podOn p = false) :
    podRise p s = mapIdentity p
      (({ s with pins := { s.pins with tapOn := setBit s.pins.tapOn p } } : State).setPod p { s.pod p with counts := [] }) :=
  if_neg (by simp [hleaf, hoff, hp])

/-- The snapshots that a pod which falls has not delivered are stale for their cuts. -/
def fallenSnaps (p : Nat) (caps : List PodCap) (t : State) : State :=
  t.each caps (fun c u => match c.cut with
    | some id => giveSnap id p { stale := true, deferred := c.deferred, vals := [] } u
    | none => u)

/-- A pod that holds no TAP_CLEAR falls: no command waits for it. -/
theorem podFall_cuts {p : Nat} {s t : State} {x : PodSt} (hon : s.podOn p = true) (hx : x = s.pod p)
    (ht : t = ({ s with pins := { s.pins with tapOn := clrBit s.pins.tapOn p } } : State).setPod p
      { x with caps := [], counts := [], falls := x.falls ++ [s.tap.nextCut - 1] })
    (hcuts : ∀ c ∈ x.caps, c.cut.isSome = true) :
    podFall p s = fallenSnaps p x.caps t := by
  have hclears : x.caps.filter (fun c => c.cut.isNone && c.waiting) = [] := by
    rw [List.filter_eq_nil_iff]
    intro c hc
    simp [Option.isNone_eq_false_iff.2 (hcuts c hc)]
  have hfall : podFall p s = (fallenSnaps p x.caps t).each (x.caps.filter (fun c => c.cut.isNone && c.waiting))
      (fun c u => clearSettled c.job u) := by
    subst ht hx
    exact if_neg (by simp [hon])
  rw [hfall, hclears]
  rfl

/-- Settles O38: each event in the case that its pod, its cut or its queue gives, the values that can then be formed after it. -/
theorem podEventsComplete : Obligations.PodEventsComplete := by
  refine ⟨fun p ls s t x c id hr ht hx hon hbank hfirst hcut =>
      evNext_running hr (deferredCapture_cut ht hx hon hbank hfirst hcut),
    fun p s x c id hr hx holdest hcut => evNext_running hr (congrArg evalReady (snapshotCrossed_cut hx holdest hcut)),
    fun p s x c id hr hx holdest hcut => evNext_running hr (congrArg evalReady (snapshotLate_cut hx holdest hcut)),
    fun parcel s c i hr hc hqueued => evNext_running hr (seriesDiscard_queued hc hqueued),
    fun data s c hr hawaits => evNext_running hr (congrArg evalReady (gaugeSettle_answer hawaits data.toNat)),
    fun s c hr hawaits => evNext_running hr (congrArg evalReady (gaugeSettle_timeout hawaits)),
    fun p s hr hleaf hp hoff => evNext_running hr (podRise_off hleaf hp hoff),
    fun p s x t hr hon hx ht hcuts => evNext_running hr (congrArg evalReady (podFall_cuts hon hx ht hcuts))⟩

end Sys2Proof.Proofs
end

section
/-! PROOFS. Rulings and reservations (R138, R240 to R261, R419, R421, R558): what each message, answer and timeout does in the case that
the ruling, the envelope or the context gives. -/

set_option autoImplicit false

namespace Sys2Proof.Proofs
open Sys2Proof Sys2Proof.Machine Sys2Proof.Laws

/-! ### Rulings (R253, R255, R256) -/

/-- A child's acknowledgement, which the station awaits, is gathered. -/
theorem rulingAckIn_awaited {a : RulingAck} {s : State} {x : RulingSeen} (hseen : s.seen? a.issuer a.no = some x)
    (hwaits : ∃ w ∈ x.waits, w.1 = a.src) :
    rulingAckIn a s = ackWhenDone a.issuer a.no (modSeen a.issuer a.no (fun y =>
      { y with waits := y.waits.filter (fun w => w.1 != a.src), applied := y.applied + a.applied,
               refused := y.refused + a.refused, unreached := y.unreached + a.unreached,
               lowest := lowerOf y.lowest a.lowest }) s) := by
  have hawaited : ¬ x.waits.any (fun w => w.1 == a.src) = false := by simpa using hwaits
  simp only [rulingAckIn, hseen, if_neg hawaited]

section
variable {issuer no child : Nat} {s : State} {x : RulingSeen} {w : Nat × Nat} (hseen : s.seen? issuer no = some x)
  (hwait : x.waits.find? (fun w => w.1 == child) = some w)
include hseen hwait

/-- A silent child is sent the ruling again, three times at most … -/
theorem rulingResend_again (hleft : w.2 < 3) :
    rulingResend issuer no child s = rulingTo x.ruling child (modSeen issuer no (fun y =>
      { y with waits := y.waits.map (fun v => if v.1 = child then (v.1, v.2 + 1) else v) }) s) := by
  simp only [rulingResend, hseen, hwait, if_pos hleft]

/-- … and is then given up. -/
theorem rulingResend_givenUp (hspent : 3 ≤ w.2) :
    rulingResend issuer no child s = ackWhenDone issuer no (modSeen issuer no (fun y =>
      { y with waits := y.waits.filter (fun v => v.1 != child), unreached := y.unreached + 1 }) s) := by
  simp only [rulingResend, hseen, hwait, if_neg (Nat.not_lt.2 hspent)]

end

/-- A held ruling whose point has come is applied at its epoch, or at its time after those before it. -/
theorem rulingEffect_due {push : List Byte → State → State} {issuer no : Nat} {s : State} {r : Ruling}
    (hheld : s.par.pend.find? (fun r => r.issuer == issuer && r.no == no) = some r) (hdue : s.rulingDue r = true) :
    rulingEffect push issuer no s = if r.atEpoch = true then epochRuling r s
      else s.each ((s.par.pend.filter (fun x => r.ahead x)).foldr insertTimed [] ++ [r]) (timedRuling push) := by
  have hnow : ¬ s.rulingDue r = false := by simp [hdue]
  simp only [rulingEffect, hheld, if_neg hnow]

/-! ### Parts and questions as remote commands (R409, R411, R419) -/

/-- With Pilot held, or others waiting for it, a launched command waits its turn (R411). -/
theorem launchOr_waits {x : Launch} {run : State → State} {s : State} (h : s.pilotHeld = true ∨ s.pil.launchQ ≠ []) :
    launchOr x run s = { s with pil := { s.pil with launchQ := s.pil.launchQ ++ [x] } } :=
  if_pos (by simpa using h)

/-- An envelope passes the six steps of R419: it has the key of slot `k`, its tag is right, its time is in the window and no replay, and
fewer than 8 remote commands are open. `t` is the state in which its tag has been computed, `i` the entry of the table it takes. -/
structure Admitted (e : EnvSeal) (body : List Byte) (s : State) (k time : Nat) (t : State) (i : Nat) : Prop where
  key : s.keySlot e.keyId = some k
  time_some : e.time = some time
  tag : computeTag (s.key k) body s = (e.mac, t)
  clock : t.getB DAT_STATE 4 = true
  window : (timeDiff time t.now).natAbs ≤ t.replayWin
  fresh : t.replaySlot e.keyId e.origin time = some (some i)
  room : t.rd PIL_REMOTE < 8

/-- The table of R419 with the envelope's entry. -/
def replayNoted (e : EnvSeal) (time i : Nat) (t : State) : State :=
  { t with pil := { t.pil with replay := Tbl.set t.pil.replay i ⟨e.keyId, e.origin, time⟩ } }

/-- The state in which a part or a question has been counted (R409, R419). -/
def remoteCounted (e : EnvSeal) (time i : Nat) (t : State) : State := ((replayNoted e time i t).inc PIL_REMOTE 1).inc PIL_CMDS 1

theorem envAdmit_admitted {e : EnvSeal} {body : List Byte} {s t : State} {k time i : Nat} (ha : Admitted e body s k time t i)
    (full : State → State) (launch : Nat → State → State) :
    envAdmit e body full launch s = launch k (replayNoted e time i t) := by
  obtain ⟨hkey, htime, htag, hclock, hwindow, hfresh, hroom⟩ := ha
  have hin : ¬(t.getB DAT_STATE 4 = false ∨ t.replayWin < (timeDiff time t.now).natAbs) := by
    simp [hclock, Nat.not_lt.2 hwindow]
  simp only [envAdmit, hkey, htag, ne_eq, not_true, if_false, htime, if_neg hin, hfresh, if_neg (Nat.not_le.2 hroom)]
  rfl

/-- Under a key that is in no slot it is discarded. -/
theorem envAdmit_unknownKey {e : EnvSeal} {s : State} (hkey : s.keySlot e.keyId = none) (body : List Byte) (full : State → State)
    (launch : Nat → State → State) : envAdmit e body full launch s = authFail s := by
  simp only [envAdmit, hkey]

section
variable {e : EnvSeal} {tag : Nat} {via : Via} {ws : List Word} {x : Launch} {f : State → State} {s : State}
  (hboot : s.pil.booted = true)
include hboot

theorem nodeCommand_unknownKey (hkey : s.keySlot e.keyId = none) : nodeCommand e tag via ws x f s = authFail s := by
  have hup : ¬ s.pil.booted = false := by simp [hboot]
  exact (if_neg hup).trans (envAdmit_unknownKey hkey _ _ _)

variable {t u : State} {k time i : Nat} (ha : Admitted e (envBody s.station false e.keyId e.origin time ws) s k time t i)
  (hu : u = remoteCounted e time i t)
include ha hu

/-- One that is admitted needs a key of class CONFIGURE, and starts or waits for Pilot. -/
theorem nodeCommand_admitted : nodeCommand e tag via ws x f s = if u.getF (PIL_KEY_ID k) 28 2 < 2 then
      remoteDone (replyRemote e.keyId e.origin via (replyHead stNoAuth false 0x11 tag 0) (u.inc PIL_REFUSED 1))
    else launchOr x f u := by
  have hup : ¬ s.pil.booted = false := by simp [hboot]
  have hbody : envBody s.station false e.keyId e.origin (e.time.getD 0) ws = envBody s.station false e.keyId e.origin time ws := by
    rw [ha.time_some, Option.getD_some]
  subst hu
  refine (if_neg hup).trans ?_
  rw [hbody, envAdmit_admitted ha]
  rfl

theorem nodeCommand_lowClass (hclass : u.getF (PIL_KEY_ID k) 28 2 < 2) : nodeCommand e tag via ws x f s =
    remoteDone (replyRemote e.keyId e.origin via (replyHead stNoAuth false 0x11 tag 0) (u.inc PIL_REFUSED 1)) :=
  (nodeCommand_admitted hboot ha hu).trans (if_pos hclass)

theorem nodeCommand_starts (hclass : 2 ≤ u.getF (PIL_KEY_ID k) 28 2) (hfree : PilotFree u) : nodeCommand e tag via ws x f s = f u :=
  ((nodeCommand_admitted hboot ha hu).trans (if_neg (Nat.not_lt.2 hclass))).trans (launchOr_free hfree)

theorem nodeCommand_waits (hclass : 2 ≤ u.getF (PIL_KEY_ID k) 28 2) (hheld : u.pilotHeld = true ∨ u.pil.launchQ ≠ []) :
    nodeCommand e tag via ws x f s = { u with pil := { u.pil with launchQ := u.pil.launchQ ++ [x] } } :=
  ((nodeCommand_admitted hboot ha hu).trans (if_neg (Nat.not_lt.2 hclass))).trans (launchOr_waits hheld)

end

/-! ### Answers of a claim exchange (R421, R558) -/

theorem claimIn_unasked {e : EnvSeal} {g st : Nat} {s : State} (hissued : s.issuedFor e.origin g 0x11 st = none) (parcel : Nat)
    (ws : List Word) (f : ClaimSt → ClaimSt) : claimIn e g st parcel ws f s = authFail s := by
  simp only [claimIn, hissued]

/-- An answer that its tag proves reaches the exchange that asked its child. -/
theorem claimIn_answers {e : EnvSeal} {g st parcel k : Nat} {ws : List Word} {f : ClaimSt → ClaimSt} {s t u : State} {x : Issued}
    {c : ClaimSt} (hissued : s.issuedFor e.origin g 0x11 st = some x) (hkey : s.keySlot e.keyId = some k)
    (hu : u = issuedDone x t)
    (hasked : u.par.claims.find? (fun c => c.parcel == parcel && x.purpose == .claim parcel st && c.waits.any (fun w => w.1 == st)) =
      some c)
    (htag : computeTag (s.key k) (envBody st true e.keyId e.origin (e.time.getD 0) ws) s = (e.mac, t)) :
    claimIn e g st parcel ws f s =
      claimDone 4 parcel c.level (putClaim (f { c with waits := c.waits.filter (fun w => w.1 != st) }) u) := by
  subst hu
  simp only [claimIn, hissued, replyCheck, hkey, htag, ne_eq, not_true, if_false, hasked]

/-! ### Reservations that wait (R244 to R246) -/

/-- The children of a context, other stations, that have not answered their part. -/
def silentParts (c : Ctx) : List PartWait := c.parts.filter (fun p => !p.own && p.answer.isNone)

/-- A child gets its part again, under a tag of its own. -/
def partSentAgain (c : Ctx) (parcel : Nat) (p : PartWait) (t : State) : State :=
  sendPart c p.station (issueTag 0x11 p.station (.reserve parcel p.station) t).1
    (issueTag 0x11 p.station (.reserve parcel p.station) t).2

/-- What is kept of a child whose interval has ended: one that is silent was asked once more, or has failed with TIMEOUT. -/
def partTimed (p : PartWait) : PartWait :=
  if p.own ∨ p.answer.isSome = true then p
  else if p.resends < 3 then { p with resends := p.resends + 1 }
  else { p with answer := some (p.station, stTimeout, 0) }

/-- With no claim exchange, the silent children of a context get their parts again, those asked three times being given up. -/
theorem resvResend_ctx {parcel level n : Nat} {s v : State} {c : Ctx} (hnone : s.claim? parcel level = none)
    (hctx : s.ctxAt parcel level = some (n, c))
    (hv : v = s.each ((silentParts c).filter (fun p => decide (p.resends < 3))) (partSentAgain c parcel)) :
    resvResend parcel level s = settleResv 4 n
      ((if (silentParts c).any (fun p => decide (3 ≤ p.resends)) = true then v.evt PAR_EVT 1 else v).modCtx n (fun x =>
        { x with parts := x.parts.map partTimed })) := by
  subst hv
  simp only [resvResend, hnone, hctx]
  rfl

theorem resvLapse_reserved {parcel n : Nat} {s : State} {c : Ctx} (hctx : s.ctxPub parcel = some (n, c)) (hphase : c.phase = .reserved)
    (hok : c.resvOk = true) : resvLapse parcel s = ((freeParcel n false s).inc PAR_LAPSED 1).evt PAR_EVT 6 := by
  simp only [resvLapse, hctx, hphase, hok, and_self, if_true]

/-- Settles O42: a ruling by what is kept of it, a part or question by the steps of R419 and by Pilot, an answer by its exchange, and a
timeout by what it finds. -/
theorem rulingEventsComplete : Obligations.RulingEventsComplete := by
  refine ⟨fun src parcel bs s e r hr hruling => ?received,
    fun a s x hr hseen hwaits => evNext_running hr (rulingAckIn_awaited hseen hwaits),
    fun issuer no child s x w hr hseen hwait => ⟨fun hleft => evNext_running hr (rulingResend_again hseen hwait hleft),
      fun hspent => evNext_running hr (rulingResend_givenUp hseen hwait hspent)⟩,
    fun issuer no s r hr hheld hdue => ⟨fun hepoch => evNext_running hr ((rulingEffect_due hheld hdue).trans (if_pos hepoch)),
      fun htime => evNext_running hr ((rulingEffect_due hheld hdue).trans (if_neg (by simp [htime])))⟩,
    fun p s k time t i u hr hboot hkey htime htag hclock hwindow hfresh hroom hu => ?part,
    fun e g via parcel level trays s k time t i u hr hboot hkey htime htag hclock hwindow hfresh hroom hu hclass => ?question,
    fun p s hr hboot hkey => evNext_running hr (nodeCommand_unknownKey hboot hkey),
    fun e g st parcel trays gone s x k t u c hr hissued hkey hu hasked =>
      ⟨fun htag => evNext_running hr (claimIn_answers hissued hkey hu hasked htag),
        fun htag => evNext_running hr (claimIn_answers hissued hkey hu hasked htag)⟩,
    fun e g st parcel trays gone s hr hissued =>
      ⟨evNext_running hr (claimIn_unasked hissued _ _ _), evNext_running hr (claimIn_unasked hissued _ _ _)⟩,
    fun parcel level s n c silent v hr hnone hctx hsilent hv => ?silent,
    fun parcel s n c hr hctx hphase hok => evNext_running hr (resvLapse_reserved hctx hphase hok),
    fun parcel s hr => evNext_quiet hr.1 (f := unstage parcel) rfl hr.2⟩
  case received =>
    refine evNext_running hr ?_
    rw [rulingMsg, hruling]
  case part =>
    have ha : Admitted p.env (envBody s.station false p.env.keyId p.env.origin time (partWords p)) s k time t i :=
      ⟨hkey, htime, htag, hclock, hwindow, hfresh, hroom⟩
    exact ⟨fun hclass => evNext_running hr (nodeCommand_lowClass hboot ha hu hclass),
      fun hclass => ⟨fun hfree => evNext_running hr (nodeCommand_starts hboot ha hu hclass hfree),
        fun hheld => evNext_running hr (nodeCommand_waits hboot ha hu hclass hheld)⟩⟩
  case question =>
    have ha : Admitted e (envBody s.station false e.keyId e.origin time (askWords g parcel level trays)) s k time t i :=
      ⟨hkey, htime, htag, hclock, hwindow, hfresh, hroom⟩
    exact ⟨fun hfree => evNext_running hr (nodeCommand_starts hboot ha hu hclass hfree),
      fun hheld => evNext_running hr (nodeCommand_waits hboot ha hu hclass hheld)⟩
  case silent =>
    subst hsilent
    exact evNext_running hr (resvResend_ctx hnone hctx hv)

end Sys2Proof.Proofs
end

section
/-! PROOFS. The commands on epochs, Tally and verdicts (R182, R183, R196, R198, R205, R237, R349, R353): what each one's own part answers
on the operands it accepts. -/

set_option autoImplicit false

namespace Sys2Proof.Proofs
open Sys2Proof Sys2Proof.Machine Sys2Proof.Laws

/-! ### EPOCH_READ (R205, R432) -/

section
variable {c : Cmd} {u : State} {x : Nat} {bs : List Byte} (hoff : c.w 4 % 4 = 0) (hcnt : c.f 5 0 13 % 4 = 0) (hmax : c.f 5 0 13 ≤ 4080)
  (hitem : u.epochItem c.parcel (c.epoch 2) (c.f 5 16 1) (c.f 5 17 3) = (x, bs))
include hoff hcnt hmax hitem

/-- A read that needs no leave answers the item's STATE and bytes; one that finds the kept bytes damaged answers as if they were gone. -/
theorem epochRead_reads {ok : Bool} {v : State} (hkept : (if x = 0 then keptReads u else (true, u)) = (ok, v))
    (hin : x = 0 → ok = true → c.w 4 < bs.length) (hleave : x = 0 → u.holdAsks (min (c.f 5 0 13) (bs.length - c.w 4)) = false) :
    epochRead c u = (.reply 0x00
      (if ok then [w32 x, w32 bs.length] ++ bytesWords (slice bs (c.w 4) (c.f 5 0 13)) else [2#32, 0#32]), v) := by
  have hnow : ¬(x = 0 ∧ u.holdAsks (min (c.f 5 0 13) (bs.length - c.w 4)) = true ∧ c.w 4 % 4 = 0 ∧ c.f 5 0 13 % 4 = 0 ∧
      c.f 5 0 13 ≤ 4080 ∧ c.w 4 < bs.length) := by
    rintro ⟨hx, hasks, -⟩
    exact Bool.false_ne_true ((hleave hx).symm.trans hasks)
  simp only [epochRead, hitem, if_neg hnow, hkept]
  cases ok with
  | true =>
    have hgood : ¬(c.w 4 % 4 ≠ 0 ∨ c.f 5 0 13 % 4 ≠ 0 ∨ 4080 < c.f 5 0 13 ∨ x = 0 ∧ bs.length ≤ c.w 4) := by
      have hread : x = 0 → c.w 4 < bs.length := fun hx => hin hx rfl
      omega
    exact if_neg hgood
  | false =>
    have hgood : ¬(c.w 4 % 4 ≠ 0 ∨ c.f 5 0 13 % 4 ≠ 0 ∨ 4080 < c.f 5 0 13 ∨ 2 = 0 ∧ ([] : List Byte).length ≤ c.w 4) := by
      omega
    have hnone : slice [] (c.w 4) (c.f 5 0 13) = [] := by simp [slice]
    simp only [Bool.false_eq_true, if_false]
    rw [if_neg hgood, hnone]
    rfl

/-- A long read of an item that is kept waits for leave. -/
theorem epochRead_waits (hx : x = 0) (hin : c.w 4 < bs.length)
    (hasks : u.holdAsks (min (c.f 5 0 13) (bs.length - c.w 4)) = true) : epochRead c u = holdWait u := by
  simp only [epochRead, hitem]
  exact if_pos ⟨hx, hasks, hoff, hcnt, hmax, hin⟩

end

/-! ### DEADLINE_SET, STRICT_SET (R182, R196) -/

theorem deadlineSet_accepts {c : Cmd} {u : State} (hmin : 1 ≤ c.f 2 0 3) (hmax : c.f 2 0 3 ≤ 4) (hfloor : c.w 3 ≠ 0)
    (hmargin : c.w 5 ≠ 0) (hceil : c.w 3 ≤ c.w 4) :
    deadlineSet c u = (.reply 0x00 [],
      (((u.wr (EPO_DL_FLOOR (c.f 2 0 3)) (c.w 3)).wr (EPO_DL_CEIL (c.f 2 0 3)) (c.w 4)).wr (EPO_DL_MARGIN (c.f 2 0 3)) (c.w 5)).each
        (u.par.ctxs.filter (fun e => e.2.level == c.f 2 0 3))
        (fun e t => t.modCtx e.1 (fun x => { x with dl := min (max x.dl (c.w 3)) (c.w 4) }))) :=
  if_neg (by omega)

/-- STRICT is set while no context is held. -/
theorem strictSet_accepts {c : Cmd} {u : State} (hctx : u.par.ctxs = []) :
    strictSet c u = (.reply 0x00 [], u.wr EPO_CTL (c.f 2 0 1)) :=
  if_neg (by simp [State.anyCtx, hctx])

/-! ### ABSENT_DECLARE, CLOSURE_PULL (R183, R198, R205) -/

/-- The child is declared absent in the first context of the parcel that has it. -/
theorem absentDeclare_accepts {c : Cmd} {u v : State} {n d : Nat} {x : Ctx}
    (hchild : (u.ctxsOf c.parcel).find? (fun e => e.2.kids.any (fun k => k.station == c.f 4 0 20)) = some (n, x))
    (hdeclare : declareAbsent n (c.f 4 0 20) (c.epoch 2) (c.f 5 0 16) u = (d, v)) :
    absentDeclare c u = (.reply 0x00 [w32 d, w32 (c.f 5 0 16 - d)], v) := by
  have hheld : ¬ (u.ctxsOf c.parcel).isEmpty = true := by
    rw [List.isEmpty_iff]
    exact List.ne_nil_of_mem (List.mem_of_find?_eq_some hchild)
  simp only [absentDeclare, if_neg hheld, hchild, hdeclare]
  rfl

/-- The epochs that a CLOSURE_PULL names are sent again one after the other, and those that are kept counted. -/
def pullRun (c : Cmd) (n : Nat) (x : Ctx) (u : State) : Nat × State :=
  (List.range (c.f 4 0 5)).foldl (fun (a : Nat × State) i =>
    (a.1 + (resendOne n x (c.epoch 2 + i) a.2).1, (resendOne n x (c.epoch 2 + i) a.2).2)) (0, u)

theorem closurePull_accepts {c : Cmd} {u : State} {n : Nat} {x : Ctx} (hctx : u.pulledCtx c = some (n, x)) (hmax : c.f 4 0 5 ≤ 16)
    (hkept : c.f 4 0 5 ≠ 0 →
      x.pub = false ∧ (x.unsent (c.epoch 2) = true ∨ ((u.keep? n).bind (fun y => Tbl.get? y.items (c.epoch 2))).isSome)) :
    closurePull c u = (.reply 0x00 [w32 (pullRun c n x u).1], (pullRun c n x u).2) := by
  have hfirst : ¬(c.f 4 0 5 ≠ 0 ∧
      (!x.pub && (x.unsent (c.epoch 2) || ((u.keep? n).bind (fun y => Tbl.get? y.items (c.epoch 2))).isSome)) = false) := by
    rintro ⟨hsome, hgone⟩
    obtain ⟨hpub, hheld⟩ := hkept hsome
    rcases hheld with h | h <;> simp [hpub, h] at hgone
  simp only [closurePull, hctx, if_neg hfirst, if_neg (Nat.not_lt.2 hmax)]
  rfl

/-! ### Tally (R237) -/

/-- The votes of a VOTE_RAISE that count something. -/
def liveVotes (c : Cmd) : List (Nat × Nat) := (voteEnts c).filter (fun v => v.2 != 0)

/-- Those of their keys that the host has not voted with in the epoch so far. -/
def freshVotes (c : Cmd) (e : Epoch) : List Nat :=
  ((liveVotes c).map (fun v => voteKey v.1 5)).eraseDups.filter (fun k => !e.votes.own.contains k)

/-- Votes against stations that exist, which leave the host with 64 distinct ones at most, are raised in the epoch in progress. -/
theorem voteRaise_accepts {c : Cmd} {u : State} {n : Nat} {x : Ctx} {e : Epoch} (hn : c.f 2 0 5 ≤ 16)
    (hnames : ∀ v ∈ voteEnts c, stNames (v.1 / 4096) = true) (hctx : u.ctxLow c.parcel = some (n, x)) (hlive : x.committed = true)
    (hcur : x.current = some e) (hroom : (e.votes.own.filter (fun k => keyKind k == 5)).length + (freshVotes c e).length ≤ 64) :
    voteRaise c u = (.reply 0x00 [], u.each (liveVotes c) (fun v t => (raiseVote n e.k 5 v.1 v.2 t).2)) := by
  have hgood : ¬(16 < c.f 2 0 5 ∨ (voteEnts c).any (fun v => !stNames (v.1 / 4096)) = true) := by
    simpa [Nat.not_lt.2 hn] using hnames
  simp only [voteRaise, if_neg hgood, hctx, hlive, hcur]
  exact if_neg (Nat.not_lt.2 hroom)

theorem tallySet_accepts {c : Cmd} {u : State} (hres : c.f 2 17 15 = 0) (hmin : 10 ≤ c.f 2 0 16) (hmax : c.f 2 0 16 ≤ 10000) :
    tallySet c u = (.reply 0x00 [], u.wr TAL_CTL (c.w 2)) :=
  if_neg (by omega)

/-! ### Verdicts (R349, R353) -/

/-- What VERDICT_SET finds wrong in its three words. -/
def vrdBad (c : Cmd) : Bool :=
  c.f 2 24 8 == 0 || decide (c.f 2 16 8 < 2) || c.f 2 0 16 == 0 || c.f 3 24 8 == 0 || c.f 3 16 8 == 0 ||
    c.f 3 8 8 == 0 || c.f 3 0 8 == 0 || c.f 4 16 16 == 0 || c.f 4 2 14 != 0

/-- Good words become the verdict configuration of the context that publishes the parcel. -/
theorem verdictSet_accepts {c : Cmd} {u : State} {n : Nat} {x : Ctx} {y : Nat × Ctx} (hheld : u.ctxHigh c.parcel = some y)
    (hpub : u.ctxPub c.parcel = some (n, x)) (hgood : vrdBad c = false) :
    verdictSet c u = (.reply 0x00 [],
      ((u.wr (EPO_VRD_CFG0 n) (c.w 2)).wr (EPO_VRD_CFG1 n) (c.w 3)).wr (EPO_VRD_CFG2 n) (c.w 4)) := by
  simp only [verdictSet, hheld, hpub]
  exact if_neg (Bool.eq_false_iff.1 hgood)

theorem verdictReadCmd_accepts {c : Cmd} {u : State} (hmax : c.w 3 ≤ 63) :
    verdictReadCmd c u = (.reply 0x00 (verdictRead (c.w 2) (c.f 3 0 6) u), u) := if_neg (Nat.not_lt.2 hmax)

theorem verdictReadCmd_refuses {c : Cmd} {u : State} (hlong : 63 < c.w 3) : verdictReadCmd c u = (.reply 0x12 [], u) := if_pos hlong

theorem verdictSink_accepts {c : Cmd} {u : State} (hport : c.f 2 16 16 ≠ 0) :
    verdictSink c u = (.reply 0x00 [],
      { u.wr EPO_VRD_CTL (c.f 2 16 16 * 2 ^ 16 + c.f 2 0 1) with lnd := { u.lnd with sinkIp := c.ip 3 } }) := if_neg hport

/-- Settles O6: what each command's own part answers, under the rule for a command that runs. -/
theorem epochCommandsComplete : Obligations.EpochCommandsComplete := by
  refine ⟨fun c s u x bs ok v hr hoff hcnt hmax hitem hkept hin hleave =>
      runs_ok hr (epochRead_reads hoff hcnt hmax hitem hkept hin hleave),
    fun c s u bs hr hoff hcnt hmax hitem hin hasks => runs_started hr (epochRead_waits hoff hcnt hmax hitem rfl hin hasks),
    fun c s u hr hmin hmax hfloor hmargin hceil => runs_ok hr (deadlineSet_accepts hmin hmax hfloor hmargin hceil),
    fun c s u hr hctx => runs_ok hr (strictSet_accepts hctx),
    fun c s u n x d v hr hchild hdeclare => runs_ok hr (absentDeclare_accepts hchild hdeclare),
    fun c s u n x r hr hctx hmax hkept hrun => ?pull,
    fun c s u n x e hr hn hnames hctx hlive hcur hroom => runs_ok hr (voteRaise_accepts hn hnames hctx hlive hcur hroom),
    fun c s u hr hres hmin hmax => runs_ok hr (tallySet_accepts hres hmin hmax),
    fun c s u n x y hr hheld hpub h0 h1 h2 h3 h4 h5 h6 h7 h8 => runs_ok hr (verdictSet_accepts hheld hpub ?words),
    fun c s u hr hmax => runs_ok hr (verdictReadCmd_accepts hmax),
    fun c s u hr hlong => runs_refused hr (verdictReadCmd_refuses hlong) (by decide) (by decide),
    fun c s u hr hport => runs_ok hr (verdictSink_accepts hport)⟩
  case pull =>
    subst hrun
    exact runs_ok hr (closurePull_accepts hctx hmax hkept)
  case words => simp [vrdBad, h0, Nat.not_lt.2 h1, h2, h3, h4, h5, h6, h7, h8]

end Sys2Proof.Proofs
end

section
/-! PROOFS. Closures and the gate (R168, R174 to R207): which context takes a child's message, what Tally's next item and a deadline do,
and a closing gate, from the window of D_l to the oldest epoch that is ready. -/

set_option autoImplicit false

namespace Sys2Proof.Proofs
open Sys2Proof Sys2Proof.Machine Sys2Proof.Laws

/-! ### Messages of children (R171, R179, R183, R188) -/

section
variable {src parcel ep n : Nat} {bs : List Byte} {s : State} {c : Ctx}

/-- A well-formed closure that a context takes is a RESOLVE or a FULL closure for it. -/
theorem closureIn_taken (hgood : closureBad ep bs = false) (htaker : s.takerOf src parcel (closureHeadOf bs).level = some (n, c))
    (hup : s.tallyUp = true) :
    closureIn src parcel ep bs s =
      if (closureHeadOf bs).kind = 1 then resolveIn n (closureHeadOf bs).k src (bit (closureHeadOf bs).flags 5) s
      else takeMsg n (closureHeadOf bs).k src (includeClosure n c (closureHeadOf bs).k src bs) s := by
  simp only [closureIn, hgood, Bool.false_eq_true, if_false, htaker, hup, Bool.true_eq_false]

theorem closureIn_malformed (hbad : closureBad ep bs = true) : closureIn src parcel ep bs s = epochErr s := if_pos hbad

/-- What an ASLEEP message in time does to its epoch: the child is asleep in it, and its DEGRADED flag is merged. -/
def asleepTaken (n k src : Nat) (bs : List Byte) (t : State) : State :=
  satCheck ((modKid n k src (fun x => { x with phase := .asleep }) t).modEpoch n k (fun e =>
    { e with degraded := e.degraded || bit (leAt bs 5 1) 0 }))

theorem asleepIn_taken (hlen : bs.length = 8) (hep : leAt bs 0 5 % 2 ^ 24 = ep % 2 ^ 24) (htaker : s.takerOf src parcel 0 = some (n, c))
    (hup : s.tallyUp = true) :
    asleepIn src parcel ep bs s = takeMsg n (leAt bs 0 5) src (asleepTaken n (leAt bs 0 5) src bs) s := by
  have hgood : ¬(bs.length ≠ 8 ∨ leAt bs 0 5 % 2 ^ 24 ≠ ep % 2 ^ 24) := by omega
  simp only [asleepIn, if_neg hgood, htaker, hup, Bool.true_eq_false, if_false]
  rfl

end

/-! ### Tally's next item (R232) -/

theorem itemComplete_next {s t : State} {i : TallyItem} {rest : List TallyItem} {c : Ctx} (hqueue : s.par.queue = i :: rest)
    (hup : s.tallyUp = true) (hfree : s.wit.selfRun = none)
    (ht : t = tallyWork i (memReadBack 1 i.ctx (memWritten 1 i.ctx (startWork (setQueue rest s))))) (hctx : t.ctx? i.ctx = some c) :
    itemComplete s = if c.level = 0 then advanceAll i.ctx t else tryFinish i.ctx i.k t := by
  have hgo : ¬(s.tallyUp = false ∨ s.wit.selfRun.isSome = true) := by simp [hup, hfree]
  subst ht
  simp only [itemComplete, hqueue, if_neg hgo, hctx]

/-! ### Deadlines (R183, R188, R198) -/

section
variable {parcel level n : Nat} {s : State} {c : Ctx} {e : Epoch} (hctx : s.ctxAt parcel level = some (n, c))
  (hopen : c.openGate = some e)
include hctx hopen

/-- Under STRICT the children that an epoch still waits for are pulled, elsewhere they expire. -/
theorem deadlineExpiry_open (hup : s.tallyUp = true) (hlevel : level ≠ 0) :
    deadlineExpiry parcel level s = if s.getB EPO_CTL 0 = true then
        s.each (e.kids.filter (fun x => x.phase == .outstanding || x.pending))
          (fun x t => if x.station = s.station then pullOwn n c e.k t else pullFrom n c e.k x.station t)
      else expire n e.k s := by
  have hgo : ¬(s.tallyUp = false ∨ level = 0) := by simp [hup, hlevel]
  simp only [deadlineExpiry, hctx, hopen, if_neg hgo]

theorem strictStall_open (hstrict : s.getB EPO_CTL 0 = true) : strictStall parcel level s = s.evt EPO_EVT 5 := by
  simp only [strictStall, hctx, hopen, hstrict, Option.isSome_some, and_self, if_true]

/-- A gate that waits for no child and for no RESOLVE closes. -/
theorem gateCloseDue_settled (hlevel : level ≠ 0) (hup : s.tallyUp = true) (hnone : e.outstanding = 0) (hres : e.awaitsResolve = false) :
    gateCloseDue parcel level s = gateClose n e.k s := by
  have hgo : ¬(level = 0 ∨ s.tallyUp = false ∨ e.outstanding ≠ 0 ∨ e.awaitsResolve = true) := by simp [hlevel, hup, hnone, hres]
  simp only [gateCloseDue, hctx, hopen, if_neg hgo]

end

/-! ### The window of D_l (R182) -/

/-- The D_l that the samples of a window give, before the MARGIN of a timeout in its last epoch. -/
def sampledD (s : State) (y : Ctx) : Nat :=
  if y.samples = [] then y.dl
  else min (max (q99Of y.samples + s.rd (EPO_DL_MARGIN y.level)) (s.rd (EPO_DL_FLOOR y.level))) (s.rd (EPO_DL_CEIL y.level))

/-- A window of context `n` is over: its D_l is in force, and the next window begins. -/
def windowOver (n : Nat) (y : Ctx) (s : State) : State :=
  s.modCtx n (fun v => { v with
    window := 0, samples := [], marginDue := false, q99 := if y.samples = [] then v.q99 else q99Of y.samples,
    dl := if y.marginDue = true then min (sampledD s y + s.rd (EPO_DL_MARGIN y.level)) (s.rd (EPO_DL_CEIL y.level)) else sampledD s y })

/-- A window ends once it has 128 epochs. -/
theorem windowEnd_ctx {n : Nat} {s : State} {y : Ctx} (hctx : s.ctx? n = some y) :
    windowEnd n s = if y.window < 128 then s else windowOver n y s := by
  simp only [windowEnd, hctx, List.isEmpty_iff]
  rfl

/-- A gate that has closed counts its epoch in the window, and a stall is over. -/
def gateCounted (n : Nat) (timedOut : Bool) (b : Ctx) (t : State) : State :=
  t.modCtx n (fun v => { v with
    window := v.window + 1, marginDue := v.marginDue || (timedOut && decide (127 ≤ b.window)), stalled := false,
    dl := if (timedOut && !decide (127 ≤ b.window)) = true
      then min (b.dl + t.rd (EPO_DL_MARGIN b.level)) (t.rd (EPO_DL_CEIL b.level)) else b.dl })

theorem windowNote_unstalled {n : Nat} {timedOut : Bool} {t : State} {b : Ctx} (hctx : t.ctx? n = some b) :
    (windowNote n timedOut t).modCtx n (fun x => { x with stalled := false }) = gateCounted n timedOut b t := by
  simp only [windowNote, hctx, modCtx_twice]
  rfl

/-! ### The gate (R189, R309) -/

/-- The gate of epoch `k` is noted as closed, with its time, after a window that is over. -/
def gateNoted (n k : Nat) (y : Ctx) (s : State) : State :=
  (if y.window < 128 then s else windowOver n y s).modEpoch n k (fun v => { v with gate := true, tClose := s.now })

/-- The context is still there. -/
theorem gateNoted_ctx {n k : Nat} {y : Ctx} {s : State} (hctx : s.ctx? n = some y) : ∃ b, (gateNoted n k y s).ctx? n = some b := by
  unfold gateNoted State.modEpoch
  rw [modCtx_get]
  split
  · exact ⟨_, by rw [hctx]; rfl⟩
  · exact ⟨_, by rw [windowOver, modCtx_get, hctx]; rfl⟩

/-- The window's end, the gate, the count of its epoch, Transit's pass at level 1, the backlog, and the finish. -/
theorem gateClose_stages {n k : Nat} {s : State} {y b : Ctx} {x : Epoch} (hctx : s.ctx? n = some y) (hep : s.epoch? n k = some x)
    (hb : (gateNoted n k y s).ctx? n = some b) :
    gateClose n k s = tryFinish n k (satCheck
      (if y.level = 1 then trnBegin n k (gateCounted n (decide (0 < x.timeouts)) b (gateNoted n k y s))
       else gateCounted n (decide (0 < x.timeouts)) b (gateNoted n k y s))) := by
  rw [← windowNote_unstalled hb]
  simp only [gateClose, hctx, hep, windowEnd_ctx hctx]
  rfl

/-! ### The finish (R232, R268, R322) -/

/-- An epoch that Tally may not finish: its gate is open, it is finished, or work is left; a leaf's is never finished here. -/
def Unfinishable (z : State) (n k : Nat) (cz : Ctx) (ez : Epoch) : Prop :=
  cz.level = 0 ∨ ez.gate = false ∨ ez.fin = true ∨ ez.own = .waiting ∨ z.hasWork n k = true ∨ z.tallyUp = false

/-- Tally finishes an epoch: a level-1 node's rows become ready, a parent role has merged its Transit sections. -/
def epochFinished (n k : Nat) (cz : Ctx) (ez : Epoch) (z : State) : State :=
  if cz.level = 1 then cadBegin n k (z.modEpoch n k (fun v => { v with fin := true }))
  else ((z.modEpoch n k (fun v => { v with fin := true })).modEpoch n k (fun v => { v with trnBytes := (epochSections ez).1 })).inc
    TRN_SEC_MISMATCH (epochSections ez).2

section
variable {n k : Nat} {z : State} {cz : Ctx} {ez : Epoch} (hctx : z.ctx? n = some cz) (hep : z.epoch? n k = some ez)
include hctx hep

theorem tryFinish_waits (hwait : Unfinishable z n k cz ez) : tryFinish n k z = z := by
  simp only [tryFinish, hctx, hep]
  exact if_pos hwait

theorem tryFinish_finishes (hdone : ¬ Unfinishable z n k cz ez) : tryFinish n k z = advanceAll n (epochFinished n k cz ez z) := by
  simp only [tryFinish, hctx, hep]
  refine (if_neg hdone).trans ?_
  rw [epochFinished]
  split <;> rfl

end

/-! ### Handing on (R54, R189, R313) -/

section
variable {n : Nat} {r : State} {cp : Ctx} {ep : Epoch} (hctx : r.ctx? n = some cp) (hold : cp.oldestOpen = some ep)
include hctx hold

/-- A context is advanced for each of its epochs, as its oldest ended epoch allows. -/
theorem advanceAll_oldest : advanceAll n r =
    if ep.ready cp = false then r
    else if cp.pub then advance cp.epochs.length n (publish n cp ep r)
    else if cp.level = 1 then r
    else if cp.level = 0 ∧ ep.own = .asleep then advance cp.epochs.length n (sendAsleep n cp ep r)
    else advance cp.epochs.length n (sendClosure n cp ep false r) := by
  simp only [advanceAll, hctx, Option.map_some, Option.getD_some, advance, hold]

/-- It stays where that epoch is not ready, or leaves by TRAY_CLOSURE_SEND. -/
theorem advanceAll_stays (hstay : ep.ready cp = false ∨ (cp.pub = false ∧ cp.level = 1)) : advanceAll n r = r := by
  rw [advanceAll_oldest hctx hold]
  rcases hstay with hnot | ⟨hpub, hlevel⟩
  · exact if_pos hnot
  · simp only [hpub, hlevel, Bool.false_eq_true, if_false, if_true, ite_self]

variable (hready : ep.ready cp = true)
include hready

theorem advanceAll_publishes (hpub : cp.pub = true) : advanceAll n r = advance cp.epochs.length n (publish n cp ep r) := by
  rw [advanceAll_oldest hctx hold, if_neg (by simp [hready]), if_pos hpub]

theorem advanceAll_sends (hpub : cp.pub = false) (h1 : cp.level ≠ 1) (h0 : cp.level ≠ 0) :
    advanceAll n r = advance cp.epochs.length n (sendClosure n cp ep false r) := by
  rw [advanceAll_oldest hctx hold, if_neg (by simp [hready]), if_neg (by simp [hpub]), if_neg h1, if_neg (fun h => h0 h.1)]

end

/-! ### TRAY_CLOSURE_SEND (R187, R313) -/

/-- The oldest epoch that has not been sent leaves once it is ready, no epoch before it awaiting its RESOLVE: with PENDING where
Transit's checks still run and its pass raised no vote. -/
theorem traySend_ready {parcel n : Nat} {s : State} {c : Ctx} {e : Epoch} (hctx : s.ctxAt parcel 1 = some (n, c))
    (hold : c.epochs.find? (fun e => e.endCut.isSome && !e.sentPending) = some e) (hpub : c.pub = false) (hready : e.ready c = true)
    (hvotes : e.trnCheck = .pending → e.trnVotes = []) (horder : ∀ x ∈ c.epochs, x.sentPending = true → e.k ≤ x.k) :
    traySend parcel s = sendClosure n c e (e.trnCheck == .pending) s := by
  have hfirst : c.epochs.any (fun x => x.sentPending && decide (x.k < e.k)) = false := by simpa using horder
  have hgo : ¬(c.pub = true ∨ e.ready c = false ∨ (e.trnCheck = .pending ∧ e.trnVotes ≠ []) ∨
      c.epochs.any (fun x => x.sentPending && decide (x.k < e.k)) = true) := by
    simpa [hpub, hready, hfirst] using hvotes
  simp only [traySend, hctx, hold]
  exact if_neg hgo

/-- Settles O39: a message by the context that takes it, a gate by its stages and then by its oldest epoch, the rest one case each. -/
theorem gateEventsComplete : Obligations.GateEventsComplete := by
  refine ⟨fun src parcel ep deg bs s h n c hr hgood hh hkind htaker hup => ?closure,
    fun src parcel ep deg bs s h n c hr hgood hh hkind htaker hup => ?resolve,
    fun src parcel ep deg bs s hr hbad => evNext_running hr (closureIn_malformed hbad),
    fun src parcel ep deg bs s n c k hr hlen hk hep htaker hup => ?asleep,
    fun s i rest t c hr hqueue hup hfree ht hctx => evNext_running hr (itemComplete_next hqueue hup hfree ht hctx),
    fun parcel level s n c e hr hctx hopen hup hlevel =>
      ⟨fun hstrict => evNext_running hr ((deadlineExpiry_open hctx hopen hup hlevel).trans (if_pos hstrict)),
        fun hlax => evNext_running hr ((deadlineExpiry_open hctx hopen hup hlevel).trans (if_neg (by simp [hlax])))⟩,
    fun parcel level s n c e hr hctx hopen hstrict => evNext_quiet hr.1 (strictStall_open hctx hopen hstrict) (quiet_evt hr.2 _ _),
    fun parcel level s n c y e x d w t u z hr hctx hy hopen hx hlevel hup hnone hres hd hw ht hu hz cz ez r hcz hez hdone => ?gate,
    fun parcel level s n c y d hr hctx hy hd => ?window,
    fun parcel s n c e hr hctx hold hpub hready hvotes horder =>
      evNext_running hr (traySend_ready hctx hold hpub hready hvotes horder)⟩
  case closure =>
    subst hh
    exact evNext_running hr ((closureIn_taken hgood htaker hup).trans (if_neg hkind))
  case resolve =>
    subst hh
    exact evNext_running hr ((closureIn_taken hgood htaker hup).trans (if_pos hkind))
  case asleep =>
    subst hk
    exact evNext_running hr (asleepIn_taken hlen hep htaker hup)
  case gate =>
    have hnoted : t = gateNoted n e.k y s := by
      subst ht hw hd
      rfl
    obtain ⟨b, hb⟩ := gateNoted_ctx (k := e.k) hy
    have hcounted : u = gateCounted n (decide (0 < x.timeouts)) b (gateNoted n e.k y s) := by
      subst hnoted
      exact hu b hb
    have hclose : gateCloseDue parcel level s = tryFinish n e.k z := by
      rw [gateCloseDue_settled hctx hopen hlevel hup hnone hres, gateClose_stages hy hx hb, ← hcounted, ← hz]
    refine ⟨fun hwait => evNext_running hr (hclose.trans (tryFinish_waits hcz hez hwait)), fun hgo cp ep hcp hold => ?_⟩
    have hfinish : gateCloseDue parcel level s = advanceAll n r := by
      rw [hclose, tryFinish_finishes hcz hez hgo, hdone]
      rfl
    exact ⟨fun hstay => evNext_running hr (hfinish.trans (advanceAll_stays hcp hold hstay)),
      fun hready hpub => evNext_running hr (hfinish.trans (advanceAll_publishes hcp hold hready hpub)),
      fun hready hpub h1 h0 => evNext_running hr (hfinish.trans (advanceAll_sends hcp hold hready hpub h1 h0))⟩
  case window =>
    have hend : execDeadlineWindowEnd parcel level s = evNext (windowEnd n) s := by
      rw [execDeadlineWindowEnd, evNext_up hr.1, evNext_up hr.1, hctx]
    subst hd
    exact ⟨fun hshort => hend.trans (evNext_unchanged hr ((windowEnd_ctx hy).trans (if_pos hshort))),
      fun hfull => hend.trans (evNext_running hr ((windowEnd_ctx hy).trans (if_neg (Nat.not_lt.2 hfull))))⟩

end Sys2Proof.Proofs
end

section
/-! PROOFS. Passes of Cadastre and Transit (R222 to R231, R278 to R282, R300 to R321): what the oldest waiting row starts, what a tile's
completion and its checks do, and how a pass ends or is given up. -/

set_option autoImplicit false

namespace Sys2Proof.Proofs
open Sys2Proof Sys2Proof.Machine Sys2Proof.Laws

/-! ### Cadastre: a pass starts (R275, R276, R293) -/

/-- Once the waiting rows of SCORE_ROW have run and no pass is held up, the oldest job's plat decides: a resident one, or leave held for
a paged one, begins the pass; otherwise leave is asked for once. -/
theorem cadStart_oldest {s u : State} {j : CadJob} {js : List CadJob} {i : Nat} (hu : u = scoreRowsRun s)
    (hloaded : u.cadUp = true → u.reloadDue = []) (hfree : u.passHeld = false) (hjobs : u.cadJobs = j :: js)
    (hslot : u.platSlot (u.jobPlat j) = some i) :
    cadStart s = if u.platResident i = true ∨ u.hasLeave (.cadPass 0) = true then passBegin j i u
      else if u.asksLeave (.cadPass 0) = true then u
      else askLeave 1 (u.pwrClass CAD_PWR) (u.pwrAmt CAD_PWR) (.cadPass 0) u := by
  have hreload : ¬(u.cadUp = true ∧ u.reloadDue ≠ []) := fun h => h.2 (hloaded h.1)
  subst hu
  simp only [cadStart, if_neg hreload, hfree, Bool.false_eq_true, if_false, hjobs, hslot]

/-! ### Cadastre: a pass completes, or its row is given up (R274, R276, R277) -/

theorem cadComplete_pass {s t : State} {p : CadPass} (hpass : s.cad.pass = some p)
    (ht : t = passRun p { s with cad := { s.cad with pass := none } }) :
    cadComplete s = scoreRowsRun
      ((if t.hasLeave (.cadPass 0) = true then releaseLeave (.cadPass 0) t else t).inc CAD_PASSES 1) := by
  subst ht
  simp only [cadComplete, hpass]

/-- A row that has waited too long is given up while no pass is under way, unless under STRICT; leave goes back with the last job. -/
theorem scoreTimeout_gives_up {parcel ep n : Nat} {s t : State} {c : Ctx} {e : Epoch} (hctx : s.ctxAt parcel s.ownLevel = some (n, c))
    (hrow : c.epochs.find? (fun e => e.k % 2 ^ 24 == ep % 2 ^ 24 && e.cad == .pending) = some e) (hidle : s.cad.pass = none)
    (hlax : s.getB EPO_CTL 0 = false) (ht : t = advanceAll n ((cadAbandon n e.k s).evt CAD_EVT 2)) :
    scoreTimeout parcel ep s = if t.cadJobs = [] then releaseLeave (.cadPass 0) t else t := by
  subst ht
  simp only [scoreTimeout, hctx, hrow, hidle, hlax, Option.any_none, Bool.false_eq_true, or_self, if_false, List.isEmpty_iff]

/-! ### Transit: a pass starts (R309, R310) -/

/-- Transit at rest and its subspaces loaded, leave held begins the oldest ready pass; otherwise leave is asked for once. -/
theorem trnStart_oldest {s : State} {j : CadJob} {js : List CadJob} {i : Nat} {e : Epoch} (hup : s.trnUp = true)
    (hidle : s.trn.pass = none) (hstays : s.plm.goal = none) (hrun : s.trnRunning = false) (hloaded : s.trnReloadDue = [])
    (hopen : s.trnFenced = false) (hjobs : s.trnJobs = j :: js) (hep : s.epoch? j.ctx j.k = some e)
    (hslot : s.subSlotOf e.sub = some i) :
    trnStart s = if s.hasLeave (.trnPass 0) = true then trnPassBegin j i s
      else if s.asksLeave (.trnPass 0) = true then s
      else askLeave 2 (s.pwrClass TRN_PWR) (s.pwrAmt TRN_PWR) (.trnPass 0) s := by
  have hfree : ¬(s.trnUp = false ∨ s.trn.pass.isSome = true ∨ s.plm.goal.isSome = true ∨ s.trnRunning = true) := by
    simp [hup, hidle, hstays, hrun]
  have hreload : ¬(s.trnReloadDue ≠ []) := not_not_intro hloaded
  simp only [trnStart, if_neg hfree, if_neg hreload, hopen, Bool.false_eq_true, if_false, hjobs, hep, Option.map_some, Option.getD_some,
    hslot]

/-! ### Transit: tiles (R312, R315, R316) -/

/-- A tile of the pass under way completes; with the last one the contribution is formed. -/
theorem trnTile_pass {s t : State} {p q : TrnPass} (hpass : s.trn.pass = some p) (hleft : p.done < p.tiles.length)
    (hq : q = { p with done := p.done + 1 })
    (ht : t = (memReadBack 6 p.slot { s with trn := { s.trn with pass := some q } }).inc TRN_TILES 1) :
    trnTile s = if p.done + 1 = p.tiles.length then trnFormed q t else t := by
  subst ht hq
  simp only [trnTile, hpass, if_neg (Nat.not_le.2 hleft)]

/-- The oldest completed tile is checked, mismatches of the array's own beside those of rounding; the pass ends with its last check. -/
theorem trnCheckDone_tile {cols bad : List Nat} {unloc : Bool} {s t : State} {p q : TrnPass} {tl : TrnTile} {vec n : Nat}
    (hpass : s.trn.pass = some p) (htile : p.tiles[p.checked]? = some tl) (hdone : p.checked < p.done)
    (hchecks : passTileChecks p (s.rd TRN_ABFT_TOL) tl = (bad, vec))
    (hn : n = (bad ++ cols.map (· % 128)).eraseDups.length + vec + b2n (unloc && vec == 0))
    (hq : q = { p with checked := p.checked + 1, failed := p.failed || n != 0 })
    (ht : t = tileFails tl.array (groupsOf p.fence p.fenceArr tl.array (bad ++ cols.map (· % 128)).eraseDups) n
      { s with trn := { s.trn with pass := some q } }) :
    trnCheckDone cols unloc s = if p.checked + 1 = p.tiles.length then trnPassEnd q t else t := by
  subst ht hq hn
  simp only [trnCheckDone, hpass, htile, if_neg (Nat.not_le.2 hdone), hchecks]

/-! ### Transit: a pass that has waited too long (R310) -/

/-- A pass not begun is given up, unless under STRICT; the request for leave is withdrawn where it was the last. -/
theorem trnRunTimeout_gives_up {parcel ep n : Nat} {s t : State} {c : Ctx} {j : CadJob} (hctx : s.ctxAt parcel 1 = some (n, c))
    (hjob : s.trnJobs.find? (fun j => j.ctx == n && j.k % 2 ^ 24 == ep % 2 ^ 24) = some j) (hlax : s.getB EPO_CTL 0 = false)
    (ht : t = trnGiveUp [j] s) :
    trnRunTimeout parcel ep s = if t.trnJobs = [] ∧ t.trn.pass = none then trnUnask t else t := by
  subst ht
  simp only [trnRunTimeout, hctx, hjob, hlax, Bool.false_eq_true, if_false, List.isEmpty_iff, Option.isNone_iff_eq_none]

/-- Settles O40: a start by what the oldest job's slot and leave allow, the rest one case each. -/
theorem passEventsComplete : Obligations.PassEventsComplete := by
  refine ⟨fun s u j js i hr hu hloaded hfree hjobs hslot => ?cadastreStart,
    fun s p t hr hpass ht => evNext_running hr (cadComplete_pass hpass ht),
    fun parcel ep s n c e t hr hctx hrow hidle hlax ht => evNext_running hr (scoreTimeout_gives_up hctx hrow hidle hlax ht),
    fun s j js i e hr hup hidle hstays hrun hloaded hopen hjobs hep hslot => ?transitStart,
    fun s p q t hr hpass hleft hq ht => evNext_running hr (trnTile_pass hpass hleft hq ht),
    fun cols unloc s p tl bad vec n q t hr hpass htile hdone hchecks hn hq ht =>
      evNext_running hr (trnCheckDone_tile hpass htile hdone hchecks hn hq ht),
    fun parcel ep s n c j t hr hctx hjob hlax ht => evNext_running hr (trnRunTimeout_gives_up hctx hjob hlax ht)⟩
  case cadastreStart =>
    have hstart := cadStart_oldest hu hloaded hfree hjobs hslot
    exact ⟨fun hgo => evNext_running hr (hstart.trans (if_pos hgo)),
      fun hpaged hleave hasks => evNext_running hr (hstart.trans ((if_neg (by simp [hpaged, hleave])).trans (if_neg (by simp [hasks]))))⟩
  case transitStart =>
    have hstart := trnStart_oldest hup hidle hstays hrun hloaded hopen hjobs hep hslot
    exact ⟨fun hleave => evNext_running hr (hstart.trans (if_pos hleave)),
      fun hleave hasks => evNext_running hr (hstart.trans ((if_neg (by simp [hleave])).trans (if_neg (by simp [hasks]))))⟩

end Sys2Proof.Proofs
end

section
/-! PROOFS. The commands on parcels and rulings (R240 to R249, R254, R257 to R261, R560): what each one's own part answers on the operands
it accepts, and where a ruling or a stop comes too late or finds no slot. -/

set_option autoImplicit false

namespace Sys2Proof.Proofs
open Sys2Proof Sys2Proof.Machine Sys2Proof.Laws

/-! ### PARCEL_DEFINE (R242, R261) -/

/-- The definition that a PARCEL_DEFINE adds to: the staged one of its parcel, or an empty one. -/
def defineOld (c : Cmd) (u : State) : Staged := (u.staged? c.parcel).getD { parcel := c.parcel, probes := [], members := [] }

/-- The entries that the section of a PARCEL_DEFINE holds so far: probes in section 1, members in section 2. -/
def sectionHeld (c : Cmd) (old : Staged) : List (Nat × Nat) := if c.f 2 0 2 = 1 then old.probes else old.members

/-- Its entries afterwards: those in front of the command's index, then the command's own. -/
def sectionNew (c : Cmd) (old : Staged) : List (Nat × Nat) := (sectionHeld c old).take (c.f 2 16 16) ++ defineEntries c

/-- Most entries of the section. -/
def sectionLimit (c : Cmd) (u : State) : Nat := if c.f 2 0 2 = 1 then 256 else if u.isTray then 16384 else 1

/-- What the entries of the section ascend by: the probe, or the tray. -/
def sectionKeys (c : Cmd) (es : List (Nat × Nat)) : List Nat := es.map (fun e => if c.f 2 0 2 = 1 then fld e.1 0 10 else memTray e)

/-- The definition with new entries in the section. -/
def sectionPut (c : Cmd) (old : Staged) (es : List (Nat × Nat)) : Staged :=
  if c.f 2 0 2 = 1 then { old with probes := es } else { old with members := es }

/-- Section 0 without entries clears the staged definition. -/
theorem parcelDefine_clears {c : Cmd} {u : State} (hsec : c.f 2 0 2 = 0) (hn : c.f 3 0 10 = 0) :
    parcelDefine c u = (.reply 0x00 [],
      { u with par := { u.par with staged := u.par.staged.filter (fun d => d.parcel != c.parcel) } }) := by
  have hgood : ¬(c.f 2 0 2 = 3 ∨ 510 < c.f 3 0 10 ∨ (c.f 2 0 2 = 0 ∧ c.f 3 0 10 ≠ 0)) := by omega
  exact (if_neg hgood).trans (if_pos hsec)

/-- Entries that continue the section in ascending order and within its limit are staged where the parcel has a definition or there is
room for one more. -/
theorem parcelDefine_stages {c : Cmd} {u : State} {old : Staged} (hsec : c.f 2 0 2 = 1 ∨ c.f 2 0 2 = 2) (hsome : c.f 3 0 10 ≠ 0)
    (hmax : c.f 3 0 10 ≤ 510) (hold : old = defineOld c u) (hidx : c.f 2 16 16 ≤ (sectionHeld c old).length)
    (hfit : (sectionNew c old).length ≤ sectionLimit c u) (hasc : ascending (sectionKeys c (sectionNew c old)) = true)
    (hroom : (u.staged? c.parcel).isSome ∨ u.par.staged.length < (if u.isTray then 4 else 1)) :
    parcelDefine c u = (.reply 0x00 [],
      { u with par := { u.par with
          staged := u.par.staged.filter (fun d => d.parcel != c.parcel) ++ [sectionPut c old (sectionNew c old)] } }) := by
  have hwords : ¬(c.f 2 0 2 = 3 ∨ 510 < c.f 3 0 10 ∨ (c.f 2 0 2 = 0 ∧ c.f 3 0 10 ≠ 0)) := by omega
  have hput : ¬ c.f 2 0 2 = 0 := by omega
  have hentries : ¬((sectionHeld c old).length < c.f 2 16 16 ∨ sectionLimit c u < (sectionNew c old).length ∨
      ascending (sectionKeys c (sectionNew c old)) = false) := by
    simp [Nat.not_lt.2 hidx, Nat.not_lt.2 hfit, hasc]
  have hslot : ¬((u.staged? c.parcel).isNone ∧ (if u.isTray then 4 else 1) ≤ u.par.staged.length) := by
    rintro ⟨hnone, hfull⟩
    rcases hroom with hstaged | hless
    · rw [Option.isNone_iff_eq_none] at hnone
      simp [hnone] at hstaged
    · exact Nat.not_lt.2 hfull hless
  subst hold
  exact (if_neg hwords).trans ((if_neg hput).trans ((if_neg hsome).trans ((if_neg hentries).trans (if_neg hslot))))

/-! ### PARCEL_RESERVE (R243 to R245, R558) -/

/-- A staged parcel with a period, members that this block has a role for and no claim of another on its way begins its reservation. -/
theorem parcelReserve_begins {c : Cmd} {u : State} {d : Staged} (hstaged : u.staged? c.parcel = some d) (hperiod : c.w 2 ≠ 0)
    (hrole : (u.resvLevel d.entries).isSome) (hclaims : ∀ x ∈ u.par.claims, x.parcel = c.parcel → x.only = true) :
    parcelReserve c u = (.started .waiting .plain,
      { u with todo := u.todo ++ [.reserve u.pil.nextJob c.parcel (c.w 2) (c.f 3 0 2)] }) := by
  have hgood : ¬(c.w 2 = 0 ∨ (u.resvLevel d.entries).isNone) := by
    simp [hperiod, Option.isSome_iff_ne_none.1 hrole]
  have hfree : ¬ u.par.claims.any (fun x => x.parcel == c.parcel && !x.only) = true := by simpa using hclaims
  simp only [parcelReserve, hstaged, if_neg hgood]
  exact if_neg hfree

/-! ### PARCEL_COMMIT, PARCEL_RELEASE (R247 to R249, R257) -/

section
variable {c : Cmd} {u : State} {n : Nat} {x : Ctx} {y : Nat × Ctx} (hheld : u.ctxHigh c.parcel = some y)
  (hpub : u.ctxPub c.parcel = some (n, x))
include hheld hpub

/-- The publishing node issues the commit of a parcel whose reservation stands. -/
theorem parcelCommit_issues {t : Nat} (htime : c.time 2 = some t) (hlead : (u.ruleLead : Int) ≤ timeDiff t u.now)
    (hphase : x.phase = .reserved) (hresv : x.resvOk = true) :
    parcelCommit c u = rulingCmd c
      { no := 0, kind := 8, atEpoch := false, fleet := false, effect := t, issuer := 0, level := x.level,
        parcel := c.parcel, body := [] } u := by
  have hstanding : ¬ x.resvOk = false := by simp [hresv]
  simp only [parcelCommit, htime, if_neg (Int.not_lt.2 hlead), hheld, hpub]
  exact (if_neg (not_not_intro hphase)).trans (if_neg hstanding)

/-- A parcel that is only RESERVED is freed, and the one that asked for it told so. -/
theorem parcelRelease_reserved (hphase : x.phase = .reserved) :
    parcelRelease c u = finished c 0x00 [0#32, 0#32, 0#32, 0#32] (refuseAsker x.asker c.parcel 0x21 (freeParcel n false u)) := by
  have hlive : ¬(x.phase = .releasing ∨ x.phase = .draining) := by simp [hphase]
  simp only [parcelRelease, hheld, hpub]
  exact (if_neg hlive).trans (if_pos hphase)

/-- The ruling that a PARCEL_RELEASE issues for a parcel at a level. -/
def releaseRuling (c : Cmd) (level : Nat) : Ruling :=
  { no := 0, kind := 9, atEpoch := true, fleet := false, effect := c.epoch 2, issuer := 0, level := level, parcel := c.parcel,
    body := [] }

/-- The publishing node issues the release of a committed parcel. -/
theorem parcelRelease_issues (hresv : x.phase ≠ .reserved) (hrel : x.phase ≠ .releasing) (hdrain : x.phase ≠ .draining)
    (hlead : u.leadShort (releaseRuling c x.level) = false) :
    parcelRelease c u = rulingCmd c (releaseRuling c x.level) u := by
  have hlive : ¬(x.phase = .releasing ∨ x.phase = .draining) := by simp [hrel, hdrain]
  simp only [parcelRelease, hheld, hpub, if_neg hlive, if_neg hresv]
  exact if_neg (Bool.eq_false_iff.1 hlead)

end

/-! ### PARCEL_FREE, PARCEL_CFG (R240, R560, R261) -/

/-- The highest role is freed: a live one only by force. -/
theorem parcelFree_frees {c : Cmd} {u : State} {y : Nat × Ctx} (hheld : u.ctxHigh c.parcel = some y)
    (hforce : y.2.isLive = true → bit (c.w 2) 0 = true) :
    parcelFree c u = (.reply 0x00 [], freeParcel y.1 (bit (c.w 2) 0) u) := by
  have hmay : ¬(y.2.isLive = true ∧ bit (c.w 2) 0 = false) := by
    rintro ⟨hlive, hno⟩
    exact Bool.false_ne_true (hno.symm.trans (hforce hlive))
  simp only [parcelFree, hheld]
  exact if_neg hmay

theorem parcelCfg_accepts {c : Cmd} {u : State} (hhold : c.f 2 16 16 ≠ 0) (hres2 : c.f 2 10 6 = 0) (hlow : c.f 2 0 10 ≠ 0)
    (hres3 : c.f 3 24 8 = 0) (hmin : 10 ≤ c.f 3 0 24) (hmax : c.f 3 0 24 ≤ 10000000) :
    parcelCfg c u = (.reply 0x00 [], (u.wr PAR_CTL (c.w 2)).wr RUL_LEAD (c.w 3)) :=
  if_neg (by simp [hhold, hres2, hlow, hres3, Nat.not_lt.2 hmin, Nat.not_lt.2 hmax])

/-- Settles O4: what each command's own part answers, under the rule for a command that runs. -/
theorem parcelCommandsComplete : Obligations.ParcelCommandsComplete := by
  refine ⟨fun c s u hr hsec hn => runs_ok hr (parcelDefine_clears hsec hn),
    fun c s u hr hsec hsome hmax old hold new hnew hidx hfit hasc hroom => ?define,
    fun c s u d hr hstaged hperiod hrole hclaims => runs_started hr (parcelReserve_begins hstaged hperiod hrole hclaims),
    fun c s u t n x y hr htime hlead hheld hpub hphase hresv =>
      runs_ruling hr (parcelCommit_issues hheld hpub htime hlead hphase hresv),
    fun c s u n x y hr hheld hpub hphase => runs_ended hr (parcelRelease_reserved hheld hpub hphase),
    fun c s u n x y r hr hheld hpub hresv hrel hdrain hrule hlead => ?release,
    fun c s u y hr hheld hforce => runs_ok hr (parcelFree_frees hheld hforce),
    fun c s u hr hhold hres2 hlow hres3 hmin hmax => runs_ok hr (parcelCfg_accepts hhold hres2 hlow hres3 hmin hmax)⟩
  case define =>
    subst hnew
    exact runs_ok hr (parcelDefine_stages hsec hsome hmax hold hidx hfit hasc hroom)
  case release =>
    subst hrule
    exact runs_ruling hr (parcelRelease_issues hheld hpub hresv hrel hdrain hlead)

/-! ### RULING_ISSUE (R254, R257, R261, R341) -/

/-- Parameters that are refused, or a malformed time, give BAD_PARAM. -/
theorem rulingIssue_refuses {c : Cmd} {u : State} (h : rulingCmdBad c u = true ∨ rulingOfCmd c u = none) :
    rulingIssue c u = (.reply 0x12 [], u) := by
  rcases h with hbad | hnone
  · exact if_pos hbad
  · simp only [rulingIssue, hnone]
    exact ite_self _

section
variable {c : Cmd} {u : State} {r : Ruling} (hgood : rulingCmdBad c u = false) (hrule : rulingOfCmd c u = some r)
include hgood hrule

/-- A well formed ruling is issued where its lead is long enough; a BAR with a good body first sets extremes bars. -/
theorem rulingIssue_answers : rulingIssue c u = if u.leadShort r = true then (.reply 0x14 [], u)
    else rulingCmd c r (if r.kind = 1 ∧ u.bodyBad r = false then noteExtBars r u else u) := by
  simp only [rulingIssue, if_neg (Bool.eq_false_iff.1 hgood), hrule]
  rfl

theorem rulingIssue_issues (hlead : u.leadShort r = false) :
    rulingIssue c u = rulingCmd c r (if r.kind = 1 ∧ u.bodyBad r = false then noteExtBars r u else u) :=
  (rulingIssue_answers hgood hrule).trans (if_neg (Bool.eq_false_iff.1 hlead))

theorem rulingIssue_late (hlead : u.leadShort r = true) : rulingIssue c u = (.reply 0x14 [], u) :=
  (rulingIssue_answers hgood hrule).trans (if_pos hlead)

end

/-! ### STOP_AT, STOP_DISARM (R258, R259) -/

/-- The free stop slot is the first that is not armed. -/
theorem freeStop_first {u : State} {m : Nat} (hm : m < 4) (hfree : u.getB (DAT_STOP_CTL m) 0 = false)
    (harmed : ∀ k, k < m → u.getB (DAT_STOP_CTL k) 0 = true) : u.freeStop = some m := by
  rw [State.freeStop, List.find?_range_eq_some]
  exact ⟨by simp [hfree], List.mem_range.2 hm, fun k hk => by simp [harmed k hk]⟩

/-- With all four armed none is free. -/
theorem freeStop_none {u : State} (harmed : ∀ m, m < 4 → u.getB (DAT_STOP_CTL m) 0 = true) : u.freeStop = none := by
  rw [State.freeStop, List.find?_range_eq_none]
  exact fun k hk => by simp [harmed k hk]

/-- The least time from STOP_AT to its stop, a microsecond, in clock units. -/
theorem microU_eq : ((microU : Nat) : Int) = 1000 * 2 ^ 32 := rfl

section
variable {c : Cmd} {u : State} {t : Nat} (htime : c.time 2 = some t)
include htime

theorem stopAt_late (hlate : timeDiff t u.now < (1000 * 2 ^ 32 : Int)) : stopAt c u = (.reply 0x14 [], u) := by
  simp only [stopAt, htime]
  exact if_pos (microU_eq ▸ hlate)

section
variable (hlead : (1000 * 2 ^ 32 : Int) ≤ timeDiff t u.now)
include hlead

/-- A stop that is not too late arms the free slot. -/
theorem stopAt_arms {m : Nat} (hslot : u.freeStop = some m) : stopAt c u = (.reply 0x00 [w32 m], armStopSlot m t u) := by
  simp only [stopAt, htime, hslot]
  exact if_neg (Int.not_lt.2 (microU_eq ▸ hlead))

/-- With no slot free it is refused. -/
theorem stopAt_full (hslot : u.freeStop = none) : stopAt c u = (.reply 0x22 [], u) := by
  simp only [stopAt, htime, hslot]
  exact if_neg (Int.not_lt.2 (microU_eq ▸ hlead))

end

end

/-- Settles O5: what each command's own part answers, under the rule for a command that runs. -/
theorem rulingCommandsComplete : Obligations.RulingCommandsComplete := by
  refine ⟨fun c s u r hr hgood hrule hlead => runs_ruling hr (rulingIssue_issues hgood hrule hlead),
    fun c s u r hr hgood hrule hlead => runs_refused hr (rulingIssue_late hgood hrule hlead) (by decide) (by decide),
    fun c s u hr hbad => runs_refused hr (rulingIssue_refuses hbad) (by decide) (by decide),
    fun c s u t m hr htime hlead hm hfree harmed => runs_ok hr (stopAt_arms htime hlead (freeStop_first hm hfree harmed)),
    fun c s u t hr htime hlate => runs_refused hr (stopAt_late htime hlate) (by decide) (by decide),
    fun c s u t hr htime hlead harmed => runs_refused hr (stopAt_full htime hlead (freeStop_none harmed)) (by decide) (by decide),
    fun c s u ms hr hms => ?disarm⟩
  case disarm =>
    subst hms
    exact runs_ok hr rfl

end Sys2Proof.Proofs
end

section
/-! PROOFS. Cadastre's commands (R283, R288, R291, R294, R432): what each one's own part answers on the operands it accepts. -/

set_option autoImplicit false

namespace Sys2Proof.Proofs
open Sys2Proof Sys2Proof.Machine Sys2Proof.Laws

/-- A Cadastre that is neither fenced nor quiesced takes PLAT_LOAD and SCORE_ROW. -/
theorem cadastre_open {u : State} (hfenced : u.fenced .cadastre = false) (hquiesced : u.quiesced .cadastre = false) :
    ¬ (u.fenced .cadastre || u.quiesced .cadastre) = true := by
  simp [hfenced, hquiesced]

/-! ### PLAT_LOAD (R287, R288, R432) -/

/-- What R287's checks find in an image, against the version that the command gives, the slots as they stand, and, for an image of
pages, the page window where there is one. -/
def platVerdict (c : Cmd) (b : List Byte) (v : State) : Option (Nat × Nat) :=
  platCheck v.build v.cadBanks (if bit (c.w 5) 16 || v.cadWindow = 0 then none else some v.cadWindow) (c.f 5 0 16) b.length
    (v.platSlot (c.f 5 0 16)).isSome b

section
variable {c : Cmd} {u : State} (hlen : c.w 4 ≠ 0) (hfenced : u.fenced .cadastre = false) (hquiesced : u.quiesced .cadastre = false)
include hlen hfenced hquiesced

/-- An image that is long for the hold ports waits for leave. -/
theorem platLoad_waits (hasks : u.holdAsks (c.w 4) = true) : platLoad c u = holdWait u :=
  (if_neg hlen).trans ((if_neg (cadastre_open hfenced hquiesced)).trans (if_pos hasks))

section
variable {b : List Byte} {v : State} (hasks : u.holdAsks (c.w 4) = false) (hread : loadBytes (c.w64 2) (c.w 4) u = (some b, v))
include hasks hread

/-- An image that fails a check is refused with the check's code and the index it was found at. -/
theorem platLoad_refuses {k x : Nat} (hfault : platVerdict c b v = some (k, x)) :
    platLoad c u = finished c 0x12 [w32 k, w32 x] (v.evt CAD_EVT 1) := by
  rw [platVerdict] at hfault
  simp only [platLoad, if_neg hlen, if_neg (cadastre_open hfenced hquiesced), if_neg (Bool.eq_false_iff.1 hasks), hread, hfault]
  rfl

section
variable {i : Nat} (hgood : platVerdict c b v = none) (hsig : platSigOk v.platKey (v.getB CAD_KEY_CTL 1) b = true)
  (hslot : (List.range v.platSlots).find? (fun k => v.platState k == 0) = some i)
include hgood hsig hslot

/-- An image that passes, for an empty slot: one to be resident fits the banks and is placed LOADING until its leave is granted, one of
pages is READY at once where there is a page window. -/
theorem platLoad_passes : platLoad c u =
    if bit (c.w 5) 16 = true then
      if v.platFits b = false then loadRefused c stNoSpace [] v
      else (.started (.waitLeave 0) (.bytes b),
        askLeave 1 (v.pwrClass CAD_PWR) (v.pwrAmt CAD_PWR) (.cadLoad v.pil.nextJob) (platPlace i 1 (c.w64 2) true b v))
    else if v.cadWindow = 0 then loadRefused c stNoSpace [] v
    else finished c 0x00 [w32 i] ((platPlace i 2 (c.w64 2) false b v).evt CAD_EVT 0) := by
  rw [platVerdict] at hgood
  have hsigned : ¬ platSigOk v.platKey (v.getB CAD_KEY_CTL 1) b = false := by simp [hsig]
  simp only [platLoad, if_neg hlen, if_neg (cadastre_open hfenced hquiesced), if_neg (Bool.eq_false_iff.1 hasks), hread, hgood,
    if_neg hsigned, hslot]
  rfl

theorem platLoad_resident (hres : bit (c.w 5) 16 = true) (hfits : v.platFits b = true) :
    platLoad c u = (.started (.waitLeave 0) (.bytes b),
      askLeave 1 (v.pwrClass CAD_PWR) (v.pwrAmt CAD_PWR) (.cadLoad v.pil.nextJob) (platPlace i 1 (c.w64 2) true b v)) := by
  have hroom : ¬ v.platFits b = false := by simp [hfits]
  rw [platLoad_passes hlen hfenced hquiesced hasks hread hgood hsig hslot, if_pos hres, if_neg hroom]

theorem platLoad_paged (hpaged : bit (c.w 5) 16 = false) (hwindow : v.cadWindow ≠ 0) :
    platLoad c u = finished c 0x00 [w32 i] ((platPlace i 2 (c.w64 2) false b v).evt CAD_EVT 0) := by
  rw [platLoad_passes hlen hfenced hquiesced hasks hread hgood hsig hslot, if_neg (Bool.eq_false_iff.1 hpaged), if_neg hwindow]

end

end

end

/-! ### PLAT_UNLOAD, PLAT_KEY, CAD_SET (R283, R291, R294) -/

/-- A READY plat that no context is bound to and no ruling names leaves its slot. -/
theorem platUnload_drops {c : Cmd} {u : State} {i : Nat} (hready : readySlot CAD_PLAT_ID u.platSlots u (c.f 2 0 16) = some i)
    (hbound : u.platBound (c.f 2 0 16) = 0) (hnamed : u.platNamed (c.f 2 0 16) = false) :
    platUnload c u = (.reply 0x00 [], platDrop i u) := by
  have hidle : ¬(u.platBound (c.f 2 0 16) ≠ 0 ∨ u.platNamed (c.f 2 0 16) = true) := by simp [hbound, hnamed]
  simp only [platUnload, hready]
  exact if_neg hidle

/-- A key that is given lies on the curve, and signatures are required only with a key. -/
theorem platKeyCmd_accepts {c : Cmd} {u : State} (hcurve : bit (c.w 2) 1 = true → p256OnCurve (keyPoint (keyBytes c)) = true)
    (hreq : bit (c.w 2) 0 = true → bit (c.w 2) 1 = true) :
    platKeyCmd c u = (.reply 0x00 [],
      ({ u with cad := { u.cad with signKey := if bit (c.w 2) 1 then keyBytes c else [] } } : State).wr CAD_KEY_CTL
        (b2n (bit (c.w 2) 1) + b2n (bit (c.w 2) 0) * 2)) := by
  have hgood : ¬ (bit (c.w 2) 1 && !p256OnCurve (keyPoint (keyBytes c)) || bit (c.w 2) 0 && !bit (c.w 2) 1) = true := by
    rw [Bool.or_eq_true, Bool.and_eq_true, Bool.and_eq_true, Bool.not_eq_true', Bool.not_eq_true']
    rintro (⟨hgiven, hoff⟩ | ⟨hneeds, hnone⟩)
    · exact Bool.false_ne_true (hoff.symm.trans (hcurve hgiven))
    · exact Bool.false_ne_true (hnone.symm.trans (hreq hneeds))
  exact if_neg hgood

/-- The page window stays as it is, or changes while every slot is empty. -/
theorem cadSet_accepts {c : Cmd} {u : State} (hhigh : c.f 2 16 16 ≠ 0) (hres : c.f 2 12 4 = 0) (hstep : c.f 2 0 12 % 256 = 0)
    (hmax : c.f 2 0 12 ≤ u.bankSize) (hpwr : c.f 3 11 21 = 0)
    (hsame : c.f 2 0 12 = u.cadWindow ∨ ∀ i, i < u.platSlots → u.platState i = 0) :
    cadSet c u = (.reply 0x00 [], (u.wr CAD_CTL (c.w 2)).wr CAD_PWR (c.w 3)) := by
  have hrange : ¬(c.f 2 16 16 = 0 ∨ c.f 2 12 4 ≠ 0 ∨ c.f 2 0 12 % 256 ≠ 0 ∨ u.bankSize < c.f 2 0 12 ∨ c.f 3 11 21 ≠ 0) := by omega
  have hempty : ¬(c.f 2 0 12 ≠ u.cadWindow ∧ (List.range u.platSlots).any (fun i => u.platState i != 0) = true) := by
    rintro ⟨hmoves, hheld⟩
    obtain ⟨i, hi, hfull⟩ := List.any_eq_true.1 hheld
    exact (bne_iff_ne.1 hfull) (hsame.resolve_left hmoves i (List.mem_range.1 hi))
  exact (if_neg hrange).trans (if_neg hempty)

/-! ### SCORE_READ (R294) -/

/-- Scores that are kept for the epoch are answered, of the rows that the command names. -/
theorem scoreRead_kept {c : Cmd} {u : State} {n : Nat} {x : Ctx} {ks : Keep} {y : ScoreSet} (hrows : c.f 4 0 6 + c.f 4 8 6 ≤ 33)
    (hctx : u.ctxAt c.parcel u.ownLevel = some (n, x)) (hkeep : u.keep? n = some ks)
    (hscores : Tbl.get? ks.scores (c.epoch 2) = some y) :
    scoreRead c u = (.reply 0x00 ([0#32, w32 (y.rows.length + y.nOut * 2 ^ 16), w32 y.platVer] ++
      ((y.rows.drop (c.f 4 0 6)).take (c.f 4 8 6)).flatMap (scoreWords y.nOut)), u) := by
  simp only [scoreRead, if_neg (Nat.not_lt.2 hrows), hctx, hkeep, Option.map_some, Option.getD_some, hscores]
  rfl

/-! ### SCORE_ROW (R276, R293, R294) -/

/-- A row searched at once in a resident plat: its results, and what the search leaves behind. -/
def rowSearched (c : Cmd) (u : State) (i : Nat) (b : List Byte) : Ans × State :=
  (.reply 0x00 (scoreRowRun c i b (Tbl.get? u.cad.plots i).toList u).1, (scoreRowRun c i b (Tbl.get? u.cad.plots i).toList u).2)

section
variable {c : Cmd} {u : State} {i : Nat} (hfenced : u.fenced .cadastre = false) (hquiesced : u.quiesced .cadastre = false)
  (hready : readySlot CAD_PLAT_ID u.platSlots u (c.f 2 0 16) = some i) (hn : c.f 3 16 11 ≤ 1019) (hfit : c.f 3 0 10 + c.f 3 16 11 ≤ 1024)
include hfenced hquiesced hready hn hfit

/-- A row in range, for a READY plat, waits while a pass or a self-test runs; after that a resident plat is searched unless it waits for
its reload, and a paged one asks for leave. -/
theorem scoreRow_ready : scoreRow c u =
    if (u.cad.pass.isSome || u.wit.selfRun.isSome) = true then (.started .waiting .plain, u)
    else if u.platResident i = true then
      (Tbl.get? u.cad.resident i).elim (.started .waiting .plain, u) (rowSearched c u i)
    else (.started (.waitLeave 0) .plain, askLeave 1 (u.pwrClass CAD_PWR) (u.pwrAmt CAD_PWR) (.cadLoad u.pil.nextJob) u) := by
  have hrange : ¬(1019 < c.f 3 16 11 ∨ 1024 < c.f 3 0 10 + c.f 3 16 11) := by omega
  simp only [scoreRow, if_neg (cadastre_open hfenced hquiesced), hready, if_neg hrange]
  cases Tbl.get? u.cad.resident i <;> rfl

theorem scoreRow_waits (hbusy : u.cad.pass ≠ none ∨ u.wit.selfRun ≠ none) : scoreRow c u = (.started .waiting .plain, u) := by
  have hruns : (u.cad.pass.isSome || u.wit.selfRun.isSome) = true := by
    simpa [Option.isSome_iff_ne_none] using hbusy
  rw [scoreRow_ready hfenced hquiesced hready hn hfit, if_pos hruns]

section
variable (hpass : u.cad.pass = none) (hself : u.wit.selfRun = none)
include hpass hself

theorem scoreRow_idle : scoreRow c u =
    if u.platResident i = true then
      (Tbl.get? u.cad.resident i).elim (.started .waiting .plain, u) (rowSearched c u i)
    else (.started (.waitLeave 0) .plain, askLeave 1 (u.pwrClass CAD_PWR) (u.pwrAmt CAD_PWR) (.cadLoad u.pil.nextJob) u) :=
  (scoreRow_ready hfenced hquiesced hready hn hfit).trans (if_neg (by simp [hpass, hself]))

theorem scoreRow_resident {b : List Byte} (hres : u.platResident i = true) (himage : Tbl.get? u.cad.resident i = some b) :
    scoreRow c u = rowSearched c u i b := by
  rw [scoreRow_idle hfenced hquiesced hready hn hfit hpass hself, if_pos hres, himage, Option.elim_some]

theorem scoreRow_reloads (hres : u.platResident i = true) (hnone : Tbl.get? u.cad.resident i = none) :
    scoreRow c u = (.started .waiting .plain, u) := by
  rw [scoreRow_idle hfenced hquiesced hready hn hfit hpass hself, if_pos hres, hnone, Option.elim_none]

theorem scoreRow_paged (hpaged : u.platResident i = false) : scoreRow c u =
    (.started (.waitLeave 0) .plain, askLeave 1 (u.pwrClass CAD_PWR) (u.pwrAmt CAD_PWR) (.cadLoad u.pil.nextJob) u) := by
  rw [scoreRow_idle hfenced hquiesced hready hn hfit hpass hself, if_neg (Bool.eq_false_iff.1 hpaged)]

end

end

/-- Settles O8: what each command's own part answers, under the rule for a command that runs. -/
theorem cadastreCommandsComplete : Obligations.CadastreCommandsComplete := by
  refine ⟨fun c s u hr hlen hfenced hquiesced hasks => runs_started hr (platLoad_waits hlen hfenced hquiesced hasks),
    fun c s u b v i hr hlen hfenced hquiesced hasks hread hgood hsig hslot => ⟨fun hres hfits => ?resident, fun hpaged hwindow => ?paged⟩,
    fun c s u b v k x hr hlen hfenced hquiesced hasks hread hfault =>
      runs_endedRefused hr (platLoad_refuses hlen hfenced hquiesced hasks hread hfault) (by decide) (by decide),
    fun c s u i hr hready hbound hnamed => runs_ok hr (platUnload_drops hready hbound hnamed),
    fun c s u hr hcurve hreq => runs_ok hr (platKeyCmd_accepts hcurve hreq),
    fun c s u hr hhigh hres hstep hmax hpwr hsame => runs_ok hr (cadSet_accepts hhigh hres hstep hmax hpwr hsame),
    fun c s u n x ks y hr hrows hctx hkeep hscores => runs_ok hr (scoreRead_kept hrows hctx hkeep hscores),
    fun c s u i hr hfenced hquiesced hready hn hfit =>
      ⟨fun hbusy => runs_started hr (scoreRow_waits hfenced hquiesced hready hn hfit hbusy),
        fun b hpass hself hres himage =>
          runs_ok hr (scoreRow_resident hfenced hquiesced hready hn hfit hpass hself hres himage),
        fun hpass hself hres hnone =>
          runs_started hr (scoreRow_reloads hfenced hquiesced hready hn hfit hpass hself hres hnone),
        fun hpass hself hpaged =>
          runs_started hr (scoreRow_paged hfenced hquiesced hready hn hfit hpass hself hpaged)⟩⟩
  case resident =>
    exact runs_started hr (platLoad_resident hlen hfenced hquiesced hasks hread hgood hsig hslot hres hfits)
  case paged =>
    exact runs_ended hr (platLoad_paged hlen hfenced hquiesced hasks hread hgood hsig hslot hpaged hwindow)

end Sys2Proof.Proofs
end

section
/-! PROOFS. Transit's commands (R323, R328, R331, R332, R432): what each one's own part answers on the operands it accepts. -/

set_option autoImplicit false

namespace Sys2Proof.Proofs
open Sys2Proof Sys2Proof.Machine Sys2Proof.Laws

/-! ### SUBSPACE_LOAD (R327, R328, R331, R432) -/

/-- A Transit that is neither fenced nor quiesced takes SUBSPACE_LOAD. -/
theorem transit_open {u : State} (hfenced : u.fenced .transit = false) (hquiesced : u.quiesced .transit = false) :
    ¬ (u.fenced .transit || u.quiesced .transit) = true := by
  simp [hfenced, hquiesced]

section
variable {c : Cmd} {u : State} (hlen : c.w 4 ≠ 0) (hfenced : u.fenced .transit = false) (hquiesced : u.quiesced .transit = false)
include hlen hfenced hquiesced

/-- An image that is long for the hold ports waits for leave. -/
theorem subLoad_waits (hasks : u.holdAsks (c.w 4) = true) : subLoad c u = holdWait u :=
  (if_neg hlen).trans ((if_neg (transit_open hfenced hquiesced)).trans (if_pos hasks))

section
variable {b : List Byte} {v : State} {i : Nat} (hasks : u.holdAsks (c.w 4) = false)
  (hread : loadBytes (c.w64 2) (c.w 4) u = (some b, v))
  (hgood : subCheck (c.f 5 0 16) b.length (v.subSlotOf (c.f 5 0 16)).isSome (bit (c.w 5) 16) b = none)
  (hlearn : (subHead b).learn = true → bit (c.w 5) 17 = true)
  (hslot : (List.range trnSlots).find? (fun k => v.subState k == 0) = some i)
include hasks hread hgood hlearn hslot

/-- An image that passes R327's checks, with an area for its master copy where it learns, takes the lowest empty slot: one to be
resident fits scratch and is LOADING until its leave is granted, one that is not is READY at once. -/
theorem subLoad_passes : subLoad c u =
    if bit (c.w 5) 16 = true then
      if v.scratchFree < ceilDiv (subWeightBytes b (subHead b)) 65536 then subRefused c stNoSpace [] v
      else (.started (.waitLeave 0) (.bytes b),
        askLeave 2 (v.pwrClass TRN_PWR) (v.pwrAmt TRN_PWR) (.trnLoad v.pil.nextJob)
          (subPlace i 1 (c.w64 2) true (if (subHead b).learn then some (c.w64 6) else none) b v))
    else finished c 0x00 [w32 i] ((subPlace i 2 (c.w64 2) false none b v).evt TRN_EVT 0) := by
  have harea : ¬ ((subHead b).learn && !bit (c.w 5) 17) = true := by simpa using hlearn
  simp only [subLoad, if_neg hlen, if_neg (transit_open hfenced hquiesced), if_neg (Bool.eq_false_iff.1 hasks), hread, hgood,
    if_neg harea, hslot]
  rfl

theorem subLoad_resident (hres : bit (c.w 5) 16 = true) (hfits : ceilDiv (subWeightBytes b (subHead b)) 65536 ≤ v.scratchFree) :
    subLoad c u = (.started (.waitLeave 0) (.bytes b),
      askLeave 2 (v.pwrClass TRN_PWR) (v.pwrAmt TRN_PWR) (.trnLoad v.pil.nextJob)
        (subPlace i 1 (c.w64 2) true (if (subHead b).learn then some (c.w64 6) else none) b v)) := by
  rw [subLoad_passes hlen hfenced hquiesced hasks hread hgood hlearn hslot, if_pos hres, if_neg (Nat.not_lt.2 hfits)]

theorem subLoad_paged (hpaged : bit (c.w 5) 16 = false) :
    subLoad c u = finished c 0x00 [w32 i] ((subPlace i 2 (c.w64 2) false none b v).evt TRN_EVT 0) := by
  rw [subLoad_passes hlen hfenced hquiesced hasks hread hgood hlearn hslot, if_neg (Bool.eq_false_iff.1 hpaged)]

end

end

/-! ### SUBSPACE_UNLOAD, TRN_RUN, TRN_SET (R331, R332) -/

/-- A READY subspace that no context is bound to and no epoch's pass names leaves its slot. -/
theorem subUnload_drops {c : Cmd} {u : State} {i : Nat} (hready : readySlot TRN_SUB_ID trnSlots u (c.f 2 0 16) = some i)
    (hbound : u.subBound (c.f 2 0 16) = 0) (hnamed : u.subNamed (c.f 2 0 16) = false) :
    subUnload c u = (.reply 0x00 [], subDrop i u) := by
  have hidle : ¬(u.subBound (c.f 2 0 16) ≠ 0 ∨ u.subNamed (c.f 2 0 16) = true) := by simp [hbound, hnamed]
  simp only [subUnload, hready]
  exact if_neg hidle

/-- A run over no column is done at once; any other waits for its leave, and asks for it at once only where no pass runs or is ready. -/
theorem trnRun_accepts {c : Cmd} {u : State} (hk : c.w 8 ≠ 0) (hn : c.w 9 ≠ 0) (hkmax : c.w 8 ≤ 65536) (hnmax : c.w 9 ≤ 65536)
    (hm : c.f 10 0 13 ≤ 4096) (hnum : c.f 11 0 3 < 4) (hfenced : u.trnFenced = false) (hquiesced : u.quiesced .transit = false) :
    trnRun c u = if c.f 10 0 13 = 0 then (.reply 0x00 [0#32], u)
      else (.started (.waitLeave 0) .plain,
        if u.trn.pass.isSome ∨ u.trnJobs ≠ [] then u
        else askLeave 2 (u.pwrClass TRN_PWR) (u.pwrAmt TRN_PWR) (.trnLoad u.pil.nextJob) u) := by
  have hsome : ¬(c.w 8 = 0 ∨ c.w 9 = 0) := by omega
  have hrange : ¬(65536 < c.w 8 ∨ 65536 < c.w 9 ∨ 4096 < c.f 10 0 13 ∨ 4 ≤ c.f 11 0 3) := by omega
  have hopen : ¬(u.trnFenced = true ∨ u.quiesced .transit = true) := by simp [hfenced, hquiesced]
  exact (if_neg hsome).trans ((if_neg hrange).trans (if_neg hopen))

/-- The settings are stored where they are in range and the tolerance is a finite number that is not negative. -/
theorem trnSet_accepts {c : Cmd} {u : State} (hhigh : c.f 2 16 16 ≠ 0) (hmid : c.f 2 8 8 ≠ 0) (hres : c.f 2 1 7 = 0)
    (hpwr : c.f 3 11 21 = 0) (hfinite : f32Finite (c.w 4) = true) (hsign : f32Lt (c.w 4) 0 = false) :
    trnSet c u = (.reply 0x00 [], ((u.wr TRN_CTL (c.w 2)).wr TRN_PWR (c.w 3)).wr TRN_ABFT_TOL (c.w 4)) := by
  have hgood : ¬(c.f 2 16 16 = 0 ∨ c.f 2 8 8 = 0 ∨ c.f 2 1 7 ≠ 0 ∨ c.f 3 11 21 ≠ 0 ∨ f32Finite (c.w 4) = false ∨
      f32Lt (c.w 4) 0 = true) := by
    simp [hhigh, hmid, hres, hpwr, hfinite, hsign]
  exact if_neg hgood

/-! ### TRN_READ (R323, R332, R432) -/

section
variable {c : Cmd} {u : State} {bs : List Byte} (hoff : c.w 4 % 4 = 0) (hcnt : c.f 5 0 13 % 4 = 0) (hmax : c.f 5 0 13 ≤ 4080)
include hoff hcnt hmax

/-- A read of a kept section that is long for the hold ports waits for leave. -/
theorem trnRead_waits (hitem : u.trnKept.epochItem c.parcel (c.epoch 2) (c.f 5 16 1) 0 = (0, bs)) (hin : c.w 4 < bs.length)
    (hasks : u.holdAsks (min (c.f 5 0 13) (bs.length - c.w 4)) = true) : trnRead c u = holdWait u := by
  simp only [trnRead, hitem, true_and]
  exact if_pos ⟨hasks, hoff, hcnt, hmax, hin⟩

section
variable {x : Nat} {ok : Bool} {v : State} (hitem : u.trnKept.epochItem c.parcel (c.epoch 2) (c.f 5 16 1) 0 = (x, bs))
  (hread : (if x = 0 then keptReads u else (true, u)) = (ok, v)) (hin : x = 0 → ok = true → c.w 4 < bs.length)
  (hasks : x = 0 → u.holdAsks (min (c.f 5 0 13) (bs.length - c.w 4)) = false)
include hitem hread hin hasks

/-- A read that needs no leave answers the bytes it names of what is kept; what cannot be read back is answered as not kept, with none. -/
theorem trnRead_answers : trnRead c u = (.reply 0x00
    (if ok then [w32 x, w32 bs.length] ++ bytesWords (slice bs (c.w 4) (c.f 5 0 13)) else [2#32, 0#32]), v) := by
  have hnow : ¬(x = 0 ∧ u.holdAsks (min (c.f 5 0 13) (bs.length - c.w 4)) = true ∧ c.w 4 % 4 = 0 ∧ c.f 5 0 13 % 4 = 0 ∧
      c.f 5 0 13 ≤ 4080 ∧ c.w 4 < bs.length) := by
    rintro ⟨hkept, hlong, -⟩
    exact Bool.false_ne_true ((hasks hkept).symm.trans hlong)
  simp only [trnRead, hitem, if_neg hnow, hread]
  cases ok with
  | true =>
    have hgood : ¬(c.w 4 % 4 ≠ 0 ∨ c.f 5 0 13 % 4 ≠ 0 ∨ 4080 < c.f 5 0 13 ∨ (x = 0 ∧ bs.length ≤ c.w 4)) := by
      have hinside : x = 0 → c.w 4 < bs.length := fun hkept => hin hkept rfl
      omega
    exact if_neg hgood
  | false =>
    have hgood : ¬(c.w 4 % 4 ≠ 0 ∨ c.f 5 0 13 % 4 ≠ 0 ∨ 4080 < c.f 5 0 13 ∨ ((2 : Nat) = 0 ∧ ([] : List Byte).length ≤ c.w 4)) := by
      omega
    have hnone : slice [] (c.w 4) (c.f 5 0 13) = [] := by simp [slice]
    refine (if_neg hgood).trans ?_
    simp only [Bool.false_eq_true, if_false, hnone]
    rfl

end

end

/-- Settles O9: what each command's own part answers, under the rule for a command that runs. -/
theorem transitCommandsComplete : Obligations.TransitCommandsComplete := by
  refine ⟨fun c s u hr hlen hfenced hquiesced hasks => runs_started hr (subLoad_waits hlen hfenced hquiesced hasks),
    fun c s u b v i hr hlen hfenced hquiesced hasks hread hgood hlearn hslot =>
      ⟨fun hres hfits =>
          runs_started hr (subLoad_resident hlen hfenced hquiesced hasks hread hgood hlearn hslot hres hfits),
        fun hpaged => runs_ended hr (subLoad_paged hlen hfenced hquiesced hasks hread hgood hlearn hslot hpaged)⟩,
    fun c s u i hr hready hbound hnamed => runs_ok hr (subUnload_drops hready hbound hnamed),
    fun c s u hr hk hn hkmax hnmax hm hnum hfenced hquiesced => ?run,
    fun c s u hr hhigh hmid hres hpwr hfinite hsign => runs_ok hr (trnSet_accepts hhigh hmid hres hpwr hfinite hsign),
    fun c s u v hr hv => ?unfence,
    fun c s u x bs ok v hr hoff hcnt hmax hitem hread hin hasks =>
      runs_ok hr (trnRead_answers hoff hcnt hmax hitem hread hin hasks),
    fun c s u bs hr hoff hcnt hmax hitem hin hasks => runs_started hr (trnRead_waits hoff hcnt hmax hitem hin hasks)⟩
  case run =>
    have hown := trnRun_accepts hk hn hkmax hnmax hm hnum hfenced hquiesced
    split at hown
    next hnone => exact (runs_ok hr hown).trans (by rw [if_pos hnone])
    next hsome => exact (runs_started hr hown).trans (by rw [if_neg hsome])
  case unfence =>
    subst hv
    exact runs_ok hr rfl

end Sys2Proof.Proofs
end

section
/-! PROOFS. What is true of every step and of every row: a row is its effect and the step's end, it always answers, leaves nothing over,
and does nothing in reset (R9, R409, R425, R515, R516); the table of opcodes; the state right after reset; the interrupt outputs. -/

set_option autoImplicit false

namespace Sys2Proof.Proofs
open Sys2Proof Sys2Proof.Machine Sys2Proof.Laws

/-! ### The two forms of a row -/

/-- An edge of a reset input is its effect and the step's end, in reset too. -/
theorem exec_resetPin {i : Instr} (hi : isResetPin i = true) : ∃ f : State → State, ∀ s, exec i s = .next (finish (f s)) := by
  cases i with
  | zyPorstNAssert | zyPorstNRelease | zyCrstNAssert | zyCrstNRelease | zyHrstNAssert | zyHrstNRelease => exact ⟨_, fun _ => rfl⟩
  | _ => cases hi

/-- Every other row is its effect and the step's end outside reset. -/
theorem exec_evNext {i : Instr} (hi : isResetPin i = false) : ∃ f : State → State, ∀ s, exec i s = evNext f s := by
  cases i with
  | zyPorstNAssert | zyPorstNRelease | zyCrstNAssert | zyCrstNRelease | zyHrstNAssert | zyHrstNRelease => cases hi
  | _ => exact ⟨_, fun _ => rfl⟩

/-- A row answers a next state, which is the state as it was or the end of some effect. -/
theorem exec_answers (i : Instr) (s : State) : ∃ t, exec i s = .next t ∧ (t = s ∨ ∃ u, t = finish u) := by
  cases hi : isResetPin i with
  | true =>
    obtain ⟨f, hf⟩ := exec_resetPin hi
    exact ⟨_, hf s, .inr ⟨_, rfl⟩⟩
  | false =>
    obtain ⟨f, hf⟩ := exec_evNext hi
    obtain ⟨t, ht, hend⟩ := evNext_finish f s
    exact ⟨t, (hf s).trans ht, hend.imp And.right fun h => ⟨_, h⟩⟩

/-- So does an edge of DAT_CLK. -/
theorem idle_ends (s : State) : idle s = s ∨ ∃ u, idle s = finish u := by
  unfold idle
  split
  · exact .inl rfl
  · exact .inr ⟨_, rfl⟩

/-! ### Steps -/

/-- Settles O44: the command in front is the one that the step's definition runs. -/
theorem stepRunsTheFrontCommand : Obligations.StepRunsTheFrontCommand := by
  intro c cs s hfront
  simp only [step, hfront]

/-- A step answers a next state: that which holds the rest of the queue as it was, or the end of some effect. -/
theorem step_answers (s : State) : ∃ t, step s = .next t ∧ (t = { s with pending := s.pending.tail } ∨ ∃ u, t = finish u) := by
  cases hp : s.pending with
  | nil =>
    refine ⟨_, step_idle hp, (idle_ends s).imp_left fun h => ?_⟩
    rw [h, List.tail_nil, ← hp]
  | cons c cs =>
    rw [stepRunsTheFrontCommand c cs s hp]
    exact exec_answers c _

/-- Settles O46: a row and an edge of DAT_CLK both answer. -/
theorem everyStepAnswersNext : Obligations.EveryStepAnswersNext := by
  intro s
  obtain ⟨t, ht, -⟩ := step_answers s
  exact ⟨t, ht⟩

/-- Settles O48: taking a command out of the queue leaves nothing over, and neither does the step's end. -/
theorem stepsEndQuiet : Obligations.StepsEndQuiet := by
  intro s t hquiet hstep
  obtain ⟨v, hv, hend⟩ := step_answers s
  obtain rfl : v = t := Host.Outcome.next.inj (hv.symm.trans hstep)
  rcases hend with rfl | ⟨u, rfl⟩
  · exact hquiet
  · exact quiet_of_finish u

/-- Settles O50: every row but the reset inputs does nothing in reset. -/
theorem resetHoldsTheBlock : Obligations.ResetHoldsTheBlock := by
  intro i s hreset hi
  obtain ⟨f, hf⟩ := exec_evNext hi
  rw [hf, evNext_por hreset]

/-! ### Opcodes (R425) -/

/-- Settles O51: a command's row is its opcode's launch. -/
theorem opcodesNameTheirRows : Obligations.OpcodesNameTheirRows :=
  fun _ _ _ s hi => congrFun (exec_command hi) s

/-- The opcode, class and builds of the command that an opcode names. -/
def opcodeEntry (c : Cmd) (code : Nat) : Option (Nat × Nat × OnBuild) :=
  (pilotOp code c).map fun o => (o.1.code, o.1.cls, o.1.on)

/-- The class of RULING_ISSUE: OPERATE for BAR and TRIGGER (R261). -/
def rulingClass (c : Cmd) : Nat := if c.f 2 0 8 = 1 ∨ c.f 2 0 8 = 2 then 1 else 2

theorem opcodes_00_3F (c : Cmd) : (List.range' 0x00 64).filterMap (opcodeEntry c) =
    [(0x00, 0, .both), (0x01, 0, .both), (0x02, 0, .both), (0x03, 2, .both), (0x04, 3, .both), (0x05, 2, .both),
     (0x10, 2, .both), (0x11, 2, .both), (0x12, 2, .both), (0x13, 2, .both), (0x14, 2, .both), (0x15, 2, .both), (0x16, 2, .both),
     (0x17, 0, .both), (0x18, 0, .both), (0x19, 2, .trayOnly), (0x1A, 2, .both), (0x1B, 1, .trayOnly), (0x1C, 1, .both),
     (0x1D, 1, .both), (0x1E, 2, .both), (0x1F, 2, .trayOnly), (0x20, 2, .both), (0x21, 2, .leafOnly), (0x22, 1, .leafOnly),
     (0x23, 2, .both), (0x24, 2, .both), (0x30, 2, .both), (0x31, 2, .both), (0x32, 3, .both), (0x33, 2, .both), (0x34, 0, .both),
     (0x35, 1, .both)] := rfl

theorem opcodes_40_7F (c : Cmd) : (List.range' 0x40 64).filterMap (opcodeEntry c) =
    [(0x40, 2, .trayOnly), (0x41, 2, .trayOnly), (0x42, 2, .trayOnly), (0x43, 2, .trayOnly), (0x44, 2, .trayOnly),
     (0x45, 0, .trayOnly), (0x50, 2, .both), (0x51, 1, .both), (0x52, 1, .both), (0x53, 1, .both), (0x54, 3, .both),
     (0x55, 1, .leafOnly), (0x60, 2, .both), (0x61, 2, .both), (0x62, 2, .both), (0x63, 3, .both), (0x64, 1, .both),
     (0x65, 1, .both), (0x66, 2, .both), (0x70, 1, .both), (0x71, 2, .both), (0x72, 3, .both), (0x73, 2, .both),
     (0x74, 2, .trayOnly), (0x75, 0, .trayOnly)] := rfl

theorem opcodes_80_BF (c : Cmd) : (List.range' 0x80 64).filterMap (opcodeEntry c) =
    [(0x80, rulingClass c, .both), (0x81, 2, .both), (0x82, 2, .both), (0x90, 2, .both), (0x91, 1, .both), (0x92, 2, .both),
     (0x93, 3, .both), (0xA0, 3, .both), (0xA1, 3, .both), (0xA2, 1, .both), (0xA3, 1, .leafOnly), (0xA4, 2, .both),
     (0xA5, 1, .both), (0xB0, 1, .both), (0xB1, 2, .both), (0xB2, 2, .trayOnly), (0xB3, 2, .trayOnly), (0xB4, 2, .trayOnly),
     (0xB5, 2, .trayOnly)] := rfl

theorem opcodes_C0_FF (c : Cmd) : (List.range' 0xC0 64).filterMap (opcodeEntry c) =
    [(0xC0, 2, .both), (0xC1, 2, .both), (0xC2, 2, .trayOnly), (0xC3, 1, .leafOnly), (0xC4, 2, .trayOnly), (0xC5, 2, .trayOnly),
     (0xC6, 2, .both), (0xF0, 2, .both), (0xF1, 3, .both), (0xF2, 2, .both)] := rfl

theorem range_256 :
    List.range 256 = List.range' 0x00 64 ++ List.range' 0x40 64 ++ List.range' 0x80 64 ++ List.range' 0xC0 64 := by
  rw [List.range_eq_range', List.range'_append_1, List.range'_append_1, List.range'_append_1]

/-- Settles O52: the opcodes in four quarters of the table. -/
theorem opcodeTable : Obligations.OpcodeTable := by
  intro c k hk
  subst hk
  show (List.range 256).filterMap (opcodeEntry c) = _
  rw [range_256, List.filterMap_append, List.filterMap_append, List.filterMap_append, opcodes_00_3F, opcodes_40_7F, opcodes_80_BF,
    opcodes_C0_FF]
  rfl

/-! ### The state right after reset (R64, R405, R545) -/

theorem canonical_reset : Canonical State.reset := ⟨rfl, rfl, rfl⟩

theorem running_reset : Running State.reset := ⟨rfl, rfl, rfl⟩

/-- Settles O49: no register differs from its value after reset, so each is read off its table. -/
theorem resetState : Obligations.ResetState :=
  ⟨canonical_reset, running_reset.2, rfl, running_reset, rfl, rfl, rfl, by decide, rfl, rfl, rfl, rfl, rfl, rfl, rfl, rfl, by decide,
    by decide⟩

/-! ### Interrupt outputs (R349, R384, R415, R461) -/

theorem bit_eq_testBit (v i : Nat) : bit v i = v.testBit i := by
  rw [Nat.testBit_eq_decide_div_mod_eq]
  rfl

/-- The low `n` bits hold something where one of them is set. -/
theorem low_ne_zero_iff (v n : Nat) : (fld v 0 n != 0) = true ↔ ∃ i, i < n ∧ bit v i = true := by
  have hlow : fld v 0 n = v % 2 ^ n := by rw [fld, Nat.pow_zero, Nat.div_one]
  have hbit : ∀ i, (v % 2 ^ n).testBit i = true ↔ i < n ∧ bit v i = true := fun i => by
    rw [Nat.testBit_mod_two_pow, Bool.and_eq_true, decide_eq_true_iff, bit_eq_testBit]
  rw [bne_iff_ne, hlow]
  constructor
  · intro hsome
    obtain ⟨i, hi⟩ := Nat.exists_testBit_of_ne_zero hsome
    exact ⟨i, (hbit i).1 hi⟩
  · rintro ⟨i, hi⟩ hzero
    have hset := (hbit i).2 hi
    rw [hzero, Nat.zero_testBit] at hset
    exact Bool.false_ne_true hset

/-- Settles O56: each output is a field that holds something, a bit, or a disjunction of bits. -/
theorem interruptOutputs : Obligations.InterruptOutputs := by
  refine fun s => ⟨low_ne_zero_iff _ 6, Iff.rfl, low_ne_zero_iff _ 5, ?_⟩
  show (s.getB WAK_EVT 0 || s.getB WAK_EVT 1 || s.getB WAK_EVT 2 || s.getB WAK_EVT 5) = true ↔ _
  simp only [Bool.or_eq_true, or_assoc]

end Sys2Proof.Proofs
end

section
/-! PROOFS. An escalation of the fault collector (R445, R450): what it leaves in the source's state, the collector's registers and what is
still to be done. -/

set_option autoImplicit false

namespace Sys2Proof.Proofs
open Sys2Proof Sys2Proof.Machine Sys2Proof.Laws

/-! ### An escalation in its three parts -/

/-- The source is ESCALATED, and listed with its class and action. -/
def escalatedListed (n : Nat) (s : State) : State :=
  setFltState n 2 { s with flt := { s.flt with escalated := Tbl.set s.flt.escalated n (s.fltClass n, s.fltAction n),
                                               graceEnd := Tbl.erase s.flt.graceEnd n } }

/-- The block is in DEGRADED, and one escalation more is shown and counted. -/
def degradedCounted (s : State) : State :=
  (((if s.getB FLT_STATE 0 then s else quietRestart s).putB FLT_STATE 0 true).evt FLT_EVT 1).inc FLT_ESCALATIONS 1

/-- The escalation is recorded, and epochs in progress are to be marked STOPPED. -/
def escalationLogged (n c a : Nat) (s : State) : State :=
  (logEvent 0x10 [BitVec.ofNat 8 n, BitVec.ofNat 8 c, BitVec.ofNat 8 a] (rateNote 3 s)).later .stopped

/-- All this. -/
def escalationNoted (n : Nat) (s : State) : State :=
  escalationLogged n (s.fltClass n) (s.fltAction n) (degradedCounted (escalatedListed n s))

/-- The action FENCE_UNIT or QUIESCE reaches the source's unit, where it has one (R447). -/
def unitActed (n a : Nat) (s : State) : State :=
  match fltUnit n with
  | some u =>
    if a = 0 then s.later (.fence u)
    else if a = 3 then
      ({ s with flt := { s.flt with quiesced := if s.flt.quiesced.contains u then s.flt.quiesced
                                                else s.flt.quiesced ++ [u] } }).later (.quiesce u)
    else s
  | none => s

theorem escalate_eq (n : Nat) (s : State) : escalate n s = fltApply (unitActed n (s.fltAction n) (escalationNoted n s)) := rfl

/-! ### What each part leaves -/

theorem unitActed_leaves (n a : Nat) (s : State) :
    (unitActed n a s).regs = s.regs ∧ (unitActed n a s).build = s.build ∧ (unitActed n a s).flt.escalated = s.flt.escalated := by
  unfold unitActed
  split
  · split
    · exact ⟨rfl, rfl, rfl⟩
    · split <;> exact ⟨rfl, rfl, rfl⟩
  · exact ⟨rfl, rfl, rfl⟩

theorem mem_todo_unitActed (n a : Nat) {s : State} {x : Todo} (h : x ∈ s.todo) : x ∈ (unitActed n a s).todo := by
  unfold unitActed
  split
  · split
    · exact List.mem_append_left _ h
    · split
      · exact List.mem_append_left _ h
      · exact h
  · exact h

theorem rd_unitActed (n a : Nat) (s : State) (l : Loc) : (unitActed n a s).rd l = s.rd l := by
  obtain ⟨hregs, hbuild, -⟩ := unitActed_leaves n a s
  simp only [State.rd, hregs, hbuild]

/-- The collector's summary reaches FLT_STATE alone. -/
theorem rd_fltApply_other (s : State) {l : Loc} (h : l.off ≠ FLT_STATE.off) : (fltApply s).rd l = s.rd l := by
  simp only [fltApply]
  rw [rd_dieStopUpdate, rd_putB_other _ _ _ h, rd_putB_other _ _ _ h, rd_putB_other _ _ _ h, rd_setF_other _ _ _ _ h]

theorem getB_dieStopUpdate (s : State) (l : Loc) (i : Nat) : (dieStopUpdate s).getB l i = s.getB l i := by
  rw [State.getB, rd_dieStopUpdate]
  rfl

/-- Another bit of the same register is as before. -/
theorem getB_putB_apart (s : State) (l : Loc) {i j : Nat} (b : Bool) (hj : j < l.width) (h : j ≠ i) :
    (s.putB l i b).getB l j = s.getB l j := by
  rw [getB_eq_getF, State.putB, getF_setF_apart s l i 1 _ j 1 hj (by omega)]
  rfl

/-- DEGRADED is not part of the summary. -/
theorem degraded_fltApply (s : State) : (fltApply s).getB FLT_STATE 0 = s.getB FLT_STATE 0 := by
  simp only [fltApply]
  rw [getB_dieStopUpdate, getB_putB_apart _ _ _ (by decide) (by decide), getB_putB_apart _ _ _ (by decide) (by decide),
    getB_putB_apart _ _ _ (by decide) (by decide), getB_eq_getF, getF_setF_apart _ _ _ _ _ _ _ (by decide) (by decide)]
  rfl

/-- ERR_DRIVEN follows the sources that are ESCALATED (R450). -/
theorem errBit_fltApply (s : State) :
    (fltApply s).getB FLT_STATE 1 = s.flt.escalated.any (fun e => e.2.2 == 1 || e.2.1 == 2) := by
  simp only [fltApply]
  rw [getB_dieStopUpdate, getB_putB_apart _ _ _ (by decide) (by decide), getB_putB_same _ _ _ _ (by decide)]

theorem rd_escalationLogged (n c a : Nat) (s : State) {l : Loc} (h : l.off ≠ LOG_EVT.off) (h2 : l.off ≠ LOG_QDROP.off) :
    (escalationLogged n c a s).rd l = s.rd l :=
  rd_logEvent _ _ _ _ h h2

theorem rd_ite_quietRestart (p : Prop) [Decidable p] (s : State) (l : Loc) : (if p then s else quietRestart s).rd l = s.rd l := by
  split <;> rfl

theorem rd_degradedCounted_other (s : State) {l : Loc} (h : l.off ≠ FLT_STATE.off) (h2 : l.off ≠ FLT_EVT.off)
    (h3 : l.off ≠ FLT_ESCALATIONS.off) : (degradedCounted s).rd l = s.rd l := by
  rw [degradedCounted, rd_inc_other _ _ h3, rd_evt_other _ _ h2, rd_putB_other _ _ _ h, rd_ite_quietRestart]

theorem degraded_degradedCounted (s : State) : (degradedCounted s).getB FLT_STATE 0 = true := by
  rw [degradedCounted, State.getB, rd_inc_other _ _ (by decide), rd_evt_other _ _ (by decide)]
  exact getB_putB_same _ _ _ _ (by decide)

theorem event_degradedCounted (s : State) : (degradedCounted s).getB FLT_EVT 1 = true := by
  rw [degradedCounted, State.getB, rd_inc_other _ _ (by decide)]
  exact getB_evt_same _ _ _ (by decide)

theorem count_degradedCounted (s : State) : (degradedCounted s).rd FLT_ESCALATIONS = (s.rd FLT_ESCALATIONS + 1) % 2 ^ 32 := by
  rw [degradedCounted, rd_inc_same, rd_evt_other _ _ (by decide), rd_putB_other _ _ _ (by decide), rd_ite_quietRestart]
  rfl

/-- The state of a source lies apart from the registers that an escalation changes. -/
theorem fltSrcState_off {n : Nat} (hn : n < 64) :
    (FLT_SRC_STATE n).off ≠ FLT_STATE.off ∧ (FLT_SRC_STATE n).off ≠ FLT_EVT.off ∧ (FLT_SRC_STATE n).off ≠ FLT_ESCALATIONS.off ∧
      (FLT_SRC_STATE n).off ≠ LOG_EVT.off ∧ (FLT_SRC_STATE n).off ≠ LOG_QDROP.off := by
  simp only [FLT_SRC_STATE, FLT_STATE, FLT_EVT, FLT_ESCALATIONS, LOG_EVT, LOG_QDROP]
  omega

theorem fltState_escalatedListed (n : Nat) (s : State) : (escalatedListed n s).fltState n = 2 :=
  getF_setF_same _ _ _ _ _ (Nat.le_refl 32)

theorem rd_escalatedListed_other {n : Nat} (s : State) {l : Loc} (h : l.off ≠ (FLT_SRC_STATE n).off) :
    (escalatedListed n s).rd l = s.rd l := rd_setF_other _ _ _ _ h

/-! The list of escalated sources, seen through the parts of the note. -/

theorem logEvent_flt (k : Nat) (d : List Byte) (s : State) : (logEvent k d s).flt = s.flt := by
  simp only [logEvent, apply_ite State.flt, evt_flt, inc_flt, ite_self]

theorem escalationLogged_flt (n c a : Nat) (s : State) : (escalationLogged n c a s).flt = s.flt := logEvent_flt _ _ _

theorem ite_quietRestart_escalated (p : Prop) [Decidable p] (s : State) :
    (if p then s else quietRestart s).flt.escalated = s.flt.escalated := by
  split <;> rfl

theorem degradedCounted_escalated (s : State) : (degradedCounted s).flt.escalated = s.flt.escalated := by
  rw [degradedCounted, inc_flt, evt_flt, putB_flt, ite_quietRestart_escalated]

theorem escalatedListed_escalated (n : Nat) (s : State) :
    (escalatedListed n s).flt.escalated = Tbl.set s.flt.escalated n (s.fltClass n, s.fltAction n) := by
  rw [escalatedListed, setFltState, setF_flt]

/-- An entry that a table answers is listed. -/
theorem mem_of_get? {α : Type} {t : Tbl α} {k : Nat} {v : α} (h : Tbl.get? t k = some v) : (k, v) ∈ t := by
  induction t with
  | nil => cases h
  | cons e t ih =>
    obtain ⟨i, u⟩ := e
    rw [Tbl.get?] at h
    split at h
    next hik =>
      cases h
      rw [hik]
      exact List.mem_cons_self
    next => exact List.mem_cons_of_mem _ (ih h)

/-- Settles O60: what the note of the escalation leaves, the unit's action and the collector's summary keep. -/
theorem escalationTakesEffect : Obligations.EscalationTakesEffect := by
  intro n s t hn ht
  obtain ⟨hstate, hevt, hesc, hlog, hdrop⟩ := fltSrcState_off hn
  have hregs : ∀ l : Loc, l.off ≠ FLT_STATE.off → l.off ≠ LOG_EVT.off → l.off ≠ LOG_QDROP.off →
      t.rd l = (degradedCounted (escalatedListed n s)).rd l := by
    intro l h1 h2 h3
    rw [ht, escalate_eq, rd_fltApply_other _ h1, rd_unitActed, escalationNoted, rd_escalationLogged _ _ _ _ h2 h3]
  refine ⟨?state, ?degraded, ?event, ?count, ?todo, fun hdrives => ?driven⟩
  case state =>
    rw [State.fltState, State.getF, hregs _ hstate hlog hdrop, rd_degradedCounted_other _ hstate hevt hesc]
    exact fltState_escalatedListed n s
  case degraded =>
    rw [ht, escalate_eq, degraded_fltApply, State.getB, rd_unitActed, escalationNoted, rd_escalationLogged _ _ _ _ (by decide) (by decide)]
    exact degraded_degradedCounted _
  case event =>
    rw [State.getB, hregs _ (by decide) (by decide) (by decide)]
    exact event_degradedCounted _
  case count =>
    rw [hregs _ (by decide) (by decide) (by decide), count_degradedCounted, rd_escalatedListed_other _ hesc.symm]
  case todo =>
    rw [ht, escalate_eq]
    exact todo_dieStopUpdate _ _ (mem_todo_unitActed _ _ (List.mem_append_right _ List.mem_cons_self))
  case driven =>
    have hlisted : (n, s.fltClass n, s.fltAction n) ∈ (unitActed n (s.fltAction n) (escalationNoted n s)).flt.escalated := by
      rw [(unitActed_leaves n _ _).2.2, escalationNoted, escalationLogged_flt, degradedCounted_escalated, escalatedListed_escalated]
      exact mem_of_get? (get?_set_same _ _ _)
    have hbit : t.getB FLT_STATE 1 = true := by
      rw [ht, escalate_eq, errBit_fltApply, List.any_eq_true]
      refine ⟨_, hlisted, ?_⟩
      rcases hdrives with hclass | haction
      · simp [hclass]
      · simp [haction]
    rw [State.errDriven, hbit, Bool.true_or]

end Sys2Proof.Proofs
end

section
/-! PROOFS. Stores and loads over the build's memory (R540, R541): the bytes that a store changes, whole or request by request. -/

set_option autoImplicit false

namespace Sys2Proof.Proofs
open Sys2Proof Sys2Proof.Machine Sys2Proof.Laws

/-! ### A store that is made of its requests -/

/-- A request lies within the `n` bytes from `a` on, or asks for none. -/
def Within (a n : Nat) (p : Nat × Nat) : Prop := a ≤ p.1 ∧ (p.1 + p.2 ≤ a + n ∨ p.2 = 0)

/-- Every request of a transfer lies within it. -/
theorem within_of_mem_requests {s : State} {a n : Nat} {p : Nat × Nat} (h : p ∈ s.requests a n) : Within a n p := by
  unfold State.requests at h
  split at h
  · cases h
  · obtain ⟨i, -, rfl⟩ := List.mem_map.1 h
    dsimp only [Within]
    omega

theorem length_slice_le (bs : List Byte) (o k : Nat) : (slice bs o k).length ≤ k := List.length_take_le _ _

/-- A byte of a piece is that of the whole string. -/
theorem getD_slice {bs : List Byte} {o k i : Nat} (hi : i < k) : (slice bs o k).getD i 0 = bs.getD (o + i) 0 := by
  simp only [slice, List.getD_eq_getElem?_getD, List.getElem?_take_of_lt hi, List.getElem?_drop]

theorem memByte_storePieces_other {a j : Nat} {bs : List Byte} {ps : List (Nat × Nat)} (m : List Host.Cell)
    (h : ∀ p ∈ ps, j < p.1 ∨ p.1 + p.2 ≤ j) : memByte (storePieces a bs m ps) j = memByte m j := by
  induction ps generalizing m with
  | nil => rfl
  | cons p ps ih =>
    have hp := h p List.mem_cons_self
    have hlen := length_slice_le bs (p.1 - a) p.2
    show memByte (storePieces a bs (memWrite m p.1 (slice bs (p.1 - a) p.2)) ps) j = _
    rw [ih _ (fun q hq => h q (List.mem_cons_of_mem _ hq)), memByte_memWrite_other _ _ _ _ (by omega)]

/-- A byte that a piece covers is what was to be stored there, whichever piece wrote it last. -/
theorem memByte_storePieces_in {a j : Nat} {bs : List Byte} {ps : List (Nat × Nat)} (m : List Host.Cell)
    (hin : ∀ p ∈ ps, Within a bs.length p) (h : memByte m j = bs.getD (j - a) 0 ∨ ∃ p ∈ ps, p.1 ≤ j ∧ j < p.1 + p.2) :
    memByte (storePieces a bs m ps) j = bs.getD (j - a) 0 := by
  induction ps generalizing m with
  | nil =>
    rcases h with h | ⟨p, hp, -⟩
    · exact h
    · cases hp
  | cons p ps ih =>
    refine ih _ (fun q hq => hin q (List.mem_cons_of_mem _ hq)) ?_
    obtain ⟨hlo, hhi⟩ := hin p List.mem_cons_self
    have hlen : (slice bs (p.1 - a) p.2).length = min p.2 (bs.length - (p.1 - a)) := by rw [slice, List.length_take, List.length_drop]
    by_cases hcov : p.1 ≤ j ∧ j < p.1 + p.2
    · left
      rw [memByte_memWrite_in _ _ _ _ hcov.1 (by omega), getD_slice (by omega)]
      congr 1
      omega
    · rcases h with h | ⟨q, hq, hqcov⟩
      · left
        rw [memByte_memWrite_other _ _ _ _ (by omega), h]
      · rcases List.mem_cons.1 hq with rfl | hq
        · exact absurd hqcov hcov
        · exact .inr ⟨q, hq, hqcov⟩

/-! ### The memory behind the ports -/

theorem mem_of_put {v t : State} {m : List Host.Cell} (h : SameMem (v.setMem m) t) : t.mem = m := by
  rw [h.mem, mem_setMem]

/-- What is put as the build's memory leaves the memory of the other build. -/
theorem otherMem_of_put {s v t : State} {m : List Host.Cell} (hv : SameMem s v) (h : SameMem (v.setMem m) t) :
    (s.isTray = true → t.hostMem = s.hostMem) ∧ (s.isTray = false → t.holdMem = s.holdMem) := by
  obtain ⟨hhost, hhold, hbuild⟩ := hv
  obtain ⟨hhost', hhold', -⟩ := h
  have htray : v.isTray = s.isTray := by rw [State.isTray, State.isTray, hbuild]
  rw [hhost', hhold']
  constructor
  · intro hs
    rw [State.setMem, htray, hs]
    exact hhost
  · intro hs
    rw [State.setMem, htray, hs]
    exact hhold

theorem portErrorMet_sameMem (a n : Nat) (s : State) : SameMem s (portErrorMet a n s) := ⟨rfl, rfl, rfl⟩

/-- No load changes memory, read or failed. -/
theorem loadBytes_sameMem (a n : Nat) (s : State) : SameMem s (loadBytes a n s).2 := by
  unfold loadBytes
  split
  · exact accessFails_sameMem s
  · have hask := portAsk_sameMem false a [] ((s.requests a n).filter s.reqUp) s
    dsimp only
    split
    · exact (hask.trans (requestsFail_sameMem _ _)).trans (portErrorMet_sameMem a n _)
    · dsimp only
      split
      · exact hask.trans ⟨rfl, rfl, rfl⟩
      · exact hask

theorem storeBytes_unreached {a : Nat} {bs : List Byte} {s : State} (h : s.memReach a bs.length = false) :
    storeBytes a bs s = (false, accessFails s) := by
  rw [storeBytes, if_pos h]

/-- Settles O59: the ways in which a store can end, one by one. -/
theorem storesWriteTheirBytes : Obligations.StoresWriteTheirBytes := by
  refine ⟨fun a bs s t h => ?succeeds, fun a bs s t h => ⟨fun j hj => ?others, fun hno => ?none, fun hreach htray j p hp hup hlo hhi => ?served⟩,
    fun a bs r s t h => ?otherMem, fun a n s r t h => ?load⟩
  case succeeds =>
    rcases storeBytes_cases h with ⟨hr, -⟩ | ⟨v, -, ⟨-, -, hput⟩ | ⟨-, hr, -⟩⟩
    · cases hr
    · rw [mem_of_put hput]
      exact ⟨fun j hj => memByte_memWrite_other _ _ _ _ hj, memRead_memWrite _ _ _⟩
    · cases hr
  case others =>
    rcases storeBytes_cases h with ⟨-, hsame, -⟩ | ⟨v, -, ⟨-, hr, -⟩ | ⟨-, -, -, hput⟩⟩
    · rw [hsame.mem]
    · cases hr
    · rw [mem_of_put hput]
      refine memByte_storePieces_other _ fun p hp => ?_
      obtain ⟨hmem, hup⟩ := List.mem_filter.1 hp
      exact hj p hmem hup
  case none =>
    rcases hno with hreach | hleaf
    · rw [storeBytes_unreached hreach] at h
      cases h
      obtain ⟨hhost, hhold, -⟩ := accessFails_sameMem s
      exact ⟨hhost, hhold⟩
    · rcases storeBytes_cases h with ⟨-, ⟨hhost, hhold, -⟩, -⟩ | ⟨v, -, ⟨-, hr, -⟩ | ⟨-, -, htray, -⟩⟩
      · exact ⟨hhost, hhold⟩
      · cases hr
      · exact absurd (htray.symm.trans hleaf) (by decide)
  case served =>
    rcases storeBytes_cases h with ⟨-, -, hno | hleaf⟩ | ⟨v, -, ⟨-, hr, -⟩ | ⟨-, -, -, hput⟩⟩
    · exact absurd (hreach.symm.trans hno) (by decide)
    · exact absurd (htray.symm.trans hleaf) (by decide)
    · cases hr
    · rw [mem_of_put hput]
      refine memByte_storePieces_in _ (fun q hq => within_of_mem_requests (List.mem_filter.1 hq).1) (.inr ⟨p, ?_, hlo, hhi⟩)
      exact List.mem_filter.2 ⟨hp, hup⟩
  case otherMem =>
    rcases storeBytes_cases h with ⟨-, ⟨hhost, hhold, -⟩, -⟩ | ⟨v, hv, ⟨-, -, hput⟩ | ⟨-, -, -, hput⟩⟩
    · exact ⟨fun _ => hhost, fun _ => hhold⟩
    · exact otherMem_of_put hv hput
    · exact otherMem_of_put hv hput
  case load =>
    have hsame := loadBytes_sameMem a n s
    rw [h] at hsame
    exact ⟨hsame.1, hsame.2.1⟩

end Sys2Proof.Proofs
end

section
/-! PROOFS. How a command that is launched is checked, and where its replies go (R405, R407 to R409, R411 to R414). -/

set_option autoImplicit false

namespace Sys2Proof.Proofs
open Sys2Proof Sys2Proof.Machine Sys2Proof.Laws

/-! ### Checks 1 to 5 (R409) -/

section
variable {o : OpInfo} {own : Cmd → State → Ans × State} {c : Cmd} {u : State} {st : Nat}

/-- The first check that fails gives the status, and the command has no effect. -/
theorem started_faulted (hf : headerFault o c u = some st) : started o own c u = sendReply false true c o.code st [] (u.inc PIL_REFUSED 1) := by
  simp only [started, hf]

/-- Check 1: the build lacks the command. -/
theorem headerFault_build (hbuild : (o.on = .leafOnly ∧ u.build = .tray) ∨ (o.on = .trayOnly ∧ u.build = .leaf)) :
    headerFault o c u = some 0x10 := if_pos hbuild

section
variable (hbuild : ¬((o.on = .leafOnly ∧ u.build = .tray) ∨ (o.on = .trayOnly ∧ u.build = .leaf)))
include hbuild

/-- Check 2: the authority is too low. -/
theorem headerFault_authority (hauth : c.authority < o.cls) : headerFault o c u = some 0x13 :=
  (if_neg hbuild).trans (if_pos hauth)

section
variable (hauth : o.cls ≤ c.authority)
include hauth

/-- Check 3: the length. -/
theorem headerFault_length (hlen : c.length < 2 ∨ 1024 < c.length ∨ c.written ≠ c.length ∨ o.lenOk c.params c.length = false) :
    headerFault o c u = some 0x11 :=
  (if_neg hbuild).trans ((if_neg (Nat.not_lt.2 hauth)).trans (if_pos hlen))

section
variable (hmin : 2 ≤ c.length) (hmax : c.length ≤ 1024) (hwritten : c.written = c.length) (hok : o.lenOk c.params c.length = true)
include hmin hmax hwritten hok

theorem headerFault_lengthGood : headerFault o c u =
    if c.rsv0 ≠ 0 ∨ c.rsv1 ≠ 0 then some stBadParam else if c.strictOnly = true ∧ u.getB EPO_CTL 0 = false then some stBadParam else none := by
  have hlen : ¬(c.length < 2 ∨ 1024 < c.length ∨ c.written ≠ c.length ∨ o.lenOk c.params c.length = false) := by
    simp [hwritten, hok, Nat.not_lt.2 hmin, Nat.not_lt.2 hmax]
  exact (if_neg hbuild).trans ((if_neg (Nat.not_lt.2 hauth)).trans (if_neg hlen))

/-- Check 4: reserved bits. -/
theorem headerFault_reserved (hres : c.rsv0 ≠ 0 ∨ c.rsv1 ≠ 0) : headerFault o c u = some 0x12 :=
  (headerFault_lengthGood hbuild hauth hmin hmax hwritten hok).trans (if_pos hres)

/-- Check 5: STRICT_ONLY while STRICT is clear. -/
theorem headerFault_strict (h0 : c.rsv0 = 0) (h1 : c.rsv1 = 0) (hstrict : c.strictOnly = true) (hoff : u.getB EPO_CTL 0 = false) :
    headerFault o c u = some 0x12 :=
  (headerFault_lengthGood hbuild hauth hmin hmax hwritten hok).trans ((if_neg (by simp [h0, h1])).trans (if_pos ⟨hstrict, hoff⟩))

end

end

end

end

/-- An opcode that names no command fails check 1. -/
theorem runOpcode_unknown {code : Nat} {c : Cmd} {s : State} (hr : Reaches c s) (hnone : pilotOp code c = none) :
    runOpcode code c s = sendReply false true c code 0x10 [] ((opened c s).inc PIL_REFUSED 1) := by
  have hlacks : headerFault (opUnknown s.build code) c (opened c s) = some 0x10 := by
    refine headerFault_build ?_
    rw [build_opened]
    cases s.build with
    | leaf => exact .inr ⟨rfl, rfl⟩
    | tray => exact .inl ⟨rfl, rfl⟩
  simp only [runOpcode, hnone]
  exact (runCmd_reaches hr).trans (started_faulted hlacks)

/-- Settles O53: the checks in their order, each with those before it passed. -/
theorem checksInOrder : Obligations.ChecksInOrder := by
  refine ⟨fun code c s hr hnone => ?unknown, fun i code c s o own u st hi hr ho hu hfails => ?fails,
    fun i code c s o own u hi ho hruns => ?runs⟩
  case unknown => rw [evNext_up hr.1, runOpcode_unknown hr hnone]
  case fails =>
    have hfault : headerFault o c u = some st := by
      rw [← build_opened c s, ← hu] at hfails
      rcases hfails with ⟨hbuild, rfl⟩ | ⟨hbuild, ⟨hauth, rfl⟩ | ⟨hauth, ⟨hlen, rfl⟩ | ⟨hmin, hmax, hwritten, hok, hlast⟩⟩⟩
      · exact headerFault_build hbuild
      · exact headerFault_authority hbuild hauth
      · exact headerFault_length hbuild hauth hlen
      · rcases hlast with ⟨hres, rfl⟩ | ⟨h0, h1, hstrict, hoff, rfl⟩
        · exact headerFault_reserved hbuild hauth hmin hmax hwritten hok hres
        · exact headerFault_strict hbuild hauth hmin hmax hwritten hok h0 h1 hstrict hoff
    rw [exec_reaches hi hr ho, ← hu, started_faulted hfault, pilotOp_carriesOpcode code c o own ho]
  case runs =>
    obtain ⟨hr, hf, hpower, hu⟩ := hruns
    rw [exec_reaches hi hr ho, ← hu, started_runs hf hpower]

/-! ### Replies (R405, R408, R412 to R414) -/

theorem replyWords_first (st : Nat) (c : Cmd) (opcode : Nat) (res : List Word) :
    replyWords st false c opcode res = [w32 (st + (res.length + 2) * 2 ^ 16), w32 (c.tag % 2 ^ 16 + opcode * 2 ^ 16)] ++ res := by
  simp only [replyWords, replyHead, b2n, Bool.false_eq_true, if_false, Nat.zero_mul, Nat.add_zero]

theorem replyAperture_open {a : Nat} {ws : List Word} {t : State} (ha : a < 5) (hup : t.pins.hrst = false) :
    replyAperture a ws t = (t.setAperture a ⟨.replied, 0, false, [], ws⟩).evt PIL_EVT a :=
  if_neg (by simp [hup, Nat.not_le.2 ha])

/-- While ZY_HRST_N is asserted a reply to an aperture is discarded. -/
theorem replyAperture_reset {a : Nat} {ws : List Word} {t : State} (hdown : t.pins.hrst = true) : replyAperture a ws t = t :=
  if_pos (.inl hdown)

theorem sendReply_aperture {c : Cmd} {a : Nat} (hsrc : c.src = .aperture a) (final single : Bool) (opcode st : Nat) (res : List Word) (t : State) :
    sendReply final single c opcode st res t = replyAperture a (replyWords st final c opcode res) t := by
  simp only [sendReply, hsrc]

theorem pilotFree_pins (s : State) : (pilotFree s).pins = s.pins := by
  unfold pilotFree
  split <;> rfl

/-- The final reply of a command that holds a slot, launched from an aperture, is an entry of the done queue (R413). -/
theorem deliverFinal_done {j : Job} {st a : Nat} {res : List Word} {t : State} (hasync : j.async = true) (hsrc : j.cmd.src = .aperture a)
    (ha : a < 5) (hup : t.pins.hrst = false) :
    deliverFinal j st res t = doneEntry a (replyWords st true j.cmd j.opcode (res.take 12)) (pilotFree (dropJob j.id t)) := by
  have hpins : (pilotFree (dropJob j.id t)).pins.hrst = false := by rw [pilotFree_pins]; exact hup
  simp only [deliverFinal, hasync, hsrc]
  exact if_neg (by simp [hpins, Nat.not_le.2 ha])

/-! ### Launching (R405, R407, R411) -/

/-- An opcode's launch is the launch of some command, known or not. -/
theorem runOpcode_launch (code : Nat) (c : Cmd) (s : State) : ∃ o own, runOpcode code c s = runCmd o own c s := by
  unfold runOpcode
  split <;> exact ⟨_, _, rfl⟩

section
variable {o : OpInfo} {own : Cmd → State → Ans × State} {c : Cmd} {s : State} {a : Nat}

/-- A launched command that finds Pilot held is counted and waits behind those that wait already. -/
theorem runCmd_waits (hboot : s.pil.booted = true)
    (hap : ∀ a, c.src = .aperture a → s.pins.hrst = false ∧ a < 5 ∧ (a = 4 → c.level = 3) ∧ (s.aperture a).st ≠ .busy)
    (hwait : s.pilotHeld = true ∨ s.pil.launchQ ≠ []) :
    runCmd o own c s = { opened c s with pil := { (opened c s).pil with launchQ := s.pil.launchQ ++ [.cmd o.code c] } } := by
  cases hs : c.src with
  | aperture a =>
    obtain ⟨hup, ha, hlevel, hfree⟩ := hap a hs
    have hmay : ¬(a = 4 ∧ c.level ≠ 3) := fun h => h.2 (hlevel h.1)
    simp only [runCmd, hs, hup, hboot, if_neg hmay, Nat.not_le.2 ha, Bool.false_eq_true, Bool.true_eq_false, or_self, if_false, hfree, opened]
    exact launchOr_waits hwait
  | remote k og v =>
    simp only [runCmd, hs, hboot, Bool.true_eq_false, if_false, opened]
    exact launchOr_waits hwait

/-- A BUSY aperture refuses the words of a command, and counts them. -/
theorem runCmd_busy (hsrc : c.src = .aperture a) (ha : a < 5) (hup : s.pins.hrst = false) (hlevel : a = 4 → c.level = 3)
    (hbusy : s.pil.booted = false ∨ (s.aperture a).st = .busy) : runCmd o own c s = (s.inc PIL_BUSY_WR c.written).evt PIL_EVT 6 := by
  have hmay : ¬(a = 4 ∧ c.level ≠ 3) := fun h => h.2 (hlevel h.1)
  simp only [runCmd, hsrc, hup, if_neg hmay, Nat.not_le.2 ha, Bool.false_eq_true, or_self, if_false]
  exact if_pos hbusy

/-- Aperture 4 takes nothing below AUTH_LEVEL 3. -/
theorem runCmd_insecure (hsrc : c.src = .aperture 4) (hup : s.pins.hrst = false) (hlevel : c.level ≠ 3) :
    runCmd o own c s = s.evt CAP_ACC_ERR 0 := by
  simp only [runCmd, hsrc, hup, Bool.false_eq_true, false_or, if_neg (by decide : ¬ 5 ≤ 4)]
  exact if_pos ⟨trivial, hlevel⟩

end

/-- Settles O55: each reply at its place, and each launch by what it finds. -/
theorem repliesReachTheirSender : Obligations.RepliesReachTheirSender := by
  refine ⟨fun o c st res t a hq hsrc ha hup => ?replied, fun o c st res t a hq hsrc hdown => ?discarded,
    fun j st res t a hasync hsrc ha hup => deliverFinal_done hasync hsrc ha hup,
    fun i code c s o own hi ho hpor hboot hap hwait u hu => ?waits,
    fun i code c s a hi hr hsrc ha hup hlevel hbusy => ?busy, fun i code c s hi hr hsrc hup hlevel => ?insecure⟩
  case replied =>
    rw [concluded, sendReply_aperture hsrc, replyAperture_open ha hup, replyWords_first]
    exact finish_quiet hq
  case discarded => rw [concluded, sendReply_aperture hsrc, replyAperture_reset hdown, finish_quiet hq]
  case waits =>
    have hrun : runOpcode code c s = runCmd o own c s := by simp only [runOpcode, ho]
    rw [exec_command hi, evNext_up hpor, hrun, runCmd_waits hboot hap hwait, hu, pilotOp_carriesOpcode code c o own ho]
  case busy =>
    obtain ⟨o, own, hrun⟩ := runOpcode_launch code c s
    rw [exec_command hi]
    exact evNext_quiet hr.1 (hrun.trans (runCmd_busy hsrc ha hup hlevel hbusy)) hr.2
  case insecure =>
    obtain ⟨o, own, hrun⟩ := runOpcode_launch code c s
    rw [exec_command hi]
    exact evNext_quiet hr.1 (hrun.trans (runCmd_insecure hsrc hup hlevel)) hr.2

end Sys2Proof.Proofs
end

section
/-! PROOFS. Pilot's own commands and its firmware (R426, R429, R430, R438): what each one's own part answers, on the operands that it
accepts and on those that it refuses. -/

set_option autoImplicit false

namespace Sys2Proof.Proofs
open Sys2Proof Sys2Proof.Machine Sys2Proof.Laws

/-! ### PWR_SET and PIL_SET (R438) -/

section
variable {c : Cmd} {u : State}

theorem pwrSet_accepts (hwait : c.f 2 0 16 ≠ 0) (hhigh : c.f 2 16 16 = 0) (hstow : c.f 4 11 21 = 0)
    (hhold : if u.isTray then c.f 3 16 16 ≠ 0 ∧ c.f 3 11 5 = 0 else c.w 3 = 0) :
    pwrSet c u = (.reply 0x00 [], ((u.wr PWR_CTL (c.w 2)).wr PWR_HOLD_CFG (c.w 3)).wr PWR_STOW_CFG (c.w 4)) := by
  have hgood : ¬ (c.f 2 0 16 == 0 || c.f 2 16 16 != 0 || c.f 4 11 21 != 0 ||
      (if u.isTray then c.f 3 16 16 == 0 || c.f 3 11 5 != 0 else c.w 3 != 0)) = true := by
    cases htray : u.isTray <;> simp [htray] at hhold <;> simp [hwait, hhigh, hstow, hhold]
  exact if_neg hgood

theorem pwrSet_refuses (hbad : c.f 2 0 16 = 0 ∨ c.f 2 16 16 ≠ 0 ∨ c.f 4 11 21 ≠ 0 ∨
    (if u.isTray then c.f 3 16 16 = 0 ∨ c.f 3 11 5 ≠ 0 else c.w 3 ≠ 0)) : pwrSet c u = (.reply 0x12 [], u) := by
  have hfails : (c.f 2 0 16 == 0 || c.f 2 16 16 != 0 || c.f 4 11 21 != 0 ||
      (if u.isTray then c.f 3 16 16 == 0 || c.f 3 11 5 != 0 else c.w 3 != 0)) = true := by
    cases htray : u.isTray <;> simp only [htray] at hbad ⊢ <;> simpa [or_assoc] using hbad
  exact if_pos hfails

theorem pilSet_accepts (hhigh : c.f 2 16 16 ≠ 0) (hres : c.f 2 8 8 = 0) (hres' : c.f 2 3 4 = 0)
    (hslot : bit (c.w 2) 7 = true → u.getB (PIL_KEY_ID (c.f 2 0 3)) 31 = true) :
    pilSet c u = (.reply 0x00 [], u.wr PIL_CTL (c.w 2)) := by
  have hgood : ¬ (c.f 2 16 16 == 0 || c.f 2 8 8 != 0 || c.f 2 3 4 != 0 ||
      (bit (c.w 2) 7 && !(u.getB (PIL_KEY_ID (c.f 2 0 3)) 31))) = true := by
    simpa [hhigh, hres, hres'] using hslot
  exact if_neg hgood

theorem pilSet_refuses (hbad : c.f 2 16 16 = 0 ∨ c.f 2 8 8 ≠ 0 ∨ c.f 2 3 4 ≠ 0 ∨
    (bit (c.w 2) 7 = true ∧ u.getB (PIL_KEY_ID (c.f 2 0 3)) 31 = false)) : pilSet c u = (.reply 0x12 [], u) := by
  have hfails : (c.f 2 16 16 == 0 || c.f 2 8 8 != 0 || c.f 2 3 4 != 0 ||
      (bit (c.w 2) 7 && !(u.getB (PIL_KEY_ID (c.f 2 0 3)) 31))) = true := by
    simpa [or_assoc] using hbad
  exact if_pos hfails

/-! ### KEY_SET (R426) -/

/-- Whether another slot holds a valid key under the KEY_ID that KEY_SET names. -/
def keyTaken (c : Cmd) (u : State) : Bool :=
  (List.range 8).any (fun i => i != c.f 2 0 3 && u.getB (PIL_KEY_ID i) 31 && u.getF (PIL_KEY_ID i) 0 16 == c.f 3 0 16)

theorem keyTaken_iff : keyTaken c u = true ↔
    ∃ i, i < 8 ∧ i ≠ c.f 2 0 3 ∧ u.getB (PIL_KEY_ID i) 31 = true ∧ u.getF (PIL_KEY_ID i) 0 16 = c.f 3 0 16 := by
  simp only [keyTaken, List.any_eq_true, List.mem_range, Bool.and_eq_true, bne_iff_ne, beq_iff_eq, and_assoc]

theorem keyTaken_none (hfree : ∀ i, i < 8 → i ≠ c.f 2 0 3 → u.getB (PIL_KEY_ID i) 31 = true → u.getF (PIL_KEY_ID i) 0 16 ≠ c.f 3 0 16) :
    keyTaken c u = false := by
  rw [← Bool.not_eq_true, keyTaken_iff]
  rintro ⟨i, hi, hother, hvalid, hsame⟩
  exact hfree i hi hother hvalid hsame

/-- A valid key needs a KEY_ID of its own. -/
theorem keySet_badId (hvalid : bit (c.w 2) 8 = true) (hbad : c.f 3 0 16 = 0 ∨ keyTaken c u = true) :
    keySet c u = (.reply 0x12 [], u) := by
  refine if_pos ?_
  show (bit (c.w 2) 8 && (c.f 3 0 16 == 0 || keyTaken c u)) = true
  simpa [hvalid] using hbad

/-- Whether KEY_SET names the slot of the node key. -/
def nodeSlot (c : Cmd) (u : State) : Bool := u.getB PIL_CTL 7 && u.getF PIL_CTL 0 3 == c.f 2 0 3

theorem nodeSlot_iff : nodeSlot c u = true ↔ u.getB PIL_CTL 7 = true ∧ u.getF PIL_CTL 0 3 = c.f 2 0 3 := by
  simp only [nodeSlot, Bool.and_eq_true, beq_iff_eq]

/-- A slot as KEY_SET leaves it: the key and its KEY_ID are written, or cleared. -/
def keyWritten (c : Cmd) (u : State) : Ans × State :=
  if bit (c.w 2) 8 then
    ans stOk (let v := (dropSlotReplay (c.f 2 0 3) u).wr (PIL_KEY_ID (c.f 2 0 3)) (2 ^ 31 + c.f 2 4 2 * 2 ^ 28 + c.f 3 0 16)
      { v with pil := { v.pil with keys := Tbl.set v.pil.keys (c.f 2 0 3) (wordsBytes ((c.params.drop 2).take 8)) } })
  else
    ans stOk (let v := (dropSlotReplay (c.f 2 0 3) u).wr (PIL_KEY_ID (c.f 2 0 3)) 0
      { v with pil := { v.pil with keys := Tbl.erase v.pil.keys (c.f 2 0 3) } })

/-- A key that is cleared, or whose KEY_ID is its own, goes to its slot unless that is the node key's. -/
theorem keySet_goodId (hgood : bit (c.w 2) 8 = true → c.f 3 0 16 ≠ 0 ∧ keyTaken c u = false) :
    keySet c u = if nodeSlot c u = true then ans stBusyContext u else keyWritten c u := by
  refine if_neg ?_
  show ¬ (bit (c.w 2) 8 && (c.f 3 0 16 == 0 || keyTaken c u)) = true
  cases hvalid : bit (c.w 2) 8 with
  | false => simp
  | true => simp [(hgood hvalid).1, (hgood hvalid).2]

section
variable (hgood : bit (c.w 2) 8 = true → c.f 3 0 16 ≠ 0 ∧ keyTaken c u = false)
include hgood

theorem keySet_nodeSlot (hnode : u.getB PIL_CTL 7 = true) (hslot : u.getF PIL_CTL 0 3 = c.f 2 0 3) :
    keySet c u = (.reply 0x21 [], u) :=
  (keySet_goodId hgood).trans (if_pos (nodeSlot_iff.2 ⟨hnode, hslot⟩))

theorem keySet_writes (hother : ¬(u.getB PIL_CTL 7 = true ∧ u.getF PIL_CTL 0 3 = c.f 2 0 3)) : keySet c u = keyWritten c u :=
  (keySet_goodId hgood).trans (if_neg (mt nodeSlot_iff.1 hother))

end

/-! ### Firmware (R429, R430) -/

theorem fwKeyCmd_accepts (hcurve : bit (c.w 2) 1 = true → p256OnCurve (keyPoint (keyBytes c)) = true) :
    fwKeyCmd c u = (.reply 0x00 [],
      ({ u with pil := { u.pil with fwKey := if bit (c.w 2) 1 then keyBytes c else [] } } : State).wr PIL_FW_KEY_CTL
        (b2n (bit (c.w 2) 1))) := by
  have hgood : ¬ (bit (c.w 2) 1 && !p256OnCurve (keyPoint (keyBytes c))) = true := by
    rw [Bool.and_eq_true, Bool.not_eq_true']
    exact fun h => Bool.false_ne_true (h.2.symm.trans (hcurve h.1))
  exact if_neg hgood

theorem fwKeyCmd_refuses (hgiven : bit (c.w 2) 1 = true) (hoff : p256OnCurve (keyPoint (keyBytes c)) = false) :
    fwKeyCmd c u = (.reply 0x12 [], u) := by
  have hfails : (bit (c.w 2) 1 && !p256OnCurve (keyPoint (keyBytes c))) = true := by rw [hgiven, hoff]; rfl
  exact if_pos hfails

theorem fwRevert_clears (hfree : u.fwBusy c = false) : fwRevert c u = (.reply 0x00 [], patchClear u) :=
  if_neg (Bool.eq_false_iff.1 hfree)

theorem fwRevert_refuses (hbusy : u.fwBusy c = true) : fwRevert c u = (.reply 0x21 [], u) := if_pos hbusy

theorem fwPatch_empty (hlen : c.w 4 = 0) : fwPatch c u = (.reply 0x11 [], u) := if_pos hlen

section
variable (hlen : c.w 4 ≠ 0)
include hlen

theorem fwPatch_refuses (hbusy : u.fwBusy c = true) : fwPatch c u = (.reply 0x21 [], u) := (if_neg hlen).trans (if_pos hbusy)

section
variable (hfree : u.fwBusy c = false)
include hfree

/-- An image that is long for the hold ports waits for leave. -/
theorem fwPatch_waits (hasks : u.holdAsks (c.w 4) = true) : fwPatch c u = holdWait u :=
  (if_neg hlen).trans ((if_neg (Bool.eq_false_iff.1 hfree)).trans (if_pos hasks))

section
variable {v : State} (hasks : u.holdAsks (c.w 4) = false)
include hasks

/-- An image that cannot be read. -/
theorem fwPatch_unread (hread : loadBytes (c.w64 2) (c.w 4) (patchClear u) = (none, v)) : fwPatch c u = finished c 0x30 [] v := by
  simp only [fwPatch, if_neg hlen, if_neg (Bool.eq_false_iff.1 hfree), if_neg (Bool.eq_false_iff.1 hasks), hread]
  rfl

section
variable {b : List Byte} (hread : loadBytes (c.w64 2) (c.w 4) (patchClear u) = (some b, v))
include hread

/-- The check that an image fails first, 0 for none (R429). -/
theorem fwPatch_checked {code : Nat} (hcode : patchCheck (v.getF PIL_FW 0 16) b.length v.fwKeyPoint b = code) : fwPatch c u =
    if code = 0 then finished c 0x00 [w32 (leAt b 6 2)] { v.setF PIL_FW 16 16 (leAt b 6 2) with pil := { v.pil with patch := b } }
    else if code = 8 then finished c 0x13 [] (logEvent 0x60 (leBytes 1 code ++ zeros 1 ++ leBytes 2 (leAt b 6 2)) (v.evt PIL_EVT 9))
    else finished c 0x12 [w32 code] (logEvent 0x60 (leBytes 1 code ++ zeros 1 ++ leBytes 2 (leAt b 6 2)) (v.evt PIL_EVT 9)) := by
  simp only [fwPatch, if_neg hlen, if_neg (Bool.eq_false_iff.1 hfree), if_neg (Bool.eq_false_iff.1 hasks), hread, hcode]
  rfl

end

end

end

end

end

/-- Settles O1: what each command's own part answers, under the rule for a command that runs. -/
theorem pilotOwnCommandsComplete : Obligations.PilotOwnCommandsComplete := by
  refine ⟨fun c s u hr => runs_ok hr rfl, fun c s u hr => runs_ok hr rfl, fun c s u hr => runs_ok hr rfl,
    fun c s u hr hwait hhigh hstow hhold => runs_ok hr (pwrSet_accepts hwait hhigh hstow hhold),
    fun c s u hr hvalid hid hfree hother => runs_ok hr ?keyGiven, fun c s u hr hvalid hother => runs_ok hr ?keyCleared,
    fun c s u hr hhigh hres hres' hslot => runs_ok hr (pilSet_accepts hhigh hres hres' hslot),
    fun c s u hr hcurve => runs_ok hr (fwKeyCmd_accepts hcurve), fun c s u hr hfree => runs_ok hr (fwRevert_clears hfree)⟩
  case keyGiven => exact (keySet_writes (fun _ => ⟨hid, keyTaken_none hfree⟩) hother).trans (if_pos hvalid)
  case keyCleared =>
    have hclear : ¬ bit (c.w 2) 8 = true := Bool.eq_false_iff.1 hvalid
    exact (keySet_writes (fun h => absurd h hclear) hother).trans (if_neg hclear)

/-- Settles O2: what each command's own part refuses, under the rule for a command that runs. -/
theorem pilotOwnCommandsRefuse : Obligations.PilotOwnCommandsRefuse := by
  refine ⟨fun c s u hr hbad => runs_refused hr (pwrSet_refuses hbad) (by decide) (by decide),
    fun c s u hr hvalid hbad => runs_refused hr ?badId (by decide) (by decide),
    fun c s u hr hvalid hid hfree hnode hslot => runs_refused hr ?nodeGiven (by decide) (by decide),
    fun c s u hr hvalid hnode hslot => runs_refused hr ?nodeCleared (by decide) (by decide),
    fun c s u hr hbad => runs_refused hr (pilSet_refuses hbad) (by decide) (by decide),
    fun c s u hr hgiven hoff => runs_refused hr (fwKeyCmd_refuses hgiven hoff) (by decide) (by decide),
    fun c s u hr hbusy => runs_refused hr (fwRevert_refuses hbusy) (by decide) (by decide),
    fun c s u hr hlen hbusy => runs_refused hr (fwPatch_refuses hlen hbusy) (by decide) (by decide)⟩
  case badId => exact keySet_badId hvalid (hbad.imp_right keyTaken_iff.2)
  case nodeGiven => exact keySet_nodeSlot (fun _ => ⟨hid, keyTaken_none hfree⟩) hnode hslot
  case nodeCleared => exact keySet_nodeSlot (fun h => absurd h (Bool.eq_false_iff.1 hvalid)) hnode hslot

/-- Settles O3: FW_PATCH up to the image that is read, then by the check that it fails first. -/
theorem firmwarePatchChecked : Obligations.FirmwarePatchChecked := by
  refine ⟨fun c s u hr hlen => runs_refused hr (fwPatch_empty hlen) (by decide) (by decide),
    fun c s u hr hlen hfree hasks => runs_started hr (fwPatch_waits hlen hfree hasks),
    fun c s u hr hlen hfree hasks v hread => runs_endedTimeout hr (fwPatch_unread hlen hfree hasks hread),
    fun c s u hr hlen hfree hasks v b hread => ⟨fun hcode => ?passes, fun hcode => ?unsigned, fun h0 h8 => ?fails⟩⟩
  case passes => exact runs_ended hr ((fwPatch_checked hlen hfree hasks hread rfl).trans (if_pos hcode))
  case unsigned =>
    have h0 : ¬ patchCheck (v.getF PIL_FW 0 16) b.length v.fwKeyPoint b = 0 := by rw [hcode]; decide
    exact runs_endedRefused hr ((fwPatch_checked hlen hfree hasks hread rfl).trans ((if_neg h0).trans (if_pos hcode))) (by decide) (by decide)
  case fails =>
    exact runs_endedRefused hr ((fwPatch_checked hlen hfree hasks hread rfl).trans ((if_neg h0).trans (if_neg h8))) (by decide) (by decide)

end Sys2Proof.Proofs
end

section
/-! PROOFS. Wake's and Witness's commands (R361, R370, R379 to R381, R389, R393, R400, R402): what each one's own part answers. -/

set_option autoImplicit false

namespace Sys2Proof.Proofs
open Sys2Proof Sys2Proof.Machine Sys2Proof.Laws

/-- A list of which no entry is refused. -/
theorem any_eq_false_of_forall {α : Type} {ps : List α} {bad : α → Bool} (h : ∀ p ∈ ps, bad p = false) : ¬ ps.any bad = true := by
  rw [Bool.not_eq_true, List.any_eq_false]
  exact fun p hp => Bool.eq_false_iff.1 (h p hp)

section
variable {c : Cmd} {u : State}

/-! ### Wake (R379 to R381) -/

theorem wakeCfg_accepts (hidle : u.getB WAK_STATUS 15 = false) (hgood : ∀ p ∈ witPairs c.params, wakPairBad u.build p.1 p.2 = none) :
    wakeCfg c u = (.reply 0x00 [], u.each (witPairs c.params) (fun p t => wakPut1 p.1 p.2 t)) := by
  have hnone : (witPairs c.params).filterMap (fun p => wakPairBad u.build p.1 p.2) = [] := List.filterMap_eq_nil_iff.2 hgood
  have hidle' : ¬ u.wakArmed = true := Bool.eq_false_iff.1 hidle
  simp only [wakeCfg, if_neg hidle', hnone]
  rfl

theorem wakeCfg_armed (harmed : u.getB WAK_STATUS 15 = true) : wakeCfg c u = (.reply 0x12 [], u) := if_pos harmed

theorem wakeArm_begins (hfenced : u.fenced .wake = false) (hquiesced : u.quiesced .wake = false) (hidle : u.getB WAK_STATUS 15 = false)
    (hring : u.dstSize ≠ 0) :
    wakeArm c u = (.reply 0x00 [w32 ((u.getF WAK_STATUS 16 16 + 1) % 65536)], (wakArm (bit (c.w 2) 0) u).2) := by
  have hopen : ¬ (u.fenced .wake || u.quiesced .wake) = true := by simp [hfenced, hquiesced]
  have hready : ¬(u.wakArmed = true ∨ u.dstSize = 0) := by
    rintro (harmed | hnone)
    · exact Bool.false_ne_true (hidle.symm.trans harmed)
    · exact hring hnone
  exact (if_neg hopen).trans (if_neg hready)

theorem wakeTrig_fires (harmed : u.getB WAK_STATUS 15 = true) :
    wakeTrig c u = (.reply 0x00 [], wakEvents [.host (c.f 2 0 8)] (wakWrite 4 3 (leBytes 4 (c.f 2 0 8)) u)) :=
  if_neg (fun hidle : u.getB WAK_STATUS 15 = false => Bool.false_ne_true (hidle.symm.trans harmed))

theorem wakeTrig_idle (hidle : u.getB WAK_STATUS 15 = false) : wakeTrig c u = (.reply 0x32 [], u) := if_pos hidle

theorem wakeSecure_accepts (hres : c.f 2 8 24 = 0) (h3 : bit (c.w 2) 3 = false) (h7 : bit (c.w 2) 7 = false) (hlow : c.f 2 0 3 ≤ 4)
    (hhigh : c.f 2 4 3 ≤ 4) : wakeSecure c u = (.reply 0x00 [], u.wr WAK_SEC (c.w 2)) := by
  have hgood : ¬(c.f 2 8 24 ≠ 0 ∨ bit (c.w 2) 3 = true ∨ bit (c.w 2) 7 = true ∨ 4 < c.f 2 0 3 ∨ 4 < c.f 2 4 3) := by
    simp [hres, h3, h7, Nat.not_lt.2 hlow, Nat.not_lt.2 hhigh]
  exact if_neg hgood

/-- Messages of BULK that a command has queued: none, or some that it waits for. -/
theorem bulkJob_none (v : State) : bulkJob c 0 v = finished c 0x00 [0#32] v := rfl

theorem bulkJob_some {k : Nat} (hk : k ≠ 0) (v : State) :
    bulkJob c k v = (.started .running (.nums [(v.chain 0).bulkDone + bulkWaiting (v.chain 0), k]), v) := if_neg hk

theorem wakeSend_sends {k : Nat} {v : State} (hwords : c.w 4 % 4 = 0) (hmax : c.w 4 ≤ 16777216)
    (hheld : c.w 4 = 0 ∨ (u.rd WAK_DST_WR ≤ c.w64 2 + u.dstSize ∧ c.w64 2 + c.w 4 ≤ u.rd WAK_DST_WR))
    (hsend : wakSend (c.w64 2) (c.w 4) u = (some k, v)) : wakeSend c u = bulkJob c k v := by
  have hgood : ¬(c.w 4 % 4 ≠ 0 ∨ 16777216 < c.w 4 ∨
      (c.w 4 ≠ 0 ∧ (c.w64 2 + u.dstSize < u.rd WAK_DST_WR ∨ u.rd WAK_DST_WR < c.w64 2 + c.w 4))) := by omega
  simp only [wakeSend, if_neg hgood, hsend]

/-- A command that has sent `k` messages of BULK ends at once where there are none, and waits for the last of them else. -/
theorem runs_bulk {o : OpInfo} {own : Cmd → State → Ans × State} {s v : State} {k : Nat} (hr : Runs o c s u)
    (hown : own c u = bulkJob c k v) :
    cmdNext o own c s = .next (if k = 0 then ended o c 0x00 [0#32] v
      else begun o c .running (.nums [(v.chain 0).bulkDone + bulkWaiting (v.chain 0), k]) v) := by
  by_cases hk : k = 0
  · subst hk
    rw [if_pos rfl]
    exact runs_ended hr (hown.trans (bulkJob_none v))
  · rw [if_neg hk]
    exact runs_started hr (hown.trans (bulkJob_some hk v))

/-! ### Witness (R389, R393, R402) -/

/-- The store may be moved while no pack in it is READY. -/
theorem witSet_accepts {v : State} (hgood : ∀ p ∈ witPairs c.params, ¬(p.1 = 0x18 ∧ p.2 = 0) ∧ witPairBad p.1 p.2 = false)
    (hstore : (∃ p ∈ witPairs c.params, p.1 = 0x10 ∨ p.1 = 0x14 ∨ p.1 = 0x18) → ∀ i, i < 256 → u.packReady i = false)
    (hv : v = u.each (witPairs c.params) (fun p t => witPut p.1 p.2 t)) :
    witSet c u = (.reply 0x00 [], v.each (List.range 64) (fun n t =>
      engSettle n ((witPairs c.params).any (fun p => engField p.1 == some (n, 0))) t)) := by
  have hlen : ¬ (witPairs c.params).any (fun p => p.1 == 0x18 && p.2 == 0) = true :=
    any_eq_false_of_forall fun p hp => by simpa using (hgood p hp).1
  have hvals : ¬ (witPairs c.params).any (fun p => witPairBad p.1 p.2) = true := any_eq_false_of_forall fun p hp => (hgood p hp).2
  have hfree : ¬((witPairs c.params).any (fun p => p.1 == 0x10 || p.1 == 0x14 || p.1 == 0x18) = true ∧
      (List.range 256).any u.packReady = true) := by
    rintro ⟨hmoves, hready⟩
    obtain ⟨p, hp, hoff⟩ := List.any_eq_true.1 hmoves
    have hnone := hstore ⟨p, hp, by simpa [or_assoc] using hoff⟩
    exact any_eq_false_of_forall (fun i hi => hnone i (List.mem_range.1 hi)) hready
  rw [hv]
  exact (if_neg hlen).trans ((if_neg hvals).trans (if_neg hfree))

section
variable (hlen : c.w 4 ≠ 0)
include hlen

/-- A pack that is long for the hold ports waits for leave. -/
theorem packLoad_waits (hasks : u.holdAsks (c.w 4) = true) : packLoad c u = holdWait u := (if_neg hlen).trans (if_pos hasks)

/-- A pack that passes its checks is written to its slot. -/
theorem packLoad_writes {b : List Byte} {v w : State} {i : Nat} (hasks : u.holdAsks (c.w 4) = false)
    (hread : loadBytes (c.w64 2) (c.w 4) u = (some b, v))
    (hgood : packCheck (c.f 5 16 8) (c.f 5 0 16) b.length v.witKey (v.getB WIT_KEY_CTL 1) b = 0)
    (hslot : v.packPlace (c.f 5 16 8) (c.f 5 0 16) = .inl i) (hwrite : packWrite i b v = (true, w)) :
    packLoad c u = finished c 0x00 [w32 i] w := by
  simp only [packLoad, if_neg hlen, if_neg (Bool.eq_false_iff.1 hasks), hread, hgood, hslot, hwrite]
  rfl

end

theorem packDrop_empties {i : Nat} (hslot : u.packSlot (c.f 2 16 8) (c.f 2 0 16) = some i) (hfree : u.packUsed i = false) :
    packDrop c u = (.reply 0x00 [], packEmpty i u) := by
  simp only [packDrop, hslot]
  exact if_neg (Bool.eq_false_iff.1 hfree)

/-- A key that is given lies on the curve, and signatures are required only with a key. -/
theorem witKeyCmd_accepts (hcurve : bit (c.w 2) 1 = true → p256OnCurve (keyPoint (keyBytes c)) = true)
    (hreq : bit (c.w 2) 0 = true → bit (c.w 2) 1 = true) :
    witKeyCmd c u = (.reply 0x00 [],
      ({ u with wit := { u.wit with signKey := if bit (c.w 2) 1 then keyBytes c else [] } } : State).wr WIT_KEY_CTL
        (b2n (bit (c.w 2) 1) + b2n (bit (c.w 2) 0) * 2)) := by
  have hgood : ¬ (bit (c.w 2) 1 && !p256OnCurve (keyPoint (keyBytes c)) || bit (c.w 2) 0 && !bit (c.w 2) 1) = true := by
    rw [Bool.or_eq_true, Bool.and_eq_true, Bool.and_eq_true, Bool.not_eq_true', Bool.not_eq_true']
    rintro (⟨hgiven, hoff⟩ | ⟨hneeds, hnone⟩)
    · exact Bool.false_ne_true (hoff.symm.trans (hcurve hgiven))
    · exact Bool.false_ne_true (hnone.symm.trans (hreq hneeds))
  exact if_neg hgood

theorem engineReport_reports (hapart : c.w64 2 &&& c.w64 4 = 0) (htaken : ∀ n ∈ setBits 64 (c.w64 4), u.engSt n = 5) :
    engineReport c u = (.reply 0x00 [],
      (u.each ((setBits 64 (c.w64 2)).filter (fun n => u.engSt n != 0)) (fun n t => setEng n 6 (runOver n t))).each
        (setBits 64 (c.w64 4)) (fun n t => setEng n 1 (setDue n t))) := by
  have hgood : ¬(c.w64 2 &&& c.w64 4 ≠ 0 ∨ (setBits 64 (c.w64 4)).any (fun n => u.engSt n != 5) = true) := by
    rintro (hmeet | hother)
    · exact hmeet hapart
    · exact any_eq_false_of_forall (fun n hn => by simpa using htaken n hn) hother
  exact if_neg hgood

end

/-- Settles O10: what each command's own part answers, under the rule for a command that runs. -/
theorem wakeCommandsComplete : Obligations.WakeCommandsComplete := by
  refine ⟨fun c s u hr hidle hgood => runs_ok hr (wakeCfg_accepts hidle hgood),
    fun c s u hr harmed => runs_refused hr (wakeCfg_armed harmed) (by decide) (by decide),
    fun c s u hr hfenced hquiesced hidle hring => runs_ok hr (wakeArm_begins hfenced hquiesced hidle hring),
    fun c s u hr => ?disarm, fun c s u hr harmed => runs_ok hr (wakeTrig_fires harmed),
    fun c s u hr hidle => runs_refused hr (wakeTrig_idle hidle) (by decide) (by decide),
    fun c s u hr hres h3 h7 hlow hhigh => runs_ok hr (wakeSecure_accepts hres h3 h7 hlow hhigh),
    fun c s u k v hr hwords hmax hheld hsend => runs_bulk hr (wakeSend_sends hwords hmax hheld hsend)⟩
  case disarm =>
    by_cases hflush : (wakDisarm u).wak.flushing = true
    · rw [if_pos hflush]
      exact runs_started hr (if_pos hflush)
    · rw [if_neg hflush]
      exact runs_ok hr (if_neg hflush)

/-- Settles O11: what each command's own part answers, under the rule for a command that runs. -/
theorem witnessCommandsComplete : Obligations.WitnessCommandsComplete :=
  ⟨fun _ _ _ _ hr hgood hstore hv => runs_ok hr (witSet_accepts hgood hstore hv),
    fun _ _ _ hr hlen hasks => runs_started hr (packLoad_waits hlen hasks),
    fun _ _ _ _ _ _ _ hr hlen hasks hread hgood hslot hwrite => runs_ended hr (packLoad_writes hlen hasks hread hgood hslot hwrite),
    fun _ _ _ _ hr hslot hfree => runs_ok hr (packDrop_empties hslot hfree),
    fun _ _ _ hr hcurve hreq => runs_ok hr (witKeyCmd_accepts hcurve hreq),
    fun _ _ _ hr hapart htaken => runs_ok hr (engineReport_reports hapart htaken),
    fun _ _ _ _ hr hns => runs_ok hr (by rw [hns]; rfl), fun _ _ _ hr => runs_started hr rfl⟩

end Sys2Proof.Proofs
end

section
/-! PROOFS. The commands of the fault collector, the Logbook, Plumb and the power states (R449, R453, R454, R458, R462, R476, R480, R481,
R537), of Stow, Berths and Landing (R432, R497, R509, R511, R512): what each one's own part answers. -/

set_option autoImplicit false

namespace Sys2Proof.Proofs
open Sys2Proof Sys2Proof.Machine Sys2Proof.Laws

section
variable {c : Cmd} {u : State}

/-! ### The fault collector (R449, R453, R454, R458) -/

/-- A source is configured while it is IDLE. -/
theorem fltSet_accepts (hgood : ∀ p ∈ witPairs c.params, fltPairBad u.build p.1 p.2 = false ∧
    ∀ n, fltPairSource p.1 = some n → u.fltState n = 0) :
    fltSet c u = (.reply 0x00 [], u.each (witPairs c.params) (fun p t => fltPut p.1 p.2 t)) := by
  have hvals : ¬ (witPairs c.params).any (fun p => fltPairBad u.build p.1 p.2) = true := any_eq_false_of_forall fun p hp => (hgood p hp).1
  have hidle : ¬ (witPairs c.params).any (fun p => (fltPairSource p.1).any (fun n => u.fltState n != 0)) = true :=
    any_eq_false_of_forall fun p hp => by
      cases hsrc : fltPairSource p.1 with
      | none => rfl
      | some n => simp [(hgood p hp).2 n hsrc]
  exact (if_neg hvals).trans (if_neg hidle)

theorem fltClearCmd_answers {yes no : Nat} {v : State} (h : fltClear c.authority (c.w64 2) u = (yes, no, v)) :
    fltClearCmd c u = (.reply 0x00 [w32 yes, w32 (yes / 2 ^ 32), w32 no, w32 (no / 2 ^ 32)], v) := by
  simp only [fltClearCmd, h]
  rfl

theorem fltInject_accepts (hdebug : u.getB FLT_CTL 0 = true) (hgood : injectBad u (c.f 2 0 8) (c.f 2 8 2) (c.f 5 0 16) = false) :
    fltInject c u = (.reply 0x00 [], inject (c.f 2 0 8) (c.f 2 8 2) (bit (c.w 2) 16) (c.f 2 24 8) (c.w64 3) (c.f 5 0 16) u) :=
  (if_neg (fun hoff => Bool.false_ne_true (hoff.symm.trans hdebug))).trans (if_neg (Bool.eq_false_iff.1 hgood))

/-! ### The Logbook (R476, R480, R481) -/

theorem logHistSet_accepts (hfit : c.f 2 0 6 + c.f 2 16 7 ≤ 64)
    (hgood : ∀ i, i < c.f 2 16 7 → histBad (fld (c.w (3 + 2 * i)) 0 2) (fld (c.w (3 + 2 * i)) 8 8) = false) :
    logHistSet c u = (.reply 0x00 [],
      u.each ((List.range (c.f 2 16 7)).map (fun i => (c.f 2 0 6 + i, c.w (3 + 2 * i), c.w (4 + 2 * i))))
        (fun d t => histSet d.1 d.2.1 d.2.2 t)) := by
  have hrange : ¬(64 < c.f 2 0 6 + c.f 2 16 7 ∨ 64 < c.f 2 16 7 ∨
      ((List.range (c.f 2 16 7)).map (fun i => (c.f 2 0 6 + i, c.w (3 + 2 * i), c.w (4 + 2 * i)))).any
        (fun d => histBad (fld d.2.1 0 2) (fld d.2.1 8 8)) = true) := by
    rintro (hfirst | hmany | hbad)
    · omega
    · omega
    · rw [List.any_map] at hbad
      exact any_eq_false_of_forall (fun i hi => hgood i (List.mem_range.1 hi)) hbad
  exact if_neg hrange

theorem ceilDiv_eq_zero {n : Nat} : ceilDiv n 1024 = 0 ↔ n = 0 := by
  rw [ceilDiv]
  omega

/-! ### Plumb and the power states (R462, R481, R537) -/

theorem plmSet_stages (hgood : ∀ p ∈ witPairs c.params, plmPairBad p.1 p.2 = false) :
    plmSet c u = (.reply 0x00 [], { u with plm := { u.plm with staged := u.plm.staged ++ witPairs c.params } }) :=
  if_neg (any_eq_false_of_forall hgood)

/-- A state that may be asked for: done at once where the tier is in it already, and begun else. -/
theorem powerSet_asks (hstate : c.f 2 0 2 ≠ 3) (hbond : c.f 2 0 2 = 2 ∨ u.bondFail = false)
    (hfree : ¬(c.f 2 0 2 = 2 ∧ u.isTray = true ∧ u.par.ctxs ≠ [])) :
    powerSet c u = if (powerRequest (c.f 2 0 2) u).plm.goal.isNone then
        finished c stOk [w32 (powerRequest (c.f 2 0 2) u).powerState] (powerRequest (c.f 2 0 2) u)
      else (.started .running .plain, powerRequest (c.f 2 0 2) u) := by
  have hsound : ¬(c.f 2 0 2 ≠ 2 ∧ u.bondFail = true) := by
    rintro ⟨hother, hfail⟩
    exact Bool.false_ne_true ((hbond.resolve_left hother).symm.trans hfail)
  have hempty : ¬(c.f 2 0 2 = 2 ∧ u.isTray = true ∧ u.anyCtx = true) := by
    rintro ⟨hsleep, htray, hctx⟩
    exact hfree ⟨hsleep, htray, fun hnil => by simp [State.anyCtx, hnil] at hctx⟩
  exact (if_neg hstate).trans ((if_neg hsound).trans (if_neg hempty))

/-! ### STOW_JOB (R432, R497, R512) -/

section
variable (hgood : stowBad c = none) (hfenced : u.fenced .stow = false) (hquiesced : u.quiesced .stow = false)
include hgood hfenced hquiesced

/-- A job that Stow takes waits for the end of a change of the power state, if it can. -/
theorem stowJob_inChange (hchange : u.plm.goal ≠ none) : stowJob c u =
    if c.asyncOk = true ∧ (u.rd PIL_ASYNC < 16 ∨ (u.job? u.pil.nextJob).isSome = true) then (.started .waitPower .plain, u) else ans stBusyPower u := by
  have hopen : ¬ (u.fenced .stow || u.quiesced .stow) = true := by simp [hfenced, hquiesced]
  simp only [stowJob, hgood, if_neg hopen]
  exact if_pos (Option.isSome_iff_ne_none.2 hchange)

/-- Outside of such a change it waits for leave of its class, for the jobs before it, for leave of the hold port, or runs. -/
theorem stowJob_steady (hsteady : u.plm.goal = none) : stowJob c u =
    if 16384 < c.w 4 then
      (.started (.waitLeave 0) .plain, askLeave 6 (u.pwrClass PWR_STOW_CFG) (u.pwrAmt PWR_STOW_CFG) (.stow u.pil.nextJob) u)
    else if u.stowBefore = true then (.started (.waitLeave 1) .plain, u)
    else if u.holdAsks (c.w 4) = true then holdWait u
    else finished c (stowRun c u).1 (stowRun c u).2.1 (stowRun c u).2.2 := by
  have hopen : ¬ (u.fenced .stow || u.quiesced .stow) = true := by simp [hfenced, hquiesced]
  simp only [stowJob, hgood, if_neg hopen, hsteady]
  rfl

end

/-! ### Landing (R509, R511, R512) -/

theorem treeSet_accepts (hgood : treeSetBad c u = false) (hfree : u.treeInUse = false) : treeSetCmd c u =
    if bit (c.w 2) 8 = true then
      (.reply 0x00 [], putKids (c.f 2 0 3) [] (wrIp (LND_TREE_ADDR (c.f 2 0 3)) 0
        ((u.wr (LND_TREE_ID (c.f 2 0 3)) 0).wr (LND_TREE_N (c.f 2 0 3)) 0)))
    else
      (.reply 0x00 [], putKids (c.f 2 0 3) (treeKids c) (wrIp (LND_TREE_ADDR (c.f 2 0 3)) (if bit (c.w 2) 9 then 0 else c.ip 4)
        ((u.wr (LND_TREE_ID (c.f 2 0 3)) (2 ^ 31 + b2n (bit (c.w 2) 9) * 2 ^ 30 + c.f 2 10 1 * 2 ^ 29 +
          (if bit (c.w 2) 9 then 0 else c.f 3 24 3 * 2 ^ 24 + c.f 3 0 20))).wr (LND_TREE_N (c.f 2 0 3)) (treeKids c).length))) :=
  (if_neg (Bool.eq_false_iff.1 hgood)).trans (if_neg (Bool.eq_false_iff.1 hfree))

/-- A stream's admin list as LND_GATE_LOAD writes it, with its version. -/
def landingLoaded (c : Cmd) (es : List Nat) (u : State) : State :=
  let w := u.each (List.range 64) (fun i t => t.wr (LND_ENT (c.f 2 0 1) 1 i) (es.getD i 0))
  { w with lnd := { w.lnd with gateVer := Tbl.set w.lnd.gateVer (2 * c.f 2 0 1 + 1) (c.f 3 0 16) } }

theorem lndGateLoad_accepts {es : List Nat} (hn : c.f 2 8 7 ≤ 64) (hes : es = (List.range (c.f 2 8 7)).map (fun i => lndEnt (c.w64 (4 + 2 * i))))
    (hgood : lndListBad es = 0) : lndGateLoadCmd c u =
    (.reply 0x00 [], if c.f 2 0 1 = 0 then (landingLoaded c es u).setF LND_GATE_VER 16 16 (c.f 3 0 16) else landingLoaded c es u) := by
  have h2 : ¬ lndListBad es = 2 := by rw [hgood]; decide
  have h1 : ¬ lndListBad es = 1 := by rw [hgood]; decide
  subst hes
  exact (if_neg (Nat.not_lt.2 hn)).trans ((if_neg h2).trans (if_neg h1))

theorem lndGateSwap_tooLate (hlate : cycReached (cycleOf u.now + 64) (c.w 2 + c.f 3 0 8 * 2 ^ 32) = false) :
    lndGateSwapCmd c u = (.reply 0x14 [], u) := if_pos hlate

/-- The streams of the mask swap at the cycle named; none where the mask is 0. -/
theorem lndGateSwap_accepts {cyc : Nat} (hcyc : cyc = c.w 2 + c.f 3 0 8 * 2 ^ 32) (hahead : cycReached (cycleOf u.now + 64) cyc = true) :
    lndGateSwapCmd c u = (.reply 0x00 [], if c.f 4 0 2 = 0 then u
      else (u.each ((List.range 2).filter (bit (c.f 4 0 2))) (fun st t =>
        { t with lnd := { t.lnd with swap := Tbl.set t.lnd.swap st cyc } })).wr LND_GATE_CYC (2 ^ 63 + cyc)) := by
  have hintime : ¬ cycReached (cycleOf u.now + 64) cyc = false := fun hlate => Bool.false_ne_true (hlate.symm.trans hahead)
  subst hcyc
  exact (if_neg hintime).trans (apply_ite (Prod.mk (Ans.reply 0x00 [])) _ _ _).symm

end

/-- Settles O12: what each command's own part answers, under the rule for a command that runs. -/
theorem plantCommandsComplete : Obligations.PlantCommandsComplete := by
  refine ⟨fun c s u hr hgood => runs_ok hr (fltSet_accepts hgood), fun c s u yes no v hr h => runs_ok hr (fltClearCmd_answers h),
    fun c s u hr hdebug hgood => runs_ok hr (fltInject_accepts hdebug hgood),
    fun c s u hr hoff => runs_refused hr (if_pos hoff) (by decide) (by decide), fun c s u hr => runs_ok hr rfl,
    fun c s u hr hmask => runs_ok hr (if_neg (Nat.not_le.2 hmask)), fun c s u hr hfit hgood => runs_ok hr (logHistSet_accepts hfit hgood),
    fun c s u hr => runs_ok hr rfl, fun c s u hr hfit v hv => ?send, fun c s u hr hgood => runs_ok hr (plmSet_stages hgood),
    fun c s u v hr hstate hbond hfree hv => ?power⟩
  case send =>
    have hown : logSendCmd c u = bulkJob c (ceilDiv (c.f 3 0 16) 1024) v := by
      rw [hv]
      exact if_neg (Nat.not_lt.2 hfit)
    simp only [← ceilDiv_eq_zero (n := c.f 3 0 16)]
    exact runs_bulk hr hown
  case power =>
    have hown := powerSet_asks hstate hbond hfree
    rw [← hv] at hown
    by_cases hdone : v.plm.goal = none
    · rw [if_pos hdone]
      exact runs_ended hr (hown.trans (if_pos (Option.isNone_iff_eq_none.2 hdone)))
    · rw [if_neg hdone]
      exact runs_started hr (hown.trans (if_neg (mt Option.isNone_iff_eq_none.1 hdone)))

/-- Settles O14: what each command's own part answers, under the rule for a command that runs. -/
theorem stowLandingCommandsComplete : Obligations.StowLandingCommandsComplete := by
  refine ⟨fun c s u hr hgood hfenced hquiesced hchange => ⟨fun hasync hroom => ?waits, fun hcannot hnew => ?refused⟩,
    fun c s u hr hgood hfenced hquiesced hsteady =>
      ⟨fun hlong => ?leave, fun hshort hbefore => ?before, fun hshort hfirst hasks => ?hold, fun hshort hfirst hfree n k r v hrun => ?runs⟩,
    fun c s u hr hgood => runs_ok hr (if_neg (Bool.eq_false_iff.1 hgood)),
    fun c s u hr hgood => runs_ok hr (if_neg (any_eq_false_of_forall hgood)),
    fun c s u hr hgood hfree hclear => runs_ok hr ((treeSet_accepts hgood hfree).trans (if_pos hclear)),
    fun c s u id hr hgood hfree hset hid => runs_ok hr (hid ▸ (treeSet_accepts hgood hfree).trans (if_neg (Bool.eq_false_iff.1 hset))),
    fun c s u es v hr hn hes hgood hv => runs_ok hr (hv ▸ lndGateLoad_accepts hn hes hgood),
    fun c s u cyc hr hcyc hahead => runs_ok hr (lndGateSwap_accepts hcyc hahead),
    fun c s u hr hlate => runs_refused hr (lndGateSwap_tooLate hlate) (by decide) (by decide)⟩
  case waits => exact runs_started hr ((stowJob_inChange hgood hfenced hquiesced hchange).trans (if_pos ⟨hasync, .inl hroom⟩))
  case refused =>
    have hno : ¬(c.asyncOk = true ∧ (u.rd PIL_ASYNC < 16 ∨ (u.job? u.pil.nextJob).isSome = true)) := by
      rintro ⟨hasync, hslot⟩
      rcases hcannot with hplain | hfull
      · exact Bool.false_ne_true (hplain.symm.trans hasync)
      · rcases hslot with hroom | hheld
        · omega
        · simp [hnew] at hheld
    exact runs_refused hr ((stowJob_inChange hgood hfenced hquiesced hchange).trans (if_neg hno)) (by decide) (by decide)
  case leave => exact runs_started hr ((stowJob_steady hgood hfenced hquiesced hsteady).trans (if_pos hlong))
  case before =>
    exact runs_started hr ((stowJob_steady hgood hfenced hquiesced hsteady).trans ((if_neg (Nat.not_lt.2 hshort)).trans (if_pos hbefore)))
  case hold =>
    exact runs_started hr ((stowJob_steady hgood hfenced hquiesced hsteady).trans
      ((if_neg (Nat.not_lt.2 hshort)).trans ((if_neg (Bool.eq_false_iff.1 hfirst)).trans (if_pos hasks))))
  case runs =>
    have hown := (stowJob_steady hgood hfenced hquiesced hsteady).trans
      ((if_neg (Nat.not_lt.2 hshort)).trans ((if_neg (Bool.eq_false_iff.1 hfirst)).trans (if_neg (Bool.eq_false_iff.1 hfree))))
    rw [hrun] at hown
    exact runs_ended hr hown

end Sys2Proof.Proofs
end

section
/-! PROOFS. The host moves the read pointers of the rings (R373, R413, R499) and fills the command apertures (R405 to R407). -/

set_option autoImplicit false

namespace Sys2Proof.Proofs
open Sys2Proof Sys2Proof.Machine Sys2Proof.Laws

/-! ### Read pointers -/

theorem ringPointer_isAt : ∀ rd ∈ [WAK_DST_RD, WAK_XR_RD, STW_SR_RD], (regAt rd.off).any (isAt rd .rw false) = true := by
  decide +kernel

theorem ringPointer_place : ∀ rd ∈ [WAK_DST_RD, WAK_XR_RD, STW_SR_RD], rd.wide = true ∧ rd.off % 8 = 0 ∧
    ¬(0x10000 ≤ rd.off ∧ rd.off < 0x15000) ∧ ¬(0x100000 ≤ rd.off ∧ rd.off < 0x180000) := by decide

theorem ringPointer_present_low {s : State} {rd wr : Loc} (hr : RingPointers s rd wr) : absentAt s.build rd.off = false := by
  rcases hr with ⟨rfl, -⟩ | ⟨hb, ⟨rfl, -⟩ | ⟨rfl, -⟩⟩
  · cases s.build <;> decide
  · rw [hb]; decide
  · rw [hb]; decide

theorem names_ringPointer {s : State} {rd wr : Loc} (hr : RingPointers s rd wr) :
    ∃ h, Names s rd.off h ∧ h.row.wide = true ∧ h.row.acc = .rw ∧ h.row.base = rd.off := by
  obtain ⟨h, hreg, -, hbase, hwide, hacc, hdom, hlow⟩ := regAt_isAt (ringPointer_isAt rd hr.mem)
  obtain ⟨hsl, hhe⟩ := tier_open_of_por hdom s
  obtain ⟨hrw, halign, hap, hcnt⟩ := ringPointer_place rd hr.mem
  have hw : h.row.wide = true := hwide.trans hrw
  exact ⟨h, ⟨hreg, hlow, ringPointer_present_low hr, hsl, hhe, by rw [hw]; exact halign, hap, hcnt⟩, hw, hacc, hbase⟩

/-- A read pointer written as a whole. -/
theorem hostWrite_ringPointer {s : State} {rd wr : Loc} (hp : PortOpen s) (hr : RingPointers s rd wr) (rq v : Nat) :
    hostWrite 0 rq rd.off true v s = putReadPtr rd wr v s := by
  obtain ⟨h, hn, hw, hacc, hbase⟩ := names_ringPointer hr
  have hwhole := hostWrite_whole hp hn 0 rq v
  rw [hw] at hwhole
  exact hwhole.trans (writeReg_ringPointer hr rfl hacc hbase v)

theorem evNext_ringPointer {s : State} {rd wr : Loc} (hp : PortOpen s) (hr : RingPointers s rd wr) (rq v : Nat) :
    evNext (hostWrite 0 rq rd.off true v) s = .next (if v ≤ s.rd wr then s.wr rd v else s.evt CAP_ACC_ERR 0) :=
  (evNext_port hp (hostWrite_ringPointer hp hr rq v) (quiet_putReadPtr rd wr v)).trans (congrArg _ (putReadPtr_eq ..))

/-- What a write of PIL_DONE_RD needs to know of the register. -/
def isDoneRd (h : RegHit) : Bool :=
  h.row.base == PIL_DONE_RD.off && h.row.wide == false && h.row.acc == .rw && h.row.dom == .hrst && h.high == false

theorem names_doneRd (s : State) :
    ∃ h, Names s PIL_DONE_RD.off h ∧ h.row.wide = false ∧ h.row.acc = .rw ∧ h.row.base = PIL_DONE_RD.off := by
  have hany : (regAt PIL_DONE_RD.off).any isDoneRd = true := by decide +kernel
  obtain ⟨hsome, hp⟩ := (Option.any_eq_true_iff_get _ _).1 hany
  simp only [isDoneRd, Bool.and_eq_true, beq_iff_eq] at hp
  obtain ⟨⟨⟨⟨hbase, hwide⟩, hacc⟩, hdom⟩, hlow⟩ := hp
  have habs : absentAt s.build PIL_DONE_RD.off = false := by cases s.build <;> decide
  refine ⟨_, ⟨(Option.some_get hsome).symm, hlow, habs, ?_, ?_, by rw [hwide]; decide, by decide, by decide⟩, hwide, hacc, hbase⟩
  · simp [State.sleepHit, hdom]
  · simp [State.heldHit, hdom]

theorem writeReg_doneRd {h : RegHit} (ha : h.row.acc = .rw) (hb : h.row.base = PIL_DONE_RD.off) (v : Nat) (s : State) :
    writeReg h v s = putDoneRd (v % 2 ^ 32) s := by
  have hr : trayRings.contains PIL_DONE_RD.off = false := by decide
  simp only [writeReg, ha, hb, hr, Bool.false_eq_true, and_false, if_false, if_true]

theorem hostWrite_doneRd {s : State} (hp : PortOpen s) (rq : Nat) (data : Word) :
    hostWrite 0 rq PIL_DONE_RD.off false data.toNat s = putDoneRd data.toNat s := by
  obtain ⟨h, hn, hw, hacc, hbase⟩ := names_doneRd s
  have hwhole := hostWrite_whole hp hn 0 rq data.toNat
  rw [hw] at hwhole
  rw [hwhole, writeReg_doneRd hacc hbase, Nat.mod_eq_of_lt data.isLt]

theorem quiet_putDoneRd (v : Nat) {s : State} (hq : Quiet s) : Quiet (putDoneRd v s) := by
  unfold putDoneRd
  dsimp only
  split
  · exact quiet_evt hq _ _
  · split
    · exact quiet_wr (quiet_wr hq _ _) _ _
    · exact quiet_wr hq _ _

theorem evNext_doneRd {s t : State} (hp : PortOpen s) (rq : Nat) (data : Word) (ht : putDoneRd data.toNat s = t) :
    evNext (hostWrite 0 rq PIL_DONE_RD.off false data.toNat) s = .next t :=
  evNext_port hp ((hostWrite_doneRd hp rq data).trans ht) (fun hq => ht ▸ quiet_putDoneRd data.toNat hq)

/-- Settles O19: each row is a whole write of the pointer that it names. -/
theorem readPointerWritesComplete : Obligations.ReadPointerWritesComplete := by
  refine ⟨fun rq data s n hp hback hn hpassed => evNext_doneRd hp rq data ?consumed,
    fun rq data s hp hpos hfar => evNext_doneRd hp rq data (if_pos ⟨hpos, hfar⟩),
    fun rq data s hp => evNext_ringPointer hp (.inl ⟨rfl, rfl⟩) rq data.toNat,
    fun rq data s hp hb => evNext_ringPointer hp (.inr ⟨hb, .inl ⟨rfl, rfl⟩⟩) rq data.toNat,
    fun rq data s hp hb => evNext_ringPointer hp (.inr ⟨hb, .inr ⟨rfl, rfl⟩⟩) rq data.toNat⟩
  case consumed =>
    have hwithin : ¬(0 < (data.toNat + 2 ^ 32 - s.rd PIL_DONE_WR) % 2 ^ 32 ∧ (data.toNat + 2 ^ 32 - s.rd PIL_DONE_WR) % 2 ^ 32 < 2 ^ 31) := by
      omega
    subst hn
    exact (if_neg hwithin).trans (if_pos hpassed)

/-! ### Apertures -/

/-- An aperture that takes words: one that was not FILLING begins anew. -/
def apertureTook (ws : List (Nat × Word)) (x : Aperture) : Aperture :=
  let y : Aperture := if x.st = .filling then x else { st := .filling, count := 0, have0 := false, mem := [], reply := [] }
  { y with count := y.count + ws.length, have0 := y.have0 || ws.any (fun w => w.1 == 0),
           mem := ws.foldl (fun t w => Tbl.set t w.1 w.2) y.mem }

/-- The words of an aperture, those not written zero. -/
def apertureText (x : Aperture) : List Word := (List.range 1024).map (fun i => (Tbl.get? x.mem i).getD 0#32)

/-- Whether the count of words written has reached LENGTH, or LENGTH is out of range. -/
@[reducible] def apertureFull (x : Aperture) : Prop :=
  fld (wAt (apertureText x) 0) 16 16 < 2 ∨ 1024 < fld (wAt (apertureText x) 0) 16 16 ∨ fld (wAt (apertureText x) 0) 16 16 ≤ x.count

section
variable {auth ap off : Nat} {s : State} {x : Aperture} {ws : List (Nat × Word)}

/-- An aperture in the window takes the words of a write. -/
theorem hostWrite_aperture (hp : PortOpen s) (hap : ap < 5) (hoff : off < 0x1000) {wide : Bool} (halign : off % (if wide then 8 else 4) = 0)
    (rq v : Nat) : hostWrite auth rq (0x10000 + 0x1000 * ap + off) wide v s = apertureWords auth ap
      (if wide then [(off / 4, BitVec.ofNat 32 v), (off / 4 + 1, BitVec.ofNat 32 (v / 2 ^ 32))] else [(off / 4, BitVec.ofNat 32 v)]) s := by
  have hin : 0x10000 ≤ 0x10000 + 0x1000 * ap + off ∧ 0x10000 + 0x1000 * ap + off < 0x15000 := by omega
  have hword : (0x10000 + 0x1000 * ap + off) % 0x1000 = off := by omega
  have hno : (0x10000 + 0x1000 * ap + off - 0x10000) / 0x1000 = ap := by omega
  have haligned : ¬(0x10000 + 0x1000 * ap + off) % (if wide then 8 else 4) ≠ 0 := by
    cases wide <;> simp at halign ⊢ <;> omega
  simp only [hostWrite, hp.2, Bool.false_eq_true, if_false, if_neg haligned, if_pos hin, hword, hno]

theorem execApertureWrite_in (hap : ap < 5) (hoff : off < 0x1000) (rq : Nat) (wide : Bool) (data : DWord) :
    exec (.apertureWrite auth rq ap off wide data) s = evNext (hostWrite auth rq (0x10000 + 0x1000 * ap + off) wide data.toNat) s := by
  have hin : ¬(5 ≤ ap ∨ 0x1000 ≤ off) := by omega
  show evNext (fun t => if 5 ≤ ap ∨ 0x1000 ≤ off then t else hostWrite auth rq (0x10000 + 0x1000 * ap + off) wide data.toNat t) s = _
  simp only [if_neg hin]

/-- Aperture 4 takes no words below AUTH_LEVEL 3. -/
theorem apertureWords_insecure (hauth : auth ≠ 3) : apertureWords auth 4 ws s = s.evt CAP_ACC_ERR 0 := if_pos ⟨rfl, hauth⟩

section
variable (hauth : ap = 4 → auth = 3)
include hauth

theorem apertureWords_busy (hbusy : s.pil.booted = false ∨ (s.aperture ap).st = .busy) :
    apertureWords auth ap ws s = (s.inc PIL_BUSY_WR 1).evt PIL_EVT 6 :=
  (if_neg (fun h => h.2 (hauth h.1))).trans (if_pos hbusy)

section
variable (hboot : s.pil.booted = true) (hfree : (s.aperture ap).st ≠ .busy) (hx : x = apertureTook ws (s.aperture ap))
include hboot hfree hx

/-- The write that fills the aperture launches the command that its words spell. -/
theorem apertureWords_takes : apertureWords auth ap ws s =
    if x.have0 = true ∧ apertureFull x then
      runOpcode (fld (wAt (apertureText x) 0) 0 8) (cmdOf (.aperture ap) auth x.count (apertureText x)) (s.setAperture ap x)
    else s.setAperture ap x := by
  have hopen : ¬(s.pil.booted = false ∨ (s.aperture ap).st = .busy) := by simp [hboot, hfree]
  rw [hx]
  exact (if_neg (fun h => h.2 (hauth h.1))).trans (if_neg hopen)

theorem apertureWords_fills (hmore : x.have0 = false ∨ (2 ≤ fld (wAt (apertureText x) 0) 16 16 ∧
    fld (wAt (apertureText x) 0) 16 16 ≤ 1024 ∧ x.count < fld (wAt (apertureText x) 0) 16 16)) :
    apertureWords auth ap ws s = s.setAperture ap x := by
  refine (apertureWords_takes hauth hboot hfree hx).trans (if_neg ?_)
  rintro ⟨hhead, hfull⟩
  rcases hmore with hno | ⟨hmin, hmax, hcount⟩
  · exact Bool.false_ne_true (hno.symm.trans hhead)
  · rcases hfull with hshort | hlong | hreached <;> omega

theorem apertureWords_launches (hhead : x.have0 = true) (hfull : apertureFull x) : apertureWords auth ap ws s =
    runOpcode (fld (wAt (apertureText x) 0) 0 8) (cmdOf (.aperture ap) auth x.count (apertureText x)) (s.setAperture ap x) :=
  (apertureWords_takes hauth hboot hfree hx).trans (if_pos ⟨hhead, hfull⟩)

end

end

end

theorem quiet_setAperture {s : State} (hq : Quiet s) (a : Nat) (x : Aperture) : Quiet (s.setAperture a x) := hq

/-- Word 0 of an aperture lies at its offset 0. -/
theorem word0_iff {off : Nat} (halign : off % 4 = 0) : (off / 4 == 0) = (off == 0) := by
  rw [Bool.eq_iff_iff, beq_iff_eq, beq_iff_eq]
  omega

theorem apertureTook_word {off : Nat} (halign : off % 4 = 0) (w : Word) (x : Aperture) : apertureTook [(off / 4, w)] x =
    (let y : Aperture := if x.st = .filling then x else { st := .filling, count := 0, have0 := false, mem := [], reply := [] }
     { y with count := y.count + 1, have0 := y.have0 || off == 0, mem := Tbl.set y.mem (off / 4) w }) := by
  simp only [apertureTook, List.length_cons, List.length_nil, List.any_cons, List.any_nil, Bool.or_false, List.foldl_cons, List.foldl_nil,
    word0_iff halign]

theorem apertureTook_words {off : Nat} (halign : off % 4 = 0) (w w' : Word) (x : Aperture) : apertureTook [(off / 4, w), (off / 4 + 1, w')] x =
    (let y : Aperture := if x.st = .filling then x else { st := .filling, count := 0, have0 := false, mem := [], reply := [] }
     { y with count := y.count + 2, have0 := y.have0 || off == 0, mem := Tbl.set (Tbl.set y.mem (off / 4) w) (off / 4 + 1) w' }) := by
  have hnext : (off / 4 + 1 == 0) = false := rfl
  simp only [apertureTook, List.length_cons, List.length_nil, List.any_cons, List.any_nil, Bool.or_false, List.foldl_cons, List.foldl_nil,
    word0_iff halign, hnext]

/-- Settles O21: a write in the window is its words, and what they do turns on the aperture as they leave it. -/
theorem apertureWriteFillsAndLaunches : Obligations.ApertureWriteFillsAndLaunches := by
  refine ⟨fun auth rq ap off data s x words hp hap hauth hoff halign hboot hfree hx hwords => ?word,
    fun auth rq ap off data s x words hp hap hauth hoff halign hboot hfree hx hwords => ?words,
    fun auth rq ap off data s hp hap hauth hoff halign hbusy => ?busy, fun auth rq off data s hp hauth hoff halign => ?insecure⟩
  case word =>
    have hrow := hostWrite_aperture (auth := auth) (wide := false) hp hap hoff halign rq data.toNat
    have htook := hx.trans (apertureTook_word halign (BitVec.ofNat 32 data.toNat) (s.aperture ap)).symm
    rw [execApertureWrite_in hap hoff]
    have htext : words = apertureText x := by rw [hwords, apertureText]
    rw [htext]
    refine ⟨fun hmore => ?_, fun hhead hfull => ?_⟩
    · exact evNext_port hp (hrow.trans (apertureWords_fills hauth hboot hfree htook hmore)) (quiet_setAperture · ap x)
    · exact evNext_running hp.1 (hrow.trans (apertureWords_launches hauth hboot hfree htook hhead hfull))
  case words =>
    have hrow := hostWrite_aperture (auth := auth) (wide := true) hp hap hoff halign rq data.toNat
    have htook := hx.trans (apertureTook_words (by omega) (BitVec.ofNat 32 data.toNat) (BitVec.ofNat 32 (data.toNat / 2 ^ 32)) (s.aperture ap)).symm
    rw [execApertureWrite_in hap hoff]
    have htext : words = apertureText x := by rw [hwords, apertureText]
    rw [htext]
    refine ⟨fun hmore => ?_, fun hhead hfull => ?_⟩
    · exact evNext_port hp (hrow.trans (apertureWords_fills hauth hboot hfree htook hmore)) (quiet_setAperture · ap x)
    · exact evNext_running hp.1 (hrow.trans (apertureWords_launches hauth hboot hfree htook hhead hfull))
  case busy =>
    rw [execApertureWrite_in hap hoff, execApertureWrite_in hap hoff]
    have hrow := fun wide halign' => (hostWrite_aperture (auth := auth) (wide := wide) hp hap hoff halign' rq data.toNat).trans
      (apertureWords_busy hauth hbusy)
    exact ⟨evNext_port hp (hrow false halign) id, fun halign8 => evNext_port hp (hrow true halign8) id⟩
  case insecure =>
    rw [execApertureWrite_in (by decide) hoff]
    exact evNext_port hp ((hostWrite_aperture (wide := false) hp (by decide) hoff halign rq data.toNat).trans (apertureWords_insecure hauth)) id

end Sys2Proof.Proofs
end

section
/-! PROOFS. The resets and their releases (R405, R414, R515 to R519), Pilot's boot, and the changes of the power state (R447, R464, R465,
R555). -/

set_option autoImplicit false

namespace Sys2Proof.Proofs
open Sys2Proof Sys2Proof.Machine Sys2Proof.Laws

/-! ### Resets -/

/-- With no unit of the Logbook being written, ZY_PORST_N cuts nothing. -/
theorem logCut_idle {s : State} (h : s.log.writes = []) : logCut s = s := by
  have hlog : ({ s.log with writes := [] } : LogSt) = s.log := by rw [← h]
  show ({ s.each s.log.writes.reverse _ with log := _ } : State) = s
  rw [h, List.reverse_nil]
  show ({ s with log := { s.log with writes := [] } } : State) = s
  rw [hlog]

theorem build_logCut (s : State) : (logCut s).build = s.build := (keep_logCut (Kept.refl s)).1

theorem quiet_porstAssert (s : State) : Quiet (porstAssert s) := ⟨rfl, rfl⟩

section
variable {x : Straps} {s : State}

/-- What ZY_PORST_N's release makes of the block before its compute tier leaves reset: the straps are sampled, the bond map is applied and
the Logbook comes up. -/
def basePoweredOn (x : Straps) (s : State) : State :=
  logPowerOn ((({ s with pins := { s.pins with por := false, straps := x, memTrained := x.memTrained, lndUp := x.lndUp,
                                               tapOn := x.tapOn } } : State).setF CDC_BOND_STATUS 0 16
    ((List.range (bondGroups s.build)).filter (fun g => decide (1 ≤ (Tbl.get? s.otpBond g).getD 0) &&
      decide ((Tbl.get? s.otpBond g).getD 0 ≤ 32))).length).putB FLT_CTL 1 x.testMode)

theorem porstRelease_starts (hpor : s.pins.por = true) : porstRelease x s =
    if (basePoweredOn x s).pins.crst = true then basePoweredOn x s
    else ((basePoweredOn x s).bondBad { bad := x.bondBad }).elim (bondPasses (basePoweredOn x s)) (bondFails · (basePoweredOn x s)) := by
  refine (if_neg (by simp [hpor])).trans (congrArg (ite _ _) ?_)
  show (match (basePoweredOn x s).bondBad { bad := x.bondBad } with
    | some g => bondFails g (basePoweredOn x s)
    | none => bondPasses (basePoweredOn x s)) = _
  cases (basePoweredOn x s).bondBad { bad := x.bondBad } <;> rfl

section
variable (hpor : s.pins.por = true) (hcrst : (basePoweredOn x s).pins.crst = false)
include hpor hcrst

theorem porstRelease_passes (hbond : (basePoweredOn x s).bondBad { bad := x.bondBad } = none) :
    porstRelease x s = bondPasses (basePoweredOn x s) := by
  rw [porstRelease_starts hpor, if_neg (Bool.eq_false_iff.1 hcrst), hbond, Option.elim_none]

theorem porstRelease_fails {g : Nat} (hbond : (basePoweredOn x s).bondBad { bad := x.bondBad } = some g) :
    porstRelease x s = bondFails g (basePoweredOn x s) := by
  rw [porstRelease_starts hpor, if_neg (Bool.eq_false_iff.1 hcrst), hbond, Option.elim_some]

end

theorem crstAssert_released (hpor : s.pins.por = false) (hcrst : s.pins.crst = false) : crstAssert s =
    let t : State := ({ s with pins := { s.pins with crst := true }, plm := { s.plm with goal := none } } : State).putB PLM_POWER 3 false
    if s.powerState = 2 then t else computeLost false (epochsAsleep t) :=
  if_neg (by simp [hpor, hcrst])

/-- A tier that a request put into SLEEP stays there as ZY_CRST_N rises; any other comes up. -/
theorem crstRelease_comesUp {bond : BondTest} (hpor : s.pins.por = false) (hcrst : s.pins.crst = true)
    (hup : s.powerState = 2 → s.bondFail = true) : crstRelease bond s =
    tierUp bond ((({ s with pins := { s.pins with crst := false } } : State).putB PLM_POWER 2 false).setF PLM_POWER 4 2 0) := by
  have hheld : ¬(s.pins.por = true ∨ s.pins.crst = false) := by simp [hpor, hcrst]
  have hsleeps : ¬(s.powerState = 2 ∧ s.bondFail = false) := fun ⟨h2, hok⟩ => Bool.false_ne_true (hok.symm.trans (hup h2))
  exact (if_neg hheld).trans (if_neg hsleeps)

theorem hrstAssert_inReset (hpor : s.pins.por = true) : hrstAssert s = { s with pins := { s.pins with hrst := true } } := if_pos hpor

end

/-- Settles O22: each pin's edge, in the branch of the levels of the others. -/
theorem resetsComplete : Obligations.ResetsComplete := by
  refine ⟨fun s t v ht hv => ?porst, fun s h => logCut_idle h,
    fun x s v n hpor hn hv => ?release, fun s t hpor ht => ?hrst, fun s hq => ?hrstUp, fun s t hpor hcrst ht => ?crst,
    fun s hpor => congrArg (fun u => Host.Outcome.next (finish u)) (hrstAssert_inReset hpor),
    fun bond s hpor hcrst hup => congrArg (fun u => Host.Outcome.next (finish u)) (crstRelease_comesUp hpor hcrst hup)⟩
  case porst =>
    rw [ht, hv, ← build_logCut s]
    exact congrArg Host.Outcome.next (finish_quiet (quiet_porstAssert s))
  case release =>
    rw [hn] at hv
    have hbase : v = basePoweredOn x s := hv
    subst hbase
    have hstep : ∀ u, porstRelease x s = u → exec (.zyPorstNRelease x) s = .next (finish u) :=
      fun u hu => congrArg (fun w => Host.Outcome.next (finish w)) hu
    exact ⟨fun hheld => hstep _ ((porstRelease_starts hpor).trans (if_pos hheld)),
      fun hcrst hbond => hstep _ (porstRelease_passes hpor hcrst hbond),
      fun g hcrst hbond => hstep _ (porstRelease_fails hpor hcrst hbond)⟩
  case hrst =>
    subst ht
    exact congrArg (fun u => Host.Outcome.next (finish u)) (if_neg (Bool.eq_false_iff.1 hpor))
  case hrstUp =>
    have hquiet : Quiet (hrstRelease s) := hq
    exact congrArg Host.Outcome.next (finish_quiet hquiet)
  case crst =>
    subst ht
    exact congrArg (fun u => Host.Outcome.next (finish u)) (crstAssert_released hpor hcrst)

/-! ### Power states -/

section
variable {s : State}

/-- An event outside reset is its effect and the step's end. -/
theorem evNext_at {f : State → State} {t : State} (hpor : s.pins.por = false) (hf : f s = t) : evNext f s = .next (finish t) := by
  rw [evNext_up hpor, hf]

theorem graceLeft_iff : s.graceLeft = true ↔ ∃ n, n < 64 ∧ fltCompute n = true ∧ s.fltState n = 1 := by
  simp only [State.graceLeft, List.any_eq_true, List.mem_range, Bool.and_eq_true, beq_iff_eq]

theorem graceLeft_none (h : ∀ n, n < 64 → fltCompute n = true → s.fltState n ≠ 1) : s.graceLeft = false := by
  rw [← Bool.not_eq_true, graceLeft_iff]
  rintro ⟨n, hn, hcompute, hgrace⟩
  exact h n hn hcompute hgrace

theorem entryClear_iff : s.entryClear = true ↔
    s.cad.pass = none ∧ s.trn.pass = none ∧ s.wit.run = none ∧ s.wit.selfRun = none ∧ s.graceLeft = false := by
  simp only [State.entryClear, Bool.and_eq_true, Option.isNone_iff_eq_none, Bool.not_eq_true', and_assoc]

theorem computeActive_iff : s.computeActive = true ↔ s.powerState = 0 ∧ s.pins.crst = false := by
  simp only [State.computeActive, Bool.and_eq_true, beq_iff_eq, Bool.not_eq_true']

/-- An entry begins once what has begun has ended. -/
theorem powerEntry_enters {t : Nat} (hgoal : s.plm.goal = some t) (ht : t ≠ 0) (hactive : s.computeActive = true)
    (hclear : s.entryClear = true) : powerEntry s =
    let w := wakPowerDown (t == 2) s
    let v := epochsAsleep (requeueJobs false (holdWork (flushEnd w)))
    if w.flushWaits then w else endTransition t (if t = 2 then computeLost true v else v) := by
  have hready : ¬(t = 0 ∨ s.computeActive = false ∨ s.entryClear = false) := by simp [ht, hactive, hclear]
  simp only [powerEntry, hgoal]
  exact if_neg hready

theorem powerEntry_waits (h : s.plm.goal = none ∨ s.plm.goal = some 0 ∨ s.computeActive = false ∨ s.entryClear = false) :
    powerEntry s = s := by
  unfold powerEntry
  split
  next => rfl
  next t hgoal =>
    rw [hgoal, Option.some.injEq] at h
    exact if_pos (h.resolve_left (by simp))

section
variable {bond : BondTest} (hgoal : s.plm.goal = some 0) (hcrst : s.pins.crst = false)
include hgoal hcrst

theorem powerExit_sleep (hsleep : s.powerState = 2) : powerExit bond s = tierUp bond s := by
  have hgo : ¬(s.plm.goal ≠ some 0 ∨ s.powerState = 0 ∨ s.pins.crst = true) := by simp [hgoal, hsleep, hcrst]
  exact (if_neg hgo).trans (if_pos hsleep)

theorem powerExit_doze (hoff : s.powerState ≠ 0) (hdoze : s.powerState ≠ 2) : powerExit bond s = nowActive s.wak.downSleep s := by
  have hgo : ¬(s.plm.goal ≠ some 0 ∨ s.powerState = 0 ∨ s.pins.crst = true) := by simp [hgoal, hoff, hcrst]
  exact (if_neg hgo).trans (if_neg hdoze)

end

/-- The tier's bonds as its exit finds them. -/
def bondsFound (bond : BondTest) (s : State) : State :=
  { s with pins := { s.pins with straps := { s.pins.straps with bondBad := bond.bad } } }

theorem tierUp_fails {bond : BondTest} {g : Nat} (h : (bondsFound bond s).bondBad bond = some g) :
    tierUp bond s = bondFails g (bondsFound bond s) := by
  unfold tierUp
  show (match (bondsFound bond s).bondBad bond with
    | some g => bondFails g (bondsFound bond s)
    | none => nowActive true (bondPasses (bondsFound bond s))) = _
  rw [h]

theorem tierUp_passes {bond : BondTest} (h : (bondsFound bond s).bondBad bond = none) :
    tierUp bond s = nowActive true (bondPasses (bondsFound bond s)) := by
  unfold tierUp
  show (match (bondsFound bond s).bondBad bond with
    | some g => bondFails g (bondsFound bond s)
    | none => nowActive true (bondPasses (bondsFound bond s))) = _
  rw [h]

section
variable (hcrst : s.pins.crst = false)
include hcrst

theorem dozeSleep_enters (hdoze : s.powerState = 1) (hgoal : s.plm.goal = some 2) (hgrace : s.graceLeft = false) :
    dozeSleep s = if (wakDozeSleep s).flushWaits then wakDozeSleep s else endTransition 2 (computeLost true (wakDozeSleep s)) :=
  (if_neg (Bool.eq_false_iff.1 hcrst)).trans ((if_pos ⟨hdoze, hgoal⟩).trans (if_neg (Bool.eq_false_iff.1 hgrace)))

theorem dozeSleep_tests (hsleep : s.powerState = 2) (hgoal : s.plm.goal = some 1) : dozeSleep s =
    (s.bondBad { bad := s.pins.straps.bondBad }).elim (endTransition 1 (bondPasses s)) (bondFails · s) := by
  have hfirst : ¬(s.powerState = 1 ∧ s.plm.goal = some 2) := by simp [hsleep]
  refine (if_neg (Bool.eq_false_iff.1 hcrst)).trans ((if_neg hfirst).trans ((if_pos ⟨hsleep, hgoal⟩).trans ?_))
  cases s.bondBad { bad := s.pins.straps.bondBad } <;> rfl

end

/-- A change that is not asked for, or that a source in GRACE holds back, leaves the block as it is. -/
theorem dozeSleep_waits (h : s.pins.crst = true ∨ ¬(s.powerState = 1 ∧ s.plm.goal = some 2) ∧ ¬(s.powerState = 2 ∧ s.plm.goal = some 1) ∨
    s.powerState = 1 ∧ s.graceLeft = true) : dozeSleep s = s := by
  unfold dozeSleep
  by_cases hcrst : s.pins.crst = true
  · exact if_pos hcrst
  · rw [if_neg hcrst]
    rcases h.resolve_left hcrst with ⟨hdown, hup⟩ | ⟨hdoze, hgrace⟩
    · rw [if_neg hdown, if_neg hup]
    · by_cases hdown : s.powerState = 1 ∧ s.plm.goal = some 2
      · rw [if_pos hdown, if_pos hgrace]
      · have hup : ¬(s.powerState = 2 ∧ s.plm.goal = some 1) := by simp [hdoze]
        rw [if_neg hdown, if_neg hup]

theorem quiesceRelease_ends {u : FltUnit} {t : State} (hmem : u ∈ s.flt.quiesced)
    (ht : t = { s with flt := { s.flt with quiesced := s.flt.quiesced.filter (· != u) } }) : quiesceRelease u s =
    if u = .cadastre ∧ s.computeActive = true then reloadAsk t else if u = .transit ∧ s.computeActive = true then trnReloadAsk t else t := by
  have hheld : ¬ s.quiesced u = false := by simp [State.quiesced, hmem]
  subst ht
  refine (if_neg hheld).trans ?_
  cases u <;> simp only [reduceCtorEq, false_and, true_and, if_false] <;> rfl

theorem quiesceRelease_none {u : FltUnit} (hnone : u ∉ s.flt.quiesced) : quiesceRelease u s = s :=
  if_pos (by simpa [State.quiesced] using hnone)

end

/-- Settles O23: each row in the branch of the state of the tier and of what is asked of it. -/
theorem powerChangesComplete : Obligations.PowerChangesComplete := by
  refine ⟨fun s hr => evNext_quiet hr.1 rfl hr.2, fun s t v hpor hgoal ht hstate hcrst hcad htrn hrun hself hgrace w hw hv => ?entry,
    fun s hr hwaits => evNext_unchanged hr (powerEntry_waits ?entryWaits),
    fun bond s v hpor hgoal hsleep hcrst hv => ⟨fun g hbad => ?exitFails, fun hgood => ?exitPasses⟩,
    fun bond s hpor hgoal hoff hdoze hcrst => evNext_at hpor (powerExit_doze hgoal hcrst hoff hdoze),
    fun bond s hr hno => evNext_unchanged hr (if_pos hno),
    fun s hpor hcrst hdoze hgoal hgrace w hw => ?deeper,
    fun s hpor hcrst hsleep hgoal => ⟨fun g hbad => ?lighterFails, fun hgood => ?lighterPasses⟩,
    fun s hr hwaits => evNext_unchanged hr (dozeSleep_waits ?dozeWaits),
    fun u s t hpor hmem ht => evNext_at hpor (quiesceRelease_ends hmem ht),
    fun u s hr hnone => evNext_unchanged hr (quiesceRelease_none hnone), fun i u bond s hi hpor => ?inReset⟩
  case entry =>
    have hclear : s.entryClear = true := entryClear_iff.2 ⟨hcad, htrn, hrun, hself, graceLeft_none hgrace⟩
    subst hw hv
    exact evNext_at hpor (powerEntry_enters hgoal ht (computeActive_iff.2 ⟨hstate, hcrst⟩) hclear)
  case entryWaits =>
    refine hwaits.imp_right (Or.imp_right (Or.imp_right fun hbusy => ?_))
    rw [← Bool.not_eq_true, entryClear_iff]
    rintro ⟨hcad, htrn, hrun, hself, hgrace⟩
    rcases hbusy with h | h | h | h | h
    · exact h hcad
    · exact h htrn
    · exact h hrun
    · exact h hself
    · exact Bool.false_ne_true (hgrace.symm.trans (graceLeft_iff.2 h))
  case exitFails =>
    subst hv
    exact evNext_at hpor ((powerExit_sleep hgoal hcrst hsleep).trans (tierUp_fails hbad))
  case exitPasses =>
    subst hv
    exact evNext_at hpor ((powerExit_sleep hgoal hcrst hsleep).trans (tierUp_passes hgood))
  case deeper =>
    subst hw
    exact evNext_at hpor (dozeSleep_enters hcrst hdoze hgoal (graceLeft_none hgrace))
  case lighterFails => exact evNext_at hpor ((dozeSleep_tests hcrst hsleep hgoal).trans (by rw [hbad, Option.elim_some]))
  case lighterPasses => exact evNext_at hpor ((dozeSleep_tests hcrst hsleep hgoal).trans (by rw [hgood, Option.elim_none]; rfl))
  case dozeWaits => exact hwaits.imp_right (Or.imp_right (And.imp_right graceLeft_iff.2))
  case inReset =>
    simp only [List.mem_cons, List.not_mem_nil, or_false] at hi
    rcases hi with rfl | rfl | rfl | rfl | rfl <;> exact evNext_por hpor

end Sys2Proof.Proofs
end

section
/-! PROOFS. The fault lines, recovery, crossings and ports (R440 to R457, R525, R539, R541, R543), leave (R433, R434), and the events of
Plumb and the Logbook (R468 to R472, R477, R531). -/

set_option autoImplicit false

namespace Sys2Proof.Proofs
open Sys2Proof Sys2Proof.Machine Sys2Proof.Laws

/-! ### A rising edge of a source (R443, R444) -/

section
variable {n : Nat} {t : State} (hexists : fltExists t.build n = true) (hlive : t.lineLive n = true)
include hexists hlive

theorem edge_seen : ¬(fltExists t.build n = false ∨ t.lineLive n = false) := by simp [hexists, hlive]

/-- Class C: the source is counted and corrected. -/
theorem faultEdge_corrected (hclass : t.fltClass n = 0) :
    faultEdge n t = rateNote 1 ((t.inc (FLT_SRC_COUNT n) 1).inc FLT_CORRECTED 1) :=
  (if_neg (edge_seen hexists hlive)).trans (if_pos hclass)

section
variable (hclass : t.fltClass n ≠ 0)
include hclass

/-- While the grace runs an edge is nothing more. -/
theorem faultEdge_inGrace (hstate : t.fltState n = 1) : faultEdge n t = t :=
  (if_neg (edge_seen hexists hlive)).trans ((if_neg hclass).trans (if_pos hstate))

/-- A source that has escalated restarts the quiet time. -/
theorem faultEdge_escalated (hstate : t.fltState n = 2) : faultEdge n t = (quietRestart t).inc (FLT_SRC_COUNT n) 1 := by
  have hgrace : ¬ t.fltState n = 1 := by omega
  exact (if_neg (edge_seen hexists hlive)).trans ((if_neg hclass).trans ((if_neg hgrace).trans (if_pos hstate)))

/-- A source that is IDLE starts its grace, or escalates. -/
theorem faultEdge_latches (hstate : t.fltState n = 0) : faultEdge n t =
    if t.fltClass n = 1 then
      let w := setFltState n 1 (latchFault n t)
      { w with flt := { w.flt with graceEnd := Tbl.set w.flt.graceEnd n (t.dat.edges + t.getF (FLT_SRC_CFG n) 0 20 * 1250) } }
    else escalate n (latchFault n t) := by
  have hgrace : ¬ t.fltState n = 1 := by omega
  have hesc : ¬ t.fltState n = 2 := by omega
  exact (if_neg (edge_seen hexists hlive)).trans ((if_neg hclass).trans ((if_neg hgrace).trans (if_neg hesc)))

end

end

/-! ### The line of a source (R440, R441, R457) -/

/-- A line's crossing has completed, and its level and its pair are as the row says. -/
def lineSet (n : Nat) (held : Bool) (s : State) : State :=
  { s with flt := { s.flt with
      stuck := s.flt.stuck &&& (2 ^ 64 - 1 - (if fltCompute n then fltComputeMask else 2 ^ n)),
      lines := setFld s.flt.lines n 1 (b2n held), badPairs := setFld s.flt.badPairs n 1 0 } }

section
variable {n : Nat} {held : Bool} {s : State} (hexists : fltExists s.build n = true)
include hexists

/-- A line that was not asserted, by a pair that was valid, rises. -/
theorem faultLine_rises (hline : bit s.flt.lines n = false) (hstuck : bit s.flt.stuck n = false)
    (hpair : bit s.flt.badPairs n = false ∨ held = true) : faultLine n held s = faultEdge n (lineSet n held s) := by
  have hwas : ¬ (bit s.flt.lines n || bit s.flt.stuck n || (bit s.flt.badPairs n && !held)) = true := by
    rcases hpair with hpair | hpair <;> simp [hline, hstuck, hpair]
  exact (if_neg (by simp [hexists])).trans (if_neg hwas)

/-- One that stood asserted, or whose pair was invalid, has no edge. -/
theorem faultLine_stands (hwas : bit s.flt.lines n = true ∨ bit s.flt.stuck n = true ∨ bit s.flt.badPairs n = true ∧ held = false) :
    faultLine n held s = lineSet n held s := by
  have hstood : (bit s.flt.lines n || bit s.flt.stuck n || (bit s.flt.badPairs n && !held)) = true := by
    rcases hwas with h | h | ⟨hbad, hfell⟩
    · simp [h]
    · simp [h]
    · simp [hbad, hfell]
  exact (if_neg (by simp [hexists])).trans (if_pos hstood)

end

/-- A line's row: line 8 is Pilot's own error first. -/
theorem evNext_line {n : Nat} {held : Bool} {s u t : State} (hr : Running s) (hu : (if n = 8 then pilotErrs s else s) = u)
    (ht : faultLine n held u = t) : exec (.faultLineRise n held) s = .next (finish t) :=
  evNext_running hr (by rw [hu, ht])

theorem pilotErrs_idle {s : State} (h : ∀ j ∈ s.pil.jobs, j.async = true) : pilotErrs s = s := by
  have hnone : s.pil.jobs.find? (fun j => !j.async) = none := List.find?_eq_none.2 fun j hj => by simp [h j hj]
  simp only [pilotErrs, hnone]

theorem pilotErrs_other {n : Nat} {s : State} (h : n = 8 → ∀ j ∈ s.pil.jobs, j.async = true) : (if n = 8 then pilotErrs s else s) = s := by
  split
  next h8 => exact pilotErrs_idle (h h8)
  next => rfl

theorem pilotErrs_ends {s : State} {j : Job} (h : s.pil.jobs.find? (fun x => !x.async) = some j) :
    pilotErrs s = deliverFinal j 0x3F [] ((dropLoading j (s.each (jobLeaves j.id) releaseLeave)).evt PIL_EVT 10) := by
  simp only [pilotErrs, h]
  rfl

/-! ### A pair found invalid (R441), the end of a grace (R444) -/

/-- What R441 latches of a pair found invalid. -/
def pairLatched (n : Nat) (lasting : Bool) (s : State) : State :=
  let t : State := { s with flt := { s.flt with badPairs := setFld s.flt.badPairs n 1 (b2n lasting) } }
  logEvent 0x12 [BitVec.ofNat 8 n] (((t.wr FLT_WIRE (setBit (t.rd FLT_WIRE) n)).evt FLT_EVT 2).putB (FLT_SRC_STATE n) 28 true)

/-- A source that escalated stays escalated, as a pin fault. -/
def pinHeld (n : Nat) (v : State) : State :=
  let w := (quietRestart v).inc (FLT_SRC_COUNT n) 1
  fltApply { w with flt := { w.flt with escalated := Tbl.set w.flt.escalated n (2, 1) } }

theorem pairInvalid_latches {n : Nat} {lasting : Bool} {s v : State} (htray : s.isTray = true) (hn : n < 64) (hv : v = pairLatched n lasting s) :
    pairInvalid n lasting s = if v.fltState n = 2 then pinHeld n v else if v.fltState n = 1 then escalate n v else escalate n (latchFault n v) := by
  subst hv
  exact if_neg (by simp [htray, hn])

theorem graceExpiry_escalates {n : Nat} {s : State} (hgrace : s.fltState n = 1) (hover : (Tbl.get? s.flt.graceEnd n).getD 0 ≤ s.dat.edges) :
    graceExpiry n s = escalate n s :=
  if_pos ⟨hgrace, decide_eq_true hover⟩

/-! The collector's steps queue nothing before an escalation. -/

theorem quiet_lineSet {s : State} (hq : Quiet s) (n : Nat) (held : Bool) : Quiet (lineSet n held s) := hq
theorem quiet_rateNote {s : State} (hq : Quiet s) (k : Nat) : Quiet (rateNote k s) := hq
theorem quiet_quietRestart {s : State} (hq : Quiet s) : Quiet (quietRestart s) := hq
theorem quiet_withFlt {s : State} (hq : Quiet s) (f : FaultSt) : Quiet { s with flt := f } := hq

theorem quiet_putStatus {s : State} (hq : Quiet s) (n : Nat) (b : Bool) : Quiet (putStatus n b s) := by
  unfold putStatus
  split
  · exact quiet_putB hq _ _ _
  · exact quiet_putB hq _ _ _

theorem quiet_latchFault {s : State} (hq : Quiet s) (n : Nat) : Quiet (latchFault n s) :=
  quiet_rateNote (quiet_evt (quiet_inc (quiet_putStatus (quiet_quietRestart hq) n true) _ _) _ _) 2

theorem quiet_setFltState {s : State} (hq : Quiet s) (n st : Nat) : Quiet (setFltState n st s) := quiet_setF hq _ _ _ _

/-- Settles O24: what a line's row sets, then its edge by class and state; a pair's latch, then its escalation. -/
theorem faultEventsComplete : Obligations.FaultEventsComplete := by
  refine ⟨fun n held s t hr hexists hline hstuck hpair h8 ht hlive => ?rises, fun n held s hr hexists h8 hwas => ?stands,
    fun held s j hr hjob => evNext_line hr ((if_pos rfl).trans (pilotErrs_ends hjob)) rfl,
    fun n lasting s t v hr htray hn ht hv => ?pair,
    fun n s hr hgrace hover => evNext_running hr (graceExpiry_escalates hgrace hover)⟩
  case rises =>
    have hset : t = lineSet n held s := ht
    have hseen : fltExists t.build n = true := by rw [hset]; exact hexists
    have hrow : ∀ u, faultEdge n t = u → exec (.faultLineRise n held) s = .next (finish u) := fun u hu =>
      evNext_line hr (pilotErrs_other h8) ((faultLine_rises hexists hline hstuck hpair).trans (by rw [← hset, hu]))
    have hq : Quiet t := hset ▸ quiet_lineSet hr.2 n held
    have hstep : ∀ u, faultEdge n t = u → Quiet u → exec (.faultLineRise n held) s = .next u := fun u hu hqu =>
      (hrow u hu).trans (congrArg _ (finish_quiet hqu))
    refine ⟨fun hclass => ?_, fun hclass hstate v hv => ?_, fun hclass hstate => ?_, fun hclass hstate => ?_, fun hclass hstate => ?_⟩
    · exact hstep _ (faultEdge_corrected hseen hlive hclass) (quiet_rateNote (quiet_inc (quiet_inc hq _ _) _ _) 1)
    · have hnot : t.fltClass n ≠ 0 := by omega
      subst hv
      exact hstep _ ((faultEdge_latches hseen hlive hnot hstate).trans (if_pos hclass))
        (quiet_withFlt (quiet_setFltState (quiet_latchFault hq n) n 1) _)
    · have hnot : t.fltClass n ≠ 0 := by omega
      have hfatal : ¬ t.fltClass n = 1 := by omega
      exact hrow _ ((faultEdge_latches hseen hlive hnot hstate).trans (if_neg hfatal))
    · exact hstep _ (faultEdge_inGrace hseen hlive hclass hstate) hq
    · exact hstep _ (faultEdge_escalated hseen hlive hclass hstate) (quiet_inc (quiet_quietRestart hq) _ _)
  case stands =>
    exact (evNext_line hr (if_neg h8) (faultLine_stands hexists hwas)).trans (congrArg _ (finish_quiet (quiet_lineSet hr.2 n held)))
  case pair =>
    have hlatched : v = pairLatched n lasting s := by rw [hv, ht]; rfl
    have hown := pairInvalid_latches htray hn hlatched
    refine ⟨fun hstate => ?_, fun hstate => ?_, fun hstate w hw => ?_⟩
    · exact evNext_running hr (hown.trans ((if_neg (by omega)).trans (if_neg (by omega))))
    · exact evNext_running hr (hown.trans ((if_neg (by omega)).trans (if_pos hstate)))
    · subst hw
      exact evNext_running hr (hown.trans (if_pos hstate))

/-! ### Recovery (R451) -/

theorem quietExpiry_recovers {s t : State} (hdegraded : s.getB FLT_STATE 0 = true)
    (hlines : ∀ n, n < 64 → s.fltLine n = false ∧ bit s.flt.badPairs n = false) (hclass : ∀ e ∈ s.flt.escalated, e.2.1 ≠ 2)
    (hwire : s.rd FLT_WIRE = 0) (hquiet : s.flt.quietFrom + s.getF FLT_CTL 16 16 * 1250000 ≤ s.dat.edges)
    (ht : t = (s.each (Tbl.keys s.flt.escalated) withdraw).putB FLT_STATE 0 false) :
    quietExpiry s = logEvent 0x11 (leBytes 8 ((Tbl.keys s.flt.escalated).foldl (fun m n => setBit m n) 0))
      ((t.inc FLT_RECOVERIES 1).evt FLT_EVT 3) := by
  have hhealthy : (List.range 64).all (fun n => !(s.fltLine n || bit s.flt.badPairs n)) = true :=
    List.all_eq_true.2 fun n hn => by simp [(hlines n (List.mem_range.1 hn)).1, (hlines n (List.mem_range.1 hn)).2]
  have hnofatal : s.flt.escalated.all (fun e => e.2.1 != 2) = true := List.all_eq_true.2 fun e he => bne_iff_ne.2 (hclass e he)
  have hok : s.quietOk = true := by
    simp only [State.quietOk, hdegraded, hhealthy, hnofatal, hwire, hquiet, decide_true, Bool.and_self, beq_self_eq_true]
  subst ht
  exact if_pos hok

/-! ### Crossings (R455 to R457) -/

theorem cdcTimeout_none {x : Nat} {s : State} (h : crossKind s.build x = none) : cdcTimeout x s = s := by
  simp only [cdcTimeout, h]

theorem cdcTimeout_handshake {x : Nat} {s : State} (h : crossKind s.build x = some .handshake) :
    cdcTimeout x s = (cdcTimed x s).emit (.crossed x 0) := by
  simp only [cdcTimeout, h]

theorem cdcTimeout_other {x : Nat} {s : State} (h : crossKind s.build x = some .fifo ∨ crossKind s.build x = some .event) :
    cdcTimeout x s = cdcTimed x s := by
  rcases h with h | h <;> simp only [cdcTimeout, h]

/-! ### Ports (R525, R539, R541, R543) -/

section
variable {s : State} (htray : s.isTray = true)
include htray

theorem holdReadError_counts {p : Nat} (hp : p < 12) : holdReadError p s = faultLine 35 false
    ((({ s with pins := { s.pins with rerr := setBit s.pins.rerr p } } : State).inc HLD_RERR 1).evt HLD_EVT 0) := by
  have hport : ¬(s.isTray = false ∨ 12 ≤ p) := by simp [htray, hp]
  refine (if_neg hport).trans (congrArg (faultLine 35 false) ?_)
  exact if_pos htray

theorem holdTrainingLoss_loses {p : Nat} (hp : p < 12) (htrained : bit s.pins.memTrained p = true) : holdTrainingLoss p s =
    faultLine 36 false (({ s with pins := { s.pins with memTrained := clrBit s.pins.memTrained p } } : State).evt HLD_EVT 1) :=
  if_neg (by simp [htray, hp, htrained])

theorem landingDown_drops {st : Nat} (hst : st < 2) (hup : bit s.pins.lndUp st = true) : landingDown st s =
    faultLine 37 false { s with pins := { s.pins with lndUp := clrBit s.pins.lndUp st } } :=
  if_neg (by simp [htray, hst, hup])

end

/-- Settles O25: each row's own part under its conditions. -/
theorem recoveryAndPortEventsComplete : Obligations.RecoveryAndPortEventsComplete := by
  refine ⟨fun s t hr hdegraded hlines hclass hwire hquiet ht =>
      evNext_running hr (quietExpiry_recovers hdegraded hlines hclass hwire hquiet ht),
    fun x s t v w hr ht hv hw => ⟨fun hnone => evNext_unchanged hr (cdcTimeout_none hnone), fun hhand => ?handshake, fun hother => ?other⟩,
    fun s hr hleaf => evNext_running hr (if_neg (Bool.eq_false_iff.1 hleaf)),
    fun p s hr htray hp => evNext_running hr (holdReadError_counts htray hp),
    fun p s hr htray hp htrained => evNext_running hr (holdTrainingLoss_loses htray hp htrained),
    fun st s hr htray hst hup => evNext_running hr (landingDown_drops htray hst hup)⟩
  case handshake =>
    subst ht hv hw
    exact evNext_running hr (cdcTimeout_handshake hhand)
  case other =>
    subst ht hv hw
    exact evNext_running hr (cdcTimeout_other hother)

/-! ### Leave (R433, R434) -/

theorem leaveGrant_grants {r : LeaveReq} {rs : List LeaveReq} {s : State} (hqueue : s.adm.queue = r :: rs) : leaveGrant s =
    let v := admPresent (({ s with adm := { s.adm with queue := rs, held := s.adm.held ++ [⟨r.purpose, r.amt, r.since⟩],
                                                       gntAt := some s.dat.edges } } : State).maxR PWR_WAIT_MAX ((s.dat.edges - r.since) / 1250))
    { v with todo := v.todo ++ [.leaveGranted r.purpose] } := by
  simp only [leaveGrant, hqueue]
  rfl

theorem leaveExpiry_refuses {r : LeaveReq} {rs : List LeaveReq} {s : State} (hqueue : s.adm.queue = r :: rs) : leaveExpiry s =
    admPresent ((refuseLeave r.purpose true { s with adm := { s.adm with queue := rs.filter (fun x => !(s.waitOver r x)) } }).each
      (rs.filter (s.waitOver r)) (fun x t => refuseLeave x.purpose true t)) := by
  simp only [leaveExpiry, hqueue]

/-- Settles O26: the first of the queue is granted, or refused with those whose waits end with its own. -/
theorem leaveEventsComplete : Obligations.LeaveEventsComplete := by
  refine ⟨fun r rs s t hr hqueue ht => ?granted, fun r rs s late hr hqueue hlate => ?refused⟩
  case granted =>
    subst ht
    exact evNext_running hr (leaveGrant_grants hqueue)
  case refused =>
    subst hlate
    exact evNext_running hr (leaveExpiry_refuses hqueue)

/-! ### Plumb (R468 to R472, R531) -/

theorem sampleTick_asks {ch : Nat} {s : State} (hch : ch < 16) (hon : s.getB (PLM_CH_CFG ch) 31 = true) : sampleTick ch s =
    ({ s with plm := { s.plm with
      waiting := if s.plm.waiting.contains ch then s.plm.waiting else s.plm.waiting ++ [ch] } } : State).emit (.sample ch) :=
  if_pos ⟨hch, hon⟩

/-- What an awaited sample makes of a channel. -/
def sampleTaken (ch data : Nat) (xs : List Nat) (s : State) : State :=
  (({ s with plm := { s.plm with raw := Tbl.set s.plm.raw ch xs, waiting := s.plm.waiting.filter (· != ch) } } : State).wr
      (PLM_CH_RAW ch) (data % 65536)).wr
    (PLM_CH_FILT ch) (if (Tbl.get? s.plm.raw ch).getD [] = [] then median5 xs * 256
      else ofInt 24 ((s.getF (PLM_CH_FILT ch) 0 24 : Int) + ((median5 xs * 256 : Nat) - (s.getF (PLM_CH_FILT ch) 0 24 : Int)) /
        (2 ^ s.getF (PLM_CH_CFG ch) 24 4 : Nat)))

theorem quiet_sampleTaken {s : State} (hq : Quiet s) (ch data : Nat) (xs : List Nat) : Quiet (sampleTaken ch data xs s) := hq

theorem sampleAnswer_takes {ch data : Nat} {s : State} {xs : List Nat} (hwaits : ch ∈ s.plm.waiting)
    (hxs : xs = (data % 65536 :: (Tbl.get? s.plm.raw ch).getD []).take 5) : sampleAnswer ch data s = sampleTaken ch data xs s := by
  have hasked : s.plm.waiting.contains ch = true := by simpa using hwaits
  subst hxs
  exact if_pos hasked

theorem ruleFireDue_fires {r : Nat} {s : State} (hrule : r < 32) (hon : s.getB (PLM_RULE_CFG0 r) 31 = true)
    (hnot : s.getF (PLM_RULE_STATE r) 30 2 ≠ 2) (hholds : s.ruleHolds r = true)
    (hdwell : s.getF (PLM_RULE_CFG0 r) 0 16 ≤ (if s.getF (PLM_RULE_STATE r) 30 2 = 0 then 1 else s.getF (PLM_RULE_STATE r) 0 16 + 1)) :
    ruleFireDue r s = ruleFire r s :=
  if_pos ⟨hrule, hon, hnot, hholds, hdwell⟩

theorem ruleGapAlarm_repeats {r : Nat} {s : State} (hrule : r < 32) (hfired : s.getF (PLM_RULE_STATE r) 30 2 = 2)
    (hholds : s.ruleHolds r = true) (halarm : s.getB (PLM_RULE_CFG0 r) 26 = true)
    (hgap : s.getF (PLM_RULE_CFG1 r) 16 16 * 100 ≤ (Tbl.get? s.plm.gap r).getD 0 + 1) : ruleGapAlarm r s = ruleAlarm r s :=
  if_pos ⟨hrule, hfired, hholds, halarm, hgap⟩

/-- The sample that a histogram takes at a tick of life. -/
theorem lifeTick_samples (s : State) : lifeTick s =
    let t := s.wr PLM_OPTIME (min (s.rd PLM_OPTIME + 1) (2 ^ 32 - 1))
    writeAccum (writeIdentity { t with log := { t.log with
      rates := [],
      hist := t.log.hist.map (fun e => (e.1, if e.2.kind = 1 then e.2.sample (t.plmValue e.2.source)
        else e.2.sample ((Tbl.get? t.log.rates e.2.source).getD 0))) } }) := rfl

theorem logEventWrite_writes {e : LogEvent} {es : List LogEvent} {s : State} (hqueue : s.log.queue = e :: es) :
    logEventWrite s = writeEvent e { s with log := { s.log with queue := es } } := by
  simp only [logEventWrite, hqueue]

/-- Settles O27: each row's own part under its conditions. -/
theorem plumbLogEventsComplete : Obligations.PlumbLogEventsComplete := by
  refine ⟨fun ch s hr hch hon => evNext_quiet hr.1 (sampleTick_asks hch hon) hr.2,
    fun ch data s hr hwaits xs hxs => evNext_quiet hr.1 (sampleAnswer_takes hwaits hxs) (quiet_sampleTaken hr.2 ch data xs),
    fun ch s hr => evNext_quiet hr.1 rfl hr.2, fun s t hr ht => ?ruleTick,
    fun r s hr hrule hon hnot hholds hdwell => evNext_running hr (ruleFireDue_fires hrule hon hnot hholds hdwell),
    fun r s hr hrule hfired hholds halarm hgap => evNext_running hr (ruleGapAlarm_repeats hrule hfired hholds halarm hgap),
    fun s t hr ht => ?life, fun e es s hr hqueue => evNext_running hr (logEventWrite_writes hqueue),
    fun cycles s hr hlocked => evNext_quiet hr.1 (if_pos hlocked) hr.2⟩
  case ruleTick =>
    subst ht
    exact evNext_running hr rfl
  case life =>
    subst ht
    exact evNext_running hr (lifeTick_samples s)

end Sys2Proof.Proofs
end

section
/-! PROOFS. Wake's events (R356, R359 to R372, R377): what a record, a timer, a counter, a SYNC and drain make of its state. -/

set_option autoImplicit false

namespace Sys2Proof.Proofs
open Sys2Proof Sys2Proof.Machine Sys2Proof.Laws

section
variable {s : State}

theorem wakRuns_iff : s.wakRuns = true ↔ s.computeActive = true ∧ s.wak.flushUntil = none := by
  simp only [State.wakRuns, Bool.and_eq_true, Option.isNone_iff_eq_none]

/-! ### Events -/

/-- While Wake runs in a session, events of the cycle join those that the machine is to meet. -/
theorem wakEvents_runs (hruns : s.wakRuns = true) (es : List WakEv) :
    wakEvents es s = if s.capture = 0 then s else { s with wak := { s.wak with evs := s.wak.evs ++ es } } := by
  by_cases hcap : s.capture = 0
  · rw [if_pos hcap]
    exact if_pos (.inl hcap)
  · rw [if_neg hcap]
    exact if_neg (by simp [hcap, hruns])

/-- … and keep what Wake's mode and its tier are read from. -/
theorem eventsQueued_leaves (evs : List WakEv) :
    (if s.capture = 0 then s else { s with wak := { s.wak with evs := evs } } : State).capture = s.capture ∧
    (if s.capture = 0 then s else { s with wak := { s.wak with evs := evs } } : State).wakRuns = s.wakRuns := by
  split <;> exact ⟨rfl, rfl⟩

/-! ### Tap records (R356 to R364) -/

/-- While Wake runs, what is to be stored enters its tap's FIFO in a session, or is lost where that is full. -/
theorem tapStore_runs (hruns : s.wakRuns = true) (n : Nat) (body : WakBody) : tapStore n body s =
    if s.capture = 0 then s
    else if 64 ≤ (s.wak.queue.filter (fun x => x.rank == n + 1)).length then
      let acc := match body with | .access _ _ => true | _ => false
      noteLoss 0 (b2n acc) (b2n (!acc)) ((s.inc WAK_FIFO_DROP 1).evt WAK_EVT 3)
    else wakEnqueue (n + 1) (s.capture == 3) body s := by
  by_cases hcap : s.capture = 0
  · rw [if_pos hcap]
    exact if_pos (.inl hcap)
  · rw [if_neg hcap]
    exact if_neg (by simp [hcap, hruns])

section
variable {n auth : Nat} {r : TapRecord} (hactive : s.computeActive = true) (hn : n < 8)
include hactive hn

theorem tapRecord_kind : tapRecord n auth r s =
    if 2 < r.kind then s.inc WAK_FIFO_DROP 1
    else if r.kind = 0 then tapAccess n auth r s
    else if s.getB (WAK_TAP_CFG n) 31 && s.getB (WAK_TAP_CFG n) 28 && s.tapEngine n r.engine then
      if r.kind = 1 then tapStore n (.packet 6 n (leBytes 2 (r.engine % 4096) ++ leBytes 8 r.addr ++ padTo 2 r.data)) s
      else tapStore n (.packet 7 n (leBytes 2 (r.engine % 4096) ++ padTo 4 r.data)) s
    else s :=
  if_neg (by simp [hactive, hn])

theorem tapRecord_reserved (hkind : 2 < r.kind) : tapRecord n auth r s = s.inc WAK_FIFO_DROP 1 :=
  (tapRecord_kind hactive hn).trans (if_pos hkind)

theorem tapRecord_access (hkind : r.kind = 0) : tapRecord n auth r s = tapAccess n auth r s :=
  (tapRecord_kind hactive hn).trans ((if_neg (by omega)).trans (if_pos hkind))

/-- A record of another kind that passes its tap. -/
theorem tapRecord_other {body : WakBody} (hkind : r.kind = 1 ∨ r.kind = 2) (hon : s.getB (WAK_TAP_CFG n) 31 = true)
    (hkinds : s.getB (WAK_TAP_CFG n) 28 = true) (hengine : s.tapEngine n r.engine = true)
    (hbody : body = (if r.kind = 1 then WakBody.packet 6 n (leBytes 2 (r.engine % 4096) ++ leBytes 8 r.addr ++ padTo 2 r.data)
      else .packet 7 n (leBytes 2 (r.engine % 4096) ++ padTo 4 r.data))) : tapRecord n auth r s = tapStore n body s := by
  have hpasses : (s.getB (WAK_TAP_CFG n) 31 && s.getB (WAK_TAP_CFG n) 28 && s.tapEngine n r.engine) = true := by
    simp [hon, hkinds, hengine]
  rw [tapRecord_kind hactive hn, if_neg (by omega), if_neg (by omega), if_pos hpasses, hbody]
  split <;> rfl

end

theorem tapAccess_excluded {n auth : Nat} {r : TapRecord} (hexcl : s.secExcluded auth r = true) :
    tapAccess n auth r s = s.inc WAK_SEC_EXCL 1 := if_pos hexcl

/-- Whether the comparators that an access hits let it be stored: none of them excludes, and one includes where any does. -/
def hitsPass (s : State) (hits : List Nat) : Prop :=
  (∀ k ∈ hits, s.rangeMode k ≠ 2) ∧ ((∀ k, k < 16 → s.rangeMode k ≠ 1) ∨ ∃ k ∈ hits, s.rangeMode k = 1)

theorem hitsPass_iff {hits : List Nat} : hitsPass s hits ↔
    hits.any (fun k => s.rangeMode k == 2) = false ∧
      ((List.range 16).any (fun k => s.rangeMode k == 1) = false ∨ hits.any (fun k => s.rangeMode k == 1) = true) := by
  simp only [hitsPass, List.any_eq_false, List.any_eq_true, List.mem_range, beq_iff_eq, ne_eq]

section
variable {n auth : Nat} {r : TapRecord} {hits : List Nat} (hruns : s.wakRuns = true) (hopen : s.secExcluded auth r = false)
  (hon : s.getB (WAK_TAP_CFG n) 31 = true) (hway : s.getB (WAK_TAP_CFG n) (if r.write then 29 else 30) = true)
  (hengine : s.tapEngine n r.engine = true) (hhits : hits = (List.range 16).filter (fun k => s.rangeHit k r.addr r.size))
include hruns hopen hon hway hengine hhits

omit hruns in
/-- An access that passes its tap is an event of each comparator it hits, and is stored where these let it. -/
theorem tapAccess_passes : tapAccess n auth r s =
    if hits.any (fun k => s.rangeMode k == 2) = false ∧
        ((List.range 16).any (fun k => s.rangeMode k == 1) = false ∨ hits.any (fun k => s.rangeMode k == 1) = true) then
      tapStore n (.access n r) (wakEvents (hits.map .range) s)
    else wakEvents (hits.map .range) s := by
  have hpass : ¬ (bit (s.rd (WAK_TAP_CFG n)) 31 && (if r.write then bit (s.rd (WAK_TAP_CFG n)) 29 else bit (s.rd (WAK_TAP_CFG n)) 30) &&
      s.tapEngine n r.engine) = false := by
    rw [State.getB] at hon hway
    cases hw : r.write <;> simp [hw] at hway <;> simp [hon, hway, hengine]
  subst hhits
  exact (if_neg (Bool.eq_false_iff.1 hopen)).trans (if_neg hpass)

variable {t : State} (ht : t = if s.capture = 0 then s else { s with wak := { s.wak with evs := s.wak.evs ++ hits.map .range } })
include ht

theorem tapAccess_filtered (hno : ¬ hitsPass s hits) : tapAccess n auth r s = t := by
  rw [tapAccess_passes hopen hon hway hengine hhits, if_neg (mt hitsPass_iff.2 hno), wakEvents_runs hruns, ht]

theorem tapAccess_stores (hyes : hitsPass s hits) : tapAccess n auth r s =
    if s.capture = 0 then t
    else if 64 ≤ (t.wak.queue.filter (fun x => x.rank == n + 1)).length then noteLoss 0 1 0 ((t.inc WAK_FIFO_DROP 1).evt WAK_EVT 3)
    else wakEnqueue (n + 1) (t.capture == 3) (.access n r) t := by
  obtain ⟨hcap, hruns'⟩ := eventsQueued_leaves (s := s) (s.wak.evs ++ hits.map .range)
  rw [tapAccess_passes hopen hon hway hengine hhits, if_pos (hitsPass_iff.1 hyes), wakEvents_runs hruns, ← ht]
  rw [← ht] at hcap hruns'
  rw [tapStore_runs (hruns'.trans hruns), hcap]
  rfl

end

/-! ### Timers and counters (R369) -/

theorem timerExpiry_early {n e : Nat} (hset : Tbl.get? s.wak.timers n = some e) (hearly : timeDiff s.now e < 0) : timerExpiry n s = s := by
  simp only [timerExpiry, hset]
  exact if_pos hearly

/-- A timer whose time has come is an event of the cycle, or one that waits for the tier's return. -/
theorem timerExpiry_expires {n e : Nat} (hset : Tbl.get? s.wak.timers n = some e) (hdue : 0 ≤ timeDiff s.now e) (hcap : s.capture ≠ 0) :
    timerExpiry n s = { s with wak := { s.wak with
      timers := Tbl.erase s.wak.timers n
      evs := if s.wakRuns = true then s.wak.evs ++ [.timer n] else s.wak.evs
      held := if s.wakRuns = true then s.wak.held else heldInsert (e, .timer n) s.wak.held } } := by
  simp only [timerExpiry, hset]
  rw [if_neg (by omega)]
  by_cases hruns : s.wakRuns = true
  · simp only [if_pos hruns]
    exact (wakEvents_runs (s := s.modWak (fun w => { w with timers := Tbl.erase w.timers n })) hruns [.timer n]).trans (if_neg hcap)
  · simp only [if_neg hruns]
    exact if_neg hcap

theorem quiet_modWak (hq : Quiet s) (f : WakSt → WakSt) : Quiet (s.modWak f) := hq

/-- The count of a counter lies beside what Wake's mode and its tier are read from. -/
theorem wakRuns_wr_cntVal (n v : Nat) : (s.wr (WAK_CNT_VAL n) v).capture = s.capture ∧ (s.wr (WAK_CNT_VAL n) v).wakRuns = s.wakRuns := by
  have hstatus : WAK_STATUS.off ≠ (WAK_CNT_VAL n).off := by
    show 0xc0014 ≠ 0xc0248 + 0x10 * n
    omega
  have hpower : PLM_POWER.off ≠ (WAK_CNT_VAL n).off := by
    show 0xf0004 ≠ 0xc0248 + 0x10 * n
    omega
  constructor
  · exact getF_wr_other s v 13 2 hstatus
  · rw [State.wakRuns, State.wakRuns, State.computeActive, State.computeActive, State.powerState, getF_wr_other s v 0 2 hpower]
    rfl

theorem counterLimit_raises {n : Nat} (hn : n < 4) (hcap : s.capture ≠ 0) (hruns : s.wakRuns = true) (hon : s.cntOn n = true)
    (hlimit : s.rd (WAK_CNT_LIMIT n) ≤ s.rd (WAK_CNT_VAL n) + 1) {t : State} (ht : t = s.wr (WAK_CNT_VAL n) 0) :
    counterLimit n s = { t with wak := { t.wak with evs := t.wak.evs ++ [.cnt n] } } := by
  obtain ⟨hcap', hruns'⟩ := wakRuns_wr_cntVal (s := s) n 0
  subst ht
  exact (if_pos ⟨hn, hcap, hruns, hon, hlimit⟩).trans ((wakEvents_runs (hruns'.trans hruns) [.cnt n]).trans (if_neg (by rw [hcap']; exact hcap)))

/-! ### SYNC and drain (R365, R372) -/

theorem wakSyncDue_writes (hcapturing : s.capturing = true) (hactive : s.computeActive = true) (hnone : ∀ x ∈ s.wak.queue, x.isSync = false)
    (hdue : 4096 ≤ s.wak.since ∨ (nsU 1000000 : Nat) ≤ timeDiff s.now s.wak.syncAt) :
    wakSyncDue s = wakEnqueue 0 (s.capture == 3) (.sync 0 s.now (s.wakState + s.capture * 8 + b2n s.interest * 32)) s := by
  have hfree : s.wak.queue.any WakItem.isSync = false := List.any_eq_false.2 fun x hx => Bool.eq_false_iff.1 (hnone x hx)
  have htime : (!(s.wak.queue.any WakItem.isSync) &&
      (decide (4096 ≤ s.wak.since) || decide ((nsU 1000000 : Nat) ≤ timeDiff s.now s.wak.syncAt))) = true := by
    simpa [hfree] using hdue
  have hwrites : (s.capturing && s.computeActive) = true := by rw [hcapturing, hactive]; rfl
  exact (if_pos htime).trans (if_pos hwrites)

/-- Drain has a unit only while the tier is there, or in the flush before a power state. -/
theorem drainWants_reaches (hwants : s.drainWants = true) : ¬(s.computeActive = false ∧ s.wak.flushUntil = none) := by
  rintro ⟨hoff, hnone⟩
  simp [State.drainWants, hoff, hnone] at hwants

theorem drainUnit_wants (hwants : s.drainWants = true) : drainUnit s =
    if s.dstRoom = false then s
    else if (wakLeave (drainOne s)).wak.flushing = true ∧ (wakLeave (drainOne s)).wakQueued = 0 ∧ (wakLeave (drainOne s)).wak.queue = [] then
      sessionEnd (wakLeave (drainOne s))
    else wakLeave (drainOne s) :=
  (if_neg (drainWants_reaches hwants)).trans (if_neg (by simp [hwants]))

theorem drainUnit_copies {t : State} (hwants : s.drainWants = true) (hroom : s.dstRoom = true) (ht : t = wakLeave (drainOne s))
    (hgoes : t.wak.flushing = true → t.wakQueued = 0 → t.wak.queue ≠ []) : drainUnit s = t := by
  subst ht
  exact (drainUnit_wants hwants).trans ((if_neg (by simp [hroom])).trans (if_neg fun ⟨hflush, hempty, hnone⟩ => hgoes hflush hempty hnone))

theorem drainUnit_full (hwants : s.drainWants = true) (hfull : s.dstRoom = false) : drainUnit s = s :=
  (drainUnit_wants hwants).trans (if_pos hfull)

end

/-- Settles O28: each row's own part under its conditions. -/
theorem wakeEventsComplete : Obligations.WakeEventsComplete := by
  refine ⟨fun n auth r s t hr hruns hn hkind hopen hon hway hengine hits hhits ht => ?access,
    fun n auth r s hr hactive hn hkind hexcl => evNext_quiet hr.1 ?excluded (quiet_inc hr.2 _ _),
    fun n auth r s hr hactive hn hkind => evNext_quiet hr.1 (tapRecord_reserved hactive hn hkind) (quiet_inc hr.2 _ _),
    fun n auth r s body hr hruns hn hkind hon hkinds hengine hbody => ?other,
    fun n s e hr hset => ⟨fun hearly => evNext_unchanged hr (timerExpiry_early hset hearly),
      fun hdue hcap => evNext_quiet hr.1 (timerExpiry_expires hset hdue hcap) hr.2⟩,
    fun n s t hr hn hcap hruns hon hlimit ht => evNext_quiet hr.1 (counterLimit_raises hn hcap hruns hon hlimit ht) ?counted,
    fun s hr hcapturing hactive hnone hdue =>
      evNext_quiet hr.1 (wakSyncDue_writes hcapturing hactive hnone hdue) hr.2,
    fun s t hr hwants hroom ht hgoes => evNext_running hr (drainUnit_copies hwants hroom ht hgoes),
    fun s hr hwants hfull => evNext_unchanged hr (drainUnit_full hwants hfull)⟩
  case access =>
    have hrow := tapRecord_access (auth := auth) (wakRuns_iff.1 hruns).1 hn hkind
    exact ⟨fun hyes => evNext_running hr (hrow.trans (tapAccess_stores hruns hopen hon hway hengine hhits ht hyes)),
      fun hno => evNext_running hr (hrow.trans (tapAccess_filtered hruns hopen hon hway hengine hhits ht hno))⟩
  case excluded => exact (tapRecord_access hactive hn hkind).trans (tapAccess_excluded hexcl)
  case other =>
    refine evNext_running hr ?_
    rw [tapRecord_other (wakRuns_iff.1 hruns).1 hn hkind hon hkinds hengine hbody, tapStore_runs hruns, hbody]
    rcases hkind with hkind | hkind <;> simp only [hkind, if_true, if_neg (by decide : ¬(2 = 1))] <;> rfl
  case counted =>
    subst ht
    exact quiet_modWak (quiet_wr hr.2 _ _) (fun w => { w with evs := w.evs ++ [.cnt n] })

end Sys2Proof.Proofs
end

section
/-! PROOFS. Witness: the schedule of the engines' tests (R392 to R394, R398), the runs and the self-tests (R395 to R397, R400). -/

set_option autoImplicit false

namespace Sys2Proof.Proofs
open Sys2Proof Sys2Proof.Machine Sys2Proof.Laws

section
variable {n : Nat} {s t : State}

/-! ### An engine falls due, and its window passes (R393) -/

/-- An engine whose class has no pack waits for its next period. -/
theorem witDue_due (hn : n < 64) (hwaiting : s.engSt n = 1) (hdue : s.rd (WIT_ENG_DUE n) ≤ s.nowMs) : witDue n s =
    if s.packsOf (s.getF (WIT_ENG_CFG n) 0 8) = [] then
      (if (setDue n s).computeOff then setDue n s else (setDue n s).inc WIT_NO_PACK 1)
    else setEng n 2 s := by
  have hready : ¬(64 ≤ n ∨ s.engSt n ≠ 1 ∨ s.nowMs < s.rd (WIT_ENG_DUE n)) := by omega
  refine (if_neg hready).trans ?_
  exact ite_congr (propext List.isEmpty_iff) (fun _ => rfl) (fun _ => rfl)

theorem witWindow_passes (hn : n < 64) (hdue : s.engSt n = 2) (hover : s.rd (WIT_ENG_DUE n) + s.rd (WIT_ENG_WIN n) ≤ s.nowMs) :
    witWindow n s = witPolicy n s :=
  if_neg (by omega)

/-- The power of the tier is read beside Witness's counters. -/
theorem computeOff_inc_overdue (s : State) : (s.inc WIT_OVERDUE 1).computeOff = s.computeOff := by
  have hpower : (s.inc WIT_OVERDUE 1).powerState = s.powerState :=
    congrArg (fun v => fld v 0 2) (rd_inc_other s 1 (by decide : PLM_POWER.off ≠ WIT_OVERDUE.off))
  rw [State.computeOff, hpower]
  rfl

theorem witTier_overdue (s : State) : witTier (·.evt WIT_EVT 1) (witTier (·.inc WIT_OVERDUE 1) s) =
    if s.computeOff then s else (s.inc WIT_OVERDUE 1).evt WIT_EVT 1 := by
  cases hoff : s.computeOff with
  | true => simp only [witTier, hoff, if_true]
  | false => simp only [witTier, computeOff_inc_overdue, hoff, Bool.false_eq_true, if_false]

theorem witPolicy_fence (hpolicy : s.getF (WIT_ENG_CFG n) 29 2 = 2) : witPolicy n s =
    logEvent 0x22 (leBytes 2 n) (setEng n 5 (runOver n (if s.computeOff then s else s.inc WIT_OVERDUE 1))) :=
  if_pos hpolicy

theorem witPolicy_goesOn (hpolicy : s.getF (WIT_ENG_CFG n) 29 2 ≠ 2) : witPolicy n s =
    let t := setEng n 3 (if s.computeOff then s else (s.inc WIT_OVERDUE 1).evt WIT_EVT 1)
    if s.getF (WIT_ENG_CFG n) 29 2 = 1 then setPreempt n true t else t := by
  rw [← witTier_overdue]
  exact if_neg hpolicy

/-! ### Grants (R394, R398) -/

theorem gntYields_none (h : s.wit.taken = none) : gntYields n s = s := by
  simp only [gntYields, h]

/-- A grant taken at this same edge yields to one of a lower number. -/
theorem gntYields_lower {m : Nat} (htaken : s.wit.taken = some m) (hlower : n < m) (hedge : s.wit.takenAt = s.dat.edges)
    (hrun : s.wit.run = none) (hlow : bit s.wit.gnt n = false)
    (hasks : ({ s with wit := { s.wit with taken := none } } : State).testReq n = true) : gntYields n s =
    { releaseLeave (.witness m) s with wit := { (releaseLeave (.witness m) s).wit with taken := none } } := by
  simp only [gntYields, htaken]
  exact if_pos ⟨hlower, hedge, by rw [hrun]; rfl, hlow, hasks⟩

/-- A grant that is taken on asks for leave. -/
theorem testGntRise_takes {u : State} (hn : n < 64) (hu : gntYields n s = u) (hlow : bit u.wit.gnt n = false)
    (ht : t = { u with wit := { u.wit with gnt := setFld u.wit.gnt n 1 1 } }) (hasks : t.testReq n = true) (hfree : t.witBusy = false) :
    testGntRise n s = askLeave 4 (t.pwrClass WIT_PWR) (t.pwrAmt WIT_PWR) (.witness n)
      { t with wit := { t.wit with taken := some n, takenAt := t.dat.edges } } := by
  have hgo : ¬(bit u.wit.gnt n = true ∨ t.testReq n = false ∨ t.witBusy = true) := by simp [hlow, hasks, hfree]
  subst ht hu
  exact (if_neg (Nat.not_le.2 hn)).trans (if_neg hgo)

/-- A grant that falls on the engine that runs, or whose leave is asked for, aborts it. -/
theorem testGntFall_aborts (hn : n < 64) (hhigh : s.testReq n = true) (hmine : s.wit.taken = some n ∨ ∃ r, s.wit.run = some r ∧ r.eng = n)
    (ht : t = { s with wit := { s.wit with gnt := setFld s.wit.gnt n 1 0 } }) : testGntFall n s = runAbort n true t := by
  have hlost : (s.testReq n && (s.wit.run.any (fun r => r.eng == n) || s.wit.taken == some n)) = true := by
    rcases hmine with htaken | ⟨r, hrun, heng⟩
    · simp [hhigh, htaken]
    · simp [hhigh, hrun, heng]
  subst ht
  exact (if_neg (Nat.not_le.2 hn)).trans (if_pos hlost)

/-! ### Stagings (R392) -/

/-- Taking a staging out frees its space in Berths. -/
theorem unstagePack_frees (cls version : Nat) (s : State) : unstagePack cls version s =
    ({ s with wit := { s.wit with staging := s.wit.staging.filter (fun x => !(x.cls == cls && x.version == version)) } } : State).each
      ((s.wit.staging.filter (fun x => x.cls == cls && x.version == version)).flatMap (·.bufs)) (fun b u => brtRelease b.1 b.2 u) := by
  simp only [unstagePack, List.partition_eq_filter_filter]
  rfl

theorem stagingTimeout_drops {g : WitStage} (hstaged : s.wit.staging[n]? = some g) (hmissing : g.frags.length ≠ g.nFrag) :
    stagingTimeout n s = pushDrop (unstagePack g.cls g.version s) := by
  have hpart : ¬ g.bytes.isSome = true := by simp [WitStage.bytes, hmissing]
  simp only [stagingTimeout, hstaged, if_neg hpart]

end

/-- Settles O29: each row's own part under its conditions. -/
theorem testScheduleComplete : Obligations.TestScheduleComplete := by
  refine ⟨fun n s hr hn hwaiting hdue => evNext_running hr (witDue_due hn hwaiting hdue),
    fun n s hr hn hdue hover hpolicy => evNext_running hr ((witWindow_passes hn hdue hover).trans (witPolicy_goesOn hpolicy)),
    fun n s hr hn hdue hover hpolicy => evNext_running hr ((witWindow_passes hn hdue hover).trans (witPolicy_fence hpolicy)),
    fun n s t hr hn hlow hnone ht hasks hfree => evNext_running hr (testGntRise_takes hn (gntYields_none hnone) hlow ht hasks hfree),
    fun n m s r u t hr hn hlow htaken hlower hedge hrun hwould hrel hu ht hlow' hasks hfree => ?yields,
    fun n s t hr hn hhigh hmine ht => evNext_running hr (testGntFall_aborts hn hhigh hmine ht),
    fun n s hr => evNext_quiet hr.1 rfl hr.2, fun n s g t hr hstaged hmissing ht => ?staging⟩
  case yields =>
    subst hrel
    exact evNext_running hr
      (testGntRise_takes hn ((gntYields_lower htaken hlower hedge hrun hlow hwould).trans hu.symm) hlow' ht hasks hfree)
  case staging =>
    refine evNext_running hr ?_
    rw [stagingTimeout_drops hstaged hmissing, unstagePack_frees, ← ht]
    rfl

section
variable {n : Nat} {s t : State} {r : WitRun} {b : List Byte}

/-! ### Runs (R395 to R397) -/

/-- A record is injected as the store holds it. -/
theorem injectRecord_read (hread : runPack r s = (some b, t)) : injectRecord r s =
    ({ t with wit := { t.wit with run := some { r with sent := true } } } : State).emit
      (.inject r.eng r.record (slice b (packRec b (packHead b) r.record).inOff (packRec b (packHead b) r.record).inLen)) := by
  simp only [injectRecord, hread]

theorem witRunStart_injects (hrun : s.wit.run = some r) (heng : r.eng = n) (hsent : r.sent = false) : witRunStart n s = injectRecord r s := by
  simp only [witRunStart, hrun]
  exact if_pos ⟨heng, hsent⟩

/-- The awaited output is judged against the record that the store holds. -/
theorem recordReturn_judged {i : Nat} {bytes : List Byte} {p : PackRec} (hrun : s.wit.run = some r) (heng : r.eng = n) (hrec : r.record = i)
    (hsent : r.sent = true) (hread : runPack r s = (some b, t)) (hp : p = packRec b (packHead b) i) : recordReturn n i bytes s =
    if crc64 bytes ≠ p.digest ∨ bytes.length ≠ p.outLen then recordFails r p.digest (crc64 bytes) t
    else if r.ending = true then runAbort n true t
    else if i + 1 < (packHead b).nRec then injectRecord { r with record := i + 1, sent := false } t
    else runPasses r t := by
  have hawaited : ¬(r.eng ≠ n ∨ r.record ≠ i ∨ r.sent = false) := by simp [heng, hrec, hsent]
  subst hp hrec
  simp only [recordReturn, hrun, if_neg hawaited, hread]

/-- An output that no run awaits is counted. -/
theorem recordReturn_stray {i : Nat} {bytes : List Byte} (hstray : ∀ r, s.wit.run = some r → r.eng ≠ n ∨ r.record ≠ i ∨ r.sent = false) :
    recordReturn n i bytes s = if s.computeOff then s else s.inc WIT_RET_STRAY 1 := by
  unfold recordReturn
  cases hrun : s.wit.run with
  | none => rfl
  | some r => exact if_pos (hstray r hrun)

theorem returnTimeout_fails {bytes : List Byte} (hrun : s.wit.run = some r) (heng : r.eng = n) (hsent : r.sent = true)
    (hread : runPack r s = (some b, t)) :
    returnTimeout n bytes s = recordFails r (packRec b (packHead b) r.record).digest (crc64 bytes) t := by
  have hawaited : ¬(r.eng ≠ n ∨ r.sent = false) := by simp [heng, hsent]
  simp only [returnTimeout, hrun, if_neg hawaited, hread]

/-! ### Self-tests (R400) -/

theorem selfRun_runs {cb tb : Bool} (hdue : s.wit.selfDue = true) (hidle : s.selfIdle = true)
    (ht : t = { s with wit := { s.wit with selfRun := some { cadBad := cb, talBad := tb } } }) : selfRun cb tb s =
    if t.selfRoom = true then askLeave 1 (t.pwrClass CAD_PWR) (t.pwrAmt CAD_PWR) (.cadPass 1) t
    else selfTally { cadBad := cb, talBad := tb } 4 (t.inc WIT_SELF_SKIP 1) := by
  subst ht
  exact if_neg (by simp [hdue, hidle])

end

/-- Settles O30: each row's own part under its conditions. -/
theorem testRunsComplete : Obligations.TestRunsComplete := by
  refine ⟨fun n s r t b hr hrun heng hsent hread => ?start,
    fun n i bytes s r t b p hr hrun heng hrec hsent hread hp => evNext_running hr (recordReturn_judged hrun heng hrec hsent hread hp),
    fun n i bytes s hr hstray => evNext_quiet hr.1 (recordReturn_stray hstray) ?stray,
    fun n bytes s r t b hr hrun heng hsent hread => evNext_running hr (returnTimeout_fails hrun heng hsent hread),
    fun s hr hon => evNext_quiet hr.1 (if_pos hon) hr.2,
    fun cb tb s t hr hdue hidle ht => evNext_running hr (selfRun_runs hdue hidle ht)⟩
  case start =>
    subst heng
    exact evNext_running hr ((witRunStart_injects hrun rfl hsent).trans (injectRecord_read hread))
  case stray =>
    split
    · exact hr.2
    · exact quiet_inc hr.2 _ _

end Sys2Proof.Proofs
end

section
/-! PROOFS. Envelopes (R418 to R423): a command by the steps of R419, a relayed one by the table of R422, a reply by what it answers. -/

set_option autoImplicit false

namespace Sys2Proof.Proofs
open Sys2Proof Sys2Proof.Machine Sys2Proof.Laws

/-! ### The steps of R419 that discard an envelope -/

section
variable {e : EnvSeal} {body : List Byte} {s t : State} {k : Nat} {tag : List Byte} (hkey : s.keySlot e.keyId = some k)
  (htag : computeTag (s.key k) body s = (tag, t))
include hkey htag

theorem envAdmit_badTag (hbad : tag ≠ e.mac) (full : State → State) (launch : Nat → State → State) :
    envAdmit e body full launch s = authFail t := by
  simp only [envAdmit, hkey, htag]
  exact if_pos hbad

section
variable (hgood : tag = e.mac)
include hgood

/-- One whose time cannot be read, is out of the window or repeats is a replay. -/
theorem envAdmit_replay (hold : ∀ time, e.time = some time → t.getB DAT_STATE 4 = false ∨ t.replayWin < (timeDiff time t.now).natAbs ∨
    t.replaySlot e.keyId e.origin time = none) (full : State → State) (launch : Nat → State → State) :
    envAdmit e body full launch s = replayDrop t := by
  have hmatch : ¬ tag ≠ e.mac := fun h => h hgood
  simp only [envAdmit, hkey, htag, if_neg hmatch]
  cases htime : e.time with
  | none => rfl
  | some time =>
    by_cases hout : t.getB DAT_STATE 4 = false ∨ t.replayWin < (timeDiff time t.now).natAbs
    · exact if_pos hout
    · have hrepeat : t.replaySlot e.keyId e.origin time = none := by
        rcases hold time htime with h | h | h
        · exact absurd (.inl h) hout
        · exact absurd (.inr h) hout
        · exact h
      simp only [if_neg hout, hrepeat]

/-- One for which the table or Pilot has no room. -/
theorem envAdmit_full {time : Nat} {x : Option Nat} (htime : e.time = some time) (hclock : t.getB DAT_STATE 4 = true)
    (hwindow : (timeDiff time t.now).natAbs ≤ t.replayWin) (hfresh : t.replaySlot e.keyId e.origin time = some x)
    (hnoroom : x = none ∨ 8 ≤ t.rd PIL_REMOTE) (full : State → State) (launch : Nat → State → State) :
    envAdmit e body full launch s = full t := by
  have hmatch : ¬ tag ≠ e.mac := fun h => h hgood
  have hin : ¬(t.getB DAT_STATE 4 = false ∨ t.replayWin < (timeDiff time t.now).natAbs) := by simp [hclock, Nat.not_lt.2 hwindow]
  simp only [envAdmit, hkey, htag, if_neg hmatch, htime, if_neg hin, hfresh]
  cases x with
  | none => rfl
  | some i => exact if_pos (hnoroom.resolve_left (by simp))

end

end

/-! ### Where an envelope goes -/

section
variable {via : Via} {bs : List Byte} {s : State} (hboot : s.pil.booted = true)
include hboot

theorem envelopeIn_malformed (hbad : envelopeOf bs = none) : envelopeIn via bs s = authFail s := by
  have hup : ¬ s.pil.booted = false := by simp [hboot]
  simp only [envelopeIn, if_neg hup, hbad]

section
variable {e : Envelope} (he : envelopeOf bs = some e)
include he

theorem envelopeIn_of : envelopeIn via bs s =
    if e.reply then envReply bs e s
    else if s.stationValid = true ∧ e.station = s.station then envTake via e s
    else if s.isTray then envRelay via bs e s else s := by
  have hup : ¬ s.pil.booted = false := by simp [hboot]
  simp only [envelopeIn, if_neg hup, he]

theorem envelopeIn_reply (hreply : e.reply = true) : envelopeIn via bs s = envReply bs e s :=
  (envelopeIn_of hboot he).trans (if_pos hreply)

section
variable (hcommand : e.reply = false)
include hcommand

theorem envelopeIn_mine (hvalid : s.stationValid = true) (hmine : e.station = s.station) : envelopeIn via bs s = envTake via e s :=
  (envelopeIn_of hboot he).trans ((if_neg (Bool.eq_false_iff.1 hcommand)).trans (if_pos ⟨hvalid, hmine⟩))

theorem envelopeIn_relayed (htray : s.isTray = true) (hother : s.stationValid = true → e.station ≠ s.station) :
    envelopeIn via bs s = envRelay via bs e s := by
  have hnot : ¬(s.stationValid = true ∧ e.station = s.station) := fun h => hother h.1 h.2
  exact (envelopeIn_of hboot he).trans ((if_neg (Bool.eq_false_iff.1 hcommand)).trans ((if_neg hnot).trans (if_pos htray)))

end

end

end

/-- A command for a leaf of this build's chains takes an entry of the relay table (R422). -/
theorem envRelay_sends {via : Via} {bs : List Byte} {e : Envelope} {s : State} {i : Nat} (htray : stTray e.station = stTray s.station)
    (hnames : stNames e.station = true) (hleaf : stPos e.station ≠ 0) (hfree : Tbl.lowestFree s.pil.relay 64 = some i) :
    envRelay via bs e s = sendEnvelope (.chain (stChain e.station)) false e.station bs
      (putRelay (Tbl.set s.pil.relay i ⟨e.station, e.origin, fld (wAt e.words 1) 0 16, via, false⟩) s) := by
  have hmine : ¬(stTray e.station ≠ stTray s.station ∨ stNames e.station = false ∨ stPos e.station = 0) := by simp [htray, hnames, hleaf]
  simp only [envRelay, if_neg hmine, hfree]

/-! ### Replies (R421, R422) -/

theorem envReply_issued {bs : List Byte} {e : Envelope} {s t : State} {x : Issued} {k : Nat}
    (hissued : s.issuedFor e.origin (fld (wAt e.words 1) 0 16) (fld (wAt e.words 1) 16 8) e.station = some x)
    (hkey : s.keySlot e.keyId = some k) (htag : computeTag (s.key k) e.body s = (e.tag, t))
    (hfinal : fld (wAt e.words 0) 0 8 ≠ stAccepted) :
    envReply bs e s = issuedAnswered x e.words { t with pil := { t.pil with issued := t.pil.issued.filter (fun y => y.tag != x.tag) } } := by
  have hmatch : ¬ e.tag ≠ e.tag := fun h => h rfl
  simp only [envReply, hissued, replyTake, replyCheck, hkey, htag, if_neg hmatch, if_neg hfinal]
  rfl

theorem envReply_relayed {bs : List Byte} {e : Envelope} {s : State} {i : Nat} {x : RelayEnt}
    (hissued : s.issuedFor e.origin (fld (wAt e.words 1) 0 16) (fld (wAt e.words 1) 16 8) e.station = none)
    (hentry : s.relayFor e = some (i, x)) : envReply bs e s = sendEnvelope x.source true (stOrigin e.origin) bs
      (putRelay (if fld (wAt e.words 0) 0 8 = stAccepted then Tbl.set s.pil.relay i { x with held := true } else Tbl.erase s.pil.relay i) s) := by
  simp only [envReply, hissued, hentry]

theorem relayTimeout_ends {i : Nat} {s : State} {x : RelayEnt} (hentry : Tbl.get? s.pil.relay i = some x) (hheld : x.held = true) :
    relayTimeout i s = putRelay (Tbl.erase s.pil.relay i) s :=
  if_pos (by rw [hentry, Option.any_some]; exact hheld)

theorem finalReply_done {n st : Nat} {s : State} {j : Job} {res : List Word} (hjob : s.job? n = some j) (hdone : j.phase = .done st res) :
    finalReply n s = deliverFinal j st res s := by
  simp only [finalReply, hjob, hdone]

/-- Settles O41: each envelope by where it goes, a command by the step of R419 that it fails first. -/
theorem envelopeEventsComplete : Obligations.EnvelopeEventsComplete := by
  refine ⟨fun via bs s e k t time i u hr hboot he hcommand hvalid hmine hkey htag htime hclock hwindow hfresh hroom hu => ?launched,
    fun via bs s hr hboot hbad => evNext_running hr (envelopeIn_malformed hboot hbad),
    fun via bs s e hr hboot he hcommand hvalid hmine => ?discarded,
    fun via bs s e i hr htray hboot he hcommand hother hchain hnames hleaf hfree => ?relayed,
    fun via bs s e x k t hr hboot he hreply hissued hkey htag hfinal =>
      evNext_running hr ((envelopeIn_reply hboot he hreply).trans (envReply_issued hissued hkey htag hfinal)),
    fun via bs s e i x hr hboot he hreply hissued hentry =>
      evNext_running hr ((envelopeIn_reply hboot he hreply).trans (envReply_relayed hissued hentry)),
    fun i s x t hr hentry hheld ht => ?ends, fun n s j st res hr hjob hdone => evNext_running hr (finalReply_done hjob hdone)⟩
  case launched =>
    have hadmitted : Admitted e.seal e.body s k time t i := ⟨hkey, htime, htag, hclock, hwindow, hfresh, hroom⟩
    subst hu
    exact evNext_running hr ((envelopeIn_mine hboot he hcommand hvalid hmine).trans (envAdmit_admitted hadmitted _ _))
  case discarded =>
    have hrow : ∀ v, envTake via e s = v → exec (.envelopeReceive via bs) s = .next (finish v) := fun v hv =>
      evNext_running hr ((envelopeIn_mine hboot he hcommand hvalid hmine).trans hv)
    refine ⟨fun hnokey => hrow _ (envAdmit_unknownKey (e := e.seal) hnokey _ _ _),
      fun k tag t hkey htag => ⟨fun hbad => hrow _ (envAdmit_badTag (e := e.seal) hkey htag hbad _ _),
        fun hgood hold => hrow _ (envAdmit_replay (e := e.seal) hkey htag hgood hold _ _),
        fun time x hgood htime hclock hwindow hfresh hnoroom =>
          hrow _ (envAdmit_full (e := e.seal) hkey htag hgood htime hclock hwindow hfresh hnoroom _ _)⟩⟩
  case relayed =>
    have hin : (if s.isTray then envelopeIn via bs s else s) = envelopeIn via bs s := if_pos htray
    exact evNext_running hr (hin.trans
      ((envelopeIn_relayed hboot he hcommand htray hother).trans (envRelay_sends hchain hnames hleaf hfree)))
  case ends =>
    subst ht
    exact evNext_running hr (relayTimeout_ends hentry hheld)

end Sys2Proof.Proofs
end

section
/-! PROOFS. What reaches and leaves a tray build (R347, R348, R380, R484 to R511): alarms, the records of its rings, frames, and a cycle of
Berths. -/

set_option autoImplicit false

namespace Sys2Proof.Proofs
open Sys2Proof Sys2Proof.Machine Sys2Proof.Laws

section
variable {s : State}

/-! ### Alarms (R347, R348) -/

theorem alarmHoldEnd_ends {k : Nat} {e : HoldEnt} (hheld : Tbl.get? s.vrd.hold k = some e) : alarmHoldEnd k s =
    let t : State := { s with vrd := { s.vrd with hold := Tbl.erase s.vrd.hold k } }
    if 0 < e.count then putAlarm (alarmVerdict e.kind e.station e.unit e.rule e.count e.tEvent e.value true) t else t := by
  simp only [alarmHoldEnd, hheld]

/-! ### The rings (R380, R499) -/

section
variable {src parcel : Nat} {bs rec : List Byte} (hrec : rec = seriesRecord src parcel bs)
include hrec

theorem seriesWrite_waits (hwaits : s.ownWaits (.series rec) rec.length = true) :
    seriesWrite src parcel bs s = ownAsk (.series rec) rec.length s := by
  subst hrec
  exact if_pos hwaits

section
variable (hgoes : s.ownWaits (.series rec) rec.length = false)
include hgoes

theorem seriesWrite_goes : seriesWrite src parcel bs s = seriesPut rec s := by
  subst hrec
  exact if_neg (Bool.eq_false_iff.1 hgoes)

/-- A record that fits is written, and sent on where that is asked for. -/
theorem seriesWrite_fits {t : State}
    (hroom : (s.rd STW_SR_WR + 2 ^ 64 - s.rd STW_SR_RD) % 2 ^ 64 + rec.length ≤ s.getF STW_SR_SIZE 0 28 * 4096)
    (ht : t = (storeRing (s.rd STW_SR_BASE) (s.getF STW_SR_SIZE 0 28 * 4096) (s.rd STW_SR_WR) rec s).inc STW_SR_WR rec.length) :
    seriesWrite src parcel bs s = if s.getB STW_SR_CTL 0 = true then
      sendLanding ⟨0, s.rdIp STW_SR_COLL⟩ ⟨4, 4, 0, leAt rec 4 2, 0, false, false, false, withCrc rec, 0⟩ t else t := by
  rw [seriesWrite_goes hrec hgoes, ht]
  exact if_neg (Nat.not_lt.2 hroom)

theorem seriesWrite_full (hfull : s.getF STW_SR_SIZE 0 28 * 4096 < (s.rd STW_SR_WR + 2 ^ 64 - s.rd STW_SR_RD) % 2 ^ 64 + rec.length) :
    seriesWrite src parcel bs s = s.inc STW_SR_DROP 1 :=
  (seriesWrite_goes hrec hgoes).trans (if_pos hfull)

end

end

/-- An excerpt's record: its source, its session and offset, and what the message holds of it. -/
theorem excerptReceive_kind {src k session off : Nat} {bs body r w : List Byte} (htray : s.isTray = true) (hk : k = leAt bs 0 1)
    (hkind : k = 1 ∨ k = 2) (hsession : session = (if k = 1 then leAt bs 2 2 else 0xFFFF))
    (hoff : off = (if k = 1 then leAt bs 4 8 else leAt bs 4 4)) (hbody : body = (if k = 1 then bs.drop 16 else bs.drop 12))
    (hr : r = leBytes 4 src ++ leBytes 2 session ++ zeros 2 ++ leBytes 8 off ++ leBytes 4 body.length ++ zeros 4 ++ body)
    (hw : w = r ++ zeros ((8 - r.length % 8) % 8)) : excerptReceive src bs s =
    if s.ownWaits (.excerpt w) w.length = true then ownAsk (.excerpt w) w.length s else excerptPut w s := by
  have htaken : ¬(s.isTray = false ∨ (k ≠ 1 ∧ k ≠ 2)) := by
    simp only [htray, Bool.true_eq_false, false_or]
    omega
  subst hw hr hsession hoff hbody
  simp only [excerptReceive, ← hk]
  rw [if_neg htaken]
  rcases hkind with rfl | rfl <;> rfl

/-! ### Frames (R503, R504) -/

section
variable {st : Nat} (htray : s.isTray = true) (hon : s.streamOn st = true)
include htray hon

theorem frame_taken : ¬(s.isTray = false ∨ s.streamOn st = false) := by simp [htray, hon]

section
variable {bs : List Byte} {age : Nat} {cellIn : LndAddr → List Byte → State → State}

theorem frameReceive_failed : frameReceive cellIn st bs age true s = rxBad s :=
  (if_neg (frame_taken htray hon)).trans (if_pos rfl)

theorem frameReceive_sound : frameReceive cellIn st bs age false s =
    if leAt bs 0 6 ≠ s.rd LND_MAC then forwardFrame st bs (s.rxEdge age).1 (s.rxEdge age).2
    else match ptpOffset bs with
      | some off => ptpIn st off bs (s.rxEdge age).1 (s.rxEdge age).2
      | none => if bundleOk s bs then bundleIn cellIn st bs s else rxBad s :=
  (if_neg (frame_taken htray hon)).trans (if_neg Bool.false_ne_true)

theorem frameReceive_forwards (hother : leAt bs 0 6 ≠ s.rd LND_MAC) :
    frameReceive cellIn st bs age false s = forwardFrame st bs (s.rxEdge age).1 (s.rxEdge age).2 :=
  (frameReceive_sound htray hon).trans (if_pos hother)

section
variable (hmine : leAt bs 0 6 = s.rd LND_MAC)
include hmine

theorem frameReceive_ptp {off : Nat} (hptp : ptpOffset bs = some off) :
    frameReceive cellIn st bs age false s = ptpIn st off bs (s.rxEdge age).1 (s.rxEdge age).2 := by
  rw [frameReceive_sound htray hon, if_neg (fun h => h hmine), hptp]

theorem frameReceive_bundle (hptp : ptpOffset bs = none) :
    frameReceive cellIn st bs age false s = if bundleOk s bs = true then bundleIn cellIn st bs s else rxBad s := by
  rw [frameReceive_sound htray hon, if_neg (fun h => h hmine), hptp]

end

end

section
variable {t : State} (ht : t = lndIdle st (lndSwapDue (cycleOf s.now) s))
include ht

/-- At a frame boundary a 1588 frame goes first … -/
theorem frameTransmit_time {e : Nat × List Byte} (htime : t.lnd.time.find? (fun e => e.1 == st) = some e) :
    frameTransmit st s = timeLeaves st e.2 { t with lnd := { t.lnd with time := t.lnd.time.erase e } } := by
  subst ht
  simp only [frameTransmit, if_neg (frame_taken htray hon), htime]

section
variable (htime : t.lnd.time.find? (fun e => e.1 == st) = none)
include htime

/-- … then a forwarded one … -/
theorem frameTransmit_forward {e : Nat × Nat × List Byte} (hforward : t.lnd.forward.find? (fun e => e.1 == st) = some e) :
    frameTransmit st s = forwardLeaves st e.2.1 e.2.2 { t with lnd := { t.lnd with forward := t.lnd.forward.erase e } } := by
  subst ht
  simp only [frameTransmit, if_neg (frame_taken htray hon), htime, hforward]

/-- … then that of the classes. -/
theorem frameTransmit_class {f : LndFrame} (hforward : t.lnd.forward.find? (fun e => e.1 == st) = none) (hnext : t.lndNext st = some f) :
    frameTransmit st s = lndSend f t := by
  subst ht
  simp only [frameTransmit, if_neg (frame_taken htray hon), htime, hforward, hnext]

end

end

end

end

/-! ### Berths (R485, R488) -/

theorem mem_of_brtPick {x : BrtReq} {rs : List BrtReq} (h : brtPick rs = some x) : x ∈ rs := by
  induction rs generalizing x with
  | nil => cases h
  | cons r rs ih =>
    unfold brtPick at h
    split at h
    next y hy =>
      split at h
      · cases h
        exact List.mem_cons_of_mem _ (ih hy)
      · cases h
        exact List.mem_cons_self
    next =>
      cases h
      exact List.mem_cons_self

/-- A request that none of those behind it precedes stands before them. -/
theorem brtPick_head {r : BrtReq} {post : List BrtReq} (hpost : ∀ x ∈ post, brtRank r.kind ≤ brtRank x.kind) :
    brtPick (r :: post) = some r := by
  unfold brtPick
  split
  next x hx => exact if_neg (Nat.not_lt.2 (hpost x (mem_of_brtPick hx)))
  next => rfl

/-- The first of the lowest rank is taken. -/
theorem brtPick_first {r : BrtReq} {pre post : List BrtReq} (hpre : ∀ x ∈ pre, brtRank r.kind < brtRank x.kind)
    (hpost : ∀ x ∈ post, brtRank r.kind ≤ brtRank x.kind) : brtPick (pre ++ r :: post) = some r := by
  induction pre with
  | nil => exact brtPick_head hpost
  | cons p pre ih =>
    have hrest := ih fun x hx => hpre x (List.mem_cons_of_mem _ hx)
    rw [List.cons_append, brtPick, hrest]
    exact if_pos (hpre p List.mem_cons_self)

section
variable {first : BrtReq} {more : List BrtReq} {freed : List (Nat × Nat)} {s : State} {w : List BrtReq}
  (hw : w = s.brtWait ++ (first :: more).filter (fun r => r.size != 0))
include hw

theorem brtCycle_idle (hnone : w = []) : brtCycle (first :: more) freed s =
    s.each freed (fun x u => memReadBack 0 (brtKey x.1 x.2) (brtRelease x.1 x.2 u)) := by
  have hpick : brtPick (s.brtWait ++ (first :: more).filter (fun r => r.size != 0)) = none := by rw [← hw, hnone]; rfl
  simp only [brtCycle, hpick]

theorem brtCycle_serves {r : BrtReq} {b : Option (List (Nat × Nat))} {t : State} (hpick : brtPick w = some r)
    (hserved : brtRequest (brtUrgent r.kind) r.size { s with brtWait := w.erase r } = (b, t)) : brtCycle (first :: more) freed s =
    (brtWritten (b.getD []) t).each freed (fun x u => memReadBack 0 (brtKey x.1 x.2) (brtRelease x.1 x.2 u)) := by
  subst hw
  simp only [brtCycle, hpick, hserved]

end

/-- A row that a tray build alone has. -/
theorem evNext_tray {f : State → State} {s t : State} (hr : Running s) (htray : s.isTray = true) (hf : f s = t) :
    evNext (fun u => if u.isTray then f u else u) s = .next (finish t) :=
  evNext_running hr ((if_pos htray).trans hf)

/-- Settles O43: each row's own part under its conditions. -/
theorem trayEventsComplete : Obligations.TrayEventsComplete := by
  refine ⟨fun src bs s hr htray => evNext_running hr (if_pos htray),
    fun k s e t hr hheld ht => ?holdEnds,
    fun src parcel bs s rec t hr htray hrec hroom hgoes ht => evNext_tray hr htray (seriesWrite_fits hrec hgoes hroom ht),
    fun src parcel bs s rec hr htray hrec hwaits => evNext_tray hr htray (seriesWrite_waits hrec hwaits),
    fun src parcel bs s hr htray hgoes hfull => ?dropped,
    fun src bs s k session off body r w hr htray hk hkind hsession hoff hbody hrec hw => ?excerpt,
    fun st bs age s x t hr htray hon hedge => ?frame,
    fun st bs age s hr htray hon hmine hptp => ?bundle,
    fun st bs age s hr htray hon => evNext_running hr (frameReceive_failed htray hon),
    fun st s t hr htray hon ht => ⟨fun e htime => evNext_running hr (frameTransmit_time htray hon ht htime),
      fun htime e hforward => evNext_running hr (frameTransmit_forward htray hon ht htime hforward),
      fun htime hforward f hnext => evNext_running hr (frameTransmit_class htray hon ht htime hforward hnext)⟩,
    fun first more freed s w hr hw => ⟨fun hnone => evNext_running hr (brtCycle_idle hw hnone),
      fun pre r post b t hsplit hpre hpost hserved =>
        evNext_running hr (brtCycle_serves hw (hsplit ▸ brtPick_first hpre hpost) hserved)⟩⟩
  case holdEnds =>
    subst ht
    exact evNext_running hr (alarmHoldEnd_ends hheld)
  case dropped =>
    exact (evNext_tray hr htray (seriesWrite_full rfl hgoes hfull)).trans (congrArg _ (finish_quiet (quiet_inc hr.2 _ _)))
  case excerpt =>
    have hrow := excerptReceive_kind htray hk hkind hsession hoff hbody hrec hw
    refine ⟨fun hwaits => evNext_running hr (hrow.trans (if_pos hwaits)), fun hgoes => ?_⟩
    have hput := hrow.trans (if_neg (Bool.eq_false_iff.1 hgoes))
    exact ⟨fun hroom => evNext_running hr (hput.trans (if_neg (Nat.not_lt.2 hroom))),
      fun hfull => evNext_running hr (hput.trans (if_pos hfull))⟩
  case frame =>
    obtain ⟨hx, ht⟩ : (s.rxEdge age).1 = x ∧ (s.rxEdge age).2 = t := by rw [hedge]; exact ⟨rfl, rfl⟩
    subst hx ht
    exact ⟨fun hother => evNext_running hr (frameReceive_forwards htray hon hother),
      fun hmine off hptp => evNext_running hr (frameReceive_ptp htray hon hmine hptp)⟩
  case bundle =>
    have hrow := frameReceive_bundle (age := age) (cellIn := landingCellIn) htray hon hmine hptp
    exact ⟨fun hok => evNext_running hr (hrow.trans (if_pos hok)),
      fun hbad => evNext_running hr (hrow.trans (if_neg (Bool.eq_false_iff.1 hbad)))⟩

end Sys2Proof.Proofs
end
